-- ==== Sys2Proof/Word.lean ====
section
/-! DEFINITION. The word types of the Zillor Verub (00_scope R1): a byte is 8 bits, a half 16, a word 32, a dword 64. -/

namespace Sys2Proof

/-- 8 bits (R1). -/
abbrev Byte := BitVec 8
/-- 16 bits (R1). -/
abbrev Half := BitVec 16
/-- 32 bits (R1); one vector lane (R46). -/
abbrev Lane := BitVec 32
/-- 64 bits (R1): a general register (R46), an instruction word (R61), a dword. -/
abbrev Dword := BitVec 64
/-- A vector register: 64 lanes of 32 bits (R46). -/
abbrev VReg := BitVec 2048

end Sys2Proof
end

