-- ==== Sys2Proof/Syntax.lean ====
section
/-! DEFINITION. The abstract syntax: operand forms of the nine formats (04 R63 to R77) and the ONE inductive Instr. -/

namespace Sys2Proof

/-- The type codes 0 to 14 (R66); code 15 is reserved and is no term. -/
inductive Ty where
  | i8 | n8 | i16 | n16 | i32 | n32 | i64 | n64 | e4m3 | e5m2 | bf16 | f16 | f32 | f64 | e2m1
deriving DecidableEq, Repr

/-- The rounding codes 000 to 110 of mod[15:13] (R69); 111 is reserved and is no term. -/
inductive Rnd where
  | dyn | rne | rtz | rup | rdn | rna | sr
deriving DecidableEq, Repr

/-- The mod field of formats R, I, A and X (R69). -/
structure Mods where
  rnd : Rnd
  sat : Bool
  na : Bool
  nb : Bool
  nc : Bool
  w : Bool
deriving DecidableEq, Repr

/-- The order field mod[11:10] of the atomic opcodes (R69, R162). -/
inductive Order where
  | relaxed | acq | rel | ar
deriving DecidableEq, Repr

/-- A register specifier (R65): general, vector, indirect vector, and the special values a0 to a3, p0 to p15, tl0 to tl7.
The reserved special values are no terms. -/
inductive Reg where
  | g (n : Fin 64)
  | v (n : Fin 64)
  | vi (n : Fin 64)
  | a (n : Fin 4)
  | p (n : Fin 16)
  | tl (n : Fin 8)
deriving DecidableEq, Repr

/-- The guard byte (R68): none (EN = 0, the rest zero), or a condition select with its negation. -/
inductive Guard where
  | always
  | cond (neg : Bool) (sel : Fin 64)
deriving DecidableEq, Repr

/-- The accumulate mode am of format X (R73); 11 is no term. -/
inductive AccMode where
  | set | add | sub
deriving DecidableEq, Repr

/-- The address space sp of format M (R71); 11 is no term. -/
inductive Space where
  | global | tile | remote
deriving DecidableEq, Repr

/-- Format R (R63). -/
structure RFields where
  guard : Guard
  ty : Ty
  d : Reg
  a : Reg
  b : Reg
  c : Reg
  pm : Fin 16
  mods : Mods
deriving DecidableEq, Repr

/-- Format R as FCVT and VCVT use it: the destination type in ty, the source type in c[23:20] (R67). -/
structure CvtFields where
  guard : Guard
  ty : Ty
  src : Ty
  d : Reg
  a : Reg
  b : Reg
  pm : Fin 16
  mods : Mods
deriving DecidableEq, Repr

/-- Format R as the atomic opcodes 0x98 to 0xA7 use it: an order field in place of NA and NB (R69). -/
structure AtomFields where
  guard : Guard
  ty : Ty
  d : Reg
  a : Reg
  b : Reg
  c : Reg
  pm : Fin 16
  rnd : Rnd
  sat : Bool
  order : Order
deriving DecidableEq, Repr

/-- Format I (R63). -/
structure IFields where
  guard : Guard
  ty : Ty
  d : Reg
  a : Reg
  imm : Half
  pm : Fin 16
  mods : Mods
deriving DecidableEq, Repr

/-- Format L (R63, R75). -/
structure LFields where
  guard : Guard
  d : Reg
  imm : BitVec 40
deriving DecidableEq, Repr

/-- Format B (R63, R75): sel and the signed displacement in instructions. -/
structure BFields where
  guard : Guard
  sel : Fin 64
  disp : BitVec 42
deriving DecidableEq, Repr

/-- Format M (R63, R71); hint[11:10] must be zero and is not kept. -/
structure MFields where
  guard : Guard
  ty : Ty
  d : Reg
  base : Reg
  index : Reg
  disp : Byte
  pm : Fin 16
  sp : Space
  scl : Fin 4
  co : Bool
  ns : Bool
deriving DecidableEq, Repr

/-- Format A (R63, R72); rsv must be zero and is not kept. -/
structure AFields where
  guard : Guard
  ty : Ty
  d : Reg
  arc : Fin 16
  count : Byte
  off : Byte
  pm : Fin 16
  mods : Mods
deriving DecidableEq, Repr

/-- Format X (R63, R73). K/idx is a count for MMA and MREC and a register specifier for MMAG and MMT, so its eight bits stay. -/
structure XFields where
  guard : Guard
  tyA : Ty
  tyB : Ty
  acc : Fin 4
  am : AccMode
  a : Reg
  b : Reg
  kidx : Byte
  pm : Fin 16
  mods : Mods
deriving DecidableEq, Repr

/-- Format E (R63, R74): flags[23] is bw and flags[22:20] is flags; rsv must be zero and is not kept. -/
structure EFields where
  guard : Guard
  tl : Fin 8
  deferred : Bool
  desc : Reg
  len : Reg
  bar : BitVec 12
  bw : Bool
  flags : BitVec 3
deriving DecidableEq, Repr

/-- Format Y (R63, R75); rsv must be zero and is not kept. -/
structure YFields where
  guard : Guard
  sub : Byte
  sysreg : BitVec 12
  gr : Reg
deriving DecidableEq, Repr

/-- An atomic request that arrives at a home (R137): the one a slot of this package waits on (its home lies in a peer),
or one that a peer package sent to a home here, with its tag and issue age in ns (R167), its generation (R366), the opcode,
type code, physical address, operands, rounding mode and stochastic bits as the issuer sampled them (R163, R165). -/
inductive HomeRequest where
  | own (k : Nat)
  | peer (pkg slot tag age cove gen opcode ty pa : Nat) (b c : Dword) (rm : Rnd) (sat : Bool) (sr : Nat)
  /-- ARTY of a peer: what does the home of an address here answer of a tag (R167)? -/
  | ask (pkg slot tag pa : Nat)
deriving DecidableEq, Repr

/-- What the Causeway carries on an arc from another package (02 R25, R42, 06 R116): a token with the context tag of its producer and
its poison (23 R398), the marker of a cut, a mode token with the region, the set and its issuer's number, or a control entry that sets
a bit of c. -/
inductive Carried where
  | token (tag : Nat) (bytes : List Byte) (poisoned : Bool)
  | marker (cut : Nat)
  | mode (region rset issuer : Nat)
  | user (bit : Fin 32)
  /-- On an arc to another package: its consumer there has exited (02 R41). -/
  | closed
deriving DecidableEq, Repr

/-- Where an error struck (R397): the site code, the die and unit of its record (R409), the slot key for sites that name a
slot, the cove tag, the address, and for a structure whose entries no register shows the coves that have an entry in its domain
(R364). At site 9, `slot` names the structure: 0 tile slot, 1 tile TLB, 2 shelf slice, 3 strand engine, 4 Causeway link, 5 flood engine,
6 copy engine of a tile, 7 collective engine. At site 12 it does so too: 0 the line at
the address, 1 the state block of queue `unit`, 2 the order log of context `unit`. -/
structure ErrorSite where
  site : Nat
  die : Nat
  unit : Nat
  slot : Nat
  cove : Nat
  addr : Nat
  coves : List Nat
deriving DecidableEq, Repr

/-- The three sensors of the Lighthouse (R393). -/
inductive Sensor where
  | glitch | temperature | clock
deriving DecidableEq, Repr

/-- One constructor per row of spec/opcode_table.json. The first 234 rows are instructions, whose operands stand in one
record of their format; the other 129 rows are steps of the part that no instruction word encodes, with what the step names. -/
inductive Instr where
  /-- NOP (0x01, R100). -/
  | nop (x : RFields)
  /-- BRA (0x02, R97). -/
  | bra (x : BFields)
  /-- BRC (0x03, R97). -/
  | brc (x : BFields)
  /-- BRN (0x04, R97). -/
  | brn (x : BFields)
  /-- JMP (0x05, R99). -/
  | jmp (x : RFields)
  /-- CALL (0x06, R97). -/
  | call (x : BFields)
  /-- RET (0x07, R99). -/
  | ret (x : RFields)
  /-- LOOP (0x08, R98). -/
  | loop (x : BFields)
  /-- CSET (0x09, R101). -/
  | cset (x : IFields)
  /-- CCLR (0x0A, R101). -/
  | cclr (x : IFields)
  /-- CLOG (0x0B, R102). -/
  | clog (x : IFields)
  /-- FEND (0x0C, R103). -/
  | fend (x : RFields)
  /-- FABT (0x0D, R105). -/
  | fabt (x : RFields)
  /-- TRAP (0x0E, R105). -/
  | trap (x : IFields)
  /-- BRK (0x0F, R105). -/
  | brk (x : RFields)
  /-- ADD (0x10, R218). -/
  | add (x : RFields)
  /-- SUB (0x11, R218). -/
  | sub (x : RFields)
  /-- MUL (0x12, R218). -/
  | mul (x : RFields)
  /-- MULH (0x13, R218). -/
  | mulh (x : RFields)
  /-- DIV (0x14, R219). -/
  | div (x : RFields)
  /-- REM (0x15, R219). -/
  | rem (x : RFields)
  /-- AND (0x16, R218). -/
  | and (x : RFields)
  /-- OR (0x17, R218). -/
  | or (x : RFields)
  /-- XOR (0x18, R218). -/
  | xor (x : RFields)
  /-- ANDN (0x19, R218). -/
  | andn (x : RFields)
  /-- SHL (0x1A, R220). -/
  | shl (x : RFields)
  /-- SHR (0x1B, R220). -/
  | shr (x : RFields)
  /-- SAR (0x1C, R220). -/
  | sar (x : RFields)
  /-- ROT (0x1D, R220). -/
  | rot (x : RFields)
  /-- MIN (0x1E, R218). -/
  | min (x : RFields)
  /-- MAX (0x1F, R218). -/
  | max (x : RFields)
  /-- CMP (0x20, R222). -/
  | cmp (x : RFields)
  /-- SEL (0x21, R218). -/
  | sel (x : RFields)
  /-- CLZ (0x22, R218). -/
  | clz (x : RFields)
  /-- POPC (0x23, R218). -/
  | popc (x : RFields)
  /-- BEXT (0x24, R221). -/
  | bext (x : RFields)
  /-- BINS (0x25, R221). -/
  | bins (x : RFields)
  /-- ADDS (0x26, R218). -/
  | adds (x : RFields)
  /-- ADDI (0x27, R223). -/
  | addi (x : IFields)
  /-- ANDI (0x28, R223). -/
  | andi (x : IFields)
  /-- ORI (0x29, R223). -/
  | ori (x : IFields)
  /-- XORI (0x2A, R223). -/
  | xori (x : IFields)
  /-- SHLI (0x2B, R223). -/
  | shli (x : IFields)
  /-- SHRI (0x2C, R223). -/
  | shri (x : IFields)
  /-- SARI (0x2D, R223). -/
  | sari (x : IFields)
  /-- CMPI (0x2E, R223). -/
  | cmpi (x : IFields)
  /-- LIL (0x2F, R224). -/
  | lil (x : LFields)
  /-- FADD (0x30, R225). -/
  | fadd (x : RFields)
  /-- FSUB (0x31, R225). -/
  | fsub (x : RFields)
  /-- FMUL (0x32, R225). -/
  | fmul (x : RFields)
  /-- FDIV (0x33, R225). -/
  | fdiv (x : RFields)
  /-- FSQRT (0x34, R225). -/
  | fsqrt (x : RFields)
  /-- FFMA (0x35, R225). -/
  | ffma (x : RFields)
  /-- FMIN (0x36, R226). -/
  | fmin (x : RFields)
  /-- FMAX (0x37, R226). -/
  | fmax (x : RFields)
  /-- FCMP (0x38, R227). -/
  | fcmp (x : RFields)
  /-- FCLASS (0x39, R228). -/
  | fclass (x : RFields)
  /-- FCVT (0x3A, R229). -/
  | fcvt (x : CvtFields)
  /-- FSGN (0x3B, R230). -/
  | fsgn (x : RFields)
  /-- FMVI (0x3C, R230). -/
  | fmvi (x : IFields)
  /-- FRND (0x3D, R231). -/
  | frnd (x : RFields)
  /-- FSCL (0x3E, R231). -/
  | fscl (x : RFields)
  /-- FFLG (0x3F, R232). -/
  | fflg (x : RFields)
  /-- VADD (0x40, R233). -/
  | vadd (x : RFields)
  /-- VSUB (0x41, R233). -/
  | vsub (x : RFields)
  /-- VMUL (0x42, R233). -/
  | vmul (x : RFields)
  /-- VFMA (0x43, R233). -/
  | vfma (x : RFields)
  /-- VDIV (0x44, R233). -/
  | vdiv (x : RFields)
  /-- VSQRT (0x45, R234). -/
  | vsqrt (x : RFields)
  /-- VRCP (0x46, R234). -/
  | vrcp (x : RFields)
  /-- VRSQ (0x47, R234). -/
  | vrsq (x : RFields)
  /-- VMIN (0x48, R233). -/
  | vmin (x : RFields)
  /-- VMAX (0x49, R233). -/
  | vmax (x : RFields)
  /-- VABS (0x4A, R233). -/
  | vabs (x : RFields)
  /-- VNEG (0x4B, R233). -/
  | vneg (x : RFields)
  /-- VAND (0x4C, R233). -/
  | vand (x : RFields)
  /-- VOR (0x4D, R233). -/
  | vor (x : RFields)
  /-- VXOR (0x4E, R233). -/
  | vxor (x : RFields)
  /-- VSHL (0x4F, R233). -/
  | vshl (x : RFields)
  /-- VSHR (0x50, R233). -/
  | vshr (x : RFields)
  /-- VSAR (0x51, R233). -/
  | vsar (x : RFields)
  /-- VCMP (0x52, R242). -/
  | vcmp (x : RFields)
  /-- VSEL (0x53, R241). -/
  | vsel (x : RFields)
  /-- VCVT (0x54, R237). -/
  | vcvt (x : CvtFields)
  /-- VEXP2 (0x55, R234). -/
  | vexp2 (x : RFields)
  /-- VLOG2 (0x56, R234). -/
  | vlog2 (x : RFields)
  /-- VSCL (0x57, R233). -/
  | vscl (x : RFields)
  /-- VCLASS (0x58, R233). -/
  | vclass (x : RFields)
  /-- VADDS (0x59, R235). -/
  | vadds (x : RFields)
  /-- VSUBS (0x5A, R235). -/
  | vsubs (x : RFields)
  /-- VMULH (0x5B, R233). -/
  | vmulh (x : RFields)
  /-- VDOT (0x5C, R236). -/
  | vdot (x : RFields)
  /-- VADDI (0x5D, R235). -/
  | vaddi (x : IFields)
  /-- VMULI (0x5E, R235). -/
  | vmuli (x : IFields)
  /-- VBCST (0x5F, R239). -/
  | vbcst (x : RFields)
  /-- VEXT (0x60, R239). -/
  | vext (x : RFields)
  /-- VINS (0x61, R239). -/
  | vins (x : RFields)
  /-- VIDX (0x62, R239). -/
  | vidx (x : RFields)
  /-- VRED (0x63, R245). -/
  | vred (x : RFields)
  /-- VSCAN (0x64, R246). -/
  | vscan (x : RFields)
  /-- VPERM (0x65, R240). -/
  | vperm (x : RFields)
  /-- VSHUF (0x66, R240). -/
  | vshuf (x : RFields)
  /-- VCMPR (0x67, R241). -/
  | vcmpr (x : RFields)
  /-- VEXPN (0x68, R241). -/
  | vexpn (x : RFields)
  /-- VPCNT (0x69, R243). -/
  | vpcnt (x : RFields)
  /-- PLOG (0x6A, R243). -/
  | plog (x : RFields)
  /-- VQNT (0x6B, R238). -/
  | vqnt (x : RFields)
  /-- VDQT (0x6C, R238). -/
  | vdqt (x : RFields)
  /-- VSORT (0x6D, R248). -/
  | vsort (x : RFields)
  /-- VSEG (0x6E, R247). -/
  | vseg (x : RFields)
  /-- VMOV (0x6F, R239). -/
  | vmov (x : RFields)
  /-- MMA (0x70, R258). -/
  | mma (x : XFields)
  /-- MMAG (0x71, R259). -/
  | mmag (x : XFields)
  /-- MMT (0x72, R260). -/
  | mmt (x : XFields)
  /-- MREC (0x73, R264). -/
  | mrec (x : XFields)
  /-- MZERO (0x74, R265). -/
  | mzero (x : RFields)
  /-- MLDA (0x75, R266). -/
  | mlda (x : MFields)
  /-- MSTA (0x76, R266). -/
  | msta (x : MFields)
  /-- MSCL (0x77, R268). -/
  | mscl (x : RFields)
  /-- MSPLT (0x78, R270). -/
  | msplt (x : RFields)
  /-- MJOIN (0x79, R272). -/
  | mjoin (x : RFields)
  /-- MTSW (0x7A, R269). -/
  | mtsw (x : RFields)
  /-- MTST (0x7B, R269). -/
  | mtst (x : RFields)
  /-- MPERT (0x7C, R277). -/
  | mpert (x : RFields)
  /-- MCHK (0x7D, R276). -/
  | mchk (x : RFields)
  /-- MTOV (0x7E, R267). -/
  | mtov (x : RFields)
  /-- MFRV (0x7F, R267). -/
  | mfrv (x : RFields)
  /-- LD (0x80, R155). -/
  | ld (x : MFields)
  /-- ST (0x81, R155). -/
  | st (x : MFields)
  /-- LDAQ (0x82, R155). -/
  | ldaq (x : MFields)
  /-- STRL (0x83, R155). -/
  | strl (x : MFields)
  /-- VLD (0x84, R156). -/
  | vld (x : MFields)
  /-- VST (0x85, R156). -/
  | vst (x : MFields)
  /-- VLDS (0x86, R157). -/
  | vlds (x : MFields)
  /-- VSTS (0x87, R157). -/
  | vsts (x : MFields)
  /-- VGTH (0x88, R158). -/
  | vgth (x : MFields)
  /-- VSCT (0x89, R159). -/
  | vsct (x : MFields)
  /-- WLD (0x8A, R160). -/
  | wld (x : MFields)
  /-- WST (0x8B, R160). -/
  | wst (x : MFields)
  /-- PREF (0x8C, R161). -/
  | pref (x : MFields)
  /-- CINV (0x8D, R161). -/
  | cinv (x : MFields)
  /-- CWB (0x8E, R161). -/
  | cwb (x : MFields)
  /-- LDNT (0x8F, R155). -/
  | ldnt (x : MFields)
  /-- RECV (0x90, R108). -/
  | recv (x : AFields)
  /-- PEEK (0x91, R108). -/
  | peek (x : AFields)
  /-- EMIT (0x92, R109). -/
  | emit (x : AFields)
  /-- EMITS (0x93, R111). -/
  | emits (x : AFields)
  /-- ARCQ (0x94, R112). -/
  | arcq (x : AFields)
  /-- SKIP (0x95, R113). -/
  | skip (x : AFields)
  /-- MARK (0x96, R117). -/
  | mark (x : AFields)
  /-- CTOK (0x97, R118). -/
  | ctok (x : AFields)
  /-- AADD (0x98, R164). -/
  | aadd (x : AtomFields)
  /-- AMIN (0x99, R164). -/
  | amin (x : AtomFields)
  /-- AMAX (0x9A, R164). -/
  | amax (x : AtomFields)
  /-- AAND (0x9B, R164). -/
  | aand (x : AtomFields)
  /-- AOR (0x9C, R164). -/
  | aor (x : AtomFields)
  /-- AXOR (0x9D, R164). -/
  | axor (x : AtomFields)
  /-- ASWP (0x9E, R164). -/
  | aswp (x : AtomFields)
  /-- ACAS (0x9F, R164). -/
  | acas (x : AtomFields)
  /-- AINCB (0xA0, R164). -/
  | aincb (x : AtomFields)
  /-- ADECB (0xA1, R164). -/
  | adecb (x : AtomFields)
  /-- AFADD (0xA2, R164). -/
  | afadd (x : AtomFields)
  /-- AFMIN (0xA3, R165). -/
  | afmin (x : AtomFields)
  /-- AFMAX (0xA4, R165). -/
  | afmax (x : AtomFields)
  /-- ARED (0xA5, R164). -/
  | ared (x : AtomFields)
  /-- AWT (0xA6, R166). -/
  | awt (x : AtomFields)
  /-- ARTY (0xA7, R167). -/
  | arty (x : AtomFields)
  /-- FENCE (0xA8, R169). -/
  | fence (x : YFields)
  /-- TLWAIT (0xA9, R170). -/
  | tlwait (x : RFields)
  /-- TLRD (0xAA, R170). -/
  | tlrd (x : RFields)
  /-- TLADV (0xAB, R170). -/
  | tladv (x : RFields)
  /-- BARINIT (0xAC, R171). -/
  | barinit (x : RFields)
  /-- BARADD (0xAD, R171). -/
  | baradd (x : RFields)
  /-- BARSUB (0xAE, R171). -/
  | barsub (x : RFields)
  /-- BARWAIT (0xAF, R171). -/
  | barwait (x : RFields)
  /-- BARRD (0xB0, R171). -/
  | barrd (x : RFields)
  /-- BARFREE (0xB1, R171). -/
  | barfree (x : RFields)
  /-- GBARA (0xB2, R172). -/
  | gbara (x : RFields)
  /-- GBARW (0xB3, R172). -/
  | gbarw (x : RFields)
  /-- SLEEP (0xB4, R173). -/
  | sleep (x : IFields)
  /-- TIME (0xB5, R173). -/
  | time (x : RFields)
  /-- EVSIG (0xB6, R173). -/
  | evsig (x : RFields)
  /-- STMP (0xB7, R173). -/
  | stmp (x : RFields)
  /-- CPY (0xB8, R177). -/
  | cpy (x : EFields)
  /-- CPYT (0xB9, R177). -/
  | cpyt (x : EFields)
  /-- CPYX_GATHER (0xBA, R177). -/
  | cpyxGather (x : EFields)
  /-- CPYX_SCATTER (0xBA, R177). -/
  | cpyxScatter (x : EFields)
  /-- CPYS (0xBB, R177). -/
  | cpys (x : EFields)
  /-- CPYQ (0xBC, R182). -/
  | cpyq (x : EFields)
  /-- CPYK (0xBD, R183). -/
  | cpyk (x : EFields)
  /-- CPYB (0xBE, R177). -/
  | cpyb (x : EFields)
  /-- STRM (0xBF, R180). -/
  | strm (x : EFields)
  /-- STRMQ (0xC0, R182). -/
  | strmq (x : EFields)
  /-- STRMK (0xC1, R183). -/
  | strmk (x : EFields)
  /-- COLL (0xC2, R181). -/
  | coll (x : EFields)
  /-- COLLQ (0xC3, R182). -/
  | collq (x : EFields)
  /-- COLLK (0xC4, R183). -/
  | collk (x : EFields)
  /-- FILL (0xC5, R177). -/
  | fill (x : EFields)
  /-- CSUM (0xC6, R178). -/
  | csum (x : EFields)
  /-- XFER_PIN (0xC7, R179). -/
  | xferPin (x : EFields)
  /-- XFER_UNPIN (0xC7, R179). -/
  | xferUnpin (x : EFields)
  /-- XFER_COPY_PIN (0xC7, R179). -/
  | xferCopyPin (x : EFields)
  /-- FLOOD (0xC8, R324). -/
  | flood (x : RFields)
  /-- EBB (0xC9, R324). -/
  | ebb (x : RFields)
  /-- TIDEW (0xCA, R324). -/
  | tidew (x : RFields)
  /-- TIDEQ (0xCB, R324). -/
  | tideq (x : RFields)
  /-- EVCL (0xCC, R324). -/
  | evcl (x : RFields)
  /-- MODE (0xCD, R325). -/
  | mode (x : RFields)
  /-- MODEQ (0xCE, R326). -/
  | modeq (x : RFields)
  /-- SBEG (0xCF, R328). -/
  | sbeg (x : RFields)
  /-- SRES (0xD0, R328). -/
  | sres (x : RFields)
  /-- SFALL (0xD1, R328). -/
  | sfall (x : RFields)
  /-- CHKERR (0xD2, R330). -/
  | chkerr (x : RFields)
  /-- FLGT (0xD3, R331). -/
  | flgt (x : RFields)
  /-- MFSR (0xD4, R374). -/
  | mfsr (x : YFields)
  /-- MTSR (0xD5, R374). -/
  | mtsr (x : YFields)
  /-- SYSC_ORD (0xD6, R376). -/
  | syscOrd (x : YFields)
  /-- SYSC_EPOCH (0xD6, R376). -/
  | syscEpoch (x : YFields)
  /-- SYSC_PINQ (0xD6, R376). -/
  | syscPinq (x : YFields)
  /-- SRET (0xD7, R372). -/
  | sret (x : YFields)
  /-- SRET_SKIP (0xD7, R372). -/
  | sretSkip (x : YFields)
  /-- SRET_ESC (0xD7, R372). -/
  | sretEsc (x : YFields)
  /-- TLBI (0xD8, R379). -/
  | tlbi (x : YFields)
  /-- XLAT (0xD9, R378). -/
  | xlat (x : RFields)
  /-- HALT (0xDA, R383). -/
  | halt (x : YFields)
  /-- HALT_REL (0xDA, R383). -/
  | haltRel (x : YFields)
  /-- DSTEP (0xDB, R385). -/
  | dstep (x : YFields)
  /-- PRIO (0xDC, R375). -/
  | prio (x : YFields)
  /-- ORDL (0xDD, R377). -/
  | ordl (x : YFields)
  /-- ORDL_DROP (0xDD, R377). -/
  | ordlDrop (x : YFields)
  /-- ORDL_STAT (0xDD, R377). -/
  | ordlStat (x : YFields)
  /-- WFI (0xDE, R381). -/
  | wfi (x : YFields)
  /-- EXIT (0xDF, R380). -/
  | exit (x : YFields)
  /-- CMPT (0xE0, R382). -/
  | cmpt (x : YFields)
  /-- FIRING_START (R294). -/
  | firingStart (tile : Nat)
  /-- PARKED_FIRING_RESUME (R293). -/
  | parkedFiringResume (tile : Nat)
  /-- PRE_EMPTION (R295). -/
  | preEmption (tile : Nat)
  /-- HANDLER_FIRING_START (R371). -/
  | handlerFiringStart (k : Nat)
  /-- FALLBACK_FIRING (R329). -/
  | fallbackFiring (k : Nat)
  /-- STAMPED_COMMIT (R139). -/
  | stampedCommit (k : Nat)
  /-- FIRING_OVERRUN (R31). -/
  | firingOverrun (k : Nat)
  /-- DRAW_WINDOW_END (R306). -/
  | drawWindowEnd (tile : Nat)
  /-- GRINDER_CHUNK (R261). -/
  | grinderChunk (k : Nat)
  /-- WP_ARRIVAL (R106). -/
  | wpArrival (arc : Nat) (carried : List Carried)
  /-- RP_MIRROR_UPDATE (R43). -/
  | rpMirrorUpdate (arc : Nat) (peerRp : Option Nat)
  /-- CONTROL_ENTRY_DELIVERY (R116). -/
  | controlEntryDelivery (arc : Nat)
  /-- CUT_COMPLETE (R404). -/
  | cutComplete (cfg : Nat)
  /-- QUIESCENT_POINT (R37). -/
  | quiescentPoint (region : Nat)
  /-- DRAIN_TIMEOUT (R38). -/
  | drainTimeout (region : Nat)
  /-- GENERATION_WAIT_TIMEOUT (R38). -/
  | generationWaitTimeout (region : Nat)
  /-- PARKED_TOKEN_DELIVERY (R40). -/
  | parkedTokenDelivery (arc : Nat)
  /-- ATOMIC_AT_HOME (R137). -/
  | atomicAtHome (r : HomeRequest)
  /-- HELD_ATOMIC_RELEASE (R191). -/
  | heldAtomicRelease (k : Nat)
  /-- AWT_CONDITION_MET (R166). -/
  | awtConditionMet (k : Nat)
  /-- REMOTE_ATOMIC_TIMEOUT (R167). -/
  | remoteAtomicTimeout (k : Nat)
  /-- ENGINE_PIECE_PERFORMED (R145). -/
  | enginePiecePerformed (cmd bytes : Nat)
  /-- ENGINE_COMMAND_END (R176). -/
  | engineCommandEnd (cmd : Nat)
  /-- STREAM_TOKEN_PUBLISH (R146). -/
  | streamTokenPublish (stream : Nat)
  /-- COLL_ROUND_INPUT (R421). -/
  | collRoundInput (cmd : Nat) (data : List Dword)
  /-- ROUND_TIMEOUT (R181). -/
  | roundTimeout (cmd : Nat)
  /-- MEMBERSHIP_PROBE (R422). -/
  | membershipProbe (group epoch starter : Nat)
  /-- PROBE_DEADLINE (R422). The members that have answered are named. -/
  | probeDeadline (group : Nat) (answered : BitVec 256)
  /-- NEW_MEMBERSHIP (R422). -/
  | newMembership (group epoch : Nat) (mbr : BitVec 256)
  /-- FLOOD_COMPLETE (R321). -/
  | floodComplete (ctx layer : Nat)
  /-- FLOOD_FAIL (R321). -/
  | floodFail (ctx layer status : Nat)
  /-- EBB_COMPLETE (R321). -/
  | ebbComplete (ctx layer : Nat)
  /-- FAULT_RECORD_POST (R359). -/
  | faultRecordPost
  /-- FAULT_SERVED (R360). -/
  | faultServed (token : Nat)
  /-- FAULT_FAIL (R360). -/
  | faultFail (token : Nat)
  /-- ATS_INVALIDATION (R360). -/
  | atsInvalidation (pa log : Nat)
  /-- MMU_INVALIDATE (R357). -/
  | mmuInvalidate (port : Nat) (value : Dword)
  /-- MMU_MIGRATE (R361). -/
  | mmuMigrate (port : Nat) (value : Dword)
  /-- INVALIDATION_COMPLETE (R358). -/
  | invalidationComplete (id : Nat)
  /-- SETTLE_WINDOW_END (R363). -/
  | settleWindowEnd (ctx vpg : Nat)
  /-- HOME_GENERATION_UPDATE (R365). -/
  | homeGenerationUpdate (home cove : Nat)
  /-- KILL_COMPLETE (R365). -/
  | killComplete (cove : Nat)
  /-- PEER_KILL_MESSAGE (R367). -/
  | peerKillMessage (pkg cove ctx gen : Nat)
  /-- TAIL_WRITE (R337). -/
  | tailWrite (fn off size : Nat) (value : Dword)
  /-- RECONCILE_PASS (R337). -/
  | reconcilePass
  /-- CAPTURE_QUEUE_DRAIN (R338). -/
  | captureQueueDrain
  /-- PACKET_FETCH (R336). -/
  | packetFetch (q : Nat)
  /-- SLICE_EXPIRY (R339). -/
  | sliceExpiry
  /-- PACKET_COMPLETION (R334). -/
  | packetCompletion (q n : Nat)
  /-- WAIT_TIMEOUT (R335). -/
  | waitTimeout (q : Nat)
  /-- LAUNCH (R335). -/
  | launch (q : Nat)
  /-- SLAUNCH (R327). -/
  | slaunch (q : Nat)
  /-- DELTA (R340). -/
  | delta (q : Nat)
  /-- WRSIG (R335). -/
  | wrsig (q : Nat)
  /-- WAIT (R335). -/
  | wait (q : Nat)
  /-- DETSET (R188). -/
  | detset (q : Nat)
  /-- REPLAY (R341). -/
  | replay (q : Nat)
  /-- PATCH (R341). -/
  | patch (q : Nat)
  /-- FENCE_PACKET (R335). -/
  | fencePacket (q : Nat)
  /-- FLOODH (R335). -/
  | floodh (q : Nat)
  /-- KILL (R365). -/
  | kill (q : Nat)
  /-- QUEUE_ENABLE (R333). -/
  | queueEnable (q : Nat)
  /-- QUEUE_STOP (R333). -/
  | queueStop (q : Nat)
  /-- QUEUE_RESUME (R333). -/
  | queueResume (q : Nat)
  /-- QUEUE_STOP_COMPLETE (R333). -/
  | queueStopComplete (q : Nat)
  /-- ADMISSION (R298). -/
  | admission
  /-- COMPACTION (R303). -/
  | compaction (moves : List (Nat × Nat))
  /-- MOVE_COMPLETE (R303). -/
  | moveComplete (cfg : Nat)
  /-- SWAP_OUT (R407). -/
  | swapOut (cfg : Nat)
  /-- DEADLINE_EXPIRY (R304). -/
  | deadlineExpiry (cfg : Nat)
  /-- REBALANCER_WINDOW: the end of a window of an instance (R310), or a host that asks the Jetty controller for a clone of it (R196, R314). -/
  | rebalancerWindow (k : Nat) (host : Bool)
  /-- CLONE_RELEASE (R312). -/
  | cloneRelease (k : Nat)
  /-- WFI_WAKE (R381). -/
  | wfiWake (k : Nat)
  /-- JETTY_POLICY_TRAP (R373). -/
  | jettyPolicyTrap (k : Nat)
  /-- WATCHDOG_KICK (R343). -/
  | watchdogKick
  /-- WATCHDOG_EXPIRY (R343). -/
  | watchdogExpiry
  /-- FIRMWARE_EXCEPTION (R343). -/
  | firmwareException (record : List Byte)
  /-- JETTY_RESTART_COMPLETE (R344). -/
  | jettyRestartComplete
  /-- JFWSEL_GO (R412). -/
  | jfwselGo (value : Dword)
  /-- FIRMWARE_WINDOW_WRITE (R412). -/
  | firmwareWindowWrite (off : Nat) (bytes : List Byte)
  /-- ROLLBACK_REQUEST (R406). -/
  | rollbackRequest (ctx : Nat)
  /-- DIE_DRAIN_RESET_RETURN (R411). -/
  | dieDrainResetReturn (die : Nat)
  /-- DIE_DRAIN_HOLD (R411). -/
  | dieDrainHold (die : Nat)
  /-- DIE_RETURN (R411). -/
  | dieReturn (die : Nat)
  /-- DIE_RESET_COMPLETE (R411). -/
  | dieResetComplete (die : Nat) (failed : List Nat) (dieFailed : Bool)
  /-- ERROR_INJECT (R410). -/
  | errorInject (inj adr : Dword)
  /-- SILENT_ERROR (R397). -/
  | silentError (k site : Nat)
  /-- CORRECTED_ERROR (R397). -/
  | correctedError (e : ErrorSite)
  /-- UNCORRECTABLE_ERROR (R397). -/
  | uncorrectableError (e : ErrorSite)
  /-- DIE_CRC_FAILURE (R396). -/
  | dieCrcFailure (e : ErrorSite) (tries : Nat)
  /-- TILE_RETIREMENT (R400). -/
  | tileRetirement (tile : Nat)
  /-- LINK_TRAINING (R429). -/
  | linkTraining (link : Nat) (peer : Nat) (peerLocked : Bool)
  /-- LINK_RETRAIN (R408). -/
  | linkRetrain (link lanes : Nat)
  /-- LINK_WIDTH_RETRY (R408). -/
  | linkWidthRetry (link : Nat)
  /-- PATH_DOWN_TIMEOUT (R408). -/
  | pathDownTimeout (pkg : Nat)
  /-- PATH_RESTORED (R408). -/
  | pathRestored (pkg : Nat)
  /-- COLLGRP_WRITE (R420). -/
  | collgrpWrite (off : Nat) (value : Dword)
  /-- SENSOR_TRIP (R394). -/
  | sensorTrip (sensor : Sensor)
  /-- GET_VERSION (R392). -/
  | getVersion
  /-- GET_CAPABILITIES (R392). -/
  | getCapabilities
  /-- NEGOTIATE_ALGORITHMS (R392). -/
  | negotiateAlgorithms
  /-- GET_DIGESTS (R392). -/
  | getDigests
  /-- GET_CERTIFICATE (R392). -/
  | getCertificate
  /-- CHALLENGE (R392). -/
  | challenge (nonce : BitVec 256)
  /-- GET_MEASUREMENTS (R392). -/
  | getMeasurements (index : Nat) (signed : Bool)
  /-- PLDM_MONITOR_REQUEST (R434). -/
  | pldmMonitorRequest
  /-- DEBUG_HALT (R383). -/
  | debugHalt (ctx : Nat)
  /-- DEBUG_RELEASE (R383). -/
  | debugRelease (ctx : Nat)
  /-- HALT_STOPPED (R384). -/
  | haltStopped (ctx : Nat)
  /-- HOST_BAR4_WRITE (R427). -/
  | hostBar4Write (off : Nat) (bytes : List Byte)
  /-- HOST_BAR4_READ (R398). -/
  | hostBar4Read (off len : Nat)
  /-- REGISTER_WRITE (R5). -/
  | registerWrite (bar off : Nat) (value : Dword)
  /-- POWER_UP (R430). -/
  | powerUp
  /-- POWER_LOSS (R432). -/
  | powerLoss
  /-- PERST_ASSERT (R432). -/
  | perstAssert
  /-- PERST_DEASSERT (R433). -/
  | perstDeassert
  /-- BOOT_READY (R433). -/
  | bootReady
  /-- PF_FLR (R432). -/
  | pfFlr
  /-- VF_FLR (R432). -/
  | vfFlr (vf : Nat)
  /-- LINK_RETRAIN_COMPLETE (R408). -/
  | linkRetrainComplete (link lanes : Nat)
  /-- PEER_WRITE (R124). -/
  | peerWrite (pkg cove gen pa : Nat) (bytes : List Byte)
  /-- HOST_LINK_TRAINING (R426). -/
  | hostLinkTraining (rate width : Nat)
  /-- PAGE_REQUEST_RESPONSE (R360). -/
  | pageRequestResponse (id : Nat) (frame : Option Nat)
  /-- IDE_KM_REQUEST (R426). -/
  | ideKmRequest (stream : Nat) (key : BitVec 256)
  /-- MCTP_CONTROL_MESSAGE (R434). -/
  | mctpControlMessage
  /-- SIGNING_COMPLETE (R392). -/
  | signingComplete
  /-- RETIREMENT_COMPLETE (R400). -/
  | retirementComplete (tile : Nat)
  /-- LEVEL_CHANGE_TIMEOUT (R197). -/
  | levelChangeTimeout (region : Nat)
  /-- MIGRATION_COPY_COMPLETE (R361). -/
  | migrationCopyComplete (port : Nat)
deriving DecidableEq, Repr

end Sys2Proof
end

