-- ==== Sys2Proof/Machine/Rows.lean ====
section
/-! DEFINITION. The opcode assignment of 04 R78 and R79 with what each instruction's description adds: which type codes,
register classes, modifiers and predicate each opcode accepts, and the codes of the small fields. WellFormed, the decoder and
the encoder all read this one table. -/

namespace Sys2Proof

/-! ### Codes of the small fields -/

/-- The type code of R66. -/
def Ty.code : Ty → Nat
  | .i8 => 0 | .n8 => 1 | .i16 => 2 | .n16 => 3 | .i32 => 4 | .n32 => 5 | .i64 => 6 | .n64 => 7
  | .e4m3 => 8 | .e5m2 => 9 | .bf16 => 10 | .f16 => 11 | .f32 => 12 | .f64 => 13 | .e2m1 => 14

/-- The type of a code; none for the reserved code 15 (R66). -/
def Ty.ofCode : Nat → Option Ty
  | 0 => some .i8 | 1 => some .n8 | 2 => some .i16 | 3 => some .n16 | 4 => some .i32 | 5 => some .n32
  | 6 => some .i64 | 7 => some .n64 | 8 => some .e4m3 | 9 => some .e5m2 | 10 => some .bf16 | 11 => some .f16
  | 12 => some .f32 | 13 => some .f64 | 14 => some .e2m1 | _ => none

/-- Element bits (R66). -/
def Ty.bits : Ty → Nat
  | .i8 | .n8 | .e4m3 | .e5m2 => 8
  | .i16 | .n16 | .bf16 | .f16 => 16
  | .i32 | .n32 | .f32 => 32
  | .i64 | .n64 | .f64 => 64
  | .e2m1 => 4

/-- Element bytes; an E2M1 element has none of its own (R66). -/
def Ty.bytes (t : Ty) : Nat := t.bits / 8

/-- The I types are two's complement (R66). -/
def Ty.signed : Ty → Bool
  | .i8 | .i16 | .i32 | .i64 => true
  | _ => false

/-- The I and N types (R66). -/
def Ty.isInt : Ty → Bool
  | .i8 | .n8 | .i16 | .n16 | .i32 | .n32 | .i64 | .n64 => true
  | _ => false

/-- The floating-point types (R66). -/
def Ty.isFloat (t : Ty) : Bool := !t.isInt

/-- The code of R69. -/
def Rnd.code : Rnd → Nat
  | .dyn => 0 | .rne => 1 | .rtz => 2 | .rup => 3 | .rdn => 4 | .rna => 5 | .sr => 6

/-- The rounding mode of a code; none for the reserved 111 (R69). -/
def Rnd.ofCode : Nat → Option Rnd
  | 0 => some .dyn | 1 => some .rne | 2 => some .rtz | 3 => some .rup | 4 => some .rdn | 5 => some .rna
  | 6 => some .sr | _ => none

/-- The order field of R69. -/
def Order.code : Order → Nat
  | .relaxed => 0 | .acq => 1 | .rel => 2 | .ar => 3

def Order.ofCode : Nat → Order
  | 1 => .acq | 2 => .rel | 3 => .ar | _ => .relaxed

/-- The accumulate mode of R73. -/
def AccMode.code : AccMode → Nat
  | .set => 0 | .add => 1 | .sub => 2

def AccMode.ofCode : Nat → Option AccMode
  | 0 => some .set | 1 => some .add | 2 => some .sub | _ => none

/-- The address space of R71. -/
def Space.code : Space → Nat
  | .global => 0 | .tile => 1 | .remote => 2

def Space.ofCode : Nat → Option Space
  | 0 => some .global | 1 => some .tile | 2 => some .remote | _ => none

/-- The 8-bit specifier of R65. -/
def Reg.spec : Reg → Nat
  | .g n => n.val
  | .v n => 64 + n.val
  | .vi n => 128 + n.val
  | .a n => 192 + n.val
  | .p n => 192 + 16 + n.val
  | .tl n => 192 + 32 + n.val

/-- The register a specifier names; none for a reserved special value (R65). -/
def Reg.ofSpec (s : Nat) : Option Reg :=
  if s < 64 then some (.g (Fin.ofNat 64 s))
  else if s < 128 then some (.v (Fin.ofNat 64 (s - 64)))
  else if s < 192 then some (.vi (Fin.ofNat 64 (s - 128)))
  else if s < 196 then some (.a (Fin.ofNat 4 (s - 192)))
  else if 208 ≤ s ∧ s < 224 then some (.p (Fin.ofNat 16 (s - 208)))
  else if 224 ≤ s ∧ s < 232 then some (.tl (Fin.ofNat 8 (s - 224)))
  else none

/-- The guard byte of R68. -/
def Guard.code : Guard → Nat
  | .always => 0
  | .cond neg sel => 128 + (if neg then 64 else 0) + sel.val

/-- The guard of a byte: with EN = 0 the rest must be zero (R68). -/
def Guard.ofCode (b : Nat) : Option Guard :=
  if b = 0 then some .always
  else if 128 ≤ b ∧ b < 256 then some (.cond (decide (64 ≤ b % 128)) (Fin.ofNat 64 (b % 64)))
  else none

/-- The mod byte of R69. -/
def Mods.code (m : Mods) : Nat :=
  m.rnd.code * 32 + m.sat.toNat * 16 + m.na.toNat * 8 + m.nb.toNat * 4 + m.nc.toNat * 2 + m.w.toNat

/-- The modifiers of a mod byte; none when RND is 111 (R69). -/
def Mods.ofCode (b : Nat) : Option Mods :=
  (Rnd.ofCode (b / 32)).map fun r =>
    { rnd := r, sat := b.testBit 4, na := b.testBit 3, nb := b.testBit 2, nc := b.testBit 1, w := b.testBit 0 }

/-- No modifier at all. -/
def Mods.none : Mods := { rnd := .dyn, sat := false, na := false, nb := false, nc := false, w := false }

/-! ### What an opcode accepts -/

/-- The classes a position may accept (R65); `v` covers class 01 and class 10. -/
inductive Cls where
  | g | v | a | p | tl
deriving DecidableEq, Repr

/-- Does a specifier lie in a class (R65)? -/
def Reg.isCls : Reg → Cls → Bool
  | .g _, .g => true
  | .v _, .v => true
  | .vi _, .v => true
  | .a _, .a => true
  | .p _, .p => true
  | .tl _, .tl => true
  | _, _ => false

/-- A position that lists no class is unused and must hold g0 (R64). -/
def Reg.okIn (r : Reg) (cs : List Cls) : Bool :=
  if cs.isEmpty then decide (r = .g 0) else cs.any r.isCls

/-- The modifiers an instruction defines (R69). -/
structure ModSet where
  rnd : Bool := false
  sat : Bool := false
  na : Bool := false
  nb : Bool := false
  nc : Bool := false
  w : Bool := false
deriving DecidableEq, Repr

/-- A modifier that the set does not hold must be absent (R69). -/
def Mods.okIn (m : Mods) (s : ModSet) : Bool :=
  (s.rnd || decide (m.rnd = .dyn)) && (s.sat || !m.sat) && (s.na || !m.na) && (s.nb || !m.nb) && (s.nc || !m.nc) && (s.w || !m.w)

/-- One row: accepted types (the single type code 0 where the instruction takes no type, R67), the classes of the four
positions, whether pm is used (R70), and the modifiers defined for integer and for floating-point types. -/
structure Row where
  types : List Ty := [.i8]
  d : List Cls := []
  a : List Cls := []
  b : List Cls := []
  c : List Cls := []
  pm : Bool := false
  im : ModSet := {}
  fm : ModSet := {}

/-- The modifiers the row defines for a type. -/
def Row.mods (r : Row) (t : Ty) : ModSet := if t.isInt then r.im else r.fm

/-- Type codes 0 to 7 (R79). -/
def tysInt : List Ty := [.i8, .n8, .i16, .n16, .i32, .n32, .i64, .n64]
/-- Type codes 10 to 13 (R79). -/
def tysFlt : List Ty := [.bf16, .f16, .f32, .f64]
/-- Type codes 0 to 7 and 10 to 13 (R79). -/
def tysNum : List Ty := tysInt ++ tysFlt
/-- Type codes 0 to 13. -/
def tysNo14 : List Ty := tysInt ++ [.e4m3, .e5m2] ++ tysFlt
/-- Type codes 0 to 14 (R79). -/
def tysAll : List Ty := tysNo14 ++ [.e2m1]
/-- Type codes 4 to 7 (R79). -/
def tysAtom : List Ty := [.i32, .n32, .i64, .n64]
/-- The narrow types of VQNT and VDQT (R238). -/
def tysNarrow : List Ty := [.i8, .n8, .i16, .n16, .e4m3, .e5m2, .bf16, .f16, .e2m1]

/-- A scalar integer row of R218 with `n` sources. -/
def rowInt (n : Nat) (sat : Bool := false) : Row :=
  { types := tysInt, d := [.g], a := [.g], b := if 2 ≤ n then [.g] else [], c := if 3 ≤ n then [.g] else [],
    im := { sat := sat } }

/-- A scalar floating-point row of R225 to R231 with `n` sources. -/
def rowFlt (n : Nat) (fm : ModSet) : Row :=
  { types := tysFlt, d := [.g], a := [.g], b := if 2 ≤ n then [.g] else [], c := if 3 ≤ n then [.g] else [], fm := fm }

/-- A vector row of R233 with `n` vector sources. -/
def rowVec (types : List Ty) (n : Nat) (im fm : ModSet) : Row :=
  { types := types, d := [.v], a := [.v], b := if 2 ≤ n then [.v] else [], c := if 3 ≤ n then [.v] else [], pm := true,
    im := im, fm := fm }

/-- A general-register row without a type: the listed positions are general registers. -/
def rowG (d a b c : Bool) : Row :=
  { d := if d then [.g] else [], a := if a then [.g] else [], b := if b then [.g] else [], c := if c then [.g] else [] }

/-- The rows of the formats R (FCVT, VCVT included), I and L. VCMP takes W with float types only (log 98). -/
def rowOf (op : Nat) : Row :=
  match op with
  | 0x01 | 0x0C | 0x0F => {}                                                              -- NOP FEND BRK
  | 0x05 => rowG true true false false                                                    -- JMP (R99)
  | 0x07 | 0x0D => rowG false true false false                                            -- RET (R99), FABT (R105)
  | 0x09 | 0x0A | 0x0E => {}                                                              -- CSET CCLR (R101), TRAP (R105)
  | 0x0B => { d := [.g], a := [.g] }                                                      -- CLOG (R102), narrowed by its function
  | 0x10 | 0x11 | 0x12 | 0x14 | 0x1A => rowInt 2 true                                     -- ADD SUB MUL DIV SHL
  | 0x13 | 0x15 | 0x16 | 0x17 | 0x18 | 0x19 | 0x1B | 0x1C | 0x1D | 0x1E | 0x1F | 0x20 => rowInt 2
  | 0x21 | 0x24 | 0x25 => rowInt 3                                                        -- SEL BEXT BINS
  | 0x22 | 0x23 => rowInt 1                                                               -- CLZ POPC
  | 0x26 => rowInt 3 true                                                                 -- ADDS
  | 0x27 | 0x2B => rowInt 1 true                                                          -- ADDI SHLI (R223)
  | 0x28 | 0x29 | 0x2A | 0x2C | 0x2D | 0x2E => rowInt 1                                   -- ANDI ORI XORI SHRI SARI CMPI
  | 0x2F => { d := [.g] }                                                                 -- LIL (R224)
  | 0x30 | 0x31 | 0x32 | 0x33 => rowFlt 2 { rnd := true, sat := true, na := true, nb := true }
  | 0x34 => rowFlt 1 { rnd := true, na := true }                                          -- FSQRT
  | 0x35 => rowFlt 3 { rnd := true, sat := true, na := true, nb := true, nc := true }     -- FFMA
  | 0x36 | 0x37 => rowFlt 2 { na := true, nb := true }                                    -- FMIN FMAX (R226)
  | 0x38 => rowFlt 2 { na := true, nb := true, w := true }                                -- FCMP (R227)
  | 0x39 => rowFlt 1 {}                                                                   -- FCLASS (R228)
  | 0x3A => { types := tysNo14, d := [.g], a := [.g], im := { rnd := true, sat := true }, fm := { rnd := true, sat := true } }
  | 0x3B => rowFlt 2 { nb := true, w := true }                                            -- FSGN (R230)
  | 0x3C => { types := tysFlt, d := [.g], fm := { rnd := true, sat := true } }            -- FMVI (R230)
  | 0x3D => rowFlt 1 { rnd := true, na := true, w := true }                               -- FRND (R231)
  | 0x3E => rowFlt 2 { rnd := true, sat := true, na := true }                             -- FSCL (R231)
  | 0x3F => rowFlt 1 {}                                                                   -- FFLG (R232)
  | 0x40 | 0x41 | 0x42 | 0x44 => rowVec tysNum 2 { sat := true } { rnd := true, sat := true, na := true, nb := true }
  | 0x43 => rowVec tysNum 3 { sat := true } { rnd := true, sat := true, na := true, nb := true, nc := true }
  | 0x45 | 0x46 | 0x47 => rowVec tysFlt 1 {} { rnd := true, sat := true, na := true }     -- VSQRT VRCP VRSQ
  | 0x48 | 0x49 => rowVec tysNum 2 {} { na := true, nb := true }                          -- VMIN VMAX
  | 0x4A | 0x4B => rowVec tysNum 1 { sat := true } {}                                     -- VABS VNEG
  | 0x4C | 0x4D | 0x4E => rowVec tysNum 2 {} {}                                           -- VAND VOR VXOR
  | 0x4F => rowVec tysInt 2 { sat := true } {}                                            -- VSHL
  | 0x50 | 0x51 | 0x5B => rowVec tysInt 2 {} {}                                           -- VSHR VSAR VMULH
  | 0x52 => { types := tysNum, d := [.p], a := [.v], b := [.v], c := [.g], pm := true,
              fm := { na := true, nb := true, w := true } }                               -- VCMP (R242)
  | 0x53 => { types := tysNum, d := [.v], a := [.v], b := [.v], c := [.p], pm := true }   -- VSEL (R241)
  | 0x54 => { types := tysAll, d := [.v], a := [.v], pm := true, im := { rnd := true, sat := true, w := true },
              fm := { rnd := true, sat := true, w := true } }                             -- VCVT (R237)
  | 0x55 | 0x56 => rowVec [.bf16, .f16, .f32] 1 {} { rnd := true, sat := true, na := true } -- VEXP2 VLOG2
  | 0x57 => rowVec tysFlt 2 {} { rnd := true, sat := true, na := true }                   -- VSCL
  | 0x58 => rowVec tysFlt 1 {} {}                                                         -- VCLASS
  | 0x59 | 0x5A => { types := tysNum, d := [.v], a := [.v], b := [.g], pm := true, im := { sat := true },
                     fm := { rnd := true, sat := true, na := true, nb := true } }         -- VADDS VSUBS (R235)
  | 0x5C => { types := [.i8, .n8, .i16, .n16, .bf16, .f16], d := [.v], a := [.v], b := [.v], c := [.v], pm := true,
              im := { sat := true }, fm := { rnd := true, sat := true, na := true, nb := true, nc := true } } -- VDOT (R236)
  | 0x5D | 0x5E => { types := tysAll, d := [.v], a := [.v], pm := true, im := { sat := true },
                     fm := { rnd := true, sat := true, na := true } }                     -- VADDI VMULI (R235)
  | 0x5F => { types := tysAll, d := [.v], a := [.g], pm := true }                         -- VBCST (R239)
  | 0x60 => { types := tysAll, d := [.g], a := [.v], b := [.g] }                          -- VEXT
  | 0x61 => { types := tysAll, d := [.v], a := [.g], b := [.g], pm := true }              -- VINS
  | 0x62 => { types := tysInt, d := [.v], a := [.g], b := [.g], pm := true }              -- VIDX
  | 0x63 => { types := tysNum, d := [.g], a := [.v], c := [.g], pm := true, im := { sat := true } } -- VRED (R244, R245)
  | 0x64 => { types := tysNum, d := [.v], a := [.v], c := [.g], pm := true, im := { sat := true, w := true },
              fm := { w := true } }                                                       -- VSCAN (R246)
  | 0x65 => { types := tysAll, d := [.v], a := [.v], b := [.v], pm := true }              -- VPERM (R240)
  | 0x66 => { types := tysAll, d := [.v], a := [.v], b := [.v], c := [.g], pm := true }   -- VSHUF (R240)
  | 0x67 | 0x68 => { types := tysNum, d := [.v], a := [.v], b := [.p], pm := true }       -- VCMPR VEXPN (R241)
  | 0x69 => { types := tysNum, d := [.g], a := [.p] }                                     -- VPCNT (R243)
  | 0x6A => { d := [.p], a := [.p], b := [.p], c := [.g], pm := true }                    -- PLOG (R243)
  | 0x6B | 0x6C => { types := tysNarrow, d := [.v], a := [.v], b := [.g], pm := true,
                     im := { rnd := true, sat := true, w := true }, fm := { rnd := true, sat := true, w := true } } -- VQNT VDQT
  | 0x6D => { types := tysNum, d := [.v], a := [.v], b := [.p], pm := true, im := { w := true }, fm := { w := true } } -- VSORT
  | 0x6E => { types := tysNum, d := [.v], a := [.v], b := [.p], c := [.g], pm := true, im := { sat := true } } -- VSEG (R247)
  | 0x6F => { types := tysAll, d := [.v], a := [.v], pm := true }                         -- VMOV (R239)
  | 0x74 => { d := [.a] }                                                                 -- MZERO (R265)
  | 0x77 => { types := [.i32, .f32], d := [.a], a := [.v], b := [.v], pm := true,
              im := { rnd := true, sat := true, na := true }, fm := { rnd := true, sat := true, na := true } } -- MSCL (R268)
  | 0x78 => { types := [.f64], d := [.v], a := [.v], b := [.v], c := [.g], pm := true, fm := { w := true } } -- MSPLT (R270)
  | 0x79 => { types := [.f64], d := [.a], a := [.a], b := [.v], c := [.v], pm := true, fm := { sat := true } } -- MJOIN (R272)
  | 0x7A => { d := [.g], a := [.a], b := [.g], im := { w := true } }                      -- MTSW (R269)
  | 0x7B => { types := [.f32], d := [.p], a := [.a], b := [.g], pm := true }              -- MTST (R269)
  | 0x7C => { types := [.i32, .f32], d := [.a], a := [.g], b := [.g] }                    -- MPERT (R277)
  | 0x7D => { d := [.g], a := [.a] }                                                      -- MCHK (R276)
  | 0x7E => { types := [.i32, .n32, .f32, .i64, .n64, .f64], d := [.v], a := [.a], b := [.g], pm := true } -- MTOV (R267)
  | 0x7F => { types := [.i32, .n32, .f32, .i64, .n64, .f64], d := [.a], a := [.v], b := [.g], pm := true } -- MFRV (R267)
  | 0xA9 => { a := [.tl], b := [.g] }                                                     -- TLWAIT (R170)
  | 0xAA => { d := [.g], a := [.tl], im := { w := true } }                                -- TLRD (R170)
  | 0xAB => { a := [.tl], b := [.g] }                                                     -- TLADV (R170)
  | 0xAC => rowG false true true true                                                     -- BARINIT (R171)
  | 0xAD | 0xAE => rowG false true true false                                             -- BARADD BARSUB
  | 0xAF | 0xB1 => rowG false true false false                                            -- BARWAIT BARFREE
  | 0xB0 => rowG true true false false                                                    -- BARRD
  | 0xB2 | 0xB3 => rowG false true true false                                             -- GBARA GBARW (R172)
  | 0xB4 => {}                                                                            -- SLEEP (R173)
  | 0xB5 | 0xB7 => rowG true false false false                                            -- TIME STMP (R173)
  | 0xB6 => rowG false true true false                                                    -- EVSIG (R173)
  | 0xC8 => rowG false true true false                                                    -- FLOOD (R324)
  | 0xC9 | 0xCC => rowG false true false false                                            -- EBB EVCL
  | 0xCA | 0xCB => rowG true true false false                                             -- TIDEW TIDEQ
  | 0xCD => rowG false true false false                                                   -- MODE (R325)
  | 0xCE => rowG true true false false                                                    -- MODEQ (R326)
  | 0xCF | 0xD1 => {}                                                                     -- SBEG SFALL (R328)
  | 0xD0 => { a := [.v], pm := true }                                                     -- SRES (R328)
  | 0xD2 => rowG true false false false                                                   -- CHKERR (R330)
  | 0xD3 => rowG true true false false                                                    -- FLGT (R331)
  | 0xD9 => { d := [.g], a := [.g], im := { w := true } }                                 -- XLAT (R378)
  | _ => {}

/-- The rows of format M; d of the vector forms and of WLD, WST is narrowed below. -/
def rowM (op : Nat) : Row :=
  match op with
  | 0x80 | 0x81 | 0x82 | 0x83 | 0x8F => { types := tysNum, d := [.g] }                    -- R155
  | 0x84 | 0x85 => { types := tysAll, d := [.v], pm := true }                             -- R156
  | 0x86 | 0x87 | 0x88 | 0x89 => { types := tysNo14, d := [.v], pm := true }              -- R157, R158
  | 0x8A | 0x8B => { types := tysAll, d := [.g, .v], pm := true }                         -- R160
  | 0x75 | 0x76 => { types := [.i32, .bf16, .f16, .f32], d := [.a], pm := true }          -- R266
  | _ => {}                                                                               -- PREF CINV CWB (R161)

/-- The rows of format A (R108 to R118). -/
def rowA (op : Nat) : Row :=
  match op with
  | 0x90 | 0x91 | 0x92 => { types := tysAll, d := [.g, .v], pm := true }                  -- RECV PEEK EMIT
  | 0x93 | 0x94 | 0x96 => { d := [.g] }                                                   -- EMITS ARCQ MARK
  | _ => {}                                                                               -- SKIP CTOK

/-- The rows of the atomic opcodes (R162 to R167); im and fm list rnd and sat. -/
def rowAtom (op : Nat) : Row :=
  match op with
  | 0x98 => { types := tysAtom, d := [.g], a := [.g], b := [.g], im := { sat := true } }  -- AADD
  | 0x9F | 0xA6 => { types := tysAtom, d := [.g], a := [.g], b := [.g], c := [.g] }       -- ACAS AWT
  | 0xA2 => { types := [.f32, .f64], d := [.g], a := [.g], b := [.g], fm := { rnd := true } } -- AFADD
  | 0xA3 | 0xA4 => { types := [.f32, .f64], d := [.g], a := [.g], b := [.g] }             -- AFMIN AFMAX
  | 0xA5 => { types := tysAtom ++ [.f32, .f64], a := [.g], b := [.g], im := { sat := true }, fm := { rnd := true } } -- ARED
  | 0xA7 => rowG true true true false                                                     -- ARTY
  | _ => { types := tysAtom, d := [.g], a := [.g], b := [.g] }                            -- AMIN AMAX AAND AOR AXOR ASWP AINCB ADECB

/-- The pairs of tyA and tyB that MMA, MMAG and MMT accept (R252). -/
def pairOk (tyA tyB : Ty) : Bool :=
  match tyA, tyB with
  | .bf16, .bf16 | .bf16, .f16 | .f16, .bf16 | .f16, .f16 => true
  | .e4m3, .e4m3 | .e4m3, .e5m2 | .e5m2, .e4m3 | .e5m2, .e5m2 => true
  | .i8, .i8 | .i8, .n8 | .n8, .i8 | .n8, .n8 => true
  | .e2m1, .e2m1 => true
  | _, _ => false

/-- The nine formats, with FCVT and VCVT and the atomics set apart (R63, R67, R69). -/
inductive Fmt where
  | r | cvt | atom | i | l | b | m | a | x | e | y
deriving DecidableEq, Repr

/-- The format of an opcode (R79); none for 0x00 and 0xE1 to 0xFF (R80). -/
def fmtOf (op : Nat) : Option Fmt :=
  if op = 0 ∨ 0xE1 ≤ op then none
  else if op = 0x3A ∨ op = 0x54 then some .cvt
  else if op = 0x02 ∨ op = 0x03 ∨ op = 0x04 ∨ op = 0x06 ∨ op = 0x08 then some .b
  else if op = 0x09 ∨ op = 0x0A ∨ op = 0x0B ∨ op = 0x0E ∨ (0x27 ≤ op ∧ op ≤ 0x2E) ∨ op = 0x3C ∨ op = 0x5D ∨ op = 0x5E ∨ op = 0xB4
    then some .i
  else if op = 0x2F then some .l
  else if 0x70 ≤ op ∧ op ≤ 0x73 then some .x
  else if op = 0x75 ∨ op = 0x76 ∨ (0x80 ≤ op ∧ op ≤ 0x8F) then some .m
  else if 0x90 ≤ op ∧ op ≤ 0x97 then some .a
  else if 0x98 ≤ op ∧ op ≤ 0xA7 then some .atom
  else if 0xB8 ≤ op ∧ op ≤ 0xC7 then some .e
  else if op = 0xA8 ∨ (0xD4 ≤ op ∧ op ≠ 0xD9) then some .y
  else some .r

/-- The operands of an instruction, whatever its format: what stands between the opcode and the meaning. -/
inductive Operands where
  | r (x : RFields)
  | cvt (x : CvtFields)
  | atom (x : AtomFields)
  | i (x : IFields)
  | l (x : LFields)
  | b (x : BFields)
  | m (x : MFields)
  | a (x : AFields)
  | x (x : XFields)
  | e (x : EFields)
  | y (x : YFields)
deriving DecidableEq, Repr

/-- PREF, CINV and CWB: their type code is checked with the other fields, in step 3 of R62 (R161, log 82). -/
def hintOp (op : Nat) : Bool := op == 0x8C || op == 0x8D || op == 0x8E

/-- Step 2 of R62 for an opcode, its type fields (the second is tyB or the source type) and whether d is a general register:
the codes 8, 9 and 14 are refused with a general d by RECV, PEEK, EMIT, WLD and WST (R108, R109, R160). -/
def typesAccepted (op : Nat) (ty ty2 : Ty) (dGeneral : Bool) : Bool :=
  match fmtOf op with
  | some .r | some .i => (rowOf op).types.contains ty
  | some .cvt => (rowOf op).types.contains ty && (rowOf op).types.contains ty2
  | some .atom => (rowAtom op).types.contains ty
  | some .m => (hintOp op || (rowM op).types.contains ty) && !((op == 0x8A || op == 0x8B) && dGeneral && !tysNum.contains ty)
  | some .a => (rowA op).types.contains ty && !(op ≤ 0x92 && dGeneral && !tysNum.contains ty)
  | some .x =>
    if op = 0x73 then (ty == .bf16 || ty == .f16 || ty == .f32) && ty2 == .f32
    else pairOk ty ty2 && !(op == 0x71 && ty == .e2m1)
  | _ => true

/-- A specifier names a general register. -/
def Reg.isG (r : Reg) : Bool := r.isCls .g

/-- The registers of an A panel and of a B panel of `k` k-steps of width `b` (R253). -/
def panelA (k b : Nat) : Nat := (k * b + 31) / 32
def panelB (k b : Nat) : Nat := (k * b + 63) / 64

/-- A direct group of `n` registers stays within v63; an indirect one is checked when it executes (R253). -/
def Reg.groupOk (r : Reg) (n : Nat) : Bool :=
  match r with
  | .v s => decide (s.val + n ≤ 64)
  | _ => true

/-- Is the accumulator the even one of a pair (R249)? -/
def Reg.evenA : Reg → Bool
  | .a n => n.val % 2 == 0
  | _ => false

/-- What CLOG's function uses of d and a (R102). -/
def clogRow (imm : Half) : Row :=
  let f := imm.toNat / 1024 % 8
  if f = 6 then { a := [.g] } else if f = 7 then { d := [.g] } else {}

/-- The number of sub values an opcode of format Y accepts, counted from 0 (R75, R169, R372, R376, R377, R382, R383). -/
def subLimit (op : Nat) : Nat :=
  match op with
  | 0xA8 => 16 | 0xD6 => 3 | 0xD7 => 3 | 0xDA => 2 | 0xDD => 3 | 0xE0 => 256 | _ => 1

/-- Does an opcode of format Y use its register g (R169, R374 to R385)? -/
def usesG (op : Nat) : Bool :=
  !(op == 0xA8 || op == 0xD7 || op == 0xDA || op == 0xDF)

/-- Step 3 of R62 for format R beyond classes, predicate and modifiers: the narrower forms of the descriptions. -/
def extraR (op : Nat) (x : RFields) : Bool :=
  match op with
  | 0x78 => !x.mods.w || decide (x.b = .g 0)                                   -- MSPLT.w takes no vB (R270)
  | 0x79 => x.d.evenA && x.a.evenA && decide (x.d ≠ x.a)                       -- MJOIN (R272, R249)
  | 0x7A => x.mods.w || decide (x.b = .g 0)                                    -- MTSW without .w (R269)
  | 0x7E => !(x.ty.bits == 64) || x.a.evenA                                    -- MTOV (R267)
  | 0x7F => !(x.ty.bits == 64) || x.d.evenA                                    -- MFRV (R267)
  | _ => true

/-- The class check of position b, which MSPLT.w leaves unused (R270). -/
def rowR (op : Nat) (x : RFields) : Row :=
  if op = 0x78 ∧ x.mods.w then { rowOf op with b := [] } else rowOf op

/-- The modifiers of VADDI and VMULI by type: the 8-bit and 4-bit floating-point types define RND and SAT only (R235). -/
def modsI (op : Nat) (ty : Ty) : ModSet :=
  if (op = 0x5D ∨ op = 0x5E) ∧ (ty = .e4m3 ∨ ty = .e5m2 ∨ ty = .e2m1) then { rnd := true, sat := true }
  else (rowOf op).mods ty

/-- Steps 3 of R62: register classes, unused fields, predicate, modifiers and the codes of the descriptions. ARTY takes no order suffix
(log 120). -/
def fieldsOk (op : Nat) (o : Operands) : Bool :=
  match o with
  | .r x =>
    let row := rowR op x
    x.d.okIn row.d && x.a.okIn row.a && x.b.okIn row.b && x.c.okIn row.c && (row.pm || x.pm == 0)
      && x.mods.okIn (row.mods x.ty) && extraR op x
  | .cvt x =>
    let row := rowOf op
    x.d.okIn row.d && x.a.okIn row.a && x.b.okIn row.b && (row.pm || x.pm == 0) && x.mods.okIn (row.mods x.ty)
      && !(x.mods.w && x.ty.bits == x.src.bits)                                -- R237
  | .atom x =>
    let row := rowAtom op
    let ms := row.mods x.ty
    x.d.okIn row.d && x.a.okIn row.a && x.b.okIn row.b && x.c.okIn row.c && x.pm == 0
      && (ms.rnd || x.rnd == .dyn) && x.rnd != .sr && (ms.sat || !x.sat)       -- R164
      && !((op == 0xA6 || op == 0xA7) && x.order != .relaxed)                  -- R166; ARTY takes no order
      && !(op == 0xA7 && (x.d.spec % 2 == 1 || x.d.spec == 0))                 -- R167
  | .i x =>
    let row := if op = 0x0B then clogRow x.imm else rowOf op
    x.d.okIn row.d && x.a.okIn row.a && (row.pm || x.pm == 0) && x.mods.okIn (modsI op x.ty)
  | .l x => x.d.isG
  | .b x => if op = 0x02 then x.sel == 0 else if op = 0x06 ∨ op = 0x08 then x.sel != 0 else true  -- R75
  | .m x =>
    let row := rowM op
    x.d.okIn row.d && x.base.isG && x.index.isG && !(x.index == .g 0 && x.scl != 0)               -- R71
      && ((row.pm && !(x.d.isG)) || x.pm == 0)
      && (x.sp == .remote) == (op == 0x8A || op == 0x8B)                       -- R71, R160
      && !(x.sp == .tile && (op == 0x82 || op == 0x83 || hintOp op))           -- R155, R161
      && !(hintOp op && x.ty != .i8)                                           -- R161: type code 0
      && !(op == 0x88 && x.disp != 0)                                          -- R158
      && !(op == 0x89 && x.disp != 0 && x.disp != 1 && x.disp != 3)            -- R159
  | .a x =>
    let row := rowA op
    x.d.okIn row.d && ((row.pm && !(x.d.isG)) || x.pm == 0) && x.mods == Mods.none
      && !(op == 0x93 && x.off != 0)                                           -- R111
      && !(op == 0x94 && (decide (6 < x.off.toNat) || (x.off != 0 && x.count != 0)))  -- R112
      && !(op == 0x95 && (x.count == 0 || x.off != 0))                         -- R113
      && !(op == 0x96 && (x.count != 0 || x.off != 0))                         -- R117
      && !(op == 0x97 && (decide (31 < x.count.toNat) || x.off != 0))          -- R118
  | .x x =>
    let k := x.kidx.toNat
    let b := x.tyA.bits
    if op = 0x73 then                                                          -- MREC (R264)
      x.a.isCls .v && x.b.isCls .v && x.am == .set && decide (1 ≤ k ∧ k ≤ 64) && x.mods.okIn { sat := true, na := true }
    else
      (if op = 0x70 then                                                       -- MMA (R253, R258)
        x.a.isCls .v && x.b.isCls .v && decide (1 ≤ k ∧ k ≤ 512 / b) && x.a.groupOk (panelA k b) && x.b.groupOk (panelB k b)
      else if op = 0x71 then                                                   -- MMAG (R259)
        x.a.isG && x.b.isCls .v && (Reg.ofSpec k).any (·.isCls .v)
      else x.a.isG && x.b.isG && (Reg.ofSpec k).any (·.isG))                   -- MMT (R260)
      && x.mods.okIn (if x.tyA.isInt then { sat := true, w := true } else { sat := true, na := true, nb := true })
      && !(x.mods.w && x.acc.val % 2 == 1)                                     -- a pair is named by its even one (R249)
  | .e x =>
    let query := op == 0xBC || op == 0xC0 || op == 0xC3
    let cancel := op == 0xBD || op == 0xC1 || op == 0xC4
    x.desc.isG && x.len.isG && (x.bw || x.bar == 0)                            -- R74
      && !(query && (x.deferred || x.bw || x.flags != 0))                      -- R182
      && !(cancel && (x.desc != .g 0 || x.bw || x.flags != 0))                 -- R183
      && (if op = 0xBA ∨ op = 0xC6 then x.flags == 0 || x.flags == 4           -- CPYX, CSUM (R177)
          else if op = 0xC7 then x.flags == 0 || x.flags == 2 || x.flags == 4  -- XFER (R179)
          else x.flags == 0)
  | .y x =>
    x.gr.isG && (usesG op || x.gr == .g 0)
      && (if op = 0xD4 ∨ op = 0xD5 then
            decide (x.sysreg.toNat ≤ 0x12) && (x.sub == 0 || (op == 0xD4 && x.sysreg == 0x00F && decide (x.sub.toNat ≤ 7)))
          else x.sysreg == 0 && decide (x.sub.toNat < subLimit op))            -- R51, R374, R75

/-- An imm16 for an integer type of 8 bits must be that value's own extension (R76). -/
def immIntOk (ty : Ty) (imm : Half) : Bool :=
  if ty.bits = 8 then
    if ty.signed then (imm.extractLsb' 0 8).signExtend 16 == imm else (imm.extractLsb' 0 8).setWidth 16 == imm
  else true

/-- A BF16 pattern as a floating-point immediate: no signalling NaN, and an exact E2M1 value for E2M1 (R77). -/
def immFloatOk (ty : Ty) (imm : Half) : Bool :=
  let m := imm.extractLsb' 0 15
  !(imm.extractLsb' 7 8 == 255 && imm.extractLsb' 0 7 != 0 && !imm.getLsbD 6)
    && (ty != .e2m1 || [0x0000, 0x3F00, 0x3F80, 0x3FC0, 0x4000, 0x4040, 0x4080, 0x40C0].contains m.toNat)

/-- Step 4 of R62 (R76, R77, R101, R102). -/
def immOk (op : Nat) (o : Operands) : Bool :=
  match o with
  | .i x =>
    let v := x.imm.toNat
    if op = 0x09 ∨ op = 0x0A then decide (v ≤ 31)
    else if op = 0x0B then
      let f := v / 1024 % 8
      decide (v < 8192) && (!(f == 6 || f == 7) || v / 32 % 32 == 0) && (f != 7 || v % 32 == 0)
    else if op = 0x0E ∨ op = 0xB4 then true
    else if op = 0x2B ∨ op = 0x2C ∨ op = 0x2D then decide (v < x.ty.bits)
    else if x.ty.isInt then immIntOk x.ty x.imm
    else immFloatOk x.ty x.imm
  | _ => true

end Sys2Proof
end

