-- ==== Sys2Proof/Machine/Parts.lean ====
section
/-! DEFINITION. The opcode map of 04 R78: which opcode and which operand record each constructor stands for, and back. -/

namespace Sys2Proof

/-- The opcode and operands of an instruction row (R78); none for the rows that no word encodes. -/
def Instr.parts : Instr → Option (Nat × Operands)
  | .nop x => some (0x01, .r x)
  | .bra x => some (0x02, .b x)
  | .brc x => some (0x03, .b x)
  | .brn x => some (0x04, .b x)
  | .jmp x => some (0x05, .r x)
  | .call x => some (0x06, .b x)
  | .ret x => some (0x07, .r x)
  | .loop x => some (0x08, .b x)
  | .cset x => some (0x09, .i x)
  | .cclr x => some (0x0A, .i x)
  | .clog x => some (0x0B, .i x)
  | .fend x => some (0x0C, .r x)
  | .fabt x => some (0x0D, .r x)
  | .trap x => some (0x0E, .i x)
  | .brk x => some (0x0F, .r x)
  | .add x => some (0x10, .r x)
  | .sub x => some (0x11, .r x)
  | .mul x => some (0x12, .r x)
  | .mulh x => some (0x13, .r x)
  | .div x => some (0x14, .r x)
  | .rem x => some (0x15, .r x)
  | .and x => some (0x16, .r x)
  | .or x => some (0x17, .r x)
  | .xor x => some (0x18, .r x)
  | .andn x => some (0x19, .r x)
  | .shl x => some (0x1A, .r x)
  | .shr x => some (0x1B, .r x)
  | .sar x => some (0x1C, .r x)
  | .rot x => some (0x1D, .r x)
  | .min x => some (0x1E, .r x)
  | .max x => some (0x1F, .r x)
  | .cmp x => some (0x20, .r x)
  | .sel x => some (0x21, .r x)
  | .clz x => some (0x22, .r x)
  | .popc x => some (0x23, .r x)
  | .bext x => some (0x24, .r x)
  | .bins x => some (0x25, .r x)
  | .adds x => some (0x26, .r x)
  | .addi x => some (0x27, .i x)
  | .andi x => some (0x28, .i x)
  | .ori x => some (0x29, .i x)
  | .xori x => some (0x2A, .i x)
  | .shli x => some (0x2B, .i x)
  | .shri x => some (0x2C, .i x)
  | .sari x => some (0x2D, .i x)
  | .cmpi x => some (0x2E, .i x)
  | .lil x => some (0x2F, .l x)
  | .fadd x => some (0x30, .r x)
  | .fsub x => some (0x31, .r x)
  | .fmul x => some (0x32, .r x)
  | .fdiv x => some (0x33, .r x)
  | .fsqrt x => some (0x34, .r x)
  | .ffma x => some (0x35, .r x)
  | .fmin x => some (0x36, .r x)
  | .fmax x => some (0x37, .r x)
  | .fcmp x => some (0x38, .r x)
  | .fclass x => some (0x39, .r x)
  | .fcvt x => some (0x3A, .cvt x)
  | .fsgn x => some (0x3B, .r x)
  | .fmvi x => some (0x3C, .i x)
  | .frnd x => some (0x3D, .r x)
  | .fscl x => some (0x3E, .r x)
  | .fflg x => some (0x3F, .r x)
  | .vadd x => some (0x40, .r x)
  | .vsub x => some (0x41, .r x)
  | .vmul x => some (0x42, .r x)
  | .vfma x => some (0x43, .r x)
  | .vdiv x => some (0x44, .r x)
  | .vsqrt x => some (0x45, .r x)
  | .vrcp x => some (0x46, .r x)
  | .vrsq x => some (0x47, .r x)
  | .vmin x => some (0x48, .r x)
  | .vmax x => some (0x49, .r x)
  | .vabs x => some (0x4A, .r x)
  | .vneg x => some (0x4B, .r x)
  | .vand x => some (0x4C, .r x)
  | .vor x => some (0x4D, .r x)
  | .vxor x => some (0x4E, .r x)
  | .vshl x => some (0x4F, .r x)
  | .vshr x => some (0x50, .r x)
  | .vsar x => some (0x51, .r x)
  | .vcmp x => some (0x52, .r x)
  | .vsel x => some (0x53, .r x)
  | .vcvt x => some (0x54, .cvt x)
  | .vexp2 x => some (0x55, .r x)
  | .vlog2 x => some (0x56, .r x)
  | .vscl x => some (0x57, .r x)
  | .vclass x => some (0x58, .r x)
  | .vadds x => some (0x59, .r x)
  | .vsubs x => some (0x5A, .r x)
  | .vmulh x => some (0x5B, .r x)
  | .vdot x => some (0x5C, .r x)
  | .vaddi x => some (0x5D, .i x)
  | .vmuli x => some (0x5E, .i x)
  | .vbcst x => some (0x5F, .r x)
  | .vext x => some (0x60, .r x)
  | .vins x => some (0x61, .r x)
  | .vidx x => some (0x62, .r x)
  | .vred x => some (0x63, .r x)
  | .vscan x => some (0x64, .r x)
  | .vperm x => some (0x65, .r x)
  | .vshuf x => some (0x66, .r x)
  | .vcmpr x => some (0x67, .r x)
  | .vexpn x => some (0x68, .r x)
  | .vpcnt x => some (0x69, .r x)
  | .plog x => some (0x6A, .r x)
  | .vqnt x => some (0x6B, .r x)
  | .vdqt x => some (0x6C, .r x)
  | .vsort x => some (0x6D, .r x)
  | .vseg x => some (0x6E, .r x)
  | .vmov x => some (0x6F, .r x)
  | .mma x => some (0x70, .x x)
  | .mmag x => some (0x71, .x x)
  | .mmt x => some (0x72, .x x)
  | .mrec x => some (0x73, .x x)
  | .mzero x => some (0x74, .r x)
  | .mlda x => some (0x75, .m x)
  | .msta x => some (0x76, .m x)
  | .mscl x => some (0x77, .r x)
  | .msplt x => some (0x78, .r x)
  | .mjoin x => some (0x79, .r x)
  | .mtsw x => some (0x7A, .r x)
  | .mtst x => some (0x7B, .r x)
  | .mpert x => some (0x7C, .r x)
  | .mchk x => some (0x7D, .r x)
  | .mtov x => some (0x7E, .r x)
  | .mfrv x => some (0x7F, .r x)
  | .ld x => some (0x80, .m x)
  | .st x => some (0x81, .m x)
  | .ldaq x => some (0x82, .m x)
  | .strl x => some (0x83, .m x)
  | .vld x => some (0x84, .m x)
  | .vst x => some (0x85, .m x)
  | .vlds x => some (0x86, .m x)
  | .vsts x => some (0x87, .m x)
  | .vgth x => some (0x88, .m x)
  | .vsct x => some (0x89, .m x)
  | .wld x => some (0x8A, .m x)
  | .wst x => some (0x8B, .m x)
  | .pref x => some (0x8C, .m x)
  | .cinv x => some (0x8D, .m x)
  | .cwb x => some (0x8E, .m x)
  | .ldnt x => some (0x8F, .m x)
  | .recv x => some (0x90, .a x)
  | .peek x => some (0x91, .a x)
  | .emit x => some (0x92, .a x)
  | .emits x => some (0x93, .a x)
  | .arcq x => some (0x94, .a x)
  | .skip x => some (0x95, .a x)
  | .mark x => some (0x96, .a x)
  | .ctok x => some (0x97, .a x)
  | .aadd x => some (0x98, .atom x)
  | .amin x => some (0x99, .atom x)
  | .amax x => some (0x9A, .atom x)
  | .aand x => some (0x9B, .atom x)
  | .aor x => some (0x9C, .atom x)
  | .axor x => some (0x9D, .atom x)
  | .aswp x => some (0x9E, .atom x)
  | .acas x => some (0x9F, .atom x)
  | .aincb x => some (0xA0, .atom x)
  | .adecb x => some (0xA1, .atom x)
  | .afadd x => some (0xA2, .atom x)
  | .afmin x => some (0xA3, .atom x)
  | .afmax x => some (0xA4, .atom x)
  | .ared x => some (0xA5, .atom x)
  | .awt x => some (0xA6, .atom x)
  | .arty x => some (0xA7, .atom x)
  | .fence x => some (0xA8, .y x)
  | .tlwait x => some (0xA9, .r x)
  | .tlrd x => some (0xAA, .r x)
  | .tladv x => some (0xAB, .r x)
  | .barinit x => some (0xAC, .r x)
  | .baradd x => some (0xAD, .r x)
  | .barsub x => some (0xAE, .r x)
  | .barwait x => some (0xAF, .r x)
  | .barrd x => some (0xB0, .r x)
  | .barfree x => some (0xB1, .r x)
  | .gbara x => some (0xB2, .r x)
  | .gbarw x => some (0xB3, .r x)
  | .sleep x => some (0xB4, .i x)
  | .time x => some (0xB5, .r x)
  | .evsig x => some (0xB6, .r x)
  | .stmp x => some (0xB7, .r x)
  | .cpy x => some (0xB8, .e x)
  | .cpyt x => some (0xB9, .e x)
  | .cpyxGather x => some (0xBA, .e x)
  | .cpyxScatter x => some (0xBA, .e x)
  | .cpys x => some (0xBB, .e x)
  | .cpyq x => some (0xBC, .e x)
  | .cpyk x => some (0xBD, .e x)
  | .cpyb x => some (0xBE, .e x)
  | .strm x => some (0xBF, .e x)
  | .strmq x => some (0xC0, .e x)
  | .strmk x => some (0xC1, .e x)
  | .coll x => some (0xC2, .e x)
  | .collq x => some (0xC3, .e x)
  | .collk x => some (0xC4, .e x)
  | .fill x => some (0xC5, .e x)
  | .csum x => some (0xC6, .e x)
  | .xferPin x => some (0xC7, .e x)
  | .xferUnpin x => some (0xC7, .e x)
  | .xferCopyPin x => some (0xC7, .e x)
  | .flood x => some (0xC8, .r x)
  | .ebb x => some (0xC9, .r x)
  | .tidew x => some (0xCA, .r x)
  | .tideq x => some (0xCB, .r x)
  | .evcl x => some (0xCC, .r x)
  | .mode x => some (0xCD, .r x)
  | .modeq x => some (0xCE, .r x)
  | .sbeg x => some (0xCF, .r x)
  | .sres x => some (0xD0, .r x)
  | .sfall x => some (0xD1, .r x)
  | .chkerr x => some (0xD2, .r x)
  | .flgt x => some (0xD3, .r x)
  | .mfsr x => some (0xD4, .y x)
  | .mtsr x => some (0xD5, .y x)
  | .syscOrd x => some (0xD6, .y x)
  | .syscEpoch x => some (0xD6, .y x)
  | .syscPinq x => some (0xD6, .y x)
  | .sret x => some (0xD7, .y x)
  | .sretSkip x => some (0xD7, .y x)
  | .sretEsc x => some (0xD7, .y x)
  | .tlbi x => some (0xD8, .y x)
  | .xlat x => some (0xD9, .r x)
  | .halt x => some (0xDA, .y x)
  | .haltRel x => some (0xDA, .y x)
  | .dstep x => some (0xDB, .y x)
  | .prio x => some (0xDC, .y x)
  | .ordl x => some (0xDD, .y x)
  | .ordlDrop x => some (0xDD, .y x)
  | .ordlStat x => some (0xDD, .y x)
  | .wfi x => some (0xDE, .y x)
  | .exit x => some (0xDF, .y x)
  | .cmpt x => some (0xE0, .y x)
  | .firingStart _ => none
  | .parkedFiringResume _ => none
  | .preEmption _ => none
  | .handlerFiringStart _ => none
  | .fallbackFiring _ => none
  | .stampedCommit _ => none
  | .firingOverrun _ => none
  | .drawWindowEnd _ => none
  | .grinderChunk _ => none
  | .wpArrival _ _ => none
  | .rpMirrorUpdate _ _ => none
  | .controlEntryDelivery _ => none
  | .cutComplete _ => none
  | .quiescentPoint _ => none
  | .drainTimeout _ => none
  | .generationWaitTimeout _ => none
  | .parkedTokenDelivery _ => none
  | .atomicAtHome _ => none
  | .heldAtomicRelease _ => none
  | .awtConditionMet _ => none
  | .remoteAtomicTimeout _ => none
  | .enginePiecePerformed _ _ => none
  | .engineCommandEnd _ => none
  | .streamTokenPublish _ => none
  | .collRoundInput _ _ => none
  | .roundTimeout _ => none
  | .membershipProbe _ _ _ => none
  | .probeDeadline _ _ => none
  | .newMembership _ _ _ => none
  | .floodComplete _ _ => none
  | .floodFail _ _ _ => none
  | .ebbComplete _ _ => none
  | .faultRecordPost => none
  | .faultServed _ => none
  | .faultFail _ => none
  | .atsInvalidation _ _ => none
  | .mmuInvalidate _ _ => none
  | .mmuMigrate _ _ => none
  | .invalidationComplete _ => none
  | .settleWindowEnd _ _ => none
  | .homeGenerationUpdate _ _ => none
  | .killComplete _ => none
  | .peerKillMessage _ _ _ _ => none
  | .tailWrite _ _ _ _ => none
  | .reconcilePass => none
  | .captureQueueDrain => none
  | .packetFetch _ => none
  | .sliceExpiry => none
  | .packetCompletion _ _ => none
  | .waitTimeout _ => none
  | .launch _ => none
  | .slaunch _ => none
  | .delta _ => none
  | .wrsig _ => none
  | .wait _ => none
  | .detset _ => none
  | .replay _ => none
  | .patch _ => none
  | .fencePacket _ => none
  | .floodh _ => none
  | .kill _ => none
  | .queueEnable _ => none
  | .queueStop _ => none
  | .queueResume _ => none
  | .queueStopComplete _ => none
  | .admission => none
  | .compaction _ => none
  | .moveComplete _ => none
  | .swapOut _ => none
  | .deadlineExpiry _ => none
  | .rebalancerWindow _ _ => none
  | .cloneRelease _ => none
  | .wfiWake _ => none
  | .jettyPolicyTrap _ => none
  | .watchdogKick => none
  | .watchdogExpiry => none
  | .firmwareException _ => none
  | .jettyRestartComplete => none
  | .jfwselGo _ => none
  | .firmwareWindowWrite _ _ => none
  | .rollbackRequest _ => none
  | .dieDrainResetReturn _ => none
  | .dieDrainHold _ => none
  | .dieReturn _ => none
  | .dieResetComplete _ _ _ => none
  | .errorInject _ _ => none
  | .silentError _ _ => none
  | .correctedError _ => none
  | .uncorrectableError _ => none
  | .dieCrcFailure _ _ => none
  | .tileRetirement _ => none
  | .linkTraining _ _ _ => none
  | .linkRetrain _ _ => none
  | .linkWidthRetry _ => none
  | .pathDownTimeout _ => none
  | .pathRestored _ => none
  | .collgrpWrite _ _ => none
  | .sensorTrip _ => none
  | .getVersion => none
  | .getCapabilities => none
  | .negotiateAlgorithms => none
  | .getDigests => none
  | .getCertificate => none
  | .challenge _ => none
  | .getMeasurements _ _ => none
  | .pldmMonitorRequest => none
  | .debugHalt _ => none
  | .debugRelease _ => none
  | .haltStopped _ => none
  | .hostBar4Write _ _ => none
  | .hostBar4Read _ _ => none
  | .registerWrite _ _ _ => none
  | .powerUp => none
  | .powerLoss => none
  | .perstAssert => none
  | .perstDeassert => none
  | .bootReady => none
  | .pfFlr => none
  | .vfFlr _ => none
  | .linkRetrainComplete _ _ => none
  | .peerWrite _ _ _ _ _ => none
  | .hostLinkTraining _ _ => none
  | .pageRequestResponse _ _ => none
  | .ideKmRequest _ _ => none
  | .mctpControlMessage => none
  | .signingComplete => none
  | .retirementComplete _ => none
  | .levelChangeTimeout _ => none
  | .migrationCopyComplete _ => none

/-- The constructor of an opcode of this format (R78). -/
def Instr.ofR (op : Nat) (x : RFields) : Option Instr :=
  match op with
  | 0x01 => some (.nop x)
  | 0x05 => some (.jmp x)
  | 0x07 => some (.ret x)
  | 0x0C => some (.fend x)
  | 0x0D => some (.fabt x)
  | 0x0F => some (.brk x)
  | 0x10 => some (.add x)
  | 0x11 => some (.sub x)
  | 0x12 => some (.mul x)
  | 0x13 => some (.mulh x)
  | 0x14 => some (.div x)
  | 0x15 => some (.rem x)
  | 0x16 => some (.and x)
  | 0x17 => some (.or x)
  | 0x18 => some (.xor x)
  | 0x19 => some (.andn x)
  | 0x1A => some (.shl x)
  | 0x1B => some (.shr x)
  | 0x1C => some (.sar x)
  | 0x1D => some (.rot x)
  | 0x1E => some (.min x)
  | 0x1F => some (.max x)
  | 0x20 => some (.cmp x)
  | 0x21 => some (.sel x)
  | 0x22 => some (.clz x)
  | 0x23 => some (.popc x)
  | 0x24 => some (.bext x)
  | 0x25 => some (.bins x)
  | 0x26 => some (.adds x)
  | 0x30 => some (.fadd x)
  | 0x31 => some (.fsub x)
  | 0x32 => some (.fmul x)
  | 0x33 => some (.fdiv x)
  | 0x34 => some (.fsqrt x)
  | 0x35 => some (.ffma x)
  | 0x36 => some (.fmin x)
  | 0x37 => some (.fmax x)
  | 0x38 => some (.fcmp x)
  | 0x39 => some (.fclass x)
  | 0x3B => some (.fsgn x)
  | 0x3D => some (.frnd x)
  | 0x3E => some (.fscl x)
  | 0x3F => some (.fflg x)
  | 0x40 => some (.vadd x)
  | 0x41 => some (.vsub x)
  | 0x42 => some (.vmul x)
  | 0x43 => some (.vfma x)
  | 0x44 => some (.vdiv x)
  | 0x45 => some (.vsqrt x)
  | 0x46 => some (.vrcp x)
  | 0x47 => some (.vrsq x)
  | 0x48 => some (.vmin x)
  | 0x49 => some (.vmax x)
  | 0x4A => some (.vabs x)
  | 0x4B => some (.vneg x)
  | 0x4C => some (.vand x)
  | 0x4D => some (.vor x)
  | 0x4E => some (.vxor x)
  | 0x4F => some (.vshl x)
  | 0x50 => some (.vshr x)
  | 0x51 => some (.vsar x)
  | 0x52 => some (.vcmp x)
  | 0x53 => some (.vsel x)
  | 0x55 => some (.vexp2 x)
  | 0x56 => some (.vlog2 x)
  | 0x57 => some (.vscl x)
  | 0x58 => some (.vclass x)
  | 0x59 => some (.vadds x)
  | 0x5A => some (.vsubs x)
  | 0x5B => some (.vmulh x)
  | 0x5C => some (.vdot x)
  | 0x5F => some (.vbcst x)
  | 0x60 => some (.vext x)
  | 0x61 => some (.vins x)
  | 0x62 => some (.vidx x)
  | 0x63 => some (.vred x)
  | 0x64 => some (.vscan x)
  | 0x65 => some (.vperm x)
  | 0x66 => some (.vshuf x)
  | 0x67 => some (.vcmpr x)
  | 0x68 => some (.vexpn x)
  | 0x69 => some (.vpcnt x)
  | 0x6A => some (.plog x)
  | 0x6B => some (.vqnt x)
  | 0x6C => some (.vdqt x)
  | 0x6D => some (.vsort x)
  | 0x6E => some (.vseg x)
  | 0x6F => some (.vmov x)
  | 0x74 => some (.mzero x)
  | 0x77 => some (.mscl x)
  | 0x78 => some (.msplt x)
  | 0x79 => some (.mjoin x)
  | 0x7A => some (.mtsw x)
  | 0x7B => some (.mtst x)
  | 0x7C => some (.mpert x)
  | 0x7D => some (.mchk x)
  | 0x7E => some (.mtov x)
  | 0x7F => some (.mfrv x)
  | 0xA9 => some (.tlwait x)
  | 0xAA => some (.tlrd x)
  | 0xAB => some (.tladv x)
  | 0xAC => some (.barinit x)
  | 0xAD => some (.baradd x)
  | 0xAE => some (.barsub x)
  | 0xAF => some (.barwait x)
  | 0xB0 => some (.barrd x)
  | 0xB1 => some (.barfree x)
  | 0xB2 => some (.gbara x)
  | 0xB3 => some (.gbarw x)
  | 0xB5 => some (.time x)
  | 0xB6 => some (.evsig x)
  | 0xB7 => some (.stmp x)
  | 0xC8 => some (.flood x)
  | 0xC9 => some (.ebb x)
  | 0xCA => some (.tidew x)
  | 0xCB => some (.tideq x)
  | 0xCC => some (.evcl x)
  | 0xCD => some (.mode x)
  | 0xCE => some (.modeq x)
  | 0xCF => some (.sbeg x)
  | 0xD0 => some (.sres x)
  | 0xD1 => some (.sfall x)
  | 0xD2 => some (.chkerr x)
  | 0xD3 => some (.flgt x)
  | 0xD9 => some (.xlat x)
  | _ => none

/-- The constructor of an opcode of this format (R78). -/
def Instr.ofCvt (op : Nat) (x : CvtFields) : Option Instr :=
  match op with
  | 0x3A => some (.fcvt x)
  | 0x54 => some (.vcvt x)
  | _ => none

/-- The constructor of an opcode of this format (R78). -/
def Instr.ofAtom (op : Nat) (x : AtomFields) : Option Instr :=
  match op with
  | 0x98 => some (.aadd x)
  | 0x99 => some (.amin x)
  | 0x9A => some (.amax x)
  | 0x9B => some (.aand x)
  | 0x9C => some (.aor x)
  | 0x9D => some (.axor x)
  | 0x9E => some (.aswp x)
  | 0x9F => some (.acas x)
  | 0xA0 => some (.aincb x)
  | 0xA1 => some (.adecb x)
  | 0xA2 => some (.afadd x)
  | 0xA3 => some (.afmin x)
  | 0xA4 => some (.afmax x)
  | 0xA5 => some (.ared x)
  | 0xA6 => some (.awt x)
  | 0xA7 => some (.arty x)
  | _ => none

/-- The constructor of an opcode of this format (R78). -/
def Instr.ofI (op : Nat) (x : IFields) : Option Instr :=
  match op with
  | 0x09 => some (.cset x)
  | 0x0A => some (.cclr x)
  | 0x0B => some (.clog x)
  | 0x0E => some (.trap x)
  | 0x27 => some (.addi x)
  | 0x28 => some (.andi x)
  | 0x29 => some (.ori x)
  | 0x2A => some (.xori x)
  | 0x2B => some (.shli x)
  | 0x2C => some (.shri x)
  | 0x2D => some (.sari x)
  | 0x2E => some (.cmpi x)
  | 0x3C => some (.fmvi x)
  | 0x5D => some (.vaddi x)
  | 0x5E => some (.vmuli x)
  | 0xB4 => some (.sleep x)
  | _ => none

/-- The constructor of an opcode of this format (R78). -/
def Instr.ofL (op : Nat) (x : LFields) : Option Instr :=
  match op with
  | 0x2F => some (.lil x)
  | _ => none

/-- The constructor of an opcode of this format (R78). -/
def Instr.ofB (op : Nat) (x : BFields) : Option Instr :=
  match op with
  | 0x02 => some (.bra x)
  | 0x03 => some (.brc x)
  | 0x04 => some (.brn x)
  | 0x06 => some (.call x)
  | 0x08 => some (.loop x)
  | _ => none

/-- The constructor of an opcode of this format (R78). -/
def Instr.ofM (op : Nat) (x : MFields) : Option Instr :=
  match op with
  | 0x75 => some (.mlda x)
  | 0x76 => some (.msta x)
  | 0x80 => some (.ld x)
  | 0x81 => some (.st x)
  | 0x82 => some (.ldaq x)
  | 0x83 => some (.strl x)
  | 0x84 => some (.vld x)
  | 0x85 => some (.vst x)
  | 0x86 => some (.vlds x)
  | 0x87 => some (.vsts x)
  | 0x88 => some (.vgth x)
  | 0x89 => some (.vsct x)
  | 0x8A => some (.wld x)
  | 0x8B => some (.wst x)
  | 0x8C => some (.pref x)
  | 0x8D => some (.cinv x)
  | 0x8E => some (.cwb x)
  | 0x8F => some (.ldnt x)
  | _ => none

/-- The constructor of an opcode of this format (R78). -/
def Instr.ofA (op : Nat) (x : AFields) : Option Instr :=
  match op with
  | 0x90 => some (.recv x)
  | 0x91 => some (.peek x)
  | 0x92 => some (.emit x)
  | 0x93 => some (.emits x)
  | 0x94 => some (.arcq x)
  | 0x95 => some (.skip x)
  | 0x96 => some (.mark x)
  | 0x97 => some (.ctok x)
  | _ => none

/-- The constructor of an opcode of this format (R78). -/
def Instr.ofX (op : Nat) (x : XFields) : Option Instr :=
  match op with
  | 0x70 => some (.mma x)
  | 0x71 => some (.mmag x)
  | 0x72 => some (.mmt x)
  | 0x73 => some (.mrec x)
  | _ => none

/-- The constructor of an opcode of this format (R78). -/
def Instr.ofE (op : Nat) (x : EFields) : Option Instr :=
  match op with
  | 0xB8 => some (.cpy x)
  | 0xB9 => some (.cpyt x)
  | 0xBA => some (if x.flags = 4 then .cpyxScatter x else .cpyxGather x)
  | 0xBB => some (.cpys x)
  | 0xBC => some (.cpyq x)
  | 0xBD => some (.cpyk x)
  | 0xBE => some (.cpyb x)
  | 0xBF => some (.strm x)
  | 0xC0 => some (.strmq x)
  | 0xC1 => some (.strmk x)
  | 0xC2 => some (.coll x)
  | 0xC3 => some (.collq x)
  | 0xC4 => some (.collk x)
  | 0xC5 => some (.fill x)
  | 0xC6 => some (.csum x)
  | 0xC7 => some (if x.flags = 2 then .xferUnpin x else if x.flags = 4 then .xferCopyPin x else .xferPin x)
  | _ => none

/-- The constructor of an opcode of this format (R78). -/
def Instr.ofY (op : Nat) (x : YFields) : Option Instr :=
  match op with
  | 0xA8 => some (.fence x)
  | 0xD4 => some (.mfsr x)
  | 0xD5 => some (.mtsr x)
  | 0xD6 => some (if x.sub = 1 then .syscEpoch x else if x.sub = 2 then .syscPinq x else .syscOrd x)
  | 0xD7 => some (if x.sub = 1 then .sretSkip x else if x.sub = 2 then .sretEsc x else .sret x)
  | 0xD8 => some (.tlbi x)
  | 0xDA => some (if x.sub = 1 then .haltRel x else .halt x)
  | 0xDB => some (.dstep x)
  | 0xDC => some (.prio x)
  | 0xDD => some (if x.sub = 1 then .ordlDrop x else if x.sub = 2 then .ordlStat x else .ordl x)
  | 0xDE => some (.wfi x)
  | 0xDF => some (.exit x)
  | 0xE0 => some (.cmpt x)
  | _ => none

/-- The instruction of an opcode and its operands. -/
def Instr.ofParts (op : Nat) (o : Operands) : Option Instr :=
  match o with
  | .r x => Instr.ofR op x
  | .cvt x => Instr.ofCvt op x
  | .atom x => Instr.ofAtom op x
  | .i x => Instr.ofI op x
  | .l x => Instr.ofL op x
  | .b x => Instr.ofB op x
  | .m x => Instr.ofM op x
  | .a x => Instr.ofA op x
  | .x x => Instr.ofX op x
  | .e x => Instr.ofE op x
  | .y x => Instr.ofY op x

/-- The variant rows share an opcode: their flags or sub field must name them (R177, R179, R372, R376, R377, R383). -/
def Instr.variantOk : Instr → Bool
  | .cpyxGather x => x.flags == 0
  | .cpyxScatter x => x.flags == 4
  | .xferPin x => x.flags == 0
  | .xferUnpin x => x.flags == 2
  | .xferCopyPin x => x.flags == 4
  | .syscOrd x => x.sub == 0
  | .syscEpoch x => x.sub == 1
  | .syscPinq x => x.sub == 2
  | .sret x => x.sub == 0
  | .sretSkip x => x.sub == 1
  | .sretEsc x => x.sub == 2
  | .halt x => x.sub == 0
  | .haltRel x => x.sub == 1
  | .ordl x => x.sub == 0
  | .ordlDrop x => x.sub == 1
  | .ordlStat x => x.sub == 2
  | _ => true

end Sys2Proof
end

