-- ==== Sys2Proof/WellFormed.lean ====
section
/-! DEFINITION. The static checks on the syntax: an instruction is well formed when a word can stand for it, that is when its
word passes steps 1 to 4 of 04 R62. A row that no word encodes has no such checks beyond its index ranges. -/

namespace Sys2Proof

/-- The type fields of the operands, and whether d is a general register, as step 2 of R62 reads them. -/
def operandTys : Operands → Ty × Ty × Bool
  | .r x => (x.ty, .i8, x.d.isG)
  | .cvt x => (x.ty, x.src, x.d.isG)
  | .atom x => (x.ty, .i8, x.d.isG)
  | .i x => (x.ty, .i8, x.d.isG)
  | .l _ => (.i8, .i8, true)
  | .b _ => (.i8, .i8, true)
  | .m x => (x.ty, .i8, x.d.isG)
  | .a x => (x.ty, .i8, x.d.isG)
  | .x x => (x.tyA, x.tyB, false)
  | .e _ => (.i8, .i8, true)
  | .y _ => (.i8, .i8, true)

/-- Step 2 of R62 on typed operands. -/
def typesOk (op : Nat) (o : Operands) : Bool :=
  let (t, t2, g) := operandTys o
  typesAccepted op t t2 g

/-- Steps 2 to 4 of R62 and the variant fields. -/
def Instr.wellFormed (i : Instr) : Bool :=
  match i.parts with
  | some (op, o) => typesOk op o && fieldsOk op o && immOk op o && i.variantOk
  | none =>
    match i with
    | .firingStart t | .parkedFiringResume t | .preEmption t | .drawWindowEnd t | .tileRetirement t | .retirementComplete t =>
      decide (t < 1152)                                        -- R9
    | .dieDrainResetReturn d | .dieDrainHold d | .dieReturn d => decide (d < 8)   -- R8
    | .packetFetch q | .waitTimeout q | .launch q | .slaunch q | .queueEnable q | .queueStop q | .queueResume q =>
      decide (q < 64)                                          -- R332
    | .debugHalt n | .debugRelease n | .haltStopped n | .rollbackRequest n => decide (n < 64)   -- R18
    | .mmuInvalidate p _ | .mmuMigrate p _ | .migrationCopyComplete p => decide (p < 2)   -- R357
    | .linkWidthRetry l => decide (l < 12)                     -- R429
    | _ => true

end Sys2Proof
end

