-- ==== Sys2Proof/Decode.lean ====
section
/-! DEFINITION. Decoding (04 R62 to R80): any 64-bit word gives an instruction or the name of the step that refuses it; after
it the encoder, written from the same layouts of R63. -/

namespace Sys2Proof

/-- The four refusals of R62, one for each step: traps 0x01 to 0x04. -/
inductive DecodeErr where
  | opcode | types | fields | immediate
deriving DecidableEq, Repr

/-- The trap code of a refusal (R62). -/
def DecodeErr.code : DecodeErr → Nat
  | .opcode => 1 | .types => 2 | .fields => 3 | .immediate => 4

/-- Bits [lo + n - 1 : lo] of a word. -/
def fld (w lo n : Nat) : Nat := w / 2 ^ lo % 2 ^ n

/-! ### The fields of the formats (R63); none when a code is reserved or a reserved bit is set -/

def parseR (w : Nat) (ty : Ty) : Option RFields :=
  match Guard.ofCode (fld w 0 8), Reg.ofSpec (fld w 44 8), Reg.ofSpec (fld w 36 8), Reg.ofSpec (fld w 28 8),
      Reg.ofSpec (fld w 20 8), Mods.ofCode (fld w 8 8) with
  | some g, some d, some a, some b, some c, some m =>
    some { guard := g, ty := ty, d := d, a := a, b := b, c := c, pm := Fin.ofNat 16 (fld w 16 4), mods := m }
  | _, _, _, _, _, _ => none

def parseCvt (w : Nat) (ty src : Ty) : Option CvtFields :=
  match Guard.ofCode (fld w 0 8), Reg.ofSpec (fld w 44 8), Reg.ofSpec (fld w 36 8), Reg.ofSpec (fld w 28 8),
      Mods.ofCode (fld w 8 8) with
  | some g, some d, some a, some b, some m =>
    if fld w 24 4 = 0 then
      some { guard := g, ty := ty, src := src, d := d, a := a, b := b, pm := Fin.ofNat 16 (fld w 16 4), mods := m }
    else none
  | _, _, _, _, _ => none

def parseAtom (w : Nat) (ty : Ty) : Option AtomFields :=
  match Guard.ofCode (fld w 0 8), Reg.ofSpec (fld w 44 8), Reg.ofSpec (fld w 36 8), Reg.ofSpec (fld w 28 8),
      Reg.ofSpec (fld w 20 8), Rnd.ofCode (fld w 13 3) with
  | some g, some d, some a, some b, some c, some m =>
    if fld w 8 2 = 0 then
      some { guard := g, ty := ty, d := d, a := a, b := b, c := c, pm := Fin.ofNat 16 (fld w 16 4), rnd := m,
             sat := fld w 12 1 == 1, order := Order.ofCode (fld w 10 2) }
    else none
  | _, _, _, _, _, _ => none

def parseI (w : Nat) (ty : Ty) : Option IFields :=
  match Guard.ofCode (fld w 0 8), Reg.ofSpec (fld w 44 8), Reg.ofSpec (fld w 36 8), Mods.ofCode (fld w 8 8) with
  | some g, some d, some a, some m =>
    some { guard := g, ty := ty, d := d, a := a, imm := BitVec.ofNat 16 (fld w 20 16), pm := Fin.ofNat 16 (fld w 16 4), mods := m }
  | _, _, _, _ => none

def parseL (w : Nat) : Option LFields :=
  match Guard.ofCode (fld w 0 8), Reg.ofSpec (fld w 48 8) with
  | some g, some d => some { guard := g, d := d, imm := BitVec.ofNat 40 (fld w 8 40) }
  | _, _ => none

def parseB (w : Nat) : Option BFields :=
  match Guard.ofCode (fld w 0 8) with
  | some g => some { guard := g, sel := Fin.ofNat 64 (fld w 50 6), disp := BitVec.ofNat 42 (fld w 8 42) }
  | none => none

def parseM (w : Nat) (ty : Ty) : Option MFields :=
  match Guard.ofCode (fld w 0 8), Reg.ofSpec (fld w 44 8), Reg.ofSpec (fld w 36 8), Reg.ofSpec (fld w 28 8),
      Space.ofCode (fld w 14 2) with
  | some g, some d, some base, some index, some sp =>
    if fld w 10 2 = 0 then
      some { guard := g, ty := ty, d := d, base := base, index := index, disp := BitVec.ofNat 8 (fld w 20 8),
             pm := Fin.ofNat 16 (fld w 16 4), sp := sp, scl := Fin.ofNat 4 (fld w 12 2), co := fld w 8 1 == 1,
             ns := fld w 9 1 == 1 }
    else none
  | _, _, _, _, _ => none

def parseA (w : Nat) (ty : Ty) : Option AFields :=
  match Guard.ofCode (fld w 0 8), Reg.ofSpec (fld w 44 8), Mods.ofCode (fld w 8 8) with
  | some g, some d, some m =>
    if fld w 36 4 = 0 then
      some { guard := g, ty := ty, d := d, arc := Fin.ofNat 16 (fld w 40 4), count := BitVec.ofNat 8 (fld w 28 8),
             off := BitVec.ofNat 8 (fld w 20 8), pm := Fin.ofNat 16 (fld w 16 4), mods := m }
    else none
  | _, _, _ => none

def parseX (w : Nat) (tyA tyB : Ty) : Option XFields :=
  match Guard.ofCode (fld w 0 8), AccMode.ofCode (fld w 44 2), Reg.ofSpec (fld w 36 8), Reg.ofSpec (fld w 28 8),
      Mods.ofCode (fld w 8 8) with
  | some g, some am, some a, some b, some m =>
    some { guard := g, tyA := tyA, tyB := tyB, acc := Fin.ofNat 4 (fld w 46 2), am := am, a := a, b := b,
           kidx := BitVec.ofNat 8 (fld w 20 8), pm := Fin.ofNat 16 (fld w 16 4), mods := m }
  | _, _, _, _, _ => none

def parseE (w : Nat) : Option EFields :=
  match Guard.ofCode (fld w 0 8), Reg.ofSpec (fld w 44 8), Reg.ofSpec (fld w 36 8) with
  | some g, some desc, some len =>
    if fld w 8 12 = 0 then
      some { guard := g, tl := Fin.ofNat 8 (fld w 53 3), deferred := fld w 52 1 == 1, desc := desc, len := len,
             bar := BitVec.ofNat 12 (fld w 24 12), bw := fld w 23 1 == 1, flags := BitVec.ofNat 3 (fld w 20 3) }
    else none
  | _, _, _ => none

def parseY (w : Nat) : Option YFields :=
  match Guard.ofCode (fld w 0 8), Reg.ofSpec (fld w 28 8) with
  | some g, some r =>
    if fld w 8 20 = 0 then
      some { guard := g, sub := BitVec.ofNat 8 (fld w 48 8), sysreg := BitVec.ofNat 12 (fld w 36 12), gr := r }
    else none
  | _, _ => none

/-- Is d a general register (R65)? -/
def dIsGeneral (w : Nat) : Bool := decide (fld w 44 8 < 64)

/-- Steps 3 and 4 of R62 on the fields that were read. -/
def finish (op : Nat) : Option Operands → Except DecodeErr Instr
  | none => .error .fields
  | some o =>
    if fieldsOk op o then
      if immOk op o then
        match Instr.ofParts op o with
        | some i => .ok i
        | none => .error .fields
      else .error .immediate
    else .error .fields

/-- A word of a format with one type field: step 2 of R62, then the rest. In PREF, CINV and CWB every wrong type code raises the trap of the
other fields (R161, log 82). -/
def withTy (op w : Nat) (f : Ty → Option Operands) : Except DecodeErr Instr :=
  match Ty.ofCode (fld w 52 4) with
  | none => .error (if hintOp op then .fields else .types)
  | some t => if typesAccepted op t .i8 (dIsGeneral w) then finish op (f t) else .error .types

/-- A word of a format with two type fields, the second `t2`. -/
def withTy2 (op w t2 : Nat) (f : Ty → Ty → Option Operands) : Except DecodeErr Instr :=
  match Ty.ofCode (fld w 52 4), Ty.ofCode t2 with
  | some t, some u => if typesAccepted op t u (dIsGeneral w) then finish op (f t u) else .error .types
  | _, _ => .error .types

/-- R62 on a word given as a number. -/
def decodeNat (w : Nat) : Except DecodeErr Instr :=
  let op := fld w 56 8
  match fmtOf op with
  | none => .error .opcode
  | some .r => withTy op w fun t => (parseR w t).map .r
  | some .cvt => withTy2 op w (fld w 20 4) fun t u => (parseCvt w t u).map .cvt
  | some .atom => withTy op w fun t => (parseAtom w t).map .atom
  | some .i => withTy op w fun t => (parseI w t).map .i
  | some .l => finish op ((parseL w).map .l)
  | some .b => finish op ((parseB w).map .b)
  | some .m => withTy op w fun t => (parseM w t).map .m
  | some .a => withTy op w fun t => (parseA w t).map .a
  | some .x => withTy2 op w (fld w 48 4) fun t u => (parseX w t u).map .x
  | some .e => finish op ((parseE w).map .e)
  | some .y => finish op ((parseY w).map .y)

/-- R62: the decoder checks the whole word before the guard is evaluated. -/
def decode (w : Dword) : Except DecodeErr Instr := decodeNat w.toNat

/-! ### The encoder (R63) -/

/-- Bits [55:0] of the word. -/
def operandBits : Operands → Nat
  | .r x => x.ty.code * 2 ^ 52 + x.d.spec * 2 ^ 44 + x.a.spec * 2 ^ 36 + x.b.spec * 2 ^ 28 + x.c.spec * 2 ^ 20
      + x.pm.val * 2 ^ 16 + x.mods.code * 2 ^ 8 + x.guard.code
  | .cvt x => x.ty.code * 2 ^ 52 + x.d.spec * 2 ^ 44 + x.a.spec * 2 ^ 36 + x.b.spec * 2 ^ 28 + x.src.code * 2 ^ 20
      + x.pm.val * 2 ^ 16 + x.mods.code * 2 ^ 8 + x.guard.code
  | .atom x => x.ty.code * 2 ^ 52 + x.d.spec * 2 ^ 44 + x.a.spec * 2 ^ 36 + x.b.spec * 2 ^ 28 + x.c.spec * 2 ^ 20
      + x.pm.val * 2 ^ 16 + x.rnd.code * 2 ^ 13 + x.sat.toNat * 2 ^ 12 + x.order.code * 2 ^ 10 + x.guard.code
  | .i x => x.ty.code * 2 ^ 52 + x.d.spec * 2 ^ 44 + x.a.spec * 2 ^ 36 + x.imm.toNat * 2 ^ 20 + x.pm.val * 2 ^ 16
      + x.mods.code * 2 ^ 8 + x.guard.code
  | .l x => x.d.spec * 2 ^ 48 + x.imm.toNat * 2 ^ 8 + x.guard.code
  | .b x => x.sel.val * 2 ^ 50 + x.disp.toNat * 2 ^ 8 + x.guard.code
  | .m x => x.ty.code * 2 ^ 52 + x.d.spec * 2 ^ 44 + x.base.spec * 2 ^ 36 + x.index.spec * 2 ^ 28 + x.disp.toNat * 2 ^ 20
      + x.pm.val * 2 ^ 16 + x.sp.code * 2 ^ 14 + x.scl.val * 2 ^ 12 + x.ns.toNat * 2 ^ 9 + x.co.toNat * 2 ^ 8 + x.guard.code
  | .a x => x.ty.code * 2 ^ 52 + x.d.spec * 2 ^ 44 + x.arc.val * 2 ^ 40 + x.count.toNat * 2 ^ 28 + x.off.toNat * 2 ^ 20
      + x.pm.val * 2 ^ 16 + x.mods.code * 2 ^ 8 + x.guard.code
  | .x x => x.tyA.code * 2 ^ 52 + x.tyB.code * 2 ^ 48 + x.acc.val * 2 ^ 46 + x.am.code * 2 ^ 44 + x.a.spec * 2 ^ 36
      + x.b.spec * 2 ^ 28 + x.kidx.toNat * 2 ^ 20 + x.pm.val * 2 ^ 16 + x.mods.code * 2 ^ 8 + x.guard.code
  | .e x => x.tl.val * 2 ^ 53 + x.deferred.toNat * 2 ^ 52 + x.desc.spec * 2 ^ 44 + x.len.spec * 2 ^ 36 + x.bar.toNat * 2 ^ 24
      + x.bw.toNat * 2 ^ 23 + x.flags.toNat * 2 ^ 20 + x.guard.code
  | .y x => x.sub.toNat * 2 ^ 48 + x.sysreg.toNat * 2 ^ 36 + x.gr.spec * 2 ^ 28 + x.guard.code

/-- The word of an instruction as a number; none for a row that no word encodes. -/
def encodeNat (i : Instr) : Option Nat := i.parts.map fun (op, o) => op * 2 ^ 56 + operandBits o

/-- The word of an instruction (R63); none for a row that no word encodes. -/
def encode (i : Instr) : Option Dword := (encodeNat i).map (BitVec.ofNat 64)

/-- What the decoder reads from an instruction whose bits are `w`, the bits from `nbits` up being zero. One word is the
whole instruction (R61), so nothing but its 64 bits counts. -/
def decodeTableWord (nbits w : Nat) : Option Instr :=
  match decode (BitVec.ofNat 64 (w % 2 ^ min nbits 64)) with
  | .ok i => some i
  | .error _ => none

end Sys2Proof
end

