-- ==== Sys2Proof/Machine/State.lean ====
section
/-! DEFINITION. The state of the package as plain data: every register, table, queue and store that the spec gives the part,
the outcomes a step can have, and the state right after reset. -/

namespace Sys2Proof.Machine

/-- A sparse table: keys strictly rising. -/
abbrev Tab (α : Type) := List (Nat × α)

/-- Bytes by address, in the canonical form of `Memory.wf`: keys strictly rising and no zero byte listed. -/
abbrev Memory := List Host.Cell

/-! ### Stops of the model -/

/-- Why the machine stops. -/
inductive Fault where
  /-- Raised by every instruction that is executed while no firing runs on the tile in focus: no core fetches an instruction
  then (02 R29), so the case lies outside the machine. Safe: a claim about that case cannot be proved. -/
  | noFiring
deriving DecidableEq, Repr

/-- Why the model gives no meaning. -/
inductive Refusal where
  /-- Raised by an arm of Dispatch whose instruction has no meaning yet. Safe. -/
  | notModelled (mnemonic : String)
deriving DecidableEq, Repr

/-! ### Traps, waits and operations that a firing leaves to its commit -/

/-- What a trap puts into the record besides the fields of the slot (21 R369, R370). -/
structure TrapInfo where
  code : Nat
  decl : Dword := 0
  act : Dword := 0
  info : Dword := 0
  aux : Dword := 0
  arc : Option (Bool × Nat) := none
  fl : BitVec 5 := 0
  elem : Nat := 0
  eng : Bool := false
  abt : Bool := false
deriving DecidableEq, Repr

/-- How a firing ends: FEND, EXIT, or WFI with its time in ns (06 R103; 21 R380, R381). -/
inductive EndKind where
  | fend | exit | wfi (ns : Nat)
deriving DecidableEq, Repr

/-- What a parked firing waits for (16 R293). -/
inductive Wait where
  /-- TLWAIT on counter `tl` for `n` (08 R170). -/
  | timeline (tl : Fin 8) (n : Nat)
  /-- BARWAIT on the context's barrier `n` (08 R171). -/
  | barrier (n : Nat)
  /-- GBARW on barrier `n` for epoch `e` (08 R172). -/
  | group (n e : Nat)
  /-- SLEEP until a clock value in tile cycles (08 R173). -/
  | sleep (till : Nat)
  /-- STMP, the first irrevocable instruction or the commit of a stamped firing (07 R139, R141). -/
  | lowerStamps
  /-- FEND, EXIT or WFI of a stamped firing whose checks have passed (06 R103). -/
  | commitTurn (e : EndKind)
  /-- A page fault of an irrevocable firing (20 R360), by its fault number. -/
  | page (id : Nat)
  /-- A firing that gave way to a higher level (16 R295), or that a debug halt stopped (21 R384). -/
  | preempted
  /-- TIDEW on a layer (17 R324). -/
  | tide (layer : Nat)
  /-- 64 commands are outstanding (08 R175). -/
  | commandRoom
  /-- TLBI until invalidation `id` completes (21 R379). -/
  | invalidation (id : Nat)
  /-- An atomic at its home, with the clock at which it was issued, held there by a D2 log or not (08 R163, 09 R191). -/
  | atomic (since : Nat) (held : Bool)
  /-- An AWT that its home holds (08 R166). -/
  | awt (since : Nat) (acked : Bool)
  /-- A release, or the commit, waits until the immediate commands of the firing have ended (07 R127, R129). -/
  | commands
  /-- SYSC during a restart of the Jetty core (21 R376). -/
  | jetty
  /-- A surrogate verdict that a D2 log holds back (09 R191). -/
  | verdict
deriving DecidableEq, Repr

/-- A command that engines run (08 R175 to R183): what the block held when it was captured. -/
inductive Family where
  | copy | stream | coll
deriving DecidableEq, Repr

/-- The state of a command (08 R182). -/
inductive CmdState where
  | queued | running | completed | failed | cancelled
deriving DecidableEq, Repr

/-- A piece that an engine has read and not yet performed (21 R384): its place in the order of the buffer, the progress of the command at which
it is due, the address it was read from, its bytes and their poison. -/
structure HeldPiece where
  seq : Nat
  pos : Nat
  src : Nat
  bytes : List Byte
  psn : Bool
deriving DecidableEq, Repr

structure Command where
  /-- Slot key, counter and number on it (07 R144); `loader` marks the streams of `.source` and `.sink`, which have no number and
  whose counter names their port, 16 more for a sink (08 R180). -/
  slot : Nat
  tl : Nat
  num : Nat
  loader : Bool
  ctx : Nat
  cove : Nat
  gen : Nat
  op : Nat
  family : Family
  flags : Nat
  /-- The captured parameter block, and for an immediate command the SRAM stores its firing had buffered, by SRAM key
  (07 R143). -/
  block : List Byte
  view : Tab Byte
  barrier : Option Nat
  state : CmdState
  status : Nat
  /-- Bytes, elements or rounds performed (08 R182). -/
  progress : Nat
  /-- Bytes already subtracted from the barrier. -/
  subtracted : Nat
  /-- Partial results of a collective, element patterns by index (25 R421). -/
  partials : Tab Dword
  roundStart : Nat
  /-- Waits for the answer to this fault (20 R360). -/
  faultWait : Option Nat
  flags5 : BitVec 5
  /-- The strand or collective engine that runs it (01 R12, 20 R359). -/
  engine : Nat
  /-- The row of a gather or scatter that has begun, and its index as read (08 R177). -/
  row : Option (Nat × Nat)
  /-- The write events that happened before its launch (07 R129). -/
  seen : List Nat := []
  /-- Pieces in the holding buffer (21 R384), the inputs of rounds that a collective cannot take yet, and whether it has met poison (23 R398). -/
  held : List HeldPiece := []
  inputs : List (List Dword) := []
  psn : Bool := false
deriving DecidableEq, Repr

/-- What takes effect at commit, in program order (02 R30, R49; 08 R170, R171, R175, R183; 17 R324; 08 R161). -/
inductive DeferredOp where
  | tladv (tl : Fin 8) (v : Nat)
  | barInit (n count size : Nat)
  | barAdd (n v : Nat)
  | barSub (n v : Nat)
  | barFree (n : Nat)
  | groupArrive (n e : Nat)
  | command (c : Command)
  | cancel (op : Nat) (tl : Fin 8) (num : Nat)
  | flood (layer src : Nat)
  | ebb (layer : Nat)
  | cacheInv (line : Nat)
  | cacheWb (line : Nat)
deriving DecidableEq, Repr

/-- A control entry of an arc (06 R116). -/
inductive Entry where
  /-- A marker of a cut, placed by MARK or by the tile itself (23 R403). -/
  | marker (cut : Nat) (byTile : Bool)
  /-- A mode token: the region, the rate set it names and the slot that executed MODE (17 R325, 02 R38). -/
  | mode (region rset issuer : Nat)
  | user (bit : Fin 32)
  /-- The drain token of a region that steps its configuration number under D3 (09 R194). -/
  | drain (region : Nat)
deriving DecidableEq, Repr

/-! ### Firings and slots -/

/-- An accumulator with its status word, checksums and arming (12 R249, R250, R275, R277). -/
structure Acc where
  e : Vector Lane 2048
  tsw : Lane
  chkRow : Vector Lane 32
  chkCol : Vector Lane 64
  armed : Option (Bool × Nat × Lane)
deriving DecidableEq, Repr

/-- An accumulator at firing start (02 R29). -/
def Acc.zero : Acc :=
  { e := Vector.replicate 2048 0, tsw := 0, chkRow := Vector.replicate 32 0, chkCol := Vector.replicate 64 0, armed := none }

/-- The system registers that MTSR, PRIO and EVCL write, as the slot holds them and as a firing sees them
(03 R50 to R56). -/
structure SysRegs where
  fcsr : Dword
  tolr : Dword
  chki : Dword
  spov : Dword
  trapv : Dword
  prioEcl : Nat
  prioLvl : Nat
deriving DecidableEq, Repr

/-- Identifies a remote atomic in flight (08 R163, R167). -/
structure AtomicReq where
  tag : Nat
  op : Nat
  ty : Nat
  va : Nat
  pa : Nat
  b : Dword
  c : Dword
  rm : Rnd
  sat : Bool
  /-- Stochastic bits drawn at issue (10 R206). -/
  sr : Nat
  order : Nat
  dst : Nat
  /-- Site and subject of the choice (09 R189), and whether its home has taken it up. -/
  site : Nat
  subj : Dword
  arrived : Bool
  /-- The result that the home sent back, with its flags; none while it has not answered. -/
  result : Option (Dword × BitVec 5)
  /-- The write events that it read from, and its own (07 R137). -/
  events : List Nat := []
  own : List Nat := []
deriving DecidableEq, Repr

/-- The registers that a firing computes with (03 R46, R49, R51; 10 R206, R212). -/
structure Regs where
  g : Vector Dword 64
  v : Vector VReg 64
  p : Vector Dword 16
  acc : Vector Acc 4
  /-- c0 to c31 as this firing sees them (03 R49). -/
  c : Lane
  /-- System registers as this firing sees them (03 R51). -/
  sys : SysRegs
  /-- Flags raised so far (10 R212). -/
  raised : BitVec 5
  /-- Stochastic instructions executed (10 R206). -/
  srCount : Nat
  /-- STAMP of the firing (10 R206). -/
  stamp : Dword
deriving DecidableEq, Repr

/-- The counts of the rate monitor and the token numbers a firing counts from (06 R104, R107). -/
structure Tokens where
  got : Vector Nat 16
  sent : Vector Nat 16
  sizeErrIn : Vector (Option Nat) 16
  sizeErrOut : Vector (Option Nat) 16
  rpAt : Vector Nat 16
  wpAt : Vector Nat 16
deriving DecidableEq, Repr

/-- What a firing holds back until its commit (02 R29, R30). -/
structure Buffers where
  /-- Buffered global stores by physical address and buffered SRAM stores by SRAM key (08 R151, R160). -/
  gbuf : Tab Byte
  sbuf : Tab Byte
  /-- Lines that count towards the footprint (08 R153): global lines, and SRAM lines from 2^60 up. -/
  lines : List Nat
  /-- The translation of each 64 KiB page that a buffered store used, page to frame: the store is written through it, and an
  invalidation of it waits for the firing (08 R151, 20 R358). -/
  xlated : Tab Nat
  /-- Bytes of output tokens, keyed port * 2^24 + token * 2^16 + byte (06 R109). -/
  emitted : Tab Byte
  /-- Control entries by output port, in program order (06 R116). -/
  entries : List (Nat × Entry)
  deferredOps : List DeferredOp
  /-- The buffered W1C clear of FLGA (03 R53). -/
  flgaClear : BitVec 5
  /-- STRL executed (07 R131), and the bytes of global memory that STRL stored last (07 R148). -/
  cumulative : Bool
  released : List Nat := []
deriving DecidableEq, Repr

/-- What happened before the next action of a firing (07 R129): the write events, those that its acquires have read from, those that its
reads have returned and its atomics have made, each also with the byte at which it was met, those of its own atomics, and its fences: of
FENCE.sc the scope, the tile and the first event that does not count (07 R135), of a release fence the scope, the tile and what happened
before it (07 R134). -/
structure View where
  hb : List Nat := []
  floor : List Nat := []
  met : List Nat := []
  metAt : List (Nat × Nat) := []
  own : List Nat := []
  sc : List (Nat × Nat × Nat) := []
  rel : List (Nat × Nat × List Nat) := []
deriving DecidableEq, Repr

/-- A firing in flight. -/
structure Firing where
  pc : Nat
  r : Regs
  tk : Tokens
  b : Buffers
  phase : Nat
  rset : Nat
  /-- A handler firing (21 R371). -/
  handler : Bool
  /-- Irrevocable (02 R34). -/
  irr : Bool
  /-- Started by step 1 of 16 R294. -/
  starved : Bool
  /-- Instructions executed (04 R62) and tile cycles run (02 R31). -/
  count : Nat
  ran : Nat
  /-- Lines in the read signature (07 R140). -/
  readLines : List Nat
  /-- Ordinals of atomics by hash class (09 R189). -/
  ordinals : Tab Nat
  /-- Check-open bit, residual and rejection mark of a surrogate firing (17 R328). -/
  surK : Bool
  surQ : Lane
  surReject : Bool
  /-- Tainted by poison (23 R398). -/
  tainted : Bool
  parked : Option Wait
  request : Option AtomicReq
  /-- Immediate commands of the firing (07 R127), and those before its last FENCE with `.rel`: they have ended when a later atomic,
  immediate command or EVSIG takes place (07 R135). -/
  started : List Nat
  fenced : List Nat
  /-- k-steps of an MMT already done (12 R261). -/
  grind : Nat
  /-- The instruction at pc has begun: its guard held, and it parked (04 R62, 16 R293). -/
  begun : Bool
  /-- First opcode that counts against class 0 in this window (16 R306). -/
  firstOp : Option Nat
  /-- A fault answer FAIL that the parked instruction raises when it resumes (20 R360). -/
  failedFault : Bool
  view : View := {}
  /-- Atomics that were performed ahead of earlier accesses of the firing, by index: their results wait there (07 R130, R137). -/
  ahead : List (Nat × AtomicReq) := []
  /-- Of a handler firing: the layers of its list that were not RESIDENT when it started (17 R323). -/
  unflooded : List Nat := []
deriving DecidableEq, Repr

/-- A timeline counter (07 R144). -/
structure Timeline where
  issued : Nat
  done : Nat
deriving DecidableEq, Repr

/-- One position of a layer list in a slot: layer, slice offset and length in the weight region, residency bit and fault bit
(17 R318). -/
structure LayerPos where
  layer : Nat
  off : Nat
  len : Nat
  resident : Bool
  fault : Bool
deriving DecidableEq, Repr

/-- What an image declares of an actor (02 R22, R44; 05 R90, R91). -/
structure Actor where
  num : Nat
  len : Nat
  foot : Nat
  stateBytes : Nat
  weightBytes : Nat
  spillBytes : Nat
  power : Nat
  condMask : Lane
  condMatch : Lane
  clonable : Bool
  stamped : Option Nat
  /-- The exact actor that this one is a surrogate of (17 R327). -/
  surrogateOf : Option Nat
  initSet : Nat
  /-- Period of each rate set; 0 for an empty set (05 R91). -/
  period : Vector Nat 8
  /-- Entry point of a phase, keyed rset * 16 + phase, relative to the run. -/
  entry : Tab Nat
  /-- Token size of each declared port; none where the port is not declared. -/
  inSize : Vector (Option Nat) 16
  outSize : Vector (Option Nat) 16
  closedFault : Vector Bool 16
  /-- Rates, keyed (rset * 16 + phase) * 32 + port, outputs from 16 up (02 R23). -/
  rates : Tab Nat
  layers : List Nat
  code : List Dword
  initC : Lane
  /-- MARK stands in the run (23 R402). -/
  hasMark : Bool
deriving DecidableEq, Repr

/-- What placement fixes in a slot (02 R20, 03 R56, 06 R96). -/
structure Placement where
  ctx : Nat
  cfg : Nat
  /-- Position among the configuration's instances, and the tile offset row * 64 + column (08 R160). -/
  inst : Nat
  cti : Nat
  actor : Actor
  instWord : Dword
  /-- First index and length of the actor's run in the tile's program store (06 R96). -/
  runBase : Nat
  runLen : Nat
  /-- CARV and SPLIM, in 64-byte units (03 R56). -/
  phb : Nat
  wtb : Nat
  stb : Nat
  spb : Nat
  lim : Nat
  /-- Arc of each input and output port. -/
  inArc : Vector (Option Nat) 16
  outArc : Vector (Option Nat) 16
  /-- Cove tag and generation at placement, which every write of the slot carries (20 R366). -/
  tag : Nat
  gen : Nat
  /-- The level and class that the launch gave (17 R324, 21 R375). -/
  launchLvl : Nat
  launchEcl : Nat
  /-- Region of the actor, and the output ports on which MODE places its tokens, each with the region that declares it as a
  control port (05 R90). -/
  region : Option Nat
  controls : List (Nat × Nat)
  /-- Group rank (07 R139). -/
  rank : Nat
  /-- The fallback of a surrogate and the surrogate of a fallback, as slot keys (17 R327). -/
  fallback : Option Nat
  surrogate : Option Nat
deriving DecidableEq, Repr

/-- What holds a slot's firings back or is due before its next one. -/
structure Due where
  /-- A rejected surrogate waits for its fallback; a fallback has a firing to run: stamp, phase, rate set (17 R329). -/
  surWait : Bool
  fallback : Option (Dword × Nat × Nat)
  /-- Voids by pre-emption since the last commit (16 R296). -/
  voids : Nat
  /-- Clock since which the slot has been ready without selection (16 R294). -/
  readySince : Option Nat
  /-- Frozen by a debug halt; the monitor of one (21 R383). -/
  frozen : Bool
  monitor : Bool
  /-- Starts no firing until Jetty policy has acted (21 R373). -/
  stopped : Bool
  /-- A handler firing is due (21 R371). -/
  handler : Bool
  /-- A trap record waits for Jetty policy (21 R373). -/
  policy : Option (Vector Dword 8)
  /-- A firing was trapped and its handler runs or is due (21 R372). -/
  trapped : Bool
  /-- SRET.skip waits for its turn in a stamped group (21 R372). -/
  skip : Bool
  /-- Traps that the next firings take before their first instruction, oldest first. -/
  traps : List TrapInfo
  /-- Waits for the answer to this page fault (20 R360). -/
  fault : Option Nat
  /-- The automatic poison check has found PSN: firings take trap 0x0D until it is clear (03 R54). -/
  check : Bool
  /-- Exited (21 R380). -/
  exited : Bool
  /-- WFI: waits for an entry, and until this clock when a time was given (21 R381). -/
  wfi : Option (Option Nat)
  /-- The determinism level that a slot outside every region takes when its firing has ended (09 R197). -/
  level : Option Nat
deriving DecidableEq, Repr

/-- A slot's part in marker cuts (23 R403): the last cut saved, and the cut under way with the aligned input ports whose markers
have come. -/
structure Cut where
  last : Option Nat
  want : Option Nat
  marked : List Nat
deriving DecidableEq, Repr

/-- A context slot of a tile (02 R20). -/
structure Slot where
  pl : Placement
  layers : List LayerPos
  /-- Generation counts of the rate sets (02 R23). -/
  rateGen : Vector Nat 8
  c : Lane
  tl : Vector Timeline 8
  sys : SysRegs
  stamp : Dword
  phase : Nat
  rset : Nat
  detl : Nat
  trapc : Dword
  trapi : Vector Dword 8
  flga : BitVec 5
  /-- Commits since the last automatic poison check (03 R54). -/
  chkCount : Nat
  /-- First opcode that counts against class 0 of the firings that ended in this window (16 R306). -/
  drawOp : Option Nat
  /-- Counter of remote-atomic tags (08 R163). -/
  nextTag : Nat
  /-- Bytes of the spill carve written since the last firing start, by local address, and the number of that start: the other
  bytes of the carve hold no defined value (02 R29). -/
  spill : Tab Byte
  spillId : Nat
  /-- Poisoned lines of the spill carve, by local line number (23 R397, R398). -/
  spillBad : List Nat
  due : Due
  cut : Cut
  firing : Option Firing
  /-- The write events that happened before the slot's next firing (07 R128), and those that its reads have returned (07 R131). -/
  seen : List Nat := []
  met : List Nat := []
  /-- The write events of its commits and atomics (07 R142). -/
  wrote : List Nat := []
deriving DecidableEq, Repr

/-- The clone set of an instance (16 R312): the original, the clones placed, and the splits, newest first: split stamp, the
PHASE that the instance holds at it, and the copies in order. Stamps below the oldest split run on the original. -/
structure CloneSet where
  original : Nat
  copies : List Nat
  splits : List (Nat × Nat × List Nat)
  /-- Copies that are being removed, with the stamp at which their part ends. -/
  leaving : List (Nat × Nat)
  /-- Consecutive windows as a bottleneck and with low use (16 R310). -/
  hot : Nat
  cold : Nat
  /-- A clone that was asked for while the region drains (16 R314). -/
  wanted : Bool
  /-- The first stamp that is not yet routed: past every stamp whose firing has started, voided or not (16 R312). -/
  next : Nat
deriving DecidableEq, Repr

/-- The counts of a rebalancer window (16 R310): the clock at which it began, busy cycles by copy, back-pressure cycles by input
port. -/
structure Window where
  since : Nat
  busy : Tab Nat
  back : Tab Nat
  /-- Windows that have ended and have not been judged, oldest first: was the instance a bottleneck, was every copy little used? -/
  ended : List (Bool × Bool) := []
deriving DecidableEq, Repr

/-- A tile beside its slots (16 R294, 02 R25, 23 R399, R400). -/
structure Tile where
  starts : Nat
  lastPick : Vector Nat 12
  running : Option Nat
  protEvents : Nat
  failures : List Nat
  retiring : Bool
  /-- Slots and start of the draw window (16 R306). -/
  windowStart : Nat
  /-- Spare in use: how often the number has moved to a spare. -/
  spare : Nat
deriving DecidableEq, Repr

/-- A tile at device reset. -/
def Tile.zero : Tile :=
  { starts := 0, lastPick := Vector.replicate 12 7, running := none, protEvents := 0, failures := [], retiring := false,
    windowStart := 0, spare := 0 }

/-! ### Arcs -/

/-- An arc: one `.edge`, or the port behind a merge (02 R24, 09 R185). Counts are 32-bit (02 R24). -/
structure Arc where
  cfg : Nat
  /-- Producer slot and port; none for a strand source, for the port of a merge and for a producer in a peer. -/
  producer : Option (Nat × Nat)
  consumer : Option (Nat × Nat)
  /-- Context tag that its tokens carry (02 R25). -/
  tag : Nat
  size : Nat
  window : Nat
  /-- Local address of the ring window in the consumer's carve. -/
  base : Nat
  delay : Nat
  closedFault : Bool
  /-- Parked tokens allowed (02 R40). -/
  park : Nat
  /-- Published count, count as the consumer's tile sees it (06 R106), consumed count, and its copy at the producer
  (02 R43). -/
  wp : Nat
  wpSeen : Nat
  rp : Nat
  rpMirror : Nat
  cross : Option Nat
  entries : List (Nat × Entry)
  /-- Tokens in the spill ring, oldest first; poison marked (02 R40). -/
  parked : List (List Byte × Bool)
  discards : Nat
  /-- Poisoned tokens in the window, by token number (23 R398). -/
  poisoned : List Nat
  /-- The consumer has exited (02 R41). -/
  closed : Bool
  /-- Held by a marker until the slot saves this cut (23 R403). -/
  held : Option Nat
  /-- Tokens being recorded, by cut, poison marked (23 R398, R403). -/
  recorded : List (Nat × List (List Byte × Bool))
  /-- Reports no space: its consumer's tile retires (23 R400). -/
  blocked : Bool
  /-- The merged port this arc feeds with its input number, and the tokens waiting at the merge (09 R185). -/
  merge : Option (Nat × Nat)
  waiting : List (List Byte × Bool)
  /-- Of a merged port: its inputs and the input whose turn it is under D3 (09 R195). -/
  inputs : List Nat
  turn : Nat
  /-- What happened before the publication of its tokens and entries: position and write events, newest first (07 R129, R146). -/
  carry : List (Nat × List Nat) := []
  /-- Of a merged port: the edges from which its entries came, in their order, markers and drain tokens left out (06 R103). -/
  origins : List Nat := []
  /-- To an instance with clones: how many tokens each copy has consumed from its own window, by the copy's slot (16 R312). -/
  lanes : Tab Nat := []
deriving DecidableEq, Repr

/-! ### Regions, barriers, layers -/

/-- A mode token that a region controller holds: the set it names, the slot that executed MODE, what the drain clock has
counted, and the cycles since its delivery (02 R38). -/
structure ModeToken where
  rset : Nat
  issuer : Nat
  ran : Nat
  age : Nat
deriving DecidableEq, Repr

/-- A region controller (02 R37, R38; 17 R326; 09 R194, R197). -/
structure Region where
  cfg : Nat
  num : Nat
  actors : List Nat
  cfgn : Nat
  cur : Nat
  lf : Nat
  /-- Mode tokens delivered and not yet served; the region drains for the first. -/
  queue : List ModeToken
  /-- Level changes that wait for the quiescent point, oldest first: new level and packet (queue, number), and the cycles that the
  first has waited. -/
  levels : List (Nat × Nat × Nat)
  levelRan : Nat
  /-- A DELTA under D3: 1 while it waits for the quiescent point, 2 once its changes are made (18 R340). -/
  delta : Nat
  /-- Under D3 the drain tokens of a step of the configuration number are out (09 R194). -/
  stepping : Bool
deriving DecidableEq, Repr

/-- A barrier object (08 R171). -/
structure Barrier where
  live : Bool
  err : Bool
  epoch : Nat
  count : BitVec 48
  size : Nat
  status : Nat
  /-- The write events that a BARWAIT or GBARW acquires (07 R145). -/
  carry : List Nat := []
deriving DecidableEq, Repr

/-- A barrier that is not live. -/
def Barrier.zero : Barrier := { live := false, err := false, epoch := 0, count := 0, size := 0, status := 0 }

/-- The states of a layer (17 R319). -/
inductive TideState where
  | absent | flooding | resident | ebbing | faulted
deriving DecidableEq, Repr

/-- A tide-table entry with the sources the flood engine keeps (17 R319, R320, R436). -/
structure Tide where
  state : TideState
  pfl : Bool
  stat : Nat
  gen : Nat
  ecl : Nat
  pend : Nat
  /-- The image default, the source of the flood in progress, and the source of the flood that last made the layer RESIDENT
  (17 R436). -/
  dflt : Option Nat
  src : Nat
  kept : Nat
  /-- Source and class of the request that waits for the ebb. -/
  nextSrc : Nat
  nextEcl : Nat
  /-- Arrival number of the request being served (16 R308). -/
  arrival : Nat
  /-- Waits for the answer to this fault (20 R360). -/
  faultWait : Option Nat
  /-- The write events that happened before the flood in progress, the one that waits for the ebb, and the one that made the layer RESIDENT
  (07 R129). -/
  seen : List Nat := []
  nextSeen : List Nat := []
  keptSeen : List Nat := []
deriving DecidableEq, Repr

/-- A layer at launch. -/
def Tide.zero : Tide :=
  { state := .absent, pfl := false, stat := 0, gen := 0, ecl := 0, pend := 0, dflt := none, src := 0, kept := 0, nextSrc := 0, nextEcl := 0, arrival := 0,
    faultWait := none }

/-! ### Images and launches -/

/-- An instance line of an image (05 R90). -/
structure InstanceLine where
  actor : Nat
  row : Nat
  col : Nat
  slot : Nat
  word : List Nat
  /-- The fallback instance of a surrogate (17 R327): position of the surrogate's line. -/
  fallbackOf : Option Nat
deriving DecidableEq, Repr

/-- An edge line (05 R90, R93); the producer package and consumer package differ on a cross-package edge. -/
structure EdgeLine where
  prodInst : Nat
  prodPort : Nat
  consInst : Nat
  consPort : Nat
  window : Nat
  delay : Nat
  initTokens : List Byte
  park : Nat
  cross : Option Nat
deriving DecidableEq, Repr

/-- A `.source` or `.sink` line: its block, direction and arc end (05 R90, 08 R180). -/
structure StreamLine where
  inst : Nat
  port : Nat
  source : Bool
  block : List Byte
  window : Nat
deriving DecidableEq, Repr

/-- A data segment with its offset from the base, and its relocated doublewords: the byte offset of each `.dword` that names
a data symbol, with the offset of that symbol's segment from the base (05 R93, R437). -/
structure Segment where
  off : Nat
  bytes : List Byte
  zeros : Nat
  relocs : List (Nat × Nat)
deriving DecidableEq, Repr

/-- A region line: member actors and control ports (actor, port) (05 R90). -/
structure RegionLine where
  actors : List Nat
  controls : List (Nat × Nat)
deriving DecidableEq, Repr

/-- A layer that the image describes: its number, and the segment that carries it (24 R413). -/
structure LayerLine where
  layer : Nat
  carried : Option Nat
deriving DecidableEq, Repr

/-- An Olufal image as the loader reads it (05 R95). -/
structure Image where
  hash : BitVec 256
  /-- The kind-8 section: none, or whether the Lighthouse accepts it (22 R388). -/
  signature : Option Bool
  bsig : Nat
  widths : List Nat
  prio : Nat
  ecl : Nat
  detl : Nat
  actors : List Actor
  lines : List InstanceLine
  edges : List EdgeLine
  streams : List StreamLine
  segments : List Segment
  /-- Code relocations: actor, index in its run, offset of the symbol (05 R93). -/
  relocs : List (Nat × Nat × Nat)
  regions : List RegionLine
  layerLines : List LayerLine
deriving DecidableEq, Repr

/-- A launch that is pending or runs (16 R298, 18 R335). -/
structure Launch where
  ordinal : Nat
  queue : Nat
  /-- Packet number within the queue. -/
  packet : Nat
  ctx : Nat
  image : Image
  lvl : Nat
  ecl : Nat
  detl : Nat
  deadline : Nat
  hard : Bool
  strict : Bool
  surrogate : Bool
  tolr : Dword
  dataBase : Nat
  /-- Device time of dispatch and bypass count. -/
  age : Nat
  bypass : Nat
  /-- The data segments are written; how many pieces of them are, and the fault that the next one waits on (05 R437). -/
  loaded : Bool
  loadPos : Nat
  loadWait : Option Nat
  /-- Returned by a swap-out: the configuration that waits (16 R305). -/
  swapped : Option Nat
  /-- The deadline had passed at admission: ranked at level 9 (16 R304). -/
  late : Bool
deriving DecidableEq, Repr

/-- What a part of a section holds of one slot: part 0, part 1 or 2 for the swap part; position of the slot among the lines; the
slot; bytes of its windows and state region by local address; poisoned lines (03 R59). -/
structure Save where
  part : Nat
  inst : Nat
  /-- 0 for an instance itself; the place of a clone among the copies (16 R314). -/
  copy : Nat
  slot : Slot
  bytes : Tab Byte
  bad : List Nat
deriving DecidableEq, Repr

/-- A cut being taken: the lines whose slots have saved it, the recorded arcs that have delivered its marker, and whether it has
been abandoned (23 R403, R404). -/
structure CutRun where
  num : Nat
  saved : List Nat
  arcsDone : List Nat
  dead : Bool
deriving DecidableEq, Repr

/-- Where a configuration stands: `moving` and `stopping` wait between firings for a move and for a swap-out. -/
inductive CfgState where
  | placed | moving | stopping | swapped | ended
deriving DecidableEq, Repr

/-- A configuration (02 R19). -/
structure Configuration where
  launch : Launch
  state : CfgState
  /-- Origin column and row in pages, and size (16 R299). -/
  x0 : Nat
  y0 : Nat
  w : Nat
  h : Nat
  /-- The origin that a move goes to (16 R303). -/
  moveTo : Option (Nat × Nat)
  slots : List Nat
  admitted : Nat
  /-- The deadline of the run has been dealt with (16 R304). -/
  dlDone : Bool
  /-- Clock of the last start or resumption (16 R307). -/
  lastActive : Nat
  /-- Layers that the swap-out found RESIDENT (17 R436). -/
  residentAtSwap : List Nat
  /-- Section header: offset of the section, part size, LAST, INPR, VLD, ABN, SWP (23 R401). -/
  section0 : Option Nat
  part : Nat
  last : Nat
  inpr : Nat
  vld : Bool
  abn : Bool
  swp : Bool
  /-- Saved slots, and saved arcs by part and number. -/
  saves : List Save
  savedArcs : List (Nat × Nat × Arc)
  cuts : List CutRun
  instancesLeft : Nat
  cloneSets : List CloneSet
  /-- A rollback is due that waits for the first cut of the run to be complete or abandoned (25 R422). -/
  rollbackDue : Bool := false
deriving DecidableEq, Repr

/-! ### Contexts -/

/-- A record of an order log (09 R189). -/
structure LogRecord where
  kind : Nat
  lnch : Nat
  site : Nat
  seq : Nat
  subj : Dword
deriving DecidableEq, Repr

/-- The order log of a context as the device keeps it (09 R187, R188, R435). -/
structure OrderLog where
  base : Nat
  units : Nat
  wp : Nat
  drop : Nat
  ovf : Bool
  div : Bool
  reported : Bool
  /-- Next SEQ by site, keyed (kind * 4096 + launch) * 65536 + site. -/
  seqs : Tab Nat
  /-- The records written, oldest first, for the digest (09 R190). -/
  records : List LogRecord
  /-- Source log of a D2 context: whether one is set, its unperformed records in order, and the launch ordinals not yet paired
  (09 R188, R191). -/
  hasSource : Bool
  source : List LogRecord
  partners : List Nat
  pairs : List (Nat × Nat)
deriving DecidableEq, Repr

/-- A context (20 R351, 16 R301, 21 R383, 23 R401, 18 R341). -/
structure Ctx where
  rootEn : Bool
  root : Nat
  tag : Nat
  gen : Nat
  kip : Bool
  cap : Nat
  halted : Bool
  haltDone : Bool
  snapBase : Nat
  snapSize : Nat
  snapRbk : Bool
  snapEn : Bool
  level : Nat
  /-- Launches of the context so far; the next one takes the ordinal that follows (09 R189). -/
  launches : Nat
  log : Option OrderLog
  events : List (Nat × Dword)
  barErrors : Nat
  pinShare : Nat
  nextSection : Nat
  /-- The order-log digest, with the mark of a log that overflowed, as computed when the context last ended (09 R190). -/
  logDigest : Option (List Byte × Bool)
  /-- A rollback of every configuration was asked for while the Jetty core restarted (23 R406). -/
  rollbackDue : Bool := false
deriving DecidableEq, Repr

/-- A context after reset. -/
def Ctx.zero : Ctx :=
  { rootEn := false, root := 0, tag := 0, gen := 0, kip := false, cap := 48000, halted := false, haltDone := false,
    snapBase := 0, snapSize := 0, snapRbk := false, snapEn := false, level := 0, launches := 0, log := none, events := [], barErrors := 0,
    pinShare := 67108864, nextSection := 0, logDigest := none }

/-! ### Faults, invalidations, migrations -/

/-- Who met a page fault (20 R359, R360). -/
inductive Requester where
  | tile (slot : Nat)
  | command (id : Nat)
  | flood (ctx layer : Nat)
  /-- The fetch of a queue, at a unit of its ring (18 R332). -/
  | fetch (queue unit : Nat)
  /-- An operand or the completion record of a packet (18 R334). -/
  | packet (queue num : Nat)
  | loader (key : Nat)
deriving DecidableEq, Repr

/-- A page fault from its discovery to its answer. Reason 0 stands for a page request to the host (20 R360), which takes no record. -/
structure PageFault where
  id : Nat
  va : Nat
  reason : Nat
  who : Requester
  ctx : Nat
  write : Bool
  time : Nat
  /-- TOKEN once the record is in the ring. -/
  token : Option Nat
deriving DecidableEq, Repr

/-- An invalidation in progress (20 R358). -/
structure Invalidation where
  id : Nat
  ctx : Nat
  vpg : Nat
  log : Nat
  /-- The MMU port that waits for it, or none for TLBI. -/
  port : Option Nat
  /-- The number of the next write event at its request. -/
  since : Nat := 0
deriving DecidableEq, Repr

/-- A TLB entry (20 R356), with the unit whose TLB holds it. -/
structure TlbEntry where
  unit : Nat
  ctx : Nat
  tag : Nat
  gen : Nat
  vpg : Nat
  level : Nat
  leaf : Dword
deriving DecidableEq, Repr

/-- A command port of the MMU (20 R357). -/
structure MmuPort where
  va : Dword
  pa : Dword
  busy : Bool
  sts : Nat
  ctx : Nat
  log : Nat
  /-- Op under way: 1 invalidate, 2 migrate; page and frames of a migration (20 R361). -/
  op : Nat
  vpg : Nat
  fromFrame : Nat
  toFrame : Nat
  /-- Lines of the page that have been copied (20 R361). -/
  copied : Nat := 0
deriving DecidableEq, Repr

def MmuPort.zero : MmuPort :=
  { va := 0, pa := 0, busy := false, sts := 0, ctx := 0, log := 0, op := 0, vpg := 0, fromFrame := 0, toFrame := 0 }

/-- A commit that was under way when a kill began (20 R366): its slot, cove and generation, what happened before it, whether its firing is
tainted, and the bytes that it stores. -/
structure OpenCommit where
  slot : Nat
  tag : Nat
  gen : Nat
  before : List Nat
  tainted : Bool
  bytes : Tab Byte
deriving DecidableEq, Repr

/-- A kill under way (20 R365). -/
structure Kill where
  cove : Nat
  gen : Nat
  acked : List Nat
  /-- Packets that complete with it: queue and packet number. -/
  packets : List (Nat × Nat)
  /-- Virtual functions whose FLR completes with it (26 R432). -/
  flrs : List Nat
  /-- Commits under way at its start, which the homes may perform in part (20 R366). -/
  commits : List OpenCommit := []
deriving DecidableEq, Repr

/-! ### Queues -/

/-- A fetched packet. -/
structure Packet where
  num : Nat
  unit : Nat
  bytes : List Byte
  /-- Dispatched; completed with this status when the completion is due. -/
  dispatched : Bool
  finished : Option Nat
  /-- Began waiting at this device time (WAIT). -/
  since : Nat
  /-- The slice, by the clock at its start, in which its condition was last found false (18 R339). -/
  tried : Option Nat
  /-- Waits for the host's agent to translate an operand (20 R360), by the number of the page request. -/
  asked : Option Nat := none
  /-- The agent has refused the translation that the completion record needs. -/
  refused : Bool := false
deriving DecidableEq, Repr

/-- A DELTA that has been dispatched and not completed (18 R340): queue and number of its packet, the configuration, the new
image, and how far it has come: 0 waits for its slots to stop, 1 the generations are odd. -/
structure Delta where
  queue : Nat
  packet : Nat
  cfg : Nat
  image : Image
  stage : Nat
deriving DecidableEq, Repr

/-- A queue with its state block (18 R332, R333). -/
structure Queue where
  rbase : Nat
  rsize : Nat
  ctx : Nat
  state : Nat
  tshad : Nat
  seq : Nat
  tail : Nat
  head : Nat
  done : Nat
  err : Dword
  rpos : Dword
  rgen : Nat
  lord : Nat
  lage : Nat
  lbyp : Nat
  /-- Packets fetched and not completed, oldest first; the number of the next packet. -/
  packets : List Packet
  nextNum : Nat
  faultWait : Option Nat
  /-- Replay in flight: packet number, list address, nodes; its nodes that have not completed. -/
  replay : Option (Nat × Nat × Nat)
  replayOpen : List Nat
deriving DecidableEq, Repr

/-- A disabled queue (18 R332, R333). -/
def Queue.zero : Queue :=
  { rbase := 0, rsize := 0, ctx := 0, state := 0, tshad := 0, seq := 0, tail := 0, head := 0, done := 0, err := 0, rpos := 0,
    rgen := 0, lord := 0, lage := 0, lbyp := 0, packets := [], nextNum := 0, faultWait := none, replay := none, replayOpen := [] }

/-- A generation of a replay list: its number and the bytes patched, keyed node * 1024 + offset (18 R341). -/
structure ReplayGen where
  gen : Nat
  patched : Tab Byte
deriving DecidableEq, Repr

/-! ### Device registers -/

/-- A collective group (25 R420). -/
structure Group where
  en : Bool
  ctx : Nat
  epoch : Nat
  mbr : BitVec 256
  /-- A membership recovery under way: the epoch it starts from, whether this package started it, and its deadline (25 R422). -/
  recovery : Option (Nat × Bool × Nat)
deriving DecidableEq, Repr

def Group.zero : Group := { en := false, ctx := 0, epoch := 0, mbr := 0, recovery := none }

/-- A Causeway link (26 R429, 23 R408). -/
structure Link where
  up : Bool
  peer : Nat
  lanes : Nat
  retraining : Bool
  triedAt : Nat
deriving DecidableEq, Repr

def Link.zero : Link := { up := false, peer := 0, lanes := 16, retraining := false, triedAt := 0 }

/-- What the part makes visible outside, newest first. -/
inductive Emission where
  | event (ctx : Nat) (num : Nat) (payload : Dword)
  | notice (text : String) (a b : Nat)
  | record (ctx : Nat) (words : Vector Dword 8)
  | msix (fn vector : Nat)
  | peer (pkg : Nat) (what : String) (a b : Nat)
  /-- Tokens and control entries that leave on an arc to a peer (02 R42, 06 R116), and the data of a collective round (25 R421). -/
  | peerTokens (pkg arc : Nat) (toks : List (List Byte)) (poisoned : Bool)
  | peerEntries (pkg arc : Nat) (es : List Entry)
  | peerRound (pkg cmd round : Nat) (data : List Dword) (poisoned : Bool)
  /-- The set and epoch of a group (25 R422, R423). -/
  | membership (pkg group epoch : Nat) (mbr : BitVec 256)
  | reply (text : String) (bytes : List Byte)
  | hostWrite (pa : Nat) (poisoned : Bool)
  /-- Posted writes to host memory that leave together, with no order among them (07 R148). -/
  | posted (pas : List Nat)
deriving DecidableEq, Repr

/-- A peer whose path is down: since when, whether 10 ms have passed, the writes held for it, newest first: cove tag and
generation, address, and the byte that stands there again if the write is discarded (20 R366, 23 R408); and the tokens, entries and
mirrored pointers held for it, oldest first. -/
structure Path where
  pkg : Nat
  downSince : Option Nat
  timedOut : Bool
  heldWrites : List (Nat × Nat × Nat × Byte)
  held : List Emission := []
deriving DecidableEq, Repr

/-- A firmware image as the Lighthouse finds it: a slot of the Jetty firmware store, or its own (22 R387, 23 R412). -/
structure Firmware where
  svn : Nat
  valid : Bool
  digest : BitVec 256
  /-- Bytes written through the window since the slot was last inactive. -/
  written : Tab Byte
deriving DecidableEq, Repr

/-- The always-on crash region (23 R409). -/
structure Crash where
  rsts : Nat
  cause : Nat
  trpn : Nat
  excn : Nat
  errn : Nat
  traps : Tab (Vector Dword 8)
  excs : Tab (List Byte)
  errs : Tab (List Byte)
deriving DecidableEq, Repr

/-- The Jetty core and its watchdog (18 R343, R344). -/
structure Jetty where
  wmin : Nat
  wmax : Nat
  lock : Bool
  /-- Clock of the last kick, or of the start of the firmware that has not kicked yet. -/
  lastKick : Nat
  kicked : Bool
  /-- Restarting since this clock. -/
  restarting : Option Nat
  wpg : Nat
  fail : Bool
  next : Nat
  act : Nat
  /-- Traps of code 0x12 counted (21 R371). -/
  handlerTraps : Nat
deriving DecidableEq, Repr

/-- The Lighthouse (22 R389 to R394). -/
structure Lighthouse where
  stage : Nat
  erased : Bool
  frozen : Bool
  alrm : BitVec 3
  lock : Bool
  reqsig : Bool
  clka : Nat
  tmpa : Nat
  glta : Nat
  mansel : Dword
  meas : Vector (BitVec 256) 5
  /-- The signing under way: 1 for CHALLENGE and 2 for GET_MEASUREMENTS, and the bytes that are signed (22 R392). -/
  signing : Option (Nat × List Byte)
  /-- Blown rollback fuses (22 R387). -/
  fuses : Fin 65
  /-- The Lighthouse's own firmware, the first stage of the boot (22 R387). -/
  image : Firmware
  /-- The erasable array: SK.seed, SK.prf and PK.seed of the identity key, 16 bytes each (22 R391). -/
  seed : List Byte := List.replicate 48 0
  /-- The public key that the certificate is over, kept once the seed is erased. -/
  pub : List Byte := []
deriving DecidableEq, Repr

/-- What the host link holds (26 R426, R430, R432). -/
structure HostLink where
  rate : Nat
  width : Nat
  ideKeys : Tab (BitVec 256)
  /-- An SPDM CHALLENGE has been answered (22 R392). -/
  authed : Bool
  power : Bool
  perst : Bool
  /-- The rails broke their order: the fundamental reset holds until power is lost (26 R430). -/
  railsBroken : Bool
  /-- The size of BAR4 as a binary logarithm, 30 to 40 (26 R427), and a function-level reset of function 0 whose kills run (26 R432). -/
  bar4Log : Nat := 30
  flr : Bool := false
deriving DecidableEq, Repr

/-- A consequence of an earlier step that comes about as a row of its own: which row, on what. -/
inductive DueRow where
  | handlerFiringStart (k : Nat)
  | jettyPolicyTrap (k : Nat)
  | fallbackFiring (k : Nat)
  | stampedCommit (k : Nat)
  | wpArrival (arc : Nat)
  | rpMirrorUpdate (arc : Nat)
  | controlEntryDelivery (arc : Nat)
  | parkedTokenDelivery (arc : Nat)
  | cutComplete (cfg : Nat)
  | quiescentPoint (region : Nat)
  | atomicAtHome (k : Nat)
  | heldAtomicRelease (k : Nat)
  | awtConditionMet (k : Nat)
  | enginePiecePerformed (cmd bytes : Nat)
  | engineCommandEnd (cmd : Nat)
  | streamTokenPublish (stream : Nat)
  | floodComplete (ctx layer : Nat)
  | floodFail (ctx layer status : Nat)
  | ebbComplete (ctx layer : Nat)
  | faultRecordPost
  | invalidationComplete (id : Nat)
  | migrationCopyComplete (port : Nat)
  | homeGenerationUpdate (home cove : Nat)
  | killComplete (cove : Nat)
  | packetCompletion (q n : Nat)
  | queueStopComplete (q : Nat)
  | reconcilePass
  | captureQueueDrain
  | admission
  /-- The run of a configuration is over (16 R304). -/
  | runEnd (cfg : Nat)
  | compaction (moves : List (Nat × Nat))
  | moveComplete (cfg : Nat)
  | swapOut (cfg : Nat)
  | cloneRelease (k : Nat)
  /-- A clone that a host asked for while a region drained (16 R314). -/
  | rebalancerWindow (k : Nat)
  | wfiWake (k : Nat)
  | jettyRestartComplete
  | tileRetirement (tile : Nat)
  | retirementComplete (tile : Nat)
  | rollbackRequest (ctx : Nat)
  | haltStopped (ctx : Nat)
  | membershipProbe (group epoch starter : Nat)
  | silentError (k site : Nat)
  | correctedError (e : ErrorSite)
  | uncorrectableError (e : ErrorSite)
  /-- The rollback of a configuration that waited for its first cut (25 R422). -/
  | cfgRollback (cfg : Nat)
  /-- The shelf of a draining die hands over (23 R411). -/
  | dieHandover (die : Nat)
  /-- The next stage of the boot before its last (26 R433). -/
  | bootStage
  /-- The next line of a page that a port of the MMU copies (20 R361). -/
  | copyLine (port : Nat)
deriving DecidableEq, Repr

/-- What moves next. The part is many agents; the list says which of them acts and when (log 1). -/
inductive Move where
  /-- An instruction of the tile in focus, or an event, takes place. -/
  | run (i : Instr)
  /-- A consequence of an earlier step takes place. -/
  | due (d : DueRow)
  /-- The core of a tile takes its next step. -/
  | core (tile : Nat)
  /-- DSTEP: one instruction of a frozen slot, then the value into a register of the monitor (21 R385). -/
  | single (monitor target dst : Nat)
  /-- Time passes, in tile cycles. -/
  | pass (cycles : Nat)
  /-- The TLB of a unit takes the leaf that a walk reads now (20 R356). -/
  | tlbFill (unit ctx va : Nat)
  /-- The TLB of a unit no longer holds a leaf for an address (20 R356). -/
  | tlbDrop (unit ctx va : Nat)
  /-- The Jetty controller sets the pin quota of a context on each die (08 R179, 18 R342). -/
  | pinQuota (ctx bytes : Nat)
  /-- An atomic of the firing that runs on a tile is performed ahead of the accesses before it, where that is allowed: how many
  instructions further on it stands (07 R130, R137). -/
  | ahead (tile by' : Nat)
  /-- Write events that the reads of the next move pass over, each with the first byte of a read that is seen whole, or a byte that is seen
  alone, where that is allowed (07 R123, R130). -/
  | lag (l : List (Nat × Nat))
  /-- Write events beneath which the commit of the next move writes, each with an aligned dword, where that is allowed (07 R124). -/
  | under (l : List (Nat × Nat))
  /-- The host writes its own memory, or a peer its own (07 R124). -/
  | outside (pa : Nat) (bytes : List Byte)
  /-- The rails power up or down out of their order (26 R430). -/
  | railsBreak
  /-- The shelf writes a dirty line back to HBM (20 R365). -/
  | writeBack (line : Nat)
  /-- The stores of a commit that was under way when a kill began reach their homes (20 R366). -/
  | openCommit (slot : Nat)
  /-- An engine reads the next piece of a command into its holding buffer (21 R384). -/
  | readAhead (cmd : Nat)
  /-- The host sizes BAR4, as a binary logarithm, and sends an AtomicOp to an offset of it (26 R426, R427). -/
  | bar4Size (log : Nat)
  | bar4Atomic (off : Nat)
  /-- Tiles fail the self-test that the Jetty firmware runs at boot (26 R433). -/
  | selfTest (failed : List Nat)
  /-- A peer package asks the configuration that its arcs join to roll back to a cut (23 R405). -/
  | peerRollback (pkg cfg cut : Nat)
deriving DecidableEq, Repr

/-- A write event of the last 20 µs (07 R124, R149): its number, the clock, its writer, what happened before it, what an acquire that
reads from it takes over (R131, R132), and what it does within the scope of a fence, with its tile (R134); of an engine write the slot,
counter and number of its command (R144). -/
structure WriteEvent where
  num : Nat
  cmd : Option (Nat × Nat × Nat)
  time : Nat
  unit : Nat
  before : List Nat
  rel : List Nat
  fences : List (Nat × Nat × List Nat)
  /-- It is the write of an atomic (07 R130 rule 3). -/
  atomic : Bool := false
  /-- What no observer sees in part (07 R123): 0 the whole event, 8 each whole aligned dword of it, 1 each byte. -/
  grain : Nat := 0
deriving DecidableEq, Repr

/-- The byte that stands below a write in the coherence order of its location. -/
structure Old where
  pa : Nat
  num : Nat
  was : Byte
deriving DecidableEq, Repr

/-- The recent past of global memory (07 R124, R130): write events and the bytes below them, both newest first; the next event number;
the event number at the last FENCE.sc of each domain, keyed scope * 4096 + domain; what the next move passes over; and the ranges that
have been invalidated (context, first page, binary logarithm of the pages) with the first event that a walk of them may pass over
(20 R358); and the frames to which pages have moved, each with the first event that a read of it may pass over (20 R361). -/
structure OrderState where
  events : List WriteEvent
  olds : List Old
  next : Nat
  sc : Tab Nat
  lag : List (Nat × Nat)
  under : List (Nat × Nat)
  fresh : List (Nat × Nat × Nat × Nat) := []
  moved : List (Nat × Nat) := []
deriving DecidableEq, Repr

/-- No write yet. -/
def OrderState.zero : OrderState := { events := [], olds := [], next := 0, sc := [], lag := [], under := [] }

/-- Memory and translation (20). -/
structure MemState where
  /-- Global memory by 52-bit physical address (20 R352), and its poisoned 64-byte lines (23 R398). -/
  mem : Memory
  poison : List Nat
  /-- Tile SRAM but for the spill carves, keyed slot key * 2^22 + local address (03 R56), and its poisoned lines. -/
  sram : Memory
  poisonSram : List Nat
  tlb : List TlbEntry
  /-- Translations of the host's agent that the endpoint caches, by frame of the host bus, and the ATS invalidations that wait for
  requests which they translated: address and frames (20 R354, R360). -/
  ats : Tab Nat
  atsInvals : List (Nat × List Nat)
  /-- Bytes of HBM that lie dirty in the shelf: cove tag, address, and the byte that HBM holds (20 R365, 23 R411). -/
  dirty : List (Nat × Nat × Byte)
  mmu : Vector MmuPort 2
  /-- Open splices: frame F and frame G (20 R361). -/
  splices : List (Nat × Nat)
  /-- Pages in their settle window: context * 2^44 + VPG, and the clock at which it ends (20 R363). -/
  settle : List (Nat × Nat)
  fltBase : Nat
  fltLog : Nat
  fltHead : Nat
  fltTail : Nat
  faults : List PageFault
  invals : List Invalidation
  /-- Generation at a home, keyed home * 4096 + tag (20 R366). -/
  homeGen : Tab Nat
  kills : List Kill
  /-- Pinned lines: die, context, line (08 R179). -/
  pins : List (Nat × Nat × Nat)
  order : OrderState
deriving DecidableEq, Repr

/-- The synchronisation of an atomic (07 R132): does it acquire, what it read from, its own write, whether it is a release, what happened
before it, and the release fences before it. -/
structure TagSync where
  acq : Bool := false
  reads : List Nat := []
  own : List Nat := []
  rel : Bool := false
  before : List Nat := []
  fences : List (Nat × Nat × List Nat) := []
deriving DecidableEq, Repr

/-- What a home notes of a remote atomic (08 R167): the home, the key of the tag, the clock, the result of one that was performed, none
where the home refuses the tag, and the synchronisation that an ARTY for it establishes (07 R138). -/
structure TagNote where
  home : Nat
  key : Nat
  time : Nat
  result : Option Dword
  sync : TagSync := {}
deriving DecidableEq, Repr

/-- A remote request that its firing has given up as LOST, and that may still reach its home (07 R138): the slot, the cove and
generation, the key of its tag, and the clock at which it was issued. -/
structure LateRequest where
  slot : Nat
  cove : Nat
  gen : Nat
  key : Nat
  since : Nat
  q : AtomicReq
  sync : TagSync := {}
deriving DecidableEq, Repr

/-- An AWT of a peer that its home here holds (08 R166). -/
structure PeerWait where
  id : Nat
  pkg : Nat
  slot : Nat
  cove : Nat
  gen : Nat
  q : AtomicReq
deriving DecidableEq, Repr

/-- Synchronisation, engines, residency and regions. -/
structure EngineState where
  /-- Keyed context * 4096 + number (08 R171). -/
  barriers : Tab Barrier
  commands : Tab Command
  /-- Tags at the homes, newest first, requests on their way, and the AWTs of peers (08 R166, R167). -/
  tags : List TagNote
  late : List LateRequest
  peerWaits : List PeerWait
  groups : Tab Group
  /-- Keyed context * 1024 + layer (17 R319). -/
  tides : Tab Tide
  regions : Tab Region
deriving DecidableEq, Repr

/-- What the device keeps of a launch for the manifest (09 R198; 22 R390): context, ordinal, HASH and BSIG of the image, the lowest
level that a region of the run has held, and whether its level changed and a DETSET failed in part. -/
structure RunRecord where
  ctx : Nat
  ordinal : Nat
  hash : BitVec 256
  bsig : Nat
  lowest : Nat
  changed : Bool
  part : Bool
deriving DecidableEq, Repr

/-- Contexts, launches and placement. -/
structure AllocState where
  ctxs : Tab Ctx
  launches : List Launch
  /-- The last 256 launches, oldest first (22 R390). -/
  history : List RunRecord
  cfgs : Tab Configuration
  /-- Fabric pages made unavailable (23 R400). -/
  offPages : List Nat
  /-- ADMCTL (16 R301). -/
  bypl : Nat
  recl : Bool
  rben : Bool
  /-- The idle configurations that the last admission found (16 R307). -/
  idleSeen : List Nat
  /-- What the rebalancer has counted of each clonable instance, by the key of its original (16 R310). -/
  windows : Tab Window
deriving DecidableEq, Repr

/-- The packet front end (18). -/
structure FrontState where
  queues : Tab Queue
  disc : Nat
  capOvf : Bool
  /-- The capture queue: function, offset, size and value of each tail write (18 R338). -/
  capture : List (Nat × Nat × Nat × Dword)
  gated : Bool
  /-- The queue being served and the clock at which its slice began (18 R339). -/
  slice : Nat × Nat
  lists : Tab (List ReplayGen)
  /-- The DELTAs under way (18 R340). -/
  deltas : List Delta
deriving DecidableEq, Repr

/-- Device registers and firmware. -/
structure DeviceState where
  /-- RSVWR (26 R428). -/
  rsvLast : Nat
  rsvBar : Bool
  rsvCnt : Nat
  pkgLock : Bool
  pkg : Nat
  jetty : Jetty
  firmware : Vector Firmware 2
  crash : Crash
  errInj : Dword
  errAdr : Dword
  /-- The slot whose write an armed injection corrupts (23 R410). -/
  hit : Option Nat := none
  /-- DIECTL.STATE (23 R411), and the command that the drain carries out. -/
  dieState : Vector Nat 8
  dieHold : Vector Bool 8
  /-- The die whose shelf slices are the homes of each die's lines (23 R411 step 3). -/
  dieHome : Vector Nat 8 := #v[0, 1, 2, 3, 4, 5, 6, 7]
  /-- Tiles that fail the self-test of the boot (26 R433). -/
  testFailed : List Nat := []
  lh : Lighthouse
  links : Vector Link 12
  paths : List Path
  host : HostLink
  dbgSel : Dword
deriving DecidableEq, Repr

/-- The whole package. -/
structure State where
  /-- The model's own fields: what moves next, the tile whose core moves when nothing else is due, the counter that free values
  are drawn at, what became visible outside (newest first), and the next number for faults, commands and the like. -/
  agenda : List Move
  focus : Nat
  freeCtr : Nat
  outbox : List Emission
  nextId : Nat
  /-- Time since PERST# was deasserted, in tile cycles of 10/27 ns (26 R431, 01 R12). -/
  clock : Nat
  tiles : Tab Tile
  /-- Slots, keyed tile * 8 + slot. -/
  slots : Tab Slot
  /-- Program stores, keyed tile * 32768 + index (04 R61). -/
  store : Tab Dword
  arcs : Tab Arc
  mm : MemState
  en : EngineState
  al : AllocState
  fe : FrontState
  dv : DeviceState
deriving DecidableEq, Repr

/-! ### Reset -/

/-- A firmware slot that holds no image, and the slot of the image that the part comes with (log 10). -/
def Firmware.zero : Firmware := { svn := 0, valid := false, digest := 0, written := [] }
def Firmware.factory : Firmware := { svn := 0, valid := true, digest := 0, written := [] }

/-- The crash region after loss of power (23 R409). -/
def Crash.zero : Crash := { rsts := 0, cause := 0, trpn := 0, excn := 0, errn := 0, traps := [], excs := [], errs := [] }

/-- The Jetty registers after reset (18 R343, 23 R412). -/
def Jetty.zero : Jetty :=
  { wmin := 10, wmax := 1000, lock := false, lastKick := 0, kicked := false, restarting := none, wpg := 0, fail := false, next := 0, act := 0,
    handlerTraps := 0 }

/-- The Lighthouse registers after reset (22 R390, R393). -/
def Lighthouse.zero : Lighthouse :=
  { stage := 0, erased := false, frozen := false, alrm := 0, lock := false, reqsig := false, clka := 1, tmpa := 1, glta := 1,
    mansel := 0, meas := Vector.replicate 5 0, signing := none, fuses := 0, image := Firmware.factory }

/-- Memory after reset: nothing listed, no translation, no fault, every register 0 (20). -/
def MemState.zero : MemState :=
  { mem := [], poison := [], sram := [], poisonSram := [], tlb := [], ats := [], atsInvals := [], dirty := [], mmu := Vector.replicate 2 MmuPort.zero, splices := [],
    settle := [], fltBase := 0, fltLog := 0, fltHead := 0, fltTail := 0, faults := [], invals := [], homeGen := [], kills := [],
    pins := [], order := OrderState.zero }

/-- No barrier live, no command, no group, every layer ABSENT. -/
def EngineState.zero : EngineState :=
  { barriers := [], commands := [], tags := [], late := [], peerWaits := [], groups := [], tides := [], regions := [] }

/-- Nothing launched; ADMCTL at BYPL 8, RECL 1, RBEN 1 (16 R301). -/
def AllocState.zero : AllocState :=
  { ctxs := [], launches := [], history := [], cfgs := [], offPages := [], bypl := 8, recl := true, rben := true, idleSeen := [],
    windows := [] }

/-- Every queue disabled (18 R333). -/
def FrontState.zero : FrontState :=
  { queues := [], disc := 0, capOvf := false, capture := [], gated := false, slice := (0, 0), lists := [], deltas := [] }

/-- Device registers at their "After reset" values. -/
def DeviceState.zero : DeviceState :=
  { rsvLast := 0, rsvBar := false, rsvCnt := 0, pkgLock := false, pkg := 0, jetty := Jetty.zero,
    firmware := #v[Firmware.factory, Firmware.zero], crash := Crash.zero, errInj := 0, errAdr := 0,
    dieState := Vector.replicate 8 0, dieHold := Vector.replicate 8 false, lh := Lighthouse.zero,
    links := Vector.replicate 12 Link.zero, paths := [],
    host := { rate := 0, width := 0, ideKeys := [], authed := false, power := true, perst := false, railsBroken := false }, dbgSel := 0 }

/-- The part when PERST# has just been deasserted after power-up: STAGE 0, device time 0, every slot unloaded, every field map
at its "After reset" value (03 intro, 26 R431 to R433). -/
def State.reset : State :=
  { agenda := [], focus := 0, freeCtr := 0, outbox := [], nextId := 1, clock := 0, tiles := [], slots := [], store := [],
    arcs := [], mm := MemState.zero, en := EngineState.zero, al := AllocState.zero, fe := FrontState.zero,
    dv := DeviceState.zero }

end Sys2Proof.Machine
end

