-- ==== Sys2Proof/Machine/Bits.lean ====
section
/-! DEFINITION. Sparse tables, canonical memories, bytes and lanes. -/

namespace Sys2Proof.Machine

/-! ### Tables -/

/-- The entry of a key. -/
def Tab.find {α : Type} : Tab α → Nat → Option α
  | [], _ => none
  | (k, v) :: t, n => if k = n then some v else Tab.find t n

/-- The table with a key set, the keys still rising. -/
def Tab.put {α : Type} : Tab α → Nat → α → Tab α
  | [], n, v => [(n, v)]
  | (k, w) :: t, n, v => if n < k then (n, v) :: (k, w) :: t else if n = k then (n, v) :: t else (k, w) :: Tab.put t n v

/-- The table without a key. -/
def Tab.del {α : Type} : Tab α → Nat → Tab α
  | [], _ => []
  | (k, w) :: t, n => if k = n then t else (k, w) :: Tab.del t n

/-- An entry changed, if there is one. -/
def Tab.upd {α : Type} (t : Tab α) (n : Nat) (f : α → α) : Tab α := t.map fun (k, v) => if k = n then (k, f v) else (k, v)

/-- A set of numbers as a rising list: one added. -/
def addNum : List Nat → Nat → List Nat
  | [], n => [n]
  | k :: t, n => if n < k then n :: k :: t else if n = k then k :: t else k :: addNum t n

/-! ### Memories -/

/-- The canonical form: addresses strictly rising, no zero byte listed. -/
def Memory.wf : Memory → Bool
  | [] => true
  | (_, b) :: [] => b != 0
  | (k, b) :: (j, c) :: t => decide (k < j) && b != 0 && Memory.wf ((j, c) :: t)

/-- A byte; an unlisted address reads 0 (26 R432 for HBM and tile SRAM). -/
def Memory.byte (m : Memory) (a : Nat) : Byte := (Tab.find m a).getD 0

/-- A byte written, the form kept. -/
def Memory.put (m : Memory) (a : Nat) (b : Byte) : Memory := if b = 0 then Tab.del m a else Tab.put m a b

/-- Consecutive bytes written. -/
def Memory.putAll (m : Memory) (a : Nat) : List Byte → Memory
  | [] => m
  | b :: t => Memory.putAll (Memory.put m a b) (a + 1) t

/-- Consecutive bytes. -/
def Memory.bytes (m : Memory) (a n : Nat) : List Byte := (List.range n).map fun i => Memory.byte m (a + i)

/-! ### Bytes and numbers (00 R1: little-endian) -/

/-- The number that bytes stand for. -/
def ofBytes : List Byte → Nat
  | [] => 0
  | b :: t => b.toNat + 256 * ofBytes t

/-- The n low bytes of a number. -/
def toBytes : Nat → Nat → List Byte
  | 0, _ => []
  | n + 1, v => BitVec.ofNat 8 v :: toBytes n (v / 256)

/-- The number in `n` bytes of a list from an offset; bytes beyond the list are 0. -/
def field (l : List Byte) (off n : Nat) : Nat := ofBytes ((l.drop off).take n)

/-- Sign extension of the low `n` bits to 64 bits. -/
def sext (n v : Nat) : Dword := BitVec.ofInt 64 ((BitVec.ofNat n v).toInt)

/-- A loaded value in a general register: I types sign-extended, every other type zero-extended (08 R155, 06 R108). -/
def widen (t : Ty) (v : Nat) : Dword := if t.signed then sext t.bits v else BitVec.ofNat 64 v

/-! ### Vector registers (03 R46, R47) -/

/-- Element `i` of width `w`. -/
def velem (x : VReg) (w i : Nat) : Nat := (x.toNat >>> (i * w)) % 2 ^ w

/-- The register whose elements of width `w` the function gives. -/
def vbuild (w : Nat) (f : Nat → Nat) : VReg :=
  BitVec.ofNat 2048 ((List.range (2048 / w)).foldr (fun i acc => acc + (f i % 2 ^ w) <<< (i * w)) 0)

/-- The lane that governs element `i` of width `w`: the lane that holds it, and lane 2e for a 64-bit element (03 R47). -/
def laneOf (w i : Nat) : Nat := if w = 64 then 2 * i else i * w / 32

/-- Is element `i` of width `w` enabled? -/
def laneOn (pr : Dword) (w i : Nat) : Bool := pr.getLsbD (laneOf w i)

/-- A register from its bytes, and its bytes. -/
def vOfBytes (l : List Byte) : VReg := BitVec.ofNat 2048 (ofBytes l)
def vBytes (x : VReg) : List Byte := toBytes 256 x.toNat

/-- Element reading and building are written once for the vector length. -/
def elems (w : Nat) : Nat := 2048 / w

/-! ### 32-bit counts (02 R24) -/

/-- A count. -/
def cnt (n : Nat) : Nat := n % 4294967296

/-- a - b as a count. -/
def cntSub (a b : Nat) : Nat := (a + 4294967296 - b % 4294967296) % 4294967296

/-- The value of a single bit. -/
def bit (b : Bool) : Nat := if b then 1 else 0

/-- Bits [hi:lo] of a dword as a number. -/
def bits (x : Dword) (hi lo : Nat) : Nat := x.toNat / 2 ^ lo % 2 ^ (hi + 1 - lo)

/-- The first entry of a vector table that satisfies a test, by its index. -/
def findIdx {α : Type} (l : List α) (p : α → Bool) : Option Nat :=
  match l with
  | [] => none
  | a :: t => if p a then some 0 else (findIdx t p).map (· + 1)

end Sys2Proof.Machine
end

