-- ==== Sys2Proof/Machine/Sha256.lean ====
section
/-! DEFINITION. SHA-256 (05 R95; 22 R389, R392; 09 R190). -/

namespace Sys2Proof.Machine

/-- No divisor but 1 and itself. -/
def isPrime (n : Nat) : Bool := decide (2 ≤ n) && (List.range n).all fun d => decide (d < 2) || n % d != 0

/-- The `k`-th root of `n`, rounded down, found from its bit `b - 1` downwards on top of `r`. -/
def rootFrom (k n : Nat) : Nat → Nat → Nat
  | 0, r => r
  | b + 1, r => rootFrom k n b (if (r + 2 ^ b) ^ k ≤ n then r + 2 ^ b else r)

/-- The first 32 bits of the fraction of the `k`-th root of each of the first so many primes. -/
def rootFractions (k count : Nat) : List (BitVec 32) :=
  (((List.range 312).filter isPrime).take count).map fun p => BitVec.ofNat 32 (rootFrom k (p * 2 ^ (32 * k)) 37 0)

/-- The constants of the 64 rounds come from cube roots, and the words that hashing starts from from square roots. -/
def shaK : List (BitVec 32) := rootFractions 3 64
def shaStart : List (BitVec 32) := rootFractions 2 8

/-- Word `i` of a list, 0 beyond it. -/
def wordAt (l : List (BitVec 32)) (i : Nat) : BitVec 32 := (l[i]?).getD 0

/-- The message schedule, newest word first, extended by so many words. -/
def shaSchedule : Nat → List (BitVec 32) → List (BitVec 32)
  | 0, w => w
  | n + 1, w =>
    let a := wordAt w 14
    let b := wordAt w 1
    let s0 := a.rotateRight 7 ^^^ a.rotateRight 18 ^^^ a >>> 3
    let s1 := b.rotateRight 17 ^^^ b.rotateRight 19 ^^^ b >>> 10
    shaSchedule n ((wordAt w 15 + s0 + wordAt w 6 + s1) :: w)

/-- One round on the eight working words. -/
def shaRound (v : List (BitVec 32)) (kw : BitVec 32 × BitVec 32) : List (BitVec 32) :=
  match v with
  | [a, b, c, d, e, f, g, h] =>
    let t1 := h + (e.rotateRight 6 ^^^ e.rotateRight 11 ^^^ e.rotateRight 25) + ((e &&& f) ^^^ (~~~e &&& g)) + kw.1 + kw.2
    let t2 := (a.rotateRight 2 ^^^ a.rotateRight 13 ^^^ a.rotateRight 22) + ((a &&& b) ^^^ (a &&& c) ^^^ (b &&& c))
    [t1 + t2, a, b, c, d + t1, e, f, g]
  | _ => v

/-- One block of 16 words. -/
def shaBlock (h w : List (BitVec 32)) : List (BitVec 32) :=
  let ws := (shaSchedule 48 w.reverse).reverse
  List.zipWith (· + ·) h ((shaK.zip ws).foldl shaRound h)

/-- A word from four bytes, the most significant first. -/
def beWord (l : List Byte) : BitVec 32 := BitVec.ofNat 32 (ofBytes (l.take 4).reverse)

/-- Blocks of 64 bytes, at most so many. -/
def shaBlocks : Nat → List Byte → List (BitVec 32) → List (BitVec 32)
  | 0, _, h => h
  | n + 1, l, h => shaBlocks n (l.drop 64) (shaBlock h ((List.range 16).map fun i => beWord (l.drop (4 * i))))

/-- The padded message. -/
def shaPad (m : List Byte) : List Byte :=
  m ++ [0x80] ++ List.replicate ((119 - m.length % 64) % 64) 0 ++ (toBytes 8 (8 * m.length)).reverse

/-- The 32 bytes of a digest number, the most significant first. -/
def digestBytes (d : BitVec 256) : List Byte := (toBytes 32 d.toNat).reverse

/-- SHA-256 of bytes. -/
def sha256 (m : List Byte) : BitVec 256 :=
  let p := shaPad m
  BitVec.ofNat 256 ((shaBlocks (p.length / 64) p shaStart).foldl (fun a w => a * 2 ^ 32 + w.toNat) 0)

end Sys2Proof.Machine
end

