-- ==== Sys2Proof/Config.lean ====
section
/-! DEFINITION. What the spec leaves open: free values, each an opaque constant of which nothing can be evaluated or proved. -/

namespace Sys2Proof.Config

/-- A byte of a spill carve that nothing has written since the firing started (02 R29 step 2), by the number of that start and
the byte's key. -/
opaque spillByte : Nat → Nat → Byte

/-- A byte of the weight region in the slice of a layer that is not RESIDENT (17 R323), by the count of instructions and the
byte's key. -/
opaque weightByte : Nat → Nat → Byte

/-- Does the check report an injected floating-point change at or below the threshold of 12 R275 (12 R277)? -/
opaque reportsSmallChange : Nat → Bool

/-- Does the read signature of a firing report a conflict with a line that the firing never read (07 R140)? By the count of
commits and the slot. -/
opaque falseConflict : Nat → Nat → Bool

/-- Which engine of its kind takes up a command (01 R12), by the count of instructions. -/
opaque engineOf : Nat → Nat

/-- The shelf slice that is the home of a line for atomics (01 R12), by the line's address: the spec does not derive it. -/
opaque sliceOf : Nat → Nat

/-- Requester code, slot byte and engine number of a fault record where the table of 20 R359 gives none, by fault number. -/
opaque faultCode : Nat → Byte
opaque faultSlot : Nat → Byte
opaque faultEngine : Nat → BitVec 16

/-- Bytes of the saved registers of one slot in a part of a snapshot section, whose layout is not architectural (23 R401). -/
opaque slotSaveBytes : Nat

/-- Body, SVN, public key and signature of the image in a firmware slot whose bytes have been written, or none (22 R387). The layout
of an image in a slot is not given (23 R412). -/
opaque firmwareParts : List (Nat × Byte) → Option (List Byte × BitVec 32 × List Byte × List Byte)

/-- The random bytes of a signature (22 R391), by the count of instructions. -/
opaque signRandom : Nat → BitVec 128

/-- The certificate chain that ends over an identity public key (22 R391). -/
opaque certificateChain : List Byte → List Byte

/-- What PLDM reports of die temperatures and rail currents (26 R434), by time. -/
opaque boardReadings : Nat → List Byte

/-- The measurement of the boot ROM, and the bytes of the fused configuration: vendor key hash, rollback count and spare-tile map
(22 R389). Their layout is not given. -/
opaque romDigest : BitVec 256
opaque fuseBytes : BitVec 256 → Nat → List Nat → List Byte

end Sys2Proof.Config
end

