-- ==== Sys2Proof/Machine/Order.lean ====
section
/-! DEFINITION. The memory model (07 R122 to R135, R149): physical addresses, observers and scopes, write events in coherence order,
what a read may return, and what an acquire takes over. -/

namespace Sys2Proof.Machine

/-! ### Physical addresses (20 R352) -/

/-- A physical address of the part's own HBM. -/
def paLocal (pa : Nat) : Bool := decide (pa / 2 ^ 50 = 0)
def paHost (pa : Nat) : Bool := decide (pa / 2 ^ 50 = 1)
def paPeer (pa : Nat) : Bool := decide (pa / 2 ^ 50 = 2)
/-- The package a peer address names. -/
def paPkg (pa : Nat) : Nat := pa / 2 ^ 40 % 256

/-- Does an address respect the zero bits of R352? -/
def paOk (pa : Nat) : Bool :=
  match pa / 2 ^ 50 with
  | 0 => decide (pa / 2 ^ 40 % 1024 = 0)
  | 1 => true
  | 2 => decide (pa / 2 ^ 48 % 4 = 0)
  | _ => false

/-! ### Observers (07 R122) -/

/-- The tile of a slot key. -/
def tileOf (k : Nat) : Nat := k / 8

/-- The units of the package that are no tile (20 R356): the strand engines, the flood engine, the collective engines, and the device's own
front end, loader and controller; then the host and the peer packages. -/
def strandUnit (e : Nat) : Nat := 2000 + e % 64
def floodUnit : Nat := 2100
def collUnit (e : Nat) : Nat := 2200 + e % 12
def deviceUnit : Nat := 2300
def hostUnit : Nat := 3000
def peerUnit (pkg : Nat) : Nat := 4000 + pkg

/-- Does an observer lie within a scope of a tile: 0 tile, 1 die, 2 package, 3 system? -/
def inScope (scope tile unit : Nat) : Bool :=
  match scope with
  | 0 => unit == tile
  | 1 => decide (unit < 1152) && unit / 144 == tile / 144
  | 2 => decide (unit < hostUnit)
  | _ => true

/-- The number of a tile's domain at a scope. -/
def domainOf (scope tile : Nat) : Nat := scope * 4096 + (match scope with | 0 => tile | 1 => tile / 144 | _ => 0)

/-! ### Write events -/

/-- Is the path to a peer package down (23 R408)? -/
def State.pathDown (s : State) (pkg : Nat) : Bool := s.dv.paths.any fun p => p.pkg == pkg && p.downSince.isSome

/-- A recorded write event. -/
def State.event (s : State) (n : Nat) : Option WriteEvent := s.mm.order.events.find? fun e => e.num == n

/-- Every recorded write event. -/
def State.allEvents (s : State) : List Nat := s.mm.order.events.map (·.num)

/-- The recorded write events of a unit. -/
def State.eventsOf (s : State) (unit : Nat) : List Nat := (s.mm.order.events.filter fun e => e.unit == unit).map (·.num)

/-- What a wait for a command takes over: what happened before its launch, and its writes so far (R144, R145). -/
def State.eventsBy (s : State) (c : Command) : List Nat :=
  c.seen ++ (s.mm.order.events.filter fun e => e.cmd == some (c.slot, c.tl, c.num)).map (·.num)

/-- Sets of events joined. -/
def joinEvents (a b : List Nat) : List Nat := b.foldl addNum a

/-- Those of a set that are still recorded. -/
def State.live (s : State) (l : List Nat) : List Nat := l.filter s.allEvents.contains

/-- Tile cycles of the 20 µs within which every reader sees a write (R149). -/
def visibleSpan : Nat := 54000

/-- May a read of an address still return what stood before an event, as far as time goes? While the path to a peer is down the bound is
suspended for its memory (R149). -/
def State.recent (s : State) (pa : Nat) (e : WriteEvent) : Bool :=
  decide (s.clock < e.time + visibleSpan) || (paPeer pa && s.pathDown (paPkg pa))

/-! ### What a read returns (07 R130, R133) -/

/-- Does an event come before what a read of some bytes may return: it happened before the read, an earlier acquire read from it, an
earlier read or atomic of the firing met it at one of the bytes and the access is marked `.co`, or it counts for an earlier FENCE.sc
(R135)? -/
def View.bound (v : View) (co : Bool) (bytes : List Nat) (e : WriteEvent) : Bool :=
  v.hb.contains e.num || v.floor.contains e.num || (co && v.metAt.any fun m => m.2 == e.num && bytes.contains m.1)
    || v.sc.any fun f => decide (e.num < f.2.2) && inScope f.1 f.2.1 e.unit

/-- Does an event write a whole aligned dword? -/
def State.wholeDword (s : State) (num dword : Nat) : Bool :=
  (List.range 8).all fun i => s.mm.order.olds.any fun o => o.num == num && o.pa == dword * 8 + i

/-- The bytes that a read sees of an event together with a byte, out of the bytes that the read itself takes together (R123). -/
def State.together (s : State) (e : WriteEvent) (piece : List Nat) (pa : Nat) : List Nat :=
  if e.grain = 0 then piece
  else if e.grain = 8 ∧ s.wholeDword e.num (pa / 8) then piece.filter fun a => a / 8 == pa / 8
  else [pa]

/-- Has a page moved to the frame of a byte since an event, so that no read of it returns anything older (20 R361)? -/
def State.movedSince (s : State) (o : Old) : Bool := s.mm.order.moved.any fun m => m.1 == o.pa / 65536 && decide (o.num < m.2)

/-- May a read that takes the bytes of a piece together pass over the write of an event to a byte of it? -/
def State.mayPass (s : State) (v : View) (co : Bool) (piece : List Nat) (o : Old) : Bool :=
  (s.event o.num).any fun e => s.recent o.pa e && !s.movedSince o && !v.bound co (s.together e piece o.pa) e

/-- Does this move pass over the write of an event to a byte (log 100)? -/
def State.lags (s : State) (piece : List Nat) (o : Old) : Bool :=
  (s.event o.num).any fun e => s.mm.order.lag.contains (o.num, (s.together e piece o.pa).headD o.pa)

/-- A byte below the writes that are passed over, and the event that wrote it, if it is recorded. -/
def oldByte (p : Old → Bool) (pa : Nat) (now : Byte) : List Old → Byte × Option Nat
  | [] => (now, none)
  | o :: t => if o.pa = pa then (if p o then oldByte p pa o.was t else (now, some o.num)) else oldByte p pa now t

/-- A byte of global memory as a reader sees it that takes the bytes of a piece together: the newest, but for writes that this move passes
over (log 100). -/
def State.seenByte (s : State) (v : View) (co : Bool) (piece : List Nat) (pa : Nat) : Byte × Option Nat :=
  oldByte (fun o => s.lags piece o && s.mayPass v co piece o) pa (s.mm.mem.byte pa) s.mm.order.olds

/-- Are some consecutive bytes one naturally aligned access of up to 8 (R123)? -/
def wholeAccess (pas : List Nat) : Bool :=
  match pas with
  | [] => true
  | a :: _ => [1, 2, 4, 8].contains pas.length && a % pas.length == 0

/-- The event that wrote the newest value of a byte. -/
def State.newest (s : State) (pa : Nat) : Option Nat := (s.mm.order.olds.find? fun o => o.pa == pa).map (·.num)

/-- The events that wrote the newest values of some bytes. -/
def State.newestOf (s : State) (pas : List Nat) : List Nat := (pas.filterMap s.newest).foldl addNum []

/-! ### What an acquire takes over (07 R131, R132, R134) -/

/-- What an acquire on a tile that reads from an event takes over. -/
def WriteEvent.given (e : WriteEvent) (tile : Nat) : List Nat :=
  e.rel ++ (e.fences.filter fun f => inScope f.1 f.2.1 tile).flatMap (·.2.2)

/-- Events taken over. -/
def View.gain (v : View) (l : List Nat) : View := { v with hb := joinEvents v.hb l }

/-- A read or an atomic has met events, each at a byte. -/
def View.meet (v : View) (l : List (Nat × Nat)) : View :=
  { v with met := joinEvents v.met (l.map (·.2)), metAt := l.foldl (fun a x => if a.contains x then a else x :: a) v.metAt }

/-- An acquire on a tile has read from events. -/
def State.acquire (s : State) (tile : Nat) (v : View) (l : List Nat) : View :=
  l.foldl (fun v n =>
    match s.event n with
    | some e => { v.gain (e.given tile) with floor := addNum v.floor n }
    | none => v) v

/-- The same for those events only whose writers lie within the scope of a fence of the tile (R134, R135). -/
def State.acquireWithin (s : State) (scope tile : Nat) (v : View) (l : List Nat) : View :=
  s.acquire tile v (l.filter fun n => (s.event n).any fun e => inScope scope tile e.unit)

/-- Events with all that happened before them. -/
def State.closure (s : State) (l : List Nat) : List Nat :=
  l.foldl (fun a n => match s.event n with | some e => joinEvents (addNum a n) e.before | none => a) []

/-! ### Writing (07 R124, R126) -/

/-- Who writes: cove tag and generation (20 R366), the unit, what happened before, what the write hands on of the one that it follows,
whether it is a release (R131), the release fences before it (R135), the command that writes (R144), whether it is an atomic, what no
observer sees of it in part (R123), and the frames that it reaches by leaves whose lines the shelf does not cache (20 R354). -/
structure Writer where
  tag : Nat
  gen : Nat
  unit : Nat
  before : List Nat := []
  rel : List Nat := []
  release : Bool := false
  fences : List (Nat × Nat × List Nat) := []
  cmd : Option (Nat × Nat × Nat) := none
  atomic : Bool := false
  grain : Nat := 0
  direct : List Nat := []

/-- The event of a write. -/
def Writer.event (w : Writer) (num time : Nat) : WriteEvent :=
  { num := num, cmd := w.cmd, time := time, unit := w.unit, before := w.before, atomic := w.atomic, grain := w.grain,
    rel := if w.release then addNum (joinEvents w.before w.rel) num else w.rel, fences := w.fences.map fun f => (f.1, f.2.1, addNum f.2.2 num) }

/-- The past of memory, split behind the last of the leading writes to a dword that a test takes. -/
def splitOlds (p : Old → Bool) (dword : Nat) : List Old → List Old × List Old
  | [] => ([], [])
  | o :: t =>
    if o.pa / 8 = dword ∧ !p o then ([], o :: t)
    else
      let r := splitOlds p dword t
      if r.1.isEmpty ∧ o.pa / 8 ≠ dword then ([], o :: t) else (o :: r.1, r.2)

/-- A value put below the last write to a byte of a list, with the value that stood there. -/
def putBelow (pa : Nat) (v : Byte) : List Old → Option (List Old × Byte)
  | [] => none
  | o :: t =>
    match putBelow pa v t with
    | some (l, w) => some (o :: l, w)
    | none => if o.pa = pa then some ({ o with was := v } :: t, o.was) else none

/-- The longest beginning of a list that a test takes, and the rest. -/
def longestBeginning (ok : List Old → Bool) (l : List Old) : List Old × List Old :=
  let n := ((List.range (l.length + 1)).reverse.find? fun n => ok (l.take n)).getD 0
  (l.take n, l.drop n)

/-- May a write to some bytes stand directly beneath the last of some writes to a dword: that is no atomic, which has read what precedes its
own write (R130 rule 3)? -/
def State.fitsBeneath (s : State) (pas : List Nat) (dword : Nat) (l : List Old) : Bool :=
  (pas.filter fun a => a / 8 == dword).all fun a =>
    !((l.reverse.find? fun o => o.pa == a).bind fun o => s.event o.num).any (·.atomic)

/-- A byte written by an event: the newest, but beneath the writes to its dword that the test takes, where it may stand there (R124). -/
def writeByte (p : Old → Bool) (fits : Nat → List Old → Bool) (num : Nat) (m : Memory × List Old) (w : Nat × Byte) : Memory × List Old :=
  let r0 := splitOlds p (w.1 / 8) m.2
  let cut := longestBeginning (fits (w.1 / 8)) r0.1
  let r := (cut.1, cut.2 ++ r0.2)
  match putBelow w.1 w.2 r.1 with
  | some (l, was) => (m.1, l ++ { pa := w.1, num := num, was := was } :: r.2)
  | none => (m.1.put w.1 w.2, r.1 ++ { pa := w.1, num := num, was := m.1.byte w.1 } :: r.2)

/-- Bytes written by one event. -/
def State.writeEvent (s : State) (w : Writer) (p : Old → Bool) (ws : List (Nat × Byte)) : State :=
  if ws.isEmpty then s
  else
    let o := s.mm.order
    let r := ws.foldl (writeByte p (s.fitsBeneath (ws.map (·.1))) o.next) (s.mm.mem, o.olds)
    { s with mm.mem := r.1, mm.order := { o with events := w.event o.next s.clock :: o.events, olds := r.2, next := o.next + 1 } }

/-- What a write that follows others takes over from them: an atomic hands on the releases at the head of its chain (R132). -/
def State.handed (s : State) (l : List Nat) : List Nat × List (Nat × Nat × List Nat) :=
  l.foldl (fun a n => match s.event n with | some e => (joinEvents a.1 e.rel, a.2 ++ e.fences) | none => a) ([], [])

/-! ### Forgetting (07 R149) -/

/-- The past without what no read can reach any more: from the first stale write to a byte on. -/
def keepOlds (stale : Old → Bool) : List Nat → List Old → List Old
  | _, [] => []
  | gone, o :: t =>
    if gone.contains o.pa then keepOlds stale gone t
    else if stale o then keepOlds stale (o.pa :: gone) t
    else o :: keepOlds stale gone t

/-- Writes that every reader sees are forgotten, with the events that no byte refers to any more. -/
def State.forget (s : State) : State :=
  let o := s.mm.order
  let olds := keepOlds (fun x => !(s.event x.num).any (s.recent x.pa)) [] o.olds
  let events := o.events.filter fun e => olds.any fun x => x.num == e.num
  { s with mm.order := { o with olds := olds, events := events, fresh := o.fresh.filter fun x => events.any fun e => decide (e.num < x.2.2.2),
                                moved := o.moved.filter fun x => events.any fun e => decide (e.num < x.2) } }

end Sys2Proof.Machine
end

