-- ==== Sys2Proof/Machine/Translate.lean ====
section
/-! DEFINITION. Accessors of the state, translation (20 R352 to R356), tile addresses (03 R57, R58; 08 R160), and the bytes that
a firing reads and buffers (07 R125; 08 R151 to R153). -/

namespace Sys2Proof.Machine

/-! ### Accessors -/

def State.tile (s : State) (t : Nat) : Tile := (s.tiles.find t).getD Tile.zero
def State.setTile (s : State) (t : Nat) (x : Tile) : State := { s with tiles := s.tiles.put t x }
def State.slot (s : State) (k : Nat) : Option Slot := s.slots.find k
def State.setSlot (s : State) (k : Nat) (x : Slot) : State := { s with slots := s.slots.put k x }
def State.updSlot (s : State) (k : Nat) (f : Slot → Slot) : State := { s with slots := s.slots.upd k f }
def State.arc (s : State) (n : Nat) : Option Arc := s.arcs.find n
def State.setArc (s : State) (n : Nat) (x : Arc) : State := { s with arcs := s.arcs.put n x }
def State.updArc (s : State) (n : Nat) (f : Arc → Arc) : State := { s with arcs := s.arcs.upd n f }
def State.ctx (s : State) (n : Nat) : Ctx := (s.al.ctxs.find n).getD Ctx.zero
def State.setCtx (s : State) (n : Nat) (x : Ctx) : State := { s with al.ctxs := s.al.ctxs.put n x }
def State.cfg (s : State) (n : Nat) : Option Configuration := s.al.cfgs.find n
def State.updCfg (s : State) (n : Nat) (f : Configuration → Configuration) : State :=
  { s with al.cfgs := s.al.cfgs.upd n f }
def State.queue (s : State) (q : Nat) : Queue := (s.fe.queues.find q).getD Queue.zero
def State.setQueue (s : State) (q : Nat) (x : Queue) : State := { s with fe.queues := s.fe.queues.put q x }
def State.barrier (s : State) (k : Nat) : Barrier := (s.en.barriers.find k).getD Barrier.zero
def State.setBarrier (s : State) (k : Nat) (x : Barrier) : State := { s with en.barriers := s.en.barriers.put k x }
def State.tide (s : State) (k : Nat) : Tide := (s.en.tides.find k).getD Tide.zero
def State.setTide (s : State) (k : Nat) (x : Tide) : State := { s with en.tides := s.en.tides.put k x }
def State.group (s : State) (g : Nat) : Group := (s.en.groups.find g).getD Group.zero
def State.setGroup (s : State) (g : Nat) (x : Group) : State := { s with en.groups := s.en.groups.put g x }
def State.command (s : State) (n : Nat) : Option Command := s.en.commands.find n
def State.setCommand (s : State) (n : Nat) (x : Command) : State := { s with en.commands := s.en.commands.put n x }
def State.region (s : State) (n : Nat) : Option Region := s.en.regions.find n
def State.setRegion (s : State) (n : Nat) (x : Region) : State := { s with en.regions := s.en.regions.put n x }

/-- Something becomes visible outside. -/
def State.emit (s : State) (e : Emission) : State := { s with outbox := e :: s.outbox }

/-- A row takes place next, or after what is already due. -/
def State.soon (s : State) (d : DueRow) : State := { s with agenda := .due d :: s.agenda }
def State.later (s : State) (d : DueRow) : State := { s with agenda := s.agenda ++ [.due d] }

/-- Device time in ns: tile cycles of 10/27 ns (01 R12). -/
def State.ns (s : State) : Nat := s.clock * 10 / 27

/-- A span in ns as tile cycles, rounded up. -/
def nsCycles (n : Nat) : Nat := (n * 27 + 9) / 10

/-! ### Homes (20 R365, R366) -/

/-- The homes of R365: 128 shelf slices, 16 memory controllers, the endpoint, the Causeway ports, the engines. A write meets
the memory controller of its stack, the endpoint, or the Causeway port of its peer. -/
def homeOf (pa : Nat) : Nat :=
  if paLocal pa then 128 + pa / 2 ^ 36 % 16 else if paHost pa then 144 else 145 + paPkg pa % 12

/-- Does a home perform a write of this tag and generation (20 R366)? -/
def State.homeTakes (s : State) (pa tag gen : Nat) : Bool :=
  decide ((s.mm.homeGen.find (homeOf pa * 4096 + tag)).getD 0 = gen)

/-! ### Translation (20 R353 to R356) -/

/-- Why a translation fails: reasons 1 and 2 are page faults, 3 and 4 the protections 1 and 2 (20 R355); or the host's agent has to
be asked (20 R360). -/
inductive XlErr where
  | noMap | malformed | cove | readOnly | agent
deriving DecidableEq, Repr

/-- A translation: address, leaf and level. -/
structure Xl where
  pa : Nat
  leaf : Dword
  level : Nat
deriving DecidableEq, Repr

/-- The entry at a physical address. -/
def State.entry (s : State) (pa : Nat) : Dword := BitVec.ofNat 64 (ofBytes (s.mm.mem.bytes pa 8))

/-- What a walk for an address of a context may not pass over: the writes before the last invalidation that covered the address
(20 R358). -/
def State.walkView (s : State) (ctx va : Nat) : View :=
  { sc := (s.mm.order.fresh.filter fun x => x.1 == ctx && decide (x.2.1 ≤ va / 65536 ∧ va / 65536 < x.2.1 + 2 ^ x.2.2.1)).map fun x =>
      (3, 0, x.2.2.2) }

/-- The entry at a physical address as a walk reads it: a relaxed read at system scope (20 R354). -/
def State.entrySeen (s : State) (v : View) (pa : Nat) : Dword :=
  if s.mm.order.lag.isEmpty then s.entry pa
  else
    let piece := (List.range 8).map (pa + ·)
    BitVec.ofNat 64 (ofBytes (piece.map fun a => (s.seenByte v false piece a).1))

/-- VA bits that index a level (20 R353). -/
def vaIndex (lvl va : Nat) : Nat :=
  match lvl with
  | 1 => va / 2 ^ 52 % 256
  | 2 => va / 2 ^ 40 % 4096
  | 3 => va / 2 ^ 28 % 4096
  | _ => va / 2 ^ 16 % 4096

/-- The bytes that a leaf of a level maps. -/
def leafSize (lvl : Nat) : Nat := if lvl = 2 then 2 ^ 40 else if lvl = 3 then 2 ^ 28 else 2 ^ 16

/-- A malformed entry (20 R352, R354, R355). -/
def badEntry (lvl : Nat) (e : Dword) : Bool :=
  if e.getLsbD 1 then
    lvl == 1 || bits e 15 5 != 0 || !paOk (bits e 51 16 * 65536) || (lvl == 3 && bits e 27 16 != 0)
      || (lvl == 2 && bits e 39 16 != 0) || (e.getLsbD 4 && bits e 51 50 != 1)
  else
    lvl == 4 || bits e 63 52 != 0 || bits e 14 2 != 0 || bits e 51 40 != 0

/-- A leaf checked for a cove and a kind of access, and the address it gives. -/
def useLeaf (tag : Nat) (write : Bool) (va lvl : Nat) (e : Dword) : Except XlErr Xl :=
  if bits e 63 52 != tag then .error .cove
  else if write && !e.getLsbD 2 then .error .readOnly
  else .ok { pa := bits e 51 16 * 65536 + va % leafSize lvl, leaf := e, level := lvl }

/-- The levels of R355 from a table; the fuel is the number of levels left. A poisoned entry is malformed (23 R397). -/
def State.walkFrom (s : State) (v : View) (tag : Nat) (write : Bool) (va : Nat) : Nat → Nat → Nat → Except XlErr Xl
  | 0, _, _ => .error .malformed
  | fuel + 1, lvl, t =>
    let a := t + 8 * vaIndex lvl va
    let e := s.entrySeen v a
    if s.mm.poison.contains (a / 64) then .error .malformed
    else if !e.getLsbD 0 then .error .noMap
    else if badEntry lvl e then .error .malformed
    else if e.getLsbD 1 then useLeaf tag write va lvl e
    else s.walkFrom v tag write va fuel (lvl + 1) (bits e 51 15 * 32768)

/-- R355 by the tables alone. -/
def State.walk (s : State) (ctx va : Nat) (write : Bool) : Except XlErr Xl :=
  s.walkFrom (s.walkView ctx va) (s.ctx ctx).tag write va 4 1 ((s.ctx ctx).root * 32768)

/-- The machine with a unit in focus: what it translates goes through that unit's TLB. -/
def State.at (s : State) (unit : Nat) : State := { s with focus := unit }

/-- An entry of the TLB of the unit in focus that covers an address for a context, of the cove's current generation (20 R356). -/
def State.tlbHit (s : State) (ctx va : Nat) : Option TlbEntry :=
  s.mm.tlb.find? fun t => t.unit == s.focus && t.ctx == ctx && t.tag == (s.ctx ctx).tag && t.gen == (s.ctx ctx).gen
    && t.vpg * 65536 / leafSize t.level == va / leafSize t.level

/-- Translation by the context's tables: by a TLB entry while one stands, else by a walk. -/
def State.translateLeaf (s : State) (ctx va : Nat) (write : Bool) : Except XlErr Xl :=
  match s.tlbHit ctx va with
  | some t => useLeaf t.tag write va t.level t.leaf
  | none => s.walk ctx va write

/-- Through a leaf with AT = 1 the address is one of the host bus, which the host's translation agent translates; the endpoint has
cached its answer, or asks it by a page request (20 R354, R360). -/
def State.hostTranslate (s : State) (t : Xl) : Except XlErr Xl :=
  if t.leaf.getLsbD 4 then
    match s.mm.ats.find (t.pa / 65536) with
    | some frame => .ok { t with pa := frame * 65536 + t.pa % 65536 }
    | none => .error .agent
  else .ok t

/-- Translation for a context. -/
def State.translate (s : State) (ctx va : Nat) (write : Bool) : Except XlErr Xl :=
  match s.translateLeaf ctx va write with
  | .ok t => s.hostTranslate t
  | .error e => .error e

/-! ### Stops of an instruction -/

/-- Why an instruction does not complete: a trap, a page fault at an address with its reason, or a wait. -/
inductive Stop where
  | trap (t : TrapInfo)
  | page (va reason : Nat) (write : Bool)
  | wait (w : Wait)
deriving DecidableEq, Repr

/-- A trap with information only. -/
def trapInfo (code info : Nat) : Stop := .trap { code := code, info := BitVec.ofNat 64 info }

/-- A trap with information and further information. -/
def trapAux (code info aux : Nat) : Stop :=
  .trap { code := code, info := BitVec.ofNat 64 info, aux := BitVec.ofNat 64 aux }

/-- A failed translation at a tile (20 R355). -/
def xlStop (va : Nat) (write : Bool) : XlErr → Stop
  | .noMap => .page va 1 write
  | .malformed => .page va 2 write
  | .agent => .page va 0 write
  | .cove => trapAux 0x0A va 1
  | .readOnly => trapAux 0x0A va 2

/-! ### Where a byte of an access lies -/

/-- A byte of global memory, with the 64 KiB page by which it was reached, or a byte of a slot's carve. -/
inductive Loc where
  | glob (pa page : Nat)
  | carve (slot a : Nat)
deriving DecidableEq, Repr

/-- The physical address of an access: by the translation that an earlier store of the firing used, so that the firing meets its own
stores (07 R125; its invalidation has not completed, 20 R358), else by R355. -/
def State.pageAddr (s : State) (xl : Tab Nat) (ctx va : Nat) (write : Bool) : Except XlErr Nat :=
  match xl.find (va / 65536) with
  | some frame => .ok (frame * 65536 + va % 65536)
  | none => (s.translate ctx va write).map (·.pa)

/-- The bytes of a global access of `n` bytes at `va` (08 R151), and the address a fault names. Each page is translated once; `xl`
holds the translations of the firing's buffered stores. -/
def State.globalLocs (s : State) (xl : Tab Nat) (ctx ea n : Nat) (write : Bool) : Except Stop (List Loc) := do
  if 2 ^ 60 ≤ ea then throw (trapInfo 0x09 ea)
  match s.pageAddr xl ctx ea write with
  | .error e => throw (xlStop ea write e)
  | .ok pa =>
    if ea % 65536 + n ≤ 65536 then return (List.range n).map fun i => .glob (pa + i) (ea / 65536)
    else
      let va2 := (ea / 65536 + 1) * 65536
      if 2 ^ 60 ≤ va2 then throw (trapInfo 0x09 ea)
      match s.pageAddr xl ctx va2 write with
      | .error e => throw (xlStop va2 write e)
      | .ok pa2 => return (List.range n).map fun i =>
          if ea + i < va2 then .glob (pa + i) (ea / 65536) else .glob (pa2 + (ea + i - va2)) (va2 / 65536)

/-- The bytes of a tile access of `n` bytes at local address `a` of a slot (03 R57, R58), with the SPOV its firing sees. -/
def State.tileLocs (s : State) (xl : Tab Nat) (k : Nat) (sl : Slot) (spov : Dword) (a n : Nat) (write : Bool) : Except Stop (List Loc) := do
  if 2 ^ 22 ≤ a then throw (trapInfo 0x09 a)
  let lim := sl.pl.lim * 64
  if a < lim ∧ lim < a + n then throw (trapInfo 0x09 a)
  if lim ≤ a then
    let off := a - lim
    if bits spov 6 0 * 65536 < off + n then throw (trapInfo 0x18 a)
    s.globalLocs xl sl.pl.ctx (bits spov 59 16 * 65536 + off) n write
  else if write ∧ a < sl.pl.stb * 64 then throw (trapInfo 0x0A a)
  else return (List.range n).map fun i => .carve k (a + i)

/-! ### Bytes of a carve -/

/-- The key of a byte of a carve. -/
def carveKey (k a : Nat) : Nat := k * 4194304 + a

/-- The declared rate of a port (02 R23); outputs count from 16. -/
def Actor.rate (a : Actor) (rset phase port : Nat) : Nat := (a.rates.find ((rset * 16 + phase) * 32 + port)).getD 0

/-- The period of a slot's rate set. -/
def Slot.period (sl : Slot) : Nat := max 1 ((sl.pl.actor.period.toList[sl.rset]?).getD 1)

/-- The clone set that holds a slot, while any clone exists (16 R312). -/
def State.cloneSet (s : State) (k : Nat) : Option CloneSet :=
  ((s.slot k).bind fun sl => s.cfg sl.pl.cfg).bind fun c =>
    c.cloneSets.find? fun x => !x.copies.isEmpty && (x.original == k || x.copies.contains k)

/-- The copy that runs the firing with a stamp (16 R312). -/
def CloneSet.route (c : CloneSet) (st : Nat) : Nat :=
  match c.splits.find? fun p => decide (p.1 ≤ st) with
  | some p => (p.2.2[(st - p.1) % p.2.2.length]?).getD c.original
  | none => c.original

/-- The key of byte `j` of token number `n` in the window of an arc. -/
def Arc.tokKey (x : Arc) (k n j : Nat) : Nat := carveKey k (x.base + n % x.window * x.size + j)

/-- The copies whose firings consume the next tokens of a port of an instance, token by token, as far as its rates name any. -/
def State.tokenCopies (s : State) (cs : CloneSet) (port n : Nat) : List Nat :=
  (s.slot cs.original).elim [] fun own =>
    ((List.range (n * own.period)).flatMap fun i =>
      List.replicate (own.pl.actor.rate own.rset ((own.phase + i) % own.period) port) (cs.route (own.stamp.toNat + i))).take n

/-- Where the token lies that stands `d` places behind rp of an arc to an instance with clones: the copy whose firing consumes it, and its
number among the tokens of that copy; tokens that no firing is to consume lie with the original (16 R312; log 111). -/
def State.lane (s : State) (cs : CloneSet) (x : Arc) (d : Nat) : Nat × Nat :=
  let l := s.tokenCopies cs (x.consumer.elim 0 (·.2)) (d + 1)
  let k := (l[d]?).getD cs.original
  (k, cnt ((x.lanes.find k).getD 0 + (l.take d).countP (· == k) + (d - l.length)))

/-- The slot in whose window token number `n` of an arc to slot `k` lies, and its number there: that of the copy that consumes it, or the
slot itself. -/
def State.tokPlace (s : State) (x : Arc) (k n : Nat) : Nat × Nat :=
  match s.cloneSet k with
  | none => (k, n)
  | some cs => s.lane cs x (cntSub n x.rp)

/-- The key of byte `j` of token number `n` of an arc to slot `k`. -/
def State.tokKey (s : State) (x : Arc) (k n j : Nat) : Nat :=
  x.tokKey (s.tokPlace x k n).1 (s.tokPlace x k n).2 j

/-- Tokens behind rp that the windows of an arc's consumer hold: W, and with clones as many as find room in the windows of the copies that
consume them (02 R24, 16 R312). -/
def State.windowRoom (s : State) (x : Arc) : Nat :=
  match if x.merge.isSome then none else x.consumer.bind fun c => s.cloneSet c.1 with
  | none => x.window
  | some cs =>
    let l := s.tokenCopies cs (x.consumer.elim 0 (·.2)) (x.window * (cs.copies.length + 1) + 1)
    if l.isEmpty then x.window
    else ((List.range l.length).find? fun i => decide (x.window < (l.take (i + 1)).countP (· == l.getD i 0))).getD l.length

/-- The SRAM key of a window byte that lies in a published, unconsumed token, and whether that token is poisoned; none for
every other window byte (06 R114). The window of an arc lies in the carve of its consumer. -/
def State.windowKey (s : State) (k : Nat) (sl : Slot) (a : Nat) : Option (Nat × Bool) :=
  (List.range 16).findSome? fun p =>
    match (sl.pl.inArc[p]?).join.bind s.arc with
    | some x =>
      if x.base ≤ a ∧ a < x.base + x.window * x.size then
        let j := (a - x.base) % x.size
        let here := carveKey k a
        match x.consumer, (List.range (cntSub x.wpSeen x.rp)).find? fun i => s.tokKey x (x.consumer.elim 0 (·.1)) (cnt (x.rp + i)) j == here with
        | some _, some i => some (here, x.poisoned.contains (cnt (x.rp + i)))
        | _, _ => none
      else none
    | none => none

/-- Does a weight byte lie in the slice of a layer that is not RESIDENT (17 R323)? A firing that started with the layer RESIDENT reads
the weights that were flooded until it ends, whatever becomes of the layer (12 R262, 17 R324). -/
def State.weightOpen (s : State) (sl : Slot) (a : Nat) : Bool :=
  sl.layers.any fun p =>
    decide (sl.pl.wtb * 64 + p.off ≤ a ∧ a < sl.pl.wtb * 64 + p.off + p.len)
      && decide ((s.tide (sl.pl.ctx * 1024 + p.layer)).state ≠ .resident) && sl.firing.all (·.unflooded.contains p.layer)

/-- A byte of a slot's carve as it stands: a window byte as R114 gives, a weight byte as R323 gives, a spill byte as R29. -/
def State.carveByte (s : State) (k a : Nat) : Byte :=
  match s.slot k with
  | none => 0
  | some sl =>
    if a < sl.pl.wtb * 64 then (s.windowKey k sl a).elim 0 fun q => s.mm.sram.byte q.1
    else if a < sl.pl.stb * 64 then
      if s.weightOpen sl a then Config.weightByte s.freeCtr (carveKey k a) else s.mm.sram.byte (carveKey k a)
    else if a < sl.pl.spb * 64 then s.mm.sram.byte (carveKey k a)
    else (sl.spill.find a).getD (Config.spillByte sl.spillId (carveKey k a))

/-- Is a byte of a carve poisoned (23 R398)? -/
def State.carvePoison (s : State) (k a : Nat) : Bool :=
  match s.slot k with
  | none => false
  | some sl =>
    if a < sl.pl.wtb * 64 then (s.windowKey k sl a).any (·.2)
    else if a < sl.pl.spb * 64 then s.mm.poisonSram.contains (carveKey k a / 64)
    else sl.spillBad.contains (a / 64)

/-! ### What a firing reads and buffers -/

/-- Nothing buffered. -/
def Buffers.empty : Buffers :=
  { gbuf := [], sbuf := [], lines := [], xlated := [], emitted := [], entries := [], deferredOps := [], flgaClear := 0,
    cumulative := false, released := [] }

/-- A byte of the newest value as a reader with its own stores sees it: its own latest store first (07 R125). -/
def State.readLoc (s : State) (b : Buffers) : Loc → Byte
  | .glob pa _ => (b.gbuf.find pa).getD (s.mm.mem.byte pa)
  | .carve k a => (b.sbuf.find (carveKey k a)).getD (s.carveByte k a)

/-- Does the read of a byte meet poison (23 R398)? -/
def State.poisonLoc (s : State) (b : Buffers) : Loc → Bool
  | .glob pa _ => (b.gbuf.find pa).isNone && s.mm.poison.contains (pa / 64)
  | .carve k a => (b.sbuf.find (carveKey k a)).isNone && s.carvePoison k a

/-- A tainted firing: the mark, and CHKI.PSN as the firing sees it (23 R398). -/
def Firing.taint (f : Firing) : Firing :=
  { f with tainted := true, r.sys.chki := f.r.sys.chki ||| 1 }

/-- The address of a byte of global memory. -/
def Loc.pa : Loc → Option Nat
  | .glob pa _ => some pa
  | .carve _ _ => none

/-- The bytes of an access that is single-copy atomic (07 R123), each with all of them. -/
def Loc.piece (ls : List Loc) : List (List Nat × Loc) := ls.map fun l => (ls.filterMap Loc.pa, l)

/-- The bytes of a scalar access: single-copy atomic where it is naturally aligned, else each by itself (07 R123). -/
def Loc.scalar (ls : List Loc) : List (List Nat × Loc) :=
  if wholeAccess (ls.filterMap Loc.pa) then Loc.piece ls else ls.map fun l => (l.pa.toList, l)

/-- A byte as a firing reads it together with others, with the write event that it returns (07 R125, R130); `co` marks an access with that
hint. -/
def State.readSeen (s : State) (f : Firing) (co : Bool) (x : List Nat × Loc) : Byte × Option Nat :=
  match x.2 with
  | .glob pa _ =>
    match f.b.gbuf.find pa with
    | some v => (v, none)
    | none => s.seenByte f.view co x.1 pa
  | .carve k a => ((f.b.sbuf.find (carveKey k a)).getD (s.carveByte k a), none)

/-- The write events that a read returns, each with the byte. -/
def State.readEvents (s : State) (f : Firing) (co : Bool) (xs : List (List Nat × Loc)) : List (Nat × Nat) :=
  xs.filterMap fun x => x.2.pa.bind fun pa => (s.readSeen f co x).2.map fun e => (pa, e)

/-- A firing after a read: the poison that it met (23 R398), and the write events that it returned; an acquire takes over what they
release (07 R132). -/
def State.afterRead (s : State) (f : Firing) (co acq : Bool) (xs : List (List Nat × Loc)) : Firing :=
  let es := s.readEvents f co xs
  let f1 := if xs.any fun x => s.poisonLoc f.b x.2 then f.taint else f
  { f1 with view := if acq then s.acquire s.focus (f.view.meet es) (es.map (·.2)) else f.view.meet es }

/-- The bytes of a read, and the firing after it. -/
def State.readOrd (s : State) (f : Firing) (co acq : Bool) (xs : List (List Nat × Loc)) : List Byte × Firing :=
  (xs.map fun x => (s.readSeen f co x).1, s.afterRead f co acq xs)

/-- The bytes of a relaxed read without a hint that has no order among its bytes (07 R123), and the firing after it. -/
def State.readLocs (s : State) (f : Firing) (ls : List Loc) : List Byte × Firing :=
  s.readOrd f false false (ls.map fun l => (l.pa.toList, l))

/-- The line a byte counts for (08 R153): global lines below 2^60, SRAM lines from 2^60 up; none for the spill carve. -/
def lineOf : Loc → Nat
  | .glob pa _ => pa / 64
  | .carve k a => 2 ^ 60 + carveKey k a / 64

/-- Is a byte of the running slot's own spill carve, which is written at once (03 R58)? -/
def isSpill (sl : Slot) (k : Nat) : Loc → Bool
  | .carve j a => j == k && decide (sl.pl.spb * 64 ≤ a)
  | .glob _ _ => false

/-- One byte buffered. -/
def Buffers.store (b : Buffers) (l : Loc) (v : Byte) : Buffers :=
  match l with
  | .glob pa page => { b with gbuf := b.gbuf.put pa v, lines := addNum b.lines (lineOf l), xlated := b.xlated.put page (pa / 65536) }
  | .carve k a => { b with sbuf := b.sbuf.put (carveKey k a) v, lines := addNum b.lines (lineOf l) }

/-- Bytes buffered in order. -/
def Buffers.storeAll (b : Buffers) : List (Loc × Byte) → Buffers
  | [] => b
  | (l, v) :: t => Buffers.storeAll (b.store l v) t

/-- The footprint limit of 02 R31. -/
def footLimit (sl : Slot) : Nat := min 262144 sl.pl.actor.foot

/-- Is an injection armed at a site on a tile (23 R410)? -/
def State.armedAt (s : State) (site tile : Nat) : Bool :=
  s.dv.errInj.getLsbD 63 && bits s.dv.errInj 31 28 == site && bits s.dv.errInj 10 0 == tile

/-- Tile SRAM is written at some keys: an armed injection at site 5 or 6 on a line of them strikes the slot (23 R410). -/
def State.noteSram (s : State) (keys : List Nat) : State :=
  if s.dv.errInj.getLsbD 63 then
    let line := s.dv.errAdr.toNat / 64
    match keys.find? fun a => (s.armedAt 5 (a / 4194304 / 8) || s.armedAt 6 (a / 4194304 / 8)) && a % 4194304 / 64 == line with
    | some a => { s with dv.hit := some (a / 4194304) }
    | none => s
  else s

/-- The tag of ring windows is written with their tokens: an armed injection at site 9 strikes it (20 R364, 23 R410). -/
def State.noteTags (s : State) (k : Nat) : State := if s.armedAt 9 (k / 8) then { s with dv.hit := some k } else s

/-- Does a list of written bytes cover a whole 64-byte line? -/
def coversLine (ws : List (Nat × Byte)) (line : Nat) : Bool :=
  (List.range 64).all fun i => ws.any fun w => w.1 == line * 64 + i

/-- Poison after writes (23 R398): a tainted writer poisons every line it writes, a clean one clears a line it covers. -/
def poisonAfter (p : List Nat) (ws : List (Nat × Byte)) (taint : Bool) : List Nat :=
  if taint then ws.foldl (fun p w => addNum p (w.1 / 64)) p
  else p.filter fun l => !coversLine ws l

/-- Bytes written into the spill carve of a slot by local address. -/
def Slot.spillWrite (sl : Slot) (taint : Bool) (ws : List (Nat × Byte)) : Slot :=
  { sl with spill := ws.foldl (fun t w => t.put w.1 w.2) sl.spill, spillBad := poisonAfter sl.spillBad ws taint }

/-- Stores of one instruction: spill bytes go to the carve at once, the others into the buffer. The store whose first byte
would take the footprint over the limit traps 0x07 (02 R31, 08 R153); `ea` is the address that its record names. -/
def bufferStores (sl : Slot) (k : Nat) (f : Firing) (ea : Nat) (ws : List (Loc × Byte)) : Except Stop (Slot × Firing) :=
  let sp := ws.filter fun w => isSpill sl k w.1
  let bf := ws.filter fun w => !isSpill sl k w.1
  let b := f.b.storeAll bf
  if footLimit sl < b.lines.length * 64 ∧ f.b.lines.length < b.lines.length then
    .error (.trap { code := 0x07, decl := BitVec.ofNat 64 (footLimit sl), act := BitVec.ofNat 64 (b.lines.length * 64),
                    info := BitVec.ofNat 64 ea })
  else
    .ok (sl.spillWrite f.tainted (sp.filterMap fun w => match w.1 with | .carve _ a => some (a, w.2) | .glob _ _ => none),
         { f with b := b })

end Sys2Proof.Machine
end

