-- ==== Sys2Proof/Machine/Log.lean ====
section
/-! DEFINITION. Writes at the homes (20 R361, R366; 23 R398), events, and the order log with its forcing (09 R187 to R193, R435). -/

namespace Sys2Proof.Machine

/-! ### Writes at the homes -/

/-- Writes with those that open splices add at the new frames (20 R361). -/
def mirrored (sp : List (Nat × Nat)) (ws : List (Nat × Byte)) : List (Nat × Byte) :=
  ws.flatMap fun w => w :: sp.filterMap fun fg => if w.1 / 65536 = fg.1 then some (fg.2 * 65536 + w.1 % 65536, w.2) else none

/-- Has the path to a peer package been down for its 10 ms (23 R408)? -/
def State.pathGone (s : State) (pkg : Nat) : Bool := s.dv.paths.any fun p => p.pkg == pkg && p.downSince.isSome && p.timedOut

/-- The paths after writes: one that is down holds those for its peer. This package reads them as written; if they are discarded,
the bytes that they covered stand there again (23 R408). -/
def State.holdWrites (s : State) (tag gen : Nat) (ws : List (Nat × Byte)) : List Path :=
  s.dv.paths.map fun p =>
    if p.downSince.isSome then
      { p with heldWrites := ws.foldl (fun l w =>
          if paPeer w.1 ∧ paPkg w.1 = p.pkg then (tag, gen, w.1, s.mm.mem.byte w.1) :: l else l) p.heldWrites }
    else p

/-- The dirty bytes of the shelf after writes of a cove to HBM, each with the byte that HBM holds (20 R365). A byte that the shelf did not
hold dirty is written there; which lines it writes back, and when, is left open (log 131). -/
def State.shelfWrites (s : State) (w : Writer) (ws : List (Nat × Byte)) : List (Nat × Nat × Byte) :=
  (ws.filter fun x => paLocal x.1 && !w.direct.contains (x.1 / 65536)).foldl (fun l x =>
    match l.find? fun d => d.2.1 == x.1 with
    | some d => (w.tag, d.2) :: l.filter fun d => d.2.1 != x.1
    | none => (w.tag, x.1, s.mm.mem.byte x.1) :: l) s.mm.dirty

/-- One write event to global memory; a home drops the writes of an old generation (20 R366). `below` takes the writes beneath which it
comes in coherence order; a clean write that is not the newest clears no poison. -/
def State.writeBelow (s : State) (w : Writer) (below : Old → Bool) (taint : Bool) (ws : List (Nat × Byte)) : State :=
  let ok := mirrored s.mm.splices (ws.filter fun x => s.homeTakes x.1 w.tag w.gen)
  let top := ok.filter fun x => taint || !(s.mm.order.olds.find? fun o => o.pa == x.1).any below
  let s0 := s.writeEvent w below ok
  let s1 := { s0 with mm.poison := poisonAfter s.mm.poison top taint, dv.paths := s.holdWrites w.tag w.gen ok,
                       mm.dirty := s.shelfWrites w ok }
  if taint && ok.any (fun w => paHost w.1) then s1.emit (.hostWrite ((ok.find? fun w => paHost w.1).elim 0 (·.1)) true) else s1

/-- One write event, the newest of every location that it writes. -/
def State.writeGlobal (s : State) (w : Writer) (taint : Bool) (ws : List (Nat × Byte)) : State := s.writeBelow w (fun _ => false) taint ws

/-- What no observer sees in part of a write that is no commit, no atomic and no engine write (07 R123). -/
def accessGrain (ws : List (Nat × Byte)) : Nat := if wholeAccess (ws.map (·.1)) then 0 else 1

/-- One write event of the device itself: tag 0x000, whose generation never changes. -/
def State.deviceEvent (s : State) (ws : List (Nat × Byte)) : State :=
  s.writeEvent { tag := 0, gen := 0, unit := deviceUnit, before := s.allEvents, release := true, grain := accessGrain ws } (fun _ => false)
    (mirrored s.mm.splices ws)

/-- Consecutive bytes written by the device itself. -/
def State.writeDevice (s : State) (pa : Nat) (bs : List Byte) : State := s.deviceEvent ((bs.zipIdx).map fun w => (pa + w.2, w.1))

/-- Writes to carves outside the spill: window, weight and state bytes by their keys. -/
def State.writeCarve (s : State) (taint : Bool) (ws : List (Nat × Byte)) : State :=
  let s1 : State := { s with mm.sram := ws.foldl (fun m w => m.put w.1 w.2) s.mm.sram, mm.poisonSram := poisonAfter s.mm.poisonSram ws taint }
  s1.noteSram (ws.map (·.1))

/-- Something leaves for a peer package: while its path is down it waits in the link buffers (23 R408). -/
def State.toPeer (s : State) (pkg : Nat) (e : Emission) : State :=
  if s.pathDown pkg then
    { s with dv.paths := s.dv.paths.map fun p => if p.pkg = pkg ∧ p.downSince.isSome then { p with held := p.held ++ [e] } else p }
  else s.emit e

/-! ### Events -/

/-- An event of a context (08 R173, 18 R342): queued for the context and signalled on PF vector 64 (26 R426). -/
def State.postEvent (s : State) (ctx num : Nat) (payload : Dword) : State :=
  let c := s.ctx ctx
  ((s.setCtx ctx { c with events := c.events ++ [(num, payload)] }).emit (.event ctx num payload)).emit (.msix 0 64)

/-- A trap record posted as an event of a context (21 R371, R373). -/
def State.postRecord (s : State) (ctx : Nat) (r : Vector Dword 8) : State := (s.emit (.record ctx r)).emit (.msix 0 64)

/-- An event of the Jetty controller for the host: what it concerns, with two numbers; it is signalled on PF vector 64 (26 R426). -/
def State.report (s : State) (what : String) (a b : Nat) : State := (s.emit (.notice what a b)).emit (.msix 0 64)

/-! ### Writing the order log -/

/-- The 16 bytes of a record (09 R189). -/
def LogRecord.bytes (r : LogRecord) : List Byte :=
  toBytes 8 (r.kind * 2 ^ 60 + r.lnch % 4096 * 2 ^ 48 + r.site % 65536 * 2 ^ 32 + r.seq % 2 ^ 32) ++ toBytes 8 r.subj.toNat

/-- The records that a ring holds (09 R187). -/
def OrderLog.slots (l : OrderLog) : Nat := (l.units * 65536 - 64) / 16

/-- STAT (09 R187). -/
def OrderLog.stat (l : OrderLog) (level : Nat) : Nat := bit l.ovf + 2 * bit l.div + 4 * (level % 4)

/-- A write of the log through the context's page tables; none where translation or protection fails (09 R435). -/
def State.logWrite (s : State) (ctx va : Nat) (bs : List Byte) : Option State :=
  match (s.at deviceUnit).globalLocs [] ctx va bs.length true with
  | .error _ => none
  | .ok ls =>
    some (s.deviceEvent ((ls.zip bs).filterMap fun w => match w.1 with | .glob pa _ => some (pa, w.2) | .carve _ _ => none))

/-- A failed write sets OVF, and the first one after a DETSET is reported (09 R435). -/
def State.logFailed (s : State) (ctx va : Nat) (l : OrderLog) (dropped : Bool) : State :=
  let s1 := if l.reported then s else s.report "order log write failed" ctx va
  let l1 := { l with ovf := true, drop := l.drop + bit dropped, reported := true }
  s1.setCtx ctx { s1.ctx ctx with log := some l1 }

/-- One header field written (09 R435). -/
def State.logHeader (s : State) (ctx off n v : Nat) : State :=
  match (s.ctx ctx).log with
  | none => s
  | some l =>
    match s.logWrite ctx (l.base + off) (toBytes n v) with
    | some s1 => s1
    | none => s.logFailed ctx (l.base + off) l false

/-- The header written anew. -/
def State.logHeaders (s : State) (ctx : Nat) : State :=
  match (s.ctx ctx).log with
  | none => s
  | some l =>
    ((s.logHeader ctx 0 8 l.wp).logHeader ctx 16 8 l.drop).logHeader ctx 24 4 (l.stat (s.ctx ctx).level)

/-- RP as the host has written it (09 R187); 0 where the read does not translate (log 124). -/
def State.logRp (s : State) (ctx : Nat) (l : OrderLog) : Nat :=
  match (s.at deviceUnit).globalLocs [] ctx (l.base + 8) 8 false with
  | .ok ls => ofBytes (ls.map (s.readLoc Buffers.empty))
  | .error _ => 0

/-- A choice point writes its record (09 R187, R189, R435). -/
def State.logRecord (s : State) (ctx kind lnch site : Nat) (subj : Dword) : State :=
  match (s.ctx ctx).log with
  | none => s
  | some l =>
    let key := (kind * 4096 + lnch % 4096) * 65536 + site % 65536
    let seq := (l.seqs.find key).getD 0
    let r : LogRecord := { kind := kind, lnch := lnch % 4096, site := site % 65536, seq := seq, subj := subj }
    let l1 := { l with seqs := l.seqs.put key ((seq + 1) % 2 ^ 32) }
    if l.slots ≤ l.wp - s.logRp ctx l then
      (s.setCtx ctx { s.ctx ctx with log := some { l1 with drop := l.drop + 1, ovf := true } }).logHeaders ctx
    else
      let va := l.base + 64 + 16 * (l.wp % l.slots)
      match s.logWrite ctx va r.bytes with
      | some s1 => (s1.setCtx ctx { s1.ctx ctx with log := some { l1 with wp := l.wp + 1, records := l.records ++ [r] } }).logHeaders ctx
      | none => (s.logFailed ctx va l1 true).logHeaders ctx

/-! ### The digest (09 R190) -/

/-- Is a record before another in the canonical order (09 R190)? -/
def recordBefore (a b : LogRecord) : Bool :=
  if a.kind ≠ b.kind then decide (a.kind < b.kind)
  else if a.lnch ≠ b.lnch then decide (a.lnch < b.lnch)
  else decide (a.site < b.site)

/-- Insertion behind every record that is not after it. -/
def insertRecord (r : LogRecord) : List LogRecord → List LogRecord
  | [] => [r]
  | x :: t => if recordBefore r x then r :: x :: t else x :: insertRecord r t

/-- The canonical order: KIND, LNCH, SITE, and within one site the order of writing. -/
def canonicalRecords (l : List LogRecord) : List LogRecord := l.foldl (fun a r => insertRecord r a) []

/-- The order-log digest (09 R190). -/
def logDigest (l : List LogRecord) : BitVec 256 := sha256 ((canonicalRecords l).flatMap LogRecord.bytes)

/-- The digest of a context's log, computed when the context ends. -/
def State.endLog (s : State) (ctx : Nat) : State :=
  match (s.ctx ctx).log with
  | some l => s.setCtx ctx { s.ctx ctx with logDigest := some (digestBytes (logDigest l.records), l.ovf) }
  | none => s

/-! ### Forcing from a source log (09 R188, R191, R193) -/

/-- What a source log says of a choice: nothing is forced; it is this choice's turn; it must wait; the site diverges. -/
inductive Forced where
  | free | turn | hold | diverges
deriving DecidableEq, Repr

/-- The unperformed records of a site for a launch of the run. -/
def OrderLog.siteRecords (l : OrderLog) (kind lnch site : Nat) : List LogRecord :=
  match l.pairs.find? (·.1 == lnch) with
  | some p => l.source.filter fun r => r.kind == kind && r.lnch == p.2 % 4096 && r.site == site
  | none => []

/-- Compare a choice with the source log. `level` is the level of the slot or region that chooses. -/
def State.forced (s : State) (level ctx kind lnch site : Nat) (same : Dword → Bool) : Forced :=
  if level = 2 then
    match (s.ctx ctx).log with
    | none => .free
    | some l =>
      match l.siteRecords kind lnch site with
      | [] => .diverges
      | r :: t => if same r.subj then .turn else if (t.take 63).any (fun r => same r.subj) then .hold else .diverges
  else .free

/-- One record removed from a list. -/
def dropRecord (r : LogRecord) : List LogRecord → List LogRecord
  | [] => []
  | x :: t => if x = r then t else x :: dropRecord r t

/-- The next record of a site has been performed. -/
def State.performed (s : State) (ctx kind lnch site : Nat) : State :=
  match (s.ctx ctx).log with
  | none => s
  | some l =>
    match l.siteRecords kind lnch site with
    | [] => s
    | r :: _ => s.setCtx ctx { s.ctx ctx with log := some { l with source := dropRecord r l.source } }

/-- Firings of a context whose atomics a D2 log holds, oldest first. -/
def State.heldFirings (s : State) (ctx : Nat) : List (Nat × Nat) :=
  s.slots.filterMap fun ks =>
    match ks.2.firing.bind (·.parked) with
    | some (.atomic since true) => if ks.2.pl.ctx = ctx then some (since, ks.1) else none
    | _ => none

/-- Insertion by the first component. -/
def insertBy {α : Type} : (Nat × α) → List (Nat × α) → List (Nat × α)
  | x, [] => [x]
  | x, y :: t => if x.1 < y.1 then x :: y :: t else y :: insertBy x t

/-- D2 turned to D1 (09 R193). -/
def toD1 (level : Nat) : Nat := if level = 2 then 1 else level

/-- A slot that drops from D2 to D1, with a change to D2 that waits for its firing to end. -/
def Slot.dropLevel (sl : Slot) : Slot := { sl with detl := toD1 sl.detl, due.level := sl.due.level.map toD1 }

/-- What the device keeps of the runs of a context, changed where `p` holds of the ordinal. -/
def State.noteRuns (s : State) (ctx : Nat) (p : Nat → Bool) (f : RunRecord → RunRecord) : State :=
  { s with al.history := s.al.history.map fun r => if r.ctx == ctx && p r.ordinal then f r else r }

/-- The level that STAT names (09 R187), with the header written anew where it changes (09 R435). -/
def State.holdLevel (s : State) (ctx level : Nat) : State :=
  if (s.ctx ctx).level = level then s else (s.setCtx ctx { s.ctx ctx with level := level }).logHeaders ctx

/-- Launch ordinal of the configuration a slot belongs to. -/
def State.launchOf (s : State) (cfg : Nat) : Nat := (s.cfg cfg).elim 0 (·.launch.ordinal)

/-- The whole context drops to D1 at once (09 R193): its slots, those that a section holds of it, its pending launches, its
configurations and the changes to D2 that wait in its regions. It is no level change of a region: no kind-6 record, no step of CFGN
(log 125). -/
def State.dropContext (s : State) (ctx : Nat) : State :=
  let inCtx := fun (g : Region) => (s.cfg g.cfg).any fun c => c.launch.ctx == ctx
  let lowCfg := fun (c : Configuration) =>
    if c.launch.ctx = ctx then
      { c with launch.detl := toD1 c.launch.detl, saves := c.saves.map fun v => { v with slot := v.slot.dropLevel } }
    else c
  let ran := fun (n : Nat) =>
    s.slots.any (fun ks => ks.2.pl.ctx == ctx && ks.2.detl == 2 && s.launchOf ks.2.pl.cfg == n)
      || s.al.cfgs.any fun kc => kc.2.launch.ctx == ctx && kc.2.launch.ordinal == n && decide (kc.2.state = .swapped)
          && kc.2.saves.any fun v => v.slot.detl == 2
  let s1 := s.noteRuns ctx ran fun r => { r with lowest := min r.lowest 1, changed := true }
  { s1 with slots := s1.slots.map fun ks => (ks.1, if ks.2.pl.ctx = ctx then ks.2.dropLevel else ks.2),
            al.launches := s1.al.launches.map fun l => if l.ctx = ctx then { l with detl := toD1 l.detl } else l,
            al.cfgs := s1.al.cfgs.map fun kc => (kc.1, lowCfg kc.2),
            en.regions := s1.en.regions.map fun kr =>
              (kr.1, if inCtx kr.2 then { kr.2 with levels := kr.2.levels.map fun l => (toD1 l.1, l.2) } else kr.2) }

/-- The context drops to D1 (09 R193): DIV is set, forcing stops, and held atomics are performed in arrival order. -/
def State.diverge (s : State) (ctx : Nat) : State :=
  let c := s.ctx ctx
  let stopped := fun (l : OrderLog) => { l with div := true, source := [], pairs := [], partners := [] }
  let s1 := (s.setCtx ctx { c with level := 1, log := c.log.map stopped }).dropContext ctx
  let held := (s.heldFirings ctx).foldl (fun l x => insertBy x l) []
  (held.foldl (fun s x => s.later (.heldAtomicRelease x.2)) s1).logHeaders ctx

end Sys2Proof.Machine
end

