-- ==== Sys2Proof/Machine/Commit.lean ====
section
/-! DEFINITION. Arcs and their tokens (02 R24 to R43), stamped groups (07 R139 to R142), the operations that a commit carries
out (02 R30 step 3), marker saves (23 R403), and the commit itself (02 R30). -/

namespace Sys2Proof.Machine

/-! ### Arcs -/

/-- A slot whose configuration is placed. -/
def State.placed (s : State) (k : Nat) : Option Slot :=
  match s.slot k with
  | some sl => if (s.cfg sl.pl.cfg).any (fun c => decide (c.state = .placed)) then some sl else none
  | none => none

/-- Published tokens with those that the spill ring holds. -/
def Arc.published (x : Arc) : Nat := cnt (x.wp + x.parked.length)

/-- An arc to a consumer in another package (02 R42). -/
def Arc.leaves (x : Arc) : Bool := x.consumer.isNone && x.cross.isSome

/-- The producer's space (02 R24, R40, R41, R43; 23 R400). On an edge of a merge rp counts what the merge has taken. -/
def State.arcSpace (s : State) (x : Arc) : Nat :=
  if x.blocked then 0
  else if x.closed then x.window
  else if x.parked.isEmpty && ((x.consumer.bind fun c => s.placed c.1).isSome || x.leaves) then
    s.windowRoom x - cntSub x.wp (if x.cross.isSome then x.rpMirror else x.rp)
  else x.park - x.parked.length

/-- The consumer's fill, 0 while a marker holds the arc (02 R24, 23 R403). -/
def Arc.fill (x : Arc) : Nat := if x.held.isSome then 0 else cntSub x.wpSeen x.rp

/-- Tokens written into the consumer's window from token number `wp` on. -/
def State.writeTokens (s : State) (x : Arc) (k : Nat) (toks : List (List Byte)) : State :=
  let ws := (toks.zipIdx).flatMap fun ti => (ti.1.zipIdx).map fun bj => (s.tokKey x k (cnt (x.wp + ti.2)) bj.2, bj.1)
  if ws.isEmpty then s
  else
    let s1 : State := { s with mm.sram := ws.foldl (fun m w => m.put w.1 w.2) s.mm.sram }
    (s1.noteSram (ws.map (·.1))).noteTags k

/-- Published tokens join every recording of the arc that is open, poison marked (23 R398, R403). -/
def Arc.record (x : Arc) (toks : List (List Byte)) (taint : Bool) : Arc :=
  { x with recorded := x.recorded.map fun r => (r.1, r.2 ++ toks.map (·, taint)) }

/-- Tokens whose tag does not name the consumer's context are discarded, counted and reported (02 R25). -/
def State.foreignTokens (s : State) (x : Arc) (n : Nat) : State :=
  match x.consumer with
  | some c =>
    let t := s.tile (tileOf c.1)
    (s.setTile (tileOf c.1) { t with protEvents := t.protEvents + n }).report "protection event" x.tag n
  | none => s

/-- Tokens published on an arc (02 R30 step 2, R40, R41): discarded, parked, kept for a merge, or written into the window.
The consumer sees them when the new wp arrives (06 R106). -/
def State.publish (s : State) (n : Nat) (toks : List (List Byte)) (taint : Bool) : State :=
  match s.arc n with
  | none => s
  | some x0 =>
    if toks.isEmpty then s
    else if x0.closed then s.setArc n { x0 with discards := x0.discards + toks.length }
    else if x0.leaves then
      (s.setArc n { x0 with wp := cnt (x0.wp + toks.length) }).toPeer (x0.cross.getD 0) (.peerTokens (x0.cross.getD 0) n toks taint)
    else if x0.consumer.any fun c => (s.slot c.1).any fun sl => sl.pl.ctx != x0.tag then s.foreignTokens x0 toks.length
    else
      let x := x0.record toks taint
      match x.consumer.bind fun c => (s.placed c.1).map fun _ => c.1 with
      | none => s.setArc n { x with parked := x.parked ++ toks.map (·, taint) }
      | some k =>
        if !x.parked.isEmpty then s.setArc n { x with parked := x.parked ++ toks.map (·, taint) }
        else if x.merge.isSome then
          (s.setArc n { x with waiting := x.waiting ++ toks.map (·, taint), wp := cnt (x.wp + toks.length) }).later (.wpArrival n)
        else
            let nums := (List.range toks.length).map fun i => cnt (x.wp + i)
            let x1 := { x with wp := cnt (x.wp + toks.length), poisoned := if taint then x.poisoned ++ nums else x.poisoned }
            ((s.writeTokens x k toks).setArc n x1).later (.wpArrival n)

/-- What happened before the tokens and entries that come next on an arc (07 R129, R146). -/
def State.carryOn (s : State) (n : Nat) (set : List Nat) : State :=
  if set.isEmpty then s else s.updArc n fun x => { x with carry := (x.published, set) :: x.carry }

/-- Control entries placed on an arc behind its published tokens (06 R116). An arc to another package keeps them until the copy of
the consumer's rp has passed them; a sink has no consumer slot, and its entries go no further (log 84). -/
def State.publishEntries (s : State) (n : Nat) (es : List Entry) : State :=
  match s.arc n with
  | none => s
  | some x =>
    if es.isEmpty || x.closed then s
    else if x.leaves then
      (s.setArc n { x with entries := x.entries ++ es.map fun e => (x.published, e) }).toPeer (x.cross.getD 0)
        (.peerEntries (x.cross.getD 0) n es)
    else if x.consumer.isNone then s
    else (s.setArc n { x with entries := x.entries ++ es.map fun e => (x.published, e) }).later (.controlEntryDelivery n)

/-- Is count a at or beyond count b (32-bit counts)? -/
def cntReached (a b : Nat) : Bool := decide (cntSub a b < 2147483648)

/-- What happened before the publication of a token or entry at a position of an arc (07 R129). -/
def Arc.carried (x : Arc) (t : Nat) : List Nat :=
  x.carry.foldl (fun l c => if cntReached t c.1 then joinEvents l c.2 else l) []

/-- A firing of the instance that an arc leads to consumes `c` tokens: with clones, from the window of the copy that runs it. -/
def State.laneTaken (s : State) (x : Arc) (c : Nat) : Tab Nat :=
  match x.consumer.bind fun e => (s.cloneSet e.1).bind fun cs => (s.slot cs.original).map fun own => cs.route own.stamp.toNat with
  | none => x.lanes
  | some k => if c = 0 then x.lanes else x.lanes.put k (cnt ((x.lanes.find k).getD 0 + c))

/-- rp advanced by a consumption; an entry that it reaches is delivered next (06 R116), and a mirrored copy is on its way
(02 R43). -/
def State.consume (s : State) (n c : Nat) : State :=
  match s.arc n with
  | none => s
  | some x =>
    let rp := cnt (x.rp + c)
    let gone := (List.range c).map fun i => cnt (x.rp + i)
    let s1 := s.setArc n { x with rp := rp, poisoned := x.poisoned.filter fun t => !gone.contains t, lanes := s.laneTaken x c }
    let s2 := if c ≠ 0 ∧ x.cross.isSome then s1.later (.rpMirrorUpdate n) else s1
    let s3 := if c ≠ 0 ∧ !x.parked.isEmpty then s2.later (.parkedTokenDelivery n)
      else if c ≠ 0 ∧ !x.inputs.isEmpty then s2.later (.wpArrival n) else s2
    if x.entries.head?.any fun e => cntReached rp e.1 then s3.soon (.controlEntryDelivery n) else s3

/-- Declared consumption and production of the running firing. -/
def rateIn (sl : Slot) (f : Firing) (k : Nat) : Nat := sl.pl.actor.rate f.rset f.phase k
def rateOut (sl : Slot) (f : Firing) (k : Nat) : Nat := sl.pl.actor.rate f.rset f.phase (16 + k)

/-- Token size of a declared port. -/
def sizeIn (sl : Slot) (k : Nat) : Option Nat := (sl.pl.actor.inSize[k]?).join
def sizeOut (sl : Slot) (k : Nat) : Option Nat := (sl.pl.actor.outSize[k]?).join

/-- The arc of a port. -/
def arcIn (sl : Slot) (k : Nat) : Option Nat := (sl.pl.inArc[k]?).join
def arcOut (sl : Slot) (k : Nat) : Option Nat := (sl.pl.outArc[k]?).join

/-! ### Clones and stamped groups -/

/-- The slot whose pointers, PHASE and STAMP a firing of slot `k` moves: the original of a clone set, the surrogate of a
fallback firing, else the slot itself (16 R312, 17 R329). -/
def State.anchor (s : State) (k : Nat) : Nat :=
  match s.cloneSet k with
  | some c => c.original
  | none =>
    match s.slot k with
    | some sl => if sl.due.fallback.isSome then sl.pl.surrogate.getD k else k
    | none => k

/-- How many firings of the instance come before the next firing of a slot: 0 without clones, none for a copy to which no
further stamp is routed (16 R312). -/
def State.firingsAhead (s : State) (k : Nat) : Option Nat :=
  match s.cloneSet k with
  | none => some 0
  | some c =>
    let st := (s.slot c.original).elim 0 (·.stamp.toNat)
    (List.range 64).find? fun i => c.route (st + i) == k

/-- The slot whose arcs, PHASE, RSET and STAMP a firing of slot `k` starts from (16 R312, 17 R329). -/
def State.source (s : State) (k : Nat) (sl : Slot) : Slot :=
  if sl.due.fallback.isSome then sl else (s.slot (s.anchor k)).getD sl

/-- The stamped group of a slot by itself: a declared group of the configuration, or the copies of an instance (07 R139, 16 R312). -/
def State.ownGroup (s : State) (k : Nat) : Option (Nat × Nat × Nat) :=
  match s.slot k with
  | none => none
  | some sl =>
    match sl.pl.actor.stamped with
    | some g => some (sl.pl.cfg, 0, g)
    | none => (s.cloneSet k).map fun c => (sl.pl.cfg, 1, c.original)

/-- The stamped group of a slot: a fallback runs under the stamps of its surrogate, in that one's group (16 R313, 17 R329). -/
def State.groupId (s : State) (k : Nat) : Option (Nat × Nat × Nat) :=
  match (s.slot k).bind (·.pl.surrogate) with
  | some u => (s.ownGroup u).orElse fun _ => s.ownGroup k
  | none => s.ownGroup k

/-- Group order (07 R139). -/
def stampBefore (a ra b rb : Nat) : Bool := decide (a < b ∨ (a = b ∧ ra < rb))

/-- Has every firing that comes before (stamp, rank) in the group of slot `k` committed? A member's next commit carries the
STAMP that its anchor holds; a fallback commits under its surrogate's (17 R329). -/
def State.lowerDone (s : State) (k stamp rank : Nat) : Bool :=
  match s.groupId k with
  | none => true
  | some g =>
    s.slots.all fun ms =>
      !(s.groupId ms.1 == some g && !ms.2.due.exited && ms.2.pl.surrogate.isNone && s.anchor ms.1 == ms.1)
        || !stampBefore ms.2.stamp.toNat ms.2.pl.rank stamp rank

/-- The next firing of a group may commit: its members that wait for their turn are offered it. -/
def State.offerTurns (s : State) (g : Option (Nat × Nat × Nat)) : State :=
  match g with
  | none => s
  | some _ =>
    s.slots.foldl (fun t ms =>
      if s.groupId ms.1 = g then
        match ms.2.firing.bind (·.parked) with
        | some (.commitTurn _) => t.later (.stampedCommit ms.1)
        | _ => if ms.2.due.skip then t.later (.stampedCommit ms.1) else t
      else t) s

/-- The firing of a slot ends, and what it held back is gone (02 R32, R34); a level that waited for its end, and for the end of its
clones, takes effect (09 R196, R197). The reads of an irrevocable one stand (07 R127). -/
def State.dropFiring (s : State) (k : Nat) : State :=
  let wait := (s.cloneSet k).isSome
  let s1 := s.updSlot k fun sl =>
    { sl with firing := none, met := if sl.firing.any (·.irr) then s.live (joinEvents sl.met (sl.firing.elim [] (·.view.met))) else sl.met,
              drawOp := if sl.drawOp.isSome then sl.drawOp else sl.firing.bind (·.firstOp),
              detl := if wait then sl.detl else sl.due.level.getD sl.detl, due.level := if wait then sl.due.level else none }
  let t := s1.tile (tileOf k)
  if t.running = some (k % 8) then s1.setTile (tileOf k) { t with running := none } else s1

/-- Later firings of the group whose signature meets a committed line are voided (07 R140). -/
def State.voidConflicts (s : State) (k stamp rank : Nat) (lines : List Nat) : State :=
  match s.groupId k with
  | none => s
  | some g =>
    s.slots.foldl (fun t ms =>
      match ms.2.firing with
      | some f =>
        if ms.1 ≠ k ∧ s.groupId ms.1 = some g ∧ !f.irr ∧ !f.handler
            ∧ stampBefore stamp rank f.r.stamp.toNat ms.2.pl.rank
            ∧ (f.readLines.any lines.contains || (!f.readLines.isEmpty && Config.falseConflict s.freeCtr ms.1)) then
          t.dropFiring ms.1
        else t
      | none => t) s

/-- A write of a firing of a stamped group: a later firing of the group that is in flight reads it or a write that follows it, so that the
group commits what a run of one firing at a time commits (07 R142). -/
def State.tellGroup (s : State) (k stamp rank : Nat) (mine : List Nat) : State :=
  let s1 := s.updSlot k fun u => { u with wrote := s.live (joinEvents u.wrote mine) }
  match s.groupId k with
  | none => s1
  | some g =>
    let tell := fun (ms : Nat × Slot) =>
      match ms.2.firing with
      | some f =>
        if ms.1 ≠ k ∧ s.groupId ms.1 = some g ∧ !f.handler ∧ stampBefore stamp rank f.r.stamp.toNat ms.2.pl.rank then
          (ms.1, { ms.2 with firing := some { f with view := { f.view with floor := joinEvents f.view.floor mine } } })
        else ms
      | none => ms
    { s1 with slots := s1.slots.map tell }

/-- The write events of the commits and atomics of a slot's stamped group (07 R142). -/
def State.groupWrote (s : State) (k : Nat) : List Nat :=
  match s.groupId k with
  | none => []
  | some g => s.slots.foldl (fun l ms => if s.groupId ms.1 = some g then joinEvents l ms.2.wrote else l) []

/-! ### The windows of an instance as its clones come and go (16 R312) -/

/-- The unconsumed tokens of an arc's window, with their poison. -/
def State.windowTokens (s : State) (x : Arc) : List (List Byte × Bool) :=
  (List.range (cntSub x.wp x.rp)).map fun i =>
    (s.mm.sram.bytes (s.tokKey x (x.consumer.elim 0 (·.1)) (cnt (x.rp + i)) 0) x.size, x.poisoned.contains (cnt (x.rp + i)))

/-- The tokens of an arc that lie in windows of `old` go where `s` has their places; those that find no room there park (log 111). -/
def State.relayArc (old s : State) (n : Nat) (lanes : Tab Nat) : State :=
  match old.arc n with
  | none => s
  | some x =>
    let toks := old.windowTokens x
    let y := { x with lanes := lanes, wp := x.rp }
    let keep := min toks.length (s.windowRoom y)
    let wp := cnt (x.rp + keep)
    (s.writeTokens y (x.consumer.elim 0 (·.1)) ((toks.take keep).map (·.1))).setArc n
      { y with wp := wp, wpSeen := if cntReached x.wpSeen wp then wp else x.wpSeen, parked := toks.drop keep ++ x.parked,
               poisoned := x.poisoned.filter fun t => decide (cntSub t x.rp < keep) }

/-- The same for every input of an instance; `lanes` gives what each copy has consumed of an arc. -/
def State.relay (old s : State) (k : Nat) (lanes : Arc → Tab Nat) : State :=
  (List.range 16).foldl (fun (s : State) (p : Nat) =>
    match (old.slot k).bind fun sl => arcIn sl p with
    | some n => old.relayArc s n ((old.arc n).elim [] lanes)
    | none => s) s

/-- The machine as it would be if an instance had no clones: its windows hold what all its copies' windows hold. -/
def State.gathered (s : State) (k : Nat) : State :=
  match s.cloneSet k with
  | none => s
  | some cs =>
    s.relay (s.updCfg ((s.slot k).elim 0 (·.pl.cfg)) fun c => { c with cloneSets := c.cloneSets.filter fun x => x.original != cs.original }) k fun _ => []

/-! ### Barriers at commit (08 R171, R172) -/

/-- A barrier operation that the object does not accept is dropped, counted and reported. -/
def State.barrierError (s : State) (ctx n : Nat) : State :=
  let c := s.ctx ctx
  (s.setCtx ctx { c with barErrors := c.barErrors + 1 }).report "barrier error" ctx n

/-- An operation on a live barrier; one on a barrier that is not live is dropped, counted and reported, that of an engine too, of which the
spec does not speak (log 109). -/
def State.onBarrier (s : State) (ctx n : Nat) (f : Barrier → Option Barrier) : State :=
  let b := s.barrier (ctx * 4096 + n)
  if b.live then
    match f b with
    | some b1 => s.setBarrier (ctx * 4096 + n) b1
    | none => s.barrierError ctx n
  else s.barrierError ctx n

/-- An arrival at a group barrier (08 R172). -/
def Barrier.arrive (b : Barrier) (e : Nat) : Option Barrier :=
  if b.epoch = e then
    if b.count - 1 = 0 then some { b with count := BitVec.ofNat 48 b.size, epoch := (b.epoch + 1) % 16384 }
    else some { b with count := b.count - 1 }
  else none

/-- The barrier operations of a commit; `seen` is what a wait that they end takes over (07 R145). -/
def State.barrierOp (s : State) (ctx : Nat) (seen : List Nat) : DeferredOp → State
  | .barInit n count size =>
    if (s.barrier (ctx * 4096 + n)).live then s.barrierError ctx n
    else s.setBarrier (ctx * 4096 + n)
      { live := true, err := false, epoch := 0, count := BitVec.ofNat 48 (if size = 0 then count else size), size := size,
        status := 0 }
  | .barAdd n v => s.onBarrier ctx n fun b => some { b with count := b.count + BitVec.ofNat 48 v }
  | .barSub n v => s.onBarrier ctx n fun b => some { b with count := b.count - BitVec.ofNat 48 v, carry := joinEvents b.carry seen }
  | .barFree n => s.onBarrier ctx n fun _ => some Barrier.zero
  | .groupArrive n e => s.onBarrier ctx n fun b => (b.arrive e).map fun b => { b with carry := joinEvents b.carry seen }
  | _ => s

/-! ### Commands (08 R175, R176, R183) -/

/-- V follows the completed commands: the largest number up to which every command has ended (07 R144). -/
def Timeline.settle (open' : List Nat) (t : Timeline) : Timeline :=
  let v := match open'.foldl (fun m n => match m with | none => some n | some x => some (min x n)) none with
    | some n => n - 1
    | none => t.issued
  { t with done := max t.done v }

/-- Has a command ended? -/
def Command.ended (c : Command) : Bool :=
  match c.state with
  | .completed | .failed | .cancelled => true
  | _ => false

/-- The slot of a key changed, also where its configuration is swapped out: the key then names the configuration and the line, and the slot
lies in the swap part of the section (23 R407). -/
def State.updHeld (s : State) (k : Nat) (f : Slot → Slot) : State :=
  if k < 2 ^ 32 then s.updSlot k f
  else s.updCfg (k / 2 ^ 32 - 1) fun c =>
    { c with saves := c.saves.map fun v => if v.part = 2 ∧ v.inst = k % 2 ^ 32 then { v with slot := f v.slot } else v }

/-- V of a counter of a slot brought up to date. -/
def State.settleTimeline (s : State) (k tl : Nat) : State :=
  let op := s.en.commands.filterMap fun c =>
    if c.2.slot = k ∧ c.2.tl = tl ∧ !c.2.ended ∧ !c.2.loader then some c.2.num else none
  s.updHeld k fun sl => { sl with tl := (sl.tl.zipIdx).map fun ti => if ti.2 = tl then Timeline.settle op ti.1 else ti.1 }

/-- Commands of a slot that are numbered and not completed (08 R175). -/
def State.outstanding (s : State) (k : Nat) : Nat :=
  (s.en.commands.filter fun c => c.2.slot == k && !c.2.ended && !c.2.loader).length

/-- The next number of a counter of 64 bits (07 R144). -/
def Timeline.next (t : Timeline) : Nat := (t.issued + 1) % 2 ^ 64

/-- The engine that takes up a command: a strand engine of the two stacks beside the issuing die (01 R8, 08 R180), or a collective engine;
which of them is left open (log 85). -/
def State.engineFor (s : State) (fam : Family) (k : Nat) : Nat :=
  match fam with
  | .stream => 8 * (tileOf k / 144) + Config.engineOf s.freeCtr % 8
  | _ => Config.engineOf s.freeCtr

/-- A command takes the next number of its counter and starts (08 R175). What it does comes about piece by piece, on an engine of its
kind. -/
def State.startCommand (s : State) (k : Nat) (c : Command) : State :=
  match s.slot k with
  | none => s
  | some sl =>
    let num := (sl.tl.toList[c.tl]?).elim 0 Timeline.next
    let s1 := s.updSlot k fun sl =>
      { sl with tl := (sl.tl.zipIdx).map fun ti => if ti.2 = c.tl then { ti.1 with issued := num } else ti.1 }
    let id := s1.nextId
    (({ s1 with nextId := id + 1 }.setCommand id { c with num := num, state := .running, roundStart := s1.clock, engine := s.engineFor c.family k }).later
      (.enginePiecePerformed id (2 ^ 60))).later (.engineCommandEnd id)

/-- The pending bytes of an ended command leave its barrier, and a failure marks it (08 R171, R176). -/
def State.settleBarrier (s : State) (c : Command) (total : Nat) (failed : Option Nat) : State :=
  match c.barrier with
  | none => s
  | some n =>
    s.onBarrier c.ctx n fun b =>
      some { b with count := b.count - BitVec.ofNat 48 (total - c.subtracted),
                    err := b.err || failed.isSome, carry := joinEvents b.carry (s.eventsBy c),
                    status := if b.err then b.status else failed.getD b.status }

/-- The bytes that a command counts towards its barrier: all it writes, the signal of CPYS among them and rows that CPYX skips too; a pin and
an unpin count none (07 R145; 08 R177, R180, R181; log 123). -/
def Command.total (c : Command) : Nat :=
  match c.family with
  | .copy =>
    if c.op = 0xBE then field c.block 16 8 * field c.block 56 4
    else if c.op = 0xB9 ∨ c.op = 0xBA then field c.block 16 8 * field c.block 56 4
    else if c.op = 0xBB then field c.block 16 8 + 8
    else if c.op = 0xC6 then 8
    else if c.op = 0xC7 ∧ c.flags ≠ 4 then 0
    else field c.block 16 8
  | .stream => field c.block 24 8 * field c.block 40 4
  | .coll =>
    let t := field c.block 27 1
    field c.block 16 8 * (if t = 6 ∨ t = 7 ∨ t = 13 then 8 else 4)

/-- Does a stream of the loader still have something to do: a source until it has ended, a sink while tokens wait on its arc? Tokens
of a source whose consumer has exited are discarded one by one (02 R41). -/
def State.streamPending (s : State) (c : Command) : Bool :=
  !c.ended && c.loader && (decide (c.tl < 16)
    || ((s.slot c.slot).bind fun sl => (arcOut sl (c.tl - 16)).bind s.arc).any fun x => !x.parked.isEmpty)

/-- Has every instance exited, every command of the configuration ended, and every stream done its work (16 R304)? -/
def State.runOver (s : State) (cfg : Nat) : Bool :=
  (s.cfg cfg).any fun c => decide (c.state ≠ .ended ∧ c.state ≠ .swapped) && c.instancesLeft == 0
    && s.en.commands.all fun x =>
      !((s.slot x.2.slot).any fun sl => sl.pl.cfg == cfg) || (if x.2.loader then !s.streamPending x.2 else x.2.ended)

/-- A run that is over ends next (16 R304). -/
def State.checkRunEnd (s : State) (cfg : Nat) : State := if s.runOver cfg then s.later (.runEnd cfg) else s

/-- A command ends in a state with a status (08 R176). -/
def State.endCommand (s : State) (id : Nat) (st : CmdState) (status : Nat) : State :=
  match s.command id with
  | none => s
  | some c =>
    if c.ended then s
    else
      let s1 := s.setCommand id { c with state := st, status := status, subtracted := c.total }
      let s2 := (s1.settleBarrier c c.total (if st = .failed then some status else none)).settleTimeline c.slot c.tl
      let s3 := if st = .completed then s2.updHeld c.slot fun sl => { sl with flga := sl.flga ||| c.flags5 } else s2
      let s4 := if st = .failed then s3.report "command failed" id status else s3
      (s4.slot c.slot).elim s4 fun sl => s4.checkRunEnd sl.pl.cfg

/-- The family of an opcode of 0xB8 to 0xC7 (08 R177, R180, R181). -/
def familyOf (op : Nat) : Family :=
  if op = 0xBF ∨ op = 0xC0 ∨ op = 0xC1 then .stream
  else if op = 0xC2 ∨ op = 0xC3 ∨ op = 0xC4 then .coll
  else .copy

/-- The command of a family with a number on a counter of a slot. -/
def State.findCommand (s : State) (k tl num : Nat) (fam : Family) : Option Nat :=
  (s.en.commands.find? fun c => c.2.slot == k && c.2.tl == tl && c.2.num == num && decide (c.2.family = fam) && !c.2.loader).map (·.1)

/-- Commands that run end with status 1; loader streams stop. -/
def State.cancelCommands (s : State) (p : Command → Bool) : State :=
  s.en.commands.foldl (fun (s : State) (c : Nat × Command) =>
    if !p c.2 ∨ c.2.ended then s
    else if c.2.loader then s.setCommand c.1 { c.2 with state := .cancelled, status := 1 }
    else s.endCommand c.1 .cancelled 1) s

/-- A cancel (08 R183): no effect on a completed, unknown or foreign number. -/
def State.cancel (s : State) (k op tl num : Nat) : State :=
  match s.findCommand k tl num (familyOf op) with
  | some id => s.endCommand id .cancelled 1
  | none => s

/-! ### Residency requests (17 R320, R321) -/

/-- Residency and fault bits of a layer in every slot of a context that lists it. -/
def State.layerBits (s : State) (ctx layer : Nat) (res flt : Bool) : State :=
  let set := fun (ks : Nat × Slot) =>
    if ks.2.pl.ctx = ctx then
      (ks.1, { ks.2 with layers := ks.2.layers.map fun p => if p.layer = layer then { p with resident := res, fault := flt } else p })
    else ks
  { s with slots := s.slots.map set }

/-- 64-byte units of all slices of a layer (17 R319 PEND). -/
def State.layerUnits (s : State) (ctx layer : Nat) : Nat :=
  s.slots.foldl (fun n ks => if ks.2.pl.ctx = ctx then
    ks.2.layers.foldl (fun n p => if p.layer = layer then n + p.len / 64 else n) n else n) 0

/-- A flood starts from a source; 0 stands for the image default, without which the layer is FAULTED with STAT 2 (24 R413). -/
def State.startFlood (s : State) (ctx layer src ecl : Nat) (t : Tide) : State :=
  let key := ctx * 1024 + layer
  match (if src = 0 then t.dflt else some src) with
  | none =>
    let s1 := s.layerBits ctx layer false true
    s1.setTide key { t with state := .faulted, stat := 2, pend := 0, pfl := false, ecl := ecl, faultWait := none }
  | some a =>
    let s1 := s.layerBits ctx layer false false
    ({ s1 with nextId := s1.nextId + 1 }.setTide key
      { t with state := .flooding, stat := 0, src := a, ecl := ecl, pend := s.layerUnits ctx layer, pfl := false,
               arrival := s1.nextId, faultWait := none }).later (.floodComplete ctx layer)

/-- A FLOOD request arrives (17 R320); `seen` are the write events that happened before it (07 R129). -/
def State.floodRequest (s : State) (ctx layer src ecl : Nat) (seen : List Nat) : State :=
  let key := ctx * 1024 + layer
  let t := s.tide key
  match t.state with
  | .absent | .faulted => s.startFlood ctx layer src ecl { t with seen := seen }
  | .flooding => s.setTide key { t with ecl := max t.ecl ecl }
  | .resident => s
  | .ebbing =>
    if t.pfl then s.setTide key { t with nextEcl := max t.nextEcl ecl }
    else s.setTide key { t with pfl := true, nextSrc := src, nextEcl := ecl, nextSeen := seen }

/-- An EBB request arrives (17 R320, R321). -/
def State.ebbRequest (s : State) (ctx layer : Nat) : State :=
  let key := ctx * 1024 + layer
  let t := s.tide key
  match t.state with
  | .absent | .ebbing => s
  | .flooding | .resident =>
    ((s.layerBits ctx layer false false).setTide key { t with state := .ebbing, pend := 0, faultWait := none }).later (.ebbComplete ctx layer)
  | .faulted => (s.layerBits ctx layer false false).setTide key { t with state := .absent, stat := 0 }

/-! ### The deferred operations in order (02 R30 step 3) -/

/-- TLADV at commit (08 R170). -/
def State.advance (s : State) (k tl v : Nat) : State :=
  s.updSlot k fun sl => { sl with tl := (sl.tl.zipIdx).map fun ti =>
    if ti.2 = tl ∧ ti.1.done < v then { issued := max ti.1.issued v, done := v % 2 ^ 64 } else ti.1 }

/-- The shelf writes a dirty line back (08 R161): HBM holds it from then on. -/
def State.writeBack (s : State) (line : Nat) : State := { s with mm.dirty := s.mm.dirty.filter fun d => d.2.1 / 64 != line }

/-- One operation that is no barrier operation. Cache operations never change a value (08 R161). -/
def State.otherOp (s : State) (k ctx ecl : Nat) : DeferredOp → State
  | .tladv tl v => s.advance k tl.val v
  | .command c => s.startCommand k { c with seen := (s.slot k).elim [] (·.seen) }
  | .cancel op tl num => s.cancel k op tl.val num
  | .flood layer src => s.floodRequest ctx layer src ecl ((s.slot k).elim [] (·.seen))
  | .ebb layer => s.ebbRequest ctx layer
  | .cacheInv line => s.writeBack line
  | .cacheWb line => s.writeBack line
  | _ => s

/-- Barrier operations in program order, then the others: BARADD and BARSUB come before the commit's commands (07 R145). -/
def State.deferred (s : State) (k ctx ecl : Nat) (ops : List DeferredOp) : State :=
  let seen := (s.slot k).elim [] (·.seen)
  ops.foldl (fun s o => s.otherOp k ctx ecl o) (ops.foldl (fun s o => s.barrierOp ctx seen o) s)

/-! ### Marker saves (23 R402, R403) -/

/-- The three kinds of input arcs (23 R402). A port behind a merge is told by its inputs; it counts as aligned itself. -/
inductive ArcKind where
  | stream | recorded | aligned
deriving DecidableEq, Repr

def Arc.kind (x : Arc) : ArcKind :=
  if x.delay ≠ 0 then .recorded
  else if x.producer.isNone ∧ x.inputs.isEmpty ∧ x.cross.isNone then .stream
  else .aligned

/-- The bytes of a slot that are saved: windows and state region (03 R59). -/
def State.savedBytes (s : State) (k : Nat) (sl : Slot) : Tab Byte :=
  s.mm.sram.filter fun c => decide (carveKey k 0 ≤ c.1 ∧ c.1 < carveKey k (sl.pl.spb * 64))
    && !decide (carveKey k (sl.pl.wtb * 64) ≤ c.1 ∧ c.1 < carveKey k (sl.pl.stb * 64))

/-- Bytes of a carve under their local addresses, from the window base to the spill base; weights as well where asked. -/
def State.carveBytes (s : State) (k : Nat) (sl : Slot) (weights : Bool) : Tab Byte :=
  (if weights then s.mm.sram.filter fun c => decide (carveKey k 0 ≤ c.1 ∧ c.1 < carveKey k (sl.pl.spb * 64)) else s.savedBytes k sl).map
    fun c => (c.1 - carveKey k 0, c.2)

/-- Poisoned lines of a carve under local line numbers. -/
def State.carveLines (s : State) (k : Nat) (sl : Slot) : List Nat :=
  s.mm.poisonSram.filterMap fun l =>
    if carveKey k 0 / 64 ≤ l ∧ l < carveKey k 0 / 64 + sl.pl.spb then some (l - carveKey k 0 / 64) else none

/-- The header of a configuration's section in the snapshot area (23 R401). -/
def Configuration.header (c : Configuration) : List Byte :=
  toBytes 8 c.launch.ordinal ++ toBytes 4 c.last ++ toBytes 4 c.inpr
    ++ [BitVec.ofNat 8 (bit c.vld + 2 * bit c.abn + 4 * bit c.swp)] ++ toBytes 3 0 ++ toBytes 4 c.part ++ toBytes 40 0

/-- The header written anew after a change. -/
def State.writeSection (s : State) (cfg : Nat) : State :=
  match s.cfg cfg with
  | some c =>
    match c.section0 with
    | some off => s.writeDevice ((s.ctx c.launch.ctx).snapBase * 65536 + off) c.header
    | none => s
  | none => s

/-- Marker placed by the tile on an output arc (23 R403). -/
def State.tileMarker (s : State) (n cut : Nat) : State := s.publishEntries n [.marker cut true]

/-- The inputs of a slot: the arcs at its ports, and behind a merge the edges as well. -/
def State.inputArcs (s : State) (sl : Slot) : List (Nat × Arc) :=
  (List.range 16).flatMap fun p =>
    match (arcIn sl p).bind fun n => (s.arc n).map fun x => (n, x) with
    | some (n, x) => (n, x) :: x.inputs.filterMap fun i => (s.arc i).map fun y => (i, y)
    | none => []

/-- Tokens that a `.sink` stream has taken from its arc, counted from the start. -/
def State.sinkTaken (s : State) (k p size : Nat) : Nat :=
  (s.en.commands.find? fun c => c.2.slot == k && c.2.tl == 16 + p && c.2.loader).elim 0 fun c =>
    let per := max 1 (size / max 1 (field c.2.block 40 4))
    (c.2.progress + per - 1) / per

/-- Outputs that no slot of the package consumes: they are saved with their producer, a sink with what its stream has taken. -/
def State.outputArcs (s : State) (k : Nat) (sl : Slot) : List (Nat × Arc) :=
  (List.range 16).filterMap fun p =>
    (arcOut sl p).bind fun n => (s.arc n).bind fun x =>
      if x.consumer.isSome then none
      else some (n, if x.cross.isSome then x else { x with rp := cnt (s.sinkTaken k p x.size) })

/-- Position of the marker of a cut among the entries that wait on an arc. -/
def Arc.markerAt (x : Arc) (cut : Nat) : Option Nat :=
  (x.entries.find? fun e => match e.2 with | .marker n _ => n == cut | _ => false).map (·.1)

/-- Is a count before another (32-bit counts)? -/
def cntBefore (a b : Nat) : Bool := decide (a ≠ b) && cntReached b a

/-- What a cut holds of an arc: what lies before its marker. On an aligned arc everything before the marker has been consumed; a
stream's window is saved with its wp; a recorded arc is cut off at a marker that waits in it (23 R403). -/
def Arc.atCut (x : Arc) (cut : Nat) : Arc :=
  let y := { x with held := none, recorded := [] }
  match x.kind with
  | .stream => y
  | .aligned =>
    if x.consumer.isNone then y
    else { y with wp := x.rp, wpSeen := x.rp, entries := [], origins := [], parked := [], waiting := [], poisoned := [] }
  | .recorded =>
    match x.markerAt cut with
    | some q =>
      let behind := cntSub x.published q
      { y with wp := if behind ≤ x.parked.length then x.wp else q, wpSeen := if behind ≤ x.parked.length then x.wpSeen else q,
               parked := x.parked.take (x.parked.length - behind), waiting := x.waiting.take (x.waiting.length - behind),
               entries := x.entries.filter fun e => cntBefore e.1 q }
    | none => y

/-- Is an input aligned: not a stream, not delayed, and not a port behind which every edge is delayed? -/
def State.alignedArc (s : State) (x : Arc) : Bool :=
  decide (x.kind = .aligned) && (x.inputs.isEmpty || x.inputs.any fun i => (s.arc i).any fun y => y.delay == 0)

/-- An arc as a cut holds it. -/
def State.arcAtCut (s : State) (x : Arc) (cut : Nat) : Arc :=
  if x.kind = .aligned ∧ !s.alignedArc x then { x with held := none, recorded := [] } else x.atCut cut

/-- A run of a cut, new if the slot is the first that saves it: abandoned at once where its part holds LAST (23 R404). -/
def Configuration.cutRun (c : Configuration) (cut : Nat) : CutRun :=
  (c.cuts.find? fun r => r.num == cut).getD
    { num := cut, saved := [], arcsDone := [], dead := c.section0.isNone || (c.vld && c.last % 2 == cut % 2) }

/-- A run put back. -/
def Configuration.setRun (c : Configuration) (r : CutRun) : Configuration :=
  { c with cuts := (c.cuts.filter fun x => x.num != r.num) ++ [r] }

/-- A cut that begins takes its part: what the part held is gone, and an older cut under way there is abandoned. -/
def Configuration.beginCut (c : Configuration) (cut : Nat) : Configuration :=
  if c.cuts.any fun r => r.num == cut then c
  else
    let run := c.cutRun cut
    if run.dead then { c.setRun run with abn := c.abn || c.section0.isSome }
    else
      let old := fun (r : CutRun) => !r.dead && r.num % 2 == cut % 2
      let c1 := { c with cuts := c.cuts.map fun r => if old r then { r with dead := true } else r, abn := c.abn || c.cuts.any old,
                         inpr := cut, saves := c.saves.filter fun v => v.part != cut % 2,
                         savedArcs := c.savedArcs.filter fun e => e.1 != cut % 2 }
      c1.setRun run

/-- What a part holds of a slot. -/
def State.saveOf (s : State) (part copy k : Nat) (sl : Slot) : Save :=
  { part := part, inst := sl.pl.inst, copy := copy, slot := { sl with firing := none }, bytes := s.carveBytes k sl false, bad := s.carveLines k sl }

/-- A slot saves cut `n` and forwards its markers on every output on which the firing placed none (23 R403, R404). The fallback of a
surrogate, which has no arcs of its own, is saved with it, and so is every clone (16 R314). -/
def State.saveCut (s : State) (k cut : Nat) (own : List Nat) : State :=
  match s.slot k with
  | none => s
  | some sl =>
    match s.cfg sl.pl.cfg with
    | none => s
    | some c0 =>
      let fresh := !c0.cuts.any fun r => r.num == cut
      let c := c0.beginCut cut
      let run := c.cutRun cut
      let ins := s.inputArcs sl
      let rec' := ins.filter fun i => decide (i.2.kind = .recorded)
      let early := (rec'.filter fun i => (i.2.markerAt cut).isSome).map (·.1)
      let both := (k, sl) :: (sl.pl.fallback.bind fun u => (s.slot u).map fun x => (u, x)).toList
      let copies := ((s.cloneSet k).elim [] (·.copies)).filterMap fun u => (s.slot u).map fun x => (u, x)
      let g := s.gathered k
      let c1 := if run.dead then c
        else { c with saves := c.saves ++ (both.map fun x => g.saveOf (cut % 2) 0 x.1 x.2)
                          ++ (copies.zipIdx).map fun x => s.saveOf (cut % 2) (x.2 + 1) x.1.1 x.1.2,
                      savedArcs := c.savedArcs ++ (g.inputArcs sl ++ s.outputArcs k sl).map fun i => (cut % 2, i.1, g.arcAtCut i.2 cut) }
      let c2 := c1.setRun { run with saved := run.saved ++ both.map (·.2.pl.inst), arcsDone := run.arcsDone ++ early }
      let s1 := { s with al.cfgs := s.al.cfgs.put sl.pl.cfg c2 }.writeSection sl.pl.cfg
      let s2 := s1.updSlot k fun sl => { sl with cut := { last := some cut, want := none, marked := [] } }
      let s3 := ins.foldl (fun (s : State) (i : Nat × Arc) => s.updArc i.1 fun x =>
        let open' := decide (x.kind = .recorded) && !run.dead && !(run.arcsDone ++ early).contains i.1
        { x with held := none, recorded := if open' then x.recorded ++ [(cut, [])] else x.recorded }) s2
      let s4 := (List.range 16).foldl (fun (s : State) (p : Nat) =>
        match arcOut sl p with
        | some n => if own.contains p then s else s.tileMarker n cut
        | none => s) s3
      let s5 := ins.foldl (fun (s : State) (i : Nat × Arc) =>
        let t := if i.2.inputs.isEmpty then s else s.later (.wpArrival i.1)
        if i.2.held.isSome ∧ !i.2.entries.isEmpty then t.later (.controlEntryDelivery i.1) else t) s4
      let ends := fresh && c0.section0.isSome && (run.dead || c0.cuts.any fun r => !r.dead && r.num % 2 == cut % 2)
      let s6 := if ends then s5.report "cut abandoned" sl.pl.cfg cut else s5
      s6.later (.cutComplete sl.pl.cfg)

/-- Output ports on which a firing placed markers of its own. -/
def Buffers.markerPorts (b : Buffers) : List Nat :=
  b.entries.filterMap fun (e : Nat × Entry) => match e.2 with | .marker _ false => some e.1 | _ => none

/-- The cut that a committing source saves: the number of its last MARK, when markers are acted on and the number is new. -/
def State.sourceCut (s : State) (sl : Slot) (b : Buffers) : Option Nat :=
  if (s.ctx sl.pl.ctx).snapEn then
    (b.entries.foldl (fun m e => match e.2 with | .marker n false => some n | _ => m) none).bind fun n =>
      if sl.cut.last.all (fun l => decide (l < n)) then some n else none
  else none

/-! ### The commit (02 R30) -/

/-- Output token `i` of port `k` of a firing: the bytes it wrote, the others zero (06 R110). -/
def Buffers.token (b : Buffers) (k i size : Nat) : List Byte :=
  (List.range size).map fun j => (b.emitted.find (k * 2 ^ 24 + i * 2 ^ 16 + j)).getD 0

/-- The write events that happened before the commits of a slot's stamped group so far (07 R139). -/
def State.groupSeen (s : State) (k : Nat) : List Nat :=
  match s.groupId k with
  | none => []
  | some g => s.slots.foldl (fun l ms => if s.groupId ms.1 = some g then joinEvents l ms.2.seen else l) []

/-- The write events of some commands, with what happened before their launch (07 R129). -/
def State.commandEvents (s : State) (ids : List Nat) : List Nat :=
  ids.foldl (fun l i => match s.command i with | some c => joinEvents l (s.eventsBy c) | none => l) []

/-- The write events that happen before the commit of a firing (07 R127, R128, R139): of a cumulative one, all that any read of the slot
has returned as well (R131). -/
def State.commitBefore (s : State) (k : Nat) (sl : Slot) (f : Firing) : List Nat :=
  let own := joinEvents (joinEvents f.view.hb f.view.own) (s.commandEvents f.started)
  let more := if f.b.cumulative then s.closure (joinEvents sl.met f.view.met) else []
  s.live (joinEvents (joinEvents own (s.groupSeen k)) more)

/-- The posted writes of a commit leave for host memory, those of its STRL after the others (07 R148). -/
def State.postWrites (s : State) (b : Buffers) : State :=
  let pas := (b.gbuf.map (·.1)).filter paHost
  let post := fun (s : State) (l : List Nat) => if l.isEmpty then s else s.emit (.posted l)
  post (post s (pas.filter fun pa => !b.released.contains pa)) (pas.filter b.released.contains)

/-- The frames that buffered stores reach by leaves with SH = 0, whose lines the shelf does not cache (20 R354). -/
def State.uncached (s : State) (sl : Slot) (b : Buffers) : List Nat :=
  b.xlated.filterMap fun x =>
    match s.translate sl.pl.ctx (x.1 * 65536) true with
    | .ok t => if t.pa / 65536 = x.2 ∧ !t.leaf.getLsbD 3 then some x.2 else none
    | .error _ => none

/-- Step 1: the buffered stores as one write event (with the poison of a tainted firing), and the conflicts they raise in a stamped
group. The agenda may name writes beneath which the commit comes, where nothing orders it after them (07 R124). -/
def State.commitStores (s : State) (k : Nat) (sl : Slot) (f : Firing) : State :=
  let before := s.commitBefore k sl f
  let w : Writer := { tag := sl.pl.tag, gen := sl.pl.gen, unit := tileOf k, before := before, release := true, direct := s.uncached sl f.b }
  let below := fun (o : Old) => s.mm.order.under.contains (o.num, o.pa / 8) && s.mayPass { f.view with hb := before } true [o.pa] o
  let s1 := (s.writeBelow w below f.tainted f.b.gbuf).postWrites f.b
  let mine := if s1.mm.order.next = s.mm.order.next then [] else [s.mm.order.next]
  let s2 := s1.updSlot k fun u => { u with seen := joinEvents before mine, met := s.live (joinEvents u.met f.view.met) }
  ((s2.writeCarve f.tainted f.b.sbuf).voidConflicts k f.r.stamp.toNat sl.pl.rank (f.b.lines.filter (· < 2 ^ 60))).tellGroup k
    f.r.stamp.toNat sl.pl.rank mine

/-- Step 2: rp by the declared consumption, tokens and entries by the declared production. `own` are the ports' arcs of the
slot whose pointers move, `seen` what happened before the publication. -/
def State.commitArcs (s : State) (own : Slot) (f : Firing) (seen : List Nat) (tok : Nat → Nat → Nat → List Byte) : State :=
  let s1 := (List.range 16).foldl (fun s k =>
    match arcOut own k, sizeOut own k with
    | some n, some size => ((s.carryOn n seen).publish n ((List.range (rateOut own f k)).map fun i => tok k i size) f.tainted).publishEntries n
        ((f.b.entries.filter fun e => e.1 == k).map (·.2))
    | _, _ => s) s
  (List.range 16).foldl (fun s k =>
    match arcIn own k with
    | some n => s.consume n (rateIn own f k)
    | none => s) s1

/-- The slot whose condition bits a firing of slot `k` reads and writes: the firing of a fallback commits as the surrogate's (17 R329,
24 R416, R418; log 128). -/
def State.condSlot (s : State) (k : Nat) : Nat :=
  match s.slot k with
  | some sl => if sl.due.fallback.isSome then s.anchor k else k
  | none => k

/-- Step 3: condition bits, system registers and flags of the slot, then the deferred operations. -/
def State.commitSlot (s : State) (k : Nat) (f : Firing) : State :=
  match s.slot k with
  | none => s
  | some sl =>
    let s1 := (s.updSlot k fun sl =>
      { sl with sys := f.r.sys, flga := (sl.flga &&& ~~~f.b.flgaClear) ||| f.r.raised }).updSlot (s.condSlot k) fun sl => { sl with c := f.r.c }
    s1.deferred k sl.pl.ctx f.r.sys.prioEcl f.b.deferredOps

/-- Steps 4 and 5. -/
def State.commitCount (s : State) (k : Nat) : State :=
  s.updSlot k fun sl =>
    { sl with phase := (sl.phase + 1) % sl.period, stamp := sl.stamp + 1 }

/-- The automatic poison check after every INTV commits (03 R54); which commits count, and that the count goes on when INTV is written, is
the model's choice (log 97). -/
def State.intervalCheck (s : State) (k : Nat) : State :=
  s.updSlot k fun sl =>
    let n := bits sl.sys.chki 31 16
    if n = 0 then { sl with chkCount := 0, due.voids := 0 }
    else if sl.chkCount + 1 < n then { sl with chkCount := sl.chkCount + 1, due.voids := 0 }
    else if sl.sys.chki.getLsbD 0 then
      { sl with chkCount := 0, due.voids := 0, due.check := true }
    else { sl with chkCount := 0, due.voids := 0 }

/-- After a commit of a fallback: the pointers of its own windows stay where they were, it stands at the stamp that the surrogate has reached,
and the surrogate goes on (17 R329). -/
def State.releaseFallback (s : State) (k : Nat) : State :=
  match s.slot k with
  | some sl =>
    if sl.due.fallback.isSome then
      let s1 := (List.range 16).foldl (fun s p =>
        match arcIn sl p with
        | some n => s.updArc n fun x => { x with wp := x.rp, wpSeen := x.rp }
        | none => s) s
      let st := ((s.slot (s.anchor k)).getD sl).stamp
      let s2 := s1.updSlot k fun sl => { sl with due.fallback := none, stamp := st }
      match sl.pl.surrogate with
      | some u =>
        let all := u :: (s2.cloneSet u).elim [] (·.copies)
        { s2 with slots := s2.slots.map fun ks => (ks.1, if all.contains ks.1 then { ks.2 with due.surWait := false } else ks.2) }
      | none => s2
    else s
  | none => s

/-- After a commit, copies that leave their set may be released (16 R312). -/
def State.offerReleases (s : State) (k : Nat) : State :=
  ((s.cloneSet k).elim [] (·.leaving)).foldl (fun (s : State) (l : Nat × Nat) => s.later (.cloneRelease l.1)) s

/-- The commit of a firing, one event (02 R30). -/
def State.commit (s : State) (k : Nat) : State :=
  match s.slot k with
  | none => s
  | some sl =>
    match sl.firing with
    | none => s
    | some f =>
      let o := s.anchor k
      let own := (s.slot o).getD sl
      let g := s.groupId k
      let s1 := s.commitStores k sl f
      let s2 := s1.commitArcs own f ((s1.slot k).elim [] (·.seen)) fun p i size => f.b.token p i size
      let s3 := s2.commitSlot k f
      let s4 := (s3.commitCount o).dropFiring k
      let s5 := (s4.intervalCheck k).releaseFallback k
      let s6 := match s.sourceCut own f.b with
        | some n => s5.saveCut o n f.b.markerPorts
        | none => s5
      ({ s6 with freeCtr := s6.freeCtr + 1 }.offerTurns g).offerReleases o

/-- The commit of SRET.skip: the trapped firing commits empty, with all-zero tokens (21 R372). -/
def State.commitEmpty (s : State) (k : Nat) (f : Firing) : State :=
  match s.slot k with
  | none => s
  | some sl =>
    let o := s.anchor k
    let own := (s.slot o).getD sl
    let g := s.groupId k
    let s1 := s.commitArcs own { f with b := Buffers.empty, tainted := false } sl.seen fun _ _ size => List.replicate size 0
    ((((s1.commitCount o).updSlot k fun u => { u with due.check := false }).intervalCheck k).releaseFallback k).offerTurns g |>.offerReleases o

end Sys2Proof.Machine
end

