-- ==== Sys2Proof/Machine/Ops.lean ====
section
/-! DEFINITION. What every instruction shares: guards, irrevocability, parking, page faults, taking a trap (21 R369 to R373),
ending a firing (06 R103), and the return from a handler (21 R372). -/

namespace Sys2Proof.Machine

/-! ### The running firing -/

/-- The slot key, slot and firing that run on the tile in focus. -/
def State.current (s : State) : Option (Nat × Slot × Firing) :=
  match (s.tile s.focus).running with
  | none => none
  | some i =>
    match s.slot (s.focus * 8 + i) with
    | none => none
    | some sl =>
      match sl.firing with
      | none => none
      | some f => some (s.focus * 8 + i, sl, f)

/-- A slot with a new firing state put back. -/
def State.putFiring (s : State) (k : Nat) (sl : Slot) (f : Firing) : State := s.setSlot k { sl with firing := some f }

/-- Registers at firing start: zero, but for the condition bits and system registers of the slot (02 R29). -/
def startRegs (sl : Slot) : Regs :=
  { g := Vector.replicate 64 0, v := Vector.replicate 64 0, p := Vector.replicate 16 0, acc := Vector.replicate 4 Acc.zero,
    c := sl.c, sys := sl.sys, raised := 0, srCount := 0, stamp := sl.stamp }

/-- The tokens of a port that the next `n` firings move (02 R23). -/
def rateSum (own : Slot) (port n : Nat) : Nat :=
  (List.range n).foldl (fun a i => a + own.pl.actor.rate own.rset ((own.phase + i) % own.period) port) 0

/-- Counts at firing start, `n` firings of the instance ahead (06 R104, R107; 16 R312). -/
def State.startTokens (s : State) (own : Slot) (n : Nat) : Tokens :=
  let rp := fun k : Fin 16 => cnt (((arcIn own k.val).bind s.arc).elim 0 (·.rp) + rateSum own k.val n)
  let wp := fun k : Fin 16 => cnt (((arcOut own k.val).bind s.arc).elim 0 (·.published) + rateSum own (16 + k.val) n)
  { got := Vector.replicate 16 0, sent := Vector.replicate 16 0, sizeErrIn := Vector.replicate 16 none,
    sizeErrOut := Vector.replicate 16 none, rpAt := Vector.ofFn rp, wpAt := Vector.ofFn wp }

/-- STAMP and PHASE of the next firing of a slot (16 R312). -/
def State.nextStart (s : State) (k : Nat) (sl : Slot) : Dword × Nat :=
  let own := s.source k sl
  let n := (s.firingsAhead k).getD 0
  (own.stamp + BitVec.ofNat 64 n, (own.phase + n) % own.period)

/-- What happened before a firing of a slot starts: the slot's commits and what they took over (07 R128), and for a firing behind a guard the
floods that made its layers RESIDENT (07 R129). In a stamped group it reads the group's writes or what follows them (07 R142). -/
def State.startView (s : State) (k : Nat) (sl : Slot) (handler : Bool) : View :=
  let floods := if handler then [] else sl.layers.flatMap fun p => (s.tide (sl.pl.ctx * 1024 + p.layer)).keptSeen
  { hb := joinEvents sl.seen floods, floor := s.groupWrote k }

/-- A firing of a slot at an instruction index (02 R29 step 2). -/
def State.newFiring (s : State) (k : Nat) (sl : Slot) (pc : Nat) (handler : Bool) : Firing :=
  let own := s.source k sl
  let st := s.nextStart k sl
  { pc := pc, r := { startRegs sl with stamp := st.1, c := ((s.slot (s.condSlot k)).getD sl).c }, tk := s.startTokens own ((s.firingsAhead k).getD 0), b := Buffers.empty,
    phase := st.2, rset := own.rset, handler := handler, irr := false, starved := false, count := 0, ran := 0, readLines := [],
    ordinals := [], surK := false, surQ := 0, surReject := false, tainted := false, parked := none, request := none,
    started := [], fenced := [], grind := 0, begun := false, firstOp := none, failedFault := false, view := s.startView k sl handler,
    unflooded := (sl.layers.map (·.layer)).filter fun y => decide ((s.tide (sl.pl.ctx * 1024 + y)).state ≠ .resident) }

/-! ### Guards (04 R68) -/

/-- The guard of an instruction's operands. -/
def operandGuard : Operands → Guard
  | .r x => x.guard
  | .cvt x => x.guard
  | .atom x => x.guard
  | .i x => x.guard
  | .l x => x.guard
  | .b x => x.guard
  | .m x => x.guard
  | .a x => x.guard
  | .x x => x.guard
  | .e x => x.guard
  | .y x => x.guard

/-- The condition that a guard select names: a condition bit, a token, or space (04 R68). On an input that a marker holds there is no token
(23 R403; log 99). -/
def State.cond (s : State) (sl : Slot) (f : Firing) (sel : Nat) : Bool :=
  if sel < 32 then f.r.c.getLsbD sel
  else if sel < 48 then
    match (arcIn sl (sel - 32)).bind s.arc with
    | some x => x.held.isNone && decide (1 ≤ cntSub x.wpSeen ((f.tk.rpAt.toList[sel - 32]?).getD 0)
        ∧ cntSub x.wpSeen ((f.tk.rpAt.toList[sel - 32]?).getD 0) < 2147483648)
    | none => false
  else
    match (arcOut sl (sel - 48)).bind s.arc with
    | some x => decide ((f.tk.sent.toList[sel - 48]?).getD 0 < s.arcSpace x)
    | none => false

/-- Does an instruction execute (04 R62, R68)? -/
def State.guardHolds (s : State) (sl : Slot) (f : Firing) : Guard → Bool
  | .always => true
  | .cond neg sel => s.cond sl f sel.val != neg

/-! ### Traps (21 R369 to R373) -/

/-- Dword 0 of a record; `idx` is the index of the trapping instruction. -/
def recordHead (k idx : Nat) (irr : Bool) (t : TrapInfo) : Dword :=
  let arc := match t.arc with | some (out, n) => 2 ^ 37 + bit out * 2 ^ 36 + n % 16 * 2 ^ 32 | none => 0
  BitVec.ofNat 64 (tileOf k % 2048 * 2 ^ 48 + arc + idx % 32768 * 2 ^ 16 + t.fl.toNat * 2 ^ 11 + bit t.eng * 2 ^ 10
    + bit t.abt * 2 ^ 9 + bit irr * 2 ^ 8 + t.code % 256)

/-- The record of a trap (21 R369). -/
def State.trapRecord (s : State) (k : Nat) (sl : Slot) (idx : Nat) (irr : Bool) (rset phase : Nat) (t : TrapInfo) : Vector Dword 8 :=
  #v[recordHead k idx irr t, sl.pl.instWord,
     BitVec.ofNat 64 (t.elem % 65536 * 2 ^ 32 + sl.pl.ctx % 64 * 2 ^ 24 + sl.pl.actor.num % 65536 * 2 ^ 8 + rset % 8 * 16 + phase % 16),
     t.decl, t.act, t.info, t.aux, BitVec.ofNat 64 s.ns]

/-- The NEST bit set (21 R373). -/
def nestRecord (r : Vector Dword 8) : Vector Dword 8 := r.set 0 (r[0] ||| BitVec.ofNat 64 (2 ^ 31))

/-- A record goes to Jetty policy; the slot starts no firing in the meantime (21 R373). -/
def State.toPolicy (s : State) (k : Nat) (r : Vector Dword 8) : State :=
  (s.updSlot k fun sl => { sl with due.policy := some r, due.stopped := true, due.handler := false, due.trapped := false,
                                   trapc := 0, trapi := Vector.replicate 8 0 }).soon (.jettyPolicyTrap k)

/-- The tokens that a firing consumes at a port, as the window of the instance holds them, with their poison (06 R114, 23 R398). -/
def State.firingTokens (s : State) (f : Firing) (x : Arc) (p n : Nat) : List (List Byte × Bool) :=
  (List.range n).map fun i =>
    let t := cnt ((f.tk.rpAt.toList[p]?).getD 0 + i)
    (s.mm.sram.bytes (s.tokKey x (x.consumer.elim 0 (·.1)) t 0) x.size, x.poisoned.contains t)

/-- The consumed tokens of a rejected surrogate firing are copied to the fallback, poison included, which runs it under the same
stamp (17 R329). A clone reads them, as its firing did, from the windows of the original (16 R312, R313). -/
def State.redeliver (s : State) (k : Nat) (sl : Slot) (f : Firing) : State :=
  match sl.pl.fallback with
  | none => s
  | some fk =>
    match s.slot fk with
    | none => s
    | some fs =>
      let own := (s.slot (s.anchor k)).getD sl
      let s1 := (List.range 16).foldl (fun s p =>
        match (arcIn own p).bind s.arc, arcIn fs p with
        | some x, some n =>
          match s.arc n with
          | some y =>
            let toks := s.firingTokens f x p (rateIn sl f p)
            let bad := ((toks.zipIdx).filter fun t => t.1.2).map fun t => cnt (y.rp + t.2)
            let y0 := { y with wp := y.rp, wpSeen := y.rp }
            let y1 := { y0 with wp := cnt (y.rp + toks.length), wpSeen := cnt (y.rp + toks.length), poisoned := bad,
                                    carry := if x.carry.isEmpty then [] else [(y.rp, x.carried (cnt (f.tk.rpAt.toList.getD p 0 + toks.length)))] }
            (s.writeTokens y0 fk (toks.map (·.1))).setArc n y1
          | none => s
        | _, _ => s) s
      ((s1.updSlot k fun sl => { sl with due.surWait := true }).updSlot fk fun fs =>
        { fs with due.fallback := some (f.r.stamp, f.phase, f.rset), stamp := f.r.stamp, phase := f.phase, rset := f.rset })

/-- TAKING A TRAP. The firing is voided or abandoned; then the trap goes to the fallback (0x12), to a handler firing, or to
Jetty policy (21 R371, R373). -/
def State.trapFrom (s : State) (k : Nat) (sl : Slot) (f : Firing) (idx : Nat) (t : TrapInfo) : State :=
  let r := s.trapRecord k sl idx f.irr f.rset f.phase t
  let s1 := s.dropFiring k
  if f.handler then s1.toPolicy k (nestRecord r)
  else if t.code = 0x12 then
    let s2 := s1.postRecord sl.pl.ctx r
    { s2 with dv.jetty.handlerTraps := s2.dv.jetty.handlerTraps + 1 }.redeliver k sl f
  else if sl.sys.trapv.getLsbD 0 then
    (s1.updSlot k fun sl => { sl with trapc := BitVec.ofNat 64 (bit f.irr * 256 + t.code), trapi := r, due.trapped := true,
                                      due.handler := true }).soon (.handlerFiringStart k)
  else s1.toPolicy k r

/-- A trap of the firing that is under way in a slot. -/
def State.takeTrap (s : State) (k : Nat) (t : TrapInfo) : State :=
  match s.slot k with
  | none => s
  | some sl =>
    match sl.firing with
    | none => s
    | some f => s.trapFrom k sl f f.pc t

/-- A trap that a new firing takes before its first instruction: IDX 0, revocable, voided. -/
def State.trapBeforeStart (s : State) (k : Nat) (sl : Slot) (t : TrapInfo) : State :=
  s.trapFrom k sl (s.newFiring k sl 0 false) 0 t

/-! ### Parking and page faults -/

/-- Does a firing that waits stand inside an instruction, and not between two? -/
def Wait.inside : Wait → Bool
  | .preempted | .sleep _ => false
  | _ => true

/-- The running firing parks (16 R293). -/
def State.park (s : State) (k : Nat) (w : Wait) : State :=
  let s1 := s.updSlot k fun sl => { sl with firing := sl.firing.map fun f => { f with parked := some w, begun := f.begun || w.inside } }
  let t := s1.tile (tileOf k)
  if t.running = some (k % 8) then s1.setTile (tileOf k) { t with running := none } else s1

/-- A page fault is recorded, to be posted to the fault ring (20 R359); a page request goes to the host (20 R360). -/
def State.newFault (s : State) (va reason : Nat) (who : Requester) (ctx : Nat) (write : Bool) : State :=
  let p : PageFault := { id := s.nextId, va := va, reason := reason, who := who, ctx := ctx, write := write, time := s.ns, token := none }
  let s1 := { s with nextId := s.nextId + 1, mm.faults := s.mm.faults ++ [p] }
  if reason = 0 then s1.emit (.notice "page request" s.nextId va) else s1.later .faultRecordPost

/-- A page fault of a tile (20 R360): a revocable firing is voided and its slot waits for the answer, an irrevocable one
parks. Once the answer was FAIL, the parked instruction traps 0x08. -/
def State.pageFault (s : State) (k va reason : Nat) (write : Bool) : State :=
  match s.slot k with
  | none => s
  | some sl =>
    match sl.firing with
    | none => s
    | some f =>
      if f.failedFault then s.takeTrap k { code := 0x08, info := BitVec.ofNat 64 va, aux := BitVec.ofNat 64 (max 1 reason) }
      else
        let id := s.nextId
        let s1 := s.newFault va reason (.tile k) sl.pl.ctx write
        if f.irr then s1.park k (.page id)
        else (s1.dropFiring k).updSlot k fun sl => { sl with due.fault := some id, due.handler := f.handler }

/-- An instruction that does not complete. -/
def State.stopWith (s : State) (k : Nat) : Stop → State
  | .trap t => s.takeTrap k t
  | .page va reason write => s.pageFault k va reason write
  | .wait w => s.park k w

/-! ### Running one instruction (04 R62) -/

/-- Opcodes that a slot of class 0 may not execute (16 R306). -/
def drawOp (op : Nat) : Bool := decide ((0x40 ≤ op ∧ op ≤ 0x7F) ∨ (0x84 ≤ op ∧ op ≤ 0x89) ∨ (0xB8 ≤ op ∧ op ≤ 0xC7))

/-- The firing after an instruction that goes on to the next index. -/
def Firing.advance (f : Firing) : Firing := { f with pc := f.pc + 1, count := f.count + 1 }

/-- The firing as an executing instruction leaves it, its own effect apart. -/
def Firing.executed (f : Firing) (op : Nat) : Firing :=
  { f.advance with firstOp := if f.firstOp.isNone && drawOp op then some op else f.firstOp, failedFault := false, begun := false }

/-- R62 after decoding: an instruction whose guard is false only counts; one that executes has its effect, given by `body`
for the slot and the firing moved to the next index, or stops without effect. -/
def runInst (i : Instr) (s : State) (body : State → Nat → Slot → Firing → Except Stop State) : Host.Outcome State Fault Refusal :=
  match s.current with
  | none => .fault .noFiring
  | some (k, sl, f) =>
    match i.parts with
    | none => .fault .noFiring
    | some (op, o) =>
      if f.grind ≠ 0 ∨ f.begun ∨ s.guardHolds sl f (operandGuard o) then
        match body s k sl (f.executed op) with
        | .ok s1 => .next { s1 with freeCtr := s1.freeCtr + 1 }
        | .error st => .next (s.stopWith k st)
      else .next (s.putFiring k sl f.advance)

/-- An instruction that changes its slot and firing only. -/
def runSlot (i : Instr) (s : State) (body : State → Nat → Slot → Firing → Except Stop (Slot × Firing)) :
    Host.Outcome State Fault Refusal :=
  runInst i s fun s k sl f => (body s k sl f).map fun x => s.putFiring k x.1 x.2

/-- An instruction that changes its firing only. -/
def runFiring (i : Instr) (s : State) (body : State → Nat → Slot → Firing → Except Stop Firing) :
    Host.Outcome State Fault Refusal :=
  runInst i s fun s k sl f => (body s k sl f).map fun x => s.putFiring k sl x

/-- An instruction that changes registers only. -/
def runRegs (i : Instr) (s : State) (body : Regs → Except Stop Regs) : Host.Outcome State Fault Refusal :=
  runInst i s fun s k sl f => (body f.r).map fun r => s.putFiring k sl { f with r := r }

/-- The instruction word as trap information (21 R370). -/
def wordInfo (i : Instr) : Dword := (encode i).getD 0

/-- A firing of a surrogate instance (17 R327). -/
def isSurrogate (sl : Slot) (f : Firing) : Bool := sl.pl.fallback.isSome && !f.handler

/-- The firing becomes irrevocable (02 R34, R35). In a stamped group the instruction waits for the lower stamps first (07 R141), a
surrogate's too: the fallbacks of a group then run in its order. -/
def State.irrevocable (s : State) (k : Nat) (sl : Slot) (f : Firing) (i : Instr) : Except Stop Firing :=
  if f.irr then .ok f
  else if !s.lowerDone k f.r.stamp.toNat sl.pl.rank then .error (.wait .lowerStamps)
  else if isSurrogate sl f then .error (.trap { code := 0x12, info := wordInfo i })
  else .ok { f with irr := true }

/-- Does an index lie in the actor's run (06 R96)? -/
def inRun (sl : Slot) (t : Int) : Bool := decide ((sl.pl.runBase : Int) ≤ t ∧ t < sl.pl.runBase + sl.pl.runLen)

/-! ### Ending a run and a firing -/

/-- A packet is done; its completion follows (18 R334). -/
def State.finishPacket (s : State) (q n status : Nat) : State :=
  let x := s.queue q
  let ps := x.packets.map fun p => if p.num = n ∧ p.finished.isNone then { p with finished := some status } else p
  (s.setQueue q { x with packets := ps }).later (.packetCompletion q n)

/-- The slots, arcs and regions of a configuration leave the tiles. -/
def State.unload (s : State) (cfg : Nat) : State :=
  let mine := s.slots.filter fun ks => ks.2.pl.cfg == cfg
  let free := fun (t : State) (ks : Nat × Slot) =>
    let x := t.tile (tileOf ks.1)
    if x.running = some (ks.1 % 8) then t.setTile (tileOf ks.1) { x with running := none } else t
  let s1 := mine.foldl free s
  { s1 with slots := s1.slots.filter fun ks => ks.2.pl.cfg != cfg }

/-- The regions that a DETSET packet still waits for (09 R197). -/
def State.regionsWaiting (s : State) (q n : Nat) : List (Nat × Region) :=
  s.en.regions.filter fun x => x.2.levels.any fun l => l.2.1 == q && l.2.2 == n

/-- The regions of a configuration go; a DETSET that waited for them alone is done (09 R197). -/
def State.dropRegions (s : State) (cfg : Nat) : State :=
  let waits := (s.en.regions.filter fun x => x.2.cfg == cfg).flatMap fun x => x.2.levels.map (·.2)
  let s1 := { s with en.regions := s.en.regions.filter fun x => x.2.cfg != cfg }
  waits.eraseDups.foldl (fun (s : State) (w : Nat × Nat) => if (s.regionsWaiting w.1 w.2).isEmpty then s.finishPacket w.1 w.2 0 else s) s1

/-- A configuration's run ends with a packet status (16 R304, 18 R335): its slots are freed, with the commands they issued, and its
launch completes. -/
def State.endRun (s : State) (cfg status : Nat) : State :=
  match s.cfg cfg with
  | none => s
  | some c =>
    let mine := fun (x : Command) => (s.slot x.slot).any (fun sl => sl.pl.cfg == cfg)
      || c.saves.any fun v => decide (c.state = .swapped) && x.slot == (cfg + 1) * 2 ^ 32 + v.inst
    let s1 := (s.cancelCommands mine).unload cfg
    let s2 := { s1 with arcs := s1.arcs.filter fun x => x.2.cfg != cfg, en.commands := s1.en.commands.filter fun x => !mine x.2,
                        al.launches := s1.al.launches.filter fun l => l.swapped != some cfg }.dropRegions cfg
    let s3 := s2.updCfg cfg fun c => { c with state := .ended, slots := [], cloneSets := [] }
    (s3.finishPacket c.launch.queue c.launch.packet status).later .admission

/-- The slot whose instance a slot runs, and the other slots that end with it: its clones, and the fallback of a surrogate, whose EXIT ends
the surrogate (24 R416). -/
def State.exitGroup (s : State) (k : Nat) (sl : Slot) : Nat × List Nat :=
  let u := sl.pl.surrogate.getD k
  let o := (s.cloneSet u).elim u (·.original)
  (o, (s.cloneSet u).elim [] (·.copies) ++ ((s.slot o).bind (·.pl.fallback)).toList)

/-- A slot that has exited starts no firing any more. -/
def State.markExited (s : State) (k : Nat) : State :=
  (s.dropFiring k).updSlot k fun sl =>
    { sl with due.exited := true, due.trapped := false, due.handler := false, due.skip := false, due.surWait := false, due.traps := [],
              trapc := 0, trapi := Vector.replicate 8 0 }

/-- An arc whose consumer has exited (02 R41): the tokens that it has not consumed, published or on their way, are discarded and counted,
and entries go no further; the producer's package is told. -/
def State.closeArc (s : State) (n : Nat) : State :=
  match s.arc n with
  | none => s
  | some x =>
    if x.closed then s
    else
      let lost := x.parked.length + cntSub x.wp x.rp
      let s1 := s.setArc n { x with closed := true, discards := x.discards + lost, parked := [], waiting := [], entries := [], origins := [] }
      if x.cross.isSome ∧ x.producer.isNone then s1.toPeer (x.cross.getD 0) (.peer (x.cross.getD 0) "closed" n 0) else s1

/-- The instance of a slot has ended (21 R380): its arcs are closed, with the edges behind a merge, and tokens sent to it are
discarded (02 R41). A fallback that ends with its surrogate stands at its stamp (24 R418). -/
def State.exitSlot (s : State) (k : Nat) : State :=
  match s.slot k with
  | none => s
  | some sl =>
    let g := s.exitGroup k sl
    let st := ((s.slot g.1).getD sl).stamp
    let s1 := (g.1 :: g.2).foldl (fun (s : State) (j : Nat) => (s.markExited j).updSlot j fun u => { u with stamp := st }) s
    let s2 := (List.range 16).foldl (fun (s : State) (p : Nat) =>
      match (s1.slot g.1).bind fun u => arcIn u p with
      | some n => (n :: (s.arc n).elim [] (·.inputs)).foldl State.closeArc s
      | none => s) s1
    (s2.updCfg sl.pl.cfg fun c => { c with instancesLeft := c.instancesLeft - 1 }).checkRunEnd sl.pl.cfg

/-- What follows a commit for each way a firing ends (06 R103; 21 R380, R381). -/
def State.afterEnd (s : State) (k : Nat) : EndKind → State
  | .fend => s
  | .exit => s.exitSlot k
  | .wfi ns => s.updSlot k fun sl => { sl with due.wfi := some (if ns = 0 then none else some (s.clock + nsCycles ns)) }

/-- A trap that names an arc, with declared and actual values (02 R45). -/
def arcTrap (code : Nat) (out : Bool) (k decl act : Nat) : Stop :=
  .trap { code := code, decl := BitVec.ofNat 64 decl, act := BitVec.ofNat 64 act, arc := some (out, k) }

/-- An entry of a vector table by number. -/
def nth {α : Type} {n : Nat} (v : Vector α n) (i : Nat) (d : α) : α := (v.toList[i]?).getD d

/-- The rate check of one port (06 R103). -/
def ratePort (out : Bool) (k : Nat) (size : Option Nat) (err : Option Nat) (rate count : Nat) : Except Stop Unit :=
  match size with
  | none => .ok ()
  | some n =>
    match err with
    | some b => .error (arcTrap 0x05 out k n b)
    | none => if count = rate then .ok () else .error (arcTrap 0x05 out k rate count)

/-- Undelivered entries of an output arc with those of the firing; what the tile and the region controllers placed does not count
(06 R103, 23 R403, 09 R194). An arc to another package holds those that the copy of the consumer's rp has not passed; behind a merge those
count as well that wait at the merged port. -/
def State.undelivered (s : State) (sl : Slot) (f : Firing) (k : Nat) : Nat :=
  let old := ((arcOut sl k).bind s.arc).elim 0 fun x =>
    (x.entries.filter fun e => match e.2 with | .marker _ true => false | .drain _ => false | _ => true).length
      + (x.merge.bind fun m => s.arc m.1).elim 0 fun y => (y.origins.filter fun n => some n == arcOut sl k).length
  old + (f.b.entries.filter fun e => e.1 == k).length

/-- The checks of FEND (06 R103). -/
def State.endChecks (s : State) (sl : Slot) (f : Firing) : Except Stop Unit := do
  (List.range 16).forM fun k =>
    ratePort false k (sizeIn sl k) (nth f.tk.sizeErrIn k none) (rateIn sl f k) (nth f.tk.got k 0)
  (List.range 16).forM fun k =>
    ratePort true k (sizeOut sl k) (nth f.tk.sizeErrOut k none) (rateOut sl f k) (nth f.tk.sent k 0)
  (List.range 16).forM fun k =>
    if (sizeOut sl k).isSome ∧ 8 < s.undelivered sl f k then .error (arcTrap 0x06 true k 8 (s.undelivered sl f k)) else .ok ()
  (List.range 16).forM fun k =>
    if nth sl.pl.actor.closedFault k false ∧ ((arcOut sl k).bind s.arc).any (·.closed) ∧ 0 < nth f.tk.sent k 0 then
      .error (.trap { code := 0x19, arc := some (true, k) })
    else .ok ()

/-- The verdict of a surrogate firing (17 R329): the tolerance and the residual are non-negative F32 patterns. -/
def accepts (f : Firing) : Bool :=
  f.surK && !f.surReject &&
    (bits f.r.sys.tolr 30 0 == 0x7F800000 || (decide (f.surQ.toNat ≤ 0x7F800000) && decide (f.surQ.toNat ≤ bits f.r.sys.tolr 30 0)))

/-- Bits [48:10] of a subject: STAMP[38:0]. -/
def stampBits (st : Dword) : Nat := st.toNat % 2 ^ 39 * 2 ^ 10

/-- Subject of a kind-4 record (09 R189). -/
def verdictSubject (k : Nat) (f : Firing) (reject : Bool) : Dword :=
  BitVec.ofNat 64 (k % 8 * 2 ^ 49 + stampBits f.r.stamp + bit reject)

/-- A commit, with what its kind of end adds. -/
def State.finish (s : State) (k : Nat) (e : EndKind) : State := (s.commit k).afterEnd k e

/-- The end of a surrogate firing: its verdict is forced under D2, logged under D1 to D3, and decides (17 R329, 09 R191). -/
def State.decideVerdict (s : State) (k : Nat) (sl : Slot) (f : Firing) (e : EndKind) : Except Stop State :=
  let lnch := s.launchOf sl.pl.cfg
  let rej := !accepts f
  let subj := verdictSubject k f rej
  let decide' := fun (s : State) =>
    let s1 := if sl.detl = 0 then s else s.logRecord sl.pl.ctx 4 lnch sl.pl.cti subj
    if rej then (s1.dropFiring k).redeliver k sl f else s1.finish k e
  let div := fun (s : State) =>
    (s.diverge sl.pl.ctx).takeTrap k { code := 0x17, info := BitVec.ofNat 64 sl.pl.cti, aux := 4 }
  match s.forced sl.detl sl.pl.ctx 4 lnch sl.pl.cti (fun x => x.toNat / 2 == subj.toNat / 2) with
  | .free => .ok (decide' s)
  | .hold => .error (.wait .verdict)
  | .diverges => .ok (div s)
  | .turn =>
    if s.forced sl.detl sl.pl.ctx 4 lnch sl.pl.cti (fun x => x == subj) = .turn then
      .ok (decide' (s.performed sl.pl.ctx 4 lnch sl.pl.cti))
    else .ok (div s)

/-- Deferred commands of a firing (08 R175). -/
def Buffers.commands (b : Buffers) : Nat := (b.deferredOps.filter fun o => match o with | .command _ => true | _ => false).length

/-- Have the immediate commands of a firing ended (07 R127)? -/
def State.commandsEnded (s : State) (ids : List Nat) : Bool := ids.all fun i => (s.command i).all (·.ended)

/-- FEND, EXIT and WFI outside a handler, once the checks are to run: the firing waits for room for its commands and for its
turn in a stamped group, then commits (06 R103, 07 R139, 08 R175). -/
def State.endFiring (s : State) (k : Nat) (sl : Slot) (f : Firing) (e : EndKind) : Except Stop State := do
  s.endChecks sl f
  if e = .exit ∧ f.r.sys.chki.getLsbD 0 then throw (.trap { code := 0x0D, info := f.r.sys.chki })
  if !s.commandsEnded f.started then throw (.wait .commands)
  if 64 < s.outstanding k + f.b.commands then throw (.wait .commandRoom)
  if !s.lowerDone k f.r.stamp.toNat sl.pl.rank then throw (.wait (.commitTurn e))
  let s1 := s.putFiring k sl f
  if isSurrogate sl f then s1.decideVerdict k sl f e else return s1.finish k e

/-! ### The end of a handler firing (21 R372) -/

/-- The handler's own effects: steps 1 and 3 of 02 R30; they do not count towards INTV (log 97). -/
def State.commitHandler (s : State) (k : Nat) (sl : Slot) (f : Firing) : State :=
  ((s.commitStores k sl f).commitSlot k f).dropFiring k

/-- What SRET decides for the trapped firing. -/
inductive Return where
  | again | skip | esc
deriving DecidableEq, Repr

/-- RETURN FROM A TRAP: the handler's effects commit, TRAPC and TRAPI clear, and the trapped firing runs again, commits
empty, or goes to Jetty policy (21 R372). -/
def State.trapReturn (s : State) (k : Nat) (sl : Slot) (f : Firing) (how : Return) : State :=
  let r := sl.trapi
  let s1 := (s.commitHandler k sl f).updSlot k fun sl =>
    { sl with trapc := 0, trapi := Vector.replicate 8 0, due.trapped := false, due.handler := false }
  match how with
  | .again => s1
  | .skip =>
    if s1.lowerDone k f.r.stamp.toNat sl.pl.rank then s1.commitEmpty k f
    else s1.updSlot k fun sl => { sl with due.skip := true }
  | .esc => s1.toPolicy k r

end Sys2Proof.Machine
end

