-- ==== Sys2Proof/Machine/Clones.lean ====
section
/-! DEFINITION. Splits of clone sets: where stamps are routed, and how clones leave (16 R311 to R314; 09 R189). -/

namespace Sys2Proof.Machine

/-- Copies of a set that are not leaving. -/
def CloneSet.active (c : CloneSet) : List Nat := c.copies.filter fun k => !c.leaving.any fun l => l.1 == k

/-- A clone set of a configuration replaced; one without clones keeps its counts of windows only. -/
def State.setCloneSet (s : State) (cfg : Nat) (x : CloneSet) : State :=
  s.updCfg cfg fun c => { c with cloneSets := (c.cloneSets.filter fun y => y.original != x.original) ++ [x] }

/-- The first stamp of an instance that is not yet routed (16 R312): after the one that commits next and after every one whose firing
has started. -/
def State.firstUnrouted (s : State) (c : CloneSet) : Nat :=
  (c.original :: c.copies).foldl (fun m k =>
    match (s.slot k).bind (·.firing) with
    | some f => if f.handler then m else max m (f.r.stamp.toNat + 1)
    | none => m) (max c.next ((s.slot c.original).elim 0 fun sl => sl.stamp.toNat))

/-- A stamp has been routed: its firing has started on one of the copies. -/
def State.noteRouted (s : State) (k stamp : Nat) : State :=
  match s.cloneSet k, s.slot k with
  | some c, some sl => s.setCloneSet sl.pl.cfg { c with next := max c.next (stamp + 1) }
  | _, _ => s

/-- The PHASE that an instance holds when a stamp is the next one. -/
def State.phaseAt (s : State) (c : CloneSet) (st : Nat) : Nat :=
  (s.slot c.original).elim 0 fun sl => (sl.phase + (st - sl.stamp.toNat)) % sl.period

/-- A split ahead of the copies from a stamp on. -/
def State.addSplit (s : State) (c : CloneSet) (st : Nat) : CloneSet :=
  { c with splits := (st, s.phaseAt c st, c.original :: c.active) :: c.splits }

/-- The subject of a kind-3 record (09 R189). -/
def cloneSubject (clones st : Nat) (add : Bool) : Dword :=
  BitVec.ofNat 64 (clones % 8 * 2 ^ 61 + bit add * 2 ^ 60 + st % 2 ^ 39)

/-- A kind-3 record under D1 and D2 (09 R189): clones after the action, what it was, and the split stamp. -/
def State.logClone (s : State) (k clones st : Nat) (add : Bool) : State :=
  match s.slot k with
  | none => s
  | some sl =>
    if sl.detl = 1 ∨ sl.detl = 2 then
      s.logRecord sl.pl.ctx 3 (s.launchOf sl.pl.cfg) sl.pl.actor.num
        (cloneSubject clones st add)
    else s

/-- A split comes into force: the tokens of the instance's windows go to the copies that consume them from then on. -/
def State.resplit (s : State) (cfg : Nat) (c : CloneSet) : State :=
  let first := fun (x : Arc) => if x.lanes.isEmpty then [(c.original, x.rp)] else x.lanes
  s.relay (s.setCloneSet cfg c) c.original first

/-- One clone leaves at a split stamp; it is released after the last firing routed to it. -/
def State.removeCloneAt (s : State) (c : CloneSet) (st : Nat) : State :=
  match c.active.getLast? with
  | none => s
  | some k =>
    let c1 := s.addSplit { c with leaving := c.leaving ++ [(k, st)], hot := 0, cold := 0 } st
    let cfg := (s.slot c.original).elim 0 (·.pl.cfg)
    ((s.resplit cfg c1).logClone c.original c1.active.length st false).later (.cloneRelease k)

/-- Under D2 a removal that a switch or an admission makes performs the next record of its site, or diverges (09 R191, R193). -/
def State.forceRemoval (s : State) (c : CloneSet) (st : Nat) : State :=
  match s.slot c.original with
  | none => s
  | some sl =>
    let lnch := s.launchOf sl.pl.cfg
    match s.forced sl.detl sl.pl.ctx 3 lnch sl.pl.actor.num (fun x => x == cloneSubject (c.active.length - 1) st false) with
    | .free => s
    | .turn => s.performed sl.pl.ctx 3 lnch sl.pl.actor.num
    | _ => (s.diverge sl.pl.ctx).report "clone diverged" sl.pl.ctx sl.pl.actor.num

/-- Every clone of a set leaves (16 R314, R315). -/
def State.removeClones (s : State) (c : CloneSet) : State :=
  c.active.foldl (fun (s : State) (_ : Nat) =>
    match s.cloneSet c.original with
    | some x => (s.forceRemoval x (s.firstUnrouted x)).removeCloneAt x (s.firstUnrouted x)
    | none => s) s

/-- The stamps whose firings a stop or a drain has voided are routed anew: no later firing of a copy comes before the split that takes
its part away (log 87). -/
def State.reroute (s : State) (c : CloneSet) : State :=
  s.setCloneSet ((s.slot c.original).elim 0 (·.pl.cfg)) { c with next := 0 }

/-- Every clone of a set whose copies start no firing leaves (16 R314). -/
def State.retireClones (s : State) (c : CloneSet) : State := (s.reroute c).removeClones { c with next := 0 }

/-- May a leaving clone be released: every stamp routed before its split has committed? -/
def State.cloneDone (s : State) (c : CloneSet) (k : Nat) : Bool :=
  (s.slot k).all (·.firing.isNone) && c.leaving.any fun l =>
    l.1 == k && (s.slot c.original).any fun sl => decide (l.2 ≤ sl.stamp.toNat)

/-- CLONE_RELEASE (R312): its FLGA joins the original's (R311), and its slot is free. -/
def execCloneRelease (k : Nat) (s : State) : Host.Outcome State Fault Refusal :=
  match s.cloneSet k, s.slot k with
  | some c, some sl =>
    if !s.cloneDone c k then .next s
    else
      let copies := c.copies.filter (· != k)
      let c1 := { c with copies := copies, leaving := c.leaving.filter fun l => l.1 != k, splits := if copies.isEmpty then [] else c.splits }
      let s0 := s.setCloneSet sl.pl.cfg c1
      let s1 := (if copies.isEmpty then s.relay s0 c.original fun _ => [] else s0).updSlot c.original fun u => { u with flga := u.flga ||| sl.flga }
      let t := s1.tile (tileOf k)
      let s2 := if t.running = some (k % 8) then s1.setTile (tileOf k) { t with running := none } else s1
      let s3 := { s2 with slots := s2.slots.del k }
      let idle := copies.isEmpty && (s3.slot c.original).any (·.firing.isNone)
      .next ((if idle then s3.dropFiring c.original else s3).later .admission)
  | _, _ => .next s

end Sys2Proof.Machine
end

