-- ==== Sys2Proof/Machine/Float.lean ====
section
/-! DEFINITION. Floating point (10): formats, exact values, the one rounding function, and the exact operations whose results
it rounds. A value is a sign and an exact rational; results that are irrational are given by a rational that rounds alike. -/

namespace Sys2Proof.Machine

/-! ### Formats (10 R200 to R202) -/

/-- A format: fraction bits, exponent bits, bias, and the magnitude pattern of the largest finite number. -/
structure FloatFmt where
  frac : Nat
  ebits : Nat
  bias : Nat
  maxPat : Nat
  hasInf : Bool
deriving DecidableEq, Repr

/-- The formats of R200. -/
def fmt64 : FloatFmt := { frac := 52, ebits := 11, bias := 1023, maxPat := 0x7FEFFFFFFFFFFFFF, hasInf := true }
def fmt32 : FloatFmt := { frac := 23, ebits := 8, bias := 127, maxPat := 0x7F7FFFFF, hasInf := true }
def fmt16 : FloatFmt := { frac := 10, ebits := 5, bias := 15, maxPat := 0x7BFF, hasInf := true }
def fmtB16 : FloatFmt := { frac := 7, ebits := 8, bias := 127, maxPat := 0x7F7F, hasInf := true }
def fmtE5M2 : FloatFmt := { frac := 2, ebits := 5, bias := 15, maxPat := 0x7B, hasInf := true }
def fmtE4M3 : FloatFmt := { frac := 3, ebits := 4, bias := 7, maxPat := 0x7E, hasInf := false }
def fmtE2M1 : FloatFmt := { frac := 1, ebits := 2, bias := 1, maxPat := 0x7, hasInf := false }

/-- The format of a floating-point type; integer types do not reach it. -/
def tyFmt : Ty → FloatFmt
  | .f64 => fmt64 | .f32 => fmt32 | .f16 => fmt16 | .bf16 => fmtB16 | .e5m2 => fmtE5M2 | .e4m3 => fmtE4M3
  | .e2m1 => fmtE2M1 | _ => fmt32

/-- The bits of a format, sign included. -/
def FloatFmt.width (F : FloatFmt) : Nat := F.frac + F.ebits + 1

/-- The sign bit. -/
def FloatFmt.signBit (F : FloatFmt) : Nat := 2 ^ (F.frac + F.ebits)

/-- The magnitude pattern of infinity, where the format has one. -/
def FloatFmt.infPat (F : FloatFmt) : Nat := (2 ^ F.ebits - 1) * 2 ^ F.frac

/-- The canonical quiet NaN (R202). -/
def FloatFmt.nan (F : FloatFmt) : Nat := if F.hasInf then F.infPat + 2 ^ (F.frac - 1) else 0x7F

/-- An exact value of a pattern: a NaN (signalling or not), an infinity, or a signed rational. -/
inductive FVal where
  | nan (sig : Bool)
  | inf (neg : Bool)
  | num (neg : Bool) (n d : Nat)
deriving DecidableEq, Repr

/-- n * 2^e as a fraction. -/
def scale2 (n : Nat) (e : Int) : Nat × Nat := if 0 ≤ e then (n * 2 ^ e.toNat, 1) else (n, 2 ^ (-e).toNat)

/-- The value of a pattern (R200, R201). -/
def FloatFmt.value (F : FloatFmt) (x : Nat) : FVal :=
  let neg := decide (F.signBit ≤ x % (2 * F.signBit))
  let mag := x % F.signBit
  let e := mag / 2 ^ F.frac
  let f := mag % 2 ^ F.frac
  if F.hasInf && e == 2 ^ F.ebits - 1 then
    if f = 0 then .inf neg else .nan (decide (f < 2 ^ (F.frac - 1)))
  else if !F.hasInf && F.maxPat < mag then .nan false
  else if e = 0 then
    let q := scale2 f (1 - F.bias - F.frac)
    .num neg q.1 q.2
  else
    let q := scale2 (2 ^ F.frac + f) (e - F.bias - F.frac)
    .num neg q.1 q.2

/-! ### Flags (10 R209): NV 16, DZ 8, OF 4, UF 2, IX 1, and 32 for a signalling operand (R210) -/

def flNV : Nat := 16
def flDZ : Nat := 8
def flOF : Nat := 4
def flUF : Nat := 2
def flIX : Nat := 1
def flSN : Nat := 32

/-! ### Rounding (10 R205 to R208) -/

/-- Stochastic bits (R206). -/
def srBits (stamp n k el : Nat) : Nat :=
  let m := 2 ^ 64
  let key := (n % 2 ^ 32) * 2 ^ 20 + (k % 256) * 2 ^ 12 + el % 4096
  let z0 := (stamp + 0x9E3779B97F4A7C15 * (key + 1)) % m
  let z1 := ((z0 ^^^ (z0 / 2 ^ 30)) * 0xBF58476D1CE4E5B9) % m
  let z2 := ((z1 ^^^ (z1 / 2 ^ 27)) * 0x94D049BB133111EB) % m
  (z2 ^^^ (z2 / 2 ^ 31)) / 2 ^ 32

/-- RoundInt of the magnitude n / d (R205). -/
def roundInt (rm : Rnd) (neg : Bool) (sr n d : Nat) : Nat :=
  let q := n / d
  let r := n % d
  match rm with
  | .rne | .dyn => if d < 2 * r ∨ (2 * r = d ∧ q % 2 = 1) then q + 1 else q
  | .rna => if d ≤ 2 * r then q + 1 else q
  | .rtz => q
  | .rup => if 0 < r ∧ !neg then q + 1 else q
  | .rdn => if 0 < r ∧ neg then q + 1 else q
  | .sr => if 2 ^ 32 ≤ r * 2 ^ 32 / d + sr then q + 1 else q

/-- Floor(Log2(n / d)) of a positive fraction. -/
def floorLog2 (n d : Nat) : Int :=
  let e : Int := (Nat.log2 n : Int) - Nat.log2 d
  let s := scale2 d e
  if s.1 ≤ n * s.2 then e else e - 1

/-- n / d divided by 2^e, as a fraction. -/
def divPow (n d : Nat) (e : Int) : Nat × Nat := if 0 ≤ e then (n, d * 2 ^ e.toNat) else (n * 2 ^ (-e).toNat, d)

/-- The magnitude pattern of n * 2^qe in a format whose exponent has no upper bound. -/
def FloatFmt.pack (F : FloatFmt) (n : Nat) (qe : Int) : Nat :=
  if n < 2 ^ F.frac then n
  else ((qe + F.frac + F.bias).toNat - 1) * 2 ^ F.frac + n

/-- R207: the overflowed result, without its sign. -/
def FloatFmt.overflow (F : FloatFmt) (neg : Bool) (rm : Rnd) (sat : Bool) : Nat :=
  let far := if F.hasInf then F.infPat else F.nan
  let m := match rm with
    | .rtz => F.maxPat
    | .rup => if neg then F.maxPat else far
    | .rdn => if neg then far else F.maxPat
    | _ => far
  let v := if sat then F.maxPat else m
  if v = F.nan ∧ !F.hasInf then v else v + bit neg * F.signBit

/-- RoundTo (R205) of a nonzero magnitude n / d with a sign: pattern and flags. -/
def FloatFmt.roundTo (F : FloatFmt) (neg : Bool) (n d : Nat) (rm : Rnd) (sat : Bool) (sr : Nat) : Nat × Nat :=
  if n = 0 then (bit neg * F.signBit, 0)
  else
    let p : Int := F.frac + 1
    let emin : Int := 1 - F.bias
    let e0 := floorLog2 n d
    let e := max e0 emin
    let qe := e - p + 1
    let m := divPow n d qe
    let k := roundInt rm neg sr m.1 m.2
    let exact := m.1 % m.2 == 0
    let pat := F.pack k qe
    if F.maxPat < pat then (F.overflow neg rm sat, flOF ||| flIX)
    else
      let m0 := divPow n d (e0 - p + 1)
      let k0 := roundInt rm neg sr m0.1 m0.2
      let tiny := decide (e0 < emin) && !(e0 == emin - 1 && k0 == 2 ^ (F.frac + 1))
      (pat + bit neg * F.signBit, if exact then 0 else if tiny then flUF ||| flIX else flIX)

/-- Rounding of a signed value; an infinity or a NaN is delivered in the format (R207, R213). -/
def FloatFmt.deliver (F : FloatFmt) (v : FVal) (rm : Rnd) (sat : Bool) (sr : Nat) : Nat × Nat :=
  match v with
  | .nan sig => (F.nan, if sig then flNV ||| flSN else 0)
  | .inf neg =>
    if F.hasInf then (F.infPat + bit neg * F.signBit, 0)
    else (if sat then F.maxPat + bit neg * F.signBit else F.nan, flOF)
  | .num neg n d => F.roundTo neg n d rm sat sr

/-! ### Exact operations -/

/-- Negation of an operand (04 R69). -/
def FloatFmt.negate (F : FloatFmt) (yes : Bool) (x : Nat) : Nat :=
  if yes then (if F.signBit ≤ x % (2 * F.signBit) then x - F.signBit else x + F.signBit) else x

/-- An exact result with the flags that forming it raises. -/
structure Exact where
  v : FVal
  fl : Nat
deriving DecidableEq, Repr

/-- A NaN operand: the result is a NaN, and a signalling one is noted (R210). -/
def nanOf (l : List FVal) : Option Exact :=
  if l.any (fun v => match v with | .nan _ => true | _ => false) then
    if l.any (fun v => match v with | .nan true => true | _ => false) then some { v := .nan false, fl := flNV ||| flSN }
    else some { v := .nan false, fl := 0 }
  else none

/-- An invalid operation (R209). -/
def invalid : Exact := { v := .nan false, fl := flNV }

/-- The exact sum of two signed fractions; a zero sum takes its sign from R208. -/
def addFrac (n1 : Bool) (a b : Nat) (n2 : Bool) (c d : Nat) (rm : Rnd) : FVal :=
  if n1 = n2 then
    .num n1 (a * d + c * b) (b * d)
  else if a * d = c * b then .num (rm == .rdn) 0 1
  else if c * b < a * d then .num n1 (a * d - c * b) (b * d)
  else .num n2 (c * b - a * d) (b * d)

/-- x + y. -/
def exactAdd (x y : FVal) (rm : Rnd) : Exact :=
  match nanOf [x, y] with
  | some e => e
  | none =>
    match x, y with
    | .inf a, .inf b => if a = b then { v := .inf a, fl := 0 } else invalid
    | .inf a, _ => { v := .inf a, fl := 0 }
    | _, .inf b => { v := .inf b, fl := 0 }
    | .num n1 a b, .num n2 c d => { v := addFrac n1 a b n2 c d rm, fl := 0 }
    | _, _ => invalid

/-- The value with its sign flipped. -/
def FVal.neg : FVal → FVal
  | .nan s => .nan s
  | .inf n => .inf (!n)
  | .num n a b => .num (!n) a b

/-- x * y. -/
def exactMul (x y : FVal) : Exact :=
  match nanOf [x, y] with
  | some e => e
  | none =>
    match x, y with
    | .inf a, .inf b => { v := .inf (a != b), fl := 0 }
    | .inf a, .num n c _ => if c = 0 then invalid else { v := .inf (a != n), fl := 0 }
    | .num n c _, .inf a => if c = 0 then invalid else { v := .inf (a != n), fl := 0 }
    | .num n1 a b, .num n2 c d => { v := .num (n1 != n2) (a * c) (b * d), fl := 0 }
    | _, _ => invalid

/-- x / y. -/
def exactDiv (x y : FVal) : Exact :=
  match nanOf [x, y] with
  | some e => e
  | none =>
    match x, y with
    | .inf _, .inf _ => invalid
    | .inf a, .num n _ _ => { v := .inf (a != n), fl := 0 }
    | .num n _ _, .inf a => { v := .num (n != a) 0 1, fl := 0 }
    | .num n1 a b, .num n2 c d =>
      if c = 0 then (if a = 0 then invalid else { v := .inf (n1 != n2), fl := flDZ })
      else { v := .num (n1 != n2) (a * d) (b * c), fl := 0 }
    | _, _ => invalid

/-- x * y + z, the product exact. 0 × ∞ is invalid whatever z is. -/
def exactFma (x y z : FVal) (rm : Rnd) : Exact :=
  match nanOf [x, y, z] with
  | some e =>
    match exactMul x y with
    | { v := .nan _, fl := 16 } => { e with fl := e.fl ||| flNV }
    | _ => e
  | none =>
    let p := exactMul x y
    match p.v with
    | .nan _ => p
    | v => exactAdd v z rm

/-- The integer square root, bit by bit from bit `k`. -/
def isqrtFrom (n : Nat) : Nat → Nat → Nat
  | 0, r => if (r + 1) * (r + 1) ≤ n then r + 1 else r
  | k + 1, r =>
    let t := r + 2 ^ (k + 1)
    isqrtFrom n k (if t * t ≤ n then t else r)

def isqrt (n : Nat) : Nat := isqrtFrom n (Nat.log2 n / 2 + 1) 0

/-- A fraction that rounds like the square root of n / d in every format and mode: the root itself when it is rational, else
the middle of an interval of width 2^-256 around it relative to it that holds no rounding boundary. -/
def sqrtFrac (n d : Nat) : Nat × Nat :=
  let t := n * d * 2 ^ 512
  let r := isqrt t
  if r * r = t then (r, d * 2 ^ 256) else (2 * r + 1, d * 2 ^ 257)

/-- The square root (11 R225). -/
def exactSqrt (x : FVal) : Exact :=
  match x with
  | .nan sig => { v := .nan false, fl := if sig then flNV ||| flSN else 0 }
  | .inf false => { v := .inf false, fl := 0 }
  | .inf true => invalid
  | .num neg n d =>
    if n = 0 then { v := .num neg 0 1, fl := 0 }
    else if neg then invalid
    else
      let q := sqrtFrac n d
      { v := .num false q.1 q.2, fl := 0 }

/-- An exact result rounded once. -/
def FloatFmt.result (F : FloatFmt) (e : Exact) (rm : Rnd) (sat : Bool) (sr : Nat) : Nat × Nat :=
  let r := F.deliver e.v rm sat sr
  (r.1, r.2 ||| e.fl)

/-- The sum of exact results, formed exactly (11 R236). -/
def exactSum (l : List Exact) (rm : Rnd) : Exact :=
  match l with
  | [] => { v := .num false 0 1, fl := 0 }
  | a :: t => t.foldl (fun e x => let r := exactAdd e.v x.v rm; { v := r.v, fl := e.fl ||| x.fl ||| r.fl }) a

/-! ### Reciprocals, 2^a and log2 a (11 R234)

A result that is no rational is given by a rational within 2^-400 of it, relative to 1; it rounds alike unless a rounding
boundary lies that close (log 12). -/

/-- 1 / x. -/
def exactRcp (x : FVal) : Exact := exactDiv (.num false 1 1) x

/-- 1 / √x. -/
def exactRsqrt (x : FVal) : Exact :=
  match x with
  | .nan sig => { v := .nan false, fl := if sig then flNV ||| flSN else 0 }
  | .inf false => { v := .num false 0 1, fl := 0 }
  | .inf true => invalid
  | .num neg n d =>
    if n = 0 then { v := .inf neg, fl := flDZ }
    else if neg then invalid
    else
      let q := sqrtFrac d n
      { v := .num false q.1 q.2, fl := 0 }

/-- Binary digits after the point of the series below. -/
def seriesBits : Nat := 448

/-- 2^448 * 2 * artanh(n / d) for 0 ≤ n / d ≤ 1/3: `k` more terms, `p` the power of n / d so far, `i` its exponent. -/
def artanhFrom (n2 d2 : Nat) : Nat → Nat → Nat → Nat
  | 0, _, _ => 0
  | k + 1, p, i => 2 * p / i + artanhFrom n2 d2 k (p * n2 / d2) (i + 2)

def artanh2 (n d : Nat) : Nat := artanhFrom (n * n) (d * d) 150 (n * 2 ^ seriesBits / d) 1

/-- 2^448 * ln 2. -/
def ln2Fix : Nat := artanh2 1 3

/-- 2^448 * exp(x) for x in units of 2^-448: `k` more terms, `t` the term so far, `i` its number. -/
def expFrom (x : Nat) : Nat → Nat → Nat → Nat
  | 0, t, _ => t
  | k + 1, t, i => t + expFrom x k (t * x / 2 ^ seriesBits / (i + 1)) (i + 1)

/-- 2^a for a finite a; beyond ±400 every format has overflowed or underflowed. -/
def exp2Frac (neg : Bool) (n d : Nat) : Nat × Nat :=
  let i : Int := if neg then -(((n + d - 1) / d : Nat) : Int) else ((n / d : Nat) : Int)
  if 400 < i then (2 ^ 400, 1)
  else if i < -400 then (1, 2 ^ 400)
  else
    let f := if neg then ((n + d - 1) / d * d - n) else n % d
    if f = 0 then scale2 1 i
    else
      let y := expFrom (f * ln2Fix / d) 100 (2 ^ seriesBits) 0
      scale2 y (i - seriesBits)

/-- 2^a. -/
def exactExp2 (x : FVal) : Exact :=
  match x with
  | .nan sig => { v := .nan false, fl := if sig then flNV ||| flSN else 0 }
  | .inf neg => if neg then { v := .num false 0 1, fl := 0 } else { v := .inf false, fl := 0 }
  | .num neg n d =>
    let q := exp2Frac neg n d
    { v := .num false q.1 q.2, fl := 0 }

/-- log2 of a positive fraction in units of 2^-448 over ln 2: numerator over `ln2Fix`. -/
def log2Frac (n d : Nat) : FVal :=
  let e := floorLog2 n d
  let m := divPow n d e
  let t : Int := e * (ln2Fix : Int) + (artanh2 (m.1 - m.2) (m.1 + m.2) : Int)
  if m.1 = m.2 then intFVal e else .num (decide (t < 0)) t.natAbs ln2Fix
where
  /-- An integer as a value. -/
  intFVal (e : Int) : FVal := .num (decide (e < 0)) e.natAbs 1

/-- log2 a. -/
def exactLog2 (x : FVal) : Exact :=
  match x with
  | .nan sig => { v := .nan false, fl := if sig then flNV ||| flSN else 0 }
  | .inf neg => if neg then invalid else { v := .inf false, fl := 0 }
  | .num neg n d =>
    if n = 0 then { v := .inf true, fl := flDZ }
    else if neg then invalid
    else { v := log2Frac n d, fl := 0 }

/-- x * 2^k; beyond ±5000 every format has overflowed or underflowed. -/
def exactScale (x : FVal) (k : Int) : Exact :=
  match x with
  | .nan sig => { v := .nan false, fl := if sig then flNV ||| flSN else 0 }
  | .inf neg => { v := .inf neg, fl := 0 }
  | .num neg n d =>
    let j := max (-5000) (min 5000 k)
    if 0 ≤ j then { v := .num neg (n * 2 ^ j.toNat) d, fl := 0 } else { v := .num neg n (d * 2 ^ (-j).toNat), fl := 0 }

/-! ### Comparison, classes and selection -/

/-- x < y of two values that are no NaN; zeros are equal. -/
def FVal.lt : FVal → FVal → Bool
  | .inf a, .inf b => a && !b
  | .inf a, _ => a
  | _, .inf b => !b
  | .num n1 a b, .num n2 c d =>
    if n1 then (if n2 then decide (c * b < a * d) else decide (a ≠ 0 ∨ c ≠ 0))
    else if n2 then false else decide (a * d < c * b)
  | _, _ => false

/-- A value is a NaN. -/
def FVal.isNan : FVal → Bool
  | .nan _ => true
  | _ => false

def FVal.isSig : FVal → Bool
  | .nan s => s
  | _ => false

/-- The sign of a value that is no NaN. -/
def FVal.isNeg : FVal → Bool
  | .nan _ => false
  | .inf n => n
  | .num n _ _ => n

/-- The relation mask of two values (11 R222, R227): LT 1, EQ 2, GT 4, UN 8. -/
def relFloat (x y : FVal) (signalling : Bool) : Nat × Nat :=
  if x.isSig || y.isSig then (8, flNV ||| flSN)
  else if x.isNan || y.isNan then (8, if signalling then flNV else 0)
  else (if x.lt y then 1 else if y.lt x then 4 else 2, 0)

/-- The class mask of a pattern (11 R228). -/
def FloatFmt.classMask (F : FloatFmt) (x : Nat) : Nat :=
  let mag := x % F.signBit
  match F.value x with
  | .nan true => 2 ^ 8
  | .nan false => 2 ^ 9
  | .inf true => 1
  | .inf false => 2 ^ 7
  | .num neg n _ =>
    let c := if n = 0 then 3 else if mag < 2 ^ F.frac then 2 else 1
    2 ^ (if neg then c else 7 - c)

/-- minimumNumber and maximumNumber of IEEE 754-2019 on patterns: -0 below +0; one quiet NaN gives the other operand, two
give the canonical NaN, and so does a signalling one (08 R165, 10 R210, 11 R226). -/
def FloatFmt.minMax (F : FloatFmt) (wantMax : Bool) (x y : Nat) : Nat × Nat :=
  let a := F.value x
  let b := F.value y
  if a.isSig || b.isSig then (F.nan, flNV ||| flSN)
  else if a.isNan && b.isNan then (F.nan, 0)
  else if a.isNan then (y, 0)
  else if b.isNan then (x, 0)
  else
    let xLess := a.lt b || (!b.lt a && a.isNeg && !b.isNeg)
    (if xLess != wantMax then x else y, 0)

/-! ### Conversion to integers (10 R213) -/

/-- The smallest and largest value of an integer type. -/
def intMin (t : Ty) : Int := if t.signed then -(2 ^ (t.bits - 1) : Nat) else 0
def intMax (t : Ty) : Int := if t.signed then (2 ^ (t.bits - 1) : Nat) - 1 else (2 ^ t.bits : Nat) - 1

/-- The value that a pattern of an integer type stands for. -/
def intVal (t : Ty) (x : Nat) : Int :=
  let m := x % 2 ^ t.bits
  if t.signed ∧ 2 ^ (t.bits - 1) ≤ m then (m : Int) - (2 ^ t.bits : Nat) else m

/-- The pattern of an integer in a type, modulo its width. -/
def intPat (t : Ty) (v : Int) : Nat := (v % (2 ^ t.bits : Nat)).toNat

/-- An integer delivered to a type, wrapping or saturating; a clamp raises OF (10 R213, R214). -/
def intDeliver (t : Ty) (sat : Bool) (v : Int) : Nat × Nat :=
  if sat then
    if v < intMin t then (intPat t (intMin t), flOF) else if intMax t < v then (intPat t (intMax t), flOF) else (intPat t v, 0)
  else (intPat t v, 0)

/-- Float to integer (10 R213). -/
def floatToInt (t : Ty) (v : FVal) (rm : Rnd) (sat : Bool) (sr : Nat) : Nat × Nat :=
  let bad := fun (neg isNan : Bool) =>
    if sat then (if isNan then 0 else if neg then intPat t (intMin t) else intPat t (intMax t))
    else if t.signed then 2 ^ (t.bits - 1) else 0
  match v with
  | .nan sig => (bad false true, if sig then flNV ||| flSN else flNV)
  | .inf neg => (bad neg false, flNV)
  | .num neg n d =>
    let m := roundInt rm neg sr n d
    let i : Int := if neg then -(m : Int) else m
    if intMin t ≤ i ∧ i ≤ intMax t then (intPat t i, if n % d = 0 then 0 else flIX) else (bad neg false, flNV)

/-- Rounding to an integer in the same format (11 R231): the value and whether it is exact. -/
def roundIntegral (x : FVal) (rm : Rnd) (sr : Nat) : FVal × Bool :=
  match x with
  | .num neg n d => (.num neg (roundInt rm neg sr n d) 1, n % d == 0)
  | v => (v, true)

/-- An integer as an exact value; zero is +0. -/
def intExact (i : Int) : FVal := .num (decide (i < 0)) i.natAbs 1

/-- A pattern of one type converted to another, neither E2M1 (10 R213, 11 R229). -/
def convertPat (dst src : Ty) (x : Nat) (rm : Rnd) (sat : Bool) (sr : Nat) : Nat × Nat :=
  if src.isInt then
    if dst.isInt then intDeliver dst sat (intVal src x) else (tyFmt dst).deliver (intExact (intVal src x)) rm sat sr
  else if dst.isInt then floatToInt dst ((tyFmt src).value x) rm sat sr
  else (tyFmt dst).deliver ((tyFmt src).value x) rm sat sr

/-- A value delivered to a type (10 R213), not E2M1. -/
def deliverTo (dst : Ty) (v : FVal) (rm : Rnd) (sat : Bool) (sr : Nat) : Nat × Nat :=
  if dst.isInt then floatToInt dst v rm sat sr else (tyFmt dst).deliver v rm sat sr

/-- The value of a pattern of a type, not E2M1. -/
def patVal (t : Ty) (x : Nat) : FVal := if t.isInt then intExact (intVal t x) else (tyFmt t).value x

end Sys2Proof.Machine
end

