-- ==== Sys2Proof/Machine/Flags.lean ====
section
/-! DEFINITION. Flags of an instruction (10 R209 to R212), the rounding mode it uses, and its stochastic bits (10 R206). -/

namespace Sys2Proof.Machine

/-- TE and SNT of FCSR as the firing sees it (03 R52). -/
def Regs.trapEnables (r : Regs) : Nat := bits r.sys.fcsr 9 5
def Regs.snt (r : Regs) : Bool := r.sys.fcsr.getLsbD 13

/-- FCSR.RM as a rounding mode. -/
def Regs.dynamicMode (r : Regs) : Rnd := (Rnd.ofCode (bits r.sys.fcsr 12 10)).getD .rne

/-- The mode of an instruction (04 R69, 10 R205). -/
def Regs.mode (r : Regs) (m : Rnd) : Rnd := if m = .dyn then r.dynamicMode else m

/-- The stochastic bits of rounding step `k` of element `el` (10 R206). -/
def Regs.sr (r : Regs) (k el : Nat) : Nat := srBits r.stamp.toNat r.srCount k el

/-- A rounding instruction has executed: it counts when it rounds stochastically (10 R206). -/
def Regs.counted (r : Regs) (m : Rnd) : Regs := if r.mode m = .sr then { r with srCount := r.srCount + 1 } else r

/-- The OR of the flags of elements. -/
def orFlags (l : List (Nat × Nat)) : Nat := l.foldl (fun a x => a ||| x.2) 0

/-- The lowest element whose flags meet a mask. -/
def lowestWith (mask : Nat) (l : List (Nat × Nat)) : Nat :=
  ((l.filter fun x => x.2 &&& mask != 0).foldl (fun m x => match m with | none => some x.1 | some y => some (min x.1 y)) none).getD 0

/-- The element that a trap record names (R211, 21 R369): the lowest that raised a flag enabled in TE; for a trap 0x0C that only SNT
enables, when no element did, the lowest with a signalling operand (log 81). -/
def Regs.trapElem (r : Regs) (l : List (Nat × Nat)) : Nat :=
  if orFlags l &&& r.trapEnables ≠ 0 then lowestWith r.trapEnables l else lowestWith 32 l

/-- Flags raised by the elements of an instruction: trap 0x0C on a signalling operand, trap 0x0B on an enabled flag, else they
enter FCSR.FL and the flags of the firing (10 R210 to R212). -/
def Regs.raise (r : Regs) (l : List (Nat × Nat)) : Except Stop Regs :=
  let all := orFlags l
  let fl := all % 32
  if 32 ≤ all % 64 ∧ (r.snt ∨ r.trapEnables / 16 % 2 = 1) then
    .error (.trap { code := 0x0C, fl := BitVec.ofNat 5 fl, elem := r.trapElem l })
  else if fl &&& r.trapEnables ≠ 0 then
    .error (.trap { code := 0x0B, fl := BitVec.ofNat 5 fl, elem := r.trapElem l })
  else
    .ok { r with sys.fcsr := r.sys.fcsr ||| BitVec.ofNat 64 fl, raised := r.raised ||| BitVec.ofNat 5 fl }

/-- Flags of a scalar instruction. -/
def Regs.raise1 (r : Regs) (fl : Nat) : Except Stop Regs := r.raise [(0, fl)]

end Sys2Proof.Machine
end

