-- ==== Sys2Proof/Machine/Operands.lean ====
section
/-! DEFINITION. Reading and writing operands (03 R47, R48; 04 R76, R77; 10 R203, R204; 11 R214, R215). -/

namespace Sys2Proof.Machine

/-! ### Registers -/

/-- A general register; g0 reads 0 (03 R47). -/
def Regs.gr (r : Regs) (n : Fin 64) : Dword := if n = 0 then 0 else r.g.get n

/-- A write to a general register; to g0 it is discarded (03 R47). -/
def Regs.setG (r : Regs) (n : Fin 64) (v : Dword) : Regs := if n = 0 then r else { r with g := r.g.set n v }

/-- A predicate; p0 reads all ones (03 R47). -/
def Regs.pr (r : Regs) (n : Fin 16) : Dword := if n = 0 then BitVec.allOnes 64 else r.p.get n

def Regs.setP (r : Regs) (n : Fin 16) (v : Dword) : Regs := if n = 0 then r else { r with p := r.p.set n v }

def Regs.setV (r : Regs) (n : Fin 64) (v : VReg) : Regs := { r with v := r.v.set n v }

def Regs.setAcc (r : Regs) (n : Fin 4) (a : Acc) : Regs := { r with acc := r.acc.set n a }

/-- A general-register operand. -/
def Regs.readG (r : Regs) : Reg → Dword
  | .g n => r.gr n
  | _ => 0

/-- A general-register destination. -/
def Regs.writeG (r : Regs) (x : Reg) (v : Dword) : Regs :=
  match x with
  | .g n => r.setG n v
  | _ => r

/-- A predicate operand and destination. -/
def Regs.readP (r : Regs) : Reg → Dword
  | .p n => r.pr n
  | _ => 0

def Regs.writeP (r : Regs) (x : Reg) (v : Dword) : Regs :=
  match x with
  | .p n => r.setP n v
  | _ => r

/-- The vector register that an operand names; `v[gN]` above 63 traps 0x09 (03 R48). -/
def Regs.vecNum (r : Regs) : Reg → Except Stop (Fin 64)
  | .v n => .ok n
  | .vi n => if (r.gr n).toNat < 64 then .ok (Fin.ofNat 64 (r.gr n).toNat) else .error (trapInfo 0x09 (r.gr n).toNat)
  | _ => .ok 0

/-- The scale partner of a vector register (10 R203). -/
def partner (n : Fin 64) : Fin 64 := n + 1

/-! ### Integer operands (11 R214) -/

/-- An integer operand of a type, and its pattern. -/
def Regs.int (r : Regs) (t : Ty) (x : Reg) : Int := intVal t (r.readG x).toNat
def Regs.pat (r : Regs) (t : Ty) (x : Reg) : Nat := (r.readG x).toNat % 2 ^ t.bits

/-- An integer result delivered to a type and written with its extension (11 R218). -/
def Regs.putInt (r : Regs) (t : Ty) (d : Reg) (sat : Bool) (v : Int) : Except Stop Regs :=
  let p := intDeliver t sat v
  (r.raise1 p.2).map fun r => r.writeG d (widen t p.1)

/-- A pattern written with its extension. -/
def Regs.putPat (r : Regs) (t : Ty) (d : Reg) (p : Nat) : Regs := r.writeG d (widen t (p % 2 ^ t.bits))

/-- The integer immediate of a type (04 R76). -/
def immInt (t : Ty) (imm : Half) : Int := if t.signed then imm.toInt else imm.toNat

/-! ### Floating-point operands -/

/-- A floating-point pattern operand with an optional negation (04 R69). -/
def Regs.fpat (r : Regs) (t : Ty) (x : Reg) (neg : Bool) : Nat := (tyFmt t).negate neg ((r.readG x).toNat % 2 ^ t.bits)

/-- Its value. -/
def Regs.fval (r : Regs) (t : Ty) (x : Reg) (neg : Bool) : FVal := (tyFmt t).value (r.fpat t x neg)

/-- A floating-point result written zero-extended, its flags raised and its instruction counted. -/
def Regs.putFloat (r : Regs) (d : Reg) (m : Rnd) (p : Nat × Nat) : Except Stop Regs :=
  (r.raise1 p.2).map fun r => (r.writeG d (BitVec.ofNat 64 p.1)).counted m

/-- An exact result rounded once to a type (11 R225). -/
def Regs.putExact (r : Regs) (t : Ty) (d : Reg) (m : Mods) (e : Exact) : Except Stop Regs :=
  r.putFloat d m.rnd ((tyFmt t).result e (r.mode m.rnd) m.sat (r.sr 0 0))

/-- A floating-point immediate converted to a type, with the flags of the conversion; its stochastic bits take k = 255, el = 0
(04 R77, 10 R206). -/
def Regs.immFloat (r : Regs) (t : Ty) (m : Mods) (imm : Half) : Nat × Nat :=
  (tyFmt t).deliver (fmtB16.value imm.toNat) (r.mode m.rnd) m.sat (r.sr 255 0)

/-! ### Blocks of E2M1 (10 R203, R204) -/

/-- The value of a 4-bit element under a scale byte. -/
def blockVal (scale e : Nat) : FVal :=
  if scale = 255 then .nan false
  else
    match fmtE2M1.value e with
    | .num neg n d =>
      let q := if 127 ≤ scale then (n * 2 ^ (scale - 127), d) else (n, d * 2 ^ (127 - scale))
      .num neg q.1 q.2
    | v => v

/-- |x| / 2^(s-127) as a fraction. -/
def scaled (s : Nat) (n d : Nat) : Nat × Nat := if 127 ≤ s then (n, d * 2 ^ (s - 127)) else (n * 2 ^ (127 - s), d)

/-- One element rounded to E2M1 with the exponent unbounded above: magnitude in half units of the pattern line, and flags. -/
def roundE2M1 (neg : Bool) (q : Nat × Nat) (rm : Rnd) (sr : Nat) : Nat × Bool × Bool :=
  if q.1 = 0 then (0, true, false)
  else
    let e0 := floorLog2 q.1 q.2
    let e := max e0 0
    let m := divPow q.1 q.2 (e - 1)
    let k := roundInt rm neg sr m.1 m.2
    let m0 := divPow q.1 q.2 (e0 - 1)
    let k0 := roundInt rm neg sr m0.1 m0.2
    let tiny := decide (e0 < 0) && !(e0 == -1 && k0 == 4)
    (fmtE2M1.pack k (e - 1), m.1 % m.2 == 0, tiny)

/-- R204: the 32 values of a block to its scale and its elements, each with its flags; what the block as a whole raises counts
against its first element (log 13). `sr i` are the stochastic bits of element `i`. A block returned as NaN raises nothing for its elements
(log 126). -/
def encodeBlock (x : List FVal) (rm : Rnd) (sat : Bool) (sr : Nat → Nat) : Nat × List (Nat × Nat) :=
  let zeros := fun (fl : Nat) => (0, fl) :: List.replicate 31 (0, 0)
  let anyInf := x.any fun v => match v with | .inf _ => true | _ => false
  let frac := fun (v : FVal) => match v with | .num _ n d => (n, d) | _ => (0, 1)
  let rounds := fun (s : Nat) => (x.zipIdx).map fun vi => roundE2M1 vi.1.isNeg (scaled s (frac vi.1).1 (frac vi.1).2) rm (sr vi.2)
  let floorLogs := x.filterMap fun v => match v with | .num _ n d => if n = 0 then none else some (floorLog2 n d) | _ => none
  let top := floorLogs.foldl (fun m e => match m with | none => some e | some y => some (max e y)) none
  let s0 : Nat := match top with | none => 127 | some e => (e - 2 + 127).toNat
  let s1 := if (rounds s0).any fun r => decide (7 < r.1) then s0 + 1 else s0
  if x.any FVal.isNan then (255, zeros 0)
  else if anyInf ∧ !sat then (255, zeros flOF)
  else
    let s := if anyInf then 254 else s1
    if 254 < s ∧ !sat then (255, zeros (flOF ||| flIX))
    else
      let s2 := min s 254
      let whole := if anyInf then flOF else if 254 < s then flOF ||| flIX else 0
      let one := fun (v : FVal) (i : Nat) =>
        match v with
        | .inf neg => (7 + bit neg * 8, 0)
        | v =>
          let r := roundE2M1 v.isNeg (scaled s2 (frac v).1 (frac v).2) rm (sr i)
          let fl := if r.2.1 then 0 else if r.2.2 then flUF ||| flIX else flIX
          (min r.1 7 + bit v.isNeg * 8, if 7 < r.1 then flOF ||| flIX else fl)
      (s2, (x.zipIdx).map fun vi =>
        let r := one vi.1 vi.2
        (r.1, if vi.2 = 0 then r.2 ||| whole else r.2))

/-- Scale byte of block `b` in a partner register (10 R203). -/
def scaleOf (p : VReg) (b : Nat) : Nat := velem p 8 b

/-- A block is enabled when its four lanes are (10 R203). -/
def blockOn (pr : Dword) (b : Nat) : Bool := (List.range 4).all fun i => pr.getLsbD (4 * b + i)

/-- Signalling operands of a block (10 R210). -/
def blockFlags (l : List Exact) : Nat := l.foldl (fun a e => a ||| e.fl) 0

/-- Blocks written: elements and scale together, others kept. -/
def Regs.putBlocks (r : Regs) (d : Fin 64) (on : Nat → Bool) (el : Nat → Nat) (sc : Nat → Nat) : Regs :=
  let old := r.v.get d
  let oldP := r.v.get (partner d)
  let v := vbuild 4 fun i => if on (i / 32) then el i else velem old 4 i
  let p := vbuild 8 fun b => if b < 16 ∧ on b then sc b else velem oldP 8 b
  (r.setV d v).setV (partner d) p

/-! ### Vector operands (11 R215) -/

/-- Elements written where `on` says so, the others kept. -/
def Regs.putElems (r : Regs) (d : Fin 64) (w : Nat) (on : Nat → Bool) (f : Nat → Nat) : Regs :=
  let old := r.v.get d
  r.setV d (vbuild w fun i => if on i then f i else velem old w i)

/-- The results of elements, each evaluated once: pattern and flags. -/
def elemResults (m : Nat) (on : Nat → Bool) (f : Nat → Nat × Nat) : List (Nat × Nat × Nat) :=
  (List.range m).filterMap fun i => if on i then some (i, f i) else none

/-- A vector result of `m` elements of width `w` where every enabled element raises its flags (11 R233). -/
def Regs.putVec (r : Regs) (d : Fin 64) (w m : Nat) (on : Nat → Bool) (f : Nat → Nat × Nat) : Except Stop Regs :=
  let rs := elemResults m on f
  (r.raise (rs.map fun x => (x.1, x.2.2))).map fun r => r.putElems d w (fun i => decide (i < m) && on i) fun i => (f i).1

end Sys2Proof.Machine
end

