-- ==== Sys2Proof/Machine/ScalarFloat.lean ====
section
/-! DEFINITION. The scalar floating-point instructions (11 R225 to R232). -/

namespace Sys2Proof.Machine

/-- An instruction on two values that rounds once (R225). -/
def Regs.float2 (r : Regs) (x : RFields) (f : FVal → FVal → Rnd → Exact) : Except Stop Regs :=
  r.putExact x.ty x.d x.mods (f (r.fval x.ty x.a x.mods.na) (r.fval x.ty x.b x.mods.nb) (r.mode x.mods.rnd))

/-- FMIN and FMAX (R226): no rounding. -/
def Regs.minMax (r : Regs) (x : RFields) (wantMax : Bool) : Except Stop Regs :=
  let p := (tyFmt x.ty).minMax wantMax (r.fpat x.ty x.a x.mods.na) (r.fpat x.ty x.b x.mods.nb)
  (r.raise1 p.2).map fun r => r.writeG x.d (BitVec.ofNat 64 p.1)

/-- A pattern with its sign bit set as given. -/
def FloatFmt.withSign (F : FloatFmt) (x : Nat) (neg : Bool) : Nat := x % F.signBit + bit neg * F.signBit

/-- The sign bit of a pattern. -/
def FloatFmt.signOf (F : FloatFmt) (x : Nat) : Bool := decide (F.signBit ≤ x % (2 * F.signBit))

/-- FRND (R231): the rounded value is representable; IX only with `.w`. -/
def Regs.roundHere (r : Regs) (x : RFields) : Except Stop Regs :=
  let v := r.fval x.ty x.a x.mods.na
  let q := roundIntegral v (r.mode x.mods.rnd) (r.sr 0 0)
  let p := (tyFmt x.ty).deliver q.1 .rtz false 0
  r.putFloat x.d x.mods.rnd (p.1, p.2 ||| (if x.mods.w && !q.2 then flIX else 0))

/-- FFLG (R232). -/
def Regs.raiseFrom (r : Regs) (x : RFields) : Except Stop Regs :=
  let a := (r.readG x.a).toNat
  if 32 ≤ a then .error (trapInfo 0x09 a)
  else (r.raise1 a).map fun r1 => r1.writeG x.d (BitVec.ofNat 64 (bits r.sys.fcsr 4 0))

/-- FADD (R225). -/
def execFadd (x : RFields) (s : State) : Host.Outcome State Fault Refusal :=
  runRegs (.fadd x) s fun r => r.float2 x exactAdd

/-- FSUB (R225). -/
def execFsub (x : RFields) (s : State) : Host.Outcome State Fault Refusal :=
  runRegs (.fsub x) s fun r => r.float2 x fun a b m => exactAdd a b.neg m

/-- FMUL (R225). -/
def execFmul (x : RFields) (s : State) : Host.Outcome State Fault Refusal :=
  runRegs (.fmul x) s fun r => r.float2 x fun a b _ => exactMul a b

/-- FDIV (R225). -/
def execFdiv (x : RFields) (s : State) : Host.Outcome State Fault Refusal :=
  runRegs (.fdiv x) s fun r => r.float2 x fun a b _ => exactDiv a b

/-- FSQRT (R225). -/
def execFsqrt (x : RFields) (s : State) : Host.Outcome State Fault Refusal :=
  runRegs (.fsqrt x) s fun r => r.putExact x.ty x.d x.mods (exactSqrt (r.fval x.ty x.a x.mods.na))

/-- FFMA (R225). -/
def execFfma (x : RFields) (s : State) : Host.Outcome State Fault Refusal :=
  runRegs (.ffma x) s fun r => r.float2 x fun a b m => exactFma a b (r.fval x.ty x.c x.mods.nc) m

/-- FMIN (R226). -/
def execFmin (x : RFields) (s : State) : Host.Outcome State Fault Refusal :=
  runRegs (.fmin x) s fun r => r.minMax x false

/-- FMAX (R226). -/
def execFmax (x : RFields) (s : State) : Host.Outcome State Fault Refusal :=
  runRegs (.fmax x) s fun r => r.minMax x true

/-- FCMP (R227). -/
def execFcmp (x : RFields) (s : State) : Host.Outcome State Fault Refusal :=
  runRegs (.fcmp x) s fun r =>
    let p := relFloat (r.fval x.ty x.a x.mods.na) (r.fval x.ty x.b x.mods.nb) x.mods.w
    (r.raise1 p.2).map fun r => r.writeG x.d (BitVec.ofNat 64 p.1)

/-- FCLASS (R228). -/
def execFclass (x : RFields) (s : State) : Host.Outcome State Fault Refusal :=
  runRegs (.fclass x) s fun r => .ok (r.writeG x.d (BitVec.ofNat 64 ((tyFmt x.ty).classMask (r.fpat x.ty x.a false))))

/-- FCVT (R229). -/
def execFcvt (x : CvtFields) (s : State) : Host.Outcome State Fault Refusal :=
  runRegs (.fcvt x) s fun r =>
    let p := convertPat x.ty x.src ((r.readG x.a).toNat % 2 ^ x.src.bits) (r.mode x.mods.rnd) x.mods.sat (r.sr 0 0)
    (r.raise1 p.2).map fun r => (r.writeG x.d (widen x.ty p.1)).counted x.mods.rnd

/-- FSGN (R230). -/
def execFsgn (x : RFields) (s : State) : Host.Outcome State Fault Refusal :=
  runRegs (.fsgn x) s fun r =>
    let F := tyFmt x.ty
    let a := r.fpat x.ty x.a false
    let n := F.signOf (r.fpat x.ty x.b x.mods.nb)
    .ok (r.writeG x.d (BitVec.ofNat 64 (F.withSign a (if x.mods.w then F.signOf a != n else n))))

/-- FMVI (R230). -/
def execFmvi (x : IFields) (s : State) : Host.Outcome State Fault Refusal :=
  runRegs (.fmvi x) s fun r => r.putFloat x.d x.mods.rnd (r.immFloat x.ty x.mods x.imm)

/-- FRND (R231). -/
def execFrnd (x : RFields) (s : State) : Host.Outcome State Fault Refusal :=
  runRegs (.frnd x) s fun r => r.roundHere x

/-- FSCL (R231). -/
def execFscl (x : RFields) (s : State) : Host.Outcome State Fault Refusal :=
  runRegs (.fscl x) s fun r => r.putExact x.ty x.d x.mods (exactScale (r.fval x.ty x.a x.mods.na) (r.readG x.b).toInt)

/-- FFLG (R232). -/
def execFflg (x : RFields) (s : State) : Host.Outcome State Fault Refusal :=
  runRegs (.fflg x) s fun r => r.raiseFrom x

end Sys2Proof.Machine
end

