-- ==== Sys2Proof/Machine/ScalarInt.lean ====
section
/-! DEFINITION. The scalar integer instructions (11 R218 to R224). -/

namespace Sys2Proof.Machine

/-! ### Exact values -/

/-- DIV: towards zero; all ones for a zero divisor (R219). -/
def divInt (t : Ty) (x y : Int) : Int := if y = 0 then (if t.signed then -1 else intMax t) else x.tdiv y

/-- REM: the sign of the dividend; the dividend for a zero divisor (R219). -/
def remInt (x y : Int) : Int := if y = 0 then x else x.tmod y

/-- MULH: the high half (R218). -/
def mulHigh (t : Ty) (x y : Int) : Int := x * y / (2 ^ t.bits : Nat)

/-- SHL: x * 2^s; a count of 64 or more leaves every range (R220). -/
def shlInt (x : Int) (s : Nat) : Int := x * (2 ^ min s 64 : Nat)

/-- SHR on a pattern (R220). -/
def shrPat (p s : Nat) : Nat := p / 2 ^ min s 64

/-- The signed value of a pattern of `n` bits. -/
def signedPat (n p : Nat) : Int := if 2 ^ (n - 1) ≤ p then (p : Int) - (2 ^ n : Nat) else p

/-- SAR on a pattern: the floor of the signed pattern over 2^s (R220). -/
def sarPat (n p s : Nat) : Nat := ((signedPat n p / (2 ^ min s 64 : Nat)) % (2 ^ n : Nat)).toNat

/-- ROT: left by s mod n (R220). -/
def rotPat (n p s : Nat) : Nat := (p * 2 ^ (s % n) + p / 2 ^ (n - s % n)) % 2 ^ n

/-- The relation mask of integers (R222): LT 1, EQ 2, GT 4. -/
def relInt (x y : Int) : Nat := if x < y then 1 else if x = y then 2 else 4

/-- Leading zeros of a pattern of `n` bits (R218). -/
def clzPat (n p : Nat) : Nat := if p = 0 then n else n - 1 - Nat.log2 p

/-- One bits of a pattern of `n` bits (R218). -/
def popcPat (n p : Nat) : Nat := (List.range n).foldl (fun a i => a + p / 2 ^ i % 2) 0

/-- ANDN on patterns (R218). -/
def andnPat (n x y : Nat) : Nat := x &&& (2 ^ n - 1 - y)

/-- A signed or unsigned bit field of `len` bits at `pos` (R221). -/
def bextPat (t : Ty) (p pos len : Nat) : Nat :=
  let f := p / 2 ^ pos % 2 ^ len
  if t.signed then ((signedPat len f) % (2 ^ t.bits : Nat)).toNat else f

/-- A bit field replaced (R221). -/
def binsPat (p x pos len : Nat) : Nat := p - p / 2 ^ pos % 2 ^ len * 2 ^ pos + x % 2 ^ len * 2 ^ pos

/-! ### Shapes -/

/-- An arithmetic instruction on two registers, wrapping or saturating (R218). -/
def Regs.arith (r : Regs) (x : RFields) (f : Int → Int → Int) : Except Stop Regs :=
  r.putInt x.ty x.d x.mods.sat (f (r.int x.ty x.a) (r.int x.ty x.b))

/-- An instruction on the patterns of two registers. -/
def Regs.onPats (r : Regs) (x : RFields) (f : Nat → Nat → Nat) : Except Stop Regs :=
  .ok (r.putPat x.ty x.d (f (r.pat x.ty x.a) (r.pat x.ty x.b)))

/-- A shift of a pattern by g[b] (R220). -/
def Regs.shiftPat (r : Regs) (x : RFields) (f : Nat → Nat → Nat) : Except Stop Regs :=
  .ok (r.putPat x.ty x.d (f (r.pat x.ty x.a) (r.readG x.b).toNat))

/-- An arithmetic instruction with an immediate (R223). -/
def Regs.arithImm (r : Regs) (x : IFields) (f : Int → Int → Int) : Except Stop Regs :=
  r.putInt x.ty x.d x.mods.sat (f (r.int x.ty x.a) (immInt x.ty x.imm))

/-- An instruction on patterns with an immediate (R223). -/
def Regs.patImm (r : Regs) (x : IFields) (f : Nat → Nat → Nat) : Except Stop Regs :=
  .ok (r.putPat x.ty x.d (f (r.pat x.ty x.a) (intPat x.ty (immInt x.ty x.imm))))

/-- The bit field of BEXT and BINS, or trap 0x09 with position and length (R221). -/
def Regs.bitField (r : Regs) (x : RFields) : Except Stop (Nat × Nat) :=
  let pos := (r.readG x.b).toNat
  let len := (r.readG x.c).toNat
  if 1 ≤ len ∧ pos + len ≤ x.ty.bits then .ok (pos, len) else .error (trapAux 0x09 pos len)

/-! ### Meanings -/

/-- ADD (R218). -/
def execAdd (x : RFields) (s : State) : Host.Outcome State Fault Refusal :=
  runRegs (.add x) s fun r => r.arith x fun a b => a + b

/-- SUB (R218). -/
def execSub (x : RFields) (s : State) : Host.Outcome State Fault Refusal :=
  runRegs (.sub x) s fun r => r.arith x fun a b => a - b

/-- MUL (R218). -/
def execMul (x : RFields) (s : State) : Host.Outcome State Fault Refusal :=
  runRegs (.mul x) s fun r => r.arith x fun a b => a * b

/-- MULH (R218). -/
def execMulh (x : RFields) (s : State) : Host.Outcome State Fault Refusal :=
  runRegs (.mulh x) s fun r => r.arith x (mulHigh x.ty)

/-- DIV (R219; log 130). -/
def execDiv (x : RFields) (s : State) : Host.Outcome State Fault Refusal :=
  runRegs (.div x) s fun r => r.arith x (divInt x.ty)

/-- REM (R219). -/
def execRem (x : RFields) (s : State) : Host.Outcome State Fault Refusal :=
  runRegs (.rem x) s fun r => r.arith x remInt

/-- AND (R218). -/
def execAnd (x : RFields) (s : State) : Host.Outcome State Fault Refusal :=
  runRegs (.and x) s fun r => r.onPats x fun a b => a &&& b

/-- OR (R218). -/
def execOr (x : RFields) (s : State) : Host.Outcome State Fault Refusal :=
  runRegs (.or x) s fun r => r.onPats x fun a b => a ||| b

/-- XOR (R218). -/
def execXor (x : RFields) (s : State) : Host.Outcome State Fault Refusal :=
  runRegs (.xor x) s fun r => r.onPats x fun a b => a ^^^ b

/-- ANDN (R218). -/
def execAndn (x : RFields) (s : State) : Host.Outcome State Fault Refusal :=
  runRegs (.andn x) s fun r => r.onPats x (andnPat x.ty.bits)

/-- SHL (R220). -/
def execShl (x : RFields) (s : State) : Host.Outcome State Fault Refusal :=
  runRegs (.shl x) s fun r => r.putInt x.ty x.d x.mods.sat (shlInt (r.int x.ty x.a) (r.readG x.b).toNat)

/-- SHR (R220). -/
def execShr (x : RFields) (s : State) : Host.Outcome State Fault Refusal :=
  runRegs (.shr x) s fun r => r.shiftPat x shrPat

/-- SAR (R220). -/
def execSar (x : RFields) (s : State) : Host.Outcome State Fault Refusal :=
  runRegs (.sar x) s fun r => r.shiftPat x (sarPat x.ty.bits)

/-- ROT (R220). -/
def execRot (x : RFields) (s : State) : Host.Outcome State Fault Refusal :=
  runRegs (.rot x) s fun r => r.shiftPat x (rotPat x.ty.bits)

/-- MIN (R218). -/
def execMin (x : RFields) (s : State) : Host.Outcome State Fault Refusal :=
  runRegs (.min x) s fun r => r.arith x fun a b => if a ≤ b then a else b

/-- MAX (R218). -/
def execMax (x : RFields) (s : State) : Host.Outcome State Fault Refusal :=
  runRegs (.max x) s fun r => r.arith x fun a b => if a ≤ b then b else a

/-- CMP (R222). -/
def execCmp (x : RFields) (s : State) : Host.Outcome State Fault Refusal :=
  runRegs (.cmp x) s fun r => .ok (r.writeG x.d (BitVec.ofNat 64 (relInt (r.int x.ty x.a) (r.int x.ty x.b))))

/-- SEL (R218). -/
def execSel (x : RFields) (s : State) : Host.Outcome State Fault Refusal :=
  runRegs (.sel x) s fun r => .ok (r.putPat x.ty x.d (if r.int x.ty x.c ≠ 0 then r.pat x.ty x.a else r.pat x.ty x.b))

/-- CLZ (R218). -/
def execClz (x : RFields) (s : State) : Host.Outcome State Fault Refusal :=
  runRegs (.clz x) s fun r => .ok (r.putPat x.ty x.d (clzPat x.ty.bits (r.pat x.ty x.a)))

/-- POPC (R218). -/
def execPopc (x : RFields) (s : State) : Host.Outcome State Fault Refusal :=
  runRegs (.popc x) s fun r => .ok (r.putPat x.ty x.d (popcPat x.ty.bits (r.pat x.ty x.a)))

/-- BEXT (R221). -/
def execBext (x : RFields) (s : State) : Host.Outcome State Fault Refusal :=
  runRegs (.bext x) s fun r => (r.bitField x).map fun f => r.putPat x.ty x.d (bextPat x.ty (r.pat x.ty x.a) f.1 f.2)

/-- BINS (R221). -/
def execBins (x : RFields) (s : State) : Host.Outcome State Fault Refusal :=
  runRegs (.bins x) s fun r => (r.bitField x).map fun f => r.putPat x.ty x.d (binsPat (r.pat x.ty x.d) (r.pat x.ty x.a) f.1 f.2)

/-- ADDS (R218). -/
def execAdds (x : RFields) (s : State) : Host.Outcome State Fault Refusal :=
  runRegs (.adds x) s fun r => r.arith x fun a b => a + b * r.int x.ty x.c

/-- ADDI (R223). -/
def execAddi (x : IFields) (s : State) : Host.Outcome State Fault Refusal :=
  runRegs (.addi x) s fun r => r.arithImm x fun a b => a + b

/-- ANDI (R223). -/
def execAndi (x : IFields) (s : State) : Host.Outcome State Fault Refusal :=
  runRegs (.andi x) s fun r => r.patImm x fun a b => a &&& b

/-- ORI (R223). -/
def execOri (x : IFields) (s : State) : Host.Outcome State Fault Refusal :=
  runRegs (.ori x) s fun r => r.patImm x fun a b => a ||| b

/-- XORI (R223). -/
def execXori (x : IFields) (s : State) : Host.Outcome State Fault Refusal :=
  runRegs (.xori x) s fun r => r.patImm x fun a b => a ^^^ b

/-- SHLI (R223). -/
def execShli (x : IFields) (s : State) : Host.Outcome State Fault Refusal :=
  runRegs (.shli x) s fun r => r.putInt x.ty x.d x.mods.sat (shlInt (r.int x.ty x.a) x.imm.toNat)

/-- SHRI (R223). -/
def execShri (x : IFields) (s : State) : Host.Outcome State Fault Refusal :=
  runRegs (.shri x) s fun r => .ok (r.putPat x.ty x.d (shrPat (r.pat x.ty x.a) x.imm.toNat))

/-- SARI (R223). -/
def execSari (x : IFields) (s : State) : Host.Outcome State Fault Refusal :=
  runRegs (.sari x) s fun r => .ok (r.putPat x.ty x.d (sarPat x.ty.bits (r.pat x.ty x.a) x.imm.toNat))

/-- CMPI (R223). -/
def execCmpi (x : IFields) (s : State) : Host.Outcome State Fault Refusal :=
  runRegs (.cmpi x) s fun r => .ok (r.writeG x.d (BitVec.ofNat 64 (relInt (r.int x.ty x.a) (immInt x.ty x.imm))))

/-- LIL (R224). -/
def execLil (x : LFields) (s : State) : Host.Outcome State Fault Refusal :=
  runRegs (.lil x) s fun r => .ok (r.writeG x.d (x.imm.signExtend 64))

end Sys2Proof.Machine
end

