-- ==== Sys2Proof/Machine/Vector.lean ====
section
/-! DEFINITION. The element-wise vector instructions (11 R233 to R238). -/

namespace Sys2Proof.Machine

/-! ### Shapes -/

/-- The predicate of an instruction. -/
def Regs.pmask (r : Regs) (pm : Fin 16) : Dword := r.pr pm

/-- A source vector. -/
def Regs.vec (r : Regs) (x : Reg) : Except Stop VReg := (r.vecNum x).map fun n => r.v.get n

/-- An element of a vector as an integer, and as a value with an optional negation. -/
def elemInt (t : Ty) (v : VReg) (i : Nat) : Int := intVal t (velem v t.bits i)
def elemPat (t : Ty) (neg : Bool) (v : VReg) (i : Nat) : Nat :=
  if t.isFloat then (tyFmt t).negate neg (velem v t.bits i) else velem v t.bits i
def elemVal (t : Ty) (neg : Bool) (v : VReg) (i : Nat) : FVal := (tyFmt t).value (elemPat t neg v i)

/-- The instruction counts when the type rounds (10 R206). -/
def Regs.countedFor (r : Regs) (t : Ty) (m : Rnd) : Regs := if t.isFloat then r.counted m else r

/-- A result for every enabled element of type `t` (R215, R233). -/
def Regs.each (r : Regs) (t : Ty) (d : Fin 64) (pm : Fin 16) (f : Nat → Nat × Nat) : Except Stop Regs :=
  r.putVec d t.bits (elems t.bits) (laneOn (r.pmask pm) t.bits) f

/-- An exact float result rounded for element `i`. -/
def Regs.rounded (r : Regs) (t : Ty) (m : Mods) (i : Nat) (e : Exact) : Nat × Nat :=
  (tyFmt t).result e (r.mode m.rnd) m.sat (r.sr 0 i)

/-- Arithmetic on two vectors: an integer form that wraps or saturates, and a float form that rounds once. -/
def Regs.vecArith (r : Regs) (x : RFields) (fi : Int → Int → Int) (ff : FVal → FVal → Rnd → Exact) : Except Stop Regs := do
  let d ← r.vecNum x.d
  let a ← r.vec x.a
  let b ← r.vec x.b
  let r1 ← r.each x.ty d x.pm fun i =>
    if x.ty.isInt then intDeliver x.ty x.mods.sat (fi (elemInt x.ty a i) (elemInt x.ty b i))
    else r.rounded x.ty x.mods i (ff (elemVal x.ty x.mods.na a i) (elemVal x.ty x.mods.nb b i) (r.mode x.mods.rnd))
  return r1.countedFor x.ty x.mods.rnd

/-- Arithmetic on a vector and a general register (R235). -/
def Regs.vecScalar (r : Regs) (x : RFields) (fi : Int → Int → Int) (ff : FVal → FVal → Rnd → Exact) : Except Stop Regs := do
  let d ← r.vecNum x.d
  let a ← r.vec x.a
  let y := (tyFmt x.ty).value (r.fpat x.ty x.b x.mods.nb)
  let r1 ← r.each x.ty d x.pm fun i =>
    if x.ty.isInt then intDeliver x.ty x.mods.sat (fi (elemInt x.ty a i) (r.int x.ty x.b))
    else r.rounded x.ty x.mods i (ff (elemVal x.ty x.mods.na a i) y (r.mode x.mods.rnd))
  return r1.countedFor x.ty x.mods.rnd

/-- A float function of one vector that rounds once (R234). -/
def Regs.vecFun (r : Regs) (x : RFields) (f : FVal → Exact) : Except Stop Regs := do
  let d ← r.vecNum x.d
  let a ← r.vec x.a
  let r1 ← r.each x.ty d x.pm fun i => r.rounded x.ty x.mods i (f (elemVal x.ty x.mods.na a i))
  return r1.counted x.mods.rnd

/-- A function of the patterns of one vector, without rounding. -/
def Regs.vecPat1 (r : Regs) (x : RFields) (f : Nat → Nat × Nat) : Except Stop Regs := do
  let d ← r.vecNum x.d
  let a ← r.vec x.a
  r.each x.ty d x.pm fun i => f (velem a x.ty.bits i)

/-- A function of the patterns of two vectors, without rounding; a float form sees its negations. -/
def Regs.vecPat2 (r : Regs) (x : RFields) (f : Nat → Nat → Nat × Nat) : Except Stop Regs := do
  let d ← r.vecNum x.d
  let a ← r.vec x.a
  let b ← r.vec x.b
  r.each x.ty d x.pm fun i => f (elemPat x.ty x.mods.na a i) (elemPat x.ty x.mods.nb b i)

/-- Minimum and maximum of elements (R218, R226). -/
def minMaxPat (t : Ty) (wantMax : Bool) (a b : Nat) : Nat × Nat :=
  if t.isInt then
    (if decide (intVal t a ≤ intVal t b) != wantMax then a else b, 0)
  else (tyFmt t).minMax wantMax a b

/-- VABS and VNEG (R233): floats move bits only. -/
def absPat (t : Ty) (sat : Bool) (a : Nat) : Nat × Nat :=
  if t.isInt then intDeliver t sat (intVal t a).natAbs else ((tyFmt t).withSign a false, 0)
def negPat (t : Ty) (sat : Bool) (a : Nat) : Nat × Nat :=
  if t.isInt then intDeliver t sat (-(intVal t a)) else ((tyFmt t).withSign a (!(tyFmt t).signOf a), 0)

/-! ### Immediates (R235) -/

/-- VADDI and VMULI on E2M1 blocks: 32 exact values, encoded by R204 with their scale. -/
def Regs.blockImm (r : Regs) (x : IFields) (ff : FVal → FVal → Rnd → Exact) : Except Stop Regs := do
  let d ← r.vecNum x.d
  let an ← r.vecNum x.a
  let a := r.v.get an
  let sc := r.v.get (partner an)
  let y := fmtB16.value x.imm.toNat
  let m := r.mode x.mods.rnd
  let blocks := (List.range 16).map fun b =>
    let es := (List.range 32).map fun i => ff (blockVal (scaleOf sc b) (velem a 4 (32 * b + i))) y m
    encodeBlock (es.map Exact.v) m x.mods.sat fun i => r.sr 0 (32 * b + i)
  let on := blockOn (r.pmask x.pm)
  let el := fun i => match blocks[i / 32]? with | some k => (k.2[i % 32]?).getD (0, 0) | none => (0, 0)
  let fl := (List.range 512).filterMap fun i => if on (i / 32) then some (i, (el i).2) else none
  let r1 ← r.raise fl
  return (r1.putBlocks d on (fun i => (el i).1) fun b => (blocks[b]?).elim 0 (·.1)).counted x.mods.rnd

/-- VADDI and VMULI (R235): the immediate is converted once; flags that its conversion raises count against element 0 (log 121). -/
def Regs.vecImm (r : Regs) (x : IFields) (fi : Int → Int → Int) (ff : FVal → FVal → Rnd → Exact) : Except Stop Regs :=
  if x.ty = .e2m1 then r.blockImm x ff
  else do
    let d ← r.vecNum x.d
    let a ← r.vec x.a
    if x.ty.isInt then
      r.each x.ty d x.pm fun i => intDeliver x.ty x.mods.sat (fi (elemInt x.ty a i) (immInt x.ty x.imm))
    else
      let y := r.immFloat x.ty x.mods x.imm
      let on := laneOn (r.pmask x.pm) x.ty.bits
      let f := fun i => r.rounded x.ty x.mods i (ff (elemVal x.ty x.mods.na a i) ((tyFmt x.ty).value y.1) (r.mode x.mods.rnd))
      let rs := elemResults (elems x.ty.bits) on f
      let r1 ← r.raise ((0, y.2) :: rs.map fun z => (z.1, z.2.2))
      return (r1.putElems d x.ty.bits on fun i => (f i).1).counted x.mods.rnd

/-! ### VDOT (R236) -/

/-- The lane type of an element type. -/
def dotLane (t : Ty) : Ty := if t.isFloat then .f32 else if t.signed then .i32 else .n32

/-- Lane `i` of VDOT. -/
def Regs.dotLane (r : Regs) (x : RFields) (a b c : VReg) (i : Nat) : Nat × Nat :=
  let n := 32 / x.ty.bits
  let ks := (List.range n).map fun j => n * i + j
  let t := Machine.dotLane x.ty
  if x.ty.isInt then
    intDeliver t x.mods.sat (ks.foldl (fun s k => s + elemInt x.ty a k * elemInt x.ty b k) (elemInt t c i))
  else
    let m := r.mode x.mods.rnd
    let ps := ks.map fun k => exactMul (elemVal x.ty x.mods.na a k) (elemVal x.ty x.mods.nb b k)
    let c0 : Exact := match elemVal .f32 x.mods.nc c i with
      | .nan sig => { v := .nan false, fl := if sig then flNV ||| flSN else 0 }
      | v => { v := v, fl := 0 }
    fmt32.result (exactSum (c0 :: ps) m) m x.mods.sat (r.sr 0 i)

/-! ### Conversions (R237, R238) -/

/-- A source element of a conversion as a value, with the scale of its block for E2M1. -/
def srcVal (t : Ty) (a sc : VReg) (i : Nat) : FVal :=
  if t = .e2m1 then blockVal (scaleOf sc (i / 32)) (velem a 4 i) else patVal t (velem a t.bits i)

/-- One converted element that is not E2M1: integers to integers stay exact integers. -/
def convertElem (dst src : Ty) (a sc : VReg) (i : Nat) (m : Rnd) (sat : Bool) (sr : Nat) : Nat × Nat :=
  if src = .e2m1 then deliverTo dst (srcVal src a sc i) m sat sr else convertPat dst src (velem a src.bits i) m sat sr

/-- Groups of 32 values encoded as blocks from block `b0` of vD on; a group is written when all its 32 elements are enabled. -/
def Regs.putGroups (r : Regs) (d : Fin 64) (b0 n : Nat) (on : Nat → Bool) (f : Nat → Exact) (m : Rnd) (sat : Bool) :
    Except Stop Regs :=
  let groupOn := fun (g : Nat) => (List.range 32).all fun i => on (32 * g + i)
  let groups := (List.range n).map fun g =>
    let es := (List.range 32).map fun i => f (32 * g + i)
    let k := encodeBlock (es.map Exact.v) m sat fun i => r.sr 0 (32 * (b0 + g) + i)
    (k.1, (k.2.zip es).map fun z => (z.1.1, z.1.2 ||| z.2.fl))
  let el := fun (i : Nat) => match groups[i / 32 - b0]? with | some k => (k.2[i % 32]?).getD (0, 0) | none => (0, 0)
  let onB := fun (b : Nat) => decide (b0 ≤ b ∧ b < b0 + n) && groupOn (b - b0)
  let fl := (List.range (32 * n)).filterMap fun i => if groupOn (i / 32) then some (32 * b0 + i, (el (32 * b0 + i)).2) else none
  (r.raise fl).map fun r1 => r1.putBlocks d onB (fun i => (el i).1) fun b => (groups[b - b0]?).elim 0 (·.1)

/-- A value as an operand of a conversion: a signalling NaN is noted. -/
def operandExact (v : FVal) : Exact :=
  match v with
  | .nan sig => { v := .nan false, fl := if sig then flNV ||| flSN else 0 }
  | v => { v := v, fl := 0 }

/-- VCVT (R237). -/
def Regs.convertVec (r : Regs) (x : CvtFields) : Except Stop Regs := do
  let d ← r.vecNum x.d
  let an ← r.vecNum x.a
  let a := r.v.get an
  let sc := r.v.get (partner an)
  let w := max x.ty.bits x.src.bits
  let m := 2048 / w
  let so := if x.mods.w && decide (x.src.bits < x.ty.bits) then m else 0
  let off := if x.mods.w && decide (x.ty.bits < x.src.bits) then m else 0
  let on := fun (e : Nat) => (r.pmask x.pm).getLsbD (e * w / 32)
  let rm := r.mode x.mods.rnd
  if x.ty = .e2m1 then
    let r1 ← r.putGroups d (off / 32) (m / 32) on (fun e => operandExact (srcVal x.src a sc (e + so))) rm x.mods.sat
    return r1.counted x.mods.rnd
  else
    let f := fun (e : Nat) => convertElem x.ty x.src a sc (e + so) rm x.mods.sat (r.sr 0 (e + off))
    let r1 ← r.raise ((elemResults m on f).map fun z => (z.1 + off, z.2.2))
    return (r1.putElems d x.ty.bits (fun i => decide (off ≤ i ∧ i < off + m) && on (i - off)) fun i => (f (i - off)).1).counted x.mods.rnd

/-- The scale of VQNT and VDQT: g[b] as F32 (R238). -/
def Regs.scaleOperand (r : Regs) (x : RFields) : FVal := r.fval .f32 x.b false

/-- VQNT (R238). -/
def Regs.quantise (r : Regs) (x : RFields) : Except Stop Regs := do
  let d ← r.vecNum x.d
  let a ← r.vec x.a
  let off := if x.mods.w then 64 else 0
  let on := laneOn (r.pmask x.pm) 32
  let rm := r.mode x.mods.rnd
  let p := fun (e : Nat) => exactMul (elemVal .f32 false a e) (r.scaleOperand x)
  if x.ty = .e2m1 then
    let r1 ← r.putGroups d (off / 32) 2 on p rm x.mods.sat
    return r1.counted x.mods.rnd
  else
    let f := fun (e : Nat) =>
      let q := deliverTo x.ty (p e).v rm x.mods.sat (r.sr 0 (e + off))
      (q.1, q.2 ||| (p e).fl)
    let r1 ← r.raise ((elemResults 64 on f).map fun z => (z.1 + off, z.2.2))
    return (r1.putElems d x.ty.bits (fun i => decide (off ≤ i ∧ i < off + 64) && on (i - off)) fun i => (f (i - off)).1).counted x.mods.rnd

/-- VDQT (R238). -/
def Regs.dequantise (r : Regs) (x : RFields) : Except Stop Regs := do
  let d ← r.vecNum x.d
  let an ← r.vecNum x.a
  let a := r.v.get an
  let sc := r.v.get (partner an)
  let off := if x.mods.w then 64 else 0
  let rm := r.mode x.mods.rnd
  let r1 ← r.putVec d 32 64 (laneOn (r.pmask x.pm) 32) fun e =>
    fmt32.result (exactMul (srcVal x.ty a sc (e + off)) (r.scaleOperand x)) rm x.mods.sat (r.sr 0 e)
  return r1.counted x.mods.rnd

/-! ### Meanings -/

/-- VADD (R233). -/
def execVadd (x : RFields) (s : State) : Host.Outcome State Fault Refusal :=
  runRegs (.vadd x) s fun r => r.vecArith x (fun a b => a + b) exactAdd

/-- VSUB (R233). -/
def execVsub (x : RFields) (s : State) : Host.Outcome State Fault Refusal :=
  runRegs (.vsub x) s fun r => r.vecArith x (fun a b => a - b) fun a b m => exactAdd a b.neg m

/-- VMUL (R233). -/
def execVmul (x : RFields) (s : State) : Host.Outcome State Fault Refusal :=
  runRegs (.vmul x) s fun r => r.vecArith x (fun a b => a * b) fun a b _ => exactMul a b

/-- VFMA (R233). -/
def execVfma (x : RFields) (s : State) : Host.Outcome State Fault Refusal :=
  runRegs (.vfma x) s fun r => do
    let d ← r.vecNum x.d
    let a ← r.vec x.a
    let b ← r.vec x.b
    let c ← r.vec x.c
    let r1 ← r.each x.ty d x.pm fun i =>
      if x.ty.isInt then intDeliver x.ty x.mods.sat (elemInt x.ty a i * elemInt x.ty b i + elemInt x.ty c i)
      else r.rounded x.ty x.mods i (exactFma (elemVal x.ty x.mods.na a i) (elemVal x.ty x.mods.nb b i)
        (elemVal x.ty x.mods.nc c i) (r.mode x.mods.rnd))
    return r1.countedFor x.ty x.mods.rnd

/-- VDIV (R233). -/
def execVdiv (x : RFields) (s : State) : Host.Outcome State Fault Refusal :=
  runRegs (.vdiv x) s fun r => r.vecArith x (divInt x.ty) fun a b _ => exactDiv a b

/-- VSQRT (R234). -/
def execVsqrt (x : RFields) (s : State) : Host.Outcome State Fault Refusal :=
  runRegs (.vsqrt x) s fun r => r.vecFun x exactSqrt

/-- VRCP (R234). -/
def execVrcp (x : RFields) (s : State) : Host.Outcome State Fault Refusal :=
  runRegs (.vrcp x) s fun r => r.vecFun x exactRcp

/-- VRSQ (R234). -/
def execVrsq (x : RFields) (s : State) : Host.Outcome State Fault Refusal :=
  runRegs (.vrsq x) s fun r => r.vecFun x exactRsqrt

/-- VMIN (R233). -/
def execVmin (x : RFields) (s : State) : Host.Outcome State Fault Refusal :=
  runRegs (.vmin x) s fun r => r.vecPat2 x (minMaxPat x.ty false)

/-- VMAX (R233). -/
def execVmax (x : RFields) (s : State) : Host.Outcome State Fault Refusal :=
  runRegs (.vmax x) s fun r => r.vecPat2 x (minMaxPat x.ty true)

/-- VABS (R233). -/
def execVabs (x : RFields) (s : State) : Host.Outcome State Fault Refusal :=
  runRegs (.vabs x) s fun r => r.vecPat1 x (absPat x.ty x.mods.sat)

/-- VNEG (R233). -/
def execVneg (x : RFields) (s : State) : Host.Outcome State Fault Refusal :=
  runRegs (.vneg x) s fun r => r.vecPat1 x (negPat x.ty x.mods.sat)

/-- VAND (R233). -/
def execVand (x : RFields) (s : State) : Host.Outcome State Fault Refusal :=
  runRegs (.vand x) s fun r => r.vecPat2 x fun a b => (a &&& b, 0)

/-- VOR (R233). -/
def execVor (x : RFields) (s : State) : Host.Outcome State Fault Refusal :=
  runRegs (.vor x) s fun r => r.vecPat2 x fun a b => (a ||| b, 0)

/-- VXOR (R233). -/
def execVxor (x : RFields) (s : State) : Host.Outcome State Fault Refusal :=
  runRegs (.vxor x) s fun r => r.vecPat2 x fun a b => (a ^^^ b, 0)

/-- VSHL (R233). -/
def execVshl (x : RFields) (s : State) : Host.Outcome State Fault Refusal :=
  runRegs (.vshl x) s fun r => r.vecPat2 x fun a b => intDeliver x.ty x.mods.sat (shlInt (intVal x.ty a) b)

/-- VSHR (R233). -/
def execVshr (x : RFields) (s : State) : Host.Outcome State Fault Refusal :=
  runRegs (.vshr x) s fun r => r.vecPat2 x fun a b => (shrPat a b, 0)

/-- VSAR (R233). -/
def execVsar (x : RFields) (s : State) : Host.Outcome State Fault Refusal :=
  runRegs (.vsar x) s fun r => r.vecPat2 x fun a b => (sarPat x.ty.bits a b, 0)

/-- VCVT (R237). -/
def execVcvt (x : CvtFields) (s : State) : Host.Outcome State Fault Refusal :=
  runRegs (.vcvt x) s fun r => r.convertVec x

/-- VEXP2 (R234). -/
def execVexp2 (x : RFields) (s : State) : Host.Outcome State Fault Refusal :=
  runRegs (.vexp2 x) s fun r => r.vecFun x exactExp2

/-- VLOG2 (R234). -/
def execVlog2 (x : RFields) (s : State) : Host.Outcome State Fault Refusal :=
  runRegs (.vlog2 x) s fun r => r.vecFun x exactLog2

/-- VSCL (R233). -/
def execVscl (x : RFields) (s : State) : Host.Outcome State Fault Refusal :=
  runRegs (.vscl x) s fun r => do
    let d ← r.vecNum x.d
    let a ← r.vec x.a
    let b ← r.vec x.b
    let r1 ← r.each x.ty d x.pm fun i =>
      r.rounded x.ty x.mods i (exactScale (elemVal x.ty x.mods.na a i) (signedPat x.ty.bits (velem b x.ty.bits i)))
    return r1.counted x.mods.rnd

/-- VCLASS (R233). -/
def execVclass (x : RFields) (s : State) : Host.Outcome State Fault Refusal :=
  runRegs (.vclass x) s fun r => r.vecPat1 x fun a => ((tyFmt x.ty).classMask a, 0)

/-- VADDS (R235). -/
def execVadds (x : RFields) (s : State) : Host.Outcome State Fault Refusal :=
  runRegs (.vadds x) s fun r => r.vecScalar x (fun a b => a + b) exactAdd

/-- VSUBS (R235). -/
def execVsubs (x : RFields) (s : State) : Host.Outcome State Fault Refusal :=
  runRegs (.vsubs x) s fun r => r.vecScalar x (fun a b => a - b) fun a b m => exactAdd a b.neg m

/-- VMULH (R233). -/
def execVmulh (x : RFields) (s : State) : Host.Outcome State Fault Refusal :=
  runRegs (.vmulh x) s fun r => r.vecPat2 x fun a b => (intPat x.ty (mulHigh x.ty (intVal x.ty a) (intVal x.ty b)), 0)

/-- VDOT (R236). -/
def execVdot (x : RFields) (s : State) : Host.Outcome State Fault Refusal :=
  runRegs (.vdot x) s fun r => do
    let d ← r.vecNum x.d
    let a ← r.vec x.a
    let b ← r.vec x.b
    let c ← r.vec x.c
    let w := 32
    let r1 ← r.putVec d w 64 (laneOn (r.pmask x.pm) w) (r.dotLane x a b c)
    return r1.countedFor x.ty x.mods.rnd

/-- VADDI (R235). -/
def execVaddi (x : IFields) (s : State) : Host.Outcome State Fault Refusal :=
  runRegs (.vaddi x) s fun r => r.vecImm x (fun a b => a + b) exactAdd

/-- VMULI (R235). -/
def execVmuli (x : IFields) (s : State) : Host.Outcome State Fault Refusal :=
  runRegs (.vmuli x) s fun r => r.vecImm x (fun a b => a * b) fun a b _ => exactMul a b

/-- VQNT (R238). -/
def execVqnt (x : RFields) (s : State) : Host.Outcome State Fault Refusal :=
  runRegs (.vqnt x) s fun r => r.quantise x

/-- VDQT (R238). -/
def execVdqt (x : RFields) (s : State) : Host.Outcome State Fault Refusal :=
  runRegs (.vdqt x) s fun r => r.dequantise x

end Sys2Proof.Machine
end

