-- ==== Sys2Proof/Machine/VectorMove.lean ====
section
/-! DEFINITION. Vector moves, selection and predicates (11 R239 to R243). -/

namespace Sys2Proof.Machine

/-- A function code in 0 to `hi` from a general register, or trap 0x09 (R216). -/
def Regs.code (r : Regs) (x : Reg) (hi : Nat) : Except Stop Nat :=
  if (r.readG x).toNat ≤ hi then .ok (r.readG x).toNat else .error (trapInfo 0x09 (r.readG x).toNat)

/-- Is element `i` of width `w` selected by a predicate operand (R47)? -/
def Regs.selected (r : Regs) (p : Reg) (w i : Nat) : Bool := laneOn (r.readP p) w i

/-- Elements moved: element `i` of width `w` takes the value given. -/
def Regs.move (r : Regs) (d : Fin 64) (w : Nat) (pm : Fin 16) (f : Nat → Nat) : Regs :=
  r.putElems d w (laneOn (r.pmask pm) w) f

/-- Blocks moved with their scales: block `b` takes block `src b` of one of two registers (R203, R239, R240). -/
def Regs.moveBlocks (r : Regs) (d : Fin 64) (pm : Fin 16) (src : Nat → Fin 64 × Nat) : Regs :=
  r.putBlocks d (blockOn (r.pmask pm)) (fun i => velem (r.v.get (src (i / 32)).1) 4 (32 * (src (i / 32)).2 + i % 32))
    fun b => scaleOf (r.v.get (partner (src b).1)) (src b).2

/-- An element index below the number of elements, or trap 0x09 (R239). -/
def Regs.elemIndex (r : Regs) (t : Ty) (x : Reg) : Except Stop Nat :=
  if (r.readG x).toNat < elems t.bits then .ok (r.readG x).toNat else .error (trapInfo 0x09 (r.readG x).toNat)

/-- VSHUF (R240): the source of unit `u` of `m` units: from vB?, and its unit. -/
def shufSrc (code m u : Nat) : Bool × Nat :=
  let h := m / 2
  match code with
  | 0 => (u % 2 == 1, u / 2)
  | 1 => (u % 2 == 1, h + u / 2)
  | 2 => (decide (h ≤ u), 2 * (u % h))
  | _ => (decide (h ≤ u), 2 * (u % h) + 1)

/-- The elements that a predicate selects, in order (R241). -/
def Regs.picked (r : Regs) (p : Reg) (w : Nat) : List Nat := (List.range (elems w)).filter (r.selected p w)

/-- The number of selected elements below `i`. -/
def Regs.rankBelow (r : Regs) (p : Reg) (w i : Nat) : Nat := ((List.range i).filter (r.selected p w)).length

/-- A predicate with bits replaced where `on` holds. -/
def mergeBits (old : Dword) (on val : Nat → Bool) : Dword :=
  BitVec.ofNat 64 ((List.range 64).foldl (fun a i => a + bit (if on i then val i else old.getLsbD i) * 2 ^ i) 0)

/-- The elements that decide bit `i` of a predicate that VCMP writes (R242). -/
def elemsOfBit (w i : Nat) : List Nat :=
  if w = 64 then [i / 2] else (List.range (32 / w)).map fun j => i * (32 / w) + j

/-- VCMP (R242): the relation mask of an element with its flags. -/
def cmpElem (x : RFields) (a b : VReg) (i : Nat) : Nat × Nat :=
  if x.ty.isInt then (relInt (elemInt x.ty a i) (elemInt x.ty b i), 0)
  else relFloat (elemVal x.ty x.mods.na a i) (elemVal x.ty x.mods.nb b i) x.mods.w

def Regs.compareVec (r : Regs) (x : RFields) : Except Stop Regs := do
  let c ← r.code x.c 15
  let a ← r.vec x.a
  let b ← r.vec x.b
  let on := laneOn (r.pmask x.pm) x.ty.bits
  let r1 ← r.raise ((elemResults (elems x.ty.bits) on (cmpElem x a b)).map fun z => (z.1, z.2.2))
  let holds := fun (i : Nat) => (elemsOfBit x.ty.bits i).all fun e => (cmpElem x a b e).1 &&& c != 0
  let onBit := fun (i : Nat) => (elemsOfBit x.ty.bits i).any on
  return r1.writeP x.d (mergeBits (r1.readP x.d) onBit holds)

/-! ### Meanings -/

/-- VCMP (R242). -/
def execVcmp (x : RFields) (s : State) : Host.Outcome State Fault Refusal :=
  runRegs (.vcmp x) s fun r => r.compareVec x

/-- VSEL (R241). -/
def execVsel (x : RFields) (s : State) : Host.Outcome State Fault Refusal :=
  runRegs (.vsel x) s fun r => do
    let d ← r.vecNum x.d
    let a ← r.vec x.a
    let b ← r.vec x.b
    let w := x.ty.bits
    return r.move d w x.pm fun i => if r.selected x.c w i then velem a w i else velem b w i

/-- VBCST (R239). -/
def execVbcst (x : RFields) (s : State) : Host.Outcome State Fault Refusal :=
  runRegs (.vbcst x) s fun r => do
    let d ← r.vecNum x.d
    let g := (r.readG x.a).toNat
    if x.ty = .e2m1 then return r.putBlocks d (blockOn (r.pmask x.pm)) (fun _ => g % 16) fun _ => g / 256 % 256
    else return r.move d x.ty.bits x.pm fun _ => g

/-- VEXT (R239). -/
def execVext (x : RFields) (s : State) : Host.Outcome State Fault Refusal :=
  runRegs (.vext x) s fun r => do
    let a ← r.vec x.a
    let i ← r.elemIndex x.ty x.b
    return r.writeG x.d (widen x.ty (velem a x.ty.bits i))

/-- VINS (R239). -/
def execVins (x : RFields) (s : State) : Host.Outcome State Fault Refusal :=
  runRegs (.vins x) s fun r => do
    let d ← r.vecNum x.d
    let i ← r.elemIndex x.ty x.b
    return r.putElems d x.ty.bits (fun j => j == i && laneOn (r.pmask x.pm) x.ty.bits j) fun _ => (r.readG x.a).toNat

/-- VIDX (R239). -/
def execVidx (x : RFields) (s : State) : Host.Outcome State Fault Refusal :=
  runRegs (.vidx x) s fun r => do
    let d ← r.vecNum x.d
    return r.move d x.ty.bits x.pm fun i => (r.readG x.a).toNat + i * (r.readG x.b).toNat

/-- VPERM (R240). -/
def execVperm (x : RFields) (s : State) : Host.Outcome State Fault Refusal :=
  runRegs (.vperm x) s fun r => do
    let d ← r.vecNum x.d
    let an ← r.vecNum x.a
    let b ← r.vec x.b
    let w := x.ty.bits
    if x.ty = .e2m1 then return r.moveBlocks d x.pm fun k => (an, velem b 8 k % 16)
    else return r.move d w x.pm fun i => velem (r.v.get an) w (velem b w i % elems w)

/-- VSHUF (R240). -/
def execVshuf (x : RFields) (s : State) : Host.Outcome State Fault Refusal :=
  runRegs (.vshuf x) s fun r => do
    let c ← r.code x.c 3
    let d ← r.vecNum x.d
    let an ← r.vecNum x.a
    let bn ← r.vecNum x.b
    let w := x.ty.bits
    let pick := fun (m u : Nat) => let z := shufSrc c m u; (if z.1 then bn else an, z.2)
    if x.ty = .e2m1 then return r.moveBlocks d x.pm (pick 16)
    else return r.move d w x.pm fun i => velem (r.v.get (pick (elems w) i).1) w (pick (elems w) i).2

/-- VCMPR (R241). -/
def execVcmpr (x : RFields) (s : State) : Host.Outcome State Fault Refusal :=
  runRegs (.vcmpr x) s fun r => do
    let d ← r.vecNum x.d
    let a ← r.vec x.a
    let w := x.ty.bits
    let s := r.picked x.b w
    return r.move d w x.pm fun i => match s[i]? with | some e => velem a w e | none => 0

/-- VEXPN (R241). -/
def execVexpn (x : RFields) (s : State) : Host.Outcome State Fault Refusal :=
  runRegs (.vexpn x) s fun r => do
    let d ← r.vecNum x.d
    let a ← r.vec x.a
    let w := x.ty.bits
    return r.move d w x.pm fun i => if r.selected x.b w i then velem a w (r.rankBelow x.b w i) else 0

/-- VPCNT (R243). -/
def execVpcnt (x : RFields) (s : State) : Host.Outcome State Fault Refusal :=
  runRegs (.vpcnt x) s fun r =>
    .ok (r.writeG x.d (BitVec.ofNat 64 (r.picked x.a x.ty.bits).length))

/-- PLOG (R243). -/
def execPlog (x : RFields) (s : State) : Host.Outcome State Fault Refusal :=
  runRegs (.plog x) s fun r => do
    let t ← r.code x.c 15
    let on := fun (i : Nat) => (r.pmask x.pm).getLsbD i
    let val := fun (i : Nat) => t.testBit (2 * bit ((r.readP x.a).getLsbD i) + bit ((r.readP x.b).getLsbD i))
    return r.writeP x.d (mergeBits (r.readP x.d) on val)

/-- VMOV (R239). -/
def execVmov (x : RFields) (s : State) : Host.Outcome State Fault Refusal :=
  runRegs (.vmov x) s fun r => do
    let d ← r.vecNum x.d
    let an ← r.vecNum x.a
    if x.ty = .e2m1 then return r.moveBlocks d x.pm fun k => (an, k)
    else return r.move d x.ty.bits x.pm (velem (r.v.get an) x.ty.bits)

end Sys2Proof.Machine
end

