-- ==== Sys2Proof/Machine/Matrix.lean ====
section
/-! DEFINITION. The matrix engine (12): accumulators, panels, the accumulation order, the recurrent mode, accumulator transfers
and FP64 by slices. -/

namespace Sys2Proof.Machine

/-! ### Accumulators (R249 to R251) -/

/-- Checksums of accumulator contents (R275): the sums of columns and of rows, as 32-bit words (log 14). -/
def sumCols (e : Vector Lane 2048) : Vector Lane 32 :=
  Vector.ofFn fun j : Fin 32 => (List.range 64).foldl (fun a i => a + (e.toArray[32 * i + j.val]?).getD 0) 0
def sumRows (e : Vector Lane 2048) : Vector Lane 64 :=
  Vector.ofFn fun i : Fin 64 => (List.range 32).foldl (fun a j => a + (e.toArray[32 * i.val + j]?).getD 0) 0

/-- The checksums brought into line with the contents. -/
def Acc.resum (a : Acc) : Acc := { a with chkRow := sumCols a.e, chkCol := sumRows a.e }

/-- Do the kept checksums agree with the contents? -/
def Acc.agrees (a : Acc) : Bool := decide (a.chkRow = sumCols a.e ∧ a.chkCol = sumRows a.e)

/-- The odd accumulator of a pair. -/
def oddOf (n : Fin 4) : Fin 4 := n + 1

/-- Element `i` of an accumulator, or of the pair it names (R249). -/
def Regs.accPat (r : Regs) (n : Fin 4) (wide : Bool) (i : Nat) : Nat :=
  let lo := ((r.acc.get n).e.toArray[i]?).elim 0 BitVec.toNat
  if wide then lo + (((r.acc.get (oddOf n)).e.toArray[i]?).elim 0 BitVec.toNat) * 2 ^ 32 else lo

/-- What an accumulator's contents are to an instruction (R275). -/
inductive AccKind where
  | i32 | i64 | f32 | f64
deriving DecidableEq, Repr

/-- Two accumulators hold the elements. -/
def AccKind.wide : AccKind → Bool
  | .i64 | .f64 => true
  | _ => false

/-- FL[4] of a status word, and bits [6:5]. -/
def tswNv (t : Lane) : Bool := t.getLsbD 4
def tswMarks (t : Lane) : Nat := t.toNat / 32 % 4 * 32

/-- The status word after an instruction (R251): its flags and the lowest element at which it raised NV, with PSN when it read
poison; `fresh` when it does not take in the old contents. -/
def tswAfter (t : Lane) (fresh psn : Bool) (fl : Nat) (nv : Nat) : Lane :=
  let old := if fresh then 0 else t.toNat % 32
  let idx := if fresh then (if fl / 16 % 2 = 1 then nv else 0) else if tswNv t || fl / 16 % 2 == 0 then t.toNat / 65536 else nv
  BitVec.ofNat 32 ((idx % 65536) * 65536 + (tswMarks t ||| bit psn * 32) + (old ||| fl % 32))

/-- A result element: pattern, flags for FCSR, and flags for the status word. -/
structure MatElem where
  pat : Nat
  fl : Nat
  tfl : Nat
deriving DecidableEq, Repr

/-- A rounded element raises the same flags in both places. -/
def MatElem.ofRounded (p : Nat × Nat) : MatElem := { pat := p.1, fl := p.2, tfl := p.2 % 32 }

/-! ### MPERT (R277) -/

/-- The injected sum. -/
def addPert (isF : Bool) (v d : Nat) : Nat :=
  if isF then (fmt32.result (exactAdd (fmt32.value v) (fmt32.value d) .rne) .rne false 0).1 else (v + d) % 2 ^ 32

/-- |x - y| of two fractions with signs. -/
def absDiff (n1 : Bool) (a b : Nat) (n2 : Bool) (c d : Nat) : Nat × Nat :=
  match addFrac n1 a b (!n2) c d .rne with
  | .num _ n e => (n, e)
  | _ => (0, 1)

/-- Does the check report a change of an element from `old` to `new`? `terms` is the magnitude of what the instruction added
into it; a change at or below the threshold is reported or not, and an element that did not change is not (R275, R277). -/
def reportsChange (ctr : Nat) (kind : AccKind) (old new : Nat) (terms : Nat × Nat) : Bool :=
  let small := decide (old ≠ new) && Config.reportsSmallChange ctr
  let F := if kind = .f64 then fmt64 else fmt32
  match kind with
  | .i32 | .i64 => decide (old ≠ new)
  | _ =>
    match F.value old, F.value new with
    | .num n1 a b, .num n2 c d =>
      let q := absDiff n1 a b n2 c d
      let bound := (a * terms.2 + terms.1 * b, b * terms.2 * 65536)
      if bound.1 * q.2 < q.1 * bound.2 then true else small
    | .num _ _ _, _ => true
    | _, _ => small

/-- The armed injections of an accumulator, and of the pair it names. -/
def Regs.armings (r : Regs) (n : Fin 4) (wide : Bool) : List (Fin 4 × Bool × Nat × Lane) :=
  let of := fun (m : Fin 4) => match (r.acc.get m).armed with | some a => [(m, a)] | none => []
  if wide then of n ++ of (oddOf n) else of n

/-- One injection: the element changes, the arming goes, and a reported mismatch sets CSM in the status word of `n`. -/
def Regs.inject (r : Regs) (ctr : Nat) (n : Fin 4) (kind : AccKind) (terms : Nat → Nat × Nat) (p : Fin 4 × Bool × Nat × Lane) : Regs :=
  let i := p.2.2.1
  let old := r.accPat n kind.wide i
  let a := r.acc.get p.1
  let v := addPert p.2.1 (r.accPat p.1 false i) p.2.2.2.toNat
  let r1 := r.setAcc p.1 { a with e := a.e.setIfInBounds i (BitVec.ofNat 32 v), armed := none }
  let hit := reportsChange ctr kind old (r1.accPat n kind.wide i) (terms i)
  let t := r1.acc.get n
  if hit then r1.setAcc n { t with tsw := t.tsw ||| 64 } else r1

/-! ### Writing an accumulator -/

/-- Results for the elements that `on` names, their flags raised, the status word of `n` and the checksums brought up to date,
and armed injections performed (R251, R257, R275, R277). -/
def Regs.writeAcc (r : Regs) (ctr : Nat) (n : Fin 4) (kind : AccKind) (fresh psn : Bool) (on : Nat → Bool) (f : Nat → MatElem)
    (terms : Nat → Nat × Nat) : Except Stop Regs :=
  let tab := (Array.range 2048).map fun i => if on i then some (f i) else none
  let got := fun (i : Nat) => (tab[i]?).join
  let idx := (List.range 2048).filter on
  let flags := idx.filterMap fun i => (got i).bind fun z => if z.fl = 0 then none else some (i, z.fl)
  let tfl := idx.foldl (fun a i => a ||| (got i).elim 0 (·.tfl)) 0
  let nv := lowestWith 16 (idx.filterMap fun i => (got i).map fun z => (i, z.tfl))
  (r.raise flags).map fun r =>
    let half := fun (m : Fin 4) (hi : Bool) =>
      let a := r.acc.get m
      { a with e := Vector.ofFn fun i : Fin 2048 =>
                 match got i.val with
                 | some z => BitVec.ofNat 32 (if hi then z.pat / 2 ^ 32 else z.pat)
                 | none => a.e.get i }
    let lo := half n false
    let r1 := r.setAcc n { lo with tsw := tswAfter lo.tsw fresh psn tfl nv }
    let r2 := if kind.wide then r1.setAcc (oddOf n) (half (oddOf n) true) else r1
    let r3 := (r.armings n kind.wide).foldl (fun r p => r.inject ctr n kind (fun i => if on i then terms i else (0, 1)) p) r2
    let r4 := r3.setAcc n (r3.acc.get n).resum
    if kind.wide then r4.setAcc (oddOf n) (r4.acc.get (oddOf n)).resum else r4

/-! ### The accumulation order (R255, R256) -/

/-- k-steps per group (R252). -/
def spcOf (t : Ty) : Nat :=
  match t with
  | .e4m3 | .e5m2 => 2
  | .e2m1 => 4
  | _ => 1

/-- The exact sum of the products of a group. -/
def groupSum (a b : Nat → FVal) (lo n : Nat) : Exact :=
  exactSum ((List.range n).map fun t => exactMul (a (lo + t)) (b (lo + t))) .rne

/-- R255 for one element: `c` its old pattern, `a` and `b` its row and column, `n` k-steps. -/
def accFloat (am : AccMode) (sat : Bool) (spc : Nat) (a b : Nat → FVal) (n c : Nat) : Nat × Nat :=
  (List.range ((n + spc - 1) / spc)).foldl (fun cf g =>
    let p := groupSum a b (g * spc) (min spc (n - g * spc))
    let x := if g = 0 ∧ am = .set then p
      else
        let q := exactAdd (fmt32.value cf.1) (if am = .sub then p.v.neg else p.v) .rne
        { q with fl := q.fl ||| p.fl }
    let r := fmt32.result x .rne sat 0
    (r.1, cf.2 ||| r.2)) (c, 0)

/-- R256 for one element: its old value, and the flags for FCSR and for the status word. -/
def accInt (t : Ty) (am : AccMode) (sat : Bool) (a b : Nat → Int) (n : Nat) (c : Int) : MatElem :=
  let r := (List.range n).foldl (fun (s : Int × Nat × Nat) k =>
    let p := a k * b k
    let v := (if k = 0 ∧ am = .set then 0 else s.1) + (if am = .sub then -p else p)
    if intMin t ≤ v ∧ v ≤ intMax t then (v, s.2.1, s.2.2)
    else
      let d := intDeliver t sat v
      (intVal t d.1, s.2.1 ||| d.2, s.2.2 ||| flOF)) (c, 0, 0)
  { pat := intPat t r.1, fl := r.2.1, tfl := r.2.2 }

/-- The magnitudes of the products of one element, added (R275). -/
def productTerms (a b : Nat → FVal) (n : Nat) : Nat × Nat :=
  (List.range n).foldl (fun s k =>
    match exactMul (a k) (b k) with
    | { v := .num _ p q, .. } => (s.1 * q + p * s.2, s.2 * q)
    | _ => s) (0, 1)

/-- MMA, MMAG and MMT once their operands are at hand: patterns of A(i, k) and B(k, j) with the scales of their blocks. -/
def Regs.multiply (r : Regs) (ctr : Nat) (x : XFields) (n : Nat) (psn : Bool) (on : Nat → Bool)
    (a b : Nat → Nat → Nat × Nat) : Except Stop Regs :=
  let rows := fun (i : Nat) => on (i / 32)
  let wide := x.mods.w
  if x.tyA.isInt then
    let t : Ty := if wide then .i64 else .i32
    r.writeAcc ctr x.acc (if wide then .i64 else .i32) (x.am == .set) psn rows
      (fun e => accInt t x.am x.mods.sat (fun k => intVal x.tyA (a (e / 32) k).1) (fun k => intVal x.tyB (b k (e % 32)).1) n
        (intVal t (r.accPat x.acc wide e))) (fun _ => (0, 1))
  else
    let val := fun (t : Ty) (neg : Bool) (p : Nat × Nat) =>
      let v := if t = .e2m1 then blockVal p.2 p.1 else (tyFmt t).value p.1
      if neg then v.neg else v
    let va := fun (e k : Nat) => val x.tyA x.mods.na (a (e / 32) k)
    let vb := fun (e k : Nat) => val x.tyB x.mods.nb (b k (e % 32))
    r.writeAcc ctr x.acc .f32 (x.am == .set) psn rows
      (fun e => .ofRounded (accFloat x.am x.mods.sat (spcOf x.tyA) (va e) (vb e) n (r.accPat x.acc false e)))
      (fun e => productTerms (va e) (vb e) n)

/-! ### Panels (R253) -/

/-- The first register of a group of `n`; one that an indirect specifier runs past v63 traps 0x09. -/
def Regs.group (r : Regs) (x : Reg) (n : Nat) : Except Stop Nat := do
  let s ← r.vecNum x
  if s.val + n ≤ 64 then return s.val
  else
    match x with
    | .vi g => throw (trapInfo 0x09 (r.gr g).toNat)
    | _ => return s.val

/-- A vector register by number. -/
def Regs.vreg (r : Regs) (n : Nat) : VReg := r.v.get (Fin.ofNat 64 n)

/-- Position `p` of a panel of elements of width `b` in a group of `n` registers from `s`: pattern and block scale. -/
def Regs.panel (r : Regs) (s n b p : Nat) : Nat × Nat :=
  (velem (r.vreg (s + p * b / 2048)) b (p % (2048 / b)), velem (r.vreg (s + n)) 8 (p / 32))

/-- A table of patterns read once: row-major, `w` entries in a row; and an entry of it. -/
def tabulate (h w : Nat) (f : Nat → Nat → Nat × Nat) : Array (Nat × Nat) := (Array.range (h * w)).map fun p => f (p / w) (p % w)
def tabAt (t : Array (Nat × Nat)) (w i j : Nat) : Nat × Nat := (t[i * w + j]?).getD (0, 0)

/-- MMA (R258). -/
def Regs.mma (r : Regs) (ctr : Nat) (x : XFields) : Except Stop Regs := do
  let k := x.kidx.toNat
  let b := x.tyA.bits
  let a ← r.group x.a (panelA k b)
  let v ← r.group x.b (panelB k b)
  let ta := tabulate 64 k fun i q => r.panel a (panelA k b) b (64 * q + i)
  let tb := tabulate k 32 fun q j => r.panel v (panelB k b) b (32 * q + j)
  r.multiply ctr x k false (fun i => (r.pmask x.pm).getLsbD i) (tabAt ta k) (tabAt tb 32)

/-! ### Panels in tile SRAM (R259 to R261) -/

/-- Element `i` of width `b` bits in a list of bytes. -/
def packed (l : Array Byte) (b i : Nat) : Nat :=
  if b = 4 then ((l[i / 2]?).elim 0 BitVec.toNat) / 16 ^ (i % 2) % 16
  else ofBytes ((List.range (b / 8)).map fun j => (l[i * (b / 8) + j]?).getD 0)

/-- The row addresses of MMAG; a row that the index vector disables has none. The first failing row traps 0x09. -/
def gatherRows (idx : VReg) (pr : Dword) (base stride len size lim : Nat) : List Nat → Except Stop (List (Nat × Nat))
  | [] => .ok []
  | i :: t =>
    let v := velem idx 32 i
    if !pr.getLsbD i || v == 0xFFFFFFFF then gatherRows idx pr base stride len size lim t
    else
      let a := base + v * stride
      if a % size = 0 ∧ a + len ≤ lim then (gatherRows idx pr base stride len size lim t).map fun l => (i, a) :: l
      else .error (trapInfo 0x09 a)

/-- Poison read by an instruction. -/
def State.meetsPoison (s : State) (f : Firing) (ls : List Loc) : Bool := ls.any (s.poisonLoc f.b)

/-- A direct group that runs past v63 raises trap 0x03 (R253); MMAG, whose K stands in its descriptor, finds it when it executes (log 127). -/
def checkGroup (x : Reg) (n : Nat) (i : Instr) : Except Stop Unit :=
  match x with
  | .v a => if a.val + n ≤ 64 then .ok () else .error (.trap { code := 0x03, info := (encode i).getD 0 })
  | _ => .ok ()

/-- MMAG (R259). -/
def State.mmag (s : State) (k : Nat) (sl : Slot) (f : Firing) (x : XFields) : Except Stop Firing := do
  let r := f.r
  let d := r.readG x.a
  let n := bits d 45 38
  let b := x.tyA.bits
  if bits d 63 46 ≠ 0 ∨ n = 0 ∨ 512 / b < n then throw (trapInfo 0x09 d.toNat)
  checkGroup x.b (panelB n b) (.mmag x)
  let v ← r.group x.b (panelB n b)
  let iv ← r.vec ((Reg.ofSpec x.kidx.toNat).getD (.v 0))
  let rows ← gatherRows iv (r.pmask x.pm) (bits d 21 0) (bits d 37 22) (n * b / 8) (b / 8) (sl.pl.lim * 64) (List.range 64)
  let ls := rows.flatMap fun q => (List.range (n * b / 8)).map fun j => Loc.carve k (q.2 + j)
  let read := s.readLocs f ls
  let data := read.1.toArray
  let place := fun (i : Nat) => (findIdx rows fun q => q.1 == i).getD 0
  let ta := tabulate 64 n fun i q => (packed data b (place i * n + q), 0)
  let tb := tabulate n 32 fun q j => r.panel v (panelB n b) b (32 * q + j)
  let f1 := read.2
  let r1 ← f1.r.multiply s.freeCtr x n (s.meetsPoison f ls) (fun i => rows.any fun q => q.1 == i) (tabAt ta n) (tabAt tb 32)
  return { f1 with r := r1 }

/-- The checks of MMT: k-steps, then each panel with its scales (R260). -/
def checkPanel (lim base len : Nat) : Except Stop Unit :=
  if base % 64 = 0 ∧ base + len ≤ lim then .ok () else .error (trapInfo 0x09 base)

/-- MMT (R260): the result is formed with the last chunk; earlier ones only count (R261, log 15). -/
def State.mmt (s : State) (k : Nat) (sl : Slot) (f : Firing) (x : XFields) : Except Stop Firing := do
  let r := f.r
  let n := (r.readG ((Reg.ofSpec x.kidx.toNat).getD (.g 0))).toNat
  let pa := (r.readG x.a).toNat
  let pb := (r.readG x.b).toNat
  let b := x.tyA.bits
  let e2 := x.tyA == .e2m1
  if n = 0 ∨ 131072 < n then throw (trapInfo 0x09 n)
  checkPanel (sl.pl.lim * 64) pa (8 * n * b + if e2 then 2 * n else 0)
  checkPanel (sl.pl.lim * 64) pb (4 * n * b + if e2 then n else 0)
  if (f.grind + 1) * 64 < n then
    return { f with pc := f.pc - 1, grind := f.grind + 1 }
  else
    let on := fun (i : Nat) => (r.pmask x.pm).getLsbD i
    let any := (List.range 64).any on
    let w := b / 8
    let elemBytes := fun (base p : Nat) => if e2 then [base + p / 2] else (List.range w).map fun j => base + p * w + j
    let la := (List.range n).flatMap fun q => (List.range 64).flatMap fun i => if on i then elemBytes pa (64 * q + i) else []
    let lb := if any then List.range (4 * n * b) |>.map (pb + ·) else []
    let sa := if e2 && any then List.range (2 * n) |>.map (pa + 8 * n * b + ·) else []
    let sb := if e2 && any then List.range n |>.map (pb + 4 * n * b + ·) else []
    let ls := (la ++ lb ++ sa ++ sb).map fun a => Loc.carve k a
    let psn := s.meetsPoison f ls
    let byte := fun (a : Nat) => s.readLoc f.b (.carve k a)
    let elem := fun (base p : Nat) =>
      if e2 then (byte (base + p / 2)).toNat / 16 ^ (p % 2) % 16 else ofBytes ((List.range w).map fun j => byte (base + p * w + j))
    let scale := fun (base len p : Nat) => if e2 then (byte (base + len + p / 32)).toNat else 0
    let ta := tabulate 64 n fun i q => if on i then (elem pa (64 * q + i), scale pa (8 * n * b) (64 * q + i)) else (0, 0)
    let tb := tabulate n 32 fun q j => (elem pb (32 * q + j), scale pb (4 * n * b) (32 * q + j))
    let f1 := if psn then f.taint else f
    let r1 ← f1.r.multiply s.freeCtr x n psn on (tabAt ta n) (tabAt tb 32)
    return { f1 with r := r1, grind := 0 }

/-! ### The recurrent mode (R264) -/

/-- One column: rows 0 to L - 1 in order, with the carry; results of the enabled rows. -/
def recColumn (sat : Bool) (alpha : Nat → FVal) (c : Nat → Nat) (on : Nat → Bool) (j : Nat) :
    List Nat → Nat → List (Nat × MatElem × (Nat × Nat))
  | [], _ => []
  | i :: t, h =>
    let old := c (32 * i + j)
    if on i then
      let p := fmt32.result (exactFma (alpha i) (fmt32.value h) (fmt32.value old) .rne) .rne sat 0
      let q := match exactMul (alpha i) (fmt32.value h) with | { v := .num _ a b, .. } => (a, b) | _ => (0, 1)
      (32 * i + j, .ofRounded p, q) :: recColumn sat alpha c on j t p.1
    else recColumn sat alpha c on j t old

/-- MREC (R264). -/
def Regs.mrec (r : Regs) (ctr : Nat) (x : XFields) : Except Stop Regs := do
  let a ← r.vec x.a
  let h ← r.vec x.b
  let on := fun (i : Nat) => (r.pmask x.pm).getLsbD i
  let alpha := fun (i : Nat) => elemVal x.tyA x.mods.na a i
  let cols := (List.range 32).flatMap fun j =>
    recColumn x.mods.sat alpha (r.accPat x.acc false) on j (List.range x.kidx.toNat) (velem h 32 j)
  let tab := cols.foldl (fun (t : Array (Option (MatElem × (Nat × Nat)))) z => t.setIfInBounds z.1 (some z.2)) (Array.replicate 2048 none)
  let got := fun (i : Nat) => (tab[i]?).join
  r.writeAcc ctr x.acc .f32 false false (fun i => (got i).isSome) (fun i => (got i).elim { pat := 0, fl := 0, tfl := 0 } (·.1))
    fun i => (got i).elim (0, 1) (·.2)

/-! ### MSCL and MJOIN (R268, R272) -/

/-- MSCL (R268). -/
def Regs.mscl (r : Regs) (ctr : Nat) (x : RFields) (n : Fin 4) : Except Stop Regs := do
  let a ← r.vec x.a
  let b ← r.vec x.b
  let rm := r.mode x.mods.rnd
  let one := fun (e : Nat) =>
    let c := r.accPat n false e
    let v := if x.ty = .i32 then intExact (intVal .i32 c) else fmt32.value c
    let p := exactMul v (elemVal .f32 x.mods.na a (e / 32))
    let q := exactMul p.v (elemVal .f32 false b (e % 32))
    fmt32.result { q with fl := q.fl ||| p.fl } rm x.mods.sat (r.sr 0 e)
  let r1 ← r.writeAcc ctr n .f32 false false (fun e => (r.pmask x.pm).getLsbD (e / 32)) (fun e => .ofRounded (one e)) fun _ => (0, 1)
  return r1.counted x.mods.rnd

/-- MJOIN (R272). -/
def Regs.mjoin (r : Regs) (ctr : Nat) (x : RFields) (t u : Fin 4) : Except Stop Regs := do
  let ve ← r.vec x.b
  let vf ← r.vec x.c
  let term := fun (e : Nat) =>
    (exactScale (intExact (intVal .i64 (r.accPat u true e))) (elemInt .i32 ve (e / 32) + elemInt .i32 vf (e % 32))).v
  let one := fun (e : Nat) => fmt64.result (exactAdd (fmt64.value (r.accPat t true e)) (term e) .rne) .rne x.mods.sat 0
  r.writeAcc ctr t .f64 false false (fun e => (r.pmask x.pm).getLsbD (e / 32)) (fun e => .ofRounded (one e))
    fun e => match term e with | .num _ a b => (a, b) | _ => (0, 1)

/-! ### Accumulator transfers (R266, R267) -/

/-- The accumulator that a specifier names. -/
def accOf : Reg → Fin 4
  | .a n => n
  | _ => 0

/-- The effective address of R71. -/
def Regs.ea (r : Regs) (x : MFields) : Nat :=
  ((r.readG x.base + (r.readG x.index <<< x.scl.val)) + x.disp.signExtend 64).toNat

/-- Where the bytes of an access in a space lie (R151). -/
def State.accessLocs (s : State) (k : Nat) (sl : Slot) (f : Firing) (sp : Space) (ea n : Nat) (write : Bool) : Except Stop (List Loc) :=
  if sp = .global then s.globalLocs f.b.xlated sl.pl.ctx ea n write else s.tileLocs f.b.xlated k sl f.r.sys.spov ea n write

/-- The lines of a tile in memory: for every enabled row its bytes, in order (R266). -/
def State.tileRows (s : State) (k : Nat) (sl : Slot) (f : Firing) (x : MFields) (ea n : Nat) (write : Bool) :
    List Nat → Except Stop (List (Nat × List Loc))
  | [] => .ok []
  | i :: t => do
    if (f.r.pmask x.pm).getLsbD i then
      let lines ← (List.range (n / 2)).mapM fun j => s.accessLocs k sl f x.sp ((ea + 32 * n * i + 64 * j) % 2 ^ 64) 64 write
      let rest ← s.tileRows k sl f x ea n write t
      return (i, lines.flatten) :: rest
    else s.tileRows k sl f x ea n write t

/-- The lines of global memory that a load enters in the read signature of a stamped firing (07 R140). -/
def State.noteRead (s : State) (k : Nat) (f : Firing) (ls : List Loc) : Firing :=
  if (s.groupId k).isSome then
    { f with readLines := ls.foldl (fun l x => match x with | .glob pa _ => addNum l (pa / 64) | .carve _ _ => l) f.readLines }
  else f

/-- MLDA (R266), a load (R278). -/
def State.mlda (s : State) (k : Nat) (sl : Slot) (f : Firing) (x : MFields) : Except Stop Firing := do
  let ea := f.r.ea x
  let n := x.ty.bytes
  if ea % 64 ≠ 0 then throw (trapInfo 0x09 ea)
  let rows ← s.tileRows k sl f x ea n false (List.range 64)
  let status ← s.accessLocs k sl f x.sp ((ea + 2048 * n) % 2 ^ 64) 64 false
  let read := s.readLocs f (rows.flatMap (·.2))
  let word := s.readLocs read.2 status
  let psn := s.meetsPoison f (rows.flatMap (·.2) ++ status)
  let data := read.1.toArray
  let place := fun (i : Nat) => findIdx rows fun q => q.1 == i
  let pat := fun (e : Nat) => (place (e / 32)).map fun p => packed data x.ty.bits (32 * p + e % 32)
  let conv := fun (p : Nat) => if x.ty.bits = 32 then (p, 0) else convertPat .f32 x.ty p .rne false 0
  let idx := (List.range 2048).filter fun e => (f.r.pmask x.pm).getLsbD (e / 32)
  let r1 ← word.2.r.raise (idx.filterMap fun e => (pat e).map fun p => (e, (conv p).2))
  let acc := accOf x.d
  let a := r1.acc.get acc
  let w := field word.1 0 4
  let tsw := (w / 65536 * 65536 + w % 128) ||| bit psn * 32
  let e := Vector.ofFn fun i : Fin 2048 => match pat i.val with | some p => BitVec.ofNat 32 (conv p).1 | none => a.e.get i
  let r2 := r1.setAcc acc ({ a with e := e, tsw := BitVec.ofNat 32 tsw, armed := none } : Acc).resum
  let f1 := s.noteRead k { word.2 with r := r2 } (rows.flatMap (·.2) ++ status)
  let f2 := if tsw / 32 % 2 = 1 then f1.taint else f1
  return if tsw / 64 % 2 = 1 then { f2 with r.sys.chki := f2.r.sys.chki ||| 2 } else f2

/-- MSTA (R266): its operand traps, the footprint among them, come before its flag traps (10 R211). -/
def State.msta (s : State) (k : Nat) (sl : Slot) (f : Firing) (x : MFields) : Except Stop (Slot × Firing) := do
  let ea := f.r.ea x
  let n := x.ty.bytes
  if ea % 64 ≠ 0 then throw (trapInfo 0x09 ea)
  let rows ← s.tileRows k sl f x ea n true (List.range 64)
  let status ← s.accessLocs k sl f x.sp ((ea + 2048 * n) % 2 ^ 64) 64 true
  let acc := accOf x.d
  let a := f.r.acc.get acc
  let conv := fun (e : Nat) =>
    let p := f.r.accPat acc false e
    if n = 4 then (p, 0) else (tyFmt x.ty).deliver (fmt32.value p) f.r.dynamicMode false (f.r.sr 0 e)
  let idx := rows.flatMap fun q => (List.range 32).map fun j => 32 * q.1 + j
  let res := idx.map fun e => (e, conv e)
  let fl := res.foldl (fun m z => m ||| z.2.2) 0
  let word := a.tsw ||| BitVec.ofNat 32 (fl % 32)
  let f1 := if word.getLsbD 5 then f.taint else f
  let bytes := res.flatMap fun z => toBytes n z.2.1
  let w ← bufferStores sl k f1 ea ((rows.flatMap (·.2)).zip bytes ++ status.zip (toBytes 4 word.toNat ++ List.replicate 60 0))
  let r1 ← w.2.r.raise (res.map fun z => (z.1, z.2.2))
  return (w.1, { w.2 with r := if n = 4 then r1 else r1.counted .dyn })

/-- Row numbers of MTOV and MFRV, or trap 0x09 (R267). -/
def Regs.rowIndex (r : Regs) (x : Reg) : Except Stop Nat :=
  if (r.readG x).toNat < 64 then .ok (r.readG x).toNat else .error (trapInfo 0x09 (r.readG x).toNat)

/-- The accumulator element that lane element `e` of a register stands for. -/
def rowElem (wide : Bool) (row e : Nat) : Nat := if wide then 32 * row + e else 32 * ((row + e / 32) % 64) + e % 32

/-- MFRV (R267). -/
def Regs.mfrv (r : Regs) (x : RFields) : Except Stop Regs := do
  let row ← r.rowIndex x.b
  let v ← r.vec x.a
  let wide := x.ty.bits == 64
  let n := accOf x.d
  let on := laneOn (r.pmask x.pm) x.ty.bits
  let lanes := fun (hi : Bool) => (List.range (elems x.ty.bits)).filterMap fun e =>
    if on e then some (rowElem wide row e, velem v 32 (if wide then 2 * e + bit hi else e)) else none
  let put := fun (r : Regs) (m : Fin 4) (l : List (Nat × Nat)) =>
    let a := r.acc.get m
    let e := l.foldl (fun (e : Vector Lane 2048) z => e.setIfInBounds z.1 (BitVec.ofNat 32 z.2)) a.e
    r.setAcc m ({ a with e := e, armed := none } : Acc).resum
  let r1 := put r n (lanes false)
  return if wide then put r1 (oddOf n) (lanes true) else r1

/-! ### FP64 by slices (R270) -/

/-- E(x) of R270 as a 32-bit pattern, with its flags: those of a signalling operand (10 R210). -/
def sliceExp (v : FVal) : Nat × Nat :=
  match v with
  | .num _ n d => (if n = 0 then 0x80000000 else intPat .i32 (floorLog2 n d + 1), 0)
  | .inf _ => (0x7FFFFFFF, 0)
  | .nan sig => (0x7FFFFFFF, if sig then flNV ||| flSN else 0)

/-- A digit of R270 with its flags: slice `t` of a value against exponent `ex`. -/
def sliceDigit (v : FVal) (t : Nat) (ex : Int) : Nat × Nat :=
  match v with
  | .num neg n d =>
    let c := max (-2000) (min 3000 ex)
    if n ≠ 0 ∧ c ≤ floorLog2 n d then (0, flNV)
    else
      let j : Int := 7 * t - c
      let q := if 0 ≤ j then n * 2 ^ j.toNat / d else n / (d * 2 ^ (-j).toNat)
      (intPat .i8 (if neg then -((q % 128 : Nat) : Int) else (q % 128 : Nat)), 0)
  | .inf _ => (0, flNV)
  | .nan sig => (0, if sig then flNV ||| flSN else flNV)

/-- MSPLT (R270). -/
def Regs.msplt (r : Regs) (x : RFields) : Except Stop Regs := do
  let c := r.readG x.c
  let h := bits c 7 7
  let q := bits c 6 4
  let t := bits c 3 0
  let ok := if x.mods.w then q == 0 && t == 0 else decide (1 ≤ t ∧ t ≤ 9)
  if bits c 63 8 ≠ 0 || !ok then throw (trapInfo 0x09 c.toNat)
  let d ← r.vecNum x.d
  let a ← r.vec x.a
  let on := fun (e : Nat) => (r.pmask x.pm).getLsbD (2 * e)
  if x.mods.w then
    let f := fun (e : Nat) => sliceExp (elemVal .f64 false a e)
    let r1 ← r.raise ((elemResults 32 on f).map fun z => (z.1, z.2.2))
    return r1.putElems d 32 (fun i => decide (32 * h ≤ i ∧ i < 32 * h + 32) && on (i - 32 * h)) fun i => (f (i - 32 * h)).1
  else
    let b ← r.vec x.b
    let f := fun (e : Nat) => sliceDigit (elemVal .f64 false a e) t (elemInt .i32 b (32 * h + e))
    let r1 ← r.raise ((elemResults 32 on f).map fun z => (z.1, z.2.2))
    return r1.putElems d 8 (fun i => decide (32 * q ≤ i ∧ i < 32 * q + 32) && on (i - 32 * q)) fun i => (f (i - 32 * q)).1

/-! ### Meanings -/

/-- MMA (R258). -/
def execMma (x : XFields) (s : State) : Host.Outcome State Fault Refusal :=
  runFiring (.mma x) s fun s _ _ f => (f.r.mma s.freeCtr x).map fun r => { f with r := r }

/-- MMAG (R259). -/
def execMmag (x : XFields) (s : State) : Host.Outcome State Fault Refusal :=
  runFiring (.mmag x) s fun s k sl f => s.mmag k sl f x

/-- MMT (R260, R261): one chunk; the guard is sampled with the first. -/
def execMmt (x : XFields) (s : State) : Host.Outcome State Fault Refusal :=
  runFiring (.mmt x) s fun s k sl f => s.mmt k sl f x

/-- MREC (R264). -/
def execMrec (x : XFields) (s : State) : Host.Outcome State Fault Refusal :=
  runFiring (.mrec x) s fun s _ _ f => (f.r.mrec s.freeCtr x).map fun r => { f with r := r }

/-- MZERO (R265). -/
def execMzero (x : RFields) (s : State) : Host.Outcome State Fault Refusal :=
  runRegs (.mzero x) s fun r => .ok (r.setAcc (accOf x.d) Acc.zero)

/-- MLDA (R266). -/
def execMlda (x : MFields) (s : State) : Host.Outcome State Fault Refusal :=
  runFiring (.mlda x) s fun s k sl f => s.mlda k sl f x

/-- MSTA (R266). -/
def execMsta (x : MFields) (s : State) : Host.Outcome State Fault Refusal :=
  runSlot (.msta x) s fun s k sl f => s.msta k sl f x

/-- MSCL (R268). -/
def execMscl (x : RFields) (s : State) : Host.Outcome State Fault Refusal :=
  runFiring (.mscl x) s fun s _ _ f => (f.r.mscl s.freeCtr x (accOf x.d)).map fun r => { f with r := r }

/-- MSPLT (R270). -/
def execMsplt (x : RFields) (s : State) : Host.Outcome State Fault Refusal := runRegs (.msplt x) s fun r => r.msplt x

/-- MJOIN (R272). -/
def execMjoin (x : RFields) (s : State) : Host.Outcome State Fault Refusal :=
  runFiring (.mjoin x) s fun s _ _ f => (f.r.mjoin s.freeCtr x (accOf x.d) (accOf x.a)).map fun r => { f with r := r }

/-- MTSW (R269). -/
def execMtsw (x : RFields) (s : State) : Host.Outcome State Fault Refusal :=
  runRegs (.mtsw x) s fun r =>
    let n := accOf x.a
    let a := r.acc.get n
    let w := r.readG x.b
    if x.mods.w then
      if bits w 63 32 ≠ 0 ∨ bits w 15 7 ≠ 0 then .error (trapInfo 0x09 w.toNat)
      else .ok ((r.setAcc n { a with tsw := w.setWidth 32, armed := none }).writeG x.d (a.tsw.setWidth 64))
    else .ok (r.writeG x.d (a.tsw.setWidth 64))

/-- MTST (R269). -/
def execMtst (x : RFields) (s : State) : Host.Outcome State Fault Refusal :=
  runRegs (.mtst x) s fun r =>
    let m := (r.readG x.b).toNat
    if 1024 ≤ m then .error (trapInfo 0x09 m)
    else
      let hit := fun (i : Nat) => (List.range 32).any fun j => fmt32.classMask (r.accPat (accOf x.a) false (32 * i + j)) &&& m != 0
      .ok (r.writeP x.d (mergeBits (r.readP x.d) (fun i => (r.pmask x.pm).getLsbD i) hit))

/-- MPERT (R277). -/
def execMpert (x : RFields) (s : State) : Host.Outcome State Fault Refusal :=
  runRegs (.mpert x) s fun r =>
    let i := (r.readG x.a).toNat
    if 2047 < i then .error (trapInfo 0x09 i)
    else
      let a := r.acc.get (accOf x.d)
      .ok (r.setAcc (accOf x.d) { a with armed := some (x.ty == .f32, i, (r.readG x.b).setWidth 32) })

/-- MCHK (R276). -/
def execMchk (x : RFields) (s : State) : Host.Outcome State Fault Refusal :=
  runRegs (.mchk x) s fun r =>
    let n := accOf x.a
    let a := r.acc.get n
    if a.agrees then .ok (r.writeG x.d 0)
    else .ok ((r.setAcc n { a with tsw := a.tsw ||| 64 }.resum).writeG x.d 1)

/-- MTOV (R267). -/
def execMtov (x : RFields) (s : State) : Host.Outcome State Fault Refusal :=
  runFiring (.mtov x) s fun _ _ _ f => do
    let row ← f.r.rowIndex x.b
    let d ← f.r.vecNum x.d
    let n := accOf x.a
    let wide := x.ty.bits == 64
    let r1 := f.r.move d x.ty.bits x.pm fun e => f.r.accPat n wide (rowElem wide row e)
    let f1 := { f with r := r1 }
    return if (f.r.acc.get n).tsw.getLsbD 5 then f1.taint else f1

/-- MFRV (R267). -/
def execMfrv (x : RFields) (s : State) : Host.Outcome State Fault Refusal := runRegs (.mfrv x) s fun r => r.mfrv x

end Sys2Proof.Machine
end

