-- ==== Sys2Proof/Machine/MemAccess.lean ====
section
/-! DEFINITION. Loads, stores, vector accesses, remote-tile accesses and cache operations (08 R151 to R161). -/

namespace Sys2Proof.Machine

/-- A load of a general register (R155); `acq` marks an acquire (07 R132). -/
def State.loadScalar (s : State) (k : Nat) (sl : Slot) (f : Firing) (x : MFields) (signed acq : Bool) : Except Stop Firing := do
  let ls ← s.accessLocs k sl f x.sp (f.r.ea x) x.ty.bytes false
  let r := s.readOrd f x.co acq (Loc.scalar ls)
  let f1 := if signed then s.noteRead k r.2 ls else r.2
  return { f1 with r := f1.r.writeG x.d (widen x.ty (ofBytes r.1)) }

/-- A store of a general register (R155). -/
def State.storeScalar (s : State) (k : Nat) (sl : Slot) (f : Firing) (x : MFields) : Except Stop (Slot × Firing) := do
  let ea := f.r.ea x
  let ls ← s.accessLocs k sl f x.sp ea x.ty.bytes true
  bufferStores sl k f ea (ls.zip (toBytes x.ty.bytes (f.r.readG x.d).toNat))

/-- An address that must be a multiple of the element size (R152). -/
def aligned (ea n : Nat) : Except Stop Unit := if ea % n = 0 then .ok () else .error (trapInfo 0x09 ea)

/-! ### Vector accesses -/

/-- Bytes of one access of a vector, and their number: an E2M1 vector moves by bytes (R156, 07 R123). -/
def pieceBytes (t : Ty) : Nat := max 1 t.bytes

/-- Where the elements that `on` names lie: element `e` of `n` bytes at `addr e`, in ascending order (R151). -/
def State.elemLocs (s : State) (k : Nat) (sl : Slot) (f : Firing) (sp : Space) (n : Nat) (addr : Nat → Nat) (write : Bool) :
    List Nat → Except Stop (List (Nat × List Loc))
  | [] => .ok []
  | e :: t => do
    let ls ← s.accessLocs k sl f sp (addr e) n write
    let rest ← s.elemLocs k sl f sp n addr write t
    return (e, ls) :: rest

/-- Elements of `n` bytes loaded into a vector register, each as one access (07 R123); `co` marks an access with that hint. -/
def State.loadElems (s : State) (k : Nat) (f : Firing) (co : Bool) (d : Fin 64) (n : Nat) (ls : List (Nat × List Loc)) : Firing :=
  let f1 := s.noteRead k (s.afterRead f co false (ls.flatMap fun z => Loc.piece z.2)) (ls.flatMap (·.2))
  let val := fun (e : Nat) => (ls.find? fun z => z.1 == e).map fun z => ofBytes (s.readOrd f co false (Loc.piece z.2)).1
  { f1 with r := f1.r.putElems d (8 * n) (fun e => (val e).isSome) fun e => (val e).getD 0 }

/-- Elements of `n` bytes of a vector register stored as one access at `ea` (R156, R160). -/
def storeWhole (sl : Slot) (k : Nat) (f : Firing) (ea : Nat) (v : VReg) (n : Nat) (ls : List (Nat × List Loc)) :
    Except Stop (Slot × Firing) :=
  bufferStores sl k f ea (ls.flatMap fun z => z.2.zip (toBytes n (velem v (8 * n) z.1)))

/-- Elements of `n` bytes of a vector register stored at addresses of their own, in ascending order; trap 0x07 names the address of the element at which the footprint
would pass its limit (02 R31, 21 R370; log 134), and then nothing is stored. -/
def storeElems (sl : Slot) (k : Nat) (f : Firing) (addr : Nat → Nat) (v : VReg) (n : Nat) : List (Nat × List Loc) → Except Stop (Slot × Firing)
  | [] => .ok (sl, f)
  | z :: t => do
    let w ← bufferStores sl k f (addr z.1) (z.2.zip (toBytes n (velem v (8 * n) z.1)))
    storeElems w.1 k w.2 addr v n t

/-- The pieces of a contiguous vector access that the predicate enables (R156). -/
def Regs.pieces (r : Regs) (x : MFields) : List Nat :=
  let n := pieceBytes x.ty
  (List.range (256 / n)).filter fun e => (r.pr x.pm).getLsbD (if x.ty.bits = 64 then 2 * e else e * n / 4)

/-- Addresses modulo 2^64. -/
def addr64 (a : Nat) : Nat := a % 2 ^ 64

/-- The element addresses of VLDS and VSTS (R157). -/
def Regs.strided (r : Regs) (x : MFields) (e : Nat) : Nat :=
  (r.readG x.base + x.disp.signExtend 64 + BitVec.ofNat 64 e * (r.readG x.index <<< x.scl.val)).toNat

/-- The elements that VGTH and VSCT move (R158). -/
def gatherCount (t : Ty) : Nat := min 64 (2048 / t.bits)

/-- The offset vector of VGTH and VSCT: v[gN], or trap 0x09 (R158). -/
def Regs.offsets (r : Regs) (x : MFields) : Except Stop VReg :=
  let n := (r.readG x.index).toNat
  if n < 64 then .ok (r.v.get (Fin.ofNat 64 n)) else .error (trapInfo 0x09 n)

/-- The element addresses of VGTH and VSCT (R158). -/
def Regs.gathered (r : Regs) (x : MFields) (off : VReg) (e : Nat) : Nat :=
  (r.readG x.base + ((BitVec.ofNat 32 (velem off 32 e)).signExtend 64 <<< x.scl.val)).toNat

/-- Elements of a type that the predicate enables. -/
def Regs.enabled (r : Regs) (x : MFields) (m : Nat) : List Nat := (List.range m).filter (laneOn (r.pr x.pm) x.ty.bits)

/-- The add of VSCT (R159): rounding by FCSR.RM. -/
def Regs.scatterAdd (r : Regs) (t : Ty) (sat : Bool) (e old v : Nat) : Nat × Nat :=
  if t.isInt then intDeliver t sat (intVal t old + intVal t v)
  else
    (tyFmt t).result (exactAdd ((tyFmt t).value old) ((tyFmt t).value v) r.dynamicMode) r.dynamicMode sat (r.sr 0 e)

/-- VSCT with a combine: elements one after another, each reading what the lower ones wrote (R159); what it reads enters the
read signature, as 07 R142 asks. -/
def State.scatterFrom (s : State) (k : Nat) (sl : Slot) (f : Firing) (x : MFields) (off v : VReg) (sat : Bool) (fl : List (Nat × Nat)) :
    List Nat → Except Stop (Slot × Firing × List (Nat × Nat))
  | [] => .ok (sl, f, fl)
  | e :: t => do
    let n := x.ty.bytes
    let ea := f.r.gathered x off e
    aligned ea n
    let ls ← s.accessLocs k sl f x.sp ea n true
    let old := s.readOrd f false false (Loc.piece ls)
    let z := f.r.scatterAdd x.ty sat e (ofBytes old.1) (velem v x.ty.bits e)
    let w ← bufferStores sl k (s.noteRead k old.2 ls) ea (ls.zip (toBytes n z.1))
    (s.setSlot k w.1).scatterFrom k w.1 w.2 x off v sat (fl ++ [(e, z.2)]) t

/-- VSCT (R159). -/
def State.scatter (s : State) (k : Nat) (sl : Slot) (f : Firing) (x : MFields) : Except Stop (Slot × Firing) := do
  let off ← f.r.offsets x
  let d ← f.r.vecNum x.d
  let v := f.r.v.get d
  let es := f.r.enabled x (gatherCount x.ty)
  if x.disp = 0 then
    let ls ← s.elemLocs k sl f x.sp x.ty.bytes (f.r.gathered x off) true es
    storeElems sl k f (f.r.gathered x off) v x.ty.bytes ls
  else
    let z ← s.scatterFrom k sl f x off v (x.disp == 3) [] es
    let r1 ← z.2.1.r.raise z.2.2
    return (z.1, { z.2.1 with r := if x.ty.isFloat then r1.counted .dyn else r1 })

/-! ### Remote tiles (R160) -/

/-- The slot that a remote address names, or a trap: bits [63:37], a tile of the configuration, the slot's context, and
`n` bytes below its SPLIM. -/
def State.remoteSlot (s : State) (sl : Slot) (ea n : Nat) : Except Stop (Nat × Slot) := do
  if 2 ^ 37 ≤ ea then throw (trapInfo 0x09 ea)
  let cti := ea / 2 ^ 25 % 4096
  let loc := ea % 2 ^ 22
  match s.slots.find? fun ks => ks.2.pl.cfg == sl.pl.cfg && ks.2.pl.cti == cti with
  | none => throw (trapInfo 0x09 ea)
  | some home =>
    let key := tileOf home.1 * 8 + ea / 2 ^ 22 % 8
    match s.slot key with
    | none => throw (trapInfo 0x09 ea)
    | some t =>
      if t.pl.ctx ≠ sl.pl.ctx then throw (trapInfo 0x0A ea)
      if t.pl.cfg ≠ sl.pl.cfg ∨ t.pl.lim * 64 < loc + n then throw (trapInfo 0x09 ea)
      return (key, t)

/-- The bytes of a remote access; a write reaches the state region only. -/
def State.remoteLocs (s : State) (sl : Slot) (ea n : Nat) (write : Bool) : Except Stop (List Loc) := do
  let t ← s.remoteSlot sl ea n
  let loc := ea % 2 ^ 22
  if write ∧ !(decide (t.2.pl.stb * 64 ≤ loc ∧ loc + n ≤ t.2.pl.spb * 64)) then throw (trapInfo 0x0A ea)
  return (List.range n).map fun i => .carve t.1 (loc + i)

/-- The pieces of a remote access. -/
def State.remotePieces (s : State) (sl : Slot) (n ea : Nat) (write : Bool) : List Nat → Except Stop (List (Nat × List Loc))
  | [] => .ok []
  | e :: t => do
    let ls ← s.remoteLocs sl (addr64 (ea + e * n)) n write
    let rest ← s.remotePieces sl n ea write t
    return (e, ls) :: rest

/-! ### Cache operations (R161) -/

/-- The line of a cache operation: none when its address fails translation or permission. -/
def State.cacheLine (s : State) (sl : Slot) (f : Firing) (x : MFields) (write : Bool) : Except Stop (Option Nat) :=
  let ea := f.r.ea x
  if 2 ^ 60 ≤ ea then .error (trapInfo 0x09 ea)
  else
    match s.translate sl.pl.ctx ea write with
    | .ok t => .ok (some (t.pa / 64))
    | .error _ => .ok none

/-- A cache operation at commit. -/
def Firing.deferLine (f : Firing) (l : Option Nat) (g : Nat → DeferredOp) : Firing :=
  match l with
  | some n => { f with b.deferredOps := f.b.deferredOps ++ [g n] }
  | none => f

/-! ### Meanings -/

/-- LD (R155). -/
def execLd (x : MFields) (s : State) : Host.Outcome State Fault Refusal :=
  runFiring (.ld x) s fun s k sl f => s.loadScalar k sl f x true false

/-- ST (R155). -/
def execSt (x : MFields) (s : State) : Host.Outcome State Fault Refusal :=
  runSlot (.st x) s fun s k sl f => s.storeScalar k sl f x

/-- LDAQ (R155): an acquire at system scope (07 R132, R134). -/
def execLdaq (x : MFields) (s : State) : Host.Outcome State Fault Refusal :=
  runFiring (.ldaq x) s fun s k sl f => do
    aligned (f.r.ea x) x.ty.bytes
    s.loadScalar k sl f x true true

/-- STRL (R155): the commit becomes cumulative. -/
def execStrl (x : MFields) (s : State) : Host.Outcome State Fault Refusal :=
  runSlot (.strl x) s fun s k sl f => do
    aligned (f.r.ea x) x.ty.bytes
    let ls ← s.accessLocs k sl f x.sp (f.r.ea x) x.ty.bytes true
    let z ← s.storeScalar k sl f x
    return (z.1, { z.2 with b.cumulative := true, b.released := z.2.b.released ++ ls.filterMap fun l => match l with | .glob pa _ => some pa | _ => none })

/-- VLD (R156). -/
def execVld (x : MFields) (s : State) : Host.Outcome State Fault Refusal :=
  runFiring (.vld x) s fun s k sl f => do
    let d ← f.r.vecNum x.d
    let n := pieceBytes x.ty
    let ls ← s.elemLocs k sl f x.sp n (fun e => addr64 (f.r.ea x + e * n)) false (f.r.pieces x)
    return s.loadElems k f x.co d n ls

/-- VST (R156). -/
def execVst (x : MFields) (s : State) : Host.Outcome State Fault Refusal :=
  runSlot (.vst x) s fun s k sl f => do
    let d ← f.r.vecNum x.d
    let n := pieceBytes x.ty
    let ls ← s.elemLocs k sl f x.sp n (fun e => addr64 (f.r.ea x + e * n)) true (f.r.pieces x)
    storeWhole sl k f (f.r.ea x) (f.r.v.get d) n ls

/-- VLDS (R157). -/
def execVlds (x : MFields) (s : State) : Host.Outcome State Fault Refusal :=
  runFiring (.vlds x) s fun s k sl f => do
    let d ← f.r.vecNum x.d
    let ls ← s.elemLocs k sl f x.sp x.ty.bytes (f.r.strided x) false (f.r.enabled x (elems x.ty.bits))
    return s.loadElems k f x.co d x.ty.bytes ls

/-- VSTS (R157). -/
def execVsts (x : MFields) (s : State) : Host.Outcome State Fault Refusal :=
  runSlot (.vsts x) s fun s k sl f => do
    let d ← f.r.vecNum x.d
    let ls ← s.elemLocs k sl f x.sp x.ty.bytes (f.r.strided x) true (f.r.enabled x (elems x.ty.bits))
    storeElems sl k f (f.r.strided x) (f.r.v.get d) x.ty.bytes ls

/-- VGTH (R158). -/
def execVgth (x : MFields) (s : State) : Host.Outcome State Fault Refusal :=
  runFiring (.vgth x) s fun s k sl f => do
    let off ← f.r.offsets x
    let d ← f.r.vecNum x.d
    let ls ← s.elemLocs k sl f x.sp x.ty.bytes (f.r.gathered x off) false (f.r.enabled x (gatherCount x.ty))
    return s.loadElems k f x.co d x.ty.bytes ls

/-- VSCT (R158, R159). -/
def execVsct (x : MFields) (s : State) : Host.Outcome State Fault Refusal :=
  runSlot (.vsct x) s fun s k sl f => s.scatter k sl f x

/-- WLD (R160). -/
def execWld (x : MFields) (s : State) : Host.Outcome State Fault Refusal :=
  runFiring (.wld x) s fun s k sl f => do
    if x.d.isG then
      let ls ← s.remoteLocs sl (f.r.ea x) x.ty.bytes false
      let r := s.readOrd f x.co false (Loc.scalar ls)
      return { r.2 with r := r.2.r.writeG x.d (widen x.ty (ofBytes r.1)) }
    else
      let d ← f.r.vecNum x.d
      let n := pieceBytes x.ty
      let ls ← s.remotePieces sl n (f.r.ea x) false (f.r.pieces x)
      return s.loadElems k f x.co d n ls

/-- WST (R160). -/
def execWst (x : MFields) (s : State) : Host.Outcome State Fault Refusal :=
  runSlot (.wst x) s fun s k sl f => do
    if x.d.isG then
      let ls ← s.remoteLocs sl (f.r.ea x) x.ty.bytes true
      bufferStores sl k f (f.r.ea x) (ls.zip (toBytes x.ty.bytes (f.r.readG x.d).toNat))
    else
      let d ← f.r.vecNum x.d
      let n := pieceBytes x.ty
      let ls ← s.remotePieces sl n (f.r.ea x) true (f.r.pieces x)
      storeWhole sl k f (f.r.ea x) (f.r.v.get d) n ls

/-- PREF (R161): no value changes. -/
def execPref (x : MFields) (s : State) : Host.Outcome State Fault Refusal :=
  runFiring (.pref x) s fun s _ sl f => (s.cacheLine sl f x false).map fun _ => f

/-- CINV (R161). -/
def execCinv (x : MFields) (s : State) : Host.Outcome State Fault Refusal :=
  runFiring (.cinv x) s fun s _ sl f => (s.cacheLine sl f x false).map fun l => f.deferLine l .cacheInv

/-- CWB (R161). -/
def execCwb (x : MFields) (s : State) : Host.Outcome State Fault Refusal :=
  runFiring (.cwb x) s fun s _ sl f => (s.cacheLine sl f x false).map fun l => f.deferLine l .cacheWb

/-- LDNT (R155): as LD, but not entered in the read signature. -/
def execLdnt (x : MFields) (s : State) : Host.Outcome State Fault Refusal :=
  runFiring (.ldnt x) s fun s k sl f => s.loadScalar k sl f x false false

end Sys2Proof.Machine
end

