-- ==== Sys2Proof/Machine/Atomic.lean ====
section
/-! DEFINITION. The atomics (08 R162 to R168), their arrival at the home (07 R137; 09 R191, R193), and ARTY. -/

namespace Sys2Proof.Machine

/-! ### What an atomic computes (R164 to R166) -/

/-- The type of a request. -/
def AtomicReq.type (q : AtomicReq) : Ty := (Ty.ofCode q.ty).getD .n64

/-- What an atomic writes over `old`, if anything, and the flags it raises at the home. -/
def AtomicReq.written (q : AtomicReq) (old : Nat) : Option Nat × Nat :=
  let t := q.type
  let b := q.b.toNat % 2 ^ t.bits
  let c := q.c.toNat % 2 ^ t.bits
  let put := fun (p : Nat) => (some p, 0)
  let int := fun (v : Int) => ((some (intDeliver t q.sat v).1, (intDeliver t q.sat v).2) : Option Nat × Nat)
  let flt := fun (p : Nat × Nat) => ((some p.1, p.2 % 32) : Option Nat × Nat)
  let sum := fun (_ : Unit) =>
    flt ((tyFmt t).result (exactAdd ((tyFmt t).value old) ((tyFmt t).value b) q.rm) q.rm false q.sr)
  match q.op with
  | 0x98 => int (intVal t old + intVal t b)
  | 0x99 => put (if intVal t b < intVal t old then b else old)
  | 0x9A => put (if intVal t old < intVal t b then b else old)
  | 0x9B => put (old &&& b)
  | 0x9C => put (old ||| b)
  | 0x9D => put (old ^^^ b)
  | 0x9E => put b
  | 0x9F => if old = c then put b else (none, 0)
  | 0xA0 => if intVal t old < intVal t b then put ((intDeliver t false (intVal t old + 1)).1) else (none, 0)
  | 0xA1 => if intVal t b < intVal t old then put ((intDeliver t false (intVal t old - 1)).1) else (none, 0)
  | 0xA2 => sum ()
  | 0xA3 => flt ((tyFmt t).minMax false old b)
  | 0xA4 => flt ((tyFmt t).minMax true old b)
  | 0xA5 => if t.isInt then int (intVal t old + intVal t b) else sum ()
  | _ => (none, 0)

/-- The condition of AWT (R166). -/
def AtomicReq.met (q : AtomicReq) (old : Nat) : Bool :=
  let t := q.type
  let b := intVal t q.b.toNat
  let v := intVal t old
  match q.c.toNat % 4 with
  | 0 => decide (b ≤ v)
  | 1 => decide (v ≤ b)
  | 2 => decide (v = b)
  | _ => decide (v ≠ b)

/-- Hash class of an address (09 R185). -/
def hashClass (va : Nat) : Nat :=
  va / 2 ^ 6 % 65536 ^^^ va / 2 ^ 22 % 65536 ^^^ va / 2 ^ 38 % 65536 ^^^ va / 2 ^ 54 % 64

/-- Subject of a kind-1 record (09 R189). -/
def atomicSubject (cti slot : Nat) (stamp : Dword) (ordinal : Nat) : Dword :=
  BitVec.ofNat 64 (cti % 4096 * 2 ^ 52 + slot * 2 ^ 49 + stampBits stamp + ordinal % 1024)

/-! ### At the home -/

/-- The key of a tag of a slot of a package. -/
def tagKey (pkg slot tag : Nat) : Nat := (pkg * 65536 + slot) * 2 ^ 32 + tag % 2 ^ 32

/-- The home of an atomic outside the issuing tile's own reach: the package that the address names and a shelf slice of it, which the
spec does not derive from the address (log 86). -/
def atomicHome (pa : Nat) : Nat := paPkg pa * 128 + Config.sliceOf (pa / 64) % 128

/-- A home notes a tag, performed with its result or refused (R167), and with the synchronisation of the atomic (07 R138). -/
def State.noteTag (s : State) (home key : Nat) (r : Option Dword) (sync : TagSync) : State :=
  { s with en.tags := { home := home, key := key, time := s.clock, result := r, sync := sync } :: s.en.tags }

/-- Tile cycles of 2 ms and of 1 ms, 200 µs and 10 ms (01 R12). -/
def cycles2ms : Nat := 5400000
def cycles1ms : Nat := 2700000
def cycles200us : Nat := 540000
def cycles10ms : Nat := 27000000

/-- Does a home refuse a tag? -/
def State.tagRefused (s : State) (home key : Nat) : Bool :=
  (s.en.tags.find? fun t => t.home == home && t.key == key).any (·.result.isNone)

/-- Performed atomics that a home has noted since the tag of a key. -/
def State.tagsSince (s : State) (home key : Nat) : Nat :=
  ((s.en.tags.takeWhile fun t => !(t.home == home && t.key == key)).filter fun t => t.home == home && t.result.isSome).length

/-- What a home answers of a tag (R167): 0 DONE with the result while it is among the last 4,096 that were performed and no more than
2 ms old, 2 LOST where the home no longer holds it, else 1 NOTDONE, and the home refuses it from then on. -/
def State.tagAnswer (s : State) (home key : Nat) : (Nat × Dword) × State :=
  match s.en.tags.find? fun t => t.home == home && t.key == key with
  | some t =>
    match t.result with
    | some v => (if s.clock ≤ t.time + cycles2ms ∧ s.tagsSince home key < 4096 then (0, v) else (2, 0), s)
    | none => ((1, 0), s)
  | none => ((1, 0), s.noteTag home key none {})

/-- Is an address in another package? -/
def State.isRemote (s : State) (pa : Nat) : Bool := paPeer pa && paPkg pa != s.dv.pkg

/-- Where an atomic is performed: at frame F while a splice F to G is open, whichever leaf translated it (20 R362). -/
def State.spliceHome (s : State) (pa : Nat) : Nat :=
  match s.mm.splices.find? fun fg => fg.2 == pa / 65536 with
  | some fg => fg.1 * 65536 + pa % 65536
  | none => pa

/-- The value at the location of a request. -/
def State.atomicOld (s : State) (q : AtomicReq) : Nat := ofBytes (s.mm.mem.bytes (s.spliceHome q.pa) q.type.bytes)

/-- Does a request meet poison (23 R398)? -/
def State.atomicPoison (s : State) (q : AtomicReq) : Bool := s.mm.poison.contains (s.spliceHome q.pa / 64)

/-- The write events that a request reads from (07 R130 rule 3). -/
def State.atomicReads (s : State) (q : AtomicReq) : List Nat :=
  s.newestOf ((List.range q.type.bytes).map fun i => s.spliceHome q.pa + i)

/-- What the home writes for a request; a chain of atomics hands on the releases at its head (07 R132). -/
def State.atomicWrite (s : State) (w : Writer) (q : AtomicReq) (v : Option Nat) : State :=
  match v with
  | some p =>
    let h := s.handed (s.atomicReads q)
    s.writeGlobal { w with rel := joinEvents w.rel h.1, fences := w.fences ++ h.2, atomic := true } false
      ((toBytes q.type.bytes p).zipIdx.map fun z => (s.spliceHome q.pa + z.2, z.1))
  | none => s

/-- Does a request acquire, and release (07 R132)? AWT acquires. -/
def AtomicReq.acquires (q : AtomicReq) : Bool := q.order == 1 || q.order == 3 || q.op == 0xA6
def AtomicReq.releases (q : AtomicReq) : Bool := q.order == 2 || q.order == 3

/-- The writer of an atomic of a firing: a release of everything that happens before it, its own atomics and commands included
(07 R129, R132). -/
def State.atomicWriter (s : State) (k : Nat) (sl : Slot) (f : Firing) (q : AtomicReq) : Writer :=
  let own := joinEvents f.view.own (s.commandEvents f.started)
  { tag := sl.pl.tag, gen := sl.pl.gen, unit := tileOf k, before := if q.releases then joinEvents f.view.hb own else f.view.hb,
    release := q.releases, fences := f.view.rel }

/-- The synchronisation of an atomic of a firing that reads from some events and writes its own (07 R132). -/
def State.atomicSync (s : State) (k : Nat) (sl : Slot) (f : Firing) (q : AtomicReq) (reads own : List Nat) : TagSync :=
  { acq := q.acquires, reads := reads, own := own, rel := q.releases, before := (s.atomicWriter k sl f q).before, fences := f.view.rel }

/-- What an event hands on changed: nothing of its own, as a LOST atomic's (07 R138), or what its atomic releases. -/
def State.rerelease (s : State) (y : TagSync) (whole : Bool) : State :=
  let h := s.handed y.reads
  let set := fun (e : WriteEvent) =>
    if y.own.contains e.num then
      { e with rel := if whole ∧ y.rel then addNum (joinEvents y.before h.1) e.num else h.1,
               fences := (if whole then y.fences.map fun f => (f.1, f.2.1, addNum f.2.2 e.num) else []) ++ h.2 }
    else e
  { s with mm.order := { s.mm.order with events := s.mm.order.events.map set } }

/-- An old value as the register receives it (R163). -/
def AtomicReq.extend (q : AtomicReq) (old : Nat) : Dword := widen q.type old

/-- The firing of a slot with a request changed. -/
def State.setRequest (s : State) (k : Nat) (f : AtomicReq → AtomicReq) : State :=
  s.updSlot k fun sl => { sl with firing := sl.firing.map fun g => { g with request := g.request.map f } }

/-- PERFORMED AT THE HOME (R163, R166): the home reads, writes and keeps the result; an AWT whose condition does not hold is
acknowledged and held. -/
def State.performAtHome (s : State) (k : Nat) (sl : Slot) (f : Firing) (q : AtomicReq) : State :=
  let old := s.atomicOld q
  if q.op = 0xA6 ∧ !q.met old then
    (s.setRequest k fun q => { q with arrived := true }).park k (.awt s.clock true)
  else
    let w := q.written old
    let s1 := s.atomicWrite (s.atomicWriter k sl f q) q w.1
    let own := if s1.mm.order.next = s.mm.order.next then [] else [s.mm.order.next]
    let s2 := if w.1.isSome then
        (s1.voidConflicts k f.r.stamp.toNat sl.pl.rank [q.pa / 64]).tellGroup k f.r.stamp.toNat sl.pl.rank own
      else s1
    let s3 := if s.isRemote q.pa then
        s2.noteTag (atomicHome q.pa) (tagKey s.dv.pkg k q.tag) (some (q.extend old)) (s.atomicSync k sl f q (s.atomicReads q) own)
      else s2
    s3.setRequest k fun q =>
      { q with arrived := true, result := some (q.extend old, BitVec.ofNat 5 w.2), events := s.atomicReads q, own := own }

/-- Was a remote request issued more than 1 ms before (R167)? -/
def State.staleRequest (s : State) (f : Firing) (q : AtomicReq) : Bool :=
  match f.parked with
  | some (.atomic since false) => s.isRemote q.pa && decide (since + cycles1ms < s.clock)
  | _ => false

/-- The next atomic that a D2 log holds may be its site's turn now (09 R191). -/
def State.offerHeld (s : State) (ctx : Nat) : State :=
  (((s.heldFirings ctx).foldl (fun l x => insertBy x l) []).foldl (fun s x => s.later (.heldAtomicRelease x.2)) s)

/-- A REQUEST ARRIVES AT ITS HOME (07 R137): a home of an old generation drops it (20 R366); a D2 log may hold it or find that
it diverges (09 R191, R193); poison stops it (23 R398); else it is logged (09 R184) and performed. -/
def State.arrival (s : State) (k : Nat) : State :=
  match s.slot k with
  | none => s
  | some sl =>
    match sl.firing with
    | none => s
    | some f =>
      match f.request with
      | none => s
      | some q =>
        let ctx := sl.pl.ctx
        let lnch := s.launchOf sl.pl.cfg
        if q.arrived ∨ !s.homeTakes q.pa sl.pl.tag sl.pl.gen then s
        else
          let perform := fun (s : State) =>
            (if sl.detl = 0 then s else s.logRecord ctx 1 lnch q.site q.subj).performAtHome k sl f q
          if s.atomicPoison q then s.takeTrap k { code := 0x0D, info := BitVec.ofNat 64 q.va }
          else if s.staleRequest f q then s.noteTag (atomicHome q.pa) (tagKey s.dv.pkg k q.tag) none {}
          else match s.forced sl.detl ctx 1 lnch q.site (fun x => x == q.subj) with
          | .free => perform s
          | .turn => perform ((s.performed ctx 1 lnch q.site).offerHeld ctx)
          | .hold => match f.parked with | some (.atomic _ true) => s | _ => s.park k (.atomic s.clock true)
          | .diverges =>
            (s.diverge ctx).takeTrap k { code := 0x17, info := BitVec.ofNat 64 q.va, aux := 1 }

/-- The write events that an atomic has met, each with the bytes at which it stands. -/
def State.atomicMet (s : State) (q : AtomicReq) : List (Nat × Nat) :=
  let es := q.events ++ q.own
  (List.range q.type.bytes).flatMap fun i =>
    (es.filter fun e => s.mm.order.olds.any fun o => o.pa == s.spliceHome q.pa + i && o.num == e).map fun e => (q.pa + i, e)

/-- What a firing has behind it when the result of its atomic has come: an acquire takes over what it read from (07 R132). -/
def State.afterAtomic (s : State) (k : Nat) (f : Firing) (q : AtomicReq) : View :=
  let v := f.view.meet (s.atomicMet q)
  let v1 := if q.acquires then s.acquire (tileOf k) v q.events else v
  { v1 with own := joinEvents v1.own q.own }

/-- THE RESULT REACHES THE FIRING (R163): g[d] and the flags; where an enabled flag traps 0x0B the atomic stands. -/
def State.finishAtomic (s : State) (k : Nat) : State :=
  match s.slot k with
  | none => s
  | some sl =>
    match sl.firing with
    | none => s
    | some f =>
      match f.request with
      | none => s
      | some q =>
        match q.result with
        | none => s
        | some (v, fl) =>
          let f := { f with view := s.afterAtomic k f q }
          match f.r.raise1 fl.toNat with
          | .ok r =>
            let r1 := r.setG (Fin.ofNat 64 q.dst) v
            s.putFiring k sl
              { (f.executed q.op) with request := none, parked := none, r := if q.type.isFloat && (q.op == 0xA2 || q.op == 0xA5) then r1.counted q.rm else r1 }
          | .error st => (s.putFiring k sl { f with request := none, parked := none }).stopWith k st

/-! ### Issue (R163) -/

/-- The sNaN check of R163. -/
def Regs.atomicSignal (r : Regs) (t : Ty) (b : Dword) : Bool :=
  t.isFloat && ((tyFmt t).value (b.toNat % 2 ^ t.bits)).isSig && (r.snt || r.trapEnables / 16 % 2 == 1)

/-- Atomics that the endpoint carries to host memory (R168). -/
def hostAtomic (op : Nat) : Bool := op == 0x98 || op == 0x9E || op == 0x9F

/-- The checks of an atomic and its translation, in the order of R163. -/
def State.atomicAddress (s : State) (sl : Slot) (f : Firing) (op : Nat) (x : AtomFields) : Except Stop Nat := do
  let va := (f.r.readG x.a).toNat
  if sl.detl = 3 ∧ x.ty.isFloat then throw (trapAux 0x17 va 1)
  if 2 ^ 60 ≤ va then throw (trapInfo 0x09 va)
  aligned va x.ty.bytes
  if f.r.atomicSignal x.ty (f.r.readG x.b) then throw (trapInfo 0x0C va)
  if op = 0xA6 ∧ 4 ≤ (f.r.readG x.c).toNat then throw (trapInfo 0x09 (f.r.readG x.c).toNat)
  match s.translate sl.pl.ctx va true with
  | .error e => throw (xlStop va true e)
  | .ok t => if paHost t.pa ∧ !hostAtomic op then throw (trapInfo 0x09 va) else return t.pa

/-- The request of an atomic of a firing. -/
def atomicRequest (k : Nat) (sl : Slot) (f : Firing) (op : Nat) (x : AtomFields) (pa tag : Nat) : AtomicReq :=
  let va := (f.r.readG x.a).toNat
  let h := hashClass va
  { tag := tag, op := op, ty := x.ty.code, va := va, pa := pa, b := f.r.readG x.b, c := f.r.readG x.c, rm := f.r.mode x.rnd,
    sat := x.sat, sr := f.r.sr 0 0, order := x.order.code, dst := match x.d with | .g n => n.val | _ => 0,
    site := h, subj := atomicSubject sl.pl.cti (k % 8) f.r.stamp ((f.ordinals.find h).getD 0), arrived := false, result := none }

/-- The request leaves the firing (R163): at a home of this package it arrives at once; to a peer or to the host (R168) it is on its
way, and the slot waits for the answer. `f` stands at the next index; the firing that waits stands at the atomic itself. -/
def State.issueAtomic (s : State) (k : Nat) (sl : Slot) (f : Firing) (q : AtomicReq) : State :=
  let f1 := { f with pc := f.pc - 1, count := f.count - 1, request := some q,
                     ordinals := f.ordinals.put q.site ((f.ordinals.find q.site).getD 0 + 1) }
  if s.isRemote q.pa ∨ paHost q.pa then
    let s1 := s.putFiring k { sl with nextTag := (sl.nextTag + bit (s.isRemote q.pa)) % 2 ^ 32 } f1
    (s1.park k (.atomic s.clock false)).later (.atomicAtHome k)
  else ((s.putFiring k sl f1).arrival k).finishAtomic k

/-- May an atomic, an immediate command or an EVSIG take place: the commands before the firing's last release fence have ended, and all
of them where it is a release itself (07 R129, R135)? -/
def State.releaseReady (s : State) (f : Firing) (release : Bool) : Bool :=
  s.commandsEnded f.fenced && (!release || s.commandsEnded f.started)

/-- Every atomic but ARTY (R163). A firing whose result has come back takes it. -/
def runAtomic (i : Instr) (op : Nat) (x : AtomFields) (s : State) : Host.Outcome State Fault Refusal :=
  runInst i s fun s k sl f =>
    match f.request with
    | some q => if q.result.isSome then .ok (s.finishAtomic k) else .error (.wait (.atomic s.clock false))
    | none => do
      let pa ← s.atomicAddress sl f op x
      let g ← s.irrevocable k sl f i
      if !s.releaseReady g (x.order = .rel ∨ x.order = .ar) then throw (.wait .commands)
      return s.issueAtomic k sl g (atomicRequest k sl g op x pa (if s.isRemote pa then sl.nextTag else 0))

/-- What an answer DONE establishes: the synchronisation of the original atomic, as its order suffix gives it (07 R138). -/
def State.tagSync (s : State) (home key : Nat) : TagSync :=
  ((s.en.tags.find? fun t => t.home == home && t.key == key).map (·.sync)).getD {}

/-- ARTY (R167): the home answers of a tag of this slot; a path that is down does not answer. -/
def State.askTag (s : State) (k : Nat) (sl : Slot) (f : Firing) (x : AtomFields) : Except Stop (State × Firing) := do
  let va := (f.r.readG x.a).toNat
  if 2 ^ 60 ≤ va then throw (trapInfo 0x09 va)
  match s.translate sl.pl.ctx va true with
  | .error e => throw (xlStop va true e)
  | .ok t =>
    if !s.isRemote t.pa then throw (trapInfo 0x09 va)
    let key := tagKey s.dv.pkg k (bits (f.r.readG x.b) 31 0)
    let a := if s.pathDown (paPkg t.pa) then ((2, 0), s) else s.tagAnswer (atomicHome t.pa) key
    let y := s.tagSync (atomicHome t.pa) key
    let done := decide (a.1.1 = 0)
    let g := if done ∧ y.acq then { f with view := s.acquire (tileOf k) f.view y.reads } else f
    let s1 := if done then a.2.rerelease y true else a.2
    match x.d with
    | .g n => return (s1, { g with r := (f.r.setG n (BitVec.ofNat 64 a.1.1)).setG (n + 1) a.1.2 })
    | _ => return (s1, g)

/-! ### Meanings -/

/-- AADD (R164). -/
def execAadd (x : AtomFields) (s : State) : Host.Outcome State Fault Refusal := runAtomic (.aadd x) 0x98 x s
/-- AMIN (R164). -/
def execAmin (x : AtomFields) (s : State) : Host.Outcome State Fault Refusal := runAtomic (.amin x) 0x99 x s
/-- AMAX (R164). -/
def execAmax (x : AtomFields) (s : State) : Host.Outcome State Fault Refusal := runAtomic (.amax x) 0x9A x s
/-- AAND (R164). -/
def execAand (x : AtomFields) (s : State) : Host.Outcome State Fault Refusal := runAtomic (.aand x) 0x9B x s
/-- AOR (R164). -/
def execAor (x : AtomFields) (s : State) : Host.Outcome State Fault Refusal := runAtomic (.aor x) 0x9C x s
/-- AXOR (R164). -/
def execAxor (x : AtomFields) (s : State) : Host.Outcome State Fault Refusal := runAtomic (.axor x) 0x9D x s
/-- ASWP (R164). -/
def execAswp (x : AtomFields) (s : State) : Host.Outcome State Fault Refusal := runAtomic (.aswp x) 0x9E x s
/-- ACAS (R164). -/
def execAcas (x : AtomFields) (s : State) : Host.Outcome State Fault Refusal := runAtomic (.acas x) 0x9F x s
/-- AINCB (R164). -/
def execAincb (x : AtomFields) (s : State) : Host.Outcome State Fault Refusal := runAtomic (.aincb x) 0xA0 x s
/-- ADECB (R164). -/
def execAdecb (x : AtomFields) (s : State) : Host.Outcome State Fault Refusal := runAtomic (.adecb x) 0xA1 x s
/-- AFADD (R164, R165). -/
def execAfadd (x : AtomFields) (s : State) : Host.Outcome State Fault Refusal := runAtomic (.afadd x) 0xA2 x s
/-- AFMIN (R164, R165). -/
def execAfmin (x : AtomFields) (s : State) : Host.Outcome State Fault Refusal := runAtomic (.afmin x) 0xA3 x s
/-- AFMAX (R164, R165). -/
def execAfmax (x : AtomFields) (s : State) : Host.Outcome State Fault Refusal := runAtomic (.afmax x) 0xA4 x s
/-- ARED (R164). -/
def execAred (x : AtomFields) (s : State) : Host.Outcome State Fault Refusal := runAtomic (.ared x) 0xA5 x s
/-- AWT (R166). -/
def execAwt (x : AtomFields) (s : State) : Host.Outcome State Fault Refusal := runAtomic (.awt x) 0xA6 x s

/-- ARTY (R167). It leaves a revocable firing revocable (log 110). -/
def execArty (x : AtomFields) (s : State) : Host.Outcome State Fault Refusal :=
  runInst (.arty x) s fun s k sl f => (s.askTag k sl f x).map fun z => z.1.putFiring k sl z.2

end Sys2Proof.Machine
end

