-- ==== Sys2Proof/Machine/Sync.lean ====
section
/-! DEFINITION. Fences, timelines, barriers, sleep, time, events and stamps (08 R169 to R174). -/

namespace Sys2Proof.Machine

/-! ### Timelines (R170, R176) -/

/-- The counter that an operand names (04 R65). -/
def tlOf : Reg → Fin 8
  | .tl n => n
  | _ => 0

/-- A counter of a slot. -/
def Slot.timeline (sl : Slot) (n : Fin 8) : Timeline := sl.tl.get n

/-- The trap at the wait for a status (R176). -/
def statusTrap (status : Nat) : Nat :=
  if status = 2 then 0x09 else if status = 3 then 0x08 else if status = 4 ∨ status = 5 then 0x0A else 0x13

/-- The failed command with the lowest number that a wait for `n` covers: its number and status. -/
def State.failedUpTo (s : State) (k tl n : Nat) : Option (Nat × Nat) :=
  s.en.commands.foldl (fun m c =>
    if c.2.slot = k ∧ c.2.tl = tl ∧ !c.2.loader ∧ c.2.state = .failed ∧ c.2.num ≤ n ∧ m.all (fun x => decide (c.2.num < x.1)) then
      some (c.2.num, c.2.status)
    else m) none

/-- TLWAIT (R170, R176). -/
def State.waitTimeline (s : State) (k : Nat) (sl : Slot) (tl : Fin 8) (n : Nat) : Except Stop Unit :=
  if (sl.timeline tl).done < n then .error (.wait (.timeline tl n))
  else
    match s.failedUpTo k tl.val n with
    | some (num, st) =>
      .error (.trap { code := statusTrap st, info := BitVec.ofNat 64 num, aux := BitVec.ofNat 64 (st * 256 + tl.val), eng := true })
    | none => .ok ()

/-- What a TLWAIT for `n` takes over (07 R129, R144). -/
def State.timelineEvents (s : State) (k tl n : Nat) : List Nat :=
  s.en.commands.foldl (fun l c =>
    if c.2.slot = k ∧ c.2.tl = tl ∧ !c.2.loader ∧ c.2.num ≤ n ∧ c.2.ended then joinEvents l (s.eventsBy c.2) else l) []

/-- A firing after an acquire that takes over some events. -/
def Firing.gain (f : Firing) (l : List Nat) : Firing := { f with view := f.view.gain l }

/-- An operation that the commit carries out. -/
def Firing.defer (f : Firing) (o : DeferredOp) : Firing := { f with b.deferredOps := f.b.deferredOps ++ [o] }

/-! ### Barriers (R171, R172) -/

/-- The barrier number of an operand, or trap 0x09. -/
def barrierNumber (v : Dword) : Except Stop Nat := if v.toNat < 4096 then .ok v.toNat else .error (trapInfo 0x09 v.toNat)

/-- LIVE and size of a barrier as the home holds them, updated by the firing's own buffered operations. -/
def State.barrierSeen (s : State) (ctx n : Nat) (ops : List DeferredOp) : Bool × Nat :=
  let b := s.barrier (ctx * 4096 + n)
  ops.foldl (fun z o =>
    match o with
    | .barInit m _ size => if m = n then (true, size) else z
    | .barFree m => if m = n then (false, 0) else z
    | _ => z) (b.live, b.size)

/-- The state that an operation requires of its barrier. -/
inductive BarrierNeed where
  | dead | live | counted | grouped
deriving DecidableEq, Repr

/-- The check of R171 and R172: a live barrier, or one that is not live; of size 0, or a group barrier. -/
def State.needBarrier (s : State) (ctx n : Nat) (f : Firing) (need : BarrierNeed) : Except Stop Unit :=
  let z := s.barrierSeen ctx n f.b.deferredOps
  let ok := match need with
    | .dead => !z.1
    | .live => z.1
    | .counted => z.1 && z.2 == 0
    | .grouped => z.1 && z.2 != 0
  if ok then .ok () else .error (trapInfo 0x09 n)

/-- The 64-bit object (R171). -/
def Barrier.object (b : Barrier) : Dword :=
  BitVec.ofNat 64 (bit b.live * 2 ^ 63 + bit b.err * 2 ^ 62 + b.epoch % 16384 * 2 ^ 48 + b.count.toNat)

/-- An operation on a barrier at commit. -/
def State.deferBarrier (s : State) (sl : Slot) (f : Firing) (a : Reg) (need : BarrierNeed) (ok : Bool) (arg : Dword)
    (op : Nat → DeferredOp) : Except Stop Firing := do
  let n ← barrierNumber (f.r.readG a)
  s.needBarrier sl.pl.ctx n f need
  if !ok then throw (trapInfo 0x09 arg.toNat)
  return f.defer (op n)

/-- Has the instruction that executes already waited? Its checks were made then. -/
def Slot.waited (sl : Slot) : Bool := sl.firing.any (·.begun)

/-- BARWAIT (R171): what the barrier holds of writes is taken over (07 R145). -/
def State.waitBarrier (s : State) (sl : Slot) (f : Firing) (a : Reg) : Except Stop Firing := do
  let n ← barrierNumber (f.r.readG a)
  if !sl.waited then s.needBarrier sl.pl.ctx n f .counted
  let b := s.barrier (sl.pl.ctx * 4096 + n)
  if b.count ≠ 0 then throw (.wait (.barrier n))
  if b.err then
    throw (.trap { code := statusTrap b.status, info := BitVec.ofNat 64 n, aux := BitVec.ofNat 64 (b.status * 256 + 65536),
                   eng := true })
  return f.gain b.carry

/-- Has a group barrier passed epoch `e` (R172)? -/
def Barrier.passed (b : Barrier) (e : Nat) : Bool :=
  let d := (b.epoch + 16384 - e % 16384) % 16384
  decide (1 ≤ d ∧ d ≤ 8191)

/-- GBARW (R172). -/
def State.waitGroup (s : State) (sl : Slot) (f : Firing) (a b : Reg) : Except Stop Firing := do
  let n ← barrierNumber (f.r.readG a)
  let e := (f.r.readG b).toNat
  if !sl.waited then s.needBarrier sl.pl.ctx n f .grouped
  if 16384 ≤ e then throw (trapInfo 0x09 e)
  if !(s.barrier (sl.pl.ctx * 4096 + n)).passed e then throw (.wait (.group n e))
  return f.gain (s.barrier (sl.pl.ctx * 4096 + n)).carry

/-! ### Meanings -/

/-- An acquire fence on the tile in focus: what the reads and atomics before it have returned of writers within its scope is acquired
(07 R134, R135). -/
def State.acquireFence (s : State) (scope : Nat) (f : Firing) : Firing :=
  { f with view := s.acquireWithin scope s.focus f.view f.view.met }

/-- A release fence: later atomics are releases, within its scope, of what happens before it (07 R135); they, immediate commands and EVSIG
come when the commands before it have ended. -/
def State.releaseFence (s : State) (scope : Nat) (f : Firing) : Firing :=
  let before := joinEvents (joinEvents f.view.hb f.view.own) (s.commandEvents f.started)
  { f with fenced := f.started, view := { f.view with rel := (scope, s.focus, before) :: f.view.rel } }

/-- FENCE.sc in the order S of its scope domain: the writes performed before the last one of the domain count for the reads that follow
(07 R135). -/
def State.orderedFence (s : State) (scope : Nat) (f : Firing) : State × Firing :=
  let d := domainOf scope s.focus
  let upTo := (s.mm.order.sc.find d).getD 0
  ({ s with mm.order := { s.mm.order with sc := s.mm.order.sc.put d s.mm.order.next } },
   if upTo = 0 then f else { f with view := { f.view with sc := (scope, s.focus, upTo) :: f.view.sc } })

/-- FENCE (R169, 07 R135) of a kind (0 `.acq`, 1 `.rel`, 2 `.ar`, 3 `.sc`) and a scope. It waits for nothing here: the atomics before it have
been performed and the commands started. -/
def State.fence (s : State) (kind scope : Nat) (f : Firing) : State × Firing :=
  let f1 := if kind = 1 then f else s.acquireFence scope f
  let f2 := if kind = 0 then f1 else s.releaseFence scope f1
  if kind = 3 then s.orderedFence scope f2 else (s, f2)

/-- FENCE (R169). -/
def execFence (x : YFields) (s : State) : Host.Outcome State Fault Refusal :=
  runInst (.fence x) s fun s k sl f =>
    let r := s.fence (x.sub.toNat / 4 % 4) (x.sub.toNat % 4) f
    .ok (r.1.putFiring k sl r.2)

/-- TLWAIT (R170). -/
def execTlwait (x : RFields) (s : State) : Host.Outcome State Fault Refusal :=
  runFiring (.tlwait x) s fun s k sl f => 
    (s.waitTimeline k sl (tlOf x.a) (f.r.readG x.b).toNat).map fun _ => f.gain (s.timelineEvents k (tlOf x.a) (f.r.readG x.b).toNat)

/-- TLRD (R170): V, or I with `.w`. -/
def execTlrd (x : RFields) (s : State) : Host.Outcome State Fault Refusal :=
  runFiring (.tlrd x) s fun _ _ sl f =>
    let t := sl.timeline (tlOf x.a)
    .ok { f with r := f.r.writeG x.d (BitVec.ofNat 64 (if x.mods.w then t.issued else t.done)) }

/-- TLADV (R170). -/
def execTladv (x : RFields) (s : State) : Host.Outcome State Fault Refusal :=
  runFiring (.tladv x) s fun _ _ _ f => .ok (f.defer (.tladv (tlOf x.a) (f.r.readG x.b).toNat))

/-- BARINIT (R171). -/
def execBarinit (x : RFields) (s : State) : Host.Outcome State Fault Refusal :=
  runFiring (.barinit x) s fun s _ sl f =>
    let v := f.r.readG x.b
    let size := (f.r.readG x.c).toNat
    let okV := decide (v = sext 48 v.toNat)
    s.deferBarrier sl f x.a .dead (okV && decide (size ≤ 65535)) (if okV then f.r.readG x.c else v)
      fun n => .barInit n (v.toNat % 2 ^ 48) size

/-- BARADD (R171). -/
def execBaradd (x : RFields) (s : State) : Host.Outcome State Fault Refusal :=
  runFiring (.baradd x) s fun s _ sl f =>
    let v := f.r.readG x.b
    s.deferBarrier sl f x.a .counted (decide (v.toNat < 2 ^ 48)) v fun n => .barAdd n v.toNat

/-- BARSUB (R171). -/
def execBarsub (x : RFields) (s : State) : Host.Outcome State Fault Refusal :=
  runFiring (.barsub x) s fun s _ sl f =>
    s.deferBarrier sl f x.a .counted true 0 fun n => .barSub n (f.r.readG x.b).toNat

/-- BARWAIT (R171). -/
def execBarwait (x : RFields) (s : State) : Host.Outcome State Fault Refusal :=
  runFiring (.barwait x) s fun s _ sl f => s.waitBarrier sl f x.a

/-- BARRD (R171). -/
def execBarrd (x : RFields) (s : State) : Host.Outcome State Fault Refusal :=
  runFiring (.barrd x) s fun s _ sl f => do
    let n ← barrierNumber (f.r.readG x.a)
    s.needBarrier sl.pl.ctx n f .live
    return { f with r := f.r.writeG x.d (s.barrier (sl.pl.ctx * 4096 + n)).object }

/-- BARFREE (R171). -/
def execBarfree (x : RFields) (s : State) : Host.Outcome State Fault Refusal :=
  runFiring (.barfree x) s fun s _ sl f => s.deferBarrier sl f x.a .live true 0 .barFree

/-- GBARA (R172). -/
def execGbara (x : RFields) (s : State) : Host.Outcome State Fault Refusal :=
  runFiring (.gbara x) s fun s _ sl f =>
    let e := f.r.readG x.b
    s.deferBarrier sl f x.a .grouped (decide (e.toNat < 16384)) e fun n => .groupArrive n e.toNat

/-- GBARW (R172). -/
def execGbarw (x : RFields) (s : State) : Host.Outcome State Fault Refusal :=
  runFiring (.gbarw x) s fun s _ sl f => s.waitGroup sl f x.a x.b

/-- SLEEP (R173): the slot yields the tile until the time is over. -/
def execSleep (x : IFields) (s : State) : Host.Outcome State Fault Refusal :=
  runInst (.sleep x) s fun s k sl f => .ok ((s.putFiring k sl f).park k (.sleep (s.clock + nsCycles x.imm.toNat)))

/-- TIME (R173). -/
def execTime (x : RFields) (s : State) : Host.Outcome State Fault Refusal :=
  runFiring (.time x) s fun s _ _ f => .ok { f with r := f.r.writeG x.d (BitVec.ofNat 64 s.ns) }

/-- EVSIG (R173). -/
def execEvsig (x : RFields) (s : State) : Host.Outcome State Fault Refusal :=
  runInst (.evsig x) s fun s k sl f => do
    let n := (f.r.readG x.a).toNat
    if 255 < n then throw (trapInfo 0x09 n)
    let g ← s.irrevocable k sl f (.evsig x)
    if !s.releaseReady g false then throw (.wait .commands)
    return (s.putFiring k sl g).postEvent sl.pl.ctx n (f.r.readG x.b)

/-- STMP (R173): waits for the lower stamps of the group, and acquires their commits. -/
def execStmp (x : RFields) (s : State) : Host.Outcome State Fault Refusal :=
  runFiring (.stmp x) s fun s k sl f =>
    if s.lowerDone k f.r.stamp.toNat sl.pl.rank then
      let g := f.gain (s.groupSeen k)
      .ok { g with r := g.r.writeG x.d f.r.stamp }
    else .error (.wait .lowerStamps)

end Sys2Proof.Machine
end

