-- ==== Sys2Proof/Machine/Engine.lean ====
section
/-! DEFINITION. Engine commands as a firing issues them, queries and cancels (08 R175, R177, R180 to R183). What a command does
comes about in the rows of `EvEngine`. -/

namespace Sys2Proof.Machine

/-! ### Blocks -/

/-- Are bytes [lo, hi) of a block zero? -/
def zeroBytes (b : List Byte) (lo hi : Nat) : Bool := ((b.drop lo).take (hi - lo)).all (· == 0)

/-- Bytes of a block (R175). -/
def blockSize (op : Nat) : Nat := if op = 0xBF then 256 else 64

/-- Offset of the count field (R175). -/
def countOffset (op : Nat) : Nat := if op = 0xBF then 24 else 16

/-- A block with a value in its count field. -/
def withCount (op : Nat) (b : List Byte) (v : Dword) : List Byte :=
  b.take (countOffset op) ++ toBytes 8 v.toNat ++ b.drop (countOffset op + 8)

/-- Does an opcode require ROWS = 1 (R177)? -/
def oneRow (op : Nat) : Bool := op == 0xB8 || op == 0xBB || op == 0xC5 || op == 0xC6 || op == 0xC7

/-- A valid copy block (R175, R177). -/
def validCopy (op : Nat) (b : List Byte) : Bool :=
  let spc := field b 60 1
  let rows := field b 56 4
  decide (field b 16 8 < 2 ^ 48) && spc % 4 != 3 && spc / 4 % 4 != 3 && spc / 16 % 4 != 3 && spc / 64 == 0
    && zeroBytes b 61 64
    && (if oneRow op then rows == 1 else true)
    && (if op = 0xBE then decide (1 ≤ rows ∧ rows ≤ 64) else true)
    && (if op = 0xC5 then spc % 4 == 0 else true)

/-- A valid stream block (R175, R180); DKIND 2 only where the loader starts it. -/
def validStream (loader : Bool) (b : List Byte) : Bool :=
  let esz := field b 40 4
  let isz := field b 45 1
  decide (1 ≤ field b 24 8 ∧ field b 24 8 ≤ 2 ^ 40)
    && decide (4 ≤ esz ∧ esz ≤ 65536) && esz % 4 == 0 && decide (field b 44 1 ≤ 2) && (isz == 4 || isz == 8)
    && decide (field b 46 1 ≤ 16) && decide (field b 47 1 ≤ 1) && decide (field b 48 1 ≤ if loader then 2 else 1)
    && zeroBytes b 49 56 && zeroBytes b 72 256

/-- A valid collective block (R175, R181). -/
def validColl (b : List Byte) : Bool :=
  let ty := field b 27 1
  let tmo := field b 32 4
  decide (1 ≤ field b 16 8 ∧ field b 16 8 ≤ 2 ^ 36) && decide (field b 24 2 ≤ 255) && decide (field b 26 1 ≤ 2)
    && ((decide (4 ≤ ty ∧ ty ≤ 7)) || ty == 12 || ty == 13) && decide (1 ≤ tmo ∧ tmo ≤ 1000000) && zeroBytes b 36 64

/-- Valid(op, blk). -/
def validBlock (op : Nat) (b : List Byte) : Bool :=
  match familyOf op with
  | .copy => validCopy op b
  | .stream => validStream false b
  | .coll => validColl b

/-! ### Issue -/

/-- The captured block of a command, as the firing sees its tile SRAM, with the count of `len` in place (R175). -/
def State.captureBlock (s : State) (k : Nat) (sl : Slot) (f : Firing) (op : Nat) (x : EFields) : Except Stop (List Byte) := do
  let b := (f.r.readG x.desc).toNat
  if b % 64 ≠ 0 ∨ sl.pl.lim * 64 < b + blockSize op then throw (trapInfo 0x09 b)
  let raw := (List.range (blockSize op)).map fun i => s.readLoc f.b (.carve k (b + i))
  let blk := if x.len = .g 0 then raw else withCount op raw (f.r.readG x.len)
  if !validBlock op blk then throw (trapInfo 0x03 b)
  return blk

/-- The barrier of a command with BW = 1; a group barrier traps 0x09 (R172). -/
def State.captureBarrier (s : State) (sl : Slot) (f : Firing) (x : EFields) : Except Stop (Option Nat) :=
  if x.bw then
    if (s.barrierSeen sl.pl.ctx x.bar.toNat f.b.deferredOps).2 ≠ 0 then .error (trapInfo 0x09 x.bar.toNat)
    else .ok (some x.bar.toNat)
  else .ok none

/-- A command as it is captured. -/
def captured (k : Nat) (sl : Slot) (f : Firing) (op : Nat) (x : EFields) (blk : List Byte) (bar : Option Nat) : Command :=
  { slot := k, tl := x.tl.val, num := 0, ctx := sl.pl.ctx, cove := sl.pl.tag, gen := sl.pl.gen, op := op, family := familyOf op,
    flags := x.flags.toNat, block := blk, view := if x.deferred then [] else f.b.sbuf, barrier := bar, state := .queued,
    status := 0, progress := 0, subtracted := 0, partials := [], roundStart := 0, faultWait := none, flags5 := 0,
    loader := false, engine := 0, row := none }

/-- R175. -/
def State.issueCommand (s : State) (k : Nat) (sl : Slot) (f : Firing) (i : Instr) (op : Nat) (x : EFields) : Except Stop State := do
  let blk ← s.captureBlock k sl f op x
  let bar ← s.captureBarrier sl f x
  let c := captured k sl f op x blk bar
  if x.deferred then
    if f.b.commands = 16 then throw (trapInfo 0x07 (f.r.readG x.desc).toNat)
    return s.putFiring k sl (f.defer (.command c))
  else
    let g ← s.irrevocable k sl f i
    if !s.releaseReady g false then throw (.wait .commands)
    if 64 ≤ s.outstanding k then throw (.wait .commandRoom)
    return (s.putFiring k sl { g with started := g.started ++ [s.nextId] }).startCommand k { c with seen := joinEvents (joinEvents g.view.hb g.view.own) (s.groupWrote k) }

/-- An engine command. -/
def runCommand (i : Instr) (op : Nat) (x : EFields) (s : State) : Host.Outcome State Fault Refusal :=
  runInst i s fun s k sl f => s.issueCommand k sl f i op x

/-! ### Queries and cancels -/

/-- The code of a state (R182). -/
def CmdState.code : CmdState → Nat
  | .queued => 1 | .running => 2 | .completed => 3 | .failed => 4 | .cancelled => 5

/-- The last 64 commands of a slot (R182). -/
def State.lastCommands (s : State) (k : Nat) : List Command :=
  ((((s.en.commands.filter fun c => c.2.slot == k && !c.2.loader).map (·.2)).reverse).take 64)

/-- What a query reads (R182). -/
def State.queryCommand (s : State) (k tl num : Nat) (fam : Family) : Dword :=
  match (s.lastCommands k).find? fun c => c.tl == tl && c.num == num && decide (c.family = fam) with
  | some c => BitVec.ofNat 64 (c.state.code * 2 ^ 61 + c.status % 32 * 2 ^ 56 + c.progress % 2 ^ 48)
  | none => 0

/-- A query. -/
def runQuery (i : Instr) (op : Nat) (x : EFields) (s : State) : Host.Outcome State Fault Refusal :=
  runFiring i s fun s k _ f =>
    .ok { f with r := f.r.writeG x.desc (s.queryCommand k x.tl.val (f.r.readG x.len).toNat (familyOf op)) }

/-- A cancel (R183): at commit, or at once. -/
def runCancel (i : Instr) (op : Nat) (x : EFields) (s : State) : Host.Outcome State Fault Refusal :=
  runInst i s fun s k sl f => do
    let n := (f.r.readG x.len).toNat
    if x.deferred then return s.putFiring k sl (f.defer (.cancel op x.tl n))
    else
      let g ← s.irrevocable k sl f i
      return (s.putFiring k sl g).cancel k op x.tl.val n

/-! ### Meanings -/

/-- CPY (R177). -/
def execCpy (x : EFields) (s : State) : Host.Outcome State Fault Refusal := runCommand (.cpy x) 0xB8 x s
/-- CPYT (R177). -/
def execCpyt (x : EFields) (s : State) : Host.Outcome State Fault Refusal := runCommand (.cpyt x) 0xB9 x s
/-- CPYX gather (R177). -/
def execCpyxGather (x : EFields) (s : State) : Host.Outcome State Fault Refusal := runCommand (.cpyxGather x) 0xBA x s
/-- CPYX scatter (R177). -/
def execCpyxScatter (x : EFields) (s : State) : Host.Outcome State Fault Refusal := runCommand (.cpyxScatter x) 0xBA x s
/-- CPYS (R177). -/
def execCpys (x : EFields) (s : State) : Host.Outcome State Fault Refusal := runCommand (.cpys x) 0xBB x s
/-- CPYQ (R182). -/
def execCpyq (x : EFields) (s : State) : Host.Outcome State Fault Refusal := runQuery (.cpyq x) 0xBC x s
/-- CPYK (R183). -/
def execCpyk (x : EFields) (s : State) : Host.Outcome State Fault Refusal := runCancel (.cpyk x) 0xBD x s
/-- CPYB (R177). -/
def execCpyb (x : EFields) (s : State) : Host.Outcome State Fault Refusal := runCommand (.cpyb x) 0xBE x s
/-- STRM (R180). -/
def execStrm (x : EFields) (s : State) : Host.Outcome State Fault Refusal := runCommand (.strm x) 0xBF x s
/-- STRMQ (R182). -/
def execStrmq (x : EFields) (s : State) : Host.Outcome State Fault Refusal := runQuery (.strmq x) 0xC0 x s
/-- STRMK (R183). -/
def execStrmk (x : EFields) (s : State) : Host.Outcome State Fault Refusal := runCancel (.strmk x) 0xC1 x s
/-- COLL (R181). -/
def execColl (x : EFields) (s : State) : Host.Outcome State Fault Refusal := runCommand (.coll x) 0xC2 x s
/-- COLLQ (R182). -/
def execCollq (x : EFields) (s : State) : Host.Outcome State Fault Refusal := runQuery (.collq x) 0xC3 x s
/-- COLLK (R183). -/
def execCollk (x : EFields) (s : State) : Host.Outcome State Fault Refusal := runCancel (.collk x) 0xC4 x s
/-- FILL (R177). -/
def execFill (x : EFields) (s : State) : Host.Outcome State Fault Refusal := runCommand (.fill x) 0xC5 x s
/-- CSUM (R177, R178). -/
def execCsum (x : EFields) (s : State) : Host.Outcome State Fault Refusal := runCommand (.csum x) 0xC6 x s
/-- XFER, operation 00 (R179). -/
def execXferPin (x : EFields) (s : State) : Host.Outcome State Fault Refusal := runCommand (.xferPin x) 0xC7 x s
/-- XFER, operation 01 (R179). -/
def execXferUnpin (x : EFields) (s : State) : Host.Outcome State Fault Refusal := runCommand (.xferUnpin x) 0xC7 x s
/-- XFER, operation 10 (R179). -/
def execXferCopyPin (x : EFields) (s : State) : Host.Outcome State Fault Refusal := runCommand (.xferCopyPin x) 0xC7 x s

end Sys2Proof.Machine
end

