-- ==== Sys2Proof/Machine/Residency.lean ====
section
/-! DEFINITION. Residency, mode, surrogate and check instructions (17 R324 to R331). -/

namespace Sys2Proof.Machine

/-! ### Layers (R319, R324) -/

/-- Codes of the states of a layer (R319). -/
def TideState.code : TideState → Nat
  | .absent => 0 | .flooding => 1 | .resident => 2 | .ebbing => 3 | .faulted => 4

/-- The 64-bit entry (R319). -/
def Tide.entryWord (t : Tide) : Dword :=
  BitVec.ofNat 64 (t.state.code * 2 ^ 61 + bit t.pfl * 2 ^ 60 + (if t.state = .faulted then t.stat % 256 else 0) * 2 ^ 48
    + t.gen % 65536 * 2 ^ 32 + t.ecl % 8 * 2 ^ 29 + t.pend % 2 ^ 29)

/-- The layer that an operand names; one that the image does not describe traps 0x09 (R324). -/
def State.layerOf (s : State) (sl : Slot) (v : Dword) : Except Stop Nat :=
  let n := v.toNat
  let described := (s.cfg sl.pl.cfg).any fun c => c.launch.image.layerLines.any fun l => l.layer == n
  if n ≤ 1023 ∧ described then .ok n else .error (trapInfo 0x09 n)

/-- The entry of a layer of the slot's context. -/
def State.layerEntry (s : State) (sl : Slot) (n : Nat) : Tide := s.tide (sl.pl.ctx * 1024 + n)

/-! ### Regions (R325, R326) -/

/-- The key of region `num` of a configuration. -/
def regionKey (cfg num : Nat) : Nat := cfg * 65536 + num

/-- Does a region drain for a mode token, a level change, or a DELTA under D3 (02 R37, 09 R197, 18 R340)? -/
def Region.drain (r : Region) : Bool := !r.queue.isEmpty || !r.levels.isEmpty || decide (r.delta ≠ 0)

/-- The set that the token being served names. -/
def Region.dst (r : Region) : Option Nat := r.queue.head?.map (·.rset)

/-- The state that MODEQ reads (R326). -/
def Region.word (r : Region) : Dword :=
  BitVec.ofNat 64 (r.cfgn % 2 ^ 32 * 2 ^ 32 + bit r.drain * 2 ^ 31 + bit r.dst.isSome * 2 ^ 30 + r.dst.getD 0 % 8 * 2 ^ 27
    + r.cur % 8 * 2 ^ 24 + min r.queue.length 255 * 2 ^ 16 + r.lf % 256 * 2 ^ 8)

/-- The slot that executes MODE, as its token names it: its line, and 65,536 times its place among the copies of a clone set (02 R38). -/
def State.issuerOf (s : State) (k : Nat) (sl : Slot) : Nat :=
  sl.pl.inst + 65536 * (s.cloneSet k).elim 0 fun c => if c.copies.contains k then (c.copies.takeWhile (· != k)).length + 1 else 0

/-- Mode tokens on every control port of the actor, each with the slot that issued it (R325). -/
def Firing.emitMode (f : Firing) (sl : Slot) (rset issuer : Nat) : Firing :=
  { f with b.entries := f.b.entries ++ sl.pl.controls.map fun c => (c.1, Entry.mode c.2 rset issuer) }

/-! ### The residual (R328) -/

/-- q := max(q, |lane|) over the enabled lanes; the pattern of a NaN exceeds that of +inf, so a NaN stays. -/
def residual (q : Lane) (v : VReg) (pr : Dword) : Lane :=
  BitVec.ofNat 32 ((List.range 64).foldl (fun m i => if pr.getLsbD i then max m (velem v 32 i % 2 ^ 31) else m) q.toNat)

/-- SBEG, SRES and SFALL trap 0x0A outside a surrogate firing (R328). -/
def needSurrogate (sl : Slot) (f : Firing) : Except Stop Unit :=
  if isSurrogate sl f then .ok () else .error (.trap { code := 0x0A })

/-- FLGA.FL as the firing sees it, with the flags it has raised (R331). -/
def seenFlags (sl : Slot) (f : Firing) : BitVec 5 := (sl.flga &&& ~~~f.b.flgaClear) ||| f.r.raised

/-! ### Meanings -/

/-- FLOOD (R324). -/
def execFlood (x : RFields) (s : State) : Host.Outcome State Fault Refusal :=
  runFiring (.flood x) s fun s _ sl f => do
    let n ← s.layerOf sl (f.r.readG x.a)
    let src := (f.r.readG x.b).toNat
    if src % 65536 ≠ 0 ∨ 2 ^ 60 ≤ src then throw (trapInfo 0x09 src)
    return f.defer (.flood n src)

/-- EBB (R324). -/
def execEbb (x : RFields) (s : State) : Host.Outcome State Fault Refusal :=
  runFiring (.ebb x) s fun s _ sl f => (s.layerOf sl (f.r.readG x.a)).map fun n => f.defer (.ebb n)

/-- TIDEW (R324): an acquire of the flood that made the layer RESIDENT (07 R129, R132). -/
def execTidew (x : RFields) (s : State) : Host.Outcome State Fault Refusal :=
  runFiring (.tidew x) s fun s _ sl f => do
    let n ← s.layerOf sl (f.r.readG x.a)
    let t := s.layerEntry sl n
    if t.state ≠ .resident ∧ t.state ≠ .faulted then throw (.wait (.tide n))
    let g := if t.state = .resident then f.gain t.keptSeen else f
    return { g with r := g.r.writeG x.d t.entryWord }

/-- TIDEQ (R324). -/
def execTideq (x : RFields) (s : State) : Host.Outcome State Fault Refusal :=
  runFiring (.tideq x) s fun s _ sl f =>
    (s.layerOf sl (f.r.readG x.a)).map fun n => { f with r := f.r.writeG x.d (s.layerEntry sl n).entryWord }

/-- EVCL (R324): PRIO.ECL, buffered. -/
def execEvcl (x : RFields) (s : State) : Host.Outcome State Fault Refusal :=
  runFiring (.evcl x) s fun _ _ sl f =>
    let v := (f.r.readG x.a).toNat
    if sl.pl.launchEcl < v ∨ 8 ≤ v then .error (trapInfo 0x0A v) else .ok { f with r.sys.prioEcl := v }

/-- MODE (R325). -/
def execMode (x : RFields) (s : State) : Host.Outcome State Fault Refusal :=
  runFiring (.mode x) s fun s k sl f =>
    let v := (f.r.readG x.a).toNat
    if f.handler ∨ sl.pl.controls.isEmpty then .error (.trap { code := 0x06 })
    else if 7 < v then .error (trapInfo 0x09 v)
    else .ok (f.emitMode sl v (s.issuerOf k sl))

/-- MODEQ (R326). -/
def execModeq (x : RFields) (s : State) : Host.Outcome State Fault Refusal :=
  runFiring (.modeq x) s fun s _ sl f =>
    let n := (f.r.readG x.a).toNat
    match s.region (regionKey sl.pl.cfg n) with
    | some r => if n < 65536 then .ok { f with r := f.r.writeG x.d r.word } else .error (trapInfo 0x09 n)
    | none => .error (trapInfo 0x09 n)

/-- SBEG (R328). -/
def execSbeg (x : RFields) (s : State) : Host.Outcome State Fault Refusal :=
  runFiring (.sbeg x) s fun _ _ sl f => do
    needSurrogate sl f
    return { f with surK := true, surQ := 0 }

/-- SRES (R328). -/
def execSres (x : RFields) (s : State) : Host.Outcome State Fault Refusal :=
  runFiring (.sres x) s fun _ _ sl f => do
    needSurrogate sl f
    let n ← f.r.vecNum x.a
    return { f with surQ := residual f.surQ (f.r.v.get n) (f.r.pr x.pm) }

/-- SFALL (R328). -/
def execSfall (x : RFields) (s : State) : Host.Outcome State Fault Refusal :=
  runFiring (.sfall x) s fun _ _ sl f => do
    needSurrogate sl f
    return { f with surReject := true }

/-- CHKERR (R330). -/
def execChkerr (x : RFields) (s : State) : Host.Outcome State Fault Refusal :=
  runFiring (.chkerr x) s fun _ _ _ f =>
    if f.r.sys.chki.getLsbD 0 then .error (.trap { code := 0x0D, info := f.r.sys.chki })
    else .ok { f with r := f.r.writeG x.d (f.r.sys.chki &&& 3) }

/-- FLGT (R331). -/
def execFlgt (x : RFields) (s : State) : Host.Outcome State Fault Refusal :=
  runFiring (.flgt x) s fun _ _ sl f =>
    let v := f.r.readG x.a
    if 32 ≤ v.toNat then .error (trapInfo 0x09 v.toNat)
    else .ok { f with r := f.r.writeG x.d ((seenFlags sl f).setWidth 64 &&& v) }

end Sys2Proof.Machine
end

