-- ==== Sys2Proof/Machine/System.lean ====
section
/-! DEFINITION. System registers, queries, ending and waiting, debug halt (21 R372 to R385; 09 R199). -/

namespace Sys2Proof.Machine

/-! ### System registers (03 R50 to R56, 21 R374) -/

/-- SPLIM, CARV and PRIO as registers (03 R55, R56). -/
def carvWord (p : Placement) : Dword :=
  BitVec.ofNat 64 (p.spb % 65536 * 2 ^ 48 + p.stb % 65536 * 2 ^ 32 + p.wtb % 65536 * 2 ^ 16 + p.phb % 65536)
def prioWord (r : SysRegs) : Dword := BitVec.ofNat 64 (r.prioEcl % 8 * 256 + r.prioLvl % 16)

/-- What the system registers of a slot read as, from the values that stand for it; TRAPC and TRAPI read 0 outside a handler firing
(03 R50, R51; 21 R369). -/
def State.sysView (s : State) (sl : Slot) (r : SysRegs) (stamp : Dword) (phase rset : Nat) (flga : BitVec 5) (handler : Bool) (num sub : Nat) : Dword :=
  match num with
  | 0x000 => r.fcsr
  | 0x001 => r.tolr
  | 0x002 => r.chki
  | 0x003 => stamp
  | 0x004 => sl.pl.instWord
  | 0x005 => BitVec.ofNat 64 (phase % 16)
  | 0x006 => BitVec.ofNat 64 (rset % 8)
  | 0x007 => BitVec.ofNat 64 (sl.pl.lim % 65536)
  | 0x008 => r.spov
  | 0x009 => BitVec.ofNat 64 (sl.pl.ctx % 64)
  | 0x00A => BitVec.ofNat 64 ((s.ctx sl.pl.ctx).gen % 2 ^ 20 * 4096 + (s.ctx sl.pl.ctx).tag % 4096)
  | 0x00B => BitVec.ofNat 64 (sl.detl % 4)
  | 0x00C => prioWord r
  | 0x00D => BitVec.ofNat 64 s.ns
  | 0x00E => if handler then sl.trapc else 0
  | 0x00F => if handler then nth sl.trapi (sub % 8) 0 else 0
  | 0x010 => r.trapv
  | 0x011 => flga.setWidth 64
  | _ => carvWord sl.pl

/-- The value MFSR reads (03 R50, R51). -/
def State.sysRead (s : State) (sl : Slot) (f : Firing) (num sub : Nat) : Dword :=
  s.sysView sl f.r.sys f.r.stamp f.phase f.rset (sl.flga &&& ~~~f.b.flgaClear) f.handler num sub

/-- The bits of a register that are not reserved (03 R52 to R56); those of CTXID, COVE, DETL, PRIO and TRAPC that are not listed are taken as
reserved, which is the model's choice (log 94). -/
def sysMask (num : Nat) : Dword :=
  match num with
  | 0x000 => 0x3FFF
  | 0x001 => 0x7FFFFFFF
  | 0x002 => 0xFFFF0003
  | 0x005 => 0xF
  | 0x006 => 0x7
  | 0x007 => 0xFFFF
  | 0x008 => 0x0FFFFFFFFFFF007F
  | 0x009 => 0x3F
  | 0x00A => 0xFFFFFFFF
  | 0x00B => 0x3
  | 0x00C => 0x70F
  | 0x00E => 0x1FF
  | 0x010 => 0x3FFF9
  | 0x011 => 0x1F
  | _ => 0xFFFFFFFFFFFFFFFF

/-- Does a value hold an invalid code (03 R52, R54, R56)? -/
def sysInvalid (num : Nat) (v : Dword) : Bool :=
  match num with
  | 0x000 => bits v 12 10 == 0 || bits v 12 10 == 7
  | 0x001 => decide (0x7F800000 < v.toNat)
  | 0x008 => decide (64 < bits v 6 0)
  | _ => false

/-- The registers that MTSR may write (03 R50). -/
def sysWritable (num : Nat) : Bool := num ≤ 2 || num == 0x008 || num == 0x010 || num == 0x011

/-- MTSR (03 R51, 21 R373, R374): trap 0x03, then 0x0A, then 0x09. -/
def Firing.sysWrite (f : Firing) (sl : Slot) (num : Nat) (v : Dword) (word : Dword) : Except Stop Firing :=
  if v &&& ~~~(sysMask num) ≠ 0 ∨ sysInvalid num v then .error (.trap { code := 0x03, info := word })
  else if !sysWritable num then .error (trapInfo 0x0A v.toNat)
  else
    match num with
    | 0x000 => .ok { f with r.sys.fcsr := v }
    | 0x001 => .ok { f with r.sys.tolr := v }
    | 0x002 => .ok { f with r.sys.chki := (v &&& 0xFFFF0000) ||| (f.r.sys.chki &&& ~~~v &&& 3) }
    | 0x008 => .ok { f with r.sys.spov := v }
    | 0x010 =>
      if v.getLsbD 0 ∧ !inRun sl (bits v 17 3) then .error (trapInfo 0x09 v.toNat) else .ok { f with r.sys.trapv := v }
    | _ => .ok { f with b.flgaClear := f.b.flgaClear ||| v.setWidth 5 }

/-! ### Queries (21 R376 to R378) -/

/-- The die of a tile (01 R9). -/
def dieOf (tile : Nat) : Nat := tile / 144

/-- Pinned lines of a die, of all contexts or of one (08 R179). -/
def State.pinned (s : State) (die : Nat) (ctx : Option Nat) : Nat :=
  (s.mm.pins.filter fun p => p.1 == die && ctx.all (· == p.2.1)).length

/-- Pin-quota bytes left to a context on a die (08 R179, 21 R376). -/
def State.pinLeft (s : State) (die ctx : Nat) : Nat :=
  min (67108864 - 64 * s.pinned die none) ((s.ctx ctx).pinShare - 64 * s.pinned die (some ctx))

/-- SYSC waits while the Jetty core restarts (18 R344, 21 R376). -/
def State.askJetty (s : State) (f : Firing) (g : Reg) (v : Except Stop Nat) : Except Stop Firing :=
  if s.dv.jetty.restarting.isSome then .error (.wait .jetty) else v.map fun n => { f with r := f.r.writeG g (BitVec.ofNat 64 n) }

/-- The code of a failed translation (21 R378). -/
def XlErr.code : XlErr → Nat
  | .noMap => 1 | .malformed => 2 | .cove => 3 | .readOnly => 4 | .agent => 1

/-- The word of XLAT (21 R378): what R355 gives, by a TLB entry of the unit or the context's tables. -/
def State.xlatWord (s : State) (ctx va : Nat) (write : Bool) : Dword :=
  let failed := fun (n : Nat) => BitVec.ofNat 64 (2 ^ 63 + n * 2 ^ 56)
  if 2 ^ 60 ≤ va then failed 5
  else
    match s.translateLeaf ctx va write with
    | .error e => failed e.code
    | .ok t =>
      let size := if t.level = 4 then 0 else if t.level = 3 then 1 else 2
      BitVec.ofNat 64 (size * 2 ^ 54 + bit (t.leaf.getLsbD 2) * 2 ^ 53 + bit (t.leaf.getLsbD 3) * 2 ^ 52 + t.pa % 2 ^ 52)

/-- An order-log field of the context, 0 without a log (21 R377). -/
def State.logField (s : State) (ctx : Nat) (g : OrderLog → Nat) : Nat := ((s.ctx ctx).log).elim 0 g

/-! ### Invalidation (20 R358, 21 R379) -/

/-- An invalidation begins; it completes in a row of its own. -/
def State.beginInvalidation (s : State) (ctx vpg log : Nat) (port : Option Nat) : State :=
  let i : Invalidation := { id := s.nextId, ctx := ctx, vpg := vpg, log := log, port := port, since := s.mm.order.next }
  { s with nextId := s.nextId + 1, mm.invals := s.mm.invals ++ [i] }.later (.invalidationComplete s.nextId)

/-- TLBI (21 R379): only context 0; the firing waits until the invalidation completes. -/
def State.tlbi (s : State) (k : Nat) (sl : Slot) (f : Firing) (v : Dword) : Except Stop State :=
  if sl.pl.ctx ≠ 0 then .error (trapInfo 0x0A v.toNat)
  else if sl.waited then .ok (s.putFiring k sl f)
  else
    let vpg := bits v 59 16
    let log := bits v 5 0
    if bits v 63 60 ≠ 0 ∨ bits v 15 6 ≠ 0 ∨ 44 < log ∨ vpg % 2 ^ log ≠ 0 then .error (trapInfo 0x09 v.toNat)
    else .ok ((s.beginInvalidation sl.pl.ctx vpg log none).park k (.invalidation s.nextId))

/-! ### Debug halt (21 R383 to R385) -/

/-- A slot is frozen: its firing stays as it is and gives up the tile. -/
def State.freeze (s : State) (k : Nat) : State :=
  let s1 := s.updSlot k fun sl => { sl with due.frozen := true }
  let t := s1.tile (tileOf k)
  if t.running = some (k % 8) then s1.park k .preempted else s1

/-- A context is halted, but for a monitor (21 R383). -/
def State.haltCtx (s : State) (ctx : Nat) (monitor : Option Nat) : State :=
  let mine := s.slots.filter fun ks => ks.2.pl.ctx == ctx && !(monitor == some ks.1)
  let s1 := mine.foldl (fun s ks => s.freeze ks.1) s
  let s2 := match monitor with
    | some k => s1.updSlot k fun sl => { sl with due.monitor := true }
    | none => s1
  (s2.setCtx ctx { s2.ctx ctx with halted := true, haltDone := false }).later (.haltStopped ctx)

/-- What the holding buffers hold of a context, in the order in which it was read: the command and how far each piece takes it. -/
def State.heldPieces (s : State) (ctx : Nat) : List (Nat × Nat × Nat) :=
  let all := s.en.commands.flatMap fun c =>
    if c.2.ctx = ctx ∧ !c.2.ended then
      (c.2.held.map fun h => (h.seq, c.1, match c.2.family with | .stream => 1 | _ => h.bytes.length)).eraseDups
    else []
  all.foldl (fun l x => insertBy x l) []

/-- A context is released (21 R383, R384): the holding buffers are performed first, in their order. -/
def State.releaseCtx (s : State) (ctx : Nat) : State :=
  let free := fun (ks : Nat × Slot) =>
    if ks.2.pl.ctx = ctx then (ks.1, { ks.2 with due.frozen := false, due.monitor := false }) else ks
  let s1 := { s with slots := s.slots.map free, agenda := (s.heldPieces ctx).map (fun (h : Nat × Nat × Nat) => Move.due (.enginePiecePerformed h.2.1 h.2.2)) ++ s.agenda }
  s1.setCtx ctx { s1.ctx ctx with halted := false, haltDone := false }

/-- The slot that DSTEP names (21 R385): of the same context, by CTI and SLOT as in 08 R160. -/
def State.stepTarget (s : State) (sl : Slot) (v : Dword) : Except Stop Nat :=
  let bad := Except.error (trapInfo 0x09 v.toNat)
  if bits v 63 37 ≠ 0 ∨ bits v 21 0 ≠ 0 then bad
  else
    match s.slots.find? fun ks => ks.2.pl.cfg == sl.pl.cfg && ks.2.pl.cti == bits v 36 25 with
    | none => bad
    | some home =>
      let key := tileOf home.1 * 8 + bits v 24 22
      match s.slot key with
      | some t => if t.pl.ctx = sl.pl.ctx then .ok key else bad
      | none => bad

/-! ### The end of a handler firing, and EXIT -/

/-- The handler's own commit waits as 07 R127 and 08 R175 give, and its stores, in a stamped group, become visible after every lower
stamp has committed (02 R30 step 1, 21 R372). -/
def State.handlerEnd (s : State) (k : Nat) (sl : Slot) (f : Firing) : Except Stop Unit := do
  if !s.commandsEnded f.started then throw (.wait .commands)
  if 64 < s.outstanding k + f.b.commands then throw (.wait .commandRoom)
  if !(f.b.gbuf.isEmpty && f.b.sbuf.isEmpty) ∧ !s.lowerDone k f.r.stamp.toNat sl.pl.rank then throw (.wait .lowerStamps)

/-- SRET, which outside a handler firing traps 0x0A (21 R372). -/
def State.sret (s : State) (k : Nat) (sl : Slot) (f : Firing) (how : Return) : Except Stop State := do
  if !f.handler then throw (.trap { code := 0x0A })
  s.handlerEnd k sl f
  return s.trapReturn k sl f how

/-- EXIT (21 R380). -/
def State.exitFiring (s : State) (k : Nat) (sl : Slot) (f : Firing) : Except Stop State :=
  if f.handler then do
    if f.r.sys.chki.getLsbD 0 then throw (.trap { code := 0x0D, info := f.r.sys.chki })
    s.handlerEnd k sl f
    return (s.commitHandler k sl f).exitSlot k
  else s.endFiring k sl f .exit

/-! ### Meanings -/

/-- MFSR (R374). -/
def execMfsr (x : YFields) (s : State) : Host.Outcome State Fault Refusal :=
  runFiring (.mfsr x) s fun s _ sl f =>
    .ok { f with r := f.r.writeG x.gr (s.sysRead sl f x.sysreg.toNat x.sub.toNat) }

/-- MTSR (R374). -/
def execMtsr (x : YFields) (s : State) : Host.Outcome State Fault Refusal :=
  runFiring (.mtsr x) s fun _ _ sl f => f.sysWrite sl x.sysreg.toNat (f.r.readG x.gr) (wordInfo (.mtsr x))

/-- SYSC.ord (R376). -/
def execSyscOrd (x : YFields) (s : State) : Host.Outcome State Fault Refusal :=
  runFiring (.syscOrd x) s fun s _ sl f => s.askJetty f x.gr (.ok (s.launchOf sl.pl.cfg))

/-- SYSC.epoch (R376). -/
def execSyscEpoch (x : YFields) (s : State) : Host.Outcome State Fault Refusal :=
  runFiring (.syscEpoch x) s fun s _ _ f =>
    let g := (f.r.readG x.gr).toNat
    s.askJetty f x.gr (if 255 < g then .error (trapInfo 0x09 g) else .ok (s.group g).epoch)

/-- SYSC.pinq (R376). -/
def execSyscPinq (x : YFields) (s : State) : Host.Outcome State Fault Refusal :=
  runFiring (.syscPinq x) s fun s k sl f => s.askJetty f x.gr (.ok (s.pinLeft (dieOf (tileOf k)) sl.pl.ctx))

/-- SRET (R372): the trapped firing runs again. -/
def execSret (x : YFields) (s : State) : Host.Outcome State Fault Refusal :=
  runInst (.sret x) s fun s k sl f => s.sret k sl f .again

/-- SRET.skip (R372): the trapped firing commits empty. -/
def execSretSkip (x : YFields) (s : State) : Host.Outcome State Fault Refusal :=
  runInst (.sretSkip x) s fun s k sl f => s.sret k sl f .skip

/-- SRET.esc (R372): Jetty policy takes the trap. -/
def execSretEsc (x : YFields) (s : State) : Host.Outcome State Fault Refusal :=
  runInst (.sretEsc x) s fun s k sl f => s.sret k sl f .esc

/-- TLBI (R379). -/
def execTlbi (x : YFields) (s : State) : Host.Outcome State Fault Refusal :=
  runInst (.tlbi x) s fun s k sl f => s.tlbi k sl f (f.r.readG x.gr)

/-- XLAT (R378). -/
def execXlat (x : RFields) (s : State) : Host.Outcome State Fault Refusal :=
  runFiring (.xlat x) s fun s _ sl f =>
    .ok { f with r := f.r.writeG x.d (s.xlatWord sl.pl.ctx (f.r.readG x.a).toNat x.mods.w) }

/-- HALT (R383). -/
def execHalt (x : YFields) (s : State) : Host.Outcome State Fault Refusal :=
  runInst (.halt x) s fun s k sl f => do
    let g ← s.irrevocable k sl f (.halt x)
    return (s.putFiring k sl g).haltCtx sl.pl.ctx (some k)

/-- HALT.rel (R383). -/
def execHaltRel (x : YFields) (s : State) : Host.Outcome State Fault Refusal :=
  runInst (.haltRel x) s fun s k sl f => do
    let g ← s.irrevocable k sl f (.haltRel x)
    return (s.putFiring k sl g).releaseCtx sl.pl.ctx

/-- DSTEP (R385): the stepped instruction runs next, and then the value is written. -/
def execDstep (x : YFields) (s : State) : Host.Outcome State Fault Refusal :=
  runInst (.dstep x) s fun s k sl f => do
    let t ← s.stepTarget sl (f.r.readG x.gr)
    let g ← s.irrevocable k sl f (.dstep x)
    let s1 := s.putFiring k sl g
    let dst := match x.gr with | .g n => n.val | _ => 0
    return { s1 with agenda := .single k t dst :: s1.agenda }

/-- PRIO (R375). -/
def execPrio (x : YFields) (s : State) : Host.Outcome State Fault Refusal :=
  runFiring (.prio x) s fun _ _ sl f =>
    let v := (f.r.readG x.gr).toNat
    if 16 ≤ v then .error (trapInfo 0x09 v)
    else if sl.pl.launchLvl < v then .error (trapInfo 0x0A v)
    else .ok { f with r.sys.prioLvl := v }

/-- ORDL (R377): WP. -/
def execOrdl (x : YFields) (s : State) : Host.Outcome State Fault Refusal :=
  runFiring (.ordl x) s fun s _ sl f => .ok { f with r := f.r.writeG x.gr (BitVec.ofNat 64 (s.logField sl.pl.ctx (·.wp))) }

/-- ORDL.drop (R377). -/
def execOrdlDrop (x : YFields) (s : State) : Host.Outcome State Fault Refusal :=
  runFiring (.ordlDrop x) s fun s _ sl f => .ok { f with r := f.r.writeG x.gr (BitVec.ofNat 64 (s.logField sl.pl.ctx (·.drop))) }

/-- ORDL.stat (R377). -/
def execOrdlStat (x : YFields) (s : State) : Host.Outcome State Fault Refusal :=
  runFiring (.ordlStat x) s fun s _ sl f =>
    .ok { f with r := f.r.writeG x.gr (BitVec.ofNat 64 (s.logField sl.pl.ctx fun l => l.stat (s.ctx sl.pl.ctx).level)) }

/-- WFI (R381). -/
def execWfi (x : YFields) (s : State) : Host.Outcome State Fault Refusal :=
  runInst (.wfi x) s fun s k sl f =>
    if f.handler then .error (.trap { code := 0x0A }) else s.endFiring k sl f (.wfi (f.r.readG x.gr).toNat)

/-- EXIT (R380). -/
def execExit (x : YFields) (s : State) : Host.Outcome State Fault Refusal :=
  runInst (.exit x) s fun s k sl f => s.exitFiring k sl f

/-- CMPT (R382, R370). -/
def execCmpt (x : YFields) (s : State) : Host.Outcome State Fault Refusal :=
  runInst (.cmpt x) s fun s _ sl f =>
    let bsig := (s.cfg sl.pl.cfg).elim 0 (·.launch.image.bsig)
    .error (.trap { code := 0x16, info := f.r.readG x.gr, aux := BitVec.ofNat 64 (x.sub.toNat * 65536 + bsig % 65536) })

end Sys2Proof.Machine
end

