-- ==== Sys2Proof/Machine/EvFiring.lean ====
section
/-! DEFINITION. Arbitration, firing start, pre-emption, handler and fallback firings, overruns and draw windows
(02 R28, R29, R31; 06 R118; 12 R261; 16 R293 to R296, R306; 17 R322, R329; 21 R371). -/

namespace Sys2Proof.Machine

/-- A slot on its tile, also while its configuration waits to be moved or swapped out. -/
def State.onTiles (s : State) (k : Nat) : Option Slot :=
  match s.slot k with
  | some sl => if (s.cfg sl.pl.cfg).any (fun c => decide (c.state ≠ .ended ∧ c.state ≠ .swapped)) then some sl else none
  | none => none

/-! ### The firing guard (02 R28) -/

/-- The slots of a region (02 R37). -/
def State.regionSlots (s : State) (r : Region) : List (Nat × Slot) :=
  s.slots.filter fun ks => ks.2.pl.cfg == r.cfg && r.actors.contains ks.2.pl.actor.num

/-- The region of a slot's actor, if it has one. -/
def State.regionOf (s : State) (sl : Slot) : Option Region := sl.pl.region.bind fun n => s.region (regionKey sl.pl.cfg n)

/-- Is an actor a source of its region: no input without a delay comes from the region (log 16)? -/
def State.regionSource (s : State) (sl : Slot) (r : Region) : Bool :=
  (List.range 16).all fun p =>
    match (arcIn sl p).bind s.arc with
    | some x =>
      decide (x.delay ≠ 0) || !(x.producer.any fun q => (s.slot q.1).any fun u => r.actors.contains u.pl.actor.num)
        && x.inputs.all fun n => !((s.arc n).any fun y => y.producer.any fun q => (s.slot q.1).any fun u => r.actors.contains u.pl.actor.num)
    | none => true

/-- Does a drain hold the slot back (02 R37)? -/
def State.drainHolds (s : State) (sl : Slot) : Bool := (s.regionOf sl).any fun r => r.drain && s.regionSource sl r

/-- Does an undelivered entry stand before the tokens of the firing that comes after `n` others of the instance? It is delivered
first (06 R116, 16 R314). -/
def State.entryAhead (s : State) (own : Slot) (n : Nat) : Bool :=
  (List.range 16).any fun p =>
    ((arcIn own p).bind s.arc).any fun x =>
      x.held.isNone && (x.entries.head?).any fun e => cntReached (cnt (x.rp + rateSum own p n)) e.1

/-- Has an output port room for the firing that comes after `n` others of the instance? -/
def State.spaceOk (s : State) (own : Slot) (n p : Nat) : Bool :=
  match (arcOut own p).bind s.arc with
  | some x => decide (rateSum own (16 + p) (n + 1) ≤ s.arcSpace x)
  | none => rateSum own (16 + p) (n + 1) == 0

/-- The terms of the guard but for residency: tokens, space (on the ports but `skip`), condition bits, and nothing that holds the
slot. -/
def State.guardBut (s : State) (k : Nat) (sl : Slot) (skip : Option Nat) : Bool :=
  match s.firingsAhead k with
  | none => false
  | some n =>
    let own := s.source k sl
    let ins := (List.range 16).all fun p =>
      match (arcIn own p).bind s.arc with
      | some x => decide (rateSum own p (n + 1) ≤ x.fill)
      | none => rateSum own p (n + 1) == 0
    let outs := (List.range 16).all fun p => skip == some p || s.spaceOk own n p
    ins && outs && !s.entryAhead own n && (((s.slot (s.condSlot k)).getD sl).c &&& sl.pl.actor.condMask) == sl.pl.actor.condMatch && !s.drainHolds own

/-- The terms of the guard but for residency. -/
def State.guardRest (s : State) (k : Nat) (sl : Slot) : Bool := s.guardBut k sl none

/-- Residency of every listed layer. -/
def Slot.layersHeld (sl : Slot) : Bool := sl.layers.all (·.resident)

/-- A listed layer whose fault bit is set (17 R322). -/
def Slot.faultedLayer (sl : Slot) : Option Nat := (sl.layers.find? (·.fault)).map (·.layer)

/-- Nothing forbids the slot to start a firing: placed, not exited, and waiting for nothing. -/
def State.mayStart (s : State) (k : Nat) (sl : Slot) : Bool :=
  let d := sl.due
  (s.placed k).isSome && sl.firing.isNone && !d.exited && !d.stopped && d.policy.isNone && !d.frozen && !d.surWait
    && d.fault.isNone && !d.handler && d.wfi.isNone && !d.skip && !(s.tile (tileOf k)).retiring
    && (sl.pl.surrogate.isNone || d.fallback.isSome)

/-- Is a slot ready to start a firing (02 R28, 17 R322)? -/
def State.startReady (s : State) (k : Nat) (sl : Slot) : Bool :=
  s.mayStart k sl && s.guardRest k sl && (sl.layersHeld || sl.faultedLayer.isSome)

/-! ### Parked firings (16 R293) -/

/-- Does the condition of a parked firing hold? -/
def State.waitOver (s : State) (k : Nat) (sl : Slot) (f : Firing) : Wait → Bool
  | .timeline tl n => decide (n ≤ (sl.timeline tl).done)
  | .barrier n => (s.barrier (sl.pl.ctx * 4096 + n)).count == 0
  | .group n e => (s.barrier (sl.pl.ctx * 4096 + n)).passed e
  | .sleep till => decide (till ≤ s.clock)
  | .lowerStamps => s.lowerDone k f.r.stamp.toNat sl.pl.rank
  | .commitTurn _ => false
  | .page id => !(s.mm.faults.any fun p => p.id == id)
  | .preempted => true
  | .tide n => (s.layerEntry sl n).state == .resident || (s.layerEntry sl n).state == .faulted
  | .commandRoom => decide (s.outstanding k < 64)
  | .invalidation id => !(s.mm.invals.any fun i => i.id == id)
  | .atomic _ _ | .awt _ _ => f.request.any (·.result.isSome)
  | .commands => s.commandsEnded f.started
  | .jetty => s.dv.jetty.restarting.isNone
  | .verdict =>
    s.forced sl.detl sl.pl.ctx 4 (s.launchOf sl.pl.cfg) sl.pl.cti
      (fun x => x.toNat / 2 == (verdictSubject k f false).toNat / 2) != .hold

/-- May a parked firing resume? -/
def State.resumeReady (s : State) (k : Nat) (sl : Slot) : Bool :=
  match sl.firing with
  | some f => (s.onTiles k).isSome && !sl.due.frozen && !sl.due.stopped && f.parked.any (s.waitOver k sl f)
  | none => false

/-! ### The arbiter (16 R294) -/

/-- PRIO.LVL of a slot. -/
def Slot.level (sl : Slot) : Nat := min sl.sys.prioLvl 11

/-- The ready slots of a tile: slot number, level, parked or not, and the clock since which it is ready. -/
def State.readySlots (s : State) (tile : Nat) : List (Nat × Nat × Bool × Nat) :=
  (List.range 8).filterMap fun i =>
    match s.slot (tile * 8 + i) with
    | some sl =>
      let p := s.resumeReady (tile * 8 + i) sl
      if p || s.startReady (tile * 8 + i) sl then some (i, sl.level, p, (sl.due.readySince).getD s.clock) else none
    | none => none

/-- Steps 2 and 3: the highest level, parked before new, then round robin. -/
def roundRobin (last : Vector Nat 12) (l : List (Nat × Nat × Bool × Nat)) : Option Nat :=
  let top := l.foldl (fun m x => max m x.2.1) 0
  let high := l.filter fun x => x.2.1 == top
  let left := if high.any (·.2.2.1) then high.filter (·.2.2.1) else high
  let from' := nth last top 7
  ((List.range 8).map fun d => (from' + 1 + d) % 8).find? fun i => left.any fun x => x.1 == i

/-- Step 1: the slot that has been ready longest; ties go to the lowest slot number. -/
def readyLongest (l : List (Nat × Nat × Bool × Nat)) : Option Nat :=
  (l.foldl (fun m x => match m with
    | none => some x
    | some (y : Nat × Nat × Bool × Nat) => if x.2.2.2 < y.2.2.2 then some x else some y) none).map (·.1)

/-- The slot number that the arbiter selects, and whether step 1 selected it. -/
def State.select (s : State) (tile : Nat) : Option (Nat × Bool) :=
  let t := s.tile tile
  let l := s.readySlots tile
  if t.retiring then roundRobin t.lastPick (l.filter (·.2.2.1)) |>.map (·, false)
  else if (t.starts + 1) % 64 = 0 ∧ l.any (fun x => !x.2.2.1) then (readyLongest l).map (·, true)
  else (roundRobin t.lastPick l).map (·, false)

/-- The bookkeeping of a selection. -/
def State.selected (s : State) (k : Nat) (start : Bool) : State :=
  match s.slot k with
  | none => s
  | some sl =>
    let t := s.tile (tileOf k)
    let s1 := s.setTile (tileOf k) { t with starts := t.starts + bit start, lastPick := t.lastPick.setIfInBounds sl.level (k % 8) }
    (s1.updCfg sl.pl.cfg fun c => { c with lastActive := s.clock }).setSlot k { sl with due.readySince := none }

/-- Since when each slot of a tile has been ready: kept while it is, none when it is not. -/
def State.noteReady (s : State) (tile : Nat) : State :=
  (List.range 8).foldl (fun s i =>
    let k := tile * 8 + i
    match s.slot k with
    | some sl =>
      let r := s.resumeReady k sl || s.startReady k sl
      let since := if r then some (sl.due.readySince.getD s.clock) else none
      if since = sl.due.readySince then s else s.setSlot k { sl with due.readySince := since }
    | none => s) s

/-! ### Starting -/

/-- The core takes up a firing of a slot: the spill carve holds nothing defined (02 R29 step 2). -/
def State.enter (s : State) (k : Nat) (sl : Slot) (f : Firing) : State :=
  let s1 := { s with nextId := s.nextId + 1 }.setSlot k { sl with firing := some f, spill := [], spillId := s.nextId }
  s1.setTile (tileOf k) { s1.tile (tileOf k) with running := some (k % 8) }

/-- Entry point of the phase of the next firing, as an index of the program store (05 R90). -/
def State.entryPoint (s : State) (k : Nat) (sl : Slot) : Nat :=
  let own := s.source k sl
  sl.pl.runBase + (sl.pl.actor.entry.find (own.rset * 16 + (s.nextStart k sl).2)).getD 0

/-- The trap that a slot's next firing takes before its first instruction: of a poison check while PSN stands (03 R54), one that is due,
or a swap fault (17 R322); with the slot as it then is. -/
def State.startTrap (s : State) (sl : Slot) : Option (TrapInfo × Slot) :=
  if sl.due.check ∧ sl.sys.chki.getLsbD 0 then some ({ code := 0x0D, info := sl.sys.chki }, sl)
  else
    match sl.due.traps with
    | t :: rest => some (t, { sl with due.traps := rest })
    | [] =>
      if sl.layersHeld then none
      else
        let n := sl.faultedLayer.getD 0
        some ({ code := 0x0E, info := BitVec.ofNat 64 n, aux := BitVec.ofNat 64 (s.layerEntry sl n).stat }, sl)

/-- A FIRING STARTS (02 R29): a trap that is due comes before its first instruction. -/
def State.startFiring (s : State) (k : Nat) (starved : Bool) : State :=
  let s0 := s.selected k true
  match s0.slot k with
  | none => s
  | some sl =>
    match s0.startTrap sl with
    | some (t, sl1) => (s0.setSlot k sl1).trapBeforeStart k sl1 t
    | none =>
      let sl1 := { sl with due.check := false }
      let f := { s0.newFiring k sl (s0.entryPoint k sl) false with starved := starved }
      (s0.enter k sl1 f).noteRouted k f.r.stamp.toNat

/-- A PARKED FIRING RESUMES at the parked instruction (16 R293). -/
def State.resumeFiring (s : State) (k : Nat) : State :=
  let s0 := s.selected k false
  match s0.slot k with
  | none => s
  | some sl =>
    let s1 := s0.setSlot k { sl with firing := sl.firing.map fun f => { f with parked := none } }
    s1.setTile (tileOf k) { s1.tile (tileOf k) with running := some (k % 8) }

/-- What the arbiter does with a selected slot. -/
def State.dispatch (s : State) (k : Nat) (starved : Bool) : State :=
  if (s.slot k).any (·.firing.isSome) then s.resumeFiring k else s.startFiring k starved

/-- FIRING_START (R294): the core is free and the arbiter selects a slot without a firing. -/
def execFiringStart (tile : Nat) (s : State) : Host.Outcome State Fault Refusal :=
  let s1 := s.noteReady tile
  match (s1.tile tile).running, s1.select tile with
  | none, some (i, starved) =>
    if (s1.slot (tile * 8 + i)).any (·.firing.isNone) then .next (s1.startFiring (tile * 8 + i) starved) else .next s
  | _, _ => .next s

/-- PARKED_FIRING_RESUME (R293): the core is free and the arbiter selects a slot whose parked firing may resume. -/
def execParkedFiringResume (tile : Nat) (s : State) : Host.Outcome State Fault Refusal :=
  let s1 := s.noteReady tile
  match (s1.tile tile).running, s1.select tile with
  | none, some (i, _) =>
    if (s1.slot (tile * 8 + i)).any (·.firing.isSome) then .next (s1.resumeFiring (tile * 8 + i)) else .next s
  | _, _ => .next s

/-! ### Pre-emption (16 R295, R296) -/

/-- Is pre-emption of a running firing withheld? -/
def State.withheld (s : State) (sl : Slot) (f : Firing) : Bool :=
  f.handler || f.starved || decide (4 ≤ sl.due.voids) || (s.regionOf sl).any Region.drain

/-- The running slot that gives way at this boundary to a ready slot of a higher level. -/
def State.givesWay (s : State) (tile : Nat) : Option Nat :=
  match (s.tile tile).running with
  | none => none
  | some i =>
    match s.slot (tile * 8 + i) with
    | some sl =>
      match sl.firing with
      | some f =>
        if f.count ≠ 0 ∧ f.count % 64 = 0 ∧ !s.withheld sl f ∧ (s.readySlots tile).any (fun x => decide (sl.level < x.2.1)) then
          some (tile * 8 + i)
        else none
      | none => none
    | none => none

/-- The running firing gives way: voided when revocable, parked when not. -/
def State.giveWay (s : State) (k : Nat) : State :=
  match s.slot k with
  | some sl =>
    if sl.firing.any (·.irr) then s.park k .preempted
    else (s.dropFiring k).updSlot k fun sl => { sl with due.voids := sl.due.voids + 1 }
  | none => s

/-- PRE_EMPTION (R295): the running firing gives way and the higher slot is selected at the same boundary. -/
def execPreEmption (tile : Nat) (s : State) : Host.Outcome State Fault Refusal :=
  let s0 := s.noteReady tile
  match s0.givesWay tile with
  | some k =>
    let s1 := s0.giveWay k
    match s1.select tile with
    | some (i, starved) => .next (s1.dispatch (tile * 8 + i) starved)
    | none => .next s1
  | none => .next s

/-! ### Handler and fallback firings, commits in turn -/

/-- HANDLER_FIRING_START (R371): at TRAPV.ENT, without arbitration; in a halted context it starts frozen (R385). Its
configuration is not idle (16 R307). -/
def execHandlerFiringStart (k : Nat) (s : State) : Host.Outcome State Fault Refusal :=
  match s.slot k with
  | none => .next s
  | some sl =>
    let free := (s.tile (tileOf k)).running.isNone
    if (s.placed k).isNone ∨ !sl.due.handler ∨ sl.due.stopped ∨ sl.firing.isSome ∨ sl.due.fault.isSome ∨ (s.tile (tileOf k)).retiring then .next s
    else
      let f := s.newFiring k sl (bits sl.sys.trapv 17 3) true
      let sl1 := { sl with due.handler := false }
      let active := fun (s : State) => s.updCfg sl.pl.cfg fun c => { c with lastActive := s.clock }
      if sl.due.frozen then
        .next (active ({ s with nextId := s.nextId + 1 }.setSlot k
          { sl1 with firing := some { f with parked := some .preempted }, spill := [], spillId := s.nextId }))
      else if free then .next (active (s.enter k sl1 f))
      else .next s

/-- FALLBACK_FIRING (R329): the fallback instance runs one firing under the rejected firing's stamp. It waits for the arbiter like any
firing of its tile (16 R294, R297). -/
def execFallbackFiring (k : Nat) (s : State) : Host.Outcome State Fault Refusal :=
  let s1 := s.noteReady (tileOf k)
  match (s1.tile (tileOf k)).running, s1.select (tileOf k) with
  | none, some (i, starved) =>
    if i = k % 8 ∧ (s1.slot k).any fun sl => sl.firing.isNone && sl.due.fallback.isSome then .next (s1.startFiring k starved) else .next s
  | _, _ => .next s

/-- STAMPED_COMMIT (R139): a firing that waits for its turn commits once every earlier firing of its group has; so does an
empty commit of SRET.skip (R372). -/
def execStampedCommit (k : Nat) (s : State) : Host.Outcome State Fault Refusal :=
  match s.slot k with
  | none => .next s
  | some sl =>
    match sl.firing with
    | some f =>
      match f.parked with
      | some (.commitTurn e) =>
        if s.lowerDone k f.r.stamp.toNat sl.pl.rank ∧ !sl.due.frozen ∧ (s.onTiles k).isSome then
          let f1 := { f with parked := none }
          if isSurrogate sl f then
            match (s.putFiring k sl f1).decideVerdict k sl f1 e with
            | .ok s1 => .next s1
            | .error st => .next (s.stopWith k st)
          else .next ((s.putFiring k sl f1).finish k e)
        else .next s
      | _ => .next s
    | none =>
      if (s.placed k).isSome ∧ sl.due.skip ∧ s.lowerDone k (s.nextStart k sl).1.toNat sl.pl.rank then
        .next ((s.setSlot k { sl with due.skip := false }).commitEmpty k (s.newFiring k sl 0 false))
      else .next s

/-! ### Overruns, draw windows, MMT chunks -/

/-- FIRING_OVERRUN (R31): trap 0x11 with the declared length and the cycles run. -/
def execFiringOverrun (k : Nat) (s : State) : Host.Outcome State Fault Refusal :=
  match s.slot k with
  | some sl =>
    match sl.firing with
    | some f =>
      if sl.pl.actor.len < f.ran ∧ !sl.due.frozen then
        .next (s.takeTrap k { code := 0x11, decl := BitVec.ofNat 64 sl.pl.actor.len, act := BitVec.ofNat 64 f.ran })
      else .next s
    | none => .next s
  | none => .next s

/-- The first opcode that a slot of class 0 may not execute, in this window. -/
def Slot.windowOp (sl : Slot) : Option Nat := if sl.drawOp.isSome then sl.drawOp else sl.firing.bind (·.firstOp)

/-- A draw fault of a slot at the end of a window (R306). -/
def State.drawFault (s : State) (k : Nat) : State :=
  match s.slot k with
  | none => s
  | some sl =>
    let clean := s.setSlot k { sl with drawOp := none, firing := sl.firing.map fun f => { f with firstOp := none } }
    match sl.windowOp with
    | some op =>
      if sl.pl.actor.power = 0 then
        let t : TrapInfo := { code := 0x10, act := BitVec.ofNat 64 op }
        if sl.firing.isSome then clean.takeTrap k t
        else clean.updSlot k fun sl => { sl with due.traps := sl.due.traps ++ [t] }
      else clean
    | none => clean

/-- Tile cycles of a draw window of 1 µs. -/
def drawWindow : Nat := 2700

/-- DRAW_WINDOW_END (R306). -/
def execDrawWindowEnd (tile : Nat) (s : State) : Host.Outcome State Fault Refusal :=
  let t := s.tile tile
  if s.clock < t.windowStart + drawWindow then .next s
  else
    let s1 := s.setTile tile { t with windowStart := s.clock / drawWindow * drawWindow }
    .next ((List.range 8).foldl (fun s i => s.drawFault (tile * 8 + i)) s1)

/-- The instruction at the index of a slot's firing. -/
def State.wordAt (s : State) (k : Nat) : Option Instr :=
  match (s.slot k).bind (·.firing) with
  | some f =>
    match decode ((s.store.find (tileOf k * 32768 + f.pc)).getD 0) with
    | .ok i => some i
    | .error _ => none
  | none => none

/-- GRINDER_CHUNK (R261): the grinder executes the next chunk of the MMT that a running firing stands at. -/
def execGrinderChunk (k : Nat) (s : State) : Host.Outcome State Fault Refusal :=
  if (s.tile (tileOf k)).running = some (k % 8) then
    match s.wordAt k with
    | some (.mmt x) =>
      match execMmt x { s with focus := tileOf k } with
      | .next s1 => .next { s1 with focus := s.focus }
      | o => o
    | _ => .next s
  else .next s

/-- WFI_WAKE (R381): a slot that waits becomes ready when its entry has come or its time is over. -/
def execWfiWake (k : Nat) (s : State) : Host.Outcome State Fault Refusal :=
  match s.slot k with
  | some sl =>
    match sl.due.wfi with
    | some (some till) => if till ≤ s.clock then .next (s.setSlot k { sl with due.wfi := none }) else .next s
    | _ => .next s
  | none => .next s

end Sys2Proof.Machine
end

