-- ==== Sys2Proof/Machine/EvArcs.lean ====
section
/-! DEFINITION. Arrival of tokens, merges, control entries, spill rings, marker cuts and mode changes
(02 R24, R37 to R43; 06 R106, R116, R118; 09 R191 to R197; 23 R403, R404). -/

namespace Sys2Proof.Machine

/-! ### Merges (09 R185, R191, R195) -/

/-- Site of the merge at an input port (09 R189). -/
def mergeSite (cti port : Nat) : Nat := cti % 4096 * 16 + port % 16

/-- Subject of a kind-2 record (09 R189). -/
def mergeSubject (k input : Nat) : Dword := BitVec.ofNat 64 (k % 8 * 2 ^ 49 + input % 16)

/-! ### Recordings and runs of a cut (23 R403, R404) -/

/-- A cut of a configuration is known from here on. -/
def State.noteCut (s : State) (cfg cut : Nat) (f : CutRun → CutRun) : State :=
  match s.cfg cfg with
  | some c =>
    let fresh := !c.cuts.any fun r => r.num == cut
    let c1 := c.beginCut cut
    let c2 := c1.setRun (f (c1.cutRun cut))
    let s1 := { s with al.cfgs := s.al.cfgs.put cfg c2 }.writeSection cfg
    let s2 := if fresh ∧ c.section0.isSome ∧ ((c1.cutRun cut).dead ∨ c.cuts.any fun r => !r.dead && r.num % 2 == cut % 2) then s1.report "cut abandoned" cfg cut else s1
    s2.later (.cutComplete cfg)
  | none => s

/-- Bytes that a part holds. -/
def Configuration.partBytes (c : Configuration) (part : Nat) : Nat :=
  (c.saves.filter fun v => v.part == part).foldl (fun n v =>
    n + (v.slot.pl.wtb + v.slot.pl.spb - v.slot.pl.stb) * 64 + Config.slotSaveBytes) 0
    + (c.savedArcs.filter fun e => e.1 == part).foldl (fun n e => n + e.2.2.size * (e.2.2.recorded.foldl (fun m r => m + r.2.length) 0)) 0

/-- A recording ends with the marker at position `q`: the tokens before it join the save; a part that overflows abandons the
cut. -/
def State.endRecording (s : State) (n : Nat) (x : Arc) (cut q : Nat) : State :=
  let toks := (x.recorded.find? fun r => r.1 == cut).elim [] (·.2)
  let mine := toks.take (toks.length - cntSub x.published q)
  let s1 := s.updArc n fun x => { x with recorded := x.recorded.filter fun r => r.1 != cut }
  let keep := fun (e : Nat × Nat × Arc) => if e.1 = cut % 2 ∧ e.2.1 = n then (e.1, e.2.1, { e.2.2 with recorded := [(cut, mine)] }) else e
  let s2 := s1.updCfg x.cfg fun c => { c with savedArcs := c.savedArcs.map keep }
  let full := !mine.isEmpty && (s2.cfg x.cfg).any fun c => decide (c.part * 65536 < c.partBytes (cut % 2))
  if full then
    ((s2.updCfg x.cfg fun c => { c with abn := true }).noteCut x.cfg cut fun r => { r with dead := true, arcsDone := r.arcsDone ++ [n] }).report
      "cut abandoned" x.cfg cut
  else s2.noteCut x.cfg cut fun r => { r with arcsDone := r.arcsDone ++ [n] }

/-- A marker on a recorded arc ends its recording; one that comes before the save leaves nothing to record. -/
def State.recordedMarker (s : State) (n : Nat) (x : Arc) (cut q : Nat) : State :=
  if x.recorded.any fun r => r.1 == cut then s.endRecording n x cut q
  else if (x.consumer.bind fun c => s.slot c.1).any fun sl => sl.cut.last.any fun l => decide (cut ≤ l) then s
  else s.noteCut x.cfg cut fun r => { r with arcsDone := r.arcsDone ++ [n] }

/-- Are markers acted on for the consumer of an arc (23 R401)? -/
def State.markersOn (s : State) (x : Arc) : Bool := (s.cfg x.cfg).any fun c => (s.ctx c.launch.ctx).snapEn

/-- Does a marker that the tokens taken have reached stand at the head of an edge? Its cut. -/
def Arc.headMarker (y : Arc) : Option Nat :=
  match y.entries with
  | (q, .marker cut _) :: _ => if cntReached y.rp q then some cut else none
  | _ => none

/-- Entries of an edge that its taken tokens have reached go on to the merged port; markers stay until every aligned edge of the
port has one (log 19), and end the recording of an edge that declares a delay. A drain token has passed the merge. -/
def State.forwardEntries (s : State) (m n : Nat) : Nat → State
  | 0 => s
  | fuel + 1 =>
    match s.arc n with
    | some y =>
      match y.entries with
      | (q, e) :: rest =>
        if !cntReached y.rp q then s
        else
          match e with
          | .marker cut _ =>
            if !s.markersOn y then (s.setArc n { y with entries := rest }).forwardEntries m n fuel
            else if y.kind = .recorded then ((s.setArc n { y with entries := rest }).recordedMarker n { y with entries := rest } cut q).forwardEntries m n fuel
            else s
          | .drain _ => (s.setArc n { y with entries := rest }).forwardEntries m n fuel
          | _ => ((((s.setArc n { y with entries := rest }).carryOn m (y.carried q)).publishEntries m [e]).updArc m fun x =>
              { x with origins := if x.closed then x.origins else x.origins ++ [n] }).forwardEntries m n fuel
      | [] => s
    | none => s

/-- Once every aligned edge of a merged port holds a marker, they go on as one. -/
def State.mergeMarkers (s : State) (m : Nat) : State :=
  match s.arc m with
  | none => s
  | some x =>
    let al := x.inputs.filter fun i => (s.arc i).any fun y => y.delay == 0
    match al.filterMap fun i => (s.arc i).bind Arc.headMarker with
    | c :: t =>
      if t.length + 1 = al.length then
        let cut := t.foldl max c
        (al.foldl (fun (s : State) (i : Nat) => s.updArc i fun y => { y with entries := y.entries.drop 1 }) s).publishEntries m [.marker cut true]
      else s
    | [] => s

/-- The merged port takes the next token of its input number `i`. Turns count under D3 alone, from input 0 on (09 R195). -/
def State.mergeTake (s : State) (m : Nat) (x : Arc) (i : Nat) : State :=
  match (x.inputs[i]?).bind fun n => (s.arc n).map fun y => (n, y) with
  | some (n, y) =>
    match y.waiting with
    | (tok, psn) :: rest =>
      let d3 := (x.consumer.bind fun c => s.slot c.1).any fun sl => sl.detl == 3
      let s1 := s.setArc n { y with waiting := rest, rp := cnt (y.rp + 1) }
      let s2 := s1.updArc m fun x => { x with turn := if d3 then (i + 1) % max 1 x.inputs.length else 0 }
      let s3 := if y.parked.isEmpty then s2 else s2.later (.parkedTokenDelivery n)
      let s4 := if y.cross.isSome then s3.later (.rpMirrorUpdate n) else s3
      ((((s4.carryOn m (y.carried y.rp)).publish m [tok] psn).forwardEntries m n (y.entries.length + 1)).mergeMarkers m)
    | [] => s
  | none => s

/-- The inputs of a merged port that hold tokens which may be taken: not behind a marker that waits. -/
def State.mergeWaiting (s : State) (x : Arc) : List Nat :=
  (List.range x.inputs.length).filter fun i => ((x.inputs[i]?).bind s.arc).any fun y =>
    !y.waiting.isEmpty && !(s.markersOn y && y.headMarker.isSome)

/-- Does a marker hold a merged port: one waits in it, or it is held for a cut? -/
def Arc.mergeHeld (x : Arc) : Bool :=
  x.held.isSome || x.entries.any fun e => match e.2 with | .marker _ _ => true | _ => false

/-- One choice of a merge: D3 takes its turn, D2 the logged input, D0 and D1 the input `pref` or else the first that holds a
token; none when it must wait. -/
def State.mergeChoice (s : State) (m : Nat) (x : Arc) (pref : Option Nat) : Option State :=
  match x.consumer.bind fun c => (s.slot c.1).map fun sl => (c.1, c.2, sl) with
  | none => none
  | some (k, p, sl) =>
    let w := s.mergeWaiting x
    let ctx := sl.pl.ctx
    let lnch := s.launchOf sl.pl.cfg
    let site := mergeSite sl.pl.cti p
    let next := (w.find? fun i => pref == some i).orElse fun _ => w.head?
    let free := fun (s : State) => next.map fun i =>
      (if sl.detl = 0 ∨ sl.detl = 3 then s else s.logRecord ctx 2 lnch site (mergeSubject k i)).mergeTake m x i
    if s.arcSpace x = 0 ∨ w.isEmpty ∨ (x.mergeHeld ∧ s.markersOn x) then none
    else if sl.detl = 3 then if w.contains x.turn then some (s.mergeTake m x x.turn) else none
    else
      let say := fun (i : Nat) => s.forced sl.detl ctx 2 lnch site (fun v => v == mergeSubject k i)
      match w.find? fun i => say i == .turn with
      | some i => some (((s.performed ctx 2 lnch site).logRecord ctx 2 lnch site (mergeSubject k i)).mergeTake m x i)
      | none =>
        if w.any fun i => say i == .diverges then free ((s.diverge ctx).report "merge diverged" ctx site)
        else if w.all fun i => say i == .free then free s
        else none

/-- A merge goes on while it can. -/
def State.mergeRun (s : State) (m : Nat) (pref : Option Nat) : Nat → State
  | 0 => s
  | fuel + 1 =>
    match s.arc m with
    | none => s
    | some x =>
      match s.mergeChoice m x pref with
      | some s1 => s1.mergeRun m pref fuel
      | none => s

/-- Tokens that wait at a merge. -/
def State.mergeTokens (s : State) (x : Arc) : Nat := x.inputs.foldl (fun a n => a + (s.arc n).elim 0 (·.waiting.length)) 0

/-! ### Arrival (06 R106, 02 R43, R40) -/

/-- Does an arc come from another package? -/
def Arc.arrives (x : Arc) : Bool := x.cross.isSome && x.producer.isNone && x.consumer.isSome && x.inputs.isEmpty

/-- Tokens among what the Causeway carries. -/
def carriedTokens (l : List Carried) : Nat := (l.filter fun c => match c with | .token _ _ _ => true | _ => false).length

/-- The tokens of a list have the size of an arc. -/
def carriedFit (size : Nat) (l : List Carried) : Bool := l.all fun c => match c with | .token _ b _ => b.length == size | _ => true

/-- The context of the consumer of an arc. -/
def State.arcCtx (s : State) (x : Arc) : Option Nat := (x.consumer.bind fun c => s.slot c.1).map (·.pl.ctx)

/-- One token or entry that another package sent on an arc. A token whose tag names another context is discarded, counted and
reported (02 R25); the issuer of a peer's mode token is marked as one of a peer. -/
def State.takeCarried (s : State) (n : Nat) : Carried → State
  | .token tag b taint =>
    match s.arc n with
    | some x =>
      if (s.arcCtx x).any (· != tag) then s.foreignTokens { x with tag := tag } 1
      else (s.carryOn n (s.eventsOf (peerUnit (x.cross.getD 0)))).publish n [b] taint
    | none => s
  | .marker cut => s.publishEntries n [.marker cut true]
  | .mode region rset issuer => s.publishEntries n [.mode region rset (2 ^ 32 + issuer)]
  | .user bit => s.publishEntries n [.user bit]
  | .closed => s

/-- The consumer of an arc to another package has exited there (02 R41). -/
def State.peerClosed (s : State) (n : Nat) (x : Arc) (l : List Carried) : State :=
  if x.leaves ∧ !x.cross.any s.pathDown ∧ l = [.closed] then s.setArc n { x with closed := true, entries := [] } else s

/-- What the Causeway delivers on an arc: in order, while the path stands; the producer's guard has kept room (02 R43). -/
def State.carry (s : State) (n : Nat) (l : List Carried) : State :=
  match s.arc n with
  | none => s
  | some x =>
    let room := s.windowRoom x - cntSub x.published x.rp
    if x.leaves then s.peerClosed n x l
    else if l.isEmpty ∨ !x.arrives ∨ x.cross.any s.pathDown ∨ room < carriedTokens l ∨ !carriedFit x.size l then s
    else l.foldl (fun (s : State) (c : Carried) => s.takeCarried n c) s

/-- WP_ARRIVAL (R106): fill follows wp; tokens at a merge go on to its port. On an arc from another package the Causeway brings the
tokens and entries with it (02 R42). -/
def execWpArrival (n : Nat) (carried : List Carried) (s0 : State) : Host.Outcome State Fault Refusal :=
  let s := s0.carry n carried
  match s.arc n with
  | none => .next s
  | some x =>
    match x.merge with
    | some (m, i) =>
      match s.arc m with
      | some y => .next ((s.setArc n { x with wpSeen := x.wp }).mergeRun m (some i) (s.mergeTokens y))
      | none => .next s
    | none => .next ((s.setArc n { x with wpSeen := x.wp }).mergeRun n none (s.mergeTokens x))

/-- RP_MIRROR_UPDATE (R43): the copy at the producer follows while the path stands; the consumer's package sends its rp, which
is never ahead of what has been published. Entries that it has passed are delivered (06 R116). -/
def execRpMirrorUpdate (n : Nat) (peerRp : Option Nat) (s : State) : Host.Outcome State Fault Refusal :=
  match s.arc n with
  | none => .next s
  | some x =>
    if x.cross.any s.pathDown then .next s
    else
      match x.leaves, peerRp with
      | true, some r =>
        if cntReached r x.rpMirror ∧ cntReached x.wp r then
          .next (s.setArc n { x with rp := cnt r, rpMirror := cnt r, entries := x.entries.filter fun e => !cntReached r e.1 })
        else .next s
      | true, none => .next s
      | false, _ =>
        let s1 := s.setArc n { x with rpMirror := x.rp }
        .next (if x.arrives then s1.emit (.peer (x.cross.getD 0) "rp" n x.rp) else s1)

/-- PARKED_TOKEN_DELIVERY (R40): parked tokens go into the window in order, as space allows; those of an edge of a merge, to the
merge. -/
def execParkedTokenDelivery (n : Nat) (s : State) : Host.Outcome State Fault Refusal :=
  match s.arc n with
  | none => .next s
  | some x =>
    match x.consumer.bind fun c => (s.placed c.1).map fun _ => c.1 with
    | none => .next s
    | some k =>
      let go := x.parked.take (s.windowRoom x - cntSub x.wp x.rp)
      if go.isEmpty then .next s
      else
        let bad := ((List.range go.length).filter fun i => (go[i]?).any (·.2)).map fun i => cnt (x.wp + i)
        let x0 := { x with parked := x.parked.drop go.length, wp := cnt (x.wp + go.length) }
        let x1 := { x0 with poisoned := x.poisoned ++ bad }
        if x.merge.isSome then .next ((s.setArc n { x0 with waiting := x.waiting ++ go }).later (.wpArrival n))
        else .next (((s.writeTokens x k (go.map (·.1))).setArc n x1).later (.wpArrival n))

/-! ### Mode tokens (02 R37, R38) -/

/-- The slot that executed a mode token's MODE: of its instance, the original or the copy that the token names; a copy that has been removed
leaves its fault to the original. A peer's issuer, from 2^32 up, has none here. -/
def State.issuerSlot (s : State) (cfg issuer : Nat) : Option (Nat × Slot) :=
  match s.slots.find? fun ks => decide (issuer < 2 ^ 32) && ks.2.pl.cfg == cfg && ks.2.pl.inst == issuer % 65536 && (s.cloneSet ks.1).all fun c => c.original == ks.1 with
  | none => none
  | some (k, sl) =>
    let copy := if issuer / 65536 = 0 then none
      else (s.cloneSet k).bind fun c => (c.copies[issuer / 65536 - 1]?).bind fun u => (s.slot u).map fun x => (u, x)
    some (copy.getD (k, sl))

/-- A clone that was asked for while the region drained is created once it does not (16 R314). -/
def State.drainOver (s : State) (key : Nat) : State :=
  match s.region key with
  | some r =>
    if r.drain then s
    else
      let todo := (s.cfg r.cfg).elim [] fun c => c.cloneSets.filter fun x =>
        x.wanted && (s.slot x.original).any fun sl => r.actors.contains sl.pl.actor.num
      todo.foldl (fun (s : State) (x : CloneSet) =>
        (s.setCloneSet r.cfg { x with wanted := false }).later (.rebalancerWindow x.original)) s
  | none => s

/-- The drain tokens of a region leave its arcs. -/
def State.takeDrains (s : State) (r : Region) : State :=
  { s with arcs := s.arcs.map fun x =>
      (x.1, if x.2.cfg = r.cfg then { x.2 with entries := x.2.entries.filter fun e => e.2 != .drain r.num } else x.2) }

/-- A mode fault: the issuing slot's next firing takes trap 0x0F; of an instance that has exited only the record is posted, and one of
a peer is told. -/
def State.modeFault (s : State) (key : Nat) (r : Region) (t : ModeToken) (cause : Nat) : State :=
  let s0 := s.setRegion key { r with queue := r.queue.drop 1, lf := cause, stepping := false }
  let s1 := (if r.stepping then s0.takeDrains r else s0).drainOver key
  let info : TrapInfo := { code := 0x0F, decl := BitVec.ofNat 64 t.rset, act := BitVec.ofNat 64 r.cur,
                           info := BitVec.ofNat 64 r.num, aux := BitVec.ofNat 64 cause }
  match s1.issuerSlot r.cfg t.issuer with
  | some (k, sl) =>
    if sl.due.exited then s1.postRecord sl.pl.ctx (s1.trapRecord k sl 0 false sl.rset sl.phase info)
    else s1.setSlot k { sl with due.traps := sl.due.traps ++ [info] }
  | none =>
    let give := fun (v : Save) => if t.issuer < 2 ^ 32 ∧ v.part = 2 ∧ v.copy = 0 ∧ v.inst = t.issuer % 65536 then { v with slot.due.traps := v.slot.due.traps ++ [info] } else v
    let s2 := s1.updCfg r.cfg fun c => { c with saves := c.saves.map give }
    if 2 ^ 32 ≤ t.issuer then s2.report "mode fault of a peer" (t.issuer - 2 ^ 32) cause else s2

/-- Is a set empty for some actor of a region (02 R38)? -/
def State.emptySet (s : State) (r : Region) (set : Nat) : Bool :=
  (s.regionSlots r).any fun ks => nth ks.2.pl.actor.period set 0 == 0

/-- Tokens at the head of the queue that name an empty set raise their fault. -/
def State.serveRegion (s : State) (key : Nat) : Nat → State
  | 0 => s
  | fuel + 1 =>
    match s.region key with
    | some r =>
      match r.queue with
      | t :: _ => if s.emptySet r t.rset then (s.modeFault key r t 2).serveRegion key fuel else s
      | [] => s
    | none => s

/-- A mode token is delivered to its region controller. -/
def State.deliverMode (s : State) (cfg num rset issuer : Nat) : State :=
  let key := regionKey cfg num
  match s.region key with
  | some r =>
    (s.setRegion key { r with queue := r.queue ++ [{ rset := rset, issuer := issuer, ran := 0, age := 0 }] }).serveRegion key
      (r.queue.length + 1)
  | none => s

/-! ### Control entries (06 R116, R118; 23 R403) -/

/-- The ports of the aligned inputs of a slot. -/
def State.alignedPorts (s : State) (sl : Slot) : List Nat :=
  (List.range 16).filter fun p => ((arcIn sl p).bind s.arc).any s.alignedArc

/-- A marker of cut `cut` at position `q` on port `p` (23 R403). -/
def State.deliverMarker (s : State) (n k p : Nat) (x : Arc) (cut q : Nat) : State :=
  match s.slot k with
  | none => s
  | some sl =>
    if !(s.ctx sl.pl.ctx).snapEn then s
    else if x.kind = .recorded then s.recordedMarker n x cut q
    else if sl.cut.last.any fun l => decide (cut ≤ l) then s
    else
      let marked := if sl.cut.want = some cut then sl.cut.marked ++ [p] else [p]
      let s1 := s.setSlot k { sl with cut.want := some cut, cut.marked := marked }
      let s2 := s1.updArc n fun x => { x with held := some cut }
      if (s.alignedPorts sl).all marked.contains then s2.saveCut k cut [] else s2

/-- An entry at position `q` reaches the consumer slot; with clones, a user entry sets the bit of the original alone (log 103). -/
def State.deliverEntry (s : State) (n k p : Nat) (x : Arc) (q : Nat) : Entry → State
  | .user j =>
    s.updSlot k fun sl =>
      { sl with c := sl.c ||| BitVec.ofNat 32 (2 ^ j.val), due.wfi := sl.due.wfi.map fun _ => some s.clock }
  | .mode region rset issuer => s.deliverMode x.cfg region rset issuer
  | .drain region => s.later (.quiescentPoint (regionKey x.cfg region))
  | .marker cut _ => s.deliverMarker n k p x cut q

/-- Has no firing of the instance of a slot begun that has not ended? With clones, in no copy (16 R314). -/
def State.instanceIdle (s : State) (k : Nat) : Bool :=
  (s.placed k).any (·.firing.isNone) && (s.cloneSet k).all fun c => (c.original :: c.copies).all fun j => (s.slot j).all (·.firing.isNone)

/-- Is the first entry of an arc to be delivered now (06 R116)? None is while a marker holds the arc (log 104). -/
def State.entryDue (s : State) (x : Arc) : Option (Nat × Nat × Nat × Entry) :=
  match x.consumer, x.entries with
  | some (k, p), (q, e) :: _ =>
    if cntReached x.rp q ∧ x.held.isNone ∧ x.merge.isNone ∧ s.instanceIdle k then some (k, p, q, e) else none
  | _, _ => none

/-- CONTROL_ENTRY_DELIVERY (R116), which the commit that placed the entry happens before (07 R129); on an edge of a merge the entry goes on to the port. -/
def execControlEntryDelivery (n : Nat) (s : State) : Host.Outcome State Fault Refusal :=
  match s.arc n with
  | none => .next s
  | some x =>
    match x.merge with
    | some (m, _) => .next (((s.forwardEntries m n (x.entries.length + 1)).mergeMarkers m).later (.wpArrival n))
    | none =>
      match s.entryDue x with
      | some (k, p, q, e) =>
        let counted := match e with | .marker _ _ => false | .drain _ => false | _ => true
        let x1 := { x with entries := x.entries.drop 1, origins := if counted then x.origins.drop 1 else x.origins }
        let s0 := (s.setArc n x1).updSlot k fun sl => { sl with seen := joinEvents sl.seen (x.carried q) }
        let s1 := s0.deliverEntry n k p x1 q e
        let s2 := match e with | .user _ => s1.later (.wfiWake k) | _ => s1
        let s2 := if x1.arrives then s2.later (.rpMirrorUpdate n) else s2
        .next (if x1.entries.isEmpty then s2 else s2.soon (.controlEntryDelivery n))
      | none => .next s

/-! ### Cuts (23 R404) -/

/-- Has every slot of a configuration saved a cut, and every recorded arc delivered its marker? An instance that has exited saves
nothing more (log 17). While the configuration is swapped out its cut stands still (23 R407). -/
def State.cutDone (s : State) (cfg : Nat) (r : CutRun) : Bool :=
  (s.cfg cfg).all (fun c => decide (c.state ≠ .swapped)) && (s.slots.all fun ks => ks.2.pl.cfg != cfg || ks.2.due.exited || ks.2.pl.surrogate.isSome
      || (s.cloneSet ks.1).any (fun x => x.original != ks.1) || r.saved.contains ks.2.pl.inst)
    && s.arcs.all fun x => x.2.cfg != cfg || x.2.delay == 0 || r.arcsDone.contains x.1
      || (x.2.consumer.bind fun c => s.slot c.1).all fun sl => sl.due.exited

/-- CUT_COMPLETE (R404): LAST and VLD; of a cut that was abandoned nothing remains. -/
def execCutComplete (cfg : Nat) (s : State) : Host.Outcome State Fault Refusal :=
  match s.cfg cfg with
  | some c =>
    match c.cuts.find? fun r => s.cutDone cfg r with
    | some r =>
      let rest := c.cuts.filter fun x => x.num != r.num
      let c1 := { c with cuts := rest, inpr := if c.inpr = r.num then 0 else c.inpr }
      let c2 := if r.dead then c1 else { c1 with last := r.num, vld := true }
      let s1 := { s with al.cfgs := s.al.cfgs.put cfg c2 }.writeSection cfg
      .next (if c2.rollbackDue then s1.later (.cfgRollback cfg) else s1)
    | none => .next s
  | none => .next s

/-! ### Quiescent points (02 R37; 09 R194, R197) -/

/-- Is an arc of a region: both ends at its actors, and no delay (log 96)? -/
def State.insideRegion (s : State) (r : Region) (x : Arc) : Bool :=
  let mem := fun (k : Nat) => (s.slot k).any fun sl => sl.pl.cfg == r.cfg && r.actors.contains sl.pl.actor.num
  x.delay == 0 && x.consumer.any (fun c => mem c.1) && (x.producer.any (fun p => mem p.1)
    || x.inputs.any fun n => (s.arc n).any fun y => y.producer.any fun p => mem p.1)

/-- Has a region reached its quiescent point (02 R37, R39)? One whose configuration is not placed waits for its placement. -/
def State.quiescent (s : State) (r : Region) : Bool :=
  ((s.cfg r.cfg).any fun c => decide (c.state = .placed))
    && (s.regionSlots r).all (fun ks => ks.2.firing.isNone && !ks.2.due.handler && !ks.2.due.surWait && !ks.2.due.skip)
    && s.arcs.all fun x => !s.insideRegion r x.2
      || (x.2.wp == x.2.rp && x.2.parked.isEmpty && x.2.waiting.isEmpty && s.mergeTokens x.2 == 0)

/-- The clone sets of a region's actors. -/
def State.regionSets (s : State) (r : Region) : List CloneSet :=
  (s.regionSlots r).filterMap fun ks => (s.cloneSet ks.1).filter fun c => c.original == ks.1

/-- Clones of the region's actors start to be removed, before the switch (16 R314, 09 R196). -/
def State.dropRegionClones (s : State) (r : Region) : State := (s.regionSets r).foldl State.retireClones s

/-- Are the rate-table entries of a set even in every slot of a region (02 R23, R38)? -/
def State.evenSet (s : State) (r : Region) (set : Nat) : Bool :=
  (s.regionSlots r).all fun ks => nth ks.2.rateGen set 0 % 2 == 0

/-- The level that the slots of a region hold. -/
def State.regionLevel (s : State) (r : Region) : Nat := ((s.regionSlots r).head?).elim 0 (·.2.detl)

/-- The level change of a region at its quiescent point, with its kind-6 record (09 R189, R197); merges at its actors begin with
input 0 (09 R195). -/
def State.switchLevel (s : State) (r : Region) (new : Nat) (cfgn : Nat) : State :=
  match (s.cfg r.cfg).map (·.launch) with
  | none => s
  | some l =>
    let old := s.regionLevel r
    let subj := BitVec.ofNat 64 (old % 4 * 2 ^ 62 + new % 4 * 2 ^ 60 + cfgn % 2 ^ 32)
    let mine := (s.regionSlots r).map (·.1)
    let s1 := mine.foldl (fun (s : State) (k : Nat) => s.updSlot k fun sl => { sl with detl := new }) s
    let restart := fun (x : Nat × Arc) => (x.1, if x.2.consumer.any fun c => mine.contains c.1 then { x.2 with turn := 0 } else x.2)
    let s2 := { s1 with arcs := s1.arcs.map restart }
    let s3 := s2.noteRuns l.ctx (· == l.ordinal) fun h => { h with lowest := min h.lowest new, changed := h.changed || old != new }
    (s3.holdLevel l.ctx new).logRecord l.ctx 6 l.ordinal r.num subj

/-- The drain tokens of a region that steps its configuration number under D3, on every arc of it that declares no delay
(09 R194). -/
def State.placeDrains (s : State) (key : Nat) (r : Region) : State :=
  let on := (s.arcs.filter fun x => s.insideRegion r x.2).map (·.1)
  (on.foldl (fun (s : State) (n : Nat) => s.publishEntries n [.drain r.num]) (s.setRegion key { r with stepping := true })).later (.quiescentPoint key)

/-- Do drain tokens of a region stand on arcs: has some element not passed them (09 R194)? -/
def State.drainsOut (s : State) (r : Region) : Bool :=
  s.arcs.any fun x => x.2.cfg == r.cfg && x.2.entries.any fun e => e.2 == .drain r.num

/-- The switch of a region: the named set with PHASE 0, then the level; CFGN counts once (02 R37; 09 R194, R197). -/
def State.switchRegion (s : State) (key : Nat) (r : Region) : State :=
  let set := r.queue.head?.map (·.rset)
  let s1 := match set with
    | some n => (s.regionSlots r).foldl (fun (s : State) (ks : Nat × Slot) => s.updSlot ks.1 fun sl => { sl with rset := n, phase := 0 }) s
    | none => s
  let cfgn := (r.cfgn + 1) % 2 ^ 32
  let s2 := s1.setRegion key
    { r with cfgn := cfgn, cur := set.getD r.cur, queue := r.queue.drop 1, levels := r.levels.drop 1, levelRan := 0, delta := 0, stepping := false }
  let s3 := match r.levels with
    | (new, q, n) :: _ =>
      let t := s2.switchLevel r new cfgn
      if (t.regionsWaiting q n).isEmpty then t.finishPacket q n 0 else t
    | [] => s2
  (s3.serveRegion key r.queue.length).drainOver key

/-- QUIESCENT_POINT (R37): clones leave first (16 R314), and a DELTA under D3 makes its changes (18 R340); under D3 the drain tokens pass
through the region (09 R194); then the region switches and its sources resume. -/
def execQuiescentPoint (key : Nat) (s : State) : Host.Outcome State Fault Refusal :=
  match s.region key with
  | none => .next s
  | some r =>
    if !r.drain ∨ !s.quiescent r ∨ (r.dst).any (fun n => !s.evenSet r n) then .next s
    else if !(s.regionSets r).isEmpty then
      if (s.regionSets r).any fun c => !c.active.isEmpty then .next ((s.dropRegionClones r).later (.quiescentPoint key)) else .next s
    else if r.delta = 1 then .next s
    else if s.regionLevel r = 3 ∧ !r.stepping then .next (s.placeDrains key r)
    else if r.stepping ∧ s.drainsOut r then .next s
    else .next (s.switchRegion key r)

/-- Tile cycles of the 10 ms drain bound, and of the generation wait (02 R38). -/
def drainBound : Nat := 27000000
def generationBound : Nat := 4096

/-- DRAIN_TIMEOUT (R38): the drain clock has counted 10 ms; the region resumes under the old rate set. -/
def execDrainTimeout (key : Nat) (s : State) : Host.Outcome State Fault Refusal :=
  match s.region key with
  | some r =>
    match r.queue with
    | t :: _ => if drainBound ≤ t.ran then .next ((s.modeFault key r t 1).serveRegion key r.queue.length) else .next s
    | [] => .next s
  | none => .next s

/-- GENERATION_WAIT_TIMEOUT (R38): an entry is still odd 4,096 cycles after the token was delivered. -/
def execGenerationWaitTimeout (key : Nat) (s : State) : Host.Outcome State Fault Refusal :=
  match s.region key with
  | some r =>
    match r.queue with
    | t :: _ =>
      if generationBound ≤ t.age ∧ !s.evenSet r t.rset then .next ((s.modeFault key r t 3).serveRegion key r.queue.length)
      else .next s
    | [] => .next s
  | none => .next s

/-- LEVEL_CHANGE_TIMEOUT (R197): the region keeps its old level, and the DETSET fails naming it; the other regions that it still waits
for keep theirs. -/
def execLevelChangeTimeout (key : Nat) (s : State) : Host.Outcome State Fault Refusal :=
  match s.region key with
  | some r =>
    match r.levels with
    | (_, q, n) :: _ =>
      if r.levelRan < drainBound then .next s
      else
        let quit := fun (s : State) (x : Nat × Region) =>
          let others := x.2.levels.filter fun l => l.2 != (q, n)
          let s1 := s.setRegion x.1 { x.2 with levels := others, levelRan := 0, stepping := x.2.stepping && (!x.2.queue.isEmpty || x.2.delta != 0) }
          (if x.2.stepping && x.2.queue.isEmpty && x.2.delta == 0 then s1.takeDrains x.2 else s1).drainOver x.1
        let s1 := (s.regionsWaiting q n).foldl quit s
        let l := (s.cfg r.cfg).map (·.launch)
        let s2 := l.elim s1 fun l => s1.noteRuns l.ctx (fun o => s1.al.cfgs.any fun c =>
            c.2.launch.ctx == l.ctx && c.2.launch.ordinal == o && decide (c.2.state ≠ .ended))
          fun h => { h with part := true }
        .next ((s2.report "level change timed out in region" r.cfg r.num).finishPacket q n 7)
    | [] => .next s
  | none => .next s

end Sys2Proof.Machine
end

