-- ==== Sys2Proof/Machine/EvAtomic.lean ====
section
/-! DEFINITION. Atomics at their homes and remote answers (07 R137; 08 R163, R166, R167; 09 R191; 23 R408). -/

namespace Sys2Proof.Machine

/-- The request of a peer as the home performs it. -/
def peerRequest (tag opcode ty pa : Nat) (b c : Dword) (rm : Rnd) (sat : Bool) (sr : Nat) : AtomicReq :=
  { tag := tag, op := opcode, ty := ty, va := pa, pa := pa, b := b, c := c, rm := rm, sat := sat, sr := sr, order := 0, dst := 0,
    site := 0, subj := 0, arrived := false, result := none }

/-- Key of the generation that a home holds for a cove tag of a peer package (20 R367). -/
def peerGenKey (pkg home tag : Nat) : Nat := ((pkg + 1) * 1024 + home) * 4096 + tag

/-- Does a home perform a write that a peer package sent (20 R366, R367)? -/
def State.peerTakes (s : State) (pkg pa tag gen : Nat) : Bool :=
  decide ((s.mm.homeGen.find (peerGenKey pkg (homeOf pa) tag)).getD 0 = gen)

/-- What a peer package writes here, by an atomic or not and with its poison or without (23 R398): a release of what it has written before;
splices as for every write. -/
def State.peerStore (s : State) (pkg : Nat) (atomic taint : Bool) (ws : List (Nat × Byte)) : State :=
  let ok := mirrored s.mm.splices ws
  let w : Writer := { tag := 0, gen := 0, unit := peerUnit pkg, before := s.eventsOf (peerUnit pkg), release := true, atomic := atomic,
                      grain := if atomic then 0 else accessGrain ws, rel := (s.handed (s.newestOf (ok.map (·.1)))).1 }
  let s1 := s.writeEvent w (fun _ => false) ok
  { s1 with mm.poison := poisonAfter s.mm.poison ok taint, mm.dirty := s.mm.dirty.filter fun d => !ok.any fun w => w.1 == d.2.1 }

/-- A peer's request is performed at its home here, and the home notes its tag. -/
def State.performPeer (s : State) (pkg slot : Nat) (q : AtomicReq) : State :=
  let old := s.atomicOld q
  let ws := match (q.written old).1 with
    | some p => (toBytes q.type.bytes p).zipIdx.map fun z => (s.spliceHome q.pa + z.2, z.1)
    | none => []
  ((s.peerStore pkg true false ws).noteTag (atomicHome q.pa) (tagKey pkg slot q.tag) (some (q.extend old)) {}).emit
    (.peer pkg "atomic result" q.tag (q.extend old).toNat)

/-- A peer's request arrives: an old generation or a refused tag is dropped (20 R366, R167), one issued more than 1 ms before is dropped
and its tag noted as not performed (R167), poison stops it (23 R398), and an AWT whose condition fails is acknowledged and held
(R166). -/
def State.peerAtomic (s : State) (pkg slot age cove gen : Nat) (q : AtomicReq) : State :=
  let key := tagKey pkg slot q.tag
  if !s.peerTakes pkg q.pa cove gen ∨ s.tagRefused (atomicHome q.pa) key then s
  else if 1000000 < age then s.noteTag (atomicHome q.pa) key none {}
  else if s.atomicPoison q then s.emit (.peer pkg "atomic poisoned" q.tag 0)
  else if q.op = 0xA6 ∧ !q.met (s.atomicOld q) then
    let w : PeerWait := { id := s.nextId, pkg := pkg, slot := slot, cove := cove, gen := gen, q := q }
    { s with nextId := s.nextId + 1, en.peerWaits := s.en.peerWaits ++ [w] }.emit (.peer pkg "awt acknowledged" q.tag 0)
  else s.performPeer pkg slot q

/-- An AWT of a peer whose condition holds by now is answered. -/
def State.peerWaitMet (s : State) (id : Nat) : State :=
  match s.en.peerWaits.find? fun w => w.id == id with
  | some w =>
    if !s.peerTakes w.pkg w.q.pa w.cove w.gen then { s with en.peerWaits := s.en.peerWaits.filter fun x => x.id != id }
    else if w.q.met (s.atomicOld w.q) then
      { s with en.peerWaits := s.en.peerWaits.filter fun x => x.id != id }.performPeer w.pkg w.slot w.q
    else s
  | none => s

/-- A late request is performed: it establishes no edge, unless an ARTY asks for it (07 R138). -/
def State.performLate (s : State) (l : LateRequest) : State :=
  let old := s.atomicOld l.q
  let reads := s.atomicReads l.q
  let s1 := s.atomicWrite { tag := l.cove, gen := l.gen, unit := tileOf l.slot } l.q (l.q.written old).1
  let own := if s1.mm.order.next = s.mm.order.next then [] else [s.mm.order.next]
  if s.isRemote l.q.pa then s1.noteTag (atomicHome l.q.pa) l.key (some (l.q.extend old)) { l.sync with reads := reads, own := own } else s1

/-- A request that its firing has given up reaches its home after all (07 R138): dropped when its generation is old, its tag is
refused, or it was issued more than 1 ms before (R167), else performed; an AWT writes nothing. A D2 log holds it until its turn, or finds
that it diverges (09 R191, R193). -/
def State.lateArrival (s : State) (l : LateRequest) : State :=
  let s1 := { s with en.late := s.en.late.filter fun x => x != l }
  let home := atomicHome l.q.pa
  if !s.homeTakes l.q.pa l.cove l.gen ∨ s.tagRefused home l.key ∨ s.atomicPoison l.q ∨ l.q.op = 0xA6 then s1
  else if s.isRemote l.q.pa ∧ l.since + cycles1ms < s.clock then s1.noteTag home l.key none {}
  else
    match s.slot l.slot with
    | none => s1.performLate l
    | some sl =>
      let ctx := sl.pl.ctx
      let lnch := s.launchOf sl.pl.cfg
      let go := fun (s : State) => (if sl.detl = 0 then s else s.logRecord ctx 1 lnch l.q.site l.q.subj).performLate l
      match s.forced sl.detl ctx 1 lnch l.q.site (fun x => x == l.q.subj) with
      | .free => go s1
      | .turn => go ((s1.performed ctx 1 lnch l.q.site).offerHeld ctx)
      | .hold => s
      | .diverges => go (s1.diverge ctx)

/-- Is a request of a slot on its way to its home? -/
def State.inFlight (s : State) (k : Nat) : Option AtomicReq :=
  ((s.slot k).bind fun sl => sl.firing.bind (·.request)).filter fun q => !q.arrived

/-- ATOMIC_AT_HOME (R137): a request that is on its way arrives unless the path is down (23 R408), also one that its firing has given up
as LOST; a request or an ARTY of a peer arrives here. -/
def execAtomicAtHome (r : HomeRequest) (s : State) : Host.Outcome State Fault Refusal :=
  let down := fun (q : AtomicReq) => s.isRemote q.pa && s.pathDown (paPkg q.pa)
  match r with
  | .own k =>
    match s.inFlight k with
    | some q => .next (if down q then s else s.arrival k)
    | none =>
      match s.en.late.find? fun l => l.slot == k && !down l.q with
      | some l => .next (s.lateArrival l)
      | none => .next (s.arrival k)
  | .peer pkg slot tag age cove gen opcode ty pa b c rm sat sr =>
    .next (s.peerAtomic pkg slot age cove gen (peerRequest tag opcode ty pa b c rm sat sr))
  | .ask pkg slot tag pa =>
    let a := s.tagAnswer (atomicHome pa) (tagKey pkg slot tag)
    .next (a.2.emit (.peer pkg "tag answer" a.1.1 a.1.2.toNat))

/-- HELD_ATOMIC_RELEASE (09 R191): a held atomic whose turn has come is performed. -/
def execHeldAtomicRelease (k : Nat) (s : State) : Host.Outcome State Fault Refusal :=
  match (s.slot k).bind fun sl => sl.firing.bind (·.parked) with
  | some (.atomic _ true) => .next (s.arrival k)
  | _ => .next s

/-- From this number on AWT_CONDITION_MET names an AWT of a peer. -/
def peerWaitBase : Nat := 2 ^ 48

/-- AWT_CONDITION_MET (R166): the location of a held AWT meets its condition and the home returns the value. -/
def execAwtConditionMet (k : Nat) (s : State) : Host.Outcome State Fault Refusal :=
  if peerWaitBase ≤ k then .next (s.peerWaitMet (k - peerWaitBase))
  else
    match s.slot k with
    | none => .next s
    | some sl =>
      match sl.firing.bind fun f => f.request.map fun q => (f, q) with
      | some (f, q) =>
        if q.op = 0xA6 ∧ q.arrived ∧ q.result.isNone then
          if s.atomicPoison q then .next (s.takeTrap k { code := 0x0D, info := BitVec.ofNat 64 q.va })
          else if q.met (s.atomicOld q) then .next (s.performAtHome k sl f q)
          else .next s
        else .next s
      | none => .next s

/-- Trap 0x13 of an atomic (R163, 21 R370). -/
def lostTrap (q : AtomicReq) : TrapInfo :=
  { code := 0x13, decl := q.b, act := q.c, info := BitVec.ofNat 64 q.va, aux := BitVec.ofNat 64 (q.op * 2 ^ 32 + q.tag % 2 ^ 32) }

/-- REMOTE_ATOMIC_TIMEOUT (R167, R168): no answer within 200 µs, or the Causeway reports the request lost; whether it has been or will
be performed is open, and it establishes no edge (07 R138). An AWT that its home holds is lost only when the path goes down (R166); the time for which a D2 log holds
an atomic does not count (09 R192). -/
def execRemoteAtomicTimeout (k : Nat) (s : State) : Host.Outcome State Fault Refusal :=
  match s.slot k with
  | none => .next s
  | some sl =>
    match sl.firing with
    | none => .next s
    | some f =>
      match f.request, f.parked with
      | some q, some w =>
        let down := s.isRemote q.pa && s.pathDown (paPkg q.pa)
        let since : Option Nat := match w with | .atomic t false => some t | _ => none
        let late := since.any fun t => decide (t + cycles200us ≤ s.clock)
        if (s.isRemote q.pa ∨ paHost q.pa) ∧ (down ∨ late) then
          let s1 := s.takeTrap k (lostTrap q)
          if q.arrived then .next (s1.rerelease (s.atomicSync k sl f q q.events q.own) false)
          else
            let l : LateRequest :=
              { slot := k, cove := sl.pl.tag, gen := sl.pl.gen, key := tagKey s.dv.pkg k q.tag, since := since.getD s.clock, q := q,
                sync := s.atomicSync k sl f q [] [] }
            .next ({ s1 with en.late := s1.en.late ++ [l] }.later (.atomicAtHome k))
        else .next s
      | _, _ => .next s

end Sys2Proof.Machine
end

