-- ==== Sys2Proof/Machine/EvEngine.lean ====
section
/-! DEFINITION. What engine commands and strand streams do, piece by piece, and collectives with their membership recovery
(07 R143 to R146; 08 R176 to R181; 20 R360; 25 R420 to R423). -/

namespace Sys2Proof.Machine

/-! ### Accesses of an engine -/

/-- Why an engine cannot go on: a status (R176), or a page fault. -/
inductive EngineStop where
  | status (n : Nat)
  | page (va reason : Nat) (write : Bool)
deriving DecidableEq, Repr

/-- The status of a stop that a tile would take as a trap (R176). -/
def engineStop : Stop → EngineStop
  | .page va r w => .page va r w
  | .trap t => .status (if t.code = 0x0A then 4 else 2)
  | .wait _ => .status 2

/-- The unit in whose TLB a command translates (20 R356). -/
def Command.unit (c : Command) : Nat :=
  match c.family with
  | .copy => tileOf c.slot
  | .stream => strandUnit c.engine
  | .coll => collUnit c.engine

/-- The bytes of an access of a command in one of its spaces (R177). A peer whose path has been given up gives status 8 (R176,
23 R408). -/
def State.engineLocs (s : State) (c : Command) (space a n : Nat) (write : Bool) : Except EngineStop (List Loc) := do
  let u := s.at c.unit
  let r : Except Stop (List Loc) :=
    if space = 0 then u.globalLocs [] c.ctx a n write
    else
      match s.slot c.slot with
      | none => .error (trapInfo 0x09 a)
      | some sl => if space = 1 then u.tileLocs [] c.slot sl sl.sys.spov a n write else s.remoteLocs sl a n write
  let ls ← r.mapError engineStop
  if ls.any fun l => match l with | .glob pa _ => paPeer pa && s.pathGone (paPkg pa) | .carve _ _ => false then throw (.status 8)
  return ls

/-- A byte as a command reads it (07 R143): its reads come after its launch (07 R129, R130). -/
def State.engineByte (s : State) (c : Command) : Loc → Byte
  | .glob pa _ => (s.seenByte { hb := c.seen } false [pa] pa).1
  | .carve k a => (c.view.find (carveKey k a)).getD (s.carveByte k a)

/-- Poison that a command meets. -/
def State.enginePoison (s : State) (ls : List Loc) : Bool := ls.any (s.poisonLoc Buffers.empty)

/-- Writes of a command (20 R366, 23 R398), whole by aligned dwords (07 R123); `release` marks the signal of CPYS, a release of the copy's
writes (08 R177), and `direct` the frames whose lines the shelf does not cache. -/
def State.engineWrite (s : State) (c : Command) (taint release : Bool) (direct : List Nat) (ws : List (Loc × Byte)) : State :=
  let glob := ws.filterMap fun w => match w.1 with | .glob pa _ => some (pa, w.2) | .carve _ _ => none
  let spill := fun (w : Loc × Byte) => match w.1 with
    | .carve k a => (s.slot k).any fun sl => decide (sl.pl.spb * 64 ≤ a)
    | .glob _ _ => false
  let carve := (ws.filter fun w => !spill w).filterMap fun w => match w.1 with | .carve k a => some (carveKey k a, w.2) | .glob _ _ => none
  let w : Writer := { tag := c.cove, gen := c.gen, unit := c.unit, before := if release then s.eventsBy c else c.seen, release := release,
                      cmd := if c.loader then none else some (c.slot, c.tl, c.num), grain := 8, direct := direct }
  let s1 := (s.writeGlobal w taint glob).writeCarve taint carve
  let sp := ws.filter spill
  let keys := sp.filterMap fun w => match w.1 with | .carve k a => some (carveKey k a) | .glob _ _ => none
  sp.foldl (fun s w => match w.1 with
    | .carve k a => s.updSlot k fun sl => sl.spillWrite taint (sp.filterMap fun v => match v.1 with | .carve j b => if j = k ∧ b / 64 = a / 64 then some (b, v.2) else none | .glob _ _ => none)
    | .glob _ _ => s) (s1.noteSram keys)

/-- The bytes read at an address. -/
def State.engineRead (s : State) (c : Command) (space a n : Nat) : Except EngineStop (List Byte × Bool) :=
  (s.engineLocs c space a n false).map fun ls => (ls.map (s.engineByte c), s.enginePoison ls)

/-- The frames of a global access of a command that its leaf keeps out of the shelf (20 R354). -/
def State.engineDirect (s : State) (c : Command) (space a : Nat) (ls : List Loc) : List Nat :=
  match (s.at c.unit).translate c.ctx a true with
  | .ok t => if space = 0 ∧ !t.leaf.getLsbD 3 then ((ls.filterMap Loc.pa).map (· / 65536)).eraseDups else []
  | .error _ => []

/-- Bytes written at an address, as a release or not. -/
def State.engineStoreAs (s : State) (c : Command) (release : Bool) (space a : Nat) (r : List Byte × Bool) : Except EngineStop State :=
  (s.engineLocs c space a r.1.length true).map fun ls => s.engineWrite c r.2 release (s.engineDirect c space a ls) (ls.zip r.1)

def State.engineStore (s : State) (c : Command) (space a : Nat) (r : List Byte × Bool) : Except EngineStop State :=
  s.engineStoreAs c false space a r

/-- The bytes of a piece: as the holding buffer has them, or read now (21 R384). -/
def State.pieceRead (s : State) (c : Command) (space a n : Nat) : Except EngineStop (List Byte × Bool) :=
  match c.held.find? fun h => h.pos == c.progress && h.src == a && h.bytes.length == n with
  | some h => .ok (h.bytes, h.psn)
  | none => s.engineRead c space a n

/-- Bytes from one address to another, at most 64 at a time. -/
def State.engineMove (s : State) (c : Command) (ss a ds b n : Nat) : Except EngineStop State := do
  let r ← s.pieceRead c ss a n
  s.engineStore c ds b r

/-! ### Fields of a block (R177) -/

def Command.src (c : Command) : Nat := field c.block 0 8
def Command.dst (c : Command) : Nat := field c.block 8 8
def Command.len (c : Command) : Nat := field c.block 16 8
def Command.rows (c : Command) : Nat := field c.block 56 4
def Command.srcSpace (c : Command) : Nat := field c.block 60 1 % 4
def Command.dstSpace (c : Command) : Nat := field c.block 60 1 / 4 % 4
def Command.auxSpace (c : Command) : Nat := field c.block 60 1 / 16 % 4
def Command.aux (c : Command) : Nat := field c.block 40 8
def Command.auxv (c : Command) : Nat := field c.block 48 8

/-- CRC-32C (R178): one byte into the running register. -/
def crcByte (crc : Nat) (b : Byte) : Nat :=
  (List.range 8).foldl (fun x _ => if x % 2 = 1 then x / 2 ^^^ 0x82F63B78 else x / 2) (crc ^^^ b.toNat)

/-- CRC-32C of bytes that follow a finished CRC; 0 begins anew. -/
def crc32c (start : Nat) (l : List Byte) : Nat := (l.foldl crcByte (start ^^^ 0xFFFFFFFF)) ^^^ 0xFFFFFFFF

/-! ### One piece of a copy command -/

/-- Work of a copy command in the bytes that its progress counts: the rows, and for CSUM the bytes it reads. -/
def Command.work (c : Command) : Nat :=
  if c.op = 0xB9 ∨ c.op = 0xBA ∨ c.op = 0xBE then c.len * c.rows
  else if c.op = 0xC7 ∧ c.flags ≠ 4 then 0
  else c.len

/-- Where row `i` of CPYX lies: its index entry, none where the row is skipped (R177). -/
def State.rowIndexOf (s : State) (c : Command) (i : Nat) : Except EngineStop (Option Nat) := do
  let r ← s.engineRead c c.auxSpace (addr64 (c.aux + 4 * i)) 4
  let x := ofBytes r.1
  if x = 0xFFFFFFFF then return none
  if c.auxv % 2 ^ 32 ≤ x then throw (.status 2)
  return some x

/-- The end of a row offset: a stride is signed and addresses wrap. -/
def rowAddr (base stride i off : Nat) : Nat := addr64 (base + stride * i + off)

/-- A piece that is written at an address ends at a line, so that no naturally aligned 8 bytes fall into two pieces (07 R123). -/
def pieceLen (a left : Nat) : Nat := min (64 - a % 64) left

/-- The index of the row of CPYX that a piece belongs to: read once, when the row begins. -/
def State.rowIndex (s : State) (id : Nat) (c : Command) (i : Nat) : Except EngineStop (Option Nat × State) :=
  match c.row.filter (·.1 == i) with
  | some r => .ok (some r.2, s)
  | none =>
    (s.rowIndexOf c i).map fun r => (r, match r with | some x => s.setCommand id { c with row := some (i, x) } | none => s)

/-- The address that CPYB writes row `i` to: the entry of its list, read once, when the row begins. -/
def State.rowTarget (s : State) (id : Nat) (c : Command) (i : Nat) : Except EngineStop (Nat × State) :=
  match c.row.filter (·.1 == i) with
  | some r => .ok (r.2, s)
  | none =>
    (s.engineRead c c.auxSpace (addr64 (c.dst + 8 * i)) 8).map fun e => (ofBytes e.1, s.setCommand id { c with row := some (i, ofBytes e.1) })

/-- What the next piece of a copy command does: it moves `n` bytes from one space and address to another, skips `n` bytes of a row, writes a
pattern, or takes bytes into the CRC. -/
inductive Piece where
  | move (ss a ds b n : Nat)
  | skip (n : Nat)
  | fill (b n off : Nat)
  | sum (a n : Nat)
deriving DecidableEq, Repr

/-- The bytes of its command that a piece covers. -/
def Piece.size : Piece → Nat
  | .move _ _ _ _ n => n
  | .skip n => n
  | .fill _ n _ => n
  | .sum _ n => n

/-- The next piece of a copy command (R177), with what a row that begins has read. -/
def State.copyPlan (s : State) (id : Nat) (c : Command) : Except EngineStop (Piece × State) := do
  let len := max 1 c.len
  let i := c.progress / len
  let off := c.progress % len
  let left := len - off
  let sstr := field c.block 24 8
  let dstr := field c.block 32 8
  let step := fun (ss a ds b : Nat) => Piece.move ss a ds b (pieceLen b left)
  match c.op with
  | 0xB9 => return (step c.srcSpace (rowAddr c.src sstr i off) c.dstSpace (rowAddr c.dst dstr i off), s)
  | 0xBA =>
    match ← s.rowIndex id c i with
    | (none, _) => return (.skip left, s)
    | (some x, s1) =>
      return (step c.srcSpace (rowAddr c.src sstr (if c.flags = 4 then i else x) off) c.dstSpace
        (rowAddr c.dst dstr (if c.flags = 4 then x else i) off), s1)
  | 0xBE =>
    let r ← s.rowTarget id c i
    return (step c.srcSpace (addr64 (c.src + off)) c.dstSpace (addr64 (r.1 + off)), r.2)
  | 0xC5 => return (.fill (addr64 (c.dst + off)) (pieceLen (addr64 (c.dst + off)) left) off, s)
  | 0xC6 => return (.sum (addr64 (c.src + off)) (min 64 left), s)
  | op =>
    return (step (if op = 0xC7 then 1 else c.srcSpace) (addr64 (c.src + off)) (if op = 0xC7 then 0 else c.dstSpace) (addr64 (c.dst + off)), s)

/-- The next piece of a copy command: the bytes it covers, and the state after it. -/
def State.copyPiece (s : State) (id : Nat) (c : Command) : Except EngineStop (Nat × State) := do
  let p ← s.copyPlan id c
  match p.1 with
  | .move ss a ds b n => return (n, ← p.2.engineMove c ss a ds b n)
  | .skip n => return (n, p.2)
  | .fill b n off =>
    let pat := c.block.take 8
    let bs := (List.range n).map fun j => (pat[(off + j) % 8]?).getD 0
    return (n, ← s.engineStore c c.dstSpace b (bs, false))
  | .sum a n =>
    let r ← s.engineRead c c.srcSpace a n
    let start := (c.partials.find 0).elim (if c.flags = 4 then c.auxv % 2 ^ 32 else 0) BitVec.toNat
    let psn := r.2 || (c.partials.find 1).isSome
    let p := c.partials.put 0 (BitVec.ofNat 64 (crc32c start r.1))
    let p1 := if psn then p.put 1 1 else p
    return (n, s.setCommand id { c with partials := p1 })

/-- The lines of [DST, DST + LEN) (R179). -/
def State.pinLines (s : State) (c : Command) : Except EngineStop (List Nat) :=
  let first := c.dst / 64
  let n := if c.len = 0 then 0 else (c.dst + c.len - 1) / 64 + 1 - first
  (List.range n).mapM fun i => do
    let ls ← s.engineLocs c 0 ((first + i) * 64) 1 false
    return match ls with | .glob pa _ :: _ => pa / 64 | _ => 0

/-- XFER's pins (R179): the lines enter the shelf of the issuing die, or none of them does (status 5). -/
def State.pinAll (s : State) (c : Command) : Except EngineStop State := do
  let ls ← s.pinLines c
  let die := dieOf (tileOf c.slot)
  let fresh := ls.eraseDups.filter fun l => !s.mm.pins.contains (die, c.ctx, l)
  if s.pinLeft die c.ctx < 64 * fresh.length then throw (.status 5)
  return { s with mm.pins := s.mm.pins ++ fresh.map fun l => (die, c.ctx, l) }

def State.unpinAll (s : State) (c : Command) : Except EngineStop State := do
  let ls ← s.pinLines c
  let die := dieOf (tileOf c.slot)
  return { s with mm.pins := s.mm.pins.filter fun p => !(p.1 == die && p.2.1 == c.ctx && ls.contains p.2.2) }

/-- What a copy command does after its rows: the signal of CPYS, the result of CSUM, the pins of XFER (R177 to R179), and the index
check of a CPYX whose rows have no bytes. -/
def State.copyTail (s : State) (c : Command) : Except EngineStop State := do
  match c.op with
  | 0xBA =>
    if c.len = 0 then (List.range c.rows).forM fun i => (s.rowIndexOf c i).map fun _ => ()
    return s
  | 0xBB =>
    if c.aux % 8 ≠ 0 then throw (.status 2)
    s.engineStoreAs c true c.auxSpace c.aux (toBytes 8 c.auxv, false)
  | 0xC6 =>
    if c.dst % 8 ≠ 0 then throw (.status 2)
    let crc := (c.partials.find 0).elim (if c.flags = 4 then c.auxv % 2 ^ 32 else 0) BitVec.toNat
    s.engineStore c c.dstSpace c.dst (toBytes 8 crc, (c.partials.find 1).isSome)
  | 0xC7 => if c.flags = 2 then s.unpinAll c else s.pinAll c
  | _ => return s

/-! ### One element of a stream (R180) -/

/-- The index at an array entry, or status 2 beyond the limit. -/
def State.streamIndex (s : State) (c : Command) (t j : Nat) : Except EngineStop Nat := do
  let isz := field c.block 45 1
  let r ← s.engineRead c 0 (addr64 (t + j * isz)) isz
  let x := ofBytes r.1
  let lim := field c.block 64 8
  if lim ≠ 0 ∧ lim ≤ x then throw (.status 2)
  return x

/-- Addr(i) of the indexed side. -/
def State.streamAddr (s : State) (c : Command) (i : Nat) : Except EngineStop Nat := do
  let base := field c.block 0 8
  let scl := field c.block 46 1
  match field c.block 44 1 with
  | 0 => return addr64 (base + i * field c.block 32 8)
  | 1 => do
    let x ← s.streamIndex c (field c.block 8 8) i
    return addr64 (base + x * 2 ^ scl)
  | _ => do
    let x ← s.streamIndex c (field c.block 8 8) i
    let y ← s.streamIndex c (field c.block 16 8) x
    return addr64 (base + y * 2 ^ scl)

/-- Bytes moved in pieces of at most 64; the fuel is the number of pieces. -/
def State.moveAll (s : State) (c : Command) (ss a ds b : Nat) : Nat → Nat → Except EngineStop State
  | 0, _ => .ok s
  | fuel + 1, n =>
    if n = 0 then .ok s
    else do
      let m := min 64 n
      let s1 ← s.engineMove c ss a ds b m
      s1.moveAll c ss (addr64 (a + m)) ds (addr64 (b + m)) fuel (n - m)

/-- The next element of a STRM: between the indexed side and the region. -/
def State.streamPiece (s : State) (c : Command) : Except EngineStop State := do
  let i := c.progress
  let esz := field c.block 40 4
  let a ← s.streamAddr c i
  let region := addr64 (field c.block 56 8 + i * esz)
  let space := if field c.block 48 1 = 1 then 1 else 0
  if field c.block 47 1 = 0 then s.moveAll c 0 a space region 1024 esz else s.moveAll c space region 0 a 1024 esz

/-! ### Pieces and ends (07 R145, 08 R176) -/

/-- Bytes that progress `p` of a command has written towards its barrier. -/
def Command.written (c : Command) (p : Nat) : Nat :=
  match c.family with
  | .copy => if c.op = 0xC6 ∨ (c.op = 0xC7 ∧ c.flags ≠ 4) then 0 else p
  | .stream => p * field c.block 40 4
  | .coll => 0

/-- Progress of a command, its bytes taken off its barrier; a piece that has been performed leaves the holding buffer. -/
def State.advanceCommand (s : State) (id p : Nat) : State :=
  match s.command id with
  | none => s
  | some c =>
    let w := min (c.written p) c.total
    let s1 := s.setCommand id { c with progress := p, subtracted := w, held := c.held.filter fun h => decide (p ≤ h.pos) }
    match c.barrier with
    | some n =>
      if c.subtracted < w then
        s1.onBarrier c.ctx n fun b => some { b with count := b.count - BitVec.ofNat 48 (w - c.subtracted), carry := joinEvents b.carry (s.eventsBy c) }
      else s1
    | none => s1

/-- Bytes of a piece that a collective has written leave its barrier (07 R145). -/
def State.subtractPiece (s : State) (id n : Nat) : State :=
  match s.command id with
  | none => s
  | some c =>
    let s1 := s.setCommand id { c with subtracted := c.subtracted + n }
    match c.barrier with
    | some b => s1.onBarrier c.ctx b fun x => some { x with count := x.count - BitVec.ofNat 48 n, carry := joinEvents x.carry (s.eventsBy c) }
    | none => s1

/-- Members of a group in rank order (25 R421). -/
def Group.members (g : Group) : List Nat := (List.range 256).filter fun k => g.mbr.getLsbD k

/-- Every COLL of a group that is queued or running on the package fails with status 7 (25 R422). -/
def State.failColls (s : State) (g : Nat) : State :=
  s.en.commands.foldl (fun s x =>
    if x.2.family = .coll ∧ field x.2.block 24 2 = g ∧ !x.2.ended then s.endCommand x.1 .failed 7 else s) s

/-- Recovery of a group starts here (25 R422): a probe to every member, and step 2 for this package. -/
def State.startRecovery (s : State) (g : Nat) : State :=
  let x := s.group g
  if x.recovery.isSome ∨ !x.en then s
  else
    let s1 := (s.setGroup g { x with recovery := some (x.epoch, true, s.clock + cycles1ms) }).failColls g
    x.members.foldl (fun s p => if p = s.dv.pkg then s else s.emit (.peer p "probe" g x.epoch)) s1

/-- A stop of a command: it fails, or waits for the answer to a page fault (20 R360). A COLL that finds its path down starts the recovery of
its group (25 R422). -/
def State.stopCommand (s : State) (id : Nat) (c : Command) : EngineStop → State
  | .status n =>
    let s1 := s.endCommand id .failed n
    if c.family = .coll ∧ n = 8 then s1.startRecovery (field c.block 24 2) else s1
  | .page va reason write => (s.setCommand id { c with faultWait := some s.nextId }).newFault va reason (.command id) c.ctx write

/-- May a command go on: running, its slot on its tile, its context not halted (21 R384), no fault open? -/
def State.commandLive (s : State) (c : Command) : Bool :=
  decide (c.state = .running) && c.faultWait.isNone && !(s.ctx c.ctx).halted && (s.slot c.slot).isSome

/-- One piece of a command. -/
def State.commandPiece (s : State) (id : Nat) (c : Command) : Option State :=
  match c.family with
  | .copy =>
    if c.progress < c.work then
      some (match s.copyPiece id c with
        | .ok (n, s1) => s1.advanceCommand id (c.progress + n)
        | .error e => s.stopCommand id c e)
    else none
  | .stream =>
    if c.progress < field c.block 24 8 then
      some (match s.streamPiece c with
        | .ok s1 => s1.advanceCommand id (c.progress + 1)
        | .error e => s.stopCommand id c e)
    else none
  | .coll => none

/-- Pieces until `n` units of progress are made; the fuel bounds their number. -/
def State.commandPieces (s : State) (id goal : Nat) : Nat → State
  | 0 => s
  | fuel + 1 =>
    match s.command id with
    | none => s
    | some c =>
      if s.commandLive c ∧ c.progress < goal then
        match s.commandPiece id c with
        | some s1 => s1.commandPieces id goal fuel
        | none => s
      else s

/-! ### The holding buffer (21 R384) -/

/-- Bytes that the holding buffer of a command's engine holds. -/
def State.heldBytes (s : State) (c : Command) : Nat :=
  s.en.commands.foldl (fun n x =>
    if x.2.unit = c.unit ∧ x.2.family = c.family ∧ !x.2.ended then n + (x.2.held.map fun h => h.bytes.length).foldl (· + ·) 0 else n) 0

/-- The source addresses and sizes of the pieces at a progress of a command: of a copy its next piece, of a stream the pieces of its next
element; none where nothing is read from memory or the next piece stops. -/
def State.pieceSources (s : State) (id : Nat) (c : Command) : List (Nat × Nat × Nat) × Nat :=
  match c.family with
  | .copy =>
    match s.copyPlan id c with
    | .ok (.move ss a _ _ n, _) => if c.progress < c.work then ([(ss, a, n)], n) else ([], 0)
    | _ => ([], 0)
  | .stream =>
    match s.streamAddr c c.progress with
    | .ok a =>
      let esz := field c.block 40 4
      let src := if field c.block 47 1 = 0 then (0, a) else (if field c.block 48 1 = 1 then 1 else 0, addr64 (field c.block 56 8 + c.progress * esz))
      if c.progress < field c.block 24 8 then
        ((List.range ((esz + 63) / 64)).map fun j => (src.1, addr64 (src.2 + 64 * j), min 64 (esz - 64 * j)), 1)
      else ([], 0)
    | .error _ => ([], 0)
  | .coll => ([], 0)

/-- The pieces of the first progress of a command that its holding buffer does not have, looked for from its progress on. -/
def State.nextSources (s : State) (id : Nat) : Nat → Command → Nat × List (Nat × Nat × Nat)
  | 0, c => (c.progress, [])
  | fuel + 1, c =>
    let r := s.pieceSources id c
    if r.2 = 0 ∨ !c.held.any (fun h => h.pos == c.progress) then (c.progress, r.1)
    else s.nextSources id fuel { c with progress := c.progress + r.2 }

/-- An engine reads the next piece of a command into its holding buffer of 16 KiB, where it waits to be performed. -/
def State.readAhead (s : State) (id : Nat) : State :=
  match s.command id with
  | none => s
  | some c =>
    let r := s.nextSources id (c.held.length + 1) c
    let bytes := (r.2.map (·.2.2)).foldl (· + ·) 0
    if !s.commandLive c ∨ c.loader ∨ 16384 < s.heldBytes c + bytes then s
    else
      match r.2.mapM fun x => (s.engineRead c x.1 x.2.1 x.2.2).map fun b => (x.2.1, b) with
      | .ok ps =>
        let s1 : State := { s with nextId := s.nextId + 1 }
        s1.setCommand id
          { c with held := c.held ++ ps.map fun p => { seq := s.nextId, pos := r.1, src := p.1, bytes := p.2.1, psn := p.2.2 } }
      | .error _ => s

/-! ### Collectives (R181, 25 R420, R421) -/

/-- The group that a COLL names. -/
def State.collGroup (s : State) (c : Command) : Group := s.group (field c.block 24 2)

/-- May a COLL run on its group (25 R420, R422)? -/
def State.collAllowed (s : State) (c : Command) : Bool :=
  let g := s.collGroup c
  g.en && g.ctx == c.ctx && g.mbr.getLsbD s.dv.pkg && g.epoch == field c.block 28 4 && g.recovery.isNone

/-- N, the rank of this package, the count and the chunk size. -/
structure Ring where
  n : Nat
  rank : Nat
  count : Nat
  q : Nat
  ty : Ty
  op : Nat
deriving DecidableEq, Repr

def State.ring (s : State) (c : Command) : Ring :=
  let ms := (s.collGroup c).members
  let n := max 1 ms.length
  let count := field c.block 16 8
  { n := n, rank := (findIdx ms (· == s.dv.pkg)).getD 0, count := count, q := (count + n - 1) / n,
    ty := (Ty.ofCode (field c.block 27 1)).getD .n64, op := field c.block 26 1 }

/-- First element and length of a chunk (R181). -/
def Ring.chunk (r : Ring) (k : Nat) : Nat × Nat := (k * r.q, min ((k + 1) * r.q) r.count - k * r.q)

/-- Op(p, x) of a collective: pattern and flags. -/
def Ring.combine (r : Ring) (p x : Nat) : Nat × Nat :=
  if r.ty.isInt then
    let a := intVal r.ty p
    let b := intVal r.ty x
    match r.op with
    | 0 => (intPat r.ty (a + b), 0)
    | 1 => (if b < a then x else p, 0)
    | _ => (if a < b then x else p, 0)
  else
    let F := tyFmt r.ty
    match r.op with
    | 0 => F.result (exactAdd (F.value p) (F.value x) .rne) .rne false 0
    | 1 => F.minMax false p x
    | _ => F.minMax true p x

/-- The chunk that the input of a round concerns: reduce rounds 1 to N - 1, then distribute rounds (25 R421). -/
def Ring.inputChunk (r : Ring) (round : Nat) : Nat :=
  if round < r.n then (r.rank + 2 * r.n - 1 - round) % r.n else (r.rank + 2 * r.n - (round - (r.n - 1))) % r.n

/-- Elements of an array in global memory, and whether one of them is poisoned. -/
def State.collRead (s : State) (c : Command) (base first n w : Nat) : Except EngineStop (List Nat × Bool) :=
  ((List.range n).mapM fun i => s.engineRead c 0 (addr64 (base + (first + i) * w)) w).map fun l => (l.map fun r => ofBytes r.1, l.any (·.2))

/-- Elements written to DST one after another; a command that has met poison writes poison (23 R398). -/
def State.collWrite (s : State) (c : Command) (first w : Nat) : List Nat → Except EngineStop State
  | [] => .ok s
  | v :: t => do
    let s1 ← s.engineStore c 0 (addr64 (field c.block 8 8 + first * w)) (toBytes w v, c.psn)
    s1.collWrite c (first + 1) w t

/-- Partial results kept for the next send. -/
def keepPartials (p : Tab Dword) (first : Nat) : List Nat → Tab Dword
  | [] => p
  | v :: t => keepPartials (p.put first (BitVec.ofNat 64 v)) (first + 1) t

/-- The input of a round is combined, or written when it is finished: the state and the command after it. One more dword than the round has
elements, not zero, says that the input is poisoned (23 R398). -/
def State.collInput (s : State) (c0 : Command) (data : List Dword) : Except EngineStop (State × Command) := do
  let r := s.ring c0
  let w := r.ty.bytes
  let round := c0.progress + 1
  let ch := r.chunk (r.inputChunk round)
  let inp := (data.take ch.2).map fun d => d.toNat % 2 ^ r.ty.bits
  let c := { c0 with psn := c0.psn || (data.drop ch.2).any (· != 0) }
  if round < r.n then
    let own ← s.collRead c (field c.block 0 8) ch.1 ch.2 w
    let z := (inp.zip own.1).map fun px => r.combine px.1 px.2
    let vals := z.map (·.1)
    let fl := z.foldl (fun a x => a ||| x.2) 0
    let c := { c with psn := c.psn || own.2 }
    let c1 := { c with partials := keepPartials c.partials ch.1 vals, flags5 := c.flags5 ||| BitVec.ofNat 5 (fl % 32), progress := round }
    if round + 1 = r.n then return (← s.collWrite c ch.1 w vals, c1) else return (s, c1)
  else return (← s.collWrite c ch.1 w inp, { c with progress := round, partials := keepPartials c.partials ch.1 inp })

/-- The key under which a COLL notes that it has sent its first partial result. -/
def collBegun : Nat := 2 ^ 62

/-- The data of a round goes to the next rank: the own elements in the first round, then what the round before gave. -/
def State.collSend (s : State) (id : Nat) (c : Command) (round : Nat) (own : List Nat) : State :=
  let r := s.ring c
  let ch := r.chunk (r.inputChunk (round - 1))
  let data := if round = 1 then own.map (BitVec.ofNat 64)
    else (List.range ch.2).map fun i => (c.partials.find (ch.1 + i)).getD 0
  let peer := ((s.collGroup c).members[(r.rank + 1) % r.n]?).getD 0
  s.toPeer peer (.peerRound peer id round data c.psn)

/-- A COLL starts, once: it fails with status 7 before any write where the group does not take it (25 R420), else it sends the
data of its first round. A member that recovery has left alone has no round: its result is its input. -/
def State.collStart (s : State) (id : Nat) (c : Command) : State :=
  if (c.partials.find collBegun).isSome then s
  else if !s.collAllowed c then s.endCommand id .failed 7
  else
    let r := s.ring c
    let ch := r.chunk ((r.rank + r.n - 1) % r.n)
    match s.collRead c (field c.block 0 8) ch.1 ch.2 r.ty.bytes with
    | .error e => s.stopCommand id c e
    | .ok own =>
      let c1 := { c with roundStart := s.clock, partials := c.partials.put collBegun 1, psn := own.2 }
      if r.n = 1 then
        match s.collWrite c1 ch.1 r.ty.bytes own.1 with
        | .error e => s.stopCommand id c e
        | .ok s1 => (s1.setCommand id c1).endCommand id .completed 0
      else (s.setCommand id c1).collSend id c1 1 own.1

/-! ### Membership recovery (25 R422, R423) -/

/-- The epoch that follows, 0 skipped. -/
def nextEpoch (e : Nat) : Nat := if (e + 1) % 2 ^ 32 = 0 then 1 else (e + 1) % 2 ^ 32

/-- Does an epoch follow another, modulo 2^32 (25 R420)? -/
def newerEpoch (a b : Nat) : Bool := decide (a % 2 ^ 32 ≠ b % 2 ^ 32) && cntReached a b

/-- Does a cut of a configuration go on? -/
def Configuration.cutting (c : Configuration) : Bool := c.cuts.any fun r => !r.dead

/-- The configurations of a context without a valid cut wait for the first cut of their run, where it goes on, before they roll back
(25 R422 step 5). -/
def State.awaitCuts (s : State) (ctx : Nat) : State :=
  { s with al.cfgs := s.al.cfgs.map fun (c : Nat × Configuration) =>
      (c.1, if c.2.launch.ctx = ctx ∧ !c.2.vld ∧ c.2.cutting then { c.2 with rollbackDue := true } else c.2) }

/-- A member takes the new set and epoch and acknowledges them: a MEMBER event, and the configurations of CTX roll back. -/
def State.takeMembership (s : State) (g e : Nat) (mbr : BitVec 256) : State :=
  let x := s.group g
  let gone := x.mbr &&& ~~~mbr
  let s1 := s.setGroup g { x with mbr := mbr, epoch := e, recovery := none }
  let s2 := match x.recovery with
    | some (_, false, starter) => s1.emit (.peer starter "membership acknowledged" g e)
    | _ => s1
  let s3 := (s2.report "MEMBER" x.epoch e).emit (.notice "MEMBER removed" g gone.toNat)
  (s3.awaitCuts x.ctx).later (.rollbackRequest x.ctx)

/-! ### Loader streams (R180, 07 R146) -/

/-- Elements of a token of a `.source` or `.sink` stream. -/
def Command.perToken (c : Command) (size : Nat) : Nat := max 1 (size / max 1 (field c.block 40 4))

/-- The bytes of the next elements of a source stream. -/
def State.sourceBytes (s : State) (c : Command) : List Nat → Except EngineStop (List Byte × Bool)
  | [] => .ok ([], false)
  | i :: t => do
    let a ← s.streamAddr c i
    let esz := field c.block 40 4
    let r ← (List.range ((esz + 63) / 64)).mapM fun j => s.engineRead c 0 (addr64 (a + 64 * j)) (min 64 (esz - 64 * j))
    let rest ← s.sourceBytes c t
    return (r.flatMap (·.1) ++ rest.1, r.any (·.2) || rest.2)

/-- Where the elements of a token go: the pieces of each, translated, in ascending order. -/
def State.sinkPlan (s : State) (c : Command) : List Nat → Except EngineStop (List (Nat × List Loc))
  | [] => .ok []
  | i :: t => do
    let a ← s.streamAddr c i
    let esz := field c.block 40 4
    let ps ← (List.range ((esz + 63) / 64)).mapM fun j =>
      (s.engineLocs c 0 (addr64 (a + 64 * j)) (min 64 (esz - 64 * j)) true).map fun ls => (addr64 (a + 64 * j), ls)
    let rest ← s.sinkPlan c t
    return ps ++ rest

/-- Pieces written one after another. -/
def State.writePieces (s : State) (c : Command) (taint : Bool) : List (Nat × List Loc) → List Byte → State
  | [], _ => s
  | p :: t, bs => (s.engineWrite c taint false (s.engineDirect c 0 p.1 p.2) (p.2.zip bs)).writePieces c taint t (bs.drop p.2.length)

/-- The elements of a token written to the indexed side of a sink; every address is translated before the first write (20 R360). -/
def State.sinkBytes (s : State) (c : Command) (taint : Bool) (els : List Nat) (bs : List Byte) : Except EngineStop State :=
  (s.sinkPlan c els).map fun ps => s.writePieces c taint ps bs

/-- The arc of a loader stream: `tl` holds the port, counted from 16 for an output. -/
def State.streamArc (s : State) (c : Command) : Option (Nat × Arc) :=
  (s.slot c.slot).bind fun sl =>
    (if 16 ≤ c.tl then arcOut sl (c.tl - 16) else arcIn sl c.tl).bind fun n => (s.arc n).map fun x => (n, x)

/-- The next token of a loader stream: published by a source, consumed by a sink. -/
def State.streamToken (s : State) (id : Nat) (c : Command) (n : Nat) (x : Arc) : State :=
  let count := field c.block 24 8
  let els := (List.range (min (c.perToken x.size) (count - c.progress))).map fun i => c.progress + i
  let c1 := { c with progress := c.progress + els.length }
  let c2 := if count ≤ c1.progress then { c1 with state := .completed } else c1
  if field c.block 47 1 = 0 then
    if s.arcSpace x = 0 then s
    else
      match s.sourceBytes c els with
      | .ok r => (s.setCommand id c2).publish n [r.1 ++ List.replicate (x.size - r.1.length) 0] r.2
      | .error e => s.stopCommand id c e
  else
    match x.parked with
    | [] => s
    | (tok, psn) :: rest =>
      match s.sinkBytes c psn els tok with
      | .ok s1 => (s1.setCommand id c2).setArc n { x with parked := rest }
      | .error e => s.stopCommand id c e

/-! ### Rows -/

/-- The input of the next round of a COLL that may go on. -/
def State.takeRound (s : State) (cmd : Nat) (c : Command) (data : List Dword) : State :=
  let r := s.ring c
  match s.collInput c data with
  | .ok (s1, c1) =>
    let done := if r.n ≤ c1.progress + 1 then (r.chunk (r.inputChunk c1.progress)).2 * r.ty.bytes else 0
    let s2 := (s1.setCommand cmd { c1 with roundStart := s.clock }).subtractPiece cmd done
    if c1.progress < 2 * (r.n - 1) then s2.collSend cmd c1 (c1.progress + 1) [] else s2.later (.engineCommandEnd cmd)
  | .error e =>
    let c1 := { c with inputs := data :: c.inputs }
    (s.setCommand cmd c1).stopCommand cmd c1 e

/-- Does an input fit the next round of a COLL: as many dwords as the chunk has elements, or one more, its poison (log 117)? -/
def State.roundFits (s : State) (c : Command) (data : List Dword) : Bool :=
  let r := s.ring c
  let n := (r.chunk (r.inputChunk (c.progress + 1))).2
  decide (c.progress < 2 * (r.n - 1)) && (data.length == n || data.length == n + 1)

/-- A COLL that may go on: it starts, or takes an input that came while it could not (21 R384). -/
def State.collGo (s : State) (cmd : Nat) (c : Command) : State :=
  match (c.partials.find collBegun), c.inputs with
  | some _, data :: rest =>
    let c1 := { c with inputs := rest }
    if s.collAllowed c ∧ s.roundFits c data then (s.setCommand cmd c1).takeRound cmd c1 data else s.setCommand cmd c1
  | _, _ => s.collStart cmd c

/-- ENGINE_PIECE_PERFORMED (07 R145): pieces of a command up to so many bytes (elements for a stream) are performed. -/
def execEnginePiecePerformed (cmd bytes : Nat) (s : State) : Host.Outcome State Fault Refusal :=
  match s.command cmd with
  | some c =>
    if !s.commandLive c then .next s
    else if c.family = .coll then .next (s.collGo cmd c)
    else if c.loader then .next s
    else
      let left := (match c.family with | .stream => field c.block 24 8 | _ => c.work) - c.progress
      .next (s.commandPieces cmd (c.progress + min bytes left) (min bytes left + 1))
  | none => .next s

/-- ENGINE_COMMAND_END (R176): a command all of whose pieces are performed completes. -/
def execEngineCommandEnd (cmd : Nat) (s : State) : Host.Outcome State Fault Refusal :=
  match s.command cmd with
  | some c =>
    if !s.commandLive c ∨ c.loader then .next s
    else
      match c.family with
      | .copy =>
        if c.progress < c.work then .next s
        else
          match s.copyTail c with
          | .ok s1 => .next (s1.endCommand cmd .completed 0)
          | .error e => .next (s.stopCommand cmd c e)
      | .stream => if c.progress < field c.block 24 8 then .next s else .next (s.endCommand cmd .completed 0)
      | .coll =>
        if c.progress = 2 * ((s.ring c).n - 1) ∧ 0 < c.progress then .next (s.endCommand cmd .completed 0) else .next s
  | none => .next s

/-- STREAM_TOKEN_PUBLISH (07 R146): a loader stream publishes its next token, or a sink takes one. -/
def execStreamTokenPublish (stream : Nat) (s : State) : Host.Outcome State Fault Refusal :=
  match s.command stream with
  | some c =>
    if s.commandLive c ∧ c.loader ∧ c.family = .stream ∧ c.progress < field c.block 24 8 then
      match s.streamArc c with
      | some (n, x) => .next ((s.streamToken stream c n x).checkRunEnd x.cfg)
      | none => .next s
    else .next s
  | none => .next s

/-- COLL_ROUND_INPUT (25 R421): the input of the next round arrives from the previous rank; one that the command cannot take yet waits, while
its context is halted, a fault is open, or it has not begun (21 R384). -/
def execCollRoundInput (cmd : Nat) (data : List Dword) (s : State) : Host.Outcome State Fault Refusal :=
  match s.command cmd with
  | some c =>
    if c.family ≠ .coll ∨ c.state ≠ .running then .next s
    else if !s.commandLive c ∨ (c.partials.find collBegun).isNone ∨ !c.inputs.isEmpty then
      .next (s.setCommand cmd { c with inputs := c.inputs ++ [data] })
    else if s.collAllowed c ∧ s.roundFits c data then .next (s.takeRound cmd c data)
    else .next s
  | none => .next s

/-- ROUND_TIMEOUT (R181, 25 R421): no input TMO µs after this member has sent its data for the round: status 6, and membership recovery
starts. -/
def execRoundTimeout (cmd : Nat) (s : State) : Host.Outcome State Fault Refusal :=
  match s.command cmd with
  | some c =>
    if c.family = .coll ∧ c.state = .running ∧ (c.partials.find collBegun).isSome ∧ c.inputs.isEmpty ∧ c.roundStart + field c.block 32 4 * 2700 ≤ s.clock
        ∧ c.progress < 2 * ((s.ring c).n - 1) then
      .next ((s.endCommand cmd .failed 6).startRecovery (field c.block 24 2))
    else .next s
  | none => .next s

/-- MEMBERSHIP_PROBE (25 R422, R423): an old epoch is answered with the receiver's; else every COLL of the group fails with
status 7 and the member answers. A recovery started here gives way to one of a lower package. -/
def execMembershipProbe (group epoch starter : Nat) (s : State) : Host.Outcome State Fault Refusal :=
  let x := s.group group
  if !x.en then .next s
  else if newerEpoch x.epoch epoch then .next (s.emit (.membership starter group x.epoch x.mbr))
  else
    let mine := x.recovery.any fun r => r.2.1 && decide (s.dv.pkg < starter)
    let rec1 := if mine then x.recovery else some (epoch, false, starter)
    .next (((s.setGroup group { x with recovery := rec1 }).failColls group).emit (.peer starter "probe answer" group epoch))

/-- PROBE_DEADLINE (25 R422): the starter removes silent members and sends the new set and epoch. -/
def execProbeDeadline (group : Nat) (answered : BitVec 256) (s : State) : Host.Outcome State Fault Refusal :=
  let x := s.group group
  match x.recovery with
  | some (e, true, due) =>
    if s.clock < due then .next s
    else
      let mbr := x.mbr &&& (answered ||| BitVec.ofNat 256 (2 ^ (s.dv.pkg % 256)))
      let new := nextEpoch e
      let s1 := ({ x with mbr := mbr }.members).foldl (fun (s : State) (p : Nat) => if p = s.dv.pkg then s else s.emit (.membership p group new mbr)) s
      .next (s1.takeMembership group new mbr)
  | _ => .next s

/-- NEW_MEMBERSHIP (25 R422, R423): a member writes the new set and epoch; one that is absent from the set takes the epoch and is no member
any more, so that its COLL commands fail with status 7. -/
def execNewMembership (group epoch : Nat) (mbr : BitVec 256) (s : State) : Host.Outcome State Fault Refusal :=
  let x := s.group group
  if !x.en ∨ !newerEpoch epoch x.epoch then .next s
  else if mbr.getLsbD s.dv.pkg then .next (s.takeMembership group epoch mbr)
  else
    let out := x.mbr &&& ~~~(BitVec.ofNat 256 (2 ^ (s.dv.pkg % 256)))
    .next ((s.setGroup group { x with epoch := epoch, mbr := out, recovery := none }).failColls group)

end Sys2Proof.Machine
end

