-- ==== Sys2Proof/Machine/EvFlood.lean ====
section
/-! DEFINITION. Flood and ebb transfers of layers (16 R308; 17 R319 to R323, R436; 20 R360; 24 R413). -/

namespace Sys2Proof.Machine

/-! ### Slices (24 R413) -/

/-- Length of each slice of an actor. -/
def sliceLen (a : Actor) : Nat := if a.layers.isEmpty then 0 else a.weightBytes / a.layers.length / 64 * 64

/-- The actor of a line of an image. -/
def Image.actorOf (im : Image) (l : InstanceLine) : Option Actor := im.actors.find? fun a => a.num == l.actor

/-- The lines in the order of a layer segment: declared instances, then fallback instances in the order of their surrogates. -/
def Image.sliceOrder (im : Image) : List (InstanceLine × Nat) :=
  let l := im.lines.zipIdx
  let plain := l.filter fun x => x.1.fallbackOf.isNone
  plain ++ plain.flatMap fun p => l.filter fun x => x.1.fallbackOf == some p.2

/-- Offset of the slice of instance `inst` within the data of a layer. -/
def Image.sliceOff (im : Image) (inst layer : Nat) : Nat :=
  ((im.sliceOrder.takeWhile fun x => x.2 != inst).map fun x =>
    (im.actorOf x.1).elim 0 fun a => if a.layers.contains layer then sliceLen a else 0).foldl (· + ·) 0

/-- A byte of a layer's data as the flood engine reads it: nothing older than what happened before the flood (07 R129). -/
def State.floodByte (s : State) (seen : List Nat) : Loc → Byte
  | .glob pa _ => (s.seenByte { hb := seen } false [pa] pa).1
  | .carve k a => s.carveByte k a

/-- Data of a layer for a context from an address, piece by piece of 64 bytes into a slot's slice, with its poison. -/
def State.writeSlice (s : State) (ctx va k dst : Nat) (seen : List Nat) : Nat → Except Stop State
  | 0 => .ok s
  | n + 1 => do
    let ls ← (s.at floodUnit).globalLocs [] ctx va 64 false
    let r := ls.map (s.floodByte seen)
    let taint := ls.any (s.poisonLoc Buffers.empty)
    let s1 := s.writeCarve taint ((r.zipIdx).map fun b => (carveKey k (dst + b.2), b.1))
    s1.writeSlice ctx (va + 64) k (dst + 64) seen n

/-- The slices of a layer that a transfer still has to write: slot, its weight base, and the position in its list. -/
def State.slicesDue (s : State) (ctx layer : Nat) : List (Nat × Slot × LayerPos) :=
  s.slots.flatMap fun ks =>
    if ks.2.pl.ctx = ctx then
      (ks.2.layers.filter fun p => p.layer == layer && !p.resident).map fun p => (ks.1, ks.2, p)
    else []

/-- Every slice written from a source. -/
def State.writeSlices (s : State) (ctx layer src : Nat) (seen : List Nat) : List (Nat × Slot × LayerPos) → Except Stop State
  | [] => .ok s
  | (k, sl, p) :: t => do
    let off := (s.cfg sl.pl.cfg).elim 0 fun c => c.launch.image.sliceOff sl.pl.inst layer
    let s1 ← s.writeSlice ctx (src + off) k (sl.pl.wtb * 64 + p.off) seen (p.len / 64)
    s1.writeSlices ctx layer src seen t

/-! ### Order of service (16 R308) -/

/-- May a layer's transfer go on: FLOODING, or RESIDENT with slices of a new placement to write (17 R436)? -/
def State.transferring (s : State) (ctx layer : Nat) : Bool :=
  let t := s.tide (ctx * 1024 + layer)
  t.faultWait.isNone && !(s.ctx ctx).halted
    && (decide (t.state = .flooding) || (decide (t.state = .resident) && !(s.slicesDue ctx layer).isEmpty))

/-- Is the request of a layer the one that is served now: no transfer of a higher class, or earlier in its class, goes on? -/
def State.served (s : State) (ctx layer : Nat) : Bool :=
  let t := s.tide (ctx * 1024 + layer)
  s.transferring ctx layer && s.en.tides.all fun x =>
    x.1 == ctx * 1024 + layer || !decide (x.2.state = .flooding) || !s.transferring (x.1 / 1024) (x.1 % 1024)
      || decide (x.2.ecl < t.ecl ∨ (x.2.ecl = t.ecl ∧ t.arrival < x.2.arrival))

/-- A transfer fails: fault bits first, then FAULTED with the status (17 R321). -/
def State.failLayer (s : State) (ctx layer status : Nat) : State :=
  let key := ctx * 1024 + layer
  (s.layerBits ctx layer false true).setTide key
    { s.tide key with state := .faulted, stat := status, pend := 0, pfl := false, faultWait := none }

/-- A transfer meets a page fault and waits for the answer (20 R360). -/
def State.floodFault (s : State) (ctx layer va reason : Nat) (write : Bool) : State :=
  let key := ctx * 1024 + layer
  (s.setTide key { s.tide key with faultWait := some s.nextId }).newFault va reason (.flood ctx layer) ctx write

/-- Is a firing under way that lists a layer (17 R321, 12 R262)? -/
def State.layerInUse (s : State) (ctx layer : Nat) : Bool :=
  s.slots.any fun ks => ks.2.pl.ctx == ctx && ks.2.firing.isSome && ks.2.layers.any fun p => p.layer == layer

/-- Does a firing under way of a slot whose slice is due hold the weights of a layer unchanged (12 R262)? One that started without the layer
holds none. -/
def State.weightsHeld (s : State) (ctx layer : Nat) : Bool :=
  (s.slicesDue ctx layer).any fun x => x.2.1.firing.any fun f => !f.unflooded.contains layer

/-- FLOOD_COMPLETE (R321; R436, whose source is the one of the flood that made the layer RESIDENT): the request that is served writes every
slice, then the residency bits, then RESIDENT; no slice changes under a firing that lists the layer (12 R262). -/
def execFloodComplete (ctx layer : Nat) (s : State) : Host.Outcome State Fault Refusal :=
  let key := ctx * 1024 + layer
  if !s.served ctx layer || s.weightsHeld ctx layer then .next s
  else
    let again := decide ((s.tide key).state = .resident)
    let src := if again then (s.tide key).kept else (s.tide key).src
    let seen := if again then (s.tide key).keptSeen else (s.tide key).seen
    match s.writeSlices ctx layer src seen (s.slicesDue ctx layer) with
    | .ok s1 =>
      let t := s1.tide key
      let gen := if again then t.gen else (t.gen + 1) % 65536
      .next ((s1.layerBits ctx layer true false).setTide key
        { t with state := .resident, gen := gen, pend := 0, stat := 0, kept := src, keptSeen := seen })
    | .error e =>
      match engineStop e with
      | .page va reason write => .next (s.floodFault ctx layer va reason write)
      | .status n => .next (s.failLayer ctx layer n)

/-- FLOOD_FAIL (R321): the transfer of a layer fails with a status of R176. -/
def execFloodFail (ctx layer status : Nat) (s : State) : Host.Outcome State Fault Refusal :=
  let t := s.tide (ctx * 1024 + layer)
  if (t.state = .flooding ∨ (t.state = .resident ∧ !(s.slicesDue ctx layer).isEmpty)) ∧ status ≠ 0 ∧ status < 256 then
    .next (s.failLayer ctx layer status)
  else .next s

/-- EBB_COMPLETE (R321, R320): the slices are released; a request that waited starts its flood. -/
def execEbbComplete (ctx layer : Nat) (s : State) : Host.Outcome State Fault Refusal :=
  let key := ctx * 1024 + layer
  let t := s.tide key
  if t.state ≠ .ebbing ∨ s.layerInUse ctx layer then .next s
  else
    let t1 := { t with state := TideState.absent, pend := 0, stat := 0 }
    if t.pfl then .next (s.startFlood ctx layer t.nextSrc t.nextEcl { t1 with pfl := false, seen := t.nextSeen })
    else .next (s.setTide key t1)

end Sys2Proof.Machine
end

