-- ==== Sys2Proof/Machine/EvTranslate.lean ====
section
/-! DEFINITION. Page faults and their answers, invalidations, migrations, kills (20 R357 to R367), and ignored register writes
(00 R5, 26 R428). -/

namespace Sys2Proof.Machine

/-! ### Ignored writes (00 R5, 26 R428) -/

/-- An MMIO write is ignored as a whole and counted; `bar2` names its BAR. -/
def State.ignoreWrite (s : State) (bar2 : Bool) (off : Nat) : State :=
  { s with dv.rsvLast := off % 2 ^ 26, dv.rsvBar := bar2, dv.rsvCnt := min (s.dv.rsvCnt + 1) 0xFFFFFFFF }

/-- Is BAR0 open: STAGE 3, and the part not frozen (22 R394, 26 R433)? Otherwise a write is ignored and not counted. -/
def State.barOpen (s : State) : Bool := s.dv.lh.stage == 3 && !s.dv.lh.frozen

/-! ### The fault ring (R359) -/

/-- Records that the ring holds. -/
def State.faultRing (s : State) : Nat := 2 ^ (s.mm.fltLog + 6)

/-- Requester code, slot byte and tile or engine number of a fault. -/
def State.faultSource (s : State) (p : PageFault) : Byte × Byte × BitVec 16 :=
  let slotOf := fun (k : Nat) => BitVec.ofNat 8 (k % 8)
  match p.who with
  | .tile k => (0, slotOf k, BitVec.ofNat 16 (tileOf k))
  | .command c =>
    match s.command c with
    | some x =>
      match x.family with
      | .copy => (1, slotOf x.slot, BitVec.ofNat 16 (tileOf x.slot))
      | .stream => (2, Config.faultSlot p.id, BitVec.ofNat 16 (x.engine % 64))
      | .coll => (4, Config.faultSlot p.id, BitVec.ofNat 16 (x.engine % 12))
    | none => (1, Config.faultSlot p.id, Config.faultEngine p.id)
  | .flood _ _ => (3, Config.faultSlot p.id, 0)
  | _ => (Config.faultCode p.id, Config.faultSlot p.id, Config.faultEngine p.id)

/-- The record of a fault. -/
def State.faultRecord (s : State) (p : PageFault) : List Byte :=
  let w := s.faultSource p
  toBytes 8 p.va ++ [BitVec.ofNat 8 p.reason, w.1, BitVec.ofNat 8 (p.ctx % 64 + bit p.write * 64), w.2.1] ++ toBytes 2 w.2.2.toNat
    ++ toBytes 2 0 ++ toBytes 4 p.id ++ toBytes 4 0 ++ toBytes 8 p.time

/-- FAULT_RECORD_POST (R359): the oldest fault that waits is posted when the ring has room. -/
def execFaultRecordPost (s : State) : Host.Outcome State Fault Refusal :=
  match s.mm.faults.find? fun p => p.token.isNone && p.reason != 0 with
  | none => .next s
  | some p =>
    if s.faultRing ≤ cntSub s.mm.fltTail s.mm.fltHead then .next s
    else
      let a := s.mm.fltBase * 4096 + 32 * (s.mm.fltTail % s.faultRing)
      let s1 := (s.writeDevice a (s.faultRecord p)).emit (.msix 0 64)
      let posted := fun (x : PageFault) => if x.id = p.id then { x with token := some (p.id % 2 ^ 32) } else x
      .next { s1 with mm.faults := s1.mm.faults.map posted, mm.fltTail := cnt (s1.mm.fltTail + 1) }

/-! ### Answers (R360) -/

/-- The answer to the fault of a tile. -/
def State.answerTile (s : State) (k : Nat) (p : PageFault) (ok : Bool) : State :=
  match s.slot k with
  | none => s
  | some sl =>
    let failed : TrapInfo := { code := 0x08, info := BitVec.ofNat 64 p.va, aux := BitVec.ofNat 64 (max 1 p.reason) }
    if sl.due.fault = some p.id then
      let s1 := s.updSlot k fun sl => { sl with due.fault := none }
      if sl.due.handler then
        if ok then s1.soon (.handlerFiringStart k)
        else s1.toPolicy k (nestRecord (s1.trapRecord k sl 0 false sl.rset sl.phase failed))
      else
        if ok then s1 else s1.updSlot k fun sl => { sl with due.traps := sl.due.traps ++ [failed] }
    else
      match sl.firing with
      | some f => if f.parked = some (.page p.id) ∧ !ok then s.setSlot k { sl with firing := some { f with failedFault := true } } else s
      | none => s

/-- The answer to the fault of a command or loader stream. -/
def State.answerCommand (s : State) (id : Nat) (p : PageFault) (ok : Bool) : State :=
  match s.command id with
  | none => s
  | some c =>
    if c.faultWait ≠ some p.id then s
    else
      let s1 := s.setCommand id { c with faultWait := none }
      if ok then
        if c.loader then s1.later (.streamTokenPublish id) else (s1.later (.enginePiecePerformed id (2 ^ 60))).later (.engineCommandEnd id)
      else if c.loader then
        (s1.setCommand id { c with faultWait := none, state := .failed, status := 3 }).report "loader stream stopped" id 3
      else s1.endCommand id .failed 3

/-- A queue stops on an error (18 R332, R333): ERR names the unit. -/
def State.stopQueue (s : State) (q unit status : Nat) : State :=
  let x := s.queue q
  s.setQueue q { x with state := 2, err := BitVec.ofNat 64 (unit % 2 ^ 26 * 2 ^ 38 + status % 256), faultWait := none }

/-- A launch by its context and ordinal. -/
def Launch.key (l : Launch) : Nat := l.ctx * 2 ^ 32 + l.ordinal

/-- LORD, LAGE and LBYP of a queue follow its oldest launch that has not been admitted (18 R332). -/
def State.noteLaunch (s : State) (q : Nat) : State :=
  let x := s.queue q
  match s.al.launches.find? fun l => l.queue == q && l.swapped.isNone with
  | some l => s.setQueue q { x with lord := l.ordinal, lage := l.age, lbyp := l.bypass }
  | none => s.setQueue q { x with lord := 0, lage := 0, lbyp := 0 }

/-- A launch is refused or fails before its admission: its packet completes with a status. -/
def State.dropLaunch (s : State) (l : Launch) (status : Nat) : State :=
  let s1 := { s with al.launches := s.al.launches.filter fun x => x.key != l.key }.noteLaunch l.queue
  (s1.finishPacket l.queue l.packet status).later .admission

/-- A page fault is answered, SERVED or FAIL (20 R360). -/
def State.settleFault (s : State) (p : PageFault) (ok : Bool) : State :=
  let s1 := { s with mm.faults := s.mm.faults.filter fun x => x.id != p.id }
  match p.who with
  | .tile k => s1.answerTile k p ok
  | .command c => s1.answerCommand c p ok
  | .flood ctx layer =>
    let key := ctx * 1024 + layer
    let t := s1.tide key
    if t.faultWait ≠ some p.id then s1
    else if ok then (s1.setTide key { t with faultWait := none }).later (.floodComplete ctx layer)
    else s1.failLayer ctx layer 3
  | .fetch q unit =>
    let x := s1.queue q
    if x.faultWait ≠ some p.id then s1
    else if ok then s1.setQueue q { x with faultWait := none }
    else s1.stopQueue q unit 6
  | .packet q n =>
    let x := s1.queue q
    if !x.packets.any fun k => k.num == n && k.asked == some p.id then s1
    else
      let heard := fun (k : Packet) =>
        if k.num = n then { k with asked := none, dispatched := k.dispatched || !ok, refused := k.refused || (!ok && k.finished.isSome) } else k
      let s2 := s1.setQueue q { x with packets := x.packets.map heard }
      if ok then s2 else s2.finishPacket q n 6
  | .loader n =>
    match s1.al.launches.find? fun l => l.key == n with
    | none => s1
    | some l =>
      if l.loadWait ≠ some p.id then s1
      else if ok then
        let go := fun (x : Launch) => if x.key = n then { x with loadWait := none } else x
        { s1 with al.launches := s1.al.launches.map go }.later .admission
      else s1.dropLaunch l 6

/-- The driver's answer to a fault record; one that no record waits for is ignored and counted (20 R359). -/
def State.answerFault (s : State) (token : Nat) (ok : Bool) : State :=
  match s.mm.faults.find? fun p => p.token == some token with
  | none => s.ignoreWrite false 0x130110
  | some p => s.settleFault p ok

/-- FAULT_SERVED (R360). -/
def execFaultServed (token : Nat) (s : State) : Host.Outcome State Fault Refusal :=
  .next (if s.barOpen then s.answerFault token true else s)

/-- FAULT_FAIL (R360). -/
def execFaultFail (token : Nat) (s : State) : Host.Outcome State Fault Refusal :=
  .next (if s.barOpen then s.answerFault token false else s)

/-- The endpoint caches the agent's translation of the bus frame that a page request asked for (20 R354, R360). -/
def State.cacheAts (s : State) (p : PageFault) (frame : Nat) : State :=
  match s.walk p.ctx p.va p.write with
  | .ok t => if t.leaf.getLsbD 4 then { s with mm.ats := s.mm.ats.put (t.pa / 65536) frame } else s
  | .error _ => s

/-- PAGE_REQUEST_RESPONSE (R360): the host's answer to a page request through a leaf with AT = 1: the host frame, which the endpoint
caches, or a refusal, which acts as FAIL. -/
def execPageRequestResponse (id : Nat) (frame : Option Nat) (s : State) : Host.Outcome State Fault Refusal :=
  match s.mm.faults.find? fun p => p.id == id && p.reason == 0 with
  | none => .next s
  | some p =>
    match frame with
    | some n => if paHost (n * 65536) then .next ((s.cacheAts p n).settleFault p true) else .next s
    | none => .next (s.settleFault p false)

/-- Is a request that went through one of some host frames on its way: an atomic that has no answer or that its firing has given up, or a
buffered store? -/
def State.hostRequests (s : State) (frames : List Nat) : Bool :=
  (s.slots.any fun ks => ks.2.firing.any fun f =>
    f.b.xlated.any (fun x => frames.contains x.2) || f.request.any fun q => q.result.isNone && frames.contains (q.pa / 65536))
    || s.en.late.any fun l => frames.contains (l.q.pa / 65536)

/-- The ATS invalidations whose requests have all completed are complete (R360). -/
def State.completeAts (s : State) : State :=
  let done := s.mm.atsInvals.filter fun (i : Nat × List Nat) => !s.hostRequests i.2
  done.foldl (fun (s : State) (i : Nat × List Nat) => s.emit (.reply "ATS invalidation complete" (toBytes 8 i.1)))
    { s with mm.atsInvals := s.mm.atsInvals.filter fun (i : Nat × List Nat) => s.hostRequests i.2 }

/-- ATS_INVALIDATION (R360): the entries of a range of the host bus go at once; it completes once every request translated by one of them
has completed. -/
def execAtsInvalidation (pa log : Nat) (s : State) : Host.Outcome State Fault Refusal :=
  let hit := s.mm.ats.filter fun e => decide (e.1 * 65536 / 2 ^ log = pa / 2 ^ log ∨ pa / 65536 = e.1)
  .next (State.completeAts { s with mm.ats := s.mm.ats.filter fun e => !hit.contains e, mm.atsInvals := s.mm.atsInvals ++ [(pa, hit.map (·.2))] })

/-! ### The MMU ports (R357, R361, R363) -/

/-- Reserved bits of MMUCMD. -/
def mmuReserved : Dword := BitVec.ofNat 64 (2 ^ 60 - 2 ^ 22 + 2 ^ 16 - 2 ^ 14 + 2 ^ 8 - 2 ^ 4)

/-- A port of the MMU changed. -/
def State.setPort (s : State) (p : Nat) (x : MmuPort) : State := { s with mm.mmu := s.mm.mmu.setIfInBounds p x }
def State.mmuPort (s : State) (p : Nat) : MmuPort := nth s.mm.mmu p MmuPort.zero

/-- The BAR0 offset of MMUCMD of a port. -/
def mmuOffset (p : Nat) : Nat := 0x130010 + 32 * p

/-- The leaf of an address: where its entry lies, and the entry, at level 4. -/
def State.leafFrom (s : State) (va : Nat) : Nat → Nat → Nat → Option (Nat × Dword)
  | 0, _, _ => none
  | fuel + 1, lvl, t =>
    let a := t + 8 * vaIndex lvl va
    let e := s.entry a
    if s.mm.poison.contains (a / 64) ∨ !e.getLsbD 0 ∨ badEntry lvl e then none
    else if e.getLsbD 1 then if lvl = 4 then some (a, e) else none
    else s.leafFrom va fuel (lvl + 1) (bits e 51 15 * 32768)

def State.leafOf (s : State) (ctx va : Nat) : Option (Nat × Dword) := s.leafFrom va 4 1 ((s.ctx ctx).root * 32768)

/-- The page key of a context's VPG. -/
def pageKey (ctx vpg : Nat) : Nat := ctx * 2 ^ 44 + vpg

/-- Is a migration of the page running at some port, or its settle window open (R363)? -/
def State.pageSettling (s : State) (ctx vpg : Nat) : Bool :=
  s.mm.mmu.toList.any (fun x => x.busy && x.op == 2 && x.ctx == ctx && x.vpg == vpg)
    || s.mm.settle.any fun w => w.1 == pageKey ctx vpg && decide (s.clock < w.2)

/-- May frame F move to frame G: to local HBM, or between HBM and host memory (R361, R363)? -/
def moveAllowed (f g : Nat) : Bool :=
  paOk (g * 65536) && (paLocal (g * 65536) || (paHost (g * 65536) && paLocal (f * 65536)))

/-- A migration begins: REMOTE at once, failed at once, or a splice that opens (R361 step 1). -/
def State.beginMigration (s : State) (p ctx vpg g : Nat) (x : MmuPort) : State :=
  if s.pageSettling ctx vpg then s.setPort p { x with busy := false, sts := 1 }
  else
    match s.leafOf ctx (vpg * 65536) with
    | none => s.setPort p { x with busy := false, sts := 2 }
    | some (_, e) =>
      let f := bits e 51 16
      if !moveAllowed f g then s.setPort p { x with busy := false, sts := 2 }
      else
        let s1 := s.setPort p { x with busy := true, sts := 0, op := 2, fromFrame := f, toFrame := g, copied := 0 }
        { s1 with mm.splices := s1.mm.splices ++ [(f, g)] }

/-- A write of MMUCMD (R357); one with a reserved OP is ignored and counted, which is the model's choice (log 95). -/
def State.mmuCommand (s : State) (p : Nat) (v : Dword) : State :=
  let x := s.mmuPort p
  let op := bits v 3 0
  let log := bits v 13 8
  if x.busy ∨ 44 < log ∨ v &&& mmuReserved ≠ 0 ∨ (op ≠ 1 ∧ op ≠ 2) then s.ignoreWrite false (mmuOffset p)
  else
    let vpg := bits x.va 59 16
    let x1 := { x with ctx := bits v 21 16, log := log, op := op, vpg := vpg }
    if op = 1 then
      (s.setPort p { x1 with busy := true, sts := 0 }).beginInvalidation (bits v 21 16) (vpg / 2 ^ log * 2 ^ log) log (some p)
    else s.beginMigration p (bits v 21 16) vpg (bits x.pa 51 16) x1

/-- MMU_INVALIDATE (R357): MMUCMD with op 1. -/
def execMmuInvalidate (port : Nat) (value : Dword) (s : State) : Host.Outcome State Fault Refusal :=
  if s.barOpen ∧ port < 2 ∧ bits value 3 0 ≠ 2 then .next (s.mmuCommand port value) else .next s

/-- MMU_MIGRATE (R361): MMUCMD with op 2. -/
def execMmuMigrate (port : Nat) (value : Dword) (s : State) : Host.Outcome State Fault Refusal :=
  if s.barOpen ∧ port < 2 ∧ bits value 3 0 = 2 then .next (s.mmuCommand port value) else .next s

/-! ### Invalidations (R358) -/

/-- Does a page lie in the range of an invalidation? -/
def Invalidation.covers (i : Invalidation) (ctx vpg : Nat) : Bool := i.ctx == ctx && decide (i.vpg ≤ vpg ∧ vpg < i.vpg + 2 ^ i.log)

/-- Is an access that a dropped entry translated still open: a buffered store, an atomic that has no answer or that its firing has given up,
or a write of the context's cove that a path holds back (log 88)? -/
def State.accessOpen (s : State) (i : Invalidation) : Bool :=
  (s.slots.any fun ks => ks.2.firing.any fun f =>
    f.b.xlated.any (fun x => i.covers ks.2.pl.ctx x.1)
      || f.request.any fun q => q.result.isNone && i.covers ks.2.pl.ctx (q.va / 65536))
    || s.en.late.any (fun l => l.cove == (s.ctx i.ctx).tag && i.covers i.ctx (l.q.va / 65536))
    || s.dv.paths.any fun p => p.heldWrites.any fun w => w.1 == (s.ctx i.ctx).tag

/-- The pages of a TLB entry's leaf meet the range. -/
def Invalidation.meets (i : Invalidation) (t : TlbEntry) : Bool :=
  let n := leafSize t.level / 65536
  let first := t.vpg / n * n
  i.ctx == t.ctx && decide (first < i.vpg + 2 ^ i.log ∧ i.vpg < first + n)

/-- Microseconds as tile cycles. -/
def usCycles (n : Nat) : Nat := n * 2700

/-- The end of a request at a port: a migration closes its splice and opens the settle window (R361, R363); from then on a read of the frame
returns nothing older than what stands there. -/
def State.endPort (s : State) (p : Nat) : State :=
  let x := s.mmuPort p
  let s1 := s.setPort p { x with busy := false, sts := 0 }
  if x.op = 2 then
    let key := pageKey x.ctx x.vpg
    let rest := s1.mm.settle.filter fun w => w.1 != key
    { s1 with mm.splices := s1.mm.splices.filter (· != (x.fromFrame, x.toFrame)), mm.settle := rest ++ [(key, s.clock + usCycles 100)],
              mm.order := { s1.mm.order with moved := (x.toFrame, s1.mm.order.next) :: s1.mm.order.moved } }
  else s1

/-- INVALIDATION_COMPLETE (R358): a walk for the range reads what stood in the tables at the request, or what is newer. -/
def execInvalidationComplete (id : Nat) (s : State) : Host.Outcome State Fault Refusal :=
  match s.mm.invals.find? fun i => i.id == id with
  | none => .next s
  | some i =>
    if s.accessOpen i then .next s
    else
      let s1 := { s with mm.invals := s.mm.invals.filter fun x => x.id != id, mm.tlb := s.mm.tlb.filter fun t => !i.meets t,
                         mm.order := { s.mm.order with fresh := (i.ctx, i.vpg, i.log, i.since) :: s.mm.order.fresh } }
      match i.port with
      | some p => .next (s1.endPort p)
      | none => .next s1

/-- The past of a line of frame G is that of the line of frame F: line numbers `a` and `b`. -/
def copyPast (a b : Nat) (l : List Old) : List Old :=
  (l.filter fun o => o.pa / 64 != b).flatMap fun o => if o.pa / 64 = a then [o, { o with pa := b * 64 + o.pa % 64 }] else [o]

/-- Line `a` copied to line `b` as the copy port reads it, its poison and its past with it (R361 step 2). -/
def State.copyLine (s : State) (a b : Nat) : State :=
  { s with mm.mem := (List.range 64).foldl (fun (m : Memory) i => m.put (b * 64 + i) (m.byte (a * 64 + i))) s.mm.mem,
           mm.poison := if s.mm.poison.contains a then addNum s.mm.poison b else s.mm.poison.filter (· != b),
           mm.dirty := s.mm.dirty.filter fun d => d.2.1 / 64 != b,
           mm.order := { s.mm.order with olds := copyPast a b s.mm.order.olds } }

/-- Is a migration of a port in its second step? -/
def State.copying (s : State) (port : Nat) : Bool :=
  let x := s.mmuPort port
  decide (port < 2) && x.busy && x.op == 2 && !(s.mm.invals.any fun i => i.port == some port)

/-- The copy port of a migration copies the next line of the page (R361 step 2). -/
def State.copyNext (s : State) (port : Nat) : State :=
  let x := s.mmuPort port
  if s.copying port ∧ x.copied < 1024 then
    (s.copyLine (x.fromFrame * 1024 + x.copied) (x.toFrame * 1024 + x.copied)).setPort port { x with copied := x.copied + 1 }
  else s

/-- MIGRATION_COPY_COMPLETE (R361 step 3): every line has been copied; the leaf names G, and its invalidation starts. -/
def execMigrationCopyComplete (port : Nat) (s : State) : Host.Outcome State Fault Refusal :=
  let x := s.mmuPort port
  if s.copying port ∧ x.copied = 1024 then
    match s.leafOf x.ctx (x.vpg * 65536) with
    | some (a, e) =>
      let leaf := e.toNat / 2 ^ 52 * 2 ^ 52 + x.toFrame % 2 ^ 36 * 65536 + e.toNat % 65536
      .next ((s.writeDevice a (toBytes 8 leaf)).beginInvalidation x.ctx x.vpg 0 (some port))
    | none => .next (s.beginInvalidation x.ctx x.vpg 0 (some port))
  else .next s

/-- SETTLE_WINDOW_END (R363): 100 µs after a migration the page may move again. -/
def execSettleWindowEnd (ctx vpg : Nat) (s : State) : Host.Outcome State Fault Refusal :=
  .next { s with mm.settle := s.mm.settle.filter fun w => !(w.1 == pageKey ctx vpg && decide (w.2 ≤ s.clock)) }

/-! ### Kills (R365 to R367) -/

/-- The homes of R365 step 2: 128 shelf slices, 16 memory controllers, the endpoint, 12 Causeway ports, 64 strand engines, the flood
engine and 12 collective engines (01 R8, R10, R12). -/
def homeCount : Nat := 234

/-- The contexts of a cove. -/
def State.coveCtxs (s : State) (cove : Nat) : List Nat := (s.al.ctxs.filter fun c => c.2.tag == cove).map (·.1)

/-- The generation of a cove: that of its contexts, else what its homes hold. -/
def State.coveGen (s : State) (cove : Nat) : Nat :=
  match s.al.ctxs.find? fun c => c.2.tag == cove with
  | some c => c.2.gen
  | none => (s.mm.homeGen.find (128 * 4096 + cove)).getD 0

/-- Fetching ends on a queue; it goes through STATE 3 to 0 (18 R333). -/
def State.endFetching (s : State) (q : Nat) : State :=
  let x := s.queue q
  if x.state = 1 ∨ x.state = 2 then (s.setQueue q { x with state := 3 }).later (.queueStopComplete q) else s

/-- A slot ends: its firing without commit, and nothing is due for it any more. -/
def State.endSlot (s : State) (k : Nat) : State :=
  (s.dropFiring k).updSlot k fun sl =>
    { sl with due := { surWait := false, fallback := none, voids := 0, readySince := none, frozen := sl.due.frozen,
                       monitor := sl.due.monitor, stopped := true, handler := false, policy := none, trapped := false, skip := false,
                       traps := [], fault := none, check := false, exited := sl.due.exited, wfi := none, level := none } }

/-- The valid entries of a table of translations. -/
def State.tableEntries (s : State) (t : Nat) : List Dword :=
  let at' := s.mm.mem.filterMap fun c => if t ≤ c.1 ∧ c.1 < t + 32768 then some ((c.1 - t) / 8) else none
  (at'.eraseDups.map fun i => s.entry (t + 8 * i)).filter (·.getLsbD 0)

/-- The leaves under a table; the fuel is the number of levels left. -/
def State.leavesFrom (s : State) : Nat → Nat → List Dword
  | 0, _ => []
  | fuel + 1, t => (s.tableEntries t).flatMap fun e => if e.getLsbD 1 then [e] else s.leavesFrom fuel (bits e 51 15 * 32768)

/-- The packages whose HBM a context maps (20 R367). -/
def State.mappedPeers (s : State) (ctx : Nat) : List Nat :=
  (s.leavesFrom 4 ((s.ctx ctx).root * 32768)).filterMap fun e =>
    let pa := bits e 51 16 * 65536
    if bits e 63 52 = (s.ctx ctx).tag ∧ paPeer pa then some (paPkg pa) else none

/-- The packages that share an arc, a group or a mapping of their HBM with a context (20 R367). -/
def State.sharingPeers (s : State) (ctx : Nat) : List Nat :=
  let arcs := s.arcs.filterMap fun x => if x.2.tag = ctx then x.2.cross else none
  let groups := s.en.groups.flatMap fun g => if g.2.en ∧ g.2.ctx = ctx then g.2.members else []
  ((arcs ++ groups ++ s.mappedPeers ctx).eraseDups).filter (· != s.dv.pkg)

/-- The bytes of a cove that lie dirty in the shelf are dropped: HBM's stand again (R365 step 3). -/
def State.dropDirty (s : State) (cove : Nat) : State :=
  let mine := s.mm.dirty.filter fun d => d.1 == cove
  { s with mm.mem := mine.foldl (fun m d => m.put d.2.1 d.2.2) s.mm.mem, mm.dirty := s.mm.dirty.filter fun d => d.1 != cove,
           mm.order := { s.mm.order with olds := s.mm.order.olds.filter fun o => !mine.any fun d => d.2.1 == o.pa } }

/-- Commands, streams, floods, translations, pins and shelf lines of killed contexts go (R365 step 3). -/
def State.cancelWork (s : State) (cove : Nat) (ctxs : List Nat) : State :=
  let s1 := (s.cancelCommands fun c => ctxs.contains c.ctx).dropDirty cove
  let stop := fun (x : Nat × Tide) =>
    if ctxs.contains (x.1 / 1024) ∧ (x.2.state = .flooding ∨ x.2.state = .ebbing) then
      (x.1, { x.2 with state := TideState.absent, pfl := false, pend := 0, faultWait := none })
    else x
  { s1 with en.tides := s1.en.tides.map stop, mm.tlb := s1.mm.tlb.filter fun t => t.tag != cove,
            mm.pins := s1.mm.pins.filter fun p => !ctxs.contains p.2.1,
            mm.faults := s1.mm.faults.filter fun p => !ctxs.contains p.ctx }

/-- How the firing of a slot ends with its next instruction, if it does. -/
def State.nextEnd (s : State) (k : Nat) (sl : Slot) (f : Firing) : Option EndKind :=
  match decode ((s.store.find (tileOf k * 32768 + f.pc)).getD 0) with
  | .error _ => none
  | .ok i =>
    match i.parts with
    | some (op, o) =>
      if !s.guardHolds sl f (operandGuard o) then none
      else if op = 0x0C then some .fend else if op = 0xDE then some (.wfi 0) else if op = 0xDF then some .exit else none
    | none => none

/-- The commit of a slot that is under way when a kill begins: nothing but the end of its firing is left to do, and it has stores
(R366). -/
def State.openCommitOf (s : State) (k : Nat) (sl : Slot) : Option OpenCommit :=
  match sl.firing with
  | none => none
  | some f =>
    if f.handler ∨ f.parked.isSome ∨ f.b.gbuf.isEmpty ∨ !inRun sl f.pc ∨ (isSurrogate sl f ∧ !accepts f) then none
    else
      (s.nextEnd k sl f).bind fun e =>
        match s.endFiring k sl f e with
        | .ok _ => some { slot := k, tag := sl.pl.tag, gen := sl.pl.gen, before := s.commitBefore k sl f, tainted := f.tainted, bytes := f.b.gbuf }
        | .error _ => none

/-- The stores of a commit that was under way when a kill began are performed at those homes that have not taken up the new generation
(R366). -/
def State.openCommit (s : State) (k : Nat) : State :=
  match s.mm.kills.findSome? fun x => x.commits.find? fun c => c.slot == k with
  | none => s
  | some c =>
    let s1 := { s with mm.kills := s.mm.kills.map fun (x : Kill) => { x with commits := x.commits.filter fun y => y.slot != k } }
    s1.writeGlobal { tag := c.tag, gen := c.gen, unit := tileOf k, before := c.before, release := true } c.tainted c.bytes

/-- A KILL STARTS (R365 steps 1 to 3): KIP and the new generation, queues stopped, slots ended; a second kill joins. -/
def State.startKill (s : State) (cove : Nat) (packets : List (Nat × Nat)) : State :=
  if s.mm.kills.any fun x => x.cove == cove then
    { s with mm.kills := s.mm.kills.map fun x => if x.cove = cove then { x with packets := x.packets ++ packets } else x }
  else
    let ctxs := s.coveCtxs cove
    let gen := (s.coveGen cove + 1) % 2 ^ 20
    let s1 := ctxs.foldl (fun (s : State) (c : Nat) => s.setCtx c { s.ctx c with kip := true, gen := gen }) s
    let s2 := (s1.fe.queues.filter fun q => ctxs.contains q.2.ctx).foldl (fun (s : State) (q : Nat × Queue) => s.endFetching q.1) s1
    let s3 := (s2.slots.filter fun ks => ctxs.contains ks.2.pl.ctx).foldl (fun (s : State) (ks : Nat × Slot) => s.endSlot ks.1) s2
    let s4 := s3.cancelWork cove ctxs
    let under : List OpenCommit := s.slots.filterMap fun ks => if ctxs.contains ks.2.pl.ctx then s.openCommitOf ks.1 ks.2 else none
    let s5 := { s4 with mm.kills := s4.mm.kills ++ [{ cove := cove, gen := gen, acked := [], packets := packets, flrs := [], commits := under }] }
    let s6 := ctxs.foldl (fun (s : State) (c : Nat) =>
      (s.sharingPeers c).foldl (fun (s : State) (p : Nat) => s.toPeer p (.peer p "kill" (cove * 64 + c) gen)) s) s5
    (List.range homeCount).foldl (fun (s : State) (h : Nat) => s.later (.homeGenerationUpdate h cove)) s6

/-- Held writes, newest first, without those that are discarded; and the bytes that stand again where no kept write covers them
(23 R408). -/
def dropWrites (drop : Nat × Nat × Nat × Byte → Bool) : List (Nat × Nat × Nat × Byte) → List (Nat × Nat × Nat × Byte) × Tab Byte
  | [] => ([], [])
  | w :: t =>
    let r := dropWrites drop t
    match drop w, r.2.find w.2.2.1 with
    | true, some _ => r
    | true, none => (r.1, r.2.put w.2.2.1 w.2.2.2)
    | false, some v => ((w.1, w.2.1, w.2.2.1, v) :: r.1, r.2.del w.2.2.1)
    | false, none => (w :: r.1, r.2)

/-- Paths discard writes that they hold: the bytes that these covered stand again. -/
def State.discardHeld (s : State) (drop : Path → Nat × Nat × Nat × Byte → Bool) : State :=
  let parts := s.dv.paths.map fun p => (p, dropWrites (drop p) p.heldWrites)
  let back : Tab Byte := parts.flatMap (·.2.2)
  { s with mm.mem := back.foldl (fun m w => m.put w.1 w.2) s.mm.mem,
           mm.order := { s.mm.order with olds := s.mm.order.olds.filter fun o => !back.any fun w => w.1 == o.pa },
           dv.paths := parts.map fun x => { x.1 with heldWrites := x.2.1 } }

/-- A Causeway port discards what it holds of an old generation of a cove (20 R366, R367). -/
def State.dropHeld (s : State) (home cove gen : Nat) : State :=
  s.discardHeld fun p w => 145 + p.pkg % 12 == home && w.1 == cove && w.2.1 != gen

/-- HOME_GENERATION_UPDATE (R365 step 2): a home takes the new generation and acknowledges. -/
def execHomeGenerationUpdate (home cove : Nat) (s : State) : Host.Outcome State Fault Refusal :=
  match s.mm.kills.find? fun x => x.cove == cove with
  | none => .next s
  | some kl =>
    if homeCount ≤ home ∨ kl.acked.contains home then .next s
    else
      let mark := fun (x : Kill) => if x.cove = cove then { x with acked := addNum x.acked home } else x
      let s0 := s.dropHeld home cove kl.gen
      let s1 := { s0 with mm.homeGen := s0.mm.homeGen.put (home * 4096 + cove) kl.gen, mm.kills := s0.mm.kills.map mark }
      .next (if kl.acked.length + 1 = homeCount then s1.later (.killComplete cove) else s1)

/-- KILL_COMPLETE (R365 step 4): KIP clears, the slots are freed, launches of the cove complete with status 3, and so the kill
completes, and with it the FLRs that started or joined it (26 R432). -/
def execKillComplete (cove : Nat) (s : State) : Host.Outcome State Fault Refusal :=
  match s.mm.kills.find? fun x => x.cove == cove with
  | none => .next s
  | some kl =>
    if kl.acked.length < homeCount ∨ s.dv.jetty.restarting.isSome then .next s
    else
      let ctxs := s.coveCtxs cove
      let s1 := ctxs.foldl (fun (s : State) (c : Nat) => (s.setCtx c { s.ctx c with kip := false }).endLog c) s
      let s2 := (s1.al.cfgs.filter fun c => ctxs.contains c.2.launch.ctx && decide (c.2.state ≠ .ended)).foldl
        (fun (s : State) (c : Nat × Configuration) => s.endRun c.1 3) s1
      let s3 := (s2.al.launches.filter fun l => ctxs.contains l.ctx).foldl (fun (s : State) (l : Launch) => s.dropLaunch l 3) s2
      let s4 := kl.packets.foldl (fun (s : State) (p : Nat × Nat) => s.finishPacket p.1 p.2 0) s3
      let rest := s4.mm.kills.filter fun x => x.cove != cove
      let waits := rest.any fun x => x.flrs.contains 0
      let s5 := (kl.flrs.filter fun f => f != 0 || !waits).foldl (fun (s : State) (f : Nat) => s.emit (.notice "FLR complete" f 0)) s4
      .next { s5 with mm.kills := rest, dv.host.flr := s5.dv.host.flr && waits }

/-- Does a context of this package share an arc or a group with a peer package? -/
def State.sharesWith (s : State) (ctx pkg : Nat) : Bool :=
  s.arcs.any (fun x => x.2.cross == some pkg && x.2.tag == ctx)
    || s.en.groups.any fun g => g.2.en && g.2.ctx == ctx && g.2.members.contains pkg

/-- PEER_KILL_MESSAGE (R367): the homes take the peer's generation, and every slot of a context of the cove that shares an arc
or a group takes trap 0x1A at its next firing, also one whose configuration is swapped out. -/
def execPeerKillMessage (pkg cove ctx gen : Nat) (s : State) : Host.Outcome State Fault Refusal :=
  let homes := (List.range homeCount).foldl (fun g h => Tab.put g (peerGenKey pkg h cove) gen) s.mm.homeGen
  let hit := (s.coveCtxs cove).filter fun c => s.sharesWith c pkg
  let t : TrapInfo := { code := 0x1A, info := BitVec.ofNat 64 ctx }
  let mark := fun (sl : Slot) => if hit.contains sl.pl.ctx then { sl with due.traps := sl.due.traps ++ [t] } else sl
  let saved := fun (c : Configuration) => { c with saves := c.saves.map fun v => if v.part = 2 then { v with slot := mark v.slot } else v }
  .next { s with mm.homeGen := homes, slots := s.slots.map fun ks => (ks.1, mark ks.2), al.cfgs := s.al.cfgs.map fun c => (c.1, saved c.2) }

end Sys2Proof.Machine
end

