-- ==== Sys2Proof/Machine/Place.lean ====
section
/-! DEFINITION. Where a configuration fits, how the loader places it, and how it leaves and returns
(01 R9, R10, R15; 02 R20, R40, R42; 05 R93, R94, R437; 16 R299 to R303; 17 R327, R436; 23 R401, R407). -/

namespace Sys2Proof.Machine

/-! ### The page grid (01 R10, 16 R299) -/

/-- The tile at a tile offset from an origin page. -/
def gridTile (x0 y0 row col : Nat) : Nat :=
  let gx := 3 * x0 + col
  let gy := 3 * y0 + row
  144 * (gy / 12 * 4 + gx / 12) + 12 * (gy % 12) + gx % 12

/-- The page of a tile, and the column and row of a page in the package grid. -/
def pageOf (tile : Nat) : Nat := 16 * (tile / 144) + 4 * (tile % 144 / 12 / 3) + tile % 12 / 3
def pageCol (p : Nat) : Nat := 4 * (p / 16 % 4) + p % 4
def pageRow (p : Nat) : Nat := 4 * (p / 16 / 4) + p % 16 / 4

/-- The page at a column and row. -/
def gridPage (x y : Nat) : Nat := 16 * (y / 4 * 4 + x / 4) + 4 * (y % 4) + x % 4

/-- The pages of a rectangle. -/
def rectPages (x0 y0 w h : Nat) : List Nat :=
  (List.range h).flatMap fun j => (List.range w).map fun i => gridPage (x0 + i) (y0 + j)

/-! ### The instances that a launch places (17 R327) -/

/-- A placed instance: its position among the lines, where it stands, and its actor. -/
structure Planned where
  inst : Nat
  /-- Position of the line whose place, edges and rank it takes. -/
  home : Nat
  line : InstanceLine
  actor : Actor
deriving DecidableEq, Repr

/-- Under SLAUNCH every line; under LAUNCH a fallback takes its surrogate's place. -/
def Image.planned (im : Image) (slaunch : Bool) : List Planned :=
  (im.lines.zipIdx).filterMap fun x =>
    match im.actorOf x.1 with
    | none => none
    | some a =>
      match x.1.fallbackOf with
      | none => if slaunch || a.surrogateOf.isNone then some { inst := x.2, home := x.2, line := x.1, actor := a } else none
      | some p =>
        if slaunch then some { inst := x.2, home := p, line := x.1, actor := a }
        else (im.lines[p]?).map fun l => { inst := x.2, home := p, line := { l with actor := x.1.actor, word := x.1.word }, actor := a }

/-- Width and height in pages, from the largest offsets. -/
def Image.shape (im : Image) : Nat × Nat :=
  im.lines.foldl (fun m l => (max m.1 (l.col / 3 + 1), max m.2 (l.row / 3 + 1))) (1, 1)

/-! ### Draw (01 R14, R15; 16 R300, R301) -/

/-- Quanta of a power class. -/
def quanta (cls : Nat) : Nat := match cls with | 0 => 6 | 1 => 16 | 2 => 29 | _ => 42

/-- The classes of tiles: key tile, value the highest class of its slots. -/
def raise (t : Tab Nat) (tile cls : Nat) : Tab Nat := t.put tile (max cls ((t.find tile).getD 0))

/-- The tile that a slot is promised by a move of its configuration (16 R303). -/
def State.promised (s : State) (sl : Slot) : Option Nat :=
  ((s.cfg sl.pl.cfg).bind (·.moveTo)).map fun o => gridTile o.1 o.2 (sl.pl.cti / 64) (sl.pl.cti % 64)

/-- Is the slot of an instance that has exited free: its commands have ended (21 R380)? No other work gets it (23 R405), and it draws
nothing. -/
def State.slotFreed (s : State) (k : Nat) (sl : Slot) : Bool :=
  sl.due.exited && s.en.commands.all fun c => c.2.slot != k || c.2.loader || c.2.ended

/-- The images that the DELTAs accepted for a configuration and not yet carried out give it (18 R340). -/
def State.pendingImages (s : State) (cfg : Nat) : List Image := (s.fe.deltas.filter fun d => d.cfg == cfg).map (·.image)

/-- The class that a slot is admitted at, with what an accepted DELTA raises it to; none for one that is free. -/
def State.slotClass (s : State) (k : Nat) (sl : Slot) : Option Nat :=
  if s.slotFreed k sl then none
  else some ((s.pendingImages sl.pl.cfg).foldl (fun m im => max m ((im.actors.find? fun a => a.num == sl.pl.actor.num).elim 0 (·.power)))
    sl.pl.actor.power)

/-- Is a slot that of a clone? -/
def State.isClone (s : State) (k : Nat) (sl : Slot) : Bool := (s.cfg sl.pl.cfg).any fun c => c.cloneSets.any fun x => x.copies.contains k

/-- Admitted classes of the slots that stand, without those of some configurations, with or without clones. A slot that is to move counts on
its present tile and on the one that it is promised, so that a die keeps its budget before and after (01 R15). -/
def State.tileClasses (s : State) (without : List Nat) (clones : Bool) : Tab Nat :=
  s.slots.foldl (fun t ks =>
    match s.slotClass ks.1 ks.2 with
    | none => t
    | some cls =>
      if without.contains ks.2.pl.cfg || (!clones && s.isClone ks.1 ks.2) then t
      else
        let t1 := raise t (tileOf ks.1) cls
        (s.promised ks.2).elim t1 fun tile => raise t1 tile cls) []

/-- Classes that a launch adds at an origin. -/
def plannedClasses (ps : List Planned) (x0 y0 : Nat) (t : Tab Nat) : Tab Nat :=
  ps.foldl (fun t p => raise t (gridTile x0 y0 p.line.row p.line.col) p.actor.power) t

/-- Draw of a die: every tile counts, an empty one class 0. -/
def dieDraw (t : Tab Nat) (die : Nat) : Nat :=
  t.foldl (fun n x => if x.1 / 144 = die then n + quanta x.2 - 6 else n) (144 * 6)

/-- Does every die stay within 6,000 quanta? -/
def withinDies (t : Tab Nat) : Bool := (List.range 8).all fun d => decide (dieDraw t d ≤ 6000)

/-- Quanta of the tiles of a context, with or without those of clones, and its cap. -/
def State.ctxDraw (s : State) (ctx : Nat) (without : List Nat) (clones : Bool) : Nat :=
  let t : Tab Nat := s.slots.foldl (fun t ks =>
    match s.slotClass ks.1 ks.2 with
    | none => t
    | some cls =>
      if without.contains ks.2.pl.cfg || ks.2.pl.ctx != ctx || (!clones && s.isClone ks.1 ks.2) then t else raise t (tileOf ks.1) cls) []
  t.foldl (fun n x => n + quanta x.2) 0
def State.drawCap (s : State) (ctx : Nat) : Nat := min (s.ctx ctx).cap 48000

/-! ### Fitting origins (16 R299) -/

/-- A configuration that stands on its tiles. -/
def Configuration.stands (c : Configuration) : Bool := decide (c.state ≠ .ended ∧ c.state ≠ .swapped)

/-- Pages of a configuration. -/
def Configuration.pages (c : Configuration) : List Nat := rectPages c.x0 c.y0 c.w c.h

/-- Pages held by clones. -/
def State.clonePages (s : State) (without : List Nat) : List Nat :=
  (s.al.cfgs.flatMap fun c => if without.contains c.1 then [] else c.2.cloneSets.flatMap (·.copies)).map fun k => pageOf (tileOf k)

/-- Pages of a configuration, with those that it is to move to. -/
def Configuration.claims (c : Configuration) : List Nat := c.pages ++ c.moveTo.elim [] fun o => rectPages o.1 o.2 c.w c.h

/-- Pages that no launch may take: held, promised to a move, retired, or of a die out of service. -/
def State.takenPages (s : State) (without : List Nat) (clones : Bool) : List Nat :=
  (s.al.cfgs.flatMap fun c => if c.2.stands ∧ !without.contains c.1 then c.2.claims else [])
    ++ (if clones then s.clonePages without else []) ++ s.al.offPages
    ++ (List.range 128).filter fun p => nth s.dv.dieState (p / 16) 0 != 0

/-- The instances that a launch places, with those of the images that accepted DELTAs give a configuration that is to return. -/
def State.plannedAll (s : State) (l : Launch) : List Planned :=
  (l.image :: l.swapped.elim [] s.pendingImages).flatMap fun im => im.planned l.surrogate

/-- Does a launch fit at an origin? -/
def State.fitsAt (s : State) (l : Launch) (without : List Nat) (clones : Bool) (x0 y0 : Nat) : Bool :=
  let sh := l.image.shape
  let ps := s.plannedAll l
  let taken := s.takenPages without clones
  (rectPages x0 y0 sh.1 sh.2).all (fun p => !taken.contains p)
    && withinDies (plannedClasses ps x0 y0 (s.tileClasses without clones))
    && decide (s.ctxDraw l.ctx without clones + (plannedClasses ps x0 y0 []).foldl (fun n x => n + quanta x.2) 0 ≤ s.drawCap l.ctx)

/-- The origin that the allocator takes: the lowest row, then the lowest column. -/
def State.fit (s : State) (l : Launch) (without : List Nat) (clones : Bool) : Option (Nat × Nat) :=
  let sh := l.image.shape
  ((List.range (9 - sh.2)).flatMap fun y => (List.range (17 - sh.1)).map fun x => (x, y)).find? fun o =>
    s.fitsAt l without clones o.1 o.2

/-! ### Carves and windows (02 R20, 05 R94) -/

/-- The edges that name an input port of an instance. -/
def Image.portEdges (im : Image) (inst port : Nat) : List (EdgeLine × Nat) :=
  (im.edges.zipIdx).filter fun e => e.1.consInst == inst && e.1.consPort == port

/-- Window of an input port in tokens: of its edge, of its stream as the image content gives it, or the largest of the edges that merge there
(logs 18, 122). -/
def Image.portWindow (im : Image) (inst port : Nat) : Nat :=
  let es := (im.portEdges inst port).map (·.1.window)
  let ss := (im.streams.filter fun x => x.source && x.inst == inst && x.port == port).map (·.window)
  (es ++ ss).foldl max 0

/-- Bytes of the window of an input port. -/
def Image.windowBytes (im : Image) (p : Planned) (port : Nat) : Nat :=
  im.portWindow p.home port * ((p.actor.inSize[port]?).join.getD 0)

/-- A size rounded up to 64 bytes. -/
def up64 (n : Nat) : Nat := (n + 63) / 64 * 64

/-- Local base of the window of a port. -/
def Image.windowBase (im : Image) (p : Planned) (port : Nat) : Nat :=
  (List.range port).foldl (fun n q => n + up64 (im.windowBytes p q)) 0

/-- WTB, STB, SPB and LIM in 64-byte units. -/
def Image.carve (im : Image) (p : Planned) : Nat × Nat × Nat × Nat :=
  let w := im.windowBase p 16 / 64
  let st := w + up64 p.actor.weightBytes / 64
  let sp := st + up64 p.actor.stateBytes / 64
  (w, st, sp, sp + up64 p.actor.spillBytes / 64)

/-! ### Code and data (05 R93, R437) -/

/-- A LIL word with an address added to its imm40; none outside the signed 40-bit range. -/
def relocate (w : Dword) (a : Nat) : Option Dword :=
  let v := (BitVec.ofNat 40 (bits w 47 8)).toInt + (a : Int)
  if -(2 ^ 39 : Int) ≤ v ∧ v < (2 ^ 39 : Int) then
    some ((w &&& ~~~(BitVec.ofNat 64 ((2 ^ 40 - 1) * 256))) ||| BitVec.ofNat 64 ((BitVec.ofInt 40 v).toNat * 256))
  else none

/-- The code of an actor as a launch loads it. -/
def Image.codeOf (im : Image) (a : Actor) (base : Nat) : Option (List Dword) :=
  (a.code.zipIdx).mapM fun w =>
    match im.relocs.find? fun r => r.1 == a.num && r.2.1 == w.2 with
    | some r => relocate w.1 (base + r.2.2)
    | none => some w.1

/-- An instance word from its fields (02 R21). -/
def packWord (widths word : List Nat) : Nat :=
  ((widths.zip word).foldl (fun m x => (m.1 + x.2 * 2 ^ m.2, m.2 + x.1)) (0, 0)).1

/-- The bytes of a data segment as a launch loads them: the base VA of the named segment is added to each relocated
doubleword (05 R93). -/
def Segment.loaded (g : Segment) (base : Nat) : List Byte :=
  g.relocs.foldl (fun bs r =>
    bs.take r.1 ++ toBytes 8 (ofBytes ((bs.drop r.1).take 8) + base + r.2) ++ bs.drop (r.1 + 8)) g.bytes

/-- The data segments as pieces of at most 64 bytes, with their addresses. -/
def Image.dataPieces (im : Image) (base : Nat) : List (Nat × List Byte) :=
  im.segments.flatMap fun g =>
    let all := g.loaded base ++ List.replicate g.zeros (0 : Byte)
    (List.range ((all.length + 63) / 64)).map fun i => (base + g.off + 64 * i, (all.drop (64 * i)).take 64)

/-! ### Building slots -/

/-- Nothing is due in a new slot. -/
def Due.zero : Due :=
  { surWait := false, fallback := none, voids := 0, readySince := none, frozen := false, monitor := false, stopped := false, handler := false,
    policy := none, trapped := false, skip := false, traps := [], fault := none, check := false, exited := false, wfi := none, level := none }

/-- The first free index of a tile's program store, and of its SRAM in 64-byte units, above the slots that stand there. -/
def State.storeTop (s : State) (tile : Nat) : Nat :=
  (List.range 8).foldl (fun m i => (s.slot (tile * 8 + i)).elim m fun sl => max m (sl.pl.runBase + sl.pl.runLen)) 0
def State.sramTop (s : State) (tile : Nat) : Nat :=
  (List.range 8).foldl (fun m i => (s.slot (tile * 8 + i)).elim m fun sl => max m (sl.pl.phb + sl.pl.lim)) 0

/-- Where the run of an actor of a configuration lies on a tile: the run that another of its instances there executes, else a new one
(05 R94). -/
def State.runAtTile (s : State) (tile cfg actor : Nat) : Nat :=
  let same := (List.range 8).findSome? fun i =>
    match s.slot (tile * 8 + i) with
    | some sl => if sl.pl.cfg = cfg ∧ sl.pl.actor.num = actor then some sl.pl.runBase else none
    | none => none
  same.getD (s.storeTop tile)

/-- Words of a run in the store of a tile. -/
def State.writeRun (s : State) (tile base : Nat) (code : List Dword) : State :=
  let s1 := { s with store := (code.zipIdx).foldl (fun t w => t.put (tile * 32768 + base + w.2) w.1) s.store }
  if s.armedAt 4 tile ∧ (List.range code.length).any fun i => decide ((base + i) / 8 = s.dv.errAdr.toNat / 64) then
    { s1 with dv.hit := some (tile * 8) }
  else s1

/-- Where the arcs of a launch get their numbers: edges, merged ports, stream arcs, then the windows of fallbacks. -/
structure ArcBase where
  edges : Nat
  merged : Nat
  streams : Nat
  fallback : Nat
deriving DecidableEq, Repr

def arcBase (im : Image) (next : Nat) : ArcBase :=
  { edges := next, merged := next + im.edges.length, streams := next + 2 * im.edges.length,
    fallback := next + 2 * im.edges.length + im.streams.length }

/-- The arc behind an input port and behind an output port. -/
def Image.inArcOf (im : Image) (b : ArcBase) (p : Planned) (slaunch : Bool) (port : Nat) : Option Nat :=
  if slaunch ∧ p.inst ≠ p.home then
    if im.portWindow p.home port = 0 then none else some (b.fallback + p.inst * 16 + port)
  else
    match im.portEdges p.home port with
    | [] => (findIdx im.streams fun x => x.source && x.inst == p.home && x.port == port).map (b.streams + ·)
    | [e] => some (b.edges + e.2)
    | e :: _ => some (b.merged + e.2)
def Image.outArcOf (im : Image) (b : ArcBase) (p : Planned) (port : Nat) : Option Nat :=
  match findIdx im.edges fun e => e.prodInst == p.home && e.prodPort == port with
  | some i => some (b.edges + i)
  | none => (findIdx im.streams fun x => !x.source && x.inst == p.home && x.port == port).map (b.streams + ·)

/-- Key of the slot of a planned instance. -/
def Planned.key (p : Planned) (x0 y0 : Nat) : Nat := gridTile x0 y0 p.line.row p.line.col * 8 + p.line.slot

/-- A slot as placement sets it up (03 R50 to R56), frozen in a context that is halted (21 R383); what has been written by then happened
before its firings (07 R129, R147). -/
def State.newSlot (s : State) (l : Launch) (cfg x0 y0 : Nat) (b : ArcBase) (ps : List Planned) (p : Planned) : Slot :=
  let im := l.image
  let cv := im.carve p
  let code := (im.codeOf p.actor l.dataBase).getD []
  let tile := gridTile x0 y0 p.line.row p.line.col
  let keyOf := fun (q : Planned) => q.key x0 y0
  let lvl := if l.late then 9 else l.lvl
  let region := findIdx im.regions fun r => r.actors.contains p.actor.num
  let controls := (im.regions.zipIdx).flatMap fun r =>
    (r.1.controls.filter fun c => c.1 == p.actor.num).map fun c => (c.2, r.2)
  let z := sliceLen p.actor
  { pl := { ctx := l.ctx, cfg := cfg, inst := p.inst, cti := p.line.row * 64 + p.line.col, actor := { p.actor with code := code },
            instWord := BitVec.ofNat 64 (packWord im.widths p.line.word), runBase := s.runAtTile tile cfg p.actor.num, runLen := code.length,
            phb := s.sramTop tile, wtb := cv.1, stb := cv.2.1, spb := cv.2.2.1, lim := cv.2.2.2,
            inArc := Vector.ofFn fun i : Fin 16 => im.inArcOf b p l.surrogate i.val,
            outArc := Vector.ofFn fun i : Fin 16 => im.outArcOf b p i.val,
            tag := (s.ctx l.ctx).tag, gen := (s.ctx l.ctx).gen, launchLvl := lvl, launchEcl := l.ecl, region := region,
            controls := controls, rank := p.home,
            fallback := if p.inst = p.home then (ps.find? fun q => q.home == p.inst && q.inst != q.home && l.surrogate).map keyOf else none,
            surrogate := if p.inst ≠ p.home ∧ l.surrogate then (ps.find? fun q => q.inst == p.home).map keyOf else none },
    layers := (p.actor.layers.zipIdx).map fun y => { layer := y.1, off := y.2 * z, len := z, resident := false, fault := false },
    rateGen := Vector.replicate 8 0, c := p.actor.initC, tl := Vector.replicate 8 { issued := 0, done := 0 },
    sys := { fcsr := BitVec.ofNat 64 (0x400 + bit l.strict * 0x2000), tolr := if l.surrogate then l.tolr else 0, chki := 0, spov := 0, trapv := 0,
             prioEcl := l.ecl, prioLvl := lvl },
    stamp := 0, phase := 0, rset := p.actor.initSet, detl := l.detl, trapc := 0, trapi := Vector.replicate 8 0, flga := 0, chkCount := 0,
    drawOp := none, nextTag := 0, spill := [], spillId := 0, spillBad := [], due := { Due.zero with frozen := (s.ctx l.ctx).halted },
    cut := { last := none, want := none, marked := [] }, firing := none, seen := s.allEvents }

/-! ### Building arcs -/

/-- An arc with nothing in it. -/
def Arc.blank (cfg tag size window : Nat) : Arc :=
  { cfg := cfg, producer := none, consumer := none, tag := tag, size := size, window := window, base := 0, delay := 0, closedFault := false,
    park := window, wp := 0, wpSeen := 0, rp := 0, rpMirror := 0, cross := none, entries := [], parked := [], discards := 0, poisoned := [],
    closed := false, held := none, recorded := [], blocked := false, merge := none, waiting := [], inputs := [], turn := 0 }

/-- The tokens that bytes hold, zero-filled. -/
def tokensOf (size n : Nat) (bs : List Byte) : List (List Byte) :=
  (List.range n).map fun i => (List.range size).map fun j => (bs[i * size + j]?).getD 0

/-- The instance that stands in the place of a line: under SLAUNCH the line's own, under LAUNCH its fallback. -/
def atLine (ps : List Planned) (slaunch : Bool) (line : Nat) : Option Planned :=
  ps.find? fun p => p.home == line && (!slaunch || p.inst == line)

/-- The arcs of a launch with their numbers, and the initial tokens of each. `closed=fault` is that of the producer's port (log 122). -/
def launchArcs (l : Launch) (cfg x0 y0 : Nat) (b : ArcBase) (ps : List Planned) : List (Nat × Arc × List (List Byte)) :=
  let im := l.image
  let at' := atLine ps l.surrogate
  let edge := fun (e : EdgeLine × Nat) =>
    let prod := at' e.1.prodInst
    let cons := at' e.1.consInst
    let size := match cons, prod with
      | some c, _ => (c.actor.inSize[e.1.consPort]?).join.getD 64
      | none, some p => (p.actor.outSize[e.1.prodPort]?).join.getD 64
      | none, none => 64
    let group := im.portEdges e.1.consInst e.1.consPort
    let first := (group.head?).elim e.2 (·.2)
    let x : Arc := { Arc.blank cfg l.ctx size e.1.window with
      producer := prod.map fun p => (p.key x0 y0, e.1.prodPort),
      consumer := cons.map fun c => (c.key x0 y0, e.1.consPort),
      base := cons.elim 0 fun c => im.windowBase c e.1.consPort,
      delay := e.1.delay, park := e.1.park, cross := e.1.cross,
      closedFault := prod.any fun p => (p.actor.closedFault[e.1.prodPort]?).getD false,
      merge := if group.length < 2 ∨ cons.isNone then none else (findIdx group fun g => g.2 == e.2).map fun i => (b.merged + first, i) }
    let toks := tokensOf size e.1.delay e.1.initTokens
    if x.merge.isSome then (b.edges + e.2, { x with waiting := toks.map (·, false), wp := e.1.delay, wpSeen := e.1.delay }, [])
    else (b.edges + e.2, { x with wp := e.1.delay, wpSeen := e.1.delay }, toks)
  let merged := (im.edges.zipIdx).filterMap fun e =>
    let group := im.portEdges e.1.consInst e.1.consPort
    if 2 ≤ group.length ∧ group.head? = some e then
      (at' e.1.consInst).map fun c =>
        let x : Arc := { Arc.blank cfg l.ctx ((c.actor.inSize[e.1.consPort]?).join.getD 64) (im.portWindow e.1.consInst e.1.consPort) with
          consumer := some (c.key x0 y0, e.1.consPort), base := im.windowBase c e.1.consPort, inputs := group.map fun g => b.edges + g.2 }
        (b.merged + e.2, x, [])
    else none
  let streams := (im.streams.zipIdx).filterMap fun t =>
    (at' t.1.inst).map fun p =>
      let size := ((if t.1.source then p.actor.inSize[t.1.port]? else p.actor.outSize[t.1.port]?).join).getD 64
      let me := some (p.key x0 y0, t.1.port)
      let x : Arc := { Arc.blank cfg l.ctx size t.1.window with
        producer := if t.1.source then none else me, consumer := if t.1.source then me else none,
        base := if t.1.source then im.windowBase p t.1.port else 0 }
      (b.streams + t.2, x, [])
  let own := ps.flatMap fun p =>
    if l.surrogate ∧ p.inst ≠ p.home then
      (List.range 16).filterMap fun q =>
        (im.inArcOf b p true q).map fun n =>
          let x : Arc := { Arc.blank cfg l.ctx ((p.actor.inSize[q]?).join.getD 64) (im.portWindow p.home q) with
            consumer := some (p.key x0 y0, q), base := im.windowBase p q }
          (n, x, [])
    else []
  (im.edges.zipIdx).map edge ++ merged ++ streams ++ own

/-- The commands that the loader starts for `.source` and `.sink` streams (05 R93, 08 R180): what has been written by then happened before
them (07 R129, R147). -/
def loaderStreams (s : State) (l : Launch) (x0 y0 : Nat) (ps : List Planned) : List Command :=
  l.image.streams.filterMap fun t =>
    (atLine ps l.surrogate t.inst).map fun p =>
      { slot := p.key x0 y0, tl := if t.source then t.port else 16 + t.port, num := 0, loader := true, ctx := l.ctx, cove := (s.ctx l.ctx).tag,
        gen := (s.ctx l.ctx).gen, op := 0xBF, family := .stream, flags := 0, block := t.block, view := [], barrier := none,
        state := .running, status := 0, progress := 0, subtracted := 0, partials := [], roundStart := 0, faultWait := none, flags5 := 0,
        engine := s.engineFor .stream (p.key x0 y0), row := none, seen := s.allEvents }

/-! ### Placement -/

/-- The region controllers of a launch (05 R90). -/
def launchRegions (l : Launch) (cfg : Nat) : List (Nat × Region) :=
  (l.image.regions.zipIdx).map fun r =>
    let cur := ((l.image.actors.find? fun a => r.1.actors.contains a.num).map (·.initSet)).getD 0
    (regionKey cfg r.2,
     { cfg := cfg, num := r.2, actors := r.1.actors, cfgn := 0, cur := cur, lf := 0, queue := [], levels := [], levelRan := 0, delta := 0, stepping := false })

/-- The save size of a configuration in 64 KiB units (23 R401). -/
def partSize (l : Launch) (ps : List Planned) : Nat :=
  let n := ps.foldl (fun n p => n + l.image.windowBase p 16 + up64 p.actor.stateBytes + Config.slotSaveBytes) 0
  (n + 65535) / 65536

/-- The section of a configuration, given in admission order; none where the rest of the area is too small. -/
def State.giveSection (s : State) (cfg : Nat) (ps : List Planned) (l : Launch) : State :=
  let c := s.ctx l.ctx
  let part := partSize l ps
  let need := 64 + 3 * part * 65536
  if c.snapSize = 0 then s
  else if c.nextSection + need ≤ c.snapSize * 65536 then
    ((s.setCtx l.ctx { c with nextSection := c.nextSection + need }).updCfg cfg fun x =>
      { x with section0 := some c.nextSection, part := part }).writeSection cfg
  else s.report "no snapshot section" l.ctx l.ordinal

/-- The listed layers of a configuration. -/
def planLayers (ps : List Planned) : List Nat := (ps.flatMap fun p => p.actor.layers).eraseDups

/-- Does another configuration of a context that has not ended describe a layer? -/
def State.layerShared (s : State) (ctx layer cfg : Nat) : Bool :=
  s.al.cfgs.any fun c => c.1 != cfg && c.2.launch.ctx == ctx && decide (c.2.state ≠ .ended)
    && c.2.launch.image.layerLines.any fun y => y.layer == layer

/-- A layer that the image carries is declared RESIDENT from its default source, as a flood would make it; an ebb under way ends first
(17 R319, R436; 24 R413; log 89). -/
def Tide.declare (t : Tide) (va : Nat) : Tide :=
  let d := { t with dflt := some va }
  match t.state with
  | .absent | .faulted => { d with src := va, kept := va, state := .resident, gen := (t.gen + 1) % 65536, stat := 0, pend := 0 }
  | .ebbing => if t.pfl then d else { d with pfl := true, nextSrc := va, nextEcl := 0 }
  | .flooding | .resident => d

/-- The layers that a launch describes are at their values at launch, those that the image carries declared; where a configuration of
the context still describes a layer its entry goes on (17 R319). -/
def State.declareLayers (s : State) (l : Launch) (cfg : Nat) : State :=
  l.image.layerLines.foldl (fun (s : State) (y : LayerLine) =>
    let key := l.ctx * 1024 + y.layer
    let t := if s.layerShared l.ctx y.layer cfg then s.tide key else Tide.zero
    match (y.carried.bind fun i => l.image.segments[i]?).map fun g => l.dataBase + g.off with
    | some va => (if t.state = .faulted then s.layerBits l.ctx y.layer false false else s).setTide key (t.declare va)
    | none => s.setTide key t) s

/-- After a placement the listed layers that are RESIDENT or FLOODING get their slices (17 R436). -/
def State.fillLayers (s : State) (ctx : Nat) (layers : List Nat) : State :=
  layers.foldl (fun (s : State) (y : Nat) =>
    let key := ctx * 1024 + y
    let t := s.tide key
    match t.state with
    | .resident => s.later (.floodComplete ctx y)
    | .flooding => (s.setTide key { t with pend := s.layerUnits ctx y }).later (.floodComplete ctx y)
    | .faulted => s.layerBits ctx y false true
    | _ => s) s

/-- A carve cleared. -/
def State.clearCarve (s : State) (k : Nat) : State :=
  { s with mm.sram := s.mm.sram.filter fun c => c.1 / 4194304 != k,
           mm.poisonSram := s.mm.poisonSram.filter fun l => l / 65536 != k }

/-- Slots, arcs, regions, streams and program stores of a launch at an origin. -/
def State.build (s : State) (l : Launch) (cfg x0 y0 : Nat) : State :=
  let im := l.image
  let ps := im.planned l.surrogate
  let b := arcBase im s.nextId
  let slot := fun (s : State) (p : Planned) =>
    let sl := s.newSlot l cfg x0 y0 b ps p
    ((s.clearCarve (p.key x0 y0)).setSlot (p.key x0 y0) sl).writeRun (tileOf (p.key x0 y0)) sl.pl.runBase sl.pl.actor.code
  let s1 := ps.foldl slot { s with nextId := s.nextId + 2 * im.edges.length + im.streams.length + 16 * im.lines.length }
  let arc := fun (s : State) (a : Nat × Arc × List (List Byte)) =>
    let s1 := s.setArc a.1 a.2.1
    match a.2.1.consumer with
    | some c => if a.2.2.isEmpty then s1 else s1.writeTokens { a.2.1 with wp := 0 } c.1 a.2.2
    | none => s1
  let s2 := (launchArcs l cfg x0 y0 b ps).foldl arc s1
  let s3 := (launchRegions l cfg).foldl (fun (s : State) (r : Nat × Region) => s.setRegion r.1 r.2) s2
  let start := fun (s : State) (c : Command) =>
    ({ s with nextId := s.nextId + 1 }.setCommand s.nextId c).later (.streamTokenPublish s.nextId)
  let s4 := (loaderStreams s3 l x0 y0 ps).foldl start s3
  (launchArcs l cfg x0 y0 b ps).foldl (fun (s : State) (a : Nat × Arc × List (List Byte)) =>
    if a.2.1.inputs.isEmpty then s else s.later (.wpArrival a.1)) s4

/-- A configuration as it is first admitted. -/
def newCfg (s : State) (l : Launch) (x0 y0 : Nat) (ps : List Planned) : Configuration :=
  let sh := l.image.shape
  { launch := l, state := .placed, x0 := x0, y0 := y0, w := sh.1, h := sh.2, moveTo := none, slots := ps.map fun p => p.key x0 y0,
    admitted := s.clock, dlDone := false, lastActive := s.clock, residentAtSwap := [], section0 := none, part := 0, last := 0, inpr := 0,
    vld := false, abn := false, swp := false, saves := [], savedArcs := [], cuts := [],
    instancesLeft := (ps.filter fun p => !l.surrogate || p.inst == p.home).length, cloneSets := [] }

/-- FIRST ADMISSION at an origin (02 R19, 16 R298). -/
def State.place (s : State) (l : Launch) (x0 y0 : Nat) : State :=
  let ps := l.image.planned l.surrogate
  let cfg := s.nextId
  let c := newCfg s l x0 y0 ps
  let s1 := { s with nextId := cfg + 1, al.cfgs := s.al.cfgs.put cfg c }
  let s2 := ((s1.declareLayers l cfg).build l cfg x0 y0).fillLayers l.ctx (planLayers ps)
  let s3 := s2.noteRuns l.ctx (· == l.ordinal) fun r => { r with lowest := l.detl }
  ((s3.holdLevel l.ctx l.detl).giveSection cfg ps l).checkRunEnd cfg

/-! ### Moving the references to a slot -/

/-- A slot number replaced. -/
def rekeyNum (ren : List (Nat × Nat)) (k : Nat) : Nat := ((ren.find? fun r => r.1 == k).map (·.2)).getD k

/-- Every reference to slots under new keys: arcs, commands, faults, clone sets, windows, and the slots' own links; the slots themselves are
moved by the caller. -/
def State.rekey (s : State) (ren : List (Nat × Nat)) : State :=
  let r := rekeyNum ren
  let arc := fun (x : Nat × Arc) =>
    (x.1, { x.2 with producer := x.2.producer.map fun p => (r p.1, p.2), consumer := x.2.consumer.map fun p => (r p.1, p.2),
                     lanes := x.2.lanes.foldl (fun (t : Tab Nat) (e : Nat × Nat) => t.put (r e.1) e.2) [] })
  let cmd := fun (x : Nat × Command) => (x.1, { x.2 with slot := r x.2.slot })
  let flt := fun (p : PageFault) => match p.who with | .tile k => { p with who := .tile (r k) } | _ => p
  let cln := fun (c : CloneSet) =>
    { c with original := r c.original, copies := c.copies.map r, splits := c.splits.map fun p => (p.1, p.2.1, p.2.2.map r),
             leaving := c.leaving.map fun p => (r p.1, p.2) }
  let cfg := fun (x : Nat × Configuration) =>
    (x.1, { x.2 with cloneSets := x.2.cloneSets.map cln, slots := x.2.slots.map r })
  let windows := s.al.windows.foldl (fun (t : Tab Window) (w : Nat × Window) => t.put (r w.1) w.2) []
  let event := fun (e : WriteEvent) => { e with cmd := e.cmd.map fun c => (r c.1, c.2) }
  { s with mm.order := { s.mm.order with events := s.mm.order.events.map event }, arcs := s.arcs.map arc, en.commands := s.en.commands.map cmd, mm.faults := s.mm.faults.map flt,
           al.cfgs := s.al.cfgs.map cfg, al.windows := windows }

/-- The links of a slot to others under new keys. -/
def rekeySlot (ren : List (Nat × Nat)) (sl : Slot) : Slot :=
  { sl with pl.fallback := sl.pl.fallback.map (rekeyNum ren), pl.surrogate := sl.pl.surrogate.map (rekeyNum ren) }

/-- A carve filled. -/
def State.fillCarve (s : State) (k : Nat) (bs : Tab Byte) (bad : List Nat) : State :=
  { s with mm.sram := bs.foldl (fun m c => m.put (carveKey k c.1) c.2) s.mm.sram,
           mm.poisonSram := bad.foldl (fun p l => addNum p (carveKey k 0 / 64 + l)) s.mm.poisonSram }

/-- The core of a tile lets a slot go. -/
def State.freeCore (s : State) (k : Nat) : State :=
  let t := s.tile (tileOf k)
  if t.running = some (k % 8) then s.setTile (tileOf k) { t with running := none } else s

/-- A slot put on a tile of pages that its configuration holds alone: its run keeps its indices; cove and generation are those
of now (03 R59), and so is the halt of its context (21 R383). -/
def State.seat (s : State) (k : Nat) (sl : Slot) : State :=
  let halted := (s.ctx sl.pl.ctx).halted
  let sl1 := { sl with pl.tag := (s.ctx sl.pl.ctx).tag, pl.gen := (s.ctx sl.pl.ctx).gen, due.frozen := halted && !sl.due.monitor,
                       due.monitor := sl.due.monitor && halted }
  (s.setSlot k sl1).writeRun (tileOf k) sl.pl.runBase sl.pl.actor.code

/-- The arcs of a configuration deliver what was parked for it (02 R40), and its entries. -/
def State.deliverParked (s : State) (cfg : Nat) : State :=
  s.arcs.foldl (fun (s : State) (x : Nat × Arc) =>
    if x.2.cfg = cfg then
      let s1 := if x.2.parked.isEmpty ∨ x.2.consumer.isNone then s else s.later (.parkedTokenDelivery x.1)
      if x.2.entries.isEmpty then s1 else s1.later (.controlEntryDelivery x.1)
    else s) s

/-! ### Swap-out and return (17 R436, 23 R407) -/

/-- Slots of a configuration without its clones. -/
def State.cfgSlots (s : State) (cfg : Nat) : List (Nat × Slot) :=
  match s.cfg cfg with
  | some c => s.slots.filter fun ks => ks.2.pl.cfg == cfg && c.slots.contains ks.1
  | none => []

/-- Does a firing of a configuration stand in flight, or a clone? -/
def State.cfgBusy (s : State) (cfg : Nat) : Bool :=
  s.slots.any fun ks => ks.2.pl.cfg == cfg && ks.2.firing.isSome

/-- The key that stands for a slot while its configuration is swapped out. -/
def offKey (cfg inst : Nat) : Nat := (cfg + 1) * 2 ^ 32 + inst

/-- Revocable firings of a configuration are voided; irrevocable ones run on (16 R303). -/
def State.stopFirings (s : State) (cfg : Nat) : State :=
  s.slots.foldl (fun (s : State) (ks : Nat × Slot) =>
    if ks.2.pl.cfg = cfg ∧ ks.2.firing.any (fun f => !f.irr) then
      if ks.2.firing.any (·.handler) then (s.dropFiring ks.1).updSlot ks.1 fun sl => { sl with due.handler := true } else s.dropFiring ks.1
    else s) s

/-- A configuration starts to be stopped, for a move or for a swap-out. -/
def State.beginStop (s : State) (cfg : Nat) (st : CfgState) : State :=
  let s1 := (s.updCfg cfg fun c => { c with state := st }).stopFirings cfg
  match s1.cfg cfg with
  | some c => c.cloneSets.foldl (fun (s : State) (x : CloneSet) => if st = .stopping ∧ !x.copies.isEmpty then s.retireClones x else s) s1
  | none => s1

/-- Highest PRIO.ECL among the slots of a configuration. -/
def topEcl (l : List Slot) : Nat := l.foldl (fun m sl => max m sl.sys.prioEcl) 0

/-- Layers of a configuration on its swap-out: those RESIDENT are recorded, and one that no other placed configuration of the
context lists becomes ABSENT (17 R436). -/
def State.releaseLayers (s : State) (cfg ctx : Nat) (layers : List Nat) : State :=
  let res := layers.filter fun y => decide ((s.tide (ctx * 1024 + y)).state = .resident)
  let s1 := s.updCfg cfg fun c => { c with residentAtSwap := res }
  layers.foldl (fun (s : State) (y : Nat) =>
    let t := s.tide (ctx * 1024 + y)
    let others := s.slots.any fun ks => ks.2.pl.ctx == ctx && ks.2.pl.cfg != cfg && ks.2.layers.any fun p => p.layer == y
    if others then s
    else s.setTide (ctx * 1024 + y) { t with state := .absent, pfl := false, stat := 0, pend := 0, faultWait := none }) s1

/-- THE SWAP-OUT of a configuration whose slots have stopped. -/
def State.swapOut (s : State) (cfg : Nat) : State :=
  match s.cfg cfg with
  | none => s
  | some c =>
    let mine := s.cfgSlots cfg
    let ren := mine.map fun ks => (ks.1, offKey cfg ks.2.pl.inst)
    let layers := (mine.flatMap fun ks => ks.2.layers.map (·.layer)).eraseDups
    let save := fun (ks : Nat × Slot) =>
      s.saveOf 2 0 ks.1 { rekeySlot ren ks.2 with spill := [], spillBad := [], layers := ks.2.layers.map fun p => { p with resident := false, fault := false } }
    let s1 := s.updCfg cfg fun x => { x with saves := (x.saves.filter fun v => v.part != 2) ++ mine.map save }
    let s2 := mine.foldl (fun (s : State) (ks : Nat × Slot) => (s.freeCore ks.1).clearCarve ks.1) s1
    let s3 := { s2 with slots := s2.slots.filter fun ks => !(ks.2.pl.cfg == cfg) }
    let s4 := ((s3.rekey ren).releaseLayers cfg c.launch.ctx layers).updCfg cfg fun x => { x with state := .swapped, swp := true }
    let back : Launch := { c.launch with swapped := some cfg }
    ({ s4 with al.launches := s4.al.launches ++ [back] }.writeSection cfg).later .admission

/-- A swapped configuration is placed again at an origin; its cut under way goes on (23 R407), and a rollback of it is announced now that its
slots resume (23 R405, 25 R422). -/
def State.placeBack (s : State) (l : Launch) (cfg x0 y0 : Nat) : State :=
  match s.cfg cfg with
  | none => s
  | some c =>
    let mine := c.saves.filter fun v => v.part == 2
    let keyOf := fun (sl : Slot) (off : Nat) => gridTile x0 y0 (sl.pl.cti / 64) (sl.pl.cti % 64) * 8 + off
    let slotOf := fun (inst : Nat) =>
      ((l.image.planned l.surrogate).find? fun p => p.inst == inst).elim 0 (·.line.slot)
    let ren := mine.map fun v => (offKey cfg v.inst, keyOf v.slot (slotOf v.inst))
    let put := fun (s : State) (v : Save) =>
      let k := keyOf v.slot (slotOf v.inst)
      ((s.clearCarve k).fillCarve k v.bytes v.bad).seat k (rekeySlot ren v.slot)
    let s1 := mine.foldl put (s.rekey ren)
    let s2 := s1.updCfg cfg fun x =>
      { x with state := .placed, x0 := x0, y0 := y0, swp := false, saves := x.saves.filter fun v => v.part != 2, lastActive := s.clock,
               slots := ren.map (·.2) }
    let layers := (mine.flatMap fun v => v.slot.layers.map (·.layer)).eraseDups
    let ecl := topEcl (mine.map (·.slot))
    let gone := c.residentAtSwap.filter fun y => decide ((s2.tide (l.ctx * 1024 + y)).state = .absent)
    let s3 := gone.foldl (fun (s : State) (y : Nat) => s.floodRequest l.ctx y (s.tide (l.ctx * 1024 + y)).kept ecl (s.tide (l.ctx * 1024 + y)).keptSeen) s2
    let wake := fun (s : State) (c : Nat × Command) =>
      if (ren.any fun r => r.2 == c.2.slot) ∧ !c.2.ended then
        if c.2.loader then s.later (.streamTokenPublish c.1) else (s.later (.enginePiecePerformed c.1 (2 ^ 60))).later (.engineCommandEnd c.1)
      else s
    let s4 := s3.fillLayers l.ctx (layers.filter fun y => !gone.contains y)
    let s5 := ((s4.en.commands.foldl wake s4).deliverParked cfg).writeSection cfg
    let s6 := if c.cuts.isEmpty then s5 else s5.later (.cutComplete cfg)
    if c.rollbackDue ∧ c.vld then ((s6.updCfg cfg fun x => { x with rollbackDue := false }).report "ROLLBACK" c.launch.ordinal c.last) else s6

/-! ### Compaction (16 R303) -/

/-- Every configuration that moves takes its new tiles at once: carves whole, weights included. -/
def State.relocate (s : State) : State :=
  let moving := s.al.cfgs.filterMap fun c => c.2.moveTo.map fun o => (c.1, o)
  let jobs := moving.flatMap fun m =>
    (s.cfgSlots m.1).map fun ks => (ks.1, gridTile m.2.1 m.2.2 (ks.2.pl.cti / 64) (ks.2.pl.cti % 64) * 8 + ks.1 % 8, ks.2)
  let ren := jobs.map fun j => (j.1, j.2.1)
  let kept := jobs.map fun j => (j.2.1, j.2.2, s.carveBytes j.1 j.2.2 true, s.carveLines j.1 j.2.2)
  let s1 := jobs.foldl (fun (s : State) (j : Nat × Nat × Slot) => (s.freeCore j.1).clearCarve j.1) s
  let s2 := ({ s1 with slots := s1.slots.filter fun ks => !jobs.any fun j => j.1 == ks.1 }).rekey ren
  let s3 := kept.foldl (fun (s : State) (j : Nat × Slot × Tab Byte × List Nat) =>
    (s.fillCarve j.1 j.2.2.1 j.2.2.2).seat j.1 (rekeySlot ren j.2.1)) s2
  moving.foldl (fun (s : State) (m : Nat × Nat × Nat) =>
    s.updCfg m.1 fun c => { c with x0 := m.2.1, y0 := m.2.2, moveTo := none }) s3

end Sys2Proof.Machine
end

