-- ==== Sys2Proof/Machine/EvAdmit.lean ====
section
/-! DEFINITION. The page allocator and the rebalancer (16 R298 to R315; 09 R185, R191, R193; 23 R407). -/

namespace Sys2Proof.Machine

/-! ### Rank (R298) -/

/-- The level that ranks a launch. -/
def Launch.level (l : Launch) : Nat := if l.late then 9 else l.lvl

/-- Does a launch come before another? -/
def Launch.before (a b : Launch) : Bool :=
  if 10 ≤ a.level ∧ 10 ≤ b.level then
    decide (a.deadline < b.deadline ∨ (a.deadline = b.deadline ∧ (b.level < a.level ∨ (a.level = b.level ∧ a.age < b.age))))
  else decide (b.level < a.level ∨ (a.level = b.level ∧ a.age < b.age))

/-- Insertion in rank order; equals stay in their order of arrival. -/
def rankIn (l : Launch) : List Launch → List Launch
  | [] => [l]
  | x :: t => if l.before x then l :: x :: t else x :: rankIn l t

/-- The launches that are considered: of each queue only the earliest that was never admitted, once its data is written. -/
def State.considered (s : State) : List Launch :=
  let heads := s.al.launches.filter fun l =>
    !(s.ctx l.ctx).kip && (l.swapped.isSome
      || (l.loaded && ((s.al.launches.find? fun x => x.queue == l.queue && x.swapped.isNone).any fun x => x.key == l.key)))
  heads.foldl (fun r l => rankIn l r) []

/-! ### Writing the data of a launch (05 R437) -/

/-- A launch changed. -/
def State.updLaunch (s : State) (key : Nat) (f : Launch → Launch) : State :=
  { s with al.launches := s.al.launches.map fun l => if l.key = key then f l else l }

/-- The pieces that are left, in order; a page fault waits; a protection failure ends the launch, and so does an address at or above 2^60
(log 102). -/
def State.writeData (s : State) (l : Launch) : List (Nat × List Byte) → State
  | [] => s.updLaunch l.key fun x => { x with loaded := true }
  | (va, bs) :: t =>
    match (s.at deviceUnit).globalLocs [] l.ctx va bs.length true with
    | .ok ls =>
      let ws := (ls.zip bs).filterMap fun w => match w.1 with | .glob pa _ => some (pa, w.2) | .carve _ _ => none
      ((s.writeGlobal { tag := (s.ctx l.ctx).tag, gen := (s.ctx l.ctx).gen, unit := deviceUnit } false ws).updLaunch l.key fun x => { x with loadPos := x.loadPos + 1 }).writeData l t
    | .error (.page a reason w) => (s.updLaunch l.key fun x => { x with loadWait := some s.nextId }).newFault a reason (.loader l.key) l.ctx w
    | .error _ => s.dropLaunch l 6

/-- The loader goes on with every launch that waits for nothing. -/
def State.loadAll (s : State) : State :=
  s.al.launches.foldl (fun (s : State) (l : Launch) =>
    if l.loaded ∨ l.loadWait.isSome ∨ l.swapped.isSome ∨ (s.ctx l.ctx).kip then s
    else s.writeData l ((l.image.dataPieces l.dataBase).drop l.loadPos)) s

/-! ### Deadlines before admission (R304) -/

/-- Has the deadline of a launch of level 10 or 11 passed that would be admitted now? -/
def State.tooLate (s : State) (l : Launch) : Bool := decide (10 ≤ l.level ∧ l.deadline < s.ns) && l.swapped.isNone

/-- Such a launch is ranked at level 9 from then on. -/
def State.markLate (s : State) (l : Launch) : State :=
  ((s.updLaunch l.key fun x => { x with late := true }).report "LATE" l.ctx l.ordinal).later .admission

/-! ### Admitting (R298, 09 R185, R191) -/

/-- Does D2 hold an admission back: an earlier launch of the context's pairing is still pending? -/
def State.admitHeld (s : State) (l : Launch) : Bool :=
  l.detl == 2 && l.swapped.isNone
    && (s.al.launches.find? fun x => x.ctx == l.ctx && x.detl == 2 && x.swapped.isNone).any fun x => x.key != l.key

/-- The kind-5 choice point of a first admission, and the level that the launch goes on with. -/
def State.logAdmission (s : State) (l : Launch) : State × Launch :=
  if l.detl = 0 ∨ l.swapped.isSome then (s, l)
  else
    let subj := BitVec.ofNat 64 (l.ordinal % 2 ^ 32)
    match s.forced l.detl l.ctx 5 l.ordinal l.queue (fun _ => true) with
    | .diverges =>
      (((s.diverge l.ctx).report "admission diverged" l.ctx l.ordinal).logRecord l.ctx 5 l.ordinal l.queue subj, { l with detl := 1 })
    | .turn => ((s.performed l.ctx 5 l.ordinal l.queue).logRecord l.ctx 5 l.ordinal l.queue subj, l)
    | _ => (s.logRecord l.ctx 5 l.ordinal l.queue subj, l)

/-- A launch is admitted at an origin. -/
def State.admitOne (s : State) (l : Launch) (o : Nat × Nat) : State :=
  let r := { s with al.launches := s.al.launches.filter fun x => x.key != l.key }.logAdmission l
  let s1 := match l.swapped with
    | some cfg => r.1.placeBack r.2 cfg o.1 o.2
    | none => r.1.place r.2 o.1 o.2
  (s1.noteLaunch l.queue).later .admission

/-- Launches that a lower-ranked one has passed count a bypass (R302). -/
def State.bypassed (s : State) (ls : List Launch) : State :=
  ls.foldl (fun (s : State) (l : Launch) => (s.updLaunch l.key fun x => { x with bypass := x.bypass + 1 }).noteLaunch l.queue) s

/-! ### Compaction (R303) -/

/-- Origins of a rectangle, a given one first. -/
def originsOf (w h : Nat) (now : Option (Nat × Nat)) : List (Nat × Nat) :=
  now.toList ++ (List.range (9 - h)).flatMap fun y => (List.range (17 - w)).map fun x => (x, y)

/-- Do the dies hold the draw of an arrangement: configurations at origins, and a launch at its own? -/
def State.arrangedDraw (s : State) (l : Launch) (arr : List (Nat × Nat × Nat)) : Bool :=
  let clones : Tab Nat := s.slots.foldl (fun t ks =>
    if (s.cfg ks.2.pl.cfg).any (fun c => !c.slots.contains ks.1) then raise t (tileOf ks.1) ks.2.pl.actor.power else t) []
  withinDies (arr.foldl (fun t a =>
    if a.1 = 0 then plannedClasses (s.plannedAll l) a.2.1 a.2.2 t
    else (s.cfgSlots a.1).foldl (fun t ks =>
      (s.slotClass ks.1 ks.2).elim t fun cls => raise t (gridTile a.2.1 a.2.2 (ks.2.pl.cti / 64) (ks.2.pl.cti % 64)) cls) t) clones)

/-- The first arrangement of rectangles (number, width, height, present origin) that is disjoint and within the dies; number 0
stands for the launch. -/
def State.arrange (s : State) (l : Launch) : List (Nat × Nat × Nat × Option (Nat × Nat)) → List Nat → List (Nat × Nat × Nat) →
    Option (List (Nat × Nat × Nat))
  | [], _, arr => if s.arrangedDraw l arr then some arr else none
  | i :: rest, taken, arr =>
    (originsOf i.2.1 i.2.2.1 i.2.2.2).findSome? fun o =>
      let pages := rectPages o.1 o.2 i.2.1 i.2.2.1
      if pages.any taken.contains then none else s.arrange l rest (pages ++ taken) ((i.1, o.1, o.2) :: arr)

/-- Pages that no arrangement may take. Clones are no obstacle: they are removed first (R315). -/
def State.fixedPages (s : State) : List Nat :=
  s.al.offPages ++ (List.range 128).filter fun p => nth s.dv.dieState (p / 16) 0 != 0

/-- The configurations that stand, as rectangles at their present origins. -/
def State.rects (s : State) : List (Nat × Nat × Nat × Option (Nat × Nat)) :=
  s.al.cfgs.filterMap fun c => if c.2.stands then some (c.1, c.2.w, c.2.h, some (c.2.x0, c.2.y0)) else none

/-- The context cap of a launch, wherever it stands. -/
def State.capHolds (s : State) (l : Launch) : Bool :=
  decide (s.ctxDraw l.ctx [] false + (plannedClasses (s.plannedAll l) 0 0 []).foldl (fun n x => n + quanta x.2) 0 ≤ s.drawCap l.ctx)

/-- Moves that give a launch a fitting origin: configuration and the origin as row * 16 + column; with the pages that they and the
launch take. -/
def State.findMoves (s : State) (l : Launch) : Option (List (Nat × Nat) × List Nat) :=
  let sh := l.image.shape
  if !s.capHolds l then none
  else
    (s.arrange l (s.rects ++ [(0, sh.1, sh.2, none)]) s.fixedPages []).map fun arr =>
      (arr.filterMap fun a =>
        match s.cfg a.1 with
        | some c => if (c.x0, c.y0) = (a.2.1, a.2.2) then none else some (a.1, a.2.2 * 16 + a.2.1)
        | none => none,
       arr.flatMap fun a => (s.cfg a.1).elim (rectPages a.2.1 a.2.2 sh.1 sh.2) fun c => rectPages a.2.1 a.2.2 c.w c.h)

/-- Do moves give a launch a fitting origin? -/
def State.movesFit (s : State) (l : Launch) (moves : List (Nat × Nat)) : Bool :=
  let sh := l.image.shape
  let at' := fun (i : Nat × Nat × Nat × Option (Nat × Nat)) =>
    match moves.find? fun m => m.1 == i.1 with
    | some m => (i.1, m.2 % 16, m.2 / 16)
    | none => (i.1, (i.2.2.2.getD (0, 0)).1, (i.2.2.2.getD (0, 0)).2)
  let arr := s.rects.map at'
  let sizes := s.rects.map fun i => (i.2.1, i.2.2.1)
  let pages := (arr.zip sizes).flatMap fun a => rectPages a.1.2.1 a.1.2.2 a.2.1 a.2.2
  s.capHolds l && ((arr.zip sizes).all fun a => decide (a.1.2.1 + a.2.1 ≤ 16 ∧ a.1.2.2 + a.2.2 ≤ 8)) && decide pages.Nodup
    && pages.all (fun p => !s.fixedPages.contains p && !(s.clonePages []).contains p)
    && (originsOf sh.1 sh.2 none).any fun o =>
      (rectPages o.1 o.2 sh.1 sh.2).all (fun p => !pages.contains p && !s.fixedPages.contains p && !(s.clonePages []).contains p) && s.arrangedDraw l ((0, o.1, o.2) :: arr)

/-- Is a move or a swap-out under way? -/
def State.allocBusy (s : State) : Bool := s.al.cfgs.any fun c => decide (c.2.state = .moving ∨ c.2.state = .stopping)

/-- The highest-ranked launch that is considered and has no fitting origin. -/
def State.stuckLaunch (s : State) : Option Launch :=
  match s.considered with
  | l :: _ => if (s.fit l [] true).isNone then some l else none
  | [] => none

/-- COMPACTION (R303): the configurations to be moved stop between firings. -/
def execCompaction (moves : List (Nat × Nat)) (s : State) : Host.Outcome State Fault Refusal :=
  match s.stuckLaunch with
  | none => .next s
  | some l =>
    if moves.isEmpty ∨ s.allocBusy ∨ s.dv.jetty.restarting.isSome ∨ !s.movesFit l moves ∨ !(decide (moves.map (·.1)).Nodup)
        ∨ !(moves.all fun m => (s.cfg m.1).any fun c => decide (c.state = .placed)) then .next s
    else
      .next (moves.foldl (fun (s : State) (m : Nat × Nat) =>
        ((s.updCfg m.1 fun c => { c with moveTo := some (m.2 % 16, m.2 / 16) }).beginStop m.1 .moving).later (.moveComplete m.1)) s)

/-- MOVE_COMPLETE (R303): once every configuration that moves has stopped, they take their new tiles, and this one resumes. -/
def execMoveComplete (cfg : Nat) (s : State) : Host.Outcome State Fault Refusal :=
  match s.cfg cfg with
  | some c =>
    if c.state ≠ .moving ∨ s.al.cfgs.any (fun x => decide (x.2.state = .moving) && s.cfgBusy x.1) then .next s
    else
      let s1 := if s.al.cfgs.any fun x => x.2.moveTo.isSome then s.relocate else s
      .next (((s1.updCfg cfg fun c => { c with state := .placed }).deliverParked cfg).later .admission)
  | none => .next s

/-! ### Swap-outs for admission (R305, R307) -/

/-- A set of configurations whose removal gives a launch an origin: candidates added in order, then those taken out again, in
reverse, without which the rest still does. -/
def State.removalSet (s : State) (l : Launch) (cands : List Nat) : List Nat :=
  match (List.range cands.length).find? fun n => (s.fit l (cands.take (n + 1)) false).isSome with
  | none => []
  | some n =>
    (cands.take (n + 1)).reverse.foldl (fun set c =>
      let rest := set.filter (· != c)
      if (s.fit l rest false).isSome then rest else set) (cands.take (n + 1))

/-- Insertion by a list of numbers compared in order. -/
def keyIn (x : List Nat × Nat) : List (List Nat × Nat) → List (List Nat × Nat)
  | [] => [x]
  | y :: t => if decide (x.1 < y.1) then x :: y :: t else y :: keyIn x t
def sortKeys (l : List (List Nat × Nat)) : List Nat := (l.foldl (fun r x => keyIn x r) []).map (·.2)

/-- Highest PRIO.LVL among the slots of a configuration. -/
def State.topLevel (s : State) (cfg : Nat) : Nat := (s.cfgSlots cfg).foldl (fun m ks => max m ks.2.sys.prioLvl) 0

/-- A configuration that may be swapped out: placed, with a section (23 R401). -/
def Configuration.swappable (c : Configuration) : Bool := decide (c.state = .placed) && c.section0.isSome

/-- The candidates of R305: levels 0 to 9 by launch, lowest rank first, then youngest admission. -/
def State.deadlineCands (s : State) : List Nat :=
  sortKeys (s.al.cfgs.filterMap fun c =>
    if c.2.swappable ∧ c.2.launch.lvl < 10 then some ([s.topLevel c.1, s.clock - c.2.admitted], c.1) else none)

/-- The idle configurations of R307, which have started or resumed no firing for 1 ms: lowest eviction class, lowest level, longest
idle. -/
def State.idleCands (s : State) : List Nat :=
  sortKeys (s.al.cfgs.filterMap fun c =>
    if c.2.swappable ∧ c.2.lastActive + 2700000 ≤ s.clock then
      some ([topEcl ((s.cfgSlots c.1).map (·.2)), s.topLevel c.1, c.2.lastActive], c.1)
    else none)

/-- Configurations start to be swapped out. -/
def State.beginSwapOuts (s : State) (l : List Nat) : State :=
  l.foldl (fun (s : State) (c : Nat) => (s.beginStop c .stopping).later (.swapOut c)) s

/-- SWAP_OUT (R407): a configuration that has stopped between firings, its clones gone, is saved and releases its tiles. -/
def execSwapOut (cfg : Nat) (s : State) : Host.Outcome State Fault Refusal :=
  match s.cfg cfg with
  | some c =>
    if c.state ≠ .stopping ∨ s.cfgBusy cfg ∨ c.cloneSets.any (fun x => !x.copies.isEmpty) then .next s else .next (s.swapOut cfg)
  | none => .next s

/-! ### Admission (R298 to R307, R315) -/

/-- Clones on some pages start to leave (R315). -/
def State.clearPagesOf (s : State) (pages : List Nat) : State :=
  (s.al.cfgs.flatMap fun c => c.2.cloneSets).foldl (fun (s : State) (x : CloneSet) =>
    if x.copies.any fun k => pages.contains (pageOf (tileOf k)) then s.removeClones x else s) s

/-- Clones leave for a launch at an origin (R315): those on its pages, and where none stands there those that take up the draw that it needs,
on its dies and of its context. -/
def State.clearFor (s : State) (l : Launch) (o : Nat × Nat) : State :=
  let pages := rectPages o.1 o.2 l.image.shape.1 l.image.shape.2
  let mine := (s.al.cfgs.filter fun c => c.2.launch.ctx == l.ctx).flatMap fun c => c.2.cloneSets.flatMap fun x => x.copies.map fun k => pageOf (tileOf k)
  let near := (s.clonePages []).filter fun p => pages.any fun q => q / 16 == p / 16
  s.clearPagesOf (if (s.clonePages []).any pages.contains then pages else near ++ mine)

/-- Configurations or clones make room for a launch that has no fitting origin, the first of these that gives it one: clones leave
(R315), configurations move (R303), a deadline launch swaps others out (R305), idle ones are reclaimed (R307). Where clones have to leave
as well they leave first. None where nothing gives it one. -/
def State.makeRoom (s : State) (first : Bool) (l : Launch) : Option State :=
  match s.fit l [] false with
  | some o => some (s.clearFor l o)
  | none =>
    match (if first then s.findMoves l else none) with
    | some (moves, pages) =>
      some (if (s.clonePages []).any pages.contains then s.clearPagesOf pages else s.later (.compaction moves))
    | none =>
      let forced := if l.level < 10 then [] else s.removalSet l s.deadlineCands
      let idle := if forced.isEmpty ∧ s.al.recl then s.removalSet l s.idleCands else []
      let out := if forced.isEmpty then idle else forced
      if out.isEmpty then none
      else if (s.fit l out true).isSome then some (s.beginSwapOuts out)
      else (s.fit l out false).map (s.clearFor l)

/-- The launches in rank order. While clones leave for a launch those behind it are considered, but a compaction or a swap-out admits
nothing else; no launch of levels 0 to 9 is admitted past one that has been passed BYPL times (R302). -/
def State.consider (s : State) (first : Bool) (unfit : List Launch) : List Launch → State
  | [] => s
  | l :: rest =>
    let low := decide (l.level < 10)
    let blocks := low && decide (s.al.bypl ≤ l.bypass)
    match s.fit l [] true with
    | some o =>
      if s.tooLate l then s.markLate l
      else if !s.admitHeld l then (s.bypassed unfit).admitOne l o
      else if blocks then s
      else s.consider false unfit rest
    | none =>
      let s1 := (s.makeRoom first l).getD s
      let unfit1 := if low then l :: unfit else unfit
      if blocks ∨ s1.allocBusy ∨ s1.agenda.any (fun m => match m with | .due (.compaction _) => true | _ => false) then s1
      else s1.consider false unfit1 rest

/-- ADMISSION (R298): data is written, and the highest-ranked launch that fits is admitted. -/
def execAdmission (s : State) : Host.Outcome State Fault Refusal :=
  if s.dv.jetty.restarting.isSome then .next s
  else
    let s1 := { s.loadAll with al.idleSeen := s.idleCands }
    if s1.allocBusy then .next s1 else .next (s1.consider true [] s1.considered)

/-! ### Deadlines of a run (R304) -/

/-- DEADLINE_EXPIRY (R304): an event, or the end of a `hard` run with the status DEADLINE. -/
def execDeadlineExpiry (cfg : Nat) (s : State) : Host.Outcome State Fault Refusal :=
  match s.cfg cfg with
  | some c =>
    let l := c.launch
    if c.state = .ended ∨ c.dlDone ∨ l.lvl < 10 ∨ l.late ∨ l.deadline = 0 ∨ s.ns ≤ l.deadline ∨ s.dv.jetty.restarting.isSome then .next s
    else if l.hard then .next (s.endRun cfg 4)
    else .next ((s.updCfg cfg fun c => { c with dlDone := true }).report "DEADLINE" l.ctx l.ordinal)
  | none => .next s

/-! ### The rebalancer (R309 to R312) -/

/-- The first index of a clone's run on a tile: the original's where those indices are free, else above what stands there; none where
the store has no room (log 90). -/
def State.cloneRun (s : State) (sl : Slot) (tile : Nat) : Option Nat :=
  let free := fun (u : Slot) => decide (u.pl.runBase + u.pl.runLen ≤ sl.pl.runBase ∨ sl.pl.runBase + sl.pl.runLen ≤ u.pl.runBase)
  let here := (List.range 8).filterMap fun i => s.slot (tile * 8 + i)
  let top := s.runAtTile tile sl.pl.cfg sl.pl.actor.num
  if here.all free then some sl.pl.runBase else if top + sl.pl.runLen ≤ 32768 then some top else none

/-- Is a tile open to a clone: on a page that no configuration holds, in service? -/
def State.cloneTile (s : State) (set : CloneSet) (sl : Slot) (tile : Nat) : Option Nat :=
  let pages := s.takenPages [] false
  if pages.contains (pageOf tile) || (s.tile tile).retiring || set.copies.any (fun k => tileOf k == tile)
      || (s.cloneRun sl tile).isNone || decide (49152 < s.sramTop tile + sl.pl.lim) then none
  else (List.range 8).find? fun i => (s.slot (tile * 8 + i)).isNone

/-- Does the draw allow one more slot of a class on a tile? -/
def State.cloneDraw (s : State) (sl : Slot) (tile : Nat) : Bool :=
  let t := s.tileClasses [] true
  let before := (t.find tile).elim 0 quanta
  let after := quanta (max sl.pl.actor.power ((t.find tile).getD 0))
  withinDies (raise t tile sl.pl.actor.power) && decide (s.ctxDraw sl.pl.ctx [] true + after - before ≤ s.drawCap sl.pl.ctx)

/-- The slot that a new clone takes: on the actor's own die if one is open. -/
def State.cloneSpot (s : State) (set : CloneSet) (sl : Slot) : Option Nat :=
  let die := dieOf (tileOf set.original)
  let order := (List.range 144).map (die * 144 + ·) ++ (List.range 1152).filter fun t => t / 144 != die
  order.findSome? fun t => if s.cloneDraw sl t then (s.cloneTile set sl t).map fun i => t * 8 + i else none

/-- TRAPV for a run that begins elsewhere. -/
def movedTrapv (v : Dword) (was now : Nat) : Dword :=
  BitVec.ofNat 64 ((bits v 17 3 + now - was) % 2 ^ 15 * 8 + bits v 2 0)

/-- A clone is created (R311): weights, residency bits, condition bits, timelines, and the system registers that the rule lists; PRIO is that of
the launch (03 R55). -/
def State.addClone (s : State) (set : CloneSet) (sl : Slot) (k st : Nat) : State :=
  let o := set.original
  let wt := (s.carveBytes o sl true).filter fun c => decide (sl.pl.wtb * 64 ≤ c.1 ∧ c.1 < sl.pl.stb * 64)
  let bad := (s.carveLines o sl).filter fun l => decide (sl.pl.wtb ≤ l ∧ l < sl.pl.stb)
  let run := (s.cloneRun sl (tileOf k)).getD sl.pl.runBase
  let new := { sl with pl.phb := s.sramTop (tileOf k), pl.runBase := run,
                       sys := { sl.sys with trapv := if run = sl.pl.runBase then sl.sys.trapv else movedTrapv sl.sys.trapv sl.pl.runBase run,
                                            prioEcl := sl.pl.launchEcl, prioLvl := sl.pl.launchLvl },
                       trapc := 0, trapi := Vector.replicate 8 0, flga := 0, due := { Due.zero with frozen := sl.due.frozen }, firing := none,
                       spill := [], spillBad := [], nextTag := 0, chkCount := 0, drawOp := none }
  let s1 := (((s.clearCarve k).fillCarve k wt bad).setSlot k new).writeRun (tileOf k) run sl.pl.actor.code
  let c1 := s.addSplit { set with copies := set.copies ++ [k], hot := 0, cold := 0 } st
  (s1.resplit sl.pl.cfg c1).logClone o c1.active.length st true

/-- The clone set of an instance, empty if it has none. -/
def State.cloneCounts (s : State) (k : Nat) (sl : Slot) : CloneSet :=
  ((s.cfg sl.pl.cfg).bind fun c => c.cloneSets.find? fun x => x.original == k).getD
    { original := k, copies := [], splits := [], leaving := [], hot := 0, cold := 0, wanted := false, next := 0 }

/-- Can the action of a kind-3 record be carried out on a set: its split stamp is not routed yet, and the clones after it are as many as it says
(09 R189)? -/
def State.recordFits (s : State) (sl : Slot) (set : CloneSet) (subj : Dword) : Bool :=
  let n := set.active.length
  decide (s.firstUnrouted set ≤ bits subj 38 0) &&
    (if subj.getLsbD 60 then bits subj 63 61 == n + 1 && (s.cloneSpot set sl).isSome else n != 0 && bits subj 63 61 == n - 1)

/-- The instance on which a kind-3 record acts: the first of its actor's on which it can be carried out. The record names the actor alone
(log 118). -/
def State.recordTarget (s : State) (sl : Slot) (subj : Dword) : Option Nat :=
  ((s.cfgSlots sl.pl.cfg).find? fun x =>
    x.2.pl.actor.num == sl.pl.actor.num && (s.cloneSet x.1).all (fun c => c.original == x.1) && s.recordFits x.2 (s.cloneCounts x.1 x.2) subj).map (·.1)

/-- The next kind-3 record of a D2 run is carried out at its split stamp (09 R191), or diverges where no instance takes it (R193). -/
def State.loggedClone (s : State) (k : Nat) (sl : Slot) (set : CloneSet) : State :=
  let lnch := s.launchOf sl.pl.cfg
  let site := sl.pl.actor.num
  let gone := (s.diverge sl.pl.ctx).report "clone diverged" sl.pl.ctx site
  match ((s.ctx sl.pl.ctx).log).bind fun g => (g.siteRecords 3 lnch site).head? with
  | none => s
  | some r =>
    let st := bits r.subj 38 0
    let next := s.performed sl.pl.ctx 3 lnch site
    match s.recordTarget sl r.subj with
    | none => gone
    | some t =>
      if t ≠ k then s
      else if r.subj.getLsbD 60 then
        match s.cloneSpot set sl with
        | some j => next.addClone set sl j st
        | none => gone
      else next.removeCloneAt set st

/-! ### The counts of a window (R310) -/

/-- The input arcs of an instance: the edges behind a merge stand for its port. -/
def State.windowArcs (s : State) (sl : Slot) : List (Nat × Arc) := (s.inputArcs sl).filter fun i => i.2.inputs.isEmpty

/-- The last term of a firing guard (02 R28): the slot is not halted, and waits for no handler and no policy. A mode drain is a term of
`guardBut`. -/
def Slot.unhalted (u : Slot) : Bool :=
  let d := u.due
  !d.frozen && !d.stopped && !d.exited && d.policy.isNone && !d.handler && !d.trapped && !d.skip

/-- Does the producer of an arc wait for space on it alone? -/
def State.pressed (s : State) (x : Arc) : Bool :=
  match x.producer with
  | some (k, p) =>
    (s.placed k).any fun u =>
      u.layersHeld && u.unhalted && !(s.tile (tileOf k)).retiring && s.guardBut k u (some p) && !s.spaceOk (s.source k u) ((s.firingsAhead k).getD 0) p
  | none => false

/-- Cycles added under a key. -/
def addCycles (t : Tab Nat) (k n : Nat) : Tab Nat := t.put k ((t.find k).getD 0 + n)

/-- Tile cycles of a window of 100 µs. -/
def windowSpan : Nat := 270000

/-- Is an instance a bottleneck in a window of `n` cycles: every copy busy for 90 %, and some input arc under back-pressure for 25 %? -/
def Window.hot (w : Window) (copies : List Nat) (n : Nat) : Bool :=
  (copies.all fun k => decide (90 * n ≤ 100 * (w.busy.find k).getD 0)) && w.back.any fun b => decide (25 * n ≤ 100 * b.2)

/-- Is every copy busy for less than 40 %? -/
def Window.cold (w : Window) (copies : List Nat) (n : Nat) : Bool :=
  copies.all fun k => decide (100 * (w.busy.find k).getD 0 < 40 * n)

/-- Cycles counted into a window. -/
def Window.add (w : Window) (busy back : List Nat) (n : Nat) : Window :=
  { w with busy := busy.foldl (fun t j => addCycles t j n) w.busy, back := back.foldl (fun t i => addCycles t i n) w.back }

/-- Some cycles pass from a clock value on: every window of 100 µs that they fill ends, and the next begins. -/
def Window.run (w : Window) (copies busy back : List Nat) (clock n : Nat) : Nat → Window
  | 0 => w
  | fuel + 1 =>
    let left := w.since + windowSpan - clock
    if n < left then w.add busy back n
    else
      let full := w.add busy back left
      let next : Window := { since := w.since + windowSpan, busy := [], back := [],
                             ended := w.ended ++ [(full.hot copies windowSpan, full.cold copies windowSpan)] }
      next.run copies busy back (clock + left) (n - left) fuel

/-- What the rebalancer counts of an instance while some cycles pass: busy by copy, back-pressure by input arc. -/
def State.countWindow (s : State) (k : Nat) (sl : Slot) (n : Nat) : Window :=
  let w := (s.al.windows.find k).getD { since := s.clock, busy := [], back := [] }
  let copies := k :: (s.cloneSet k).elim [] (·.copies)
  let busy := copies.filter fun j => (s.slot j).any (·.firing.isSome)
  let back := (s.windowArcs sl).filter fun i => s.pressed i.2
  w.run copies busy (back.map (·.1)) s.clock n (n / windowSpan + 2)

/-- The counts of every clonable instance that is placed, while some cycles pass. -/
def State.countWindows (s : State) (n : Nat) : Tab Window :=
  s.slots.foldl (fun (t : Tab Window) (ks : Nat × Slot) =>
    if ks.2.pl.actor.clonable ∧ (s.placed ks.1).isSome ∧ (s.cloneSet ks.1).all (fun c => c.original == ks.1) then
      t.put ks.1 (s.countWindow ks.1 ks.2 n)
    else t) []

/-- A clone is added where one may stand, from the first stamp not yet routed on. -/
def State.growSet (s : State) (set : CloneSet) (sl : Slot) : State :=
  match s.cloneSpot set sl with
  | some j => if set.copies.length < 4 then s.addClone set sl j (s.firstUnrouted set) else s
  | none => s

/-- A window of an instance that has ended is judged: two bottleneck windows in a row add a clone, four quiet ones remove one (R310), where
the clones may change; the counts go on in any case. -/
def State.endWindow (s : State) (k : Nat) (sl : Slot) (act : Bool) (hotNow coldNow : Bool) : State :=
  let set := s.cloneCounts k sl
  let hot := if hotNow then set.hot + 1 else 0
  let cold := if coldNow then set.cold + 1 else 0
  let set1 := { set with hot := hot, cold := cold }
  let s1 := s.setCloneSet sl.pl.cfg set1
  if !act then s1
  else if 2 ≤ hot ∧ set.copies.length < 4 then s1.growSet set1 sl
  else if 4 ≤ cold ∧ !set.active.isEmpty then s1.removeCloneAt set1 (s1.firstUnrouted set1)
  else s1

/-- May the clones of an instance change: clonable, alive, the original of its set, and no region switch under way (R309)? -/
def State.clonesMayChange (s : State) (k : Nat) (sl : Slot) : Bool :=
  sl.pl.actor.clonable && !sl.due.exited && (s.cloneSet k).all (fun c => c.original == k) && !(s.regionOf sl).any Region.drain
    && sl.pl.surrogate.isNone

/-- The oldest window of an instance that has ended is judged (R309, R310), with no action while the rebalancer is off; under D2 the logged
action alone (09 R191), under D3 none (09 R196). -/
def State.rebalance (s : State) (k : Nat) : State :=
  match s.placed k with
  | none => s
  | some sl =>
    match s.al.windows.find k with
    | some w =>
      match w.ended with
      | (hot, cold) :: rest =>
        let s1 := { s with al.windows := s.al.windows.put k { w with ended := rest } }
        s1.endWindow k sl (s.al.rben && s.clonesMayChange k sl && decide (sl.detl < 2)) hot cold
      | [] => if s.clonesMayChange k sl ∧ sl.detl = 2 then s.loggedClone k sl (s.cloneCounts k sl) else s
    | none => if s.clonesMayChange k sl ∧ sl.detl = 2 then s.loggedClone k sl (s.cloneCounts k sl) else s

/-- A host asks for a clone of an instance: refused as a determinism violation under D3 (09 R196) and under D2, whose log alone says
what is cloned (09 R191); put off while the region drains (R314). -/
def State.hostClone (s : State) (k : Nat) : State :=
  match s.placed k with
  | none => s
  | some sl =>
    let set := s.cloneCounts k sl
    if sl.detl = 3 ∨ sl.detl = 2 then s.report "clone refused, determinism violation" 0x17 k
    else if sl.pl.actor.clonable ∧ (s.regionOf sl).any Region.drain then s.setCloneSet sl.pl.cfg { set with wanted := true }
    else if s.clonesMayChange k sl then s.growSet set sl
    else s

/-- REBALANCER_WINDOW: the end of a window, or a host's request, which waits for no window and is not taken while the Jetty core restarts
(18 R344). -/
def execRebalancerWindow (k : Nat) (host : Bool) (s : State) : Host.Outcome State Fault Refusal :=
  .next (if !host then s.rebalance k else if s.dv.jetty.restarting.isSome then s else s.hostClone k)

end Sys2Proof.Machine
end

