-- ==== Sys2Proof/Machine/Loader.lean ====
section
/-! DEFINITION. What the loader checks of an image before a launch may pend (02 R18 to R27, R42, R44; 05 R91 to R95; 09 R195, R199;
16 R309; 23 R402). -/

namespace Sys2Proof.Machine

/-! ### Limits (02 R21, R22) -/

/-- Field widths and an instance word. -/
def wordOk (widths word : List Nat) : Bool :=
  decide (word.length = widths.length) && (widths.zip word).all fun x => decide (x.2 < 2 ^ x.1)
def widthsOk (widths : List Nat) : Bool :=
  decide (1 ≤ widths.length ∧ widths.length ≤ 6) && widths.all (fun w => decide (1 ≤ w ∧ w ≤ 64)) && decide (widths.foldl (· + ·) 0 ≤ 64)

/-- A token size. -/
def sizeOk (n : Nat) : Bool := decide (64 ≤ n ∧ n ≤ 65536 ∧ n % 64 = 0)

/-- Persistent in its initial set (02 R36). -/
def Actor.persistent (a : Actor) : Bool :=
  (List.range 16).all fun ph => (List.range 32).all fun p => a.rate a.initSet ph p == 0

/-- The limits of one actor. -/
def Actor.ok (a : Actor) : Bool :=
  let per := fun (s : Nat) => (a.period.toList[s]?).getD 0
  (List.range 8).all (fun s => decide (per s ≤ 16) && (List.range (per s)).all fun ph => (a.entry.find (s * 16 + ph)).any fun e => decide (e < a.code.length))
    && decide (a.initSet < 8) && decide (1 ≤ per a.initSet)
    && a.rates.all (fun r => decide (r.2 ≤ 255))
    && (a.inSize.toList ++ a.outSize.toList).all (fun x => x.all sizeOk)
    && decide (a.foot ≤ 262144 ∧ a.power ≤ 3 ∧ a.num < 65536 ∧ a.code.length ≤ 32768)
    && decide (a.condMatch &&& ~~~a.condMask = 0)
    && (!a.clonable || (a.stateBytes == 0 && !a.persistent))
    && (a.layers.isEmpty || decide (sliceLen a ≠ 0)) && a.layers.all (fun y => decide (y < 1024))
    && decide (a.layers.length ≤ 16 ∧ a.layers.Nodup)

/-- A surrogate has the arcs, rates and token sizes of its exact actor. -/
def Image.surrogateOk (im : Image) (a : Actor) : Bool :=
  a.surrogateOf.all fun n => (im.actors.find? fun x => x.num == n).any fun x =>
    decide (x.inSize = a.inSize ∧ x.outSize = a.outSize ∧ x.rates = a.rates ∧ x.period = a.period)

/-! ### Lines, edges and connections -/

/-- The actor of a line by its position. -/
def Image.lineActor (im : Image) (i : Nat) : Option Actor := (im.lines[i]?).bind im.actorOf

/-- A declared port of an instance. -/
def Image.inPort (im : Image) (i p : Nat) : Option Nat := (im.lineActor i).bind fun a => (a.inSize[p]?).join
def Image.outPort (im : Image) (i p : Nat) : Option Nat := (im.lineActor i).bind fun a => (a.outSize[p]?).join

/-- One edge: sizes agree, the window and the ring have their bounds, and an edge across packages declares a delay. -/
def Image.edgeOk (im : Image) (e : EdgeLine) : Bool :=
  let here := fun (i : Nat) => decide (i < im.lines.length)
  let size := (im.inPort e.consInst e.consPort).orElse fun _ => im.outPort e.prodInst e.prodPort
  (here e.prodInst || e.cross.isSome) && (here e.consInst || e.cross.isSome)
    && (!here e.prodInst || (im.outPort e.prodInst e.prodPort).isSome) && (!here e.consInst || (im.inPort e.consInst e.consPort).isSome)
    && (!(here e.prodInst && here e.consInst) || im.outPort e.prodInst e.prodPort == im.inPort e.consInst e.consPort)
    && decide (1 ≤ e.window ∧ e.delay ≤ e.window ∧ e.window ≤ e.park ∧ e.park ≤ 65536)
    && size.all (fun n => decide (e.window * n ≤ 1048576)) && (e.cross.isNone || decide (1 ≤ e.delay))

/-- The window of a stream: whole tokens within 1 MiB (02 R22, R24). -/
def Image.streamOk (im : Image) (x : StreamLine) : Bool :=
  (if x.source then im.inPort x.inst x.port else im.outPort x.inst x.port).any fun n => decide (1 ≤ x.window ∧ x.window * n ≤ 1048576)

/-- Every listed layer is described (17 R318). -/
def Image.layersOk (im : Image) (a : Actor) : Bool := a.layers.all fun y => im.layerLines.any fun l => l.layer == y

/-- The layers that an image describes lie within the tide table of 1,024 entries (17 R318, R319). -/
def Image.layerLinesOk (im : Image) : Bool := im.layerLines.all fun y => decide (y.layer < 1024)

/-- The fallback instances (17 R327): each stands for a declared line of a surrogate, with its exact actor and instance word, and
each line of a surrogate has one. -/
def Image.fallbacksOk (im : Image) : Bool :=
  (im.lines.zipIdx).all fun x =>
    match x.1.fallbackOf with
    | some p => (im.lines[p]?).any fun l =>
        l.fallbackOf.isNone && (im.actorOf l).any (fun a => a.surrogateOf == some x.1.actor) && l.word == x.1.word
    | none => !((im.actorOf x.1).any fun a => a.surrogateOf.isSome) || (im.lines.filter fun l => l.fallbackOf == some x.2).length == 1

/-- Every declared port of a declared instance is connected (05 R94). -/
def Image.connected (im : Image) (i : Nat) : Bool :=
  (List.range 16).all fun p =>
    ((im.inPort i p).isNone || !(im.portEdges i p).isEmpty || im.streams.any fun x => x.source && x.inst == i && x.port == p)
      && ((im.outPort i p).isNone || (im.edges.any fun e => e.prodInst == i && e.prodPort == p)
        || im.streams.any fun x => !x.source && x.inst == i && x.port == p)

/-- Lines stand on the grid, no two in one slot, and fit their tiles (02 R20, 05 R94). -/
def Image.tilesOk (im : Image) (slaunch : Bool) : Bool :=
  let ps := im.planned slaunch
  let at' := fun (p : Planned) => (p.line.row, p.line.col)
  decide (ps.map fun p => (at' p, p.line.slot)).Nodup
    && ps.all fun p =>
      let mine := ps.filter fun q => at' q == at' p
      decide (p.line.row < 24 ∧ p.line.col < 48 ∧ p.line.slot < 8)
        && decide (mine.foldl (fun n q => n + (im.carve q).2.2.2) 0 ≤ 49152
          ∧ ((mine.map (·.actor)).eraseDups).foldl (fun n a => n + a.code.length) 0 ≤ 32768)

/-- MARK stands only in actors whose inputs are streams or delay arcs (23 R402); a fallback has the inputs of its surrogate. -/
def Image.markOk (im : Image) (i : Nat) : Bool :=
  let home := ((im.lines[i]?).bind (·.fallbackOf)).getD i
  (im.lineActor i).all fun a => !a.hasMark ||
    (List.range 16).all fun p => (im.portEdges home p).all fun e => decide (e.1.delay ≠ 0)

/-! ### Consistency and liveness (02 R27) -/

/-- Tokens that one period of an instance moves at a port, outputs from 16 up, in its initial rate set (log 83). -/
def Image.periodRate (im : Image) (i port : Nat) : Nat :=
  (im.lineActor i).elim 0 fun a =>
    (List.range ((a.period.toList[a.initSet]?).getD 0)).foldl (fun n ph => n + a.rate a.initSet ph port) 0

/-- Declared lines, and the edges between them. -/
def Image.nodes (im : Image) : List Nat := (im.lines.zipIdx).filterMap fun x => if x.1.fallbackOf.isNone then some x.2 else none
def Image.inner (im : Image) : List EdgeLine :=
  im.edges.filter fun e => decide (e.prodInst < im.lines.length ∧ e.consInst < im.lines.length)

/-- Repetitions as fractions (numerator, denominator), by instance. -/
abbrev Reps := Tab (Nat × Nat)

/-- Equal fractions. -/
def sameRatio (a b : Nat × Nat) : Bool := a.1 * b.2 == b.1 * a.2

/-- A fraction in lowest terms. -/
def lowest (a : Nat × Nat) : Nat × Nat := let g := Nat.gcd a.1 a.2; if g = 0 then a else (a.1 / g, a.2 / g)

/-- What an edge that alone names its port says: repetitions of one end from those of the other. -/
def Image.spread (im : Image) (r : Reps) : Reps :=
  im.inner.foldl (fun r e =>
    let p := im.periodRate e.prodInst (16 + e.prodPort)
    let c := im.periodRate e.consInst e.consPort
    if 1 < (im.portEdges e.consInst e.consPort).length ∨ p = 0 ∨ c = 0 then r
    else
      match r.find e.prodInst, r.find e.consInst with
      | some x, none => r.put e.consInst (lowest (x.1 * p, x.2 * c))
      | none, some x => r.put e.prodInst (lowest (x.1 * c, x.2 * p))
      | _, _ => r) r

/-- What a merged port says once every producer's repetitions are known. -/
def Image.spreadMerged (im : Image) (r : Reps) : Reps :=
  im.inner.foldl (fun r e =>
    let es := im.portEdges e.consInst e.consPort
    let c := im.periodRate e.consInst e.consPort
    if es.length < 2 ∨ c = 0 ∨ (r.find e.consInst).isSome ∨ es.any (fun x => (r.find x.1.prodInst).isNone) then r
    else
      let sum := es.foldl (fun (m : Nat × Nat) x =>
        let q := (r.find x.1.prodInst).getD (0, 1)
        lowest (m.1 * q.2 + q.1 * im.periodRate x.1.prodInst (16 + x.1.prodPort) * m.2, m.2 * q.2)) (0, 1)
      r.put e.consInst (lowest (sum.1, sum.2 * c))) r

/-- Repetitions spread until every instance has some; an instance that nothing reaches begins with 1. -/
def Image.solve (im : Image) : Nat → Reps → Reps
  | 0, r => r
  | fuel + 1, r =>
    let r1 := im.spreadMerged (im.spread r)
    if r1.length = r.length then
      match im.nodes.find? fun i => (r.find i).isNone with
      | some i => im.solve fuel (r.put i (1, 1))
      | none => r
    else im.solve fuel r1

/-- The balance equation of an input port that `inner` edges feed, one coefficient for each node: what its producers bring less what its
consumer takes; none where a producer lies in another package. -/
def Image.balanceRow (im : Image) (e : EdgeLine) : Option (List Rat) :=
  let es := im.portEdges e.consInst e.consPort
  if es.any fun x => decide (im.lines.length ≤ x.1.prodInst) then none
  else
    some (im.nodes.map fun i =>
      let brings := (es.filter fun x => x.1.prodInst == i).foldl (fun n x => n + im.periodRate i (16 + x.1.prodPort)) 0
      (brings : Rat) - (if e.consInst = i then (im.periodRate i e.consPort : Rat) else 0))

/-- A coefficient of a row, and the rows `r + f * e`. -/
def coef (r : List Rat) (j : Nat) : Rat := (r[j]?).getD 0
def addRow (r : List Rat) (f : Rat) (e : List Rat) : List Rat := (r.zip e).map fun x => x.1 + f * x.2

/-- Equations solved one after another for their first unknown: each node in terms of the unknowns that stay free. -/
def eliminate : List (List Rat) → List (List Rat) → Nat → List (List Rat)
  | [], nodes, _ => nodes
  | _, nodes, 0 => nodes
  | e :: rest, nodes, fuel + 1 =>
    match (List.range e.length).find? fun j => coef e j != 0 with
    | none => eliminate rest nodes fuel
    | some j =>
      let sub := fun (r : List Rat) => addRow r (-(coef r j / coef e j)) e
      eliminate (rest.map sub) (nodes.map sub) fuel

/-- Values of the unknowns `js` that make every row positive, if there are any: an unknown is eliminated between the rows that bound it from
below and from above, and then takes a value between their bounds. -/
def positivePoint : List Nat → List (List Rat) → Option (List (Nat × Rat))
  | [], rows => if rows.isEmpty then some [] else none
  | j :: js, rows =>
    let low := rows.filter fun r => decide (0 < coef r j)
    let up := rows.filter fun r => decide (coef r j < 0)
    let both := low.flatMap fun p => up.map fun n => addRow (p.map (· * -(coef n j))) (coef p j) n
    (positivePoint js ((rows.filter fun r => coef r j == 0) ++ both)).map fun x =>
      let value := fun (r : List Rat) => x.foldl (fun (m : Rat) y => m + coef r y.1 * y.2) 0
      let los := low.map fun r => -(value r) / coef r j
      let his := up.map fun r => -(value r) / coef r j
      let lo := los.foldl (fun (m : Option Rat) y => some (m.elim y fun z => if z < y then y else z)) none
      let hi := his.foldl (fun (m : Option Rat) y => some (m.elim y fun z => if y < z then y else z)) none
      (j, match lo, hi with
        | some a, some b => (a + b) / 2
        | some a, none => a + 1
        | none, some b => b - 1
        | none, none => 1) :: x

/-- A positive solution of the balance equations, as fractions by node; none where there is none (log 132). -/
def Image.balanced (im : Image) : Option Reps :=
  let n := im.nodes.length
  let unit := (List.range n).map fun i => (List.range n).map fun j => if i = j then (1 : Rat) else 0
  let eqs := im.inner.filterMap im.balanceRow
  let rows := eliminate eqs unit eqs.length
  (positivePoint (List.range n) rows).map fun x =>
    (im.nodes.zip rows).foldl (fun t r =>
      let v := x.foldl (fun (m : Rat) y => m + coef r.2 y.1 * y.2) 0
      t.put r.1 (v.num.toNat, v.den)) []

/-- The repetition of every instance, in lowest common terms; where the equations have no positive solution, one that a spread along the
edges leaves off at. -/
def Image.repetitions (im : Image) : Tab Nat :=
  let r := im.balanced.getD (im.solve (2 * im.lines.length + 2) [])
  let m := r.foldl (fun m x => Nat.lcm m x.2.2) 1
  let q := r.map fun x => (x.1, x.2.1 * (m / x.2.2))
  let g := q.foldl (fun g x => Nat.gcd g x.2) 0
  q.map fun x => (x.1, x.2 / max 1 g)

/-- Is an edge between two lines of the image? -/
def Image.isInner (im : Image) (e : EdgeLine) : Bool := decide (e.prodInst < im.lines.length ∧ e.consInst < im.lines.length)

/-- The first edge at which the balance equations have no positive solution: the tokens that one iteration brings to its port are not
those that it takes, or an end has no repetition. -/
def Image.unbalanced (im : Image) (q : Tab Nat) : Option Nat :=
  findIdx im.edges fun e =>
    let es := im.portEdges e.consInst e.consPort
    let got := es.foldl (fun n x => n + (q.find x.1.prodInst).getD 0 * im.periodRate x.1.prodInst (16 + x.1.prodPort)) 0
    im.isInner e && (decide ((q.find e.prodInst).getD 0 = 0 ∨ (q.find e.consInst).getD 0 = 0)
      || !(got == (q.find e.consInst).getD 0 * im.periodRate e.consInst e.consPort || es.any fun x => decide (im.lines.length ≤ x.1.prodInst)))

/-- A symbolic run: tokens by edge number, firings done by instance. -/
structure SymRun where
  fill : Tab Nat
  fired : Tab Nat
deriving DecidableEq, Repr

/-- Tokens taken from the edges of a port, in the order of its inputs. -/
def takeTokens (fill : Tab Nat) : List Nat → Nat → Tab Nat
  | [], _ => fill
  | e :: t, n => let h := (fill.find e).getD 0; takeTokens (fill.put e (h - min h n)) t (n - min h n)

/-- The phases of one period of an instance. -/
def Image.periodOf (im : Image) (i : Nat) : Nat := max 1 ((im.lineActor i).elim 1 fun a => (a.period.toList[a.initSet]?).getD 1)

/-- Firings of one iteration. -/
def Image.iteration (im : Image) (q : Tab Nat) (i : Nat) : Nat := (q.find i).getD 0 * im.periodOf i

/-- The edges of an input port, when every producer is a line of the image; and the edges that an instance feeds. -/
def Image.localEdges (im : Image) (i p : Nat) : List Nat :=
  let es := im.portEdges i p
  if es.all fun e => decide (e.1.prodInst < im.lines.length) then es.map (·.2) else []
def Image.outEdges (im : Image) (i : Nat) : List (EdgeLine × Nat) :=
  (im.edges.zipIdx).filter fun e => e.1.prodInst == i && decide (e.1.consInst < im.lines.length)

/-- The edge that keeps the guard of an instance from holding in a phase: too few tokens, or too little space. -/
def Image.shortEdge (im : Image) (a : Actor) (i ph : Nat) (fill : Tab Nat) : Option Nat :=
  let short := (List.range 16).findSome? fun p =>
    let es := im.localEdges i p
    if a.rate a.initSet ph p ≤ es.foldl (fun m e => m + (fill.find e).getD 0) 0 then none else es.head?
  short.orElse fun _ =>
    ((im.outEdges i).find? fun e => decide (e.1.window < (fill.find e.2).getD 0 + a.rate a.initSet ph (16 + e.1.prodPort))).map (·.2)

/-- One firing of an instance, when its guard can hold and its iteration is not over. -/
def Image.fire (im : Image) (q : Tab Nat) (r : SymRun) (i : Nat) : Option SymRun :=
  match im.lineActor i with
  | none => none
  | some a =>
    let n := (r.fired.find i).getD 0
    let ph := n % im.periodOf i
    if im.iteration q i ≤ n ∨ (im.shortEdge a i ph r.fill).isSome then none
    else
      let f1 := (List.range 16).foldl (fun f p => takeTokens f (im.localEdges i p) (a.rate a.initSet ph p)) r.fill
      let f2 := (im.outEdges i).foldl (fun f e => f.put e.2 ((f.find e.2).getD 0 + a.rate a.initSet ph (16 + e.1.prodPort))) f1
      some { fill := f2, fired := r.fired.put i (n + 1) }

/-- Firings until none is possible. -/
def Image.runIteration (im : Image) (q : Tab Nat) : Nat → SymRun → SymRun
  | 0, r => r
  | fuel + 1, r =>
    match im.nodes.findSome? fun i => im.fire q r i with
    | some r1 => im.runIteration q fuel r1
    | none => r

/-- Where a symbolic run of one iteration stops for good: an edge, and the phase of the instance that waits for it. -/
def Image.deadlock (im : Image) (q : Tab Nat) : Option (Nat × Nat) :=
  let total := im.nodes.foldl (fun n i => n + im.iteration q i) 0
  let start : SymRun := { fill := (im.edges.zipIdx).foldl (fun t e => t.put e.2 e.1.delay) [], fired := [] }
  let r := im.runIteration q (total + 1) start
  im.nodes.findSome? fun i =>
    let n := (r.fired.find i).getD 0
    if n = im.iteration q i then none
    else (im.lineActor i).map fun a => ((im.shortEdge a i (n % im.periodOf i) r.fill).getD 0, n % im.periodOf i)

/-- CONSISTENCY AND LIVENESS (02 R27), for the initial rate sets (log 83): the arc and the phase at which the check stops, phase 0 for
the balance equations; none where the graph passes. -/
def Image.rateStop (im : Image) : Option (Nat × Nat) :=
  let q := im.repetitions
  match im.unbalanced q with
  | some e => some (e, 0)
  | none => im.deadlock q

/-- Equal counts at every merge in one iteration (09 R195). -/
def Image.mergesEqual (im : Image) : Bool :=
  let q := im.repetitions
  im.inner.all fun e =>
    let n := fun (x : EdgeLine) => (q.find x.prodInst).getD 0 * im.periodRate x.prodInst (16 + x.prodPort)
    (im.portEdges e.consInst e.consPort).all fun x => n x.1 == n e

/-! ### The whole check -/

/-- Is an image accepted, the rate check apart? -/
def Image.accepted (im : Image) (slaunch : Bool) (dataBase : Nat) : Bool :=
  decide (im.signature ≠ some false) && decide (im.bsig ≤ 1) && decide (im.prio ≤ 11 ∧ im.ecl ≤ 7 ∧ im.detl ≤ 3)
    && widthsOk im.widths && im.lines.all (fun l => wordOk im.widths l.word && (im.actorOf l).isSome)
    && im.actors.all (fun a => a.ok && im.surrogateOk a && im.layersOk a && (im.codeOf a dataBase).isSome)
    && im.layerLinesOk && im.fallbacksOk && im.edges.all im.edgeOk && im.streams.all im.streamOk && im.nodes.all im.connected
    && (List.range im.lines.length).all im.markOk && im.tilesOk slaunch

end Sys2Proof.Machine
end

