-- ==== Sys2Proof/Machine/SlhDsa.lean ====
section
/-! DEFINITION. SLH-DSA of FIPS 205 over SHA-2 at security category 1: the parameter sets 128s, under which vendor images are signed (22 R387),
and 128f, under which the identity key signs (22 R391). The standard itself is taken from outside the spec, which names it (log 115). -/

namespace Sys2Proof.Machine

/-! ### Parameters and addresses -/

/-- A parameter set: height of the hypertree, its layers, the height of one layer, the height and number of the few-time trees, and the bytes
of a message digest. A hash has 16 bytes, and a one-time key 35 chains of 16 steps. -/
structure SlhSet where
  h : Nat
  d : Nat
  hp : Nat
  a : Nat
  k : Nat
  m : Nat
deriving DecidableEq, Repr

def slh128s : SlhSet := { h := 63, d := 7, hp := 9, a := 12, k := 14, m := 30 }
def slh128f : SlhSet := { h := 66, d := 22, hp := 3, a := 6, k := 33, m := 34 }

/-- Bytes of a signature. -/
def SlhSet.sigBytes (p : SlhSet) : Nat := (1 + p.k * (1 + p.a) + p.h + p.d * 35) * 16

/-- A number as so many bytes, the most significant first, and back. -/
def beBytes (n v : Nat) : List Byte := (toBytes n v).reverse
def beNat (l : List Byte) : Nat := ofBytes l.reverse

/-- Bytes of a list from an offset. -/
def sliceAt (l : List Byte) (off n : Nat) : List Byte := (l.drop off).take n

/-- Where a hash stands: layer, tree, kind, and three words whose use goes by the kind. -/
structure SlhAt where
  layer : Nat
  tree : Nat
  kind : Nat
  w1 : Nat := 0
  w2 : Nat := 0
  w3 : Nat := 0
deriving DecidableEq, Repr

/-- The 22 bytes of an address. -/
def SlhAt.bytes (x : SlhAt) : List Byte := beBytes 1 x.layer ++ beBytes 8 x.tree ++ beBytes 1 x.kind ++ beBytes 4 x.w1 ++ beBytes 4 x.w2 ++ beBytes 4 x.w3

/-- The hash of 16 bytes at an address, under a public seed. -/
def slhHash (seed : List Byte) (x : SlhAt) (m : List Byte) : List Byte :=
  (digestBytes (sha256 (seed ++ List.replicate 48 0 ++ x.bytes ++ m))).take 16

/-- Bits of a byte string as numbers of `b` bits, the most significant first. -/
def slhDigits (l : List Byte) (b n : Nat) : List Nat :=
  (List.range n).map fun i => beNat l / 2 ^ (8 * l.length - b * (i + 1)) % 2 ^ b

/-- Number `i` of a list, and hash `i` of a string of hashes. -/
def numAt (l : List Nat) (i : Nat) : Nat := (l[i]?).getD 0
def hashAt (l : List Byte) (i : Nat) : List Byte := sliceAt l (16 * i) 16

/-! ### One-time keys -/

/-- A chain: so many steps on from step `i`. -/
def slhChain (seed : List Byte) (x : SlhAt) : Nat → Nat → List Byte → List Byte
  | 0, _, v => v
  | n + 1, i, v => slhChain seed x n (i + 1) (slhHash seed { x with w3 := i } v)

/-- The 35 digits that a one-time key signs: those of the hash, and their checksum. -/
def wotsDigits (m : List Byte) : List Nat :=
  let ds := slhDigits m 4 32
  ds ++ slhDigits (beBytes 2 (16 * ds.foldl (fun n x => n + (15 - x)) 0)) 4 3

/-- The one-time public key at a leaf, from the ends of its chains. -/
def wotsRoot (seed : List Byte) (layer tree leaf : Nat) (ends : Nat → List Byte) : List Byte :=
  slhHash seed { layer := layer, tree := tree, kind := 1, w1 := leaf } ((List.range 35).flatMap ends)

/-- The one-time public key that a signature of a hash gives. -/
def wotsFromSig (seed : List Byte) (layer tree leaf : Nat) (sig m : List Byte) : List Byte :=
  let ds := wotsDigits m
  wotsRoot seed layer tree leaf fun i =>
    slhChain seed { layer := layer, tree := tree, kind := 0, w1 := leaf, w2 := i } (15 - numAt ds i) (numAt ds i) (hashAt sig i)

/-- The beginning of a chain of a one-time key, from the secret seed. -/
def wotsSecret (sk seed : List Byte) (layer tree leaf i : Nat) : List Byte :=
  slhHash seed { layer := layer, tree := tree, kind := 5, w1 := leaf, w2 := i } sk

/-- The one-time public key of a leaf, and a signature under it. -/
def wotsPublic (sk seed : List Byte) (layer tree leaf : Nat) : List Byte :=
  wotsRoot seed layer tree leaf fun i =>
    slhChain seed { layer := layer, tree := tree, kind := 0, w1 := leaf, w2 := i } 15 0 (wotsSecret sk seed layer tree leaf i)
def wotsSign (sk seed : List Byte) (layer tree leaf : Nat) (m : List Byte) : List Byte :=
  let ds := wotsDigits m
  (List.range 35).flatMap fun i =>
    slhChain seed { layer := layer, tree := tree, kind := 0, w1 := leaf, w2 := i } (numAt ds i) 0 (wotsSecret sk seed layer tree leaf i)

/-! ### Trees -/

/-- The root that an authentication path of so many hashes gives from a node at index `i`, the node's own height being `z`. -/
def slhPath (seed : List Byte) (x : SlhAt) (auth : List Byte) : Nat → Nat → Nat → List Byte → List Byte
  | 0, _, _, v => v
  | n + 1, z, i, v =>
    let sib := hashAt auth z
    slhPath seed x auth n (z + 1) (i / 2) (slhHash seed { x with w2 := z + 1, w3 := i / 2 } (if i % 2 = 0 then v ++ sib else sib ++ v))

/-- The node of a tree at a height, from its leaves. -/
def slhNode (seed : List Byte) (x : SlhAt) (leaf : Nat → List Byte) : Nat → Nat → List Byte
  | 0, i => leaf i
  | z + 1, i => slhHash seed { x with w2 := z + 1, w3 := i } (slhNode seed x leaf z (2 * i) ++ slhNode seed x leaf z (2 * i + 1))

/-- The root of a layer's tree that a signature of a hash at a leaf gives. -/
def xmssFromSig (p : SlhSet) (seed : List Byte) (layer tree leaf : Nat) (sig m : List Byte) : List Byte :=
  slhPath seed { layer := layer, tree := tree, kind := 2 } (sliceAt sig (35 * 16) (p.hp * 16)) p.hp 0 leaf
    (wotsFromSig seed layer tree leaf (sliceAt sig 0 (35 * 16)) m)

/-- A node of a layer's tree, and a signature under it. -/
def xmssNode (sk seed : List Byte) (layer tree : Nat) : Nat → Nat → List Byte :=
  slhNode seed { layer := layer, tree := tree, kind := 2 } (wotsPublic sk seed layer tree)
def xmssSign (p : SlhSet) (sk seed : List Byte) (layer tree leaf : Nat) (m : List Byte) : List Byte :=
  wotsSign sk seed layer tree leaf m
    ++ (List.range p.hp).flatMap fun z => xmssNode sk seed layer tree z (if leaf / 2 ^ z % 2 = 0 then leaf / 2 ^ z + 1 else leaf / 2 ^ z - 1)

/-- The root of the hypertree that the signatures of so many layers give, from layer `j` up. -/
def hyperRoot (p : SlhSet) (seed sig : List Byte) : Nat → Nat → Nat → Nat → List Byte → List Byte
  | 0, _, _, _, m => m
  | n + 1, j, tree, leaf, m =>
    hyperRoot p seed sig n (j + 1) (tree / 2 ^ p.hp) (tree % 2 ^ p.hp)
      (xmssFromSig p seed j tree leaf (sliceAt sig (j * (35 + p.hp) * 16) ((35 + p.hp) * 16)) m)

/-- The signatures of so many layers, from layer `j` up. -/
def hyperSign (p : SlhSet) (sk seed : List Byte) : Nat → Nat → Nat → Nat → List Byte → List Byte
  | 0, _, _, _, _ => []
  | n + 1, j, tree, leaf, m =>
    let sig := xmssSign p sk seed j tree leaf m
    sig ++ hyperSign p sk seed n (j + 1) (tree / 2 ^ p.hp) (tree % 2 ^ p.hp) (xmssFromSig p seed j tree leaf sig m)

/-! ### Few-time keys -/

/-- The few-time public key that a signature gives, at a leaf of the lowest layer. -/
def forsFromSig (p : SlhSet) (seed : List Byte) (tree leaf : Nat) (sig md : List Byte) : List Byte :=
  let x : SlhAt := { layer := 0, tree := tree, kind := 3, w1 := leaf }
  let roots := (List.range p.k).flatMap fun i =>
    let part := sliceAt sig (i * (p.a + 1) * 16) ((p.a + 1) * 16)
    let idx := i * 2 ^ p.a + numAt (slhDigits md p.a p.k) i
    slhPath seed x (part.drop 16) p.a 0 idx (slhHash seed { x with w2 := 0, w3 := idx } (part.take 16))
  slhHash seed { x with kind := 4 } roots

/-- A signature by a few-time key. -/
def forsSign (p : SlhSet) (sk seed : List Byte) (tree leaf : Nat) (md : List Byte) : List Byte :=
  let x : SlhAt := { layer := 0, tree := tree, kind := 3, w1 := leaf }
  let secret := fun (i : Nat) => slhHash seed { x with kind := 6, w3 := i } sk
  let bottom := fun (i : Nat) => slhHash seed { x with w3 := i } (secret i)
  (List.range p.k).flatMap fun i =>
    let idx := i * 2 ^ p.a + numAt (slhDigits md p.a p.k) i
    secret idx ++ (List.range p.a).flatMap fun z =>
      slhNode seed x bottom z (if idx / 2 ^ z % 2 = 0 then idx / 2 ^ z + 1 else idx / 2 ^ z - 1)

/-! ### Messages -/

/-- SHA-256 with a key of 16 bytes. -/
def hmac16 (key m : List Byte) : List Byte :=
  let pad := fun (b : Byte) => (key ++ List.replicate (64 - key.length) 0).map (· ^^^ b)
  digestBytes (sha256 (pad 0x5C ++ digestBytes (sha256 (pad 0x36 ++ m))))

/-- So many bytes from a seed, 32 at a time. -/
def maskBytes (seed : List Byte) (n : Nat) : List Byte :=
  ((List.range ((n + 31) / 32)).flatMap fun i => digestBytes (sha256 (seed ++ beBytes 4 i))).take n

/-- What is signed of a message: no context string, no pre-hash. -/
def slhMessage (m : List Byte) : List Byte := [0, 0] ++ m

/-- The digest of a message under a randomizer: what the few-time key signs, the tree, and the leaf. -/
def slhSplit (p : SlhSet) (r seed root m : List Byte) : List Byte × Nat × Nat :=
  let dg := maskBytes (r ++ seed ++ digestBytes (sha256 (r ++ seed ++ root ++ m))) p.m
  let n1 := (p.k * p.a + 7) / 8
  let n2 := (p.h - p.hp + 7) / 8
  (dg.take n1, beNat (sliceAt dg n1 n2) % 2 ^ (p.h - p.hp), beNat (sliceAt dg (n1 + n2) ((p.hp + 7) / 8)) % 2 ^ p.hp)

/-- DOES A SIGNATURE OF A MESSAGE VERIFY under a public key of 32 bytes? -/
def slhVerify (p : SlhSet) (key m sig : List Byte) : Bool :=
  let seed := key.take 16
  let root := key.drop 16
  let x := slhSplit p (sig.take 16) seed root (slhMessage m)
  let forsBytes := p.k * (p.a + 1) * 16
  let pk := forsFromSig p seed x.2.1 x.2.2 (sliceAt sig 16 forsBytes) x.1
  decide (key.length = 32 ∧ sig.length = p.sigBytes) && hyperRoot p seed (sig.drop (16 + forsBytes)) p.d 0 x.2.1 x.2.2 pk == root

/-- THE PUBLIC KEY of the three seeds of 16 bytes: secret, randomizer's and public. -/
def slhPublic (p : SlhSet) (seeds : List Byte) : List Byte :=
  sliceAt seeds 32 16 ++ xmssNode (seeds.take 16) (sliceAt seeds 32 16) (p.d - 1) 0 p.hp 0

/-- A SIGNATURE of a message under three seeds, with 16 random bytes. -/
def slhSign (p : SlhSet) (seeds random m : List Byte) : List Byte :=
  let sk := seeds.take 16
  let seed := sliceAt seeds 32 16
  let m1 := slhMessage m
  let r := (hmac16 (sliceAt seeds 16 16) (random ++ m1)).take 16
  let x := slhSplit p r seed ((slhPublic p seeds).drop 16) m1
  let fors := forsSign p sk seed x.2.1 x.2.2 x.1
  r ++ fors ++ hyperSign p sk seed p.d 0 x.2.1 x.2.2 (forsFromSig p seed x.2.1 x.2.2 fors x.1)

end Sys2Proof.Machine
end

