-- ==== Sys2Proof/Machine/ImageFile.lean ====
section
/-! DEFINITION. The bytes of an Olufal image: header, sections, digest, signature and code (05 R95; 04 R61; 09 R199; 22 R388). -/

namespace Sys2Proof

/-- What the sections of kinds 1 to 7 of an image say, by kind and bytes; none where they say nothing. The spec gives their
contents and not their layout (05 R95, log 9). -/
opaque Config.imageContent : List (Nat × List Byte) → Option Machine.Image

/-- The key hash fused in the Lighthouse (22 R387). -/
opaque Config.vendorKeyHash : BitVec 256

namespace Machine

/-! ### Reading memory for a packet -/

/-- Bytes read through a context's translation. -/
def State.ctxRead (s : State) (ctx va n : Nat) : Except Stop (List Byte) :=
  ((s.at deviceUnit).globalLocs [] ctx va n false).map fun ls => ls.map (s.readLoc Buffers.empty)

/-- Bytes read 64 at a time, `n` times at most, up to `len` bytes: the first piece that fails ends the read. -/
def State.ctxReadLong (s : State) (ctx va : Nat) : Nat → Nat → Except Stop (List Byte)
  | 0, _ => .ok []
  | n + 1, len => do
    let bs ← s.ctxRead ctx va (min 64 len)
    let rest ← if len ≤ 64 then .ok [] else s.ctxReadLong ctx (va + 64) n (len - 64)
    return bs ++ rest

/-! ### Header and sections (05 R95) -/

/-- A section: its kind, the offset of its entry, and its data. -/
structure Section where
  kind : Nat
  off : Nat
  data : List Byte
deriving DecidableEq, Repr

/-- The header: MAGIC, VER, 1 to 64 sections, and zero bytes. -/
def headerOk (bs : List Byte) : Bool :=
  bs.take 4 == [0x4F, 0x4C, 0x55, 0x46] && field bs 4 2 == 1 && decide (1 ≤ field bs 6 2 ∧ field bs 6 2 ≤ 64) && field bs 48 16 == 0

/-- Bytes of a vendor public key with a signature (05 R95 kind 8). -/
def signatureBytes : Nat := 32 + 7856

/-- So many sections from the entry at an offset: known kinds, none past LEN, kind 8 last; none where the loader rejects them. -/
def sectionsFrom (bs : List Byte) (len : Nat) : Nat → Nat → Option (List Section)
  | 0, _ => some []
  | n + 1, off =>
    let kind := field bs off 4
    let size := field bs (off + 4) 8
    if 1 ≤ kind ∧ kind ≤ 8 ∧ off + 16 + size ≤ len ∧ field bs (off + 12) 4 = 0 ∧ (kind = 8 → n = 0 ∧ size = signatureBytes) then
      (sectionsFrom bs len n (up64 (off + 16 + size))).map fun l =>
        { kind := kind, off := off, data := (bs.drop (off + 16)).take size } :: l
    else none

/-- The data of the section of a kind: of the first, where an image has several (log 122). -/
def sectionData (l : List Section) (kind : Nat) : List Byte := ((l.find? fun x => x.kind == kind).map (·.data)).getD []

/-- The words of the code section: little-endian, so that byte 0 holds the guard and byte 7 the opcode (04 R61). -/
def codeWords (bs : List Byte) : List Dword := (List.range (bs.length / 8)).map fun i => BitVec.ofNat 64 (field bs (8 * i) 8)

/-- Does a word encode MARK (23 R402)? -/
def isMark (w : Dword) : Bool :=
  match decode w with
  | .ok i => i.parts.any fun p => p.1 == 0x96
  | .error _ => false

/-- One run per actor, in the order of the actors (05 R95 kind 5). -/
def withRuns : List Actor → List Dword → List Actor
  | [], _ => []
  | a :: t, ws =>
    let code := ws.take a.code.length
    { a with code := code, hasMark := code.any isMark } :: withRuns t (ws.drop a.code.length)

/-- Does the Lighthouse accept a public key of 32 bytes and an SLH-DSA-SHA2-128s signature of 7,856 over a digest (22 R387, log 115)? -/
def vendorSigned (key : List Byte) (digest : BitVec 256) (sig : List Byte) : Bool :=
  decide (key.length = 32 ∧ sig.length = 7856 ∧ sha256 key = Config.vendorKeyHash) && slhVerify slh128s key (digestBytes digest) sig

/-- The digest that is signed and measured: of a body and its SVN (22 R387, R389). -/
def bodyDigest (body : List Byte) (svn : BitVec 32) : BitVec 256 := sha256 (body ++ toBytes 4 svn.toNat)

/-- Does the Lighthouse accept the kind-8 section over what it signs (22 R387, R388)? -/
def signatureOk (body sig : List Byte) : Bool := vendorSigned (sig.take 32) (bodyDigest body 0) (sig.drop 32)

/-- The image that bytes are, with LEN bytes in all; none where the loader rejects them. -/
def imageOf (bs : List Byte) : Option Image :=
  let len := field bs 8 8
  match sectionsFrom bs len (field bs 6 2) 64 with
  | none => none
  | some l =>
    let sig := l.find? fun x => x.kind == 8
    let body := (bs.take (sig.elim len (·.off))).drop 64
    if !headerOk bs ∨ sha256 body ≠ BitVec.ofNat 256 (ofBytes ((bs.drop 16).take 32).reverse) then none
    else
      (Config.imageContent ((l.filter fun x => x.kind != 8).map fun x => (x.kind, x.data))).map fun im =>
        { im with hash := sha256 body, signature := sig.map fun x => signatureOk body x.data,
                  bsig := field (sectionData l 1) 0 2, actors := withRuns im.actors (codeWords (sectionData l 5)) }

/-- THE IMAGE AT A VIRTUAL ADDRESS of a context: none where its bytes are rejected. -/
def State.readImage (s : State) (ctx va : Nat) : Except Stop (Option Image) := do
  let head ← s.ctxRead ctx va 64
  if field head 8 8 < 64 then return none
  let bs ← s.ctxReadLong ctx va (field head 8 8 / 64 + 1) (field head 8 8)
  return imageOf bs

end Machine

end Sys2Proof
end

