-- ==== Sys2Proof/Machine/EvQueue.lean ====
section
/-! DEFINITION. Queues and packets (18 R332 to R341; 09 R187 to R191, R197; 20 R365). -/

namespace Sys2Proof.Machine

/-! ### Packet fields (R334, R335) -/

/-- A field of a packet. -/
def Packet.f (p : Packet) (off n : Nat) : Nat := field p.bytes off n
def Packet.type (p : Packet) : Nat := p.f 0 1
def Packet.len (p : Packet) : Nat := p.f 1 1 % 16
def Packet.bar (p : Packet) : Bool := decide (p.f 1 1 / 16 % 2 = 1)
def Packet.irq (p : Packet) : Bool := decide (p.f 1 1 / 32 % 2 = 1)
def Packet.tag (p : Packet) : Nat := p.f 2 2
def Packet.cva (p : Packet) : Nat := p.f 8 8

/-- LEN of each type, and the fields (offset, bytes) of its body; none where the type is unassigned. -/
def packetShape (type : Nat) : Option (Nat × List (Nat × Nat)) :=
  let launch := [(16, 8), (24, 8), (32, 1), (33, 1), (34, 1), (35, 1), (36, 1), (40, 8)]
  match type with
  | 0x01 => some (1, launch)
  | 0x02 => some (1, launch ++ [(64, 8)])
  | 0x03 => some (1, [(16, 8), (24, 8), (32, 32)])
  | 0x04 => some (0, [(16, 8), (24, 8), (32, 1), (33, 1), (40, 8)])
  | 0x05 => some (0, [(16, 8), (24, 8), (32, 8), (40, 1), (41, 1), (48, 8)])
  | 0x06 => some (0, [(16, 8), (24, 4), (28, 1), (32, 8), (40, 8)])
  | 0x07 => some (0, [(16, 8), (24, 4), (28, 4)])
  | 0x08 => some (0, [(16, 4), (20, 4), (24, 4), (28, 4), (32, 32)])
  | 0x09 => some (0, [])
  | 0x0A => some (0, [(16, 8), (24, 8), (32, 1)])
  | 0x0B => some (0, [(24, 8)])
  | _ => none

/-- Numeric fields within their ranges. -/
def Packet.inRange (p : Packet) : Bool :=
  let launch := decide (p.f 32 1 ≤ 63 ∧ p.f 33 1 ≤ 11 ∧ p.f 34 1 ≤ 7 ∧ p.f 35 1 ≤ 3 ∧ p.f 36 1 ≤ 7 ∧ p.f 40 8 % 65536 = 0)
  match p.type with
  | 0x01 => launch
  | 0x02 => launch && decide (p.f 64 8 ≤ 0x7F800000)
  | 0x04 => decide ((p.f 32 1 = 4 ∨ p.f 32 1 = 8) ∧ p.f 16 8 % p.f 32 1 = 0)
  | 0x05 => decide (p.f 40 1 ≤ 3 ∧ p.f 41 1 ≤ 1 ∧ (p.f 41 1 = 0 ∨ p.f 16 8 % 16384 = 0))
  | 0x06 => decide (p.f 16 8 % 65536 = 0 ∧ 1 ≤ p.f 24 4 ∧ p.f 24 4 ≤ 65536 ∧ p.f 28 1 ≤ 3)
  | 0x07 => decide (1 ≤ p.f 24 4 ∧ p.f 24 4 ≤ 65536 ∧ p.f 28 4 ≤ 65535)
  | 0x08 => decide (p.f 16 4 ≤ 65535 ∧ p.f 20 4 ≤ 65535 ∧ 16 ≤ p.f 24 4 ∧ 1 ≤ p.f 28 4 ∧ p.f 28 4 ≤ 32 ∧ p.f 24 4 + p.f 28 4 ≤ 1024)
  | 0x0A => decide (p.f 16 8 ≤ 1023 ∧ p.f 24 8 % 65536 = 0 ∧ p.f 24 8 < 2 ^ 60 ∧ p.f 32 1 ≤ 7)
  | _ => true

/-- A malformed packet. -/
def Packet.malformed (p : Packet) : Bool :=
  match packetShape p.type with
  | none => true
  | some (len, fs) =>
    let named := fun (i : Nat) => decide (i < 16) || fs.any fun x => decide (x.1 ≤ i ∧ i < x.1 + x.2)
    p.len != len || decide (p.f 0 8 / 2 ^ 32 ≠ 0 ∨ p.f 0 8 / 2 ^ 14 % 4 ≠ 0) || decide (p.cva % 16 ≠ 0)
      || (p.bytes.zipIdx).any (fun b => !named b.2 && b.1 != 0) || !p.inRange

/-! ### Memory accesses of the front end -/

/-- Bytes written through a context's translation, for its cove. -/
def State.ctxWrite (s : State) (ctx va : Nat) (bs : List Byte) : Except Stop State :=
  ((s.at deviceUnit).globalLocs [] ctx va bs.length true).map fun ls =>
    s.writeGlobal { tag := (s.ctx ctx).tag, gen := (s.ctx ctx).gen, unit := deviceUnit, before := s.allEvents, release := true } false
      ((ls.zip bs).filterMap fun w => match w.1 with | .glob pa _ => some (pa, w.2) | .carve _ _ => none)

/-! ### Completion (R334) -/

/-- A packet of a queue by its number. -/
def State.packet (s : State) (q n : Nat) : Option Packet := (s.queue q).packets.find? fun p => p.num == n

/-- A packet changed. -/
def State.updPacket (s : State) (q n : Nat) (f : Packet → Packet) : State :=
  let x := s.queue q
  s.setQueue q { x with packets := x.packets.map fun p => if p.num = n then f p else p }

/-- A packet that has been dispatched is so marked. -/
def State.dispatched (s : State) (q n : Nat) : State := s.updPacket q n fun p => { p with dispatched := true }

/-- A packet that completes with its dispatch step. -/
def State.finishNow (s : State) (q n status : Nat) : State := (s.dispatched q n).finishPacket q n status

/-- A generation of a replay list that a replay in flight uses. -/
def State.genInUse (s : State) (ctx list gen : Nat) : Bool :=
  s.fe.queues.any fun q => q.2.ctx == ctx && q.2.replay.isSome && bits q.2.rpos 47 32 == list && q.2.rgen == gen

/-- Key of a replay list. -/
def listKey (ctx list : Nat) : Nat := ctx * 65536 + list

/-- An operand of a packet that cannot be read or written: a page fault is posted and the packet completes with status 6 (20 R359, R334),
as it does after a protection failure; through a leaf with AT = 1 the host's agent is asked, and the packet waits (20 R360). -/
def State.operandFault (s : State) (q : Nat) (p : Packet) : Stop → State
  | .page va reason w =>
    if reason = 0 then
      (s.updPacket q p.num fun x => { x with asked := some s.nextId }).newFault va 0 (.packet q p.num) (s.queue q).ctx w
    else (s.newFault va reason (.packet q p.num) (s.queue q).ctx w).finishNow q p.num 6
  | _ => s.finishNow q p.num 6

/-- Generations that no replay uses go when a newer one exists. -/
def State.dropGens (s : State) (ctx list : Nat) : State :=
  let key := listKey ctx list
  match (s.fe.lists.find key).getD [] with
  | cur :: old => { s with fe.lists := s.fe.lists.put key (cur :: old.filter fun g => s.genInUse ctx list g.gen) }
  | [] => s

/-- The replay of a queue finishes once all its nodes have been dispatched and have completed (R341). -/
def State.checkReplay (s : State) (q : Nat) : State :=
  let x := s.queue q
  match x.replay with
  | some (n, _, nodes) =>
    if x.rpos.toNat % 2 ^ 32 = nodes ∧ x.replayOpen.isEmpty then
      let list := bits x.rpos 47 32
      ((s.setQueue q { x with replay := none, rpos := 0, rgen := 0 }).dropGens x.ctx list).finishNow q n 0
    else s
  | none => s

/-- Does a path that is down hold writes of a context's cove back: they are not performed at system scope (23 R408)? -/
def State.holdsFor (s : State) (ctx : Nat) : Bool := s.dv.paths.any fun p => p.heldWrites.any fun w => w.1 == (s.ctx ctx).tag

/-- A FENCE at the head of what has not completed is done, once no write before it waits for a path (R335). -/
def State.checkFence (s : State) (q : Nat) : State :=
  match (s.queue q).packets with
  | p :: _ => if p.type = 0x09 ∧ p.dispatched ∧ p.finished.isNone ∧ !s.holdsFor (s.queue q).ctx then s.finishPacket q p.num 0 else s
  | [] => s

/-- PACKET_COMPLETION (R334): the record in one event, the vector, and DONE; nodes of a replay do not count in DONE. -/
def execPacketCompletion (q n : Nat) (s : State) : Host.Outcome State Fault Refusal :=
  match s.packet q n with
  | none => .next s
  | some p =>
    match p.finished with
    | none => .next s
    | some st =>
      let x := s.queue q
      let rec' := toBytes 2 st ++ toBytes 2 p.tag ++ toBytes 4 0 ++ toBytes 8 s.ns
      let lost := s.report "completion record not written" x.ctx p.cva
      let wrote : Except Stop State := if p.cva = 0 ∨ p.cva % 16 ≠ 0 then .ok s else if p.refused then .ok lost else s.ctxWrite x.ctx p.cva rec'
      match wrote with
      | .error (.page va 0 w) =>
        .next (if p.asked.isSome then s
          else (s.updPacket q n fun y => { y with asked := some s.nextId }).newFault va 0 (.packet q n) x.ctx w)
      | r =>
      let s1 := match r with
        | .ok t => t
        | .error (.page va reason w) => lost.newFault va reason (.packet q n) x.ctx w
        | .error _ => lost
      let s2 := if p.irq then s1.emit (.msix x.ctx q) else s1
      let node := x.replayOpen.contains n
      let s3 := s2.setQueue q { x with packets := x.packets.filter fun y => y.num != n, done := if node then x.done else cnt (x.done + 1),
                                       replayOpen := x.replayOpen.filter (· != n) }
      let s4 := (s3.checkReplay q).checkFence q
      .next (if x.state = 3 then s4.later (.queueStopComplete q) else s4)

/-! ### Queue control (R333) -/

/-- Is a queue state block valid? -/
def Queue.valid (x : Queue) : Bool :=
  decide (x.rbase % 65536 = 0 ∧ 16 ≤ x.rsize ∧ x.rsize ≤ 1048576 ∧ 2 ^ Nat.log2 x.rsize = x.rsize ∧ x.tshad % 8 = 0 ∧ x.ctx < 64)

/-- QCTL.CMD 01: a disabled queue with a valid block runs, but while a function-level reset of function 0 holds every queue disabled (26 R432). -/
def State.enableQueue (s : State) (q : Nat) : State :=
  let x := s.queue q
  if 64 ≤ q ∨ x.state ≠ 0 ∨ s.dv.host.flr then s
  else if x.valid then s.setQueue q { x with state := 1, packets := [], replay := none, replayOpen := [], faultWait := none }
  else s.ignoreWrite true (0x20000 + 8 * q)

/-- QUEUE_ENABLE (R333). -/
def execQueueEnable (q : Nat) (s : State) : Host.Outcome State Fault Refusal := .next (if s.barOpen then s.enableQueue q else s)

/-- QUEUE_STOP (R333): fetching ends. -/
def execQueueStop (q : Nat) (s : State) : Host.Outcome State Fault Refusal := .next (if s.barOpen ∧ q < 64 then s.endFetching q else s)

/-- QUEUE_STOP_COMPLETE (R333): every dispatched packet has completed. -/
def execQueueStopComplete (q : Nat) (s : State) : Host.Outcome State Fault Refusal :=
  let x := s.queue q
  if x.state = 3 ∧ x.packets.all (fun p => !p.dispatched) ∧ x.replayOpen.isEmpty then
    .next (s.setQueue q { x with state := 0, packets := [], replay := none, rpos := 0, rgen := 0, faultWait := none })
  else .next s

/-! ### Tail writes (R337, R338) -/

/-- A notify write that is discarded. -/
def State.discard (s : State) : State := { s with fe.disc := min (s.fe.disc + 1) 0xFFFF }

/-- A tail value for a queue; a value that is stale counts only when it came through an aperture. -/
def State.applyTail (s : State) (q : Nat) (v : Dword) (count : Bool) : State :=
  let x := s.queue q
  let seq := bits v 63 32
  let tail := bits v 25 0
  let d := cntSub seq x.seq
  if d = 0 ∨ 2147483648 ≤ d then (if count then s.discard else s)
  else if x.rsize < (tail + 2 ^ 26 - x.head % 2 ^ 26) % 2 ^ 26 then s.stopQueue q x.head 2
  else s.setQueue q { x with seq := seq, tail := tail }

/-- A write to a notify aperture: discarded where no queue takes it, and during a function-level reset of function 0 (26 R432). -/
def State.tailWrite (s : State) (fn off size : Nat) (v : Dword) : State :=
  let q := bits v 31 26
  let x := s.queue q
  if off ≠ 0 ∨ size ≠ 8 ∨ x.ctx ≠ fn ∨ x.state ≠ 1 ∨ s.dv.host.flr then s.discard else s.applyTail q v true

/-- TAIL_WRITE (R337): while the aperture logic is gated, the capture queue takes it (R338). -/
def execTailWrite (fn off size : Nat) (value : Dword) (s : State) : Host.Outcome State Fault Refusal :=
  if s.fe.gated ∧ !s.dv.host.flr then
    if s.fe.capture.length < 64 then
      .next ({ s with fe.capture := s.fe.capture ++ [(fn, off, size, value)] }.later .captureQueueDrain)
    else .next { s with fe.capOvf := true }
  else .next (s.tailWrite fn off size value)

/-- The reconcile pass over the running queues. -/
def State.reconcile (s : State) : State :=
  s.fe.queues.foldl (fun (s : State) (x : Nat × Queue) =>
    if x.2.state ≠ 1 then s
    else
      match s.ctxRead x.2.ctx x.2.tshad 8 with
      | .ok bs =>
        let v := BitVec.ofNat 64 (ofBytes bs)
        if bits v 31 26 = x.1 then s.applyTail x.1 v false else s
      | .error (.page va reason w) => s.newFault va reason (.fetch x.1 x.2.head) x.2.ctx w
      | .error _ => s) s

/-- RECONCILE_PASS (R337). -/
def execReconcilePass (s : State) : Host.Outcome State Fault Refusal := .next s.reconcile

/-- CAPTURE_QUEUE_DRAIN (R338): in arrival order; after an overflow the reconcile pass runs at once. -/
def execCaptureQueueDrain (s : State) : Host.Outcome State Fault Refusal :=
  if !s.fe.gated then .next s
  else
    let s1 := { s with fe.gated := false, fe.capture := [] }
    let s2 := s.fe.capture.foldl (fun (s : State) (w : Nat × Nat × Nat × Dword) => s.tailWrite w.1 w.2.1 w.2.2.1 w.2.2.2) s1
    .next (if s.fe.capOvf then s2.reconcile else s2)

/-! ### Slices (R339) -/

/-- Tile cycles of a slice of 10 µs. -/
def sliceCycles : Nat := 27000

/-- Does the front end serve a queue now? -/
def State.serving (s : State) (q : Nat) : Bool := s.fe.slice.1 == q && decide (s.clock < s.fe.slice.2 + sliceCycles) && (s.queue q).state == 1

/-- The next running queue after one. -/
def State.nextQueue (s : State) (q : Nat) : Option Nat := ((List.range 64).map fun d => (q + 1 + d) % 64).find? fun i => (s.queue i).state == 1

/-- SLICE_EXPIRY (R339): the slice has lasted 10 µs, or its queue no longer runs; with no queue running the aperture logic may
be gated (R338). -/
def execSliceExpiry (s : State) : Host.Outcome State Fault Refusal :=
  if (s.queue s.fe.slice.1).state = 1 ∧ s.clock < s.fe.slice.2 + sliceCycles then .next s
  else
    match s.nextQueue s.fe.slice.1 with
    | some q => .next { s with fe.slice := (q, s.clock) }
    | none => .next { s with fe.gated := true }

/-! ### Fetching (R332, R336) -/

/-- The units of a packet from one on. -/
def State.readUnits (s : State) (x : Queue) (u : Nat) : Nat → Except (Nat × Stop) (List Byte)
  | 0 => .ok []
  | n + 1 =>
    match s.ctxRead x.ctx (x.rbase + 64 * (u % x.rsize)) 64 with
    | .error e => .error (u, e)
    | .ok bs => (s.readUnits x (u + 1) n).map fun t => bs ++ t

/-- A fetch that fails: a page fault waits for the answer, a protection failure stops the queue. -/
def State.fetchFault (s : State) (q : Nat) (x : Queue) (u : Nat) : Stop → State
  | .page va r w => (s.setQueue q { x with faultWait := some s.nextId }).newFault va r (.fetch q u) x.ctx w
  | _ => s.stopQueue q u 6

/-- The units that a resumption skips (R333): a packet that was fetched lies below HEAD already; of one whose fetch failed, its units, or
the one that cannot be read. -/
def State.skippedUnits (s : State) (x : Queue) : Nat :=
  let avail := (x.tail + 2 ^ 26 - x.head % 2 ^ 26) % 2 ^ 26
  if bits x.err 7 0 ≠ 6 then 0
  else
    match s.readUnits x x.head 1 with
    | .ok first => min avail (field first 1 1 % 16 + 1)
    | .error _ => min avail 1

/-- QCTL.CMD 11: after an error, past the failing packet. -/
def State.resumeQueue (s : State) (q : Nat) : State :=
  let x := s.queue q
  if q < 64 ∧ x.state = 2 then s.setQueue q { x with state := 1, err := 0, head := (x.head + s.skippedUnits x) % 2 ^ 26 } else s

/-- QUEUE_RESUME (R333). -/
def execQueueResume (q : Nat) (s : State) : Host.Outcome State Fault Refusal := .next (if s.barOpen then s.resumeQueue q else s)

/-- PACKET_FETCH (R336): the next packet, once the one before it has been dispatched. A malformed one completes with status 2
and stops the queue (R335). -/
def execPacketFetch (q : Nat) (s : State) : Host.Outcome State Fault Refusal :=
  let x := s.queue q
  let avail := (x.tail + 2 ^ 26 - x.head % 2 ^ 26) % 2 ^ 26
  if x.state ≠ 1 ∨ x.faultWait.isSome ∨ avail = 0 ∨ x.packets.any (fun p => !p.dispatched) then .next s
  else
    match s.readUnits x x.head 1 with
    | .error e => .next (s.fetchFault q x e.1 e.2)
    | .ok first =>
      let n := field first 1 1 % 16 + 1
      if avail < n then .next s
      else
        match s.readUnits x x.head n with
        | .error e => .next (s.fetchFault q x e.1 e.2)
        | .ok bs =>
          let p : Packet := { num := x.nextNum, unit := x.head, bytes := bs, dispatched := false, finished := none, since := 0, tried := none }
          let s1 := s.setQueue q { x with head := (x.head + n) % 2 ^ 26, nextNum := x.nextNum + 1, packets := x.packets ++ [p] }
          if p.malformed then .next ((s1.stopQueue q x.head 2).finishNow q p.num 2) else .next s1

/-! ### Dispatch (R336) -/

/-- The packet at the head of a queue, when it may be dispatched: not behind a BAR or a DETSET, in the queue's slice, and not while the host's
agent is asked for an operand. -/
def State.headPacket (s : State) (q : Nat) : Option Packet :=
  let x := s.queue q
  match x.packets.find? fun p => !p.dispatched with
  | none => none
  | some p =>
    let before := x.packets.takeWhile fun y => y.num != p.num
    if !s.serving q ∨ p.asked.isSome ∨ (p.bar ∧ !before.isEmpty) ∨ before.any (fun y => y.type == 0x06) then none else some p

/-- Is a type passed to the Jetty controller (R342)? -/
def jettyType (t : Nat) : Bool := t == 0x01 || t == 0x02 || t == 0x03 || t == 0x06 || t == 0x0B

/-- The head packet, when it has a type; what goes to the Jetty controller waits for its restart (R344). -/
def State.headOf (s : State) (q type : Nat) : Option Packet :=
  match s.headPacket q with
  | some p => if p.type = type ∧ !(jettyType type && s.dv.jetty.restarting.isSome) then some p else none
  | none => none

/-! ### LAUNCH and SLAUNCH (R335; 09 R188, R195; 20 R351) -/

/-- Does the signature of an image satisfy the Lighthouse (22 R388): one that is there verifies, with an SVN of 0 against the blown fuses, and
one must be there under REQSIG? -/
def State.imageSigned (s : State) (im : Image) : Bool :=
  match im.signature with
  | some ok => ok && decide (s.dv.lh.fuses = 0)
  | none => !s.dv.lh.reqsig

/-- Status of a refused launch; none where it may pend. -/
def State.refuseLaunch (s : State) (ctx : Nat) (p : Packet) (im : Image) (lvl detl : Nat) (slaunch : Bool) : Option Nat :=
  let c := s.ctx ctx
  if c.kip then some 3
  else if p.f 32 1 ≠ ctx ∨ !c.rootEn then some 1
  else if 10 ≤ lvl ∧ p.f 24 8 = 0 then some 1
  else if detl ≠ 0 ∧ c.log.isNone then some 1
  else if detl = 2 ∧ (c.log.any fun l => !l.hasSource) then some 1
  else if detl = 3 ∧ !im.mergesEqual then some 1
  else if !s.imageSigned im then some 1
  else if !im.accepted slaunch (p.f 40 8) ∨ im.rateStop.isSome then some 1
  else none

/-- The arc and the phase at which the check of the rates stopped are reported (02 R27). -/
def State.reportRates (s : State) (im : Image) : State :=
  match im.rateStop with
  | some (arc, phase) => s.report "rates inconsistent or deadlocked" arc phase
  | none => s

/-- A D2 launch is paired with the next source launch that none has taken (09 R188). -/
def State.pairLaunch (s : State) (ctx ordinal detl : Nat) : State :=
  let c := s.ctx ctx
  match c.log with
  | some l =>
    match detl, l.partners with
    | 2, p :: rest => s.setCtx ctx { c with log := some { l with partners := rest, pairs := l.pairs ++ [(ordinal, p)] } }
    | _, _ => s
  | none => s

/-- A launch whose image has been read. -/
def State.launchImage (s : State) (q : Nat) (p : Packet) (slaunch : Bool) (im : Image) : State :=
  let ctx := (s.queue q).ctx
  let fl := p.f 36 1
  let own := decide (fl / 2 % 2 = 1)
  let lvl := if own then im.prio else p.f 33 1
  let ecl := if own then im.ecl else p.f 34 1
  let detl := if own then im.detl else p.f 35 1
  match s.refuseLaunch ctx p im lvl detl slaunch with
  | some st => (s.reportRates im).finishNow q p.num st
  | none =>
    let c := s.ctx ctx
    let d := if detl = 2 ∧ c.log.any (·.div) then 1 else detl
    let l : Launch :=
      { ordinal := c.launches + 1, queue := q, packet := p.num, ctx := ctx, image := im, lvl := lvl, ecl := ecl, detl := d,
        deadline := p.f 24 8, hard := decide (fl % 2 = 1), strict := decide (fl / 4 % 2 = 1), surrogate := slaunch,
        tolr := BitVec.ofNat 64 (if slaunch then p.f 64 8 else 0), dataBase := p.f 40 8, age := s.ns, bypass := 0, loaded := false,
        loadPos := 0, loadWait := none, swapped := none, late := false }
    let s1 := s.setCtx ctx { c with launches := c.launches + 1 }
    let run : RunRecord := { ctx := ctx, ordinal := l.ordinal, hash := im.hash, bsig := im.bsig, lowest := d, changed := false, part := false }
    let known := s1.al.history ++ [run]
    let s2 := { s1 with al.launches := s1.al.launches ++ [l], al.history := known.drop (known.length - 256) }
    (((s2.pairLaunch ctx l.ordinal d).noteLaunch q).dispatched q p.num).later .admission

/-- A launch packet is dispatched: the loader reads its image (05 R95). -/
def State.launchPacket (s : State) (q : Nat) (p : Packet) (slaunch : Bool) : State :=
  match s.readImage (s.queue q).ctx (p.f 16 8) with
  | .error e => s.operandFault q p e
  | .ok none => s.finishNow q p.num 1
  | .ok (some im) => s.launchImage q p slaunch im

/-- LAUNCH (R335). -/
def execLaunch (q : Nat) (s : State) : Host.Outcome State Fault Refusal :=
  match s.headOf q 0x01 with
  | some p => .next (s.launchPacket q p false)
  | none => .next s

/-- SLAUNCH (R327): with surrogates and their fallbacks, and TOLR. -/
def execSlaunch (q : Nat) (s : State) : Host.Outcome State Fault Refusal :=
  match s.headOf q 0x02 with
  | some p => .next (s.launchPacket q p true)
  | none => .next s

/-! ### WRSIG, WAIT, FENCE, FLOODH, KILL (R335) -/

/-- Would a write to an address of a context wait for a path that is down? -/
def State.waitsForPath (s : State) (ctx va : Nat) : Bool :=
  match (s.at deviceUnit).translate ctx va true with
  | .ok t => paPeer t.pa && s.pathDown (paPkg t.pa)
  | .error _ => false

/-- A WRSIG packet writes, then posts its event (R339); while the path to the memory that it writes is down its write cannot be performed,
and it stays at the head of its queue (23 R408; log 112). -/
def State.wrsigPacket (s : State) (q : Nat) (p : Packet) : State :=
  let ctx := (s.queue q).ctx
  if s.waitsForPath ctx (p.f 16 8) then s
  else
    match s.ctxWrite ctx (p.f 16 8) (toBytes (p.f 32 1) (p.f 24 8)) with
    | .ok s1 => (s1.postEvent ctx (p.f 33 1) (BitVec.ofNat 64 (p.f 40 8))).finishNow q p.num 0
    | .error e => s.operandFault q p e

/-- WRSIG (R335). -/
def execWrsig (q : Nat) (s : State) : Host.Outcome State Fault Refusal :=
  match s.headOf q 0x04 with
  | some p => .next (s.wrsigPacket q p)
  | none => .next s

/-- V of the counter that a WAIT names, 0 where none exists. -/
def State.waitCounter (s : State) (ctx target : Nat) : Nat :=
  let ordinal := target / 2 ^ 32
  let cti := target / 2 ^ 20 % 4096
  let slot := target / 2 ^ 17 % 8
  let tl := target / 2 ^ 14 % 8
  match s.al.cfgs.find? fun c => c.2.launch.ctx == ctx && c.2.launch.ordinal == ordinal && decide (c.2.state ≠ .ended) with
  | none => 0
  | some (n, c) =>
    let live := (s.cfgSlots n).filterMap fun ks => if ks.2.pl.cti = cti ∧ ks.1 % 8 = slot then some ks.2 else none
    let saved := c.saves.filterMap fun v =>
      if v.part = 2 ∧ v.slot.pl.cti = cti
          ∧ ((c.launch.image.planned c.launch.surrogate).any fun p => p.inst == v.inst && p.line.slot == slot) then some v.slot else none
    ((live ++ saved).head?).elim 0 fun sl => (nth sl.tl tl { issued := 0, done := 0 }).done

/-- The value that a WAIT compares. -/
def State.waitValue (s : State) (ctx : Nat) (p : Packet) : Except Stop Nat :=
  if p.f 41 1 = 1 then .ok (s.waitCounter ctx (p.f 16 8))
  else (s.ctxRead ctx (p.f 16 8) 8).map fun bs => ofBytes bs &&& p.f 32 8

/-- Its condition. -/
def waitHolds (cond a b : Nat) : Bool :=
  match cond with
  | 0 => decide (b ≤ a)
  | 1 => decide (a ≤ b)
  | 2 => a == b
  | _ => a != b

/-- One evaluation of a WAIT; one whose condition fails has no effect but to note when it began, and the slice (R339). -/
def State.waitPacket (s : State) (q : Nat) (p : Packet) : State :=
  match s.waitValue (s.queue q).ctx p with
  | .error e => s.operandFault q p e
  | .ok v =>
    if waitHolds (p.f 40 1) v (p.f 24 8) then s.finishNow q p.num 0
    else s.updPacket q p.num fun p => { p with since := if p.since = 0 then s.ns + 1 else p.since, tried := some s.fe.slice.2 }

/-- WAIT (R335): evaluated once in each slice of its queue (R339). -/
def execWait (q : Nat) (s : State) : Host.Outcome State Fault Refusal :=
  match s.headOf q 0x05 with
  | some p => .next (if p.tried = some s.fe.slice.2 then s else s.waitPacket q p)
  | none => .next s

/-- WAIT_TIMEOUT (R335): status 5 once the timeout has passed since the first evaluation. -/
def execWaitTimeout (q : Nat) (s : State) : Host.Outcome State Fault Refusal :=
  match s.headOf q 0x05 with
  | some p =>
    if p.f 48 8 ≠ 0 ∧ p.since ≠ 0 ∧ p.since - 1 + p.f 48 8 * 1000 ≤ s.ns then .next (s.finishNow q p.num 5) else .next s
  | none => .next s

/-- FENCE (R335): done at once with nothing before it, else when what precedes it has completed. -/
def State.fencePacket (s : State) (q : Nat) (p : Packet) : State := (s.dispatched q p.num).checkFence q

/-- FENCE_PACKET (R335). -/
def execFencePacket (q : Nat) (s : State) : Host.Outcome State Fault Refusal :=
  match s.headOf q 0x09 with
  | some p => .next (s.fencePacket q p)
  | none => .next s

/-- A FLOODH packet: as a FLOOD that the context commits, at the class it gives. -/
def State.floodhPacket (s : State) (q : Nat) (p : Packet) : State :=
  let ctx := (s.queue q).ctx
  let layer := p.f 16 8
  let described := s.al.cfgs.any fun c =>
    c.2.launch.ctx == ctx && decide (c.2.state ≠ .ended) && c.2.launch.image.layerLines.any fun l => l.layer == layer
  if described then (s.floodRequest ctx layer (p.f 24 8) (p.f 32 1) s.allEvents).finishNow q p.num 0 else s.finishNow q p.num 1

/-- FLOODH (R335). -/
def execFloodh (q : Nat) (s : State) : Host.Outcome State Fault Refusal :=
  match s.headOf q 0x0A with
  | some p => .next (s.floodhPacket q p)
  | none => .next s

/-- A KILL packet: the whole context with its cove, or one launch. -/
def State.killPacket (s : State) (q : Nat) (p : Packet) : State :=
  let ctx := (s.queue q).ctx
  let n := p.f 24 8
  let s1 := s.dispatched q p.num
  if n = 2 ^ 64 - 1 then
    if (s.ctx ctx).tag = 0 then s1.finishPacket q p.num 0 else s1.startKill (s.ctx ctx).tag [(q, p.num)]
  else
    match s1.al.cfgs.find? fun c => c.2.launch.ctx == ctx && c.2.launch.ordinal == n && decide (c.2.state ≠ .ended) with
    | some c => (s1.endRun c.1 3).finishPacket q p.num 0
    | none =>
      match s1.al.launches.find? fun l => l.ctx == ctx && l.ordinal == n with
      | some l => (s1.dropLaunch l 3).finishPacket q p.num 0
      | none => s1.finishPacket q p.num 0

/-- KILL (R365). -/
def execKill (q : Nat) (s : State) : Host.Outcome State Fault Refusal :=
  match s.headOf q 0x0B with
  | some p => .next (s.killPacket q p)
  | none => .next s

/-! ### DETSET (09 R188, R191, R197) -/

/-- A record from its two dwords. -/
def recordOf (a b : Nat) : LogRecord :=
  { kind := a / 2 ^ 60, lnch := a / 2 ^ 48 % 4096, site := a / 2 ^ 32 % 65536, seq := a % 2 ^ 32, subj := BitVec.ofNat 64 b }

/-- The key of the canonical order. -/
def LogRecord.key (r : LogRecord) : Nat := (r.kind * 4096 + r.lnch) * 65536 + r.site

/-- Complete and in canonical order: sites ascending, and SEQ counting from 0 within each. -/
def canonical : Option LogRecord → List LogRecord → Bool
  | _, [] => true
  | none, r :: t => r.seq == 0 && canonical (some r) t
  | some x, r :: t => (if x.key = r.key then r.seq == (x.seq + 1) % 2 ^ 32 else decide (x.key < r.key) && r.seq == 0) && canonical (some r) t

/-- Records read one after another. -/
def State.readRecords (s : State) (ctx va : Nat) : Nat → Except Stop (List LogRecord)
  | 0 => .ok []
  | n + 1 => do
    let bs ← s.ctxRead ctx va 16
    let rest ← s.readRecords ctx (va + 16) n
    return recordOf (field bs 0 8) (field bs 8 8) :: rest

/-- A number put into a rising list without repeats. -/
def launchesOf (rs : List LogRecord) : List Nat :=
  rs.foldl (fun l r => if r.kind = 5 then addNum l (r.subj.toNat % 2 ^ 32) else l) []

/-- The log that a DETSET sets up. -/
def newLog (p : Packet) (src : List LogRecord) : OrderLog :=
  { base := p.f 16 8, units := p.f 24 4, wp := 0, drop := 0, ovf := false, div := false, reported := false, seqs := [], records := [],
    hasSource := p.f 28 1 == 2, source := src, partners := launchesOf src, pairs := [] }

/-- A slot in no region takes a new level: at once, or when its firing has ended, and for D3 when its clones have left (09 R196, R197;
log 91). -/
def State.levelLone (s : State) (level : Nat) (ks : Nat × Slot) : State :=
  match s.cloneSet ks.1 with
  | some c =>
    if level = 3 then
      let s1 := s.updSlot ks.1 fun sl => { sl with due.level := some level }
      if c.original = ks.1 then s1.removeClones c else s1
    else s.updSlot ks.1 fun sl => { sl with due.level := some level }
  | none => s.updSlot ks.1 fun sl => if sl.firing.isSome then { sl with due.level := some level } else { sl with detl := level }

/-- The slots of a context in no region, and those that a section holds, take a new level; under D3 the merges there begin with
input 0 (09 R195). -/
def State.changeLone (s : State) (ctx level : Nat) : State :=
  let lone := s.slots.filter fun ks => ks.2.pl.ctx == ctx && ks.2.pl.region.isNone
  let s1 := lone.foldl (fun (s : State) (ks : Nat × Slot) => s.levelLone level ks) s
  let held := fun (v : Save) => if v.slot.pl.ctx = ctx ∧ v.slot.pl.region.isNone then { v with slot.detl := level } else v
  let restart := fun (x : Nat × Arc) =>
    (x.1, if level = 3 ∧ x.2.consumer.any (fun c => lone.any fun ks => ks.1 == c.1 && ks.2.detl != 3) then { x.2 with turn := 0 } else x.2)
  let away := fun (c : Configuration) => c.saves.any fun v =>
    v.part == 2 && v.slot.pl.ctx == ctx && v.slot.pl.region.isNone && v.slot.detl != level
  let ran := fun (n : Nat) => lone.any (fun ks => ks.2.detl != level && s.launchOf ks.2.pl.cfg == n)
    || s.al.cfgs.any fun c => c.2.launch.ctx == ctx && c.2.launch.ordinal == n && away c.2
  let cfgs := s1.al.cfgs.map fun (c : Nat × Configuration) => (c.1, { c.2 with saves := c.2.saves.map held })
  { s1 with arcs := s1.arcs.map restart, al.cfgs := cfgs }.noteRuns ctx ran
    fun r => { r with lowest := min r.lowest level, changed := true }

/-- The context takes a new level: each region at its next quiescent point (09 R197), a swapped-out one after its placement; what is in
no region at once, and with no region to wait for the DETSET is done. -/
def State.changeLevel (s : State) (ctx level q n : Nat) : State :=
  let mine := s.en.regions.filter fun r => (s.cfg r.2.cfg).any fun c => c.launch.ctx == ctx && decide (c.state ≠ .ended)
  let s1 := mine.foldl (fun (s : State) (r : Nat × Region) =>
    (s.setRegion r.1 { r.2 with levels := r.2.levels ++ [(level, q, n)] }).later (.quiescentPoint r.1)) s
  let s2 := (s1.changeLone ctx level).logHeaders ctx
  if mine.isEmpty then (s2.holdLevel ctx level).finishPacket q n 0 else s2

/-- A DETSET packet. -/
def State.detsetPacket (s : State) (q : Nat) (p : Packet) : State :=
  let ctx := (s.queue q).ctx
  let level := p.f 28 1
  let src : Except Stop (Option (List LogRecord)) :=
    if level ≠ 2 then .ok (some [])
    else do
      let h ← s.ctxRead ctx (p.f 32 8) 64
      let rs ← s.readRecords ctx (p.f 32 8 + 64) (p.f 40 8)
      return (if field h 24 1 % 2 = 1 ∨ !canonical none rs then none else some rs)
  let merges := level != 3 || s.al.cfgs.all fun c => c.2.launch.ctx != ctx || decide (c.2.state = .ended) || c.2.launch.image.mergesEqual
  match src with
  | .error e => s.operandFault q p e
  | .ok none => s.finishNow q p.num 1
  | .ok (some rs) =>
    if !merges then s.finishNow q p.num 1
    else
      let s1 := s.setCtx ctx { s.ctx ctx with log := some (newLog p rs) }
      (s1.dispatched q p.num).changeLevel ctx level q p.num

/-- DETSET (R188). -/
def execDetset (q : Nat) (s : State) : Host.Outcome State Fault Refusal :=
  match s.headOf q 0x06 with
  | some p => .next (s.detsetPacket q p)
  | none => .next s

/-! ### DELTA (R340) -/

/-- An actor with what a delta may change set alike. -/
def Actor.fixed (a : Actor) : Actor :=
  { a with code := [], entry := [], rates := [], period := Vector.replicate 8 0, layers := [], power := 0, len := 0, initC := 0, hasMark := false }

/-- Does a delta image change only what it may? -/
def deltaOk (old new : Image) : Bool :=
  decide (old.actors.map Actor.fixed = new.actors.map Actor.fixed ∧ old.lines = new.lines ∧ old.edges = new.edges
    ∧ old.streams = new.streams ∧ old.regions = new.regions ∧ old.widths = new.widths)

/-- The new actor of a slot, its code as loaded, when it differs. -/
def State.deltaActor (c : Configuration) (new : Image) (sl : Slot) : Option Actor :=
  match new.actors.find? fun a => a.num == sl.pl.actor.num with
  | some a =>
    let b := { a with code := (new.codeOf a c.launch.dataBase).getD [] }
    if b = sl.pl.actor then none else some b
  | none => none

/-- Rate sets of an actor whose entries change. -/
def changedSets (a b : Actor) : List Nat :=
  (List.range 8).filter fun s => (a.period.toList[s]?) != (b.period.toList[s]?)
    || a.rates.filter (fun r => r.1 / 512 == s) != b.rates.filter (fun r => r.1 / 512 == s)

/-- The first index of a run of a length for a slot's actor on its tile: where it lies while nothing else lies there, else above the other
runs; none where the store has no room (log 90). -/
def State.deltaRun (s : State) (k : Nat) (sl : Slot) (n : Nat) : Option Nat :=
  let others := (List.range 8).filterMap fun i => (s.slot (tileOf k * 8 + i)).bind fun u =>
    if u.pl.cfg = sl.pl.cfg ∧ u.pl.actor.num = sl.pl.actor.num then none else some (u.pl.runBase, u.pl.runLen)
  let top := others.foldl (fun m r => max m (r.1 + r.2)) 0
  if sl.pl.runBase + n ≤ 32768 ∧ others.all (fun r => decide (sl.pl.runBase + n ≤ r.1 ∨ r.1 + r.2 ≤ sl.pl.runBase)) then some sl.pl.runBase
  else if top + n ≤ 32768 then some top
  else none

/-- The rate sets of a slot that a delta changes get their next generation: odd while it rewrites them, even afterwards (02 R23). -/
def Slot.countGens (sl : Slot) (a : Actor) : Slot :=
  let sets := changedSets sl.pl.actor a
  { sl with rateGen := (sl.rateGen.zipIdx).map fun g => if sets.contains g.2 then g.1 + 1 else g.1 }

/-- A slot with its new actor at a run: layers laid out anew, PHASE within the period. -/
def Slot.withActor (sl : Slot) (a : Actor) (run : Nat) : Slot :=
  let z := sliceLen a
  let lay := (a.layers.zipIdx).map fun y =>
    let p : LayerPos := { layer := y.1, off := y.2 * z, len := z, resident := false, fault := false }
    (sl.layers.find? fun o => o.layer == p.layer && o.off == p.off && o.len == p.len).getD p
  { sl with pl.actor := a, pl.runBase := run, pl.runLen := a.code.length, layers := lay,
            sys.trapv := if run = sl.pl.runBase then sl.sys.trapv else movedTrapv sl.sys.trapv sl.pl.runBase run,
            phase := sl.phase % max 1 ((a.period.toList[sl.rset]?).getD 1) }

/-- The changes of a delta made in a slot, its run written. -/
def State.applyDelta (s : State) (k : Nat) (sl : Slot) (a : Actor) : State :=
  let run := (s.deltaRun k sl a.code.length).getD sl.pl.runBase
  let new := (sl.countGens a).withActor a run
  ((s.setSlot k { new with due.stopped := sl.due.policy.isSome }).writeRun (tileOf k) run a.code).fillLayers sl.pl.ctx
    ((new.layers.filter fun p => !p.resident).map (·.layer))

/-- The slots that a delta touches, with their new actors: clones too. -/
def State.touched (s : State) (cfg : Nat) (c : Configuration) (new : Image) : List (Nat × Slot × Actor) :=
  s.slots.filterMap fun ks => if ks.2.pl.cfg = cfg then (State.deltaActor c new ks.2).map fun a => (ks.1, ks.2, a) else none

/-- Draw with the classes of a delta, on the tiles that slots hold and on those that a move promises them (01 R15, 16 R301), beside what
other DELTAs that are accepted raise. A configuration that is swapped out draws nothing, and is admitted by its new classes when it
returns. -/
def State.deltaDraw (s : State) (cfg ctx : Nat) (todo : List (Nat × Slot × Actor)) : Bool :=
  let mine := s.slots.filter fun ks => ks.2.pl.cfg == cfg
  let cls := fun (ks : Nat × Slot) => max ((s.slotClass ks.1 ks.2).getD 0) ((todo.find? fun x => x.1 == ks.1).elim 0 (·.2.2.power))
  let t := mine.foldl (fun t ks =>
    let t1 := raise t (tileOf ks.1) (cls ks)
    (s.promised ks.2).elim t1 fun tile => raise t1 tile (cls ks)) (s.tileClasses [cfg] true)
  let own : Tab Nat := mine.foldl (fun t ks => raise t (tileOf ks.1) (cls ks)) []
  withinDies t && decide (s.ctxDraw ctx [cfg] true + own.foldl (fun n x => n + quanta x.2) 0 ≤ s.drawCap ctx)

/-- The regions of touched slots. -/
def touchedRegions (cfg : Nat) (todo : List (Nat × Slot × Actor)) : List Nat :=
  ((todo.filterMap fun x => x.2.1.pl.region).eraseDups).map (regionKey cfg)

/-- The regions under D3 of touched slots. -/
def strictRegions (cfg : Nat) (todo : List (Nat × Slot × Actor)) : List Nat := touchedRegions cfg (todo.filter fun x => x.2.1.detl == 3)

/-- The slots of the tiles that a delta touches. -/
def State.touchedTiles (s : State) (todo : List (Nat × Slot × Actor)) : List Nat :=
  (s.slots.filter fun ks => todo.any fun x => tileOf x.1 == tileOf ks.1).map (·.1)

/-- The tiles that a delta touches halt between firings: revocable firings are voided, irrevocable ones run on (R340 step 1). -/
def State.haltTouched (s : State) (keys : List Nat) : State :=
  keys.foldl (fun (s : State) (k : Nat) =>
    match s.slot k with
    | some sl =>
      if sl.firing.any (·.irr) then s
      else
        let h := sl.due.handler || sl.firing.any (·.handler)
        let t := if sl.firing.isSome then s.dropFiring k else s
        t.updSlot k fun sl => { sl with due.stopped := true, due.handler := h }
    | none => s) s

/-- The saved slots that a delta touches. -/
def Configuration.savedTouched (c : Configuration) (new : Image) : List (Nat × Slot × Actor) :=
  c.saves.filterMap fun v => if v.part = 2 then (State.deltaActor c new v.slot).map fun a => (0, v.slot, a) else none

/-- A DELTA that is accepted begins: under D3 the regions that it touches drain (R340). -/
def State.acceptDelta (s : State) (q : Nat) (p : Packet) (cfg : Nat) (new : Image) (todo : List (Nat × Slot × Actor)) : State :=
  let saved := (s.cfg cfg).elim [] fun c => if c.state = .swapped then c.savedTouched new else []
  let s1 := (strictRegions cfg (todo ++ saved)).foldl (fun (s : State) (r : Nat) =>
    match s.region r with
    | some x => s.setRegion r { x with delta := 1 }
    | none => s) s
  let d : Delta := { queue := q, packet := p.num, cfg := cfg, image := new, stage := 0 }
  { s1 with fe.deltas := s1.fe.deltas ++ [d] }.dispatched q p.num

/-- A DELTA packet. -/
def State.deltaPacket (s : State) (q : Nat) (p : Packet) : State :=
  let ctx := (s.queue q).ctx
  match s.readImage ctx (p.f 16 8) with
  | .error e => s.operandFault q p e
  | .ok none => s.finishNow q p.num 1
  | .ok (some new) =>
    match s.al.cfgs.find? fun c => c.2.launch.ctx == ctx && c.2.launch.ordinal == p.f 24 8 && decide (c.2.state ≠ .ended) with
    | some (cfg, c) =>
      let todo := s.touched cfg c new
      if !s.imageSigned new ∨ c.launch.image.hash.toNat ≠ ofBytes ((p.bytes.drop 32).take 32).reverse ∨ !deltaOk c.launch.image new
          ∨ !new.accepted c.launch.surrogate c.launch.dataBase ∨ new.rateStop.isSome
          ∨ !s.deltaDraw cfg ctx todo ∨ !todo.all (fun x => (s.deltaRun x.1 x.2.1 x.2.2.code.length).isSome) then s.finishNow q p.num 1
      else s.acceptDelta q p cfg new todo
    | none => s.finishNow q p.num 1

/-- The end of a DELTA: the configuration has its new image, CFGN has counted in the touched regions that are not under D3 (those count
as 09 R194 gives), the tiles resume, and the packet completes. -/
def State.endDelta (s : State) (d : Delta) (todo : List (Nat × Slot × Actor)) : State :=
  let strict := strictRegions d.cfg todo
  let s1 := (touchedRegions d.cfg todo).foldl (fun (s : State) (r : Nat) =>
    match s.region r with
    | some x =>
      if strict.contains r then (s.setRegion r { x with delta := 2 }).later (.quiescentPoint r)
      else s.setRegion r { x with cfgn := (x.cfgn + 1) % 2 ^ 32 }
    | none => s) s
  let resumed := fun (ks : Nat × Slot) =>
    (ks.1, if (s.touchedTiles todo).contains ks.1 then { ks.2 with due.stopped := ks.2.due.policy.isSome } else ks.2)
  let due := s1.al.launches.map fun (l : Launch) => if l.swapped = some d.cfg then { l with image := d.image } else l
  let s2 := { s1 with slots := s1.slots.map resumed, al.launches := due }
  let s3 := s2.updCfg d.cfg fun c => { c with launch := { c.launch with image := d.image } }
  { s3 with fe.deltas := s3.fe.deltas.filter fun x => !(x.queue == d.queue && x.packet == d.packet) }.finishPacket d.queue d.packet 0

/-- A DELTA in a configuration that is swapped out: its saved slots change. -/
def Configuration.deltaSaves (c : Configuration) (new : Image) : Configuration :=
  let put := fun (v : Save) =>
    match State.deltaActor c new v.slot with
    | some a => if v.part = 2 then { v with slot := ((v.slot.countGens a).countGens a).withActor a v.slot.pl.runBase } else v
    | none => v
  { c with saves := c.saves.map put }

/-- A DELTA under way goes on (R340): the touched tiles stop, under D3 at the quiescent point of the regions; the generations of the changed
sets turn odd; the changes are made and the generations turn even. In a configuration that is swapped out the saved slots change, but under
D3 it waits for the quiescent point after its return. A kill of the context stands before it. -/
def State.stepDelta (s : State) (d : Delta) : State :=
  let drop := fun (s : State) => { s with fe.deltas := s.fe.deltas.filter fun x => !(x.queue == d.queue && x.packet == d.packet) }
  match s.cfg d.cfg with
  | none => (drop s).finishPacket d.queue d.packet 3
  | some c =>
    let todo := s.touched d.cfg c d.image
    match c.state with
    | .ended => (drop s).finishPacket d.queue d.packet 3
    | .swapped =>
      if (strictRegions d.cfg (c.savedTouched d.image)).isEmpty then
        (s.updCfg d.cfg fun c => c.deltaSaves d.image).endDelta d (c.savedTouched d.image)
      else s
    | .moving | .stopping => s
    | .placed =>
      if (s.ctx c.launch.ctx).kip then s
      else if d.stage = 0 then
        if (strictRegions d.cfg todo).any fun r => (s.region r).any fun x => !s.quiescent x then s
        else
          let tiles := s.touchedTiles todo
          let s1 := s.haltTouched tiles
          if tiles.any fun k => (s1.slot k).any (·.firing.isSome) then s1
          else
            let s2 := todo.foldl (fun (s : State) (x : Nat × Slot × Actor) => s.updSlot x.1 fun sl => sl.countGens x.2.2) s1
            { s2 with fe.deltas := s2.fe.deltas.map fun x =>
                if x.queue == d.queue && x.packet == d.packet then { x with stage := 1 } else x }
      else
        (todo.foldl (fun (s : State) (x : Nat × Slot × Actor) => (s.slot x.1).elim s fun sl => s.applyDelta x.1 sl x.2.2) s).endDelta d todo

/-- DELTA (R340): dispatched when it is accepted; from then on the Jetty controller carries it out. -/
def execDelta (q : Nat) (s : State) : Host.Outcome State Fault Refusal :=
  match s.fe.deltas.find? fun d => d.queue == q with
  | some d =>
    let s1 := if s.dv.jetty.restarting.isSome then s else s.stepDelta d
    match s.headOf q 0x03 with
    | some p => .next (if s1 = s then s.deltaPacket q p else s1)
    | none => .next s1
  | none =>
    match s.headOf q 0x03 with
    | some p => .next (s.deltaPacket q p)
    | none => .next s

/-! ### REPLAY and PATCH (R341) -/

/-- The generations of a list, newest first; a list begins at generation 0. -/
def State.gens (s : State) (ctx list : Nat) : List ReplayGen :=
  match (s.fe.lists.find (listKey ctx list)).getD [] with
  | [] => [{ gen := 0, patched := [] }]
  | l => l

/-- A PATCH packet; one that would need a third generation blocks. -/
def State.patchPacket (s : State) (q : Nat) (p : Packet) : State :=
  let ctx := (s.queue q).ctx
  let list := p.f 16 4
  let s0 := s.dropGens ctx list
  match s0.gens ctx list with
  | cur :: old =>
    if !old.isEmpty then s
    else
      let base := p.f 20 4 * 1024 + p.f 24 4
      let bs := ((p.bytes.drop 32).take (p.f 28 4)).zipIdx
      let new : ReplayGen := { gen := cur.gen + 1, patched := bs.foldl (fun t b => t.put (base + b.2) b.1) cur.patched }
      let s1 := { s0 with fe.lists := s0.fe.lists.put (listKey ctx list) [new, cur] }
      (s1.dropGens ctx list).finishNow q p.num 0
  | [] => s

/-- PATCH (R341). -/
def execPatch (q : Nat) (s : State) : Host.Outcome State Fault Refusal :=
  match s.headOf q 0x08 with
  | some p => .next (s.patchPacket q p)
  | none => .next s

/-- Bytes of a node as a generation holds them. -/
def State.nodeBytes (s : State) (ctx va node n : Nat) (g : ReplayGen) : Except Stop (List Byte) :=
  ((List.range n).mapM fun i => s.ctxRead ctx (va + 1024 * node + 64 * i) 64).map fun us =>
    ((us.flatMap id).zipIdx).map fun b => (g.patched.find (node * 1024 + b.2)).getD b.1

/-- Dispatch of a packet of any type that a node may hold. -/
def State.dispatchAny (s : State) (q : Nat) (p : Packet) : State :=
  if jettyType p.type ∧ s.dv.jetty.restarting.isSome then s
  else
    match p.type with
    | 0x01 => s.launchPacket q p false
    | 0x02 => s.launchPacket q p true
    | 0x03 => s.deltaPacket q p
    | 0x04 => s.wrsigPacket q p
    | 0x05 => s.waitPacket q p
    | 0x06 => s.detsetPacket q p
    | 0x09 => s.fencePacket q p
    | 0x0A => s.floodhPacket q p
    | _ => s.killPacket q p

/-- The queue as a replay has it whose first node is dispatched: the list's current generation is recorded and used for every node. -/
def State.replayQueue (s : State) (q : Nat) (p : Packet) : Queue :=
  let x := s.queue q
  match x.replay with
  | some _ => x
  | none =>
    let g := ((s.gens x.ctx (p.f 28 4)).head?).elim 0 (·.gen)
    { x with replay := some (p.num, p.f 16 8, p.f 24 4), rpos := BitVec.ofNat 64 (p.f 28 4 * 2 ^ 32), rgen := g }

/-- A replay that meets an error ends: its packet completes with the status, and a malformed node stops the queue. -/
def State.failReplay (s : State) (q : Nat) (p : Packet) (status : Nat) : State :=
  let x := s.queue q
  let s1 := (s.setQueue q { x with replay := none, rpos := 0, rgen := 0, replayOpen := [] }).dropGens x.ctx (bits x.rpos 47 32)
  (if status = 2 then s1.stopQueue q p.unit 2 else s1).finishNow q p.num status

/-- The dispatch of one node. A node that must wait, for its BAR or for the Jetty core, leaves the list untouched; a REPLAY begins once the
one before it on its queue has finished. -/
def State.replayPacket (s : State) (q : Nat) (p : Packet) : State :=
  let x := s.replayQueue q p
  let va := p.f 16 8
  let nodes := p.f 24 4
  let node := x.rpos.toNat % 2 ^ 32
  let g := ((s.gens x.ctx (bits x.rpos 47 32)).find? fun g => g.gen == x.rgen).getD { gen := x.rgen, patched := [] }
  if nodes ≤ node ∨ x.replay.any (·.1 != p.num) then s
  else
    match (do let h ← s.nodeBytes x.ctx va node 1 g
              s.nodeBytes x.ctx va node (field h 1 1 % 16 + 1) g : Except Stop (List Byte)) with
    | .error (.page va reason w) =>
      if reason = 0 then
        (s.updPacket q p.num fun y => { y with asked := some s.nextId }).newFault va 0 (.packet q p.num) x.ctx w
      else (s.newFault va reason (.packet q p.num) x.ctx w).failReplay q p 6
    | .error _ => s.failReplay q p 6
    | .ok bs =>
      let n : Packet := { num := x.nextNum, unit := p.unit, bytes := bs, dispatched := false, finished := none, since := 0, tried := none }
      if n.malformed ∨ n.type = 0x07 ∨ n.type = 0x08 then s.failReplay q p 2
      else
        let before := x.packets.takeWhile fun y => y.num != p.num
        let rest := x.packets.dropWhile fun y => y.num != p.num
        if (n.bar ∧ !before.isEmpty) ∨ (jettyType n.type ∧ s.dv.jetty.restarting.isSome) then s
        else
          let mark := fun (y : Packet) => if y.num = p.num ∧ node + 1 = nodes then { y with dispatched := true } else y
          let s2 := s.setQueue q { x with packets := before ++ [n] ++ rest.map mark, nextNum := x.nextNum + 1,
                                          rpos := x.rpos + 1, replayOpen := x.replayOpen ++ [n.num] }
          s2.dispatchAny q n

/-- REPLAY (R341): one node. -/
def execReplay (q : Nat) (s : State) : Host.Outcome State Fault Refusal :=
  match s.headOf q 0x07 with
  | some p => .next (s.replayPacket q p)
  | none => .next s

end Sys2Proof.Machine
end

