-- ==== Sys2Proof/Machine/EvJetty.lean ====
section
/-! DEFINITION. The Jetty controller: its policy for traps, its watchdog, its restarts and its firmware
(18 R343, R344; 21 R373; 22 R387; 23 R409, R412). -/

namespace Sys2Proof.Machine

/-! ### Jetty policy for a trap (21 R373) -/

/-- The record joins the crash region, which keeps the last 16 (23 R409). -/
def State.crashTrap (s : State) (r : Vector Dword 8) : State :=
  { s with dv.crash.traps := s.dv.crash.traps.put (s.dv.crash.trpn % 16) r, dv.crash.trpn := (s.dv.crash.trpn + 1) % 256 }

/-- JETTY_POLICY_TRAP (R373): the record is posted; BRK halts the context, any other code ends the launch with status 3. -/
def execJettyPolicyTrap (k : Nat) (s : State) : Host.Outcome State Fault Refusal :=
  match s.slot k with
  | none => .next s
  | some sl =>
    match sl.due.policy with
    | none => .next s
    | some r =>
      if s.dv.jetty.restarting.isSome then .next s
      else
        let s1 := (s.postRecord sl.pl.ctx r).crashTrap r
        let s2 := s1.setSlot k { sl with due.policy := none, due.stopped := false }
        if bits r[0] 7 0 = 0x15 then .next (s2.haltCtx sl.pl.ctx none) else .next (s2.endRun sl.pl.cfg 3)

/-! ### Restarts (18 R343, R344) -/

/-- The Jetty core starts anew (R344); the cause stands in the crash header (23 R409). -/
def State.restartJetty (s : State) (cause : Nat) : State :=
  if s.dv.jetty.restarting.isSome then s
  else
    { s with dv.jetty.restarting := some s.clock, dv.crash.rsts := (s.dv.crash.rsts + 1) % 2 ^ 32, dv.crash.cause := cause }.later
      .jettyRestartComplete

/-- Does the Jetty firmware run? -/
def State.jettyRuns (s : State) : Bool := (s.dv.lh.stage == 2 || s.dv.lh.stage == 3) && s.dv.jetty.restarting.isNone

/-- Tile cycles of the unit of WMIN and WMAX, 10 µs. -/
def kickUnit : Nat := 27000

/-- WATCHDOG_KICK (R343): one that follows another too early restarts the core, and so does one that comes after too long a gap. -/
def execWatchdogKick (s : State) : Host.Outcome State Fault Refusal :=
  let j := s.dv.jetty
  if !s.jettyRuns then .next s
  else if j.kicked ∧ s.clock < j.lastKick + j.wmin * kickUnit then .next (s.restartJetty 2)
  else if j.lastKick + j.wmax * kickUnit < s.clock then .next (s.restartJetty 1)
  else .next { s with dv.jetty.lastKick := s.clock, dv.jetty.kicked := true }

/-- WATCHDOG_EXPIRY (R343): a gap longer than WMAX. -/
def execWatchdogExpiry (s : State) : Host.Outcome State Fault Refusal :=
  if s.jettyRuns ∧ s.dv.jetty.lastKick + s.dv.jetty.wmax * kickUnit < s.clock then .next (s.restartJetty 1) else .next s

/-- The kick of firmware that runs as it should: once half of WMAX has passed, and WMIN (log 92). -/
def firmwareKick (s : State) : Host.Outcome State Fault Refusal :=
  let j := s.dv.jetty
  if s.jettyRuns ∧ j.lastKick + max (j.wmin + 1) (j.wmax / 2) * kickUnit ≤ s.clock then execWatchdogKick s else .next s

/-- A firmware slot by its number. -/
def State.fw (s : State) (n : Nat) : Firmware := nth s.dv.firmware n Firmware.zero

/-- Does an image pass verification: its key and signature verify, and its SVN reaches the blown rollback fuses (22 R387)? -/
def Lighthouse.accepts (l : Lighthouse) (f : Firmware) : Bool := f.valid && decide (l.fuses.val ≤ f.svn)

/-- Does a slot pass verification? -/
def State.fwPasses (s : State) (n : Nat) : Bool := s.dv.lh.accepts (s.fw n)

/-- An exception record of 256 bytes (23 R409): what the firmware gives of mcause, mepc, mtval and x1 to x31, with SVN and time. -/
def State.exceptionRecord (s : State) (r : List Byte) : List Byte :=
  let at' := fun (i : Nat) => (r[i]?).getD (0 : Byte)
  (List.range 12).map at' ++ toBytes 4 (s.fw s.dv.jetty.act).svn ++ toBytes 8 s.ns ++ (List.range 124).map (fun i => at' (24 + i))
    ++ List.replicate 108 0

/-- FIRMWARE_EXCEPTION (R343): the record is written, then the core restarts. -/
def execFirmwareException (record : List Byte) (s : State) : Host.Outcome State Fault Refusal :=
  if s.jettyRuns then
    let c := s.dv.crash
    .next ({ s with dv.crash.excs := c.excs.put (c.excn % 32) (s.exceptionRecord record), dv.crash.excn := (c.excn + 1) % 256 }.restartJetty 3)
  else .next s

/-- Kills go on where they stood: only what is missing is repeated (20 R365). -/
def State.repeatKills (s : State) : State :=
  s.mm.kills.foldl (fun (s : State) (kl : Kill) =>
    if kl.acked.length = homeCount then s.later (.killComplete kl.cove)
    else (List.range homeCount).foldl (fun (s : State) (h : Nat) =>
      if kl.acked.contains h then s else s.later (.homeGenerationUpdate h kl.cove)) s) s

/-- JETTY_RESTART_COMPLETE (R344, 23 R412): slot NEXT runs if it verifies, else slot ACT again. What was asked for meanwhile is taken up: kills,
admission, rollbacks (23 R406). -/
def execJettyRestartComplete (s : State) : Host.Outcome State Fault Refusal :=
  let j := s.dv.jetty
  if j.restarting.isNone then .next s
  else
    let ok := s.fwPasses j.next
    let j1 := { j with restarting := none, lastKick := s.clock, kicked := false, act := if ok then j.next else j.act,
                       next := if ok then j.next else j.act, fail := j.fail || !ok }
    let meas := if ok ∧ j.next ≠ j.act then s.dv.lh.meas.set 2 (s.fw j.next).digest else s.dv.lh.meas
    let s1 := ({ s with dv.jetty := j1, dv.lh.meas := meas }.repeatKills).later .admission
    .next ((s1.al.ctxs.filter (·.2.rollbackDue)).foldl (fun (s : State) (c : Nat × Ctx) => s.later (.rollbackRequest c.1)) s1)

/-! ### JFWSEL and the window (23 R412) -/

/-- A write of JFWSEL. -/
def State.writeJfwsel (s : State) (v : Dword) : State :=
  if bits v 63 19 ≠ 0 ∨ bits v 15 8 ≠ 0 ∨ bits v 5 4 ≠ 0 ∨ bits v 1 0 ≠ 0 then s.ignoreWrite false 0x170010
  else
    let s1 := { s with dv.jetty.wpg := bits v 18 16, dv.jetty.fail := s.dv.jetty.fail && !v.getLsbD 6, dv.jetty.next := bit (v.getLsbD 3) }
    if v.getLsbD 7 then s1.restartJetty 4 else s1

/-- JFWSEL_GO (R412): a write of JFWSEL; with GO the core restarts now. -/
def execJfwselGo (value : Dword) (s : State) : Host.Outcome State Fault Refusal :=
  .next (if s.barOpen then s.writeJfwsel value else s)

/-- A firmware slot with bytes written: the image that they are now, if any, with its measurement (22 R387, R389). -/
def Firmware.write (f : Firmware) (at' : Nat) (bs : List Byte) : Firmware :=
  let w := (bs.zipIdx).foldl (fun t b => t.put (at' + b.2) b.1) f.written
  match Config.firmwareParts w with
  | some (body, svn, key, sig) =>
    { svn := svn.toNat, valid := vendorSigned key (bodyDigest body svn) sig, digest := bodyDigest body svn, written := w }
  | none => { Firmware.zero with written := w }

/-- FIRMWARE_WINDOW_WRITE (R412): bytes of the inactive slot. -/
def execFirmwareWindowWrite (off : Nat) (bytes : List Byte) (s : State) : Host.Outcome State Fault Refusal :=
  let n := 1 - s.dv.jetty.act
  if s.barOpen ∧ off + bytes.length ≤ 65536 then
    .next { s with dv.firmware := s.dv.firmware.setIfInBounds n ((s.fw n).write (65536 * s.dv.jetty.wpg + off) bytes) }
  else .next s

end Sys2Proof.Machine
end

