-- ==== Sys2Proof/Machine/EvRecovery.lean ====
section
/-! DEFINITION. Errors and their containment, retirement of tiles, rollback, injection, and repair while serving
(20 R364; 23 R395 to R411). -/

namespace Sys2Proof.Machine

/-! ### The error log (23 R409) -/

/-- ACT codes of an error record. -/
inductive ErrorAct where
  | counted | poisoned | voided | retired | rolledBack | killed | refetched | held
deriving DecidableEq, Repr

def ErrorAct.code : ErrorAct → Nat
  | .counted => 0 | .poisoned => 1 | .voided => 2 | .retired => 3 | .rolledBack => 4 | .killed => 5 | .refetched => 6 | .held => 7

/-- A record of 32 bytes. -/
def errorRecord (ns : Nat) (e : ErrorSite) (unc : Bool) (act : ErrorAct) : List Byte :=
  toBytes 8 ns ++ toBytes 1 e.site ++ toBytes 1 (bit unc) ++ toBytes 1 act.code ++ toBytes 1 e.die ++ toBytes 2 e.unit ++ toBytes 2 (e.cove % 4096)
    ++ toBytes 8 e.addr ++ toBytes 8 0

/-- An error recorded. -/
def State.logError (s : State) (e : ErrorSite) (unc : Bool) (act : ErrorAct) : State :=
  { s with dv.crash.errs := s.dv.crash.errs.put (s.dv.crash.errn % 1728) (errorRecord s.ns e unc act), dv.crash.errn := cnt (s.dv.crash.errn + 1) }

/-! ### Rollback (23 R405, R406) -/

/-- The slots of a region that the swap part of a configuration holds. -/
def Configuration.restored (c : Configuration) (r : Region) : List Slot :=
  (c.saves.filter fun v => v.part == 2 && r.actors.contains v.slot.pl.actor.num).map (·.slot)

/-- The state of 03 R59 that a slot takes back; what placement sets stays. -/
def Slot.restore (sl : Slot) (v : Slot) (last : Nat) : Slot :=
  { sl with c := v.c, tl := v.tl, sys := v.sys, stamp := v.stamp, phase := v.phase, rset := v.rset, flga := v.flga,
            trapc := 0, trapi := Vector.replicate 8 0, firing := none, cut := { last := some last, want := none, marked := [] },
            due := { Due.zero with frozen := sl.due.frozen, monitor := sl.due.monitor } }

/-- Bytes and poison of windows and state region as saved. -/
def State.restoreCarve (s : State) (k : Nat) (v : Save) : State :=
  let mine := fun (a : Nat) => decide (carveKey k 0 ≤ a ∧ a < carveKey k (v.slot.pl.spb * 64))
    && !decide (carveKey k (v.slot.pl.wtb * 64) ≤ a ∧ a < carveKey k (v.slot.pl.stb * 64))
  { s with mm.sram := s.mm.sram.filter (fun c => !mine c.1), mm.poisonSram := s.mm.poisonSram.filter fun l => !mine (l * 64) }.fillCarve k
    v.bytes (v.bad.filter fun l => !decide (v.slot.pl.wtb ≤ l ∧ l < v.slot.pl.stb))

/-- The count with the low 32 bits of a saved one that comes last before a count. -/
def rewound (now old : Nat) : Nat := now - cntSub now old

/-- The loader stream of an arc goes back to a token, if it has one: its number, by its low 32 bits. -/
def State.rewindStream (s : State) (k tl size tok : Nat) : State :=
  match s.en.commands.find? fun c => c.2.slot == k && c.2.tl == tl && c.2.loader with
  | some (id, c) =>
    let per := c.perToken size
    let at' := rewound ((c.progress + per - 1) / per) tok
    (s.setCommand id { c with progress := min (at' * per) (field c.block 24 8), state := .running, status := 0, faultWait := none }).later
      (.streamTokenPublish id)
  | none => s

/-- The tokens that are appended to a restored arc: on a recorded arc those that its spill ring held at the cut and those that were recorded
after it, poison marked (23 R398, R403, R405). A stream publishes anew what lay beyond its window. -/
def Arc.appended (x v : Arc) (cut : Nat) : List (List Byte × Bool) :=
  (if x.kind = .recorded then v.parked else []) ++ (v.recorded.find? fun r => r.1 == cut).elim [] (·.2)

/-- An arc as its cut holds it, its spill ring empty; recorded tokens are appended, those that find no room in the window in the spill ring
again (23 R405 step 3). The producer's mirrored rp restarts from it. -/
def State.restoreArc (s : State) (n : Nat) (v : Arc) (cut : Nat) : State :=
  match s.arc n with
  | none => s
  | some x =>
    let y := { x with wp := v.wp, wpSeen := v.wp, rp := if x.consumer.isNone then x.rp else v.rp, rpMirror := v.rp, entries := v.entries,
                      parked := if x.consumer.isNone then v.parked else [], poisoned := v.poisoned, closed := v.closed, held := none,
                      recorded := [], waiting := v.waiting, turn := v.turn, origins := v.origins, lanes := [] }
    let toks := x.appended v cut
    let s1 := s.setArc n y
    let s2 := match x.consumer with
      | some c =>
        if x.merge.isSome then s1.setArc n { y with waiting := y.waiting ++ toks, wp := cnt (y.wp + toks.length) }
        else
          let room := if (s.slot c.1).isSome then x.window - cntSub v.wp v.rp else 0
          let now := toks.take room
          let bad := ((List.range now.length).filter fun i => (now[i]?).any (·.2)).map fun i => cnt (v.wp + i)
          (s1.writeTokens y c.1 (now.map (·.1))).setArc n
            { y with wp := cnt (y.wp + now.length), wpSeen := cnt (y.wp + now.length), poisoned := y.poisoned ++ bad, parked := toks.drop room }
      | none => s1
    let s3 := if x.arrives then s2.later (.rpMirrorUpdate n) else s2
    match x.consumer, x.producer with
    | some c, none => if x.kind = .stream then s3.rewindStream c.1 c.2 x.size v.wp else s3
    | none, some p => s3.rewindStream p.1 (16 + p.2) x.size v.rp
    | _, _ => s3

/-- The keys of a configuration's slots: those that stand, and those of saved slots while it is swapped out. -/
def State.slotKeys (s : State) (cfg : Nat) (c : Configuration) : List Nat :=
  (s.slots.filter fun ks => ks.2.pl.cfg == cfg).map (·.1) ++ (c.saves.filter fun v => v.part == 2).map fun v => offKey cfg v.inst

/-- Everything of a configuration ends without commit, its commands are cancelled, and its clones are gone (23 R405 step 1). -/
def State.endAll (s : State) (cfg : Nat) (c : Configuration) : State :=
  let mine := s.slotKeys cfg c
  let s1 := mine.foldl (fun (s : State) (k : Nat) => s.dropFiring k) s
  let s2 := s1.cancelCommands fun x => !x.loader && mine.contains x.slot
  { s2 with slots := s2.slots.filter fun ks => ks.2.pl.cfg != cfg || c.slots.contains ks.1 }.updCfg cfg fun c =>
    { c with cloneSets := [], abn := c.abn || c.cuts.any (fun r => !r.dead), cuts := [], inpr := 0 }

/-- The records of commands beyond the restored issue counts of a slot are forgotten, and its counters settle (25 R424). -/
def State.forgetCommands (s : State) (k : Nat) (v : Slot) : State :=
  let issued := fun (tl : Nat) => (nth v.tl tl { issued := 0, done := 0 }).issued
  let s1 := { s with en.commands := s.en.commands.filter fun x => x.2.slot != k || x.2.loader || decide (x.2.num ≤ issued x.2.tl) }
  (List.range 8).foldl (fun (s : State) (tl : Nat) => s.settleTimeline k tl) s1

/-- A slot takes back what a save holds. -/
def State.restoreSlot (s : State) (k : Nat) (v : Save) (last : Nat) : State :=
  ((s.updSlot k fun sl => sl.restore v.slot last).restoreCarve k v).forgetCommands k v.slot

/-- Regions of a configuration follow the restored slots: no mode token waits, and no drain token is out. A change of level or a DELTA
that waits for the quiescent point waits for the next one. -/
def State.restoreRegions (s : State) (cfg : Nat) : State :=
  s.en.regions.foldl (fun (s : State) (r : Nat × Region) =>
    if r.2.cfg = cfg then
      let cur := ((s.cfg cfg).bind fun c => (c.restored r.2).head?).elim ((s.regionSlots r.2).head?.elim r.2.cur (·.2.rset)) (·.rset)
      (s.takeDrains r.2).setRegion r.1 { r.2 with queue := [], stepping := false, cur := cur }
    else s) s

/-- THE ROLLBACK of a placed configuration to its cut LAST. -/
def State.rollbackPlaced (s : State) (cfg : Nat) (c : Configuration) : State :=
  let part := c.last % 2
  let s1 := s.endAll cfg c
  let s2 := (s1.cfgSlots cfg).foldl (fun (s : State) (ks : Nat × Slot) =>
    match c.saves.find? fun v => v.part == part && v.copy == 0 && v.inst == ks.2.pl.inst with
    | some v => s.restoreSlot ks.1 v c.last
    | none => s) s1
  let s3 := s2.arcs.foldl (fun (s : State) (x : Nat × Arc) =>
    if x.2.cfg ≠ cfg then s
    else
      match c.savedArcs.find? fun e => e.1 == part && e.2.1 == x.1 with
      | some e => s.restoreArc x.1 e.2.2 c.last
      | none => s.setArc x.1 { x.2 with parked := [], entries := [], waiting := [], held := none, recorded := [] }) s2
  let left := fun (s : State) => ((s.cfgSlots cfg).filter fun ks => ks.2.pl.surrogate.isNone && !ks.2.due.exited).length
  let s4 := (s3.updCfg cfg fun c => { c with instancesLeft := left s3 }).restoreRegions cfg
  s4.deliverParked cfg

/-- A configuration that is swapped out rolls back in its swap part, which holds the cut from then on. -/
def State.rollbackSwapped (s : State) (cfg : Nat) (c : Configuration) : State :=
  let part := c.last % 2
  let s1 := s.endAll cfg c
  let put := fun (v : Save) =>
    if v.part ≠ 2 then v
    else
      match c.saves.find? fun u => u.part == part && u.copy == 0 && u.inst == v.inst with
      | some u => { v with slot := v.slot.restore u.slot c.last, bytes := u.bytes, bad := u.bad }
      | none => v
  let s1a := s1.updCfg cfg fun c => { c with saves := c.saves.map put }
  let s2 := (c.saves.filter fun u => u.part == part && u.copy == 0).foldl (fun (s : State) (u : Save) => s.forgetCommands (offKey cfg u.inst) u.slot) s1a
  let s3 := s2.arcs.foldl (fun (s : State) (x : Nat × Arc) =>
    if x.2.cfg ≠ cfg then s
    else
      match c.savedArcs.find? fun e => e.1 == part && e.2.1 == x.1 with
      | some e => s.restoreArc x.1 e.2.2 c.last
      | none => s.setArc x.1 { x.2 with parked := [], entries := [], waiting := [], held := none, recorded := [] }) s2
  (s3.updCfg cfg fun c =>
    { c with instancesLeft := (c.saves.filter fun v => v.part == 2 && v.slot.pl.surrogate.isNone && !v.slot.due.exited).length }).restoreRegions cfg

/-- A rollback that is due: the event names the cut when the slots resume, at once or when the configuration returns from its swap-out, or
says that none exists; packages joined by arcs are told, but for the one that asked (23 R404 to R406). A configuration that waits for its
first cut does so until it is complete or abandoned (25 R422). -/
def State.rollbackFor (s : State) (asked : Option Nat) (cfg : Nat) : State :=
  match s.cfg cfg with
  | none => s
  | some c =>
    if c.state = .ended then s
    else if !c.vld then
      if c.rollbackDue ∧ c.cutting then s
      else (s.updCfg cfg fun c => { c with rollbackDue := false }).report "NOCUT" c.launch.ctx c.launch.ordinal
    else
      let joined := ((s.arcs.filterMap fun x => if x.2.cfg = cfg then x.2.cross else none).eraseDups).filter fun p => asked != some p
      let s0 := if c.cutting then s.report "cut abandoned" cfg c.inpr else s
      let s1 := if c.state = .swapped then s0.rollbackSwapped cfg c else s0.rollbackPlaced cfg c
      let s2 := joined.foldl (fun (s : State) (p : Nat) => s.toPeer p (.peer p "rollback" cfg c.last)) s1
      let s3 := (s2.updCfg cfg fun x => { x with rollbackDue := decide (c.state = .swapped) }).writeSection cfg
      if c.state = .swapped then s3 else s3.report "ROLLBACK" c.launch.ordinal c.last

/-- A rollback that is due here. -/
def State.rollback (s : State) (cfg : Nat) : State := s.rollbackFor none cfg

/-- A configuration that waited for its first cut rolls back once that is complete or abandoned (25 R422). -/
def State.awaitedRollback (s : State) (cfg : Nat) : State :=
  if (s.cfg cfg).any fun c => c.rollbackDue && decide (c.state = .placed) && !(!c.vld && c.cutting) then s.rollback cfg else s

/-- The configuration of this package that arcs join to one of a peer which rolls back to a cut rolls back with it (23 R404, R405). -/
def State.peerRollback (s : State) (pkg cfg cut : Nat) : State :=
  let joined := s.arcs.any fun x => x.2.cfg == cfg && x.2.cross == some pkg
  if s.dv.jetty.restarting.isNone ∧ joined ∧ (s.cfg cfg).any fun c => c.vld && c.last == cut then s.rollbackFor (some pkg) cfg else s

/-- The configurations of a context whose runs have not ended. -/
def State.ctxCfgs (s : State) (ctx : Nat) : List Nat :=
  (s.al.cfgs.filter fun c => c.2.launch.ctx == ctx && decide (c.2.state ≠ .ended)).map (·.1)

/-- ROLLBACK_REQUEST (R406): every configuration of the context; while the Jetty core restarts the request waits. -/
def execRollbackRequest (ctx : Nat) (s : State) : Host.Outcome State Fault Refusal :=
  if s.dv.jetty.restarting.isSome then .next (if ctx < 64 then s.setCtx ctx { s.ctx ctx with rollbackDue := true } else s)
  else
    let s1 := if (s.ctx ctx).rollbackDue then s.setCtx ctx { s.ctx ctx with rollbackDue := false } else s
    .next ((s1.ctxCfgs ctx).foldl State.rollback s1)

/-- An error of site 8 or 10, or a lost path, rolls a configuration back where RBK and VLD are set, and else kills its cove. -/
def State.recoverCfg (s : State) (cfg : Nat) : State × ErrorAct :=
  match s.cfg cfg with
  | none => (s, .counted)
  | some c =>
    if c.vld ∧ (s.ctx c.launch.ctx).snapRbk then (s.rollback cfg, .rolledBack)
    else (s.startKill (s.ctx c.launch.ctx).tag [], .killed)

/-! ### Failures of tiles (23 R399) -/

/-- Tile cycles of 1 ms. -/
def failureSpan : Nat := 2700000

/-- A failure counts against its tile; the third within 1 ms retires it. -/
def State.tileFailure (s : State) (tile : Nat) : State :=
  let t := s.tile tile
  let recent := t.failures.filter fun c => decide (s.clock ≤ c + failureSpan)
  let s1 := s.setTile tile { t with failures := recent ++ [s.clock] }
  if 2 ≤ recent.length then s1.later (.tileRetirement tile) else s1

/-! ### What each error does (23 R397) -/

/-- A firing is voided and runs again (02 R32, R33). -/
def State.voidRetry (s : State) (k : Nat) : State :=
  match s.slot k with
  | some sl =>
    let s1 := s.dropFiring k
    if sl.firing.any (·.handler) then (s1.updSlot k fun sl => { sl with due.handler := true }).soon (.handlerFiringStart k)
    else if sl.due.fallback.isSome then s1.soon (.fallbackFiring k) else s1
  | none => s

/-- An error at site 1, 2 or 3 in the firing of a slot: void and retry, or the kill of its cove; with no firing in flight nothing is lost. Each is
a failure of the tile (23 R399). -/
def State.firingError (s : State) (k : Nat) (e : ErrorSite) : State :=
  match (s.slot k).bind fun sl => sl.firing.map fun f => (sl, f) with
  | some (sl, f) =>
    if f.irr then ((s.startKill sl.pl.tag []).logError e true .killed).tileFailure (tileOf k)
    else ((s.voidRetry k).logError e true .voided).tileFailure (tileOf k)
  | none => (s.logError e true .counted).tileFailure (tileOf k)

/-- SILENT_ERROR (R397): a mismatch at site 1, 2 or 3 in the firing of a slot. -/
def execSilentError (k site : Nat) (s : State) : Host.Outcome State Fault Refusal :=
  if 1 ≤ site ∧ site ≤ 3 then
    let tag := (s.slot k).elim 0 (·.pl.tag)
    .next (s.firingError k { site := site, die := dieOf (tileOf k), unit := tileOf k, slot := k, cove := tag, addr := 0, coves := [] })
  else .next s

/-- CORRECTED_ERROR (R397): counted in the error log. -/
def execCorrectedError (e : ErrorSite) (s : State) : Host.Outcome State Fault Refusal :=
  if 1 ≤ e.site ∧ e.site ≤ 12 then .next (s.logError e false .counted) else .next s

/-- Site 4: the word is fetched again from the loader's copy of the run. -/
def State.refetch (s : State) (tile idx : Nat) : State :=
  (List.range 8).foldl (fun (s : State) (i : Nat) =>
    match s.slot (tile * 8 + i) with
    | some sl =>
      if sl.pl.runBase ≤ idx ∧ idx < sl.pl.runBase + sl.pl.runLen then
        { s with store := s.store.put (tile * 32768 + idx) ((sl.pl.actor.code[idx - sl.pl.runBase]?).getD 0) }
      else s
    | none => s) s

/-- The token whose place in a window holds a local address is poisoned. -/
def State.poisonToken (s : State) (k : Nat) (sl : Slot) (a : Nat) : State :=
  (List.range 16).foldl (fun (s : State) (p : Nat) =>
    match (arcIn sl p).bind fun n => (s.arc n).map fun x => (n, x) with
    | some (n, x) =>
      if x.base ≤ a ∧ a < x.base + x.window * x.size then
        match (List.range (cntSub x.wp x.rp)).find? fun i => s.tokKey x (x.consumer.elim 0 (·.1)) (cnt (x.rp + i)) ((a - x.base) % x.size) == carveKey k a with
        | some i => s.setArc n { x with poisoned := x.poisoned ++ [cnt (x.rp + i)] }
        | none => s
      else s
    | none => s) s

/-- Site 5: the line, or the token that holds it. -/
def State.poisonTile (s : State) (k a : Nat) : State :=
  match s.slot k with
  | none => s
  | some sl =>
    if a < sl.pl.wtb * 64 then s.poisonToken k sl a
    else if a < sl.pl.spb * 64 then { s with mm.poisonSram := addNum s.mm.poisonSram (carveKey k a / 64) }
    else s.setSlot k { sl with spillBad := addNum sl.spillBad (a / 64) }

/-- Site 6: the layer whose slice holds the line becomes FAULTED with STAT 9, and the line poisoned; a layer that is ABSENT has no slice there. -/
def State.loseWeights (s : State) (k a : Nat) : State :=
  match s.slot k with
  | none => s
  | some sl =>
    let s1 := { s with mm.poisonSram := addNum s.mm.poisonSram (carveKey k a / 64) }
    match sl.layers.find? fun p => decide (sl.pl.wtb * 64 + p.off ≤ a ∧ a < sl.pl.wtb * 64 + p.off + p.len) with
    | some p => if (s.tide (sl.pl.ctx * 1024 + p.layer)).state = .absent then s1 else s1.failLayer sl.pl.ctx p.layer 9
    | none => s1

/-- The shelf slice that is the home of a line, by its number among the 128: while a die is drained its slices' roles lie on die d XOR 1
(23 R411). -/
def State.homeSlice (s : State) (line : Nat) : Nat :=
  let n := Config.sliceOf line % 128
  nth s.dv.dieHome (n / 16) (n / 16) * 16 + n % 16

/-- Coves with lines in a shelf slice that the state holds: dirty ones, and pinned ones (08 R179, 20 R364). -/
def State.shelfCoves (s : State) (slice : Nat) : List Nat :=
  ((s.mm.dirty.filter fun d => s.homeSlice (d.2.1 / 64) == slice).map (·.1))
    ++ (s.mm.pins.filter fun p => p.1 * 16 + Config.sliceOf p.2.2 % 16 == slice).map fun p => (s.ctx p.2.1).tag

/-- Gathers and scatters run on a tile's indirect copy engine, the other copies on its copy engine (01 R10). -/
def Command.indirect (c : Command) : Bool := decide (c.family = .copy) && c.op == 0xBA

/-- Coves with an entry in the domain of a tag that is lost (20 R364), by the code of the structure: 0 and 1 a tile, with its translations; 2 a
shelf slice; 3 a strand engine, 5 the flood engine, 6 and 8 the copy engine and the indirect copy engine of a tile, 7 a collective
engine, each with what it has in hand and its translations; 4 a link. The clean lines of a slice and the flits of a link are those that
the event names (log 93). -/
def State.lostCoves (s : State) (e : ErrorSite) : List Nat :=
  let tlb := fun (u : Nat) => (s.mm.tlb.filter fun t => t.unit == u).map (·.tag)
  let cmds := fun (p : Command → Bool) => (s.en.commands.filter fun c => !c.2.ended && p c.2).map (·.2.cove)
  let slots := (List.range 8).filterMap fun i => (s.slot (e.unit * 8 + i)).map (·.pl.tag)
  let peer := (nth s.dv.links e.unit Link.zero).peer
  let held : List Nat := (s.dv.paths.filter fun p => p.pkg == peer).flatMap fun p => p.heldWrites.map (·.1)
  let busy := s.en.tides.filter fun t => decide (t.2.state = .flooding ∨ t.2.state = .ebbing)
  let floods : List Nat := busy.map fun t => (s.ctx (t.1 / 1024)).tag
  (match e.slot with
    | 0 | 1 => slots ++ tlb e.unit
    | 2 => e.cove :: e.coves ++ s.shelfCoves e.unit
    | 3 => cmds (fun c => decide (c.family = Family.stream) && c.engine % 64 == e.unit) ++ tlb (strandUnit e.unit)
    | 4 => e.cove :: e.coves ++ held
    | 5 => floods ++ tlb floodUnit
    | 6 => cmds fun c => decide (c.family = Family.copy) && !c.indirect && tileOf c.slot == e.unit
    | 8 => cmds fun c => c.indirect && tileOf c.slot == e.unit
    | _ => cmds (fun c => decide (c.family = Family.coll) && c.engine % 12 == e.unit) ++ tlb (collUnit e.unit)).eraseDups

/-- Is a write of DIECTL.CMD acted on: does the die serve? -/
def State.dieServing (s : State) (d : Nat) : Bool := decide (d < 8) && nth s.dv.dieState d 0 == 0

/-- A place that a configuration can move to, away from pages that are taken or promised; its clones stay where they are. -/
def State.moveTarget (s : State) (cfg : Nat) (c : Configuration) : Option (Nat × Nat) :=
  let taken := s.takenPages [cfg] false ++ s.clonePages []
  let clones := s.slots.foldl (fun t ks =>
    if ks.2.pl.cfg = cfg ∧ !c.slots.contains ks.1 then raise t (tileOf ks.1) ks.2.pl.actor.power else t) (s.tileClasses [cfg] true)
  (originsOf c.w c.h none).find? fun o =>
    (rectPages o.1 o.2 c.w c.h).all (fun p => !taken.contains p)
      && withinDies ((s.cfgSlots cfg).foldl (fun t ks => raise t (gridTile o.1 o.2 (ks.2.pl.cti / 64) (ks.2.pl.cti % 64)) ks.2.pl.actor.power)
        clones)

/-- Must a configuration leave pages: it stands on them, or, in a move that is under way, is to come to them? One that leaves them by its move
or by its swap-out does so already, but a retirement takes a move from its pages too (23 R400). -/
def Configuration.mustLeave (c : Configuration) (move : Bool) (pages : List Nat) : Bool :=
  match c.state with
  | .placed => c.pages.any pages.contains
  | .moving => (c.moveTo.any fun o => (rectPages o.1 o.2 c.w c.h).any pages.contains) || (!move && c.pages.any pages.contains)
  | _ => false

/-- Configurations leave pages: moved whole where that is wanted and there is room, else swapped out whatever their level (23 R400, R411). One
without a section is not swapped out (R401): it is moved where there is room and otherwise stays, and what clears the pages waits for it
(log 113). -/
def State.clearPages (s : State) (move : Bool) (pages : List Nat) : State :=
  let mine := s.al.cfgs.filter fun c => c.2.mustLeave move pages
  let s1 := s.clearPagesOf pages
  mine.foldl (fun (s : State) (c : Nat × Configuration) =>
    match (if (move ∨ c.2.section0.isNone) ∧ c.2.state = .placed then s.moveTarget c.1 c.2 else none) with
    | some o => ((s.updCfg c.1 fun x => { x with moveTo := some o }).beginStop c.1 .moving).later (.moveComplete c.1)
    | none => if c.2.section0.isSome then (s.updCfg c.1 fun x => { x with moveTo := none }).beginSwapOuts [c.1] else s) s1

/-- The pages of a die. -/
def diePages (d : Nat) : List Nat := (List.range 16).map (16 * d + ·)

/-- A drain begins (23 R411): the die admits nothing more, and its configurations leave it. -/
def State.drainDie (s : State) (d : Nat) (hold : Bool) : State :=
  if s.dieServing d then
    { s with dv.dieState := s.dv.dieState.setIfInBounds d 1, dv.dieHold := s.dv.dieHold.setIfInBounds d hold }.clearPages true (diePages d)
  else s

/-- The domain of a lost tag 0x000 is drained (20 R364, 23 R411): a tile's, a copy engine's or a shelf slice's with its die; a link retrains, its
flits held; an engine of a base die or an I/O die lets its translations go, and what it has in hand ends as it would (log 93). -/
def State.drainDomain (s : State) (e : ErrorSite) : State :=
  let forget := fun (u : Nat) => { s with mm.tlb := s.mm.tlb.filter fun t => t.unit != u }
  match e.slot with
  | 0 | 1 | 6 | 8 => s.drainDie (e.unit / 144) false
  | 2 => s.drainDie (e.unit / 16) false
  | 3 => forget (strandUnit e.unit)
  | 4 =>
    let l := nth s.dv.links e.unit Link.zero
    if l.up then { s with dv.links := s.dv.links.setIfInBounds e.unit { l with retraining := true, triedAt := s.clock } } else s
  | 5 => forget floodUnit
  | _ => forget (collUnit e.unit)

/-- Site 9 (20 R364): every cove with an entry in the domain is killed; for tag 0x000 the domain is drained. -/
def State.tagLost (s : State) (e : ErrorSite) : State :=
  let l := s.lostCoves e
  let s1 := (l.filter (· != 0)).foldl (fun (s : State) (c : Nat) => s.startKill c []) s
  (if e.cove = 0 then s1.drainDomain e else s1).logError e true .killed

/-- A Causeway link is lost: a path that no other link carries goes down (23 R408). -/
def State.linkLost (s : State) (n : Nat) : State :=
  let l := nth s.dv.links n Link.zero
  if !l.up then s
  else
    let links := s.dv.links.setIfInBounds n { l with up := false, retraining := false }
    let s1 := { s with dv.links := links }
    if links.toList.any fun x => x.up && x.peer == l.peer then s1
    else
      let rest := s1.dv.paths.filter fun p => p.pkg != l.peer
      { s1 with dv.paths := rest ++ [{ pkg := l.peer, downSince := some s.clock, timedOut := false, heldWrites := [] }] }

/-- Site 12: the line of the device structure is poisoned; a state block stops its queue, a log sets OVF. -/
def State.deviceError (s0 : State) (e : ErrorSite) : State :=
  let s := { s0 with mm.poison := addNum s0.mm.poison (e.addr / 64) }
  if e.slot = 1 then s.stopQueue e.unit (s.queue e.unit).head 2
  else if e.slot = 2 then
    match (s.ctx e.unit).log with
    | some l => (s.setCtx e.unit { s.ctx e.unit with log := some { l with ovf := true } }).logHeaders e.unit
    | none => s
  else s

/-- The configuration of the slot that an error names. -/
def State.errorCfg (s : State) (e : ErrorSite) : Nat := (s.slot e.slot).elim 0 (·.pl.cfg)

/-- The I/O die of a link, as the error log numbers dies (23 R409): links 0 to 5 on I/O die 0, 6 to 11 on I/O die 1 (26 R429). -/
def ioDie (link : Nat) : Nat := if link < 6 then 8 else 9

/-- UNCORRECTABLE_ERROR (R397), site by site. -/
def execUncorrectableError (e : ErrorSite) (s : State) : Host.Outcome State Fault Refusal :=
  let recover := fun (s : State) => let r := s.recoverCfg (s.errorCfg e); r.1.logError e true r.2
  match e.site with
  | 1 | 2 | 3 => .next (s.firingError e.slot e)
  | 4 => .next (((s.refetch e.unit e.addr).logError e true .refetched).tileFailure e.unit)
  | 5 => .next (((s.poisonTile e.slot e.addr).logError e true .poisoned).tileFailure (tileOf e.slot))
  | 6 => .next (((s.loseWeights e.slot e.addr).logError e true .poisoned).tileFailure (tileOf e.slot))
  | 7 => .next ({ s with mm.poison := addNum s.mm.poison (e.addr / 64) }.logError e true .poisoned)
  | 8 => .next ((recover s).tileFailure (tileOf e.slot))
  | 9 => .next (s.tagLost e)
  | 10 => .next (recover s)
  | 11 => .next ((s.linkLost e.unit).logError { e with die := ioDie e.unit } true .held)
  | 12 => .next ((s.deviceError e).logError e true .poisoned)
  | _ => .next s

/-- DIE_CRC_FAILURE (R396): up to 8 retries correct a transfer; a ninth failure makes it uncorrectable. -/
def execDieCrcFailure (e : ErrorSite) (tries : Nat) (s : State) : Host.Outcome State Fault Refusal :=
  let e10 := { e with site := 10 }
  if tries = 0 then .next s else if tries ≤ 8 then .next (s.logError e10 false .counted) else execUncorrectableError e10 s

/-! ### Retirement (23 R399, R400) -/

/-- The arcs into a tile report no space, or their own again. -/
def State.blockTile (s : State) (tile : Nat) (b : Bool) : State :=
  { s with arcs := s.arcs.map fun x =>
      if x.2.consumer.any fun c => tileOf c.1 == tile then (x.1, { x.2 with blocked := b }) else x }

/-- TILE_RETIREMENT (R400 steps 1 and 2): no new firing, no space, revocable firings voided. -/
def execTileRetirement (tile : Nat) (s : State) : Host.Outcome State Fault Refusal :=
  let t := s.tile tile
  if 1152 ≤ tile ∨ t.retiring ∨ t.failures.length < 3 ∨ s.dv.jetty.restarting.isSome then .next s
  else
    let s1 := (s.setTile tile { t with retiring := true }).blockTile tile true
    let s2 := (List.range 8).foldl (fun (s : State) (i : Nat) =>
      match s.slot (tile * 8 + i) with
      | some sl =>
        if sl.firing.any fun f => !f.irr then
          (s.dropFiring (tile * 8 + i)).updSlot (tile * 8 + i) fun x => { x with due.handler := x.due.handler || sl.firing.any (·.handler) }
        else s
      | none => s) s1
    .next (s2.later (.retirementComplete tile))

/-- Spares of a die that have been used; each die has four (01 R9). -/
def State.sparesUsed (s : State) (die : Nat) : Nat := s.tiles.foldl (fun n t => if t.1 / 144 = die then n + t.2.spare else n) 0

/-- What was due on a tile goes on. -/
def State.wakeTile (s : State) (tile : Nat) : State :=
  (List.range 8).foldl (fun (s : State) (i : Nat) =>
    if (s.slot (tile * 8 + i)).any (·.due.handler) then s.later (.handlerFiringStart (tile * 8 + i)) else s) s

/-- The runs of a tile are loaded again from the loader's copies. -/
def State.reloadRuns (s : State) (tile : Nat) : State :=
  (List.range 8).foldl (fun (s : State) (i : Nat) =>
    match s.slot (tile * 8 + i) with
    | some sl => s.writeRun tile sl.pl.runBase sl.pl.actor.code
    | none => s) s

/-- RETIREMENT_COMPLETE (R400 steps 3 to 5): a spare takes the tile's number with everything its slots hold, poisoned lines poisoned. An
uncorrectable source line or control state that the copy meets is a row UNCORRECTABLE_ERROR of site 5, 6 or 8 before it. Without a spare,
the page becomes unavailable and its configurations leave it. -/
def execRetirementComplete (tile : Nat) (s : State) : Host.Outcome State Fault Refusal :=
  let t := s.tile tile
  if !t.retiring ∨ (List.range 8).any (fun i => (s.slot (tile * 8 + i)).any (·.firing.isSome)) ∨ s.dv.jetty.restarting.isSome then .next s
  else if s.sparesUsed (tile / 144) < 4 then
    let s1 := (s.setTile tile { t with retiring := false, failures := [], spare := t.spare + 1 }).blockTile tile false
    let e : ErrorSite := { site := 1, die := dieOf tile, unit := tile, slot := 0, cove := 0, addr := 0, coves := [] }
    .next (((s1.reloadRuns tile).logError e true .retired).wakeTile tile)
  else if s.al.offPages.contains (pageOf tile) then .next s
  else
    .next ({ s with al.offPages := addNum s.al.offPages (pageOf tile) }.clearPages false [pageOf tile])

/-! ### Injection (23 R410) -/

/-- ERRINJ without a reserved bit, site or kind (R410). A write with a reserved SITE or KIND, or with KIND 10 at a site other than 1, is ignored
and counted, and SITE 0 is taken: the model's choice (log 95). -/
def injectOk (v : Dword) : Bool :=
  let site := bits v 31 28
  let kind := bits v 27 26
  bits v 62 32 == 0 && bits v 25 11 == 0 && (decide (site ∈ [0, 1, 3, 4, 5, 6, 7, 9])) && kind != 3 && (kind != 2 || site == 1)

/-- A write of ERRINJ. -/
def State.writeErrinj (s : State) (v : Dword) : State :=
  if injectOk v then { s with dv.errInj := v, dv.hit := none } else s.ignoreWrite false 0x170000

/-- A write of ERRADR. -/
def State.writeErradr (s : State) (v : Dword) : State :=
  if bits v 63 52 = 0 then { s with dv.errAdr := v } else s.ignoreWrite false 0x170008

/-- ERROR_INJECT (R410): the address, then the word that arms the injection. -/
def execErrorInject (inj adr : Dword) (s : State) : Host.Outcome State Fault Refusal :=
  .next (if s.barOpen then (s.writeErradr adr).writeErrinj inj else s)

/-- The cove of a slot, the cove tag 0x000 where none stands. -/
def State.slotCove (s : State) (k : Nat) : Nat := (s.slot k).elim 0 (·.pl.tag)

/-- The error site of an armed injection on a slot, and the cove that the record names. -/
def State.injected (s : State) (k cove : Nat) : ErrorSite :=
  let site := bits s.dv.errInj 31 28
  let tgt := bits s.dv.errInj 10 0
  { site := site, die := if site = 7 then 16 + tgt % 16 else dieOf tgt, unit := tgt, slot := if site = 9 then 0 else k,
    cove := cove, addr := s.dv.errAdr.toNat, coves := [] }

/-- The injection is made: ARM clears, and the error that follows takes the path of R397. -/
def State.makeError (s : State) (k cove : Nat) : State :=
  let e := s.injected k cove
  let s1 := { s with dv.errInj := s.dv.errInj &&& ~~~(BitVec.ofNat 64 (2 ^ 63)), dv.hit := none }
  match bits s.dv.errInj 27 26 with
  | 0 => s1.soon (.correctedError e)
  | 2 => s1.soon (.silentError k 1)
  | _ => s1.soon (.uncorrectableError e)

/-- Is the next operation of a tile to be corrupted beyond correction: site 1, two bits or a mismatch (R410)? -/
def State.opStruck (s : State) (tile : Nat) : Bool := s.armedAt 1 tile && bits s.dv.errInj 27 26 != 0

/-- Did a step from `old` to `s` write the line of HBM on its stack that the armed injection names? -/
def State.hbmStruck (old s : State) : Bool :=
  let line := s.dv.errAdr.toNat / 64
  s.dv.errAdr.toNat / 2 ^ 36 == bits s.dv.errInj 10 0 &&
    (s.mm.order.olds.any (fun o => decide (old.mm.order.next ≤ o.num) && o.pa / 64 == line)
      || (List.range 64).any fun i => old.mm.mem.byte (line * 64 + i) != s.mm.mem.byte (line * 64 + i))

/-- The slot that an armed injection strikes in a step from `old` to `s`, with the cove: where a write has been noted, or HBM, a slot or a
translation was written (R410). -/
def State.struck (old s : State) : Option (Nat × Nat) :=
  let tile := bits s.dv.errInj 10 0
  let mine := fun (x : State) => x.mm.tlb.filter fun t => t.unit == tile
  match s.dv.hit with
  | some k => some (k, s.slotCove k)
  | none =>
    match bits s.dv.errInj 31 28 with
    | 7 => if State.hbmStruck old s then some (0, 0) else none
    | 9 =>
      let placed := ((List.range 8).map (tile * 8 + ·)).find? fun k => (s.slot k).isSome && (old.slot k).isNone
      match placed with
      | some k => some (k, s.slotCove k)
      | none => if (mine old).length < (mine s).length then some (tile * 8, ((mine s).getLast?).elim 0 (·.tag)) else none
    | _ => none

/-- An armed injection after a step. -/
def State.inject (old s : State) : State :=
  if old.dv.errInj.getLsbD 63 ∧ s.dv.errInj = old.dv.errInj then
    match State.struck old s with
    | some (k, cove) => s.makeError k cove
    | none => s
  else s

/-! ### Repair while serving (23 R411) -/

/-- Has a draining die been left by everything? -/
def State.dieEmpty (s : State) (d : Nat) : Bool :=
  s.slots.all fun ks => tileOf ks.1 / 144 != d

/-- Is an atomic at a shelf slice of a die that has not completed, of a slot here or of a peer (23 R411 step 3)? -/
def State.atomicsAt (s : State) (d : Nat) : Bool :=
  let at' := fun (q : AtomicReq) => q.arrived && paLocal q.pa && s.homeSlice (q.pa / 64) / 16 == d
  s.slots.any (fun ks => ks.2.firing.any fun f => f.request.any at')
    || s.en.peerWaits.any fun w => paLocal w.q.pa && s.homeSlice (w.q.pa / 64) / 16 == d

/-- DIE_HANDOVER (R411 step 3): once nothing stands on a draining die its shelf writes back its dirty lines, and when the atomics at its
slices have completed their home roles go to die d XOR 1, with the barrier objects; the reset follows, or the hold. While that die does not
serve either the drain waits (log 114). -/
def State.dieHandover (s : State) (d : Nat) : State :=
  let other := if d % 2 = 0 then d + 1 else d - 1
  if nth s.dv.dieState d 0 ≠ 1 ∨ !s.dieEmpty d then s
  else
    let s1 := { s with mm.dirty := s.mm.dirty.filter fun x => s.homeSlice (x.2.1 / 64) / 16 != d }
    if s1.atomicsAt d ∨ nth s1.dv.dieState other 0 ≠ 0 then s1
    else { s1 with dv.dieHome := s1.dv.dieHome.setIfInBounds d other,
                   dv.dieState := s1.dv.dieState.setIfInBounds d (if nth s1.dv.dieHold d false then 3 else 2) }

/-- DIECTL.STATE. -/
def State.dieStatus (s : State) (d : Nat) : Nat := nth s.dv.dieState d 0

/-- DIE_DRAIN_RESET_RETURN (R411): DIECTL.CMD 01. -/
def execDieDrainResetReturn (die : Nat) (s : State) : Host.Outcome State Fault Refusal :=
  .next (if s.barOpen then s.drainDie die false else s)

/-- DIE_DRAIN_HOLD (R411): DIECTL.CMD 10. -/
def execDieDrainHold (die : Nat) (s : State) : Host.Outcome State Fault Refusal := .next (if s.barOpen then s.drainDie die true else s)

/-- A die serves again, its homes returned. -/
def State.dieServes (s : State) (d : Nat) : State :=
  { s with dv.dieState := s.dv.dieState.setIfInBounds d 0, dv.dieHold := s.dv.dieHold.setIfInBounds d false,
           dv.dieHome := s.dv.dieHome.setIfInBounds d d }.later .admission

/-- DIE_RETURN (R411): DIECTL.CMD 11 returns a held die. -/
def execDieReturn (die : Nat) (s : State) : Host.Outcome State Fault Refusal :=
  .next (if s.barOpen ∧ die < 8 ∧ s.dieStatus die = 3 then s.dieServes die else s)

/-- DIE_RESET_COMPLETE (R411): after the reset and self-test a tile that failed is retired, and a die that failed as a whole is held
out of service. -/
def execDieResetComplete (die : Nat) (failed : List Nat) (dieFailed : Bool) (s : State) : Host.Outcome State Fault Refusal :=
  if 8 ≤ die ∨ s.dieStatus die ≠ 2 then .next s
  else
    let fresh := { s with tiles := s.tiles.map fun (t : Nat × Tile) =>
      if t.1 / 144 = die then
        (t.1, { Tile.zero with starts := t.2.starts, spare := t.2.spare, protEvents := t.2.protEvents, windowStart := t.2.windowStart })
      else t }
    if dieFailed then
      .next { fresh with dv.dieState := fresh.dv.dieState.setIfInBounds die 3, dv.dieHold := fresh.dv.dieHold.setIfInBounds die true }
    else
      let mark := fun (s : State) (t : Nat) =>
        if t / 144 = die then
          (s.setTile t { s.tile t with failures := [s.clock, s.clock, s.clock] }).later (.tileRetirement t)
        else s
      .next (failed.foldl mark (fresh.dieServes die))

end Sys2Proof.Machine
end

