-- ==== Sys2Proof/Machine/EvLink.lean ====
section
/-! DEFINITION. The Causeway: training, widths, lost and restored paths, collective groups, and writes that come from peers
(07 R124; 20 R366; 23 R408; 25 R420; 26 R429). -/

namespace Sys2Proof.Machine

/-! ### Links and paths (26 R429, 23 R408) -/

/-- A link by its number. -/
def State.link (s : State) (n : Nat) : Link := nth s.dv.links n Link.zero
def State.setLink (s : State) (n : Nat) (l : Link) : State := { s with dv.links := s.dv.links.setIfInBounds n l }

/-- What a returned path lets go on: the mirrored pointers of its arcs (02 R43). -/
def State.remirror (s : State) (pkg : Nat) : State :=
  (s.arcs.filter fun x => x.2.cross == some pkg).foldl (fun (s : State) (x : Nat × Arc) => s.later (.rpMirrorUpdate x.1)) s

/-- The home that stands for the Causeway port of a peer (log 66). -/
def portHome (pkg : Nat) : Nat := 145 + pkg % 12

/-- The coves whose generation the port of a peer has changed, with the generations that it holds. -/
def State.portCoves (s : State) (pkg : Nat) : List (Nat × Nat) :=
  s.mm.homeGen.filterMap fun g => if g.1 / 4096 = portHome pkg then some (g.1 % 4096, g.2) else none

/-- The path to a peer stands again: the generations are exchanged first, what was held of an old one is discarded (20 R367), and the
rest is delivered, in order (23 R408). -/
def State.pathUp (s : State) (pkg : Nat) : State :=
  if s.pathDown pkg then
    let s1 := (s.portCoves pkg).foldl (fun (s : State) (c : Nat × Nat) =>
      (s.emit (.peer pkg "generation" c.1 c.2)).dropHeld (portHome pkg) c.1 c.2) s
    let held := (s1.dv.paths.filter fun p => p.pkg == pkg).flatMap (·.held)
    let s2 : State := { s1 with dv.paths := s1.dv.paths.filter fun p => p.pkg != pkg }
    (held.foldl State.emit s2).remirror pkg
  else s

/-- LINK_TRAINING (R429): a link trains once PKGID is locked at both ends; with one number at both ends it stays down. -/
def execLinkTraining (link peer : Nat) (peerLocked : Bool) (s : State) : Host.Outcome State Fault Refusal :=
  if 12 ≤ link ∨ 256 ≤ peer ∨ !s.dv.pkgLock ∨ !peerLocked ∨ (s.link link).up then .next s
  else if peer = s.dv.pkg then .next (s.report "same package number at both ends" link peer)
  else
    .next ((s.setLink link { up := true, peer := peer, lanes := 16, retraining := false, triedAt := s.clock }).pathUp peer)

/-- LINK_RETRAIN (R408): a link that loses lock or retries too often retrains at 8 or 4 lanes; its flits are held meanwhile. -/
def execLinkRetrain (link lanes : Nat) (s : State) : Host.Outcome State Fault Refusal :=
  let l := s.link link
  if link < 12 ∧ l.up ∧ (lanes = 8 ∨ lanes = 4) ∧ lanes ≤ l.lanes then
    .next (s.setLink link { l with retraining := true, lanes := lanes, triedAt := s.clock })
  else .next s

/-- LINK_RETRAIN_COMPLETE (R408): the link serves at the width it reached, or not at all. -/
def execLinkRetrainComplete (link lanes : Nat) (s : State) : Host.Outcome State Fault Refusal :=
  let l := s.link link
  if link < 12 ∧ l.retraining then
    if lanes = 0 then .next (s.linkLost link)
    else if lanes = 4 ∨ lanes = 8 ∨ lanes = 16 then .next (s.setLink link { l with retraining := false, lanes := lanes })
    else .next s
  else .next s

/-- Tile cycles of 10 s and of 10 ms. -/
def widthRetrySpan : Nat := 27000000000
def pathSpan : Nat := 27000000

/-- LINK_WIDTH_RETRY (R408): every 10 s a narrowed link tries its full width. -/
def execLinkWidthRetry (link : Nat) (s : State) : Host.Outcome State Fault Refusal :=
  let l := s.link link
  if link < 12 ∧ l.up ∧ !l.retraining ∧ l.lanes < 16 ∧ l.triedAt + widthRetrySpan ≤ s.clock then
    .next (s.setLink link { l with retraining := true, triedAt := s.clock })
  else .next s

/-- Does a configuration lose something with a path: writes of its context that are held, or an arc to the peer? -/
def State.losesPath (s : State) (p : Path) (cfg : Nat) (c : Configuration) : Bool :=
  p.heldWrites.any (fun w => w.1 != 0 && w.1 == (s.ctx c.launch.ctx).tag) || s.arcs.any fun x => x.2.cfg == cfg && x.2.cross == some p.pkg

/-- Is a message to a peer data of an arc or of a collective, which goes with the held writes? -/
def Emission.isFlit : Emission → Bool
  | .peerTokens _ _ _ _ => true
  | .peerEntries _ _ _ => true
  | .peerRound _ _ _ _ _ => true
  | _ => false

/-- PATH_DOWN_TIMEOUT (R408): after 10 ms the held writes, tokens, entries and atomics are discarded, the configurations of their contexts
roll back or their coves are killed, and groups with the member begin recovery (25 R422). -/
def execPathDownTimeout (pkg : Nat) (s : State) : Host.Outcome State Fault Refusal :=
  match s.dv.paths.find? fun p => p.pkg == pkg && !p.timedOut && p.downSince.any fun t => decide (t + pathSpan ≤ s.clock) with
  | none => .next s
  | some p =>
    let mark := fun (x : Path) => if x.pkg = pkg then { x with timedOut := true, held := x.held.filter fun e => !e.isFlit } else x
    let hit := (s.al.cfgs.filter fun c => decide (c.2.state ≠ .ended) && s.losesPath p c.1 c.2).map (·.1)
    let s0 := s.discardHeld fun x _ => x.pkg == pkg
    let s1 : State := { s0 with dv.paths := s0.dv.paths.map mark, en.late := s0.en.late.filter fun l => !(paPeer l.q.pa && paPkg l.q.pa == pkg) }
    let s2 := hit.foldl (fun (s : State) (c : Nat) => (s.recoverCfg c).1) s1
    .next ((s2.en.groups.filter fun g => g.2.en && g.2.members.contains pkg).foldl
      (fun (s : State) (g : Nat × Group) => s.startRecovery g.1) s2)

/-- PATH_RESTORED (R408): a link to the peer serves again. -/
def execPathRestored (pkg : Nat) (s : State) : Host.Outcome State Fault Refusal :=
  if s.dv.links.toList.any fun l => l.up && !l.retraining && l.peer == pkg then .next (s.pathUp pkg) else .next s

/-! ### Collective groups (25 R420) -/

/-- The value of COLLGRP of a group. -/
def Group.word (g : Group) : Dword := BitVec.ofNat 64 (bit g.en * 2 ^ 63 + g.ctx % 64 * 2 ^ 32 + g.epoch % 2 ^ 32)

/-- Is a group legal to activate: two members or more, this package among them? -/
def State.groupReady (s : State) (g : Group) : Bool := decide (2 ≤ g.members.length) && g.members.contains s.dv.pkg

/-- A write of COLLGRP of group `n`; `none` where it is ignored as a whole. -/
def State.groupWord (s : State) (g : Group) (v : Dword) : Option Group :=
  let ctx := bits v 37 32
  let en := v.getLsbD 63
  if bits v 62 38 ≠ 0 then none
  else if g.en ∧ ctx ≠ g.ctx then none
  else if en ∧ !s.groupReady g then none
  else some { g with en := en, ctx := ctx, epoch := if en ∧ !g.en then 1 else g.epoch, recovery := if en then g.recovery else none }

/-- A write of dword `i` of MBR; `none` where it is ignored as a whole. -/
def Group.memberWord (g : Group) (i : Nat) (v : Dword) : Option Group :=
  let keep := g.mbr &&& ~~~(BitVec.ofNat 256 ((2 ^ 64 - 1) * 2 ^ (64 * i)))
  let mbr := keep ||| BitVec.ofNat 256 (v.toNat * 2 ^ (64 * i))
  if g.en ∧ mbr ≠ g.mbr then none else some { g with mbr := mbr }

/-- A write of 8 bytes in the COLLGRP table. -/
def State.writeCollgrp (s : State) (off : Nat) (v : Dword) : State :=
  let n := (off - 0x1A0000) / 64
  let w := (off - 0x1A0000) % 64 / 8
  let g := s.group n
  let r := if w = 0 then s.groupWord g v else if w ≤ 4 then g.memberWord (w - 1) v else if v = 0 then some g else none
  match r with
  | some x => s.setGroup n x
  | none => s.ignoreWrite false off

/-- COLLGRP_WRITE (R420). -/
def execCollgrpWrite (off : Nat) (value : Dword) (s : State) : Host.Outcome State Fault Refusal :=
  if s.barOpen ∧ 0x1A0000 ≤ off ∧ off < 0x1A4000 ∧ off % 8 = 0 then .next (s.writeCollgrp off value) else .next s

/-! ### Writes of peers (07 R124, 20 R366, R367) -/

/-- PEER_WRITE (R124): bytes that a peer writes are performed at their local homes unless their generation is old. Data that the peer
sends poisoned poisons the lines (23 R398): bit 52 of the address says so, which no address uses (log 117). -/
def execPeerWrite (pkg cove gen pa : Nat) (bytes : List Byte) (s : State) : Host.Outcome State Fault Refusal :=
  let ws := (bytes.zipIdx).map fun b => (pa % 2 ^ 52 + b.2, b.1)
  if s.pathDown pkg ∨ !(ws.all fun w => paLocal w.1 && paOk w.1) then .next s
  else .next (s.peerStore pkg false (decide (pa / 2 ^ 52 = 1)) (ws.filter fun w => s.peerTakes pkg w.1 cove gen))

end Sys2Proof.Machine
end

