-- ==== Sys2Proof/Machine/EvLighthouse.lean ====
section
/-! DEFINITION. The Lighthouse and the board: sensors, measurements, the manifest, the SPDM responder, IDE keys, and board
management (09 R190, R198; 22 R387 to R394; 26 R426, R434). -/

namespace Sys2Proof.Machine

/-! ### Sensors (22 R393, R394) -/

/-- The ALRM bit of a sensor. -/
def alarmBit : Sensor → Nat
  | .glitch => 0 | .temperature => 1 | .clock => 2

/-- The action that LHPOL names for a sensor. -/
def State.sensorAction (s : State) : Sensor → Nat
  | .glitch => s.dv.lh.glta | .temperature => s.dv.lh.tmpa | .clock => s.dv.lh.clka

/-- The identity public key: of the key pair that the seed gives (22 R391). The certificate over it stands also after the seed is erased. -/
def Lighthouse.publicKey (l : Lighthouse) : List Byte := if l.erased then l.pub else slhPublic slh128f l.seed

/-- The seed array is overwritten, and a signing under way fails (22 R394). -/
def Lighthouse.erase (l : Lighthouse) : Lighthouse :=
  { l with erased := true, pub := l.publicKey, seed := List.replicate 48 0, signing := none }

/-- SENSOR_TRIP (R394): the ALRM bit is set; then an event, which only running Jetty firmware posts (log 116), a freeze, or a freeze and the
loss of the seed. -/
def execSensorTrip (sensor : Sensor) (s : State) : Host.Outcome State Fault Refusal :=
  let s1 := { s with dv.lh.alrm := s.dv.lh.alrm ||| BitVec.ofNat 3 (2 ^ (alarmBit sensor)) }
  match s.sensorAction sensor with
  | 0 => .next (if s.dv.lh.frozen ∨ !s.jettyRuns then s1 else s1.report "sensor trip" (alarmBit sensor) 0)
  | 1 => .next { s1 with dv.lh.frozen := true }
  | _ =>
    let s2 : State := { s1 with dv.lh := { s1.dv.lh with frozen := true }.erase }
    .next (if s.dv.lh.signing.isSome then s2.emit (.reply "ERROR Unspecified" []) else s2)

/-! ### Measurements and the manifest (22 R389, R390; 09 R190, R198) -/

/-- The value of LHPOL (22 R393). -/
def Lighthouse.policy (l : Lighthouse) : Dword :=
  BitVec.ofNat 64 (bit l.lock * 256 + bit l.reqsig * 128 + l.clka % 4 * 16 + l.tmpa % 4 * 4 + l.glta % 4)

/-- How often each tile has moved to a spare: the spare-tile map. -/
def State.spareMap (s : State) : List Nat := (List.range 1152).map fun t => (s.tile t).spare

/-- FWD: the digests of indices 1 to 5 (22 R389). -/
def State.firmwareDigest (s : State) : BitVec 256 := sha256 (s.dv.lh.meas.toList.flatMap digestBytes)

/-- The launches that a manifest of a launch covers: those of its context up to it, at most the last 64 (log 20). -/
def State.manifestLaunches (s : State) (x : RunRecord) : List RunRecord :=
  let l := s.al.history.filter fun y => y.ctx == x.ctx && decide (y.ordinal ≤ x.ordinal)
  l.drop (l.length - 64)

/-- LOGD: zero at D0; else of the log as it stands, or as it was when the context ended (09 R190); with OVF. -/
def State.manifestLog (s : State) (x : RunRecord) : List Byte × Bool :=
  if x.lowest = 0 then (List.replicate 32 0, false)
  else
    match (s.ctx x.ctx).log with
    | some l => (digestBytes (logDigest l.records), l.ovf)
    | none => (s.ctx x.ctx).logDigest.getD (List.replicate 32 0, false)

/-- The manifest before its signature (09 R198), with the behaviour signature of this part, 1 (09 R199). -/
def State.manifest (s : State) (x : RunRecord) : List Byte :=
  let c := s.ctx x.ctx
  let images := s.manifestLaunches x
  let log := s.manifestLog x
  toBytes 2 1 ++ toBytes 1 x.lowest ++ toBytes 1 (bit log.2 + 2 * bit (c.log.any (·.div)) + 4 * bit x.changed + 8 * bit x.part)
    ++ toBytes 2 1 ++ toBytes 2 images.length ++ toBytes 8 x.ordinal ++ log.1 ++ digestBytes s.firmwareDigest
    ++ images.flatMap fun i => digestBytes i.hash

/-- What measurement index 0xF0 returns: the manifest of the launch that MANSEL selects, or an empty block (22 R390). -/
def State.selectedManifest (s : State) : List Byte :=
  match s.al.history.reverse.find? fun x => x.ordinal == s.dv.lh.mansel.toNat with
  | some x => s.manifest x
  | none => []

/-! ### The SPDM responder (22 R391, R392) -/

/-- An answer goes out. -/
def State.answer (s : State) (what : String) (bs : List Byte) : Host.Outcome State Fault Refusal := .next (s.emit (.reply what bs))

/-- A request whose answer is signed: the erased seed, a signing under way, or a signing that begins. -/
def State.beginSigning (s : State) (kind : Nat) (bs : List Byte) : Host.Outcome State Fault Refusal :=
  if s.dv.lh.erased then s.answer "ERROR Unspecified" []
  else if s.dv.lh.signing.isSome then s.answer "ERROR ResponseNotReady" []
  else .next { s with dv.lh.signing := some (kind, bs) }

/-- GET_VERSION (R392): SPDM 1.3. -/
def execGetVersion (s : State) : Host.Outcome State Fault Refusal := s.answer "VERSION" [0x13]

/-- GET_CAPABILITIES (R392). -/
def execGetCapabilities (s : State) : Host.Outcome State Fault Refusal := s.answer "CAPABILITIES" []

/-- NEGOTIATE_ALGORITHMS (R392): SHA-256, and SLH-DSA-SHA2-128f under identifier 0x0001. -/
def execNegotiateAlgorithms (s : State) : Host.Outcome State Fault Refusal := s.answer "ALGORITHMS SHA-256" (toBytes 2 1)

/-- GET_DIGESTS (R392): of the certificate chain in slot 0. -/
def execGetDigests (s : State) : Host.Outcome State Fault Refusal := s.answer "DIGESTS" (digestBytes (sha256 (Config.certificateChain s.dv.lh.publicKey)))

/-- GET_CERTIFICATE (R392): the chain in slot 0. -/
def execGetCertificate (s : State) : Host.Outcome State Fault Refusal := s.answer "CERTIFICATE" (Config.certificateChain s.dv.lh.publicKey)

/-- CHALLENGE (R392): signed with the identity key over the nonce and the measurements. -/
def execChallenge (nonce : BitVec 256) (s : State) : Host.Outcome State Fault Refusal :=
  s.beginSigning 1 (digestBytes nonce ++ s.dv.lh.meas.toList.flatMap digestBytes)

/-- GET_MEASUREMENTS (R392): a digest of index 1 to 5, or the manifest of index 0xF0, built and signed now, whether or not the request asks
for a signature; where no launch is selected the block is empty, and signed where that is asked. -/
def execGetMeasurements (index : Nat) (signed : Bool) (s : State) : Host.Outcome State Fault Refusal :=
  if index = 0xF0 then
    if s.dv.lh.erased then s.answer "ERROR Unspecified" []
    else if s.selectedManifest = [] ∧ !signed then s.answer "MEASUREMENTS" []
    else s.beginSigning 2 s.selectedManifest
  else if 1 ≤ index ∧ index ≤ 5 then
    let d := digestBytes (nth s.dv.lh.meas (index - 1) 0)
    if signed then s.beginSigning 2 d else s.answer "MEASUREMENTS" d
  else s.answer "ERROR InvalidRequest" []

/-- SIGNING_COMPLETE (R392): the response is delivered, with the 17,088 bytes of its signature under the identity key (22 R391). -/
def execSigningComplete (s : State) : Host.Outcome State Fault Refusal :=
  match s.dv.lh.signing with
  | none => .next s
  | some (kind, bs) =>
    let sig := slhSign slh128f s.dv.lh.seed (toBytes 16 (Config.signRandom s.freeCtr).toNat) bs
    let s1 := { s with dv.lh.signing := none, dv.host.authed := s.dv.host.authed || kind == 1, freeCtr := s.freeCtr + 1 }
    s1.answer (if kind = 1 then "CHALLENGE_AUTH" else "MEASUREMENTS signed") (bs ++ sig)

/-- IDE_KM_REQUEST (R426): keys of the link stream, 0, or of a selective stream, 1 to 4, once SPDM has authenticated the part. -/
def execIdeKmRequest (stream : Nat) (key : BitVec 256) (s : State) : Host.Outcome State Fault Refusal :=
  if stream ≤ 4 ∧ s.dv.host.authed then
    { s with dv.host.ideKeys := s.dv.host.ideKeys.put stream key }.answer "IDE_KM key set" (toBytes 1 stream)
  else s.answer "IDE_KM refused" (toBytes 1 stream)

/-! ### Board management (26 R434) -/

/-- The value of LHSTS (22 R393). -/
def Lighthouse.status (l : Lighthouse) : Dword :=
  BitVec.ofNat 64 (l.stage % 16 * 4096 + bit l.erased * 2048 + bit l.frozen * 1024 + l.alrm.toNat)

/-- PLDM_MONITOR_REQUEST (R434): temperatures, currents, link states and LHSTS. -/
def execPldmMonitorRequest (s : State) : Host.Outcome State Fault Refusal :=
  let links := s.dv.links.toList.map fun l => BitVec.ofNat 8 (if l.up then l.lanes else 0)
  s.answer "PLDM" (Config.boardReadings s.ns ++ links ++ toBytes 8 s.dv.lh.status.toNat)

/-- MCTP_CONTROL_MESSAGE (R434): answered in every STAGE and while frozen. -/
def execMctpControlMessage (s : State) : Host.Outcome State Fault Refusal := s.answer "MCTP control" []

end Sys2Proof.Machine
end

