-- ==== Sys2Proof/Machine/Registers.lean ====
section
/-! DEFINITION. The registers of BAR0 and BAR2 as the host writes and reads them (00 R4, R5; 16 R301; 18 R332, R333, R343; 20 R351,
R357, R359; 21 R383, R386; 22 R390, R393; 23 R401, R409 to R412; 25 R420; 26 R428). -/

namespace Sys2Proof.Machine

/-! ### Writes, register by register -/

/-- PKGID (26 R428). -/
def State.writePkgid (s : State) (v : Dword) : State :=
  if bits v 63 9 ≠ 0 then s.ignoreWrite false 0x108
  else if s.dv.pkgLock then s
  else { s with dv.pkg := bits v 7 0, dv.pkgLock := v.getLsbD 8 }

/-- RSVWR (26 R428) is read-only. -/
def State.writeRsvwr (s : State) (v : Dword) : State := if bits v 36 32 ≠ 0 then s.ignoreWrite false 0x100 else s

/-- ADMCTL (16 R301). -/
def State.writeAdmctl (s : State) (v : Dword) : State :=
  if bits v 63 20 ≠ 0 ∨ bits v 15 9 ≠ 0 ∨ bits v 7 1 ≠ 0 ∨ bits v 19 16 = 0 then s.ignoreWrite false 0x100000
  else { s with al.bypl := bits v 19 16, al.recl := v.getLsbD 8, al.rben := v.getLsbD 0 }.later .admission

/-- CTXDRAW (16 R301). -/
def State.writeCtxdraw (s : State) (n : Nat) (v : Dword) : State :=
  if bits v 63 16 ≠ 0 then s.ignoreWrite false (0x100100 + 8 * n)
  else (s.setCtx n { s.ctx n with cap := bits v 15 0 }).later .admission

/-- JWDCFG (18 R343). -/
def State.writeJwdcfg (s : State) (v : Dword) : State :=
  let wmin := bits v 15 0
  let wmax := bits v 31 16
  if bits v 63 33 ≠ 0 ∨ wmax < 2 ∨ wmax ≤ wmin then s.ignoreWrite false 0x110000
  else if s.dv.jetty.lock then s
  else { s with dv.jetty.wmin := wmin, dv.jetty.wmax := wmax, dv.jetty.lock := v.getLsbD 32 }

/-- Is a configuration of a context placed (20 R351, 23 R401)? -/
def State.ctxPlaced (s : State) (n : Nat) : Bool := s.al.cfgs.any fun c => c.2.launch.ctx == n && c.2.stands

/-- CTXROOT (20 R351). -/
def State.writeCtxroot (s : State) (n : Nat) (v : Dword) : State :=
  let c := s.ctx n
  let en := v.getLsbD 63
  let root := bits v 51 15
  if bits v 62 52 ≠ 0 ∨ bits v 14 0 ≠ 0 ∨ (c.rootEn ∧ root ≠ c.root) ∨ (en ∧ c.tag = 0) ∨ (c.rootEn ∧ !en ∧ s.ctxPlaced n) then
    s.ignoreWrite false (0x120000 + 16 * n)
  else
    let s1 := if c.rootEn && !en then s.endLog n else s
    s1.setCtx n { s1.ctx n with rootEn := en, root := root }

/-- CTXCOVE (20 R351): a context that joins a cove has the generation of the cove. -/
def State.writeCtxcove (s : State) (n : Nat) (v : Dword) : State :=
  let c := s.ctx n
  let tag := bits v 11 0
  if bits v 63 33 ≠ 0 ∨ (c.rootEn ∧ tag ≠ c.tag) then s.ignoreWrite false (0x120008 + 16 * n)
  else if tag = c.tag then s
  else s.setCtx n { c with tag := tag, gen := s.coveGen tag, kip := s.mm.kills.any fun x => x.cove == tag }

/-- MMUVA, MMUPA and MMUCMD of a port (20 R357). -/
def State.writeMmu (s : State) (p w : Nat) (v : Dword) : State :=
  let x := s.mmuPort p
  match w with
  | 0 => if bits v 63 60 ≠ 0 ∨ bits v 15 0 ≠ 0 then s.ignoreWrite false (0x130000 + 32 * p) else s.setPort p { x with va := v }
  | 1 => if bits v 63 52 ≠ 0 ∨ bits v 15 0 ≠ 0 then s.ignoreWrite false (0x130008 + 32 * p) else s.setPort p { x with pa := v }
  | 2 => s.mmuCommand p v
  | _ => s

/-- FLTCFG, FLTPTR and FLTRESP (20 R359). A write of LOG 11 to 15 is ignored and counted, which is the model's choice (log 95). -/
def State.writeFault (s : State) (w : Nat) (v : Dword) : State :=
  match w with
  | 0 =>
    if bits v 63 52 ≠ 0 ∨ bits v 11 4 ≠ 0 ∨ 10 < bits v 3 0 then s.ignoreWrite false 0x130100
    else { s with mm.fltBase := bits v 51 12, mm.fltLog := bits v 3 0 }
  | 1 => { s with mm.fltHead := bits v 31 0 }.later .faultRecordPost
  | _ => if bits v 31 1 ≠ 0 then s.ignoreWrite false 0x130110 else s.answerFault (bits v 63 32) (!v.getLsbD 0)

/-- DBGCTL (21 R383). -/
def State.writeDbgctl (s : State) (n : Nat) (v : Dword) : State :=
  if bits v 63 2 ≠ 0 then s.ignoreWrite false (0x140000 + 8 * n)
  else if v.getLsbD 0 then (if (s.ctx n).halted then s else s.haltCtx n none)
  else if (s.ctx n).halted then s.releaseCtx n else s

/-- DBGSEL (21 R386). -/
def State.writeDbgsel (s : State) (v : Dword) : State :=
  if bits v 63 58 ≠ 0 ∨ bits v 19 0 ≠ 0 then s.ignoreWrite false 0x140400 else { s with dv.dbgSel := v }

/-- LHSTS (22 R393) is read-only. -/
def State.writeLhsts (s : State) (v : Dword) : State :=
  if bits v 63 16 ≠ 0 ∨ bits v 9 3 ≠ 0 then s.ignoreWrite false 0x150000 else s

/-- LHPOL (22 R393); measurement 5 is the register as locked (22 R389). -/
def State.writeLhpol (s : State) (v : Dword) : State :=
  let l := s.dv.lh
  if bits v 63 9 ≠ 0 ∨ v.getLsbD 6 ∨ bits v 5 4 = 3 ∨ bits v 3 2 = 3 ∨ bits v 1 0 = 3 ∨ l.lock then s.ignoreWrite false 0x150008
  else
    let l1 := { l with lock := v.getLsbD 8, reqsig := v.getLsbD 7, clka := bits v 5 4, tmpa := bits v 3 2, glta := bits v 1 0 }
    { s with dv.lh := if v.getLsbD 8 then { l1 with meas := l1.meas.set 4 (sha256 (toBytes 8 l1.policy.toNat)) } else l1 }

/-- SNAPCFG and SNAPCTL (23 R401). -/
def State.writeSnapcfg (s : State) (n : Nat) (v : Dword) : State :=
  if bits v 63 52 ≠ 0 ∨ s.ctxPlaced n then s.ignoreWrite false (0x160000 + 16 * n)
  else s.setCtx n { s.ctx n with snapBase := bits v 51 16, snapSize := bits v 15 0, nextSection := 0 }

def State.writeSnapctl (s : State) (n : Nat) (v : Dword) : State :=
  if bits v 63 4 ≠ 0 ∨ v.getLsbD 2 then s.ignoreWrite false (0x160008 + 16 * n)
  else
    let s1 := s.setCtx n { s.ctx n with snapRbk := v.getLsbD 1, snapEn := v.getLsbD 0 }
    if v.getLsbD 3 then s1.later (.rollbackRequest n) else s1

/-- DIECTL (23 R411). -/
def State.writeDiectl (s : State) (d : Nat) (v : Dword) : State :=
  if bits v 63 4 ≠ 0 then s.ignoreWrite false (0x170100 + 8 * d)
  else
    match bits v 1 0 with
    | 1 => s.drainDie d false
    | 2 => s.drainDie d true
    | 3 => if s.dieStatus d = 3 then s.dieServes d else s
    | _ => s

/-- A write of BAR0 at an 8-byte offset; an offset that holds no register is passed by. -/
def State.writeBar0 (s : State) (off : Nat) (v : Dword) : State :=
  if off = 0x100 then s.writeRsvwr v
  else if off = 0x108 then s.writePkgid v
  else if off = 0x100000 then s.writeAdmctl v
  else if 0x100100 ≤ off ∧ off < 0x100300 then s.writeCtxdraw ((off - 0x100100) / 8) v
  else if off = 0x110000 then s.writeJwdcfg v
  else if 0x120000 ≤ off ∧ off < 0x120400 then
    if off % 16 = 0 then s.writeCtxroot ((off - 0x120000) / 16) v else s.writeCtxcove ((off - 0x120000) / 16) v
  else if 0x130000 ≤ off ∧ off < 0x130040 then s.writeMmu ((off - 0x130000) / 32) (off % 32 / 8) v
  else if 0x130100 ≤ off ∧ off < 0x130118 then s.writeFault ((off - 0x130100) / 8) v
  else if 0x140000 ≤ off ∧ off < 0x140200 then s.writeDbgctl ((off - 0x140000) / 8) v
  else if off = 0x140400 then s.writeDbgsel v
  else if off = 0x150000 then s.writeLhsts v
  else if off = 0x150008 then s.writeLhpol v
  else if off = 0x150010 then { s with dv.lh.mansel := v }
  else if 0x160000 ≤ off ∧ off < 0x160400 then
    if off % 16 = 0 then s.writeSnapcfg ((off - 0x160000) / 16) v else s.writeSnapctl ((off - 0x160000) / 16) v
  else if off = 0x170000 then s.writeErrinj v
  else if off = 0x170008 then s.writeErradr v
  else if off = 0x170010 then s.writeJfwsel v
  else if 0x170100 ≤ off ∧ off < 0x170140 then s.writeDiectl ((off - 0x170100) / 8) v
  else if 0x1A0000 ≤ off ∧ off < 0x1A4000 then s.writeCollgrp off v
  else s

/-- A dword of a QSB window written while the queue is disabled (18 R332, R333): the front end keeps its STATE, and bytes that the
table calls zero stay zero. -/
def Queue.writeDword (x : Queue) (w : Nat) (v : Dword) : Queue :=
  match w with
  | 0 => { x with rbase := v.toNat }
  | 1 => { x with rsize := bits v 31 0, ctx := bits v 39 32 }
  | 2 => { x with tshad := v.toNat }
  | 3 => { x with seq := bits v 31 0, tail := bits v 57 32 }
  | 4 => { x with head := bits v 25 0, done := bits v 63 32 }
  | 5 => { x with err := BitVec.ofNat 64 (bits v 63 38 * 2 ^ 38 + bits v 7 0) }
  | 6 => { x with rpos := BitVec.ofNat 64 (bits v 47 0) }
  | 7 => { x with rgen := bits v 31 0 }
  | 8 => { x with lord := v.toNat }
  | 9 => { x with lage := v.toNat }
  | 10 => { x with lbyp := bits v 7 0 }
  | _ => x

/-- A write in the QSB window of a queue. -/
def State.writeQsb (s : State) (q w : Nat) (v : Dword) : State :=
  let x := s.queue q
  if x.state ≠ 0 then s.ignoreWrite true (0x10000 + 256 * q + 8 * w) else s.setQueue q (x.writeDword w v)

/-- QCTL (18 R333). -/
def State.writeQctl (s : State) (q : Nat) (v : Dword) : State :=
  if bits v 63 4 ≠ 0 then s.ignoreWrite true (0x20000 + 8 * q)
  else
    match bits v 1 0 with
    | 1 => s.enableQueue q
    | 2 => s.endFetching q
    | 3 => s.resumeQueue q
    | _ => s

/-- NQSTAT (18 R333). -/
def State.writeNqstat (s : State) (v : Dword) : State :=
  if bits v 63 32 ≠ 0 ∨ bits v 15 1 ≠ 0 then s.ignoreWrite true 0x20400
  else { s with fe.capOvf := s.fe.capOvf && !v.getLsbD 0 }

/-- A write of BAR2 of the physical function outside the notify aperture. -/
def State.writeBar2 (s : State) (off : Nat) (v : Dword) : State :=
  if 0x10000 ≤ off ∧ off < 0x14000 then s.writeQsb ((off - 0x10000) / 256) (off % 256 / 8) v
  else if 0x20000 ≤ off ∧ off < 0x20200 then s.writeQctl ((off - 0x20000) / 8) v
  else if off = 0x20400 then s.writeNqstat v
  else s

/-- REGISTER_WRITE (R5): 8 bytes at an 8-byte offset. Before STAGE 3 and while frozen a write is ignored and not counted (22 R394; 26 R433;
log 95). -/
def execRegisterWrite (bar off : Nat) (value : Dword) (s : State) : Host.Outcome State Fault Refusal :=
  if !s.barOpen ∨ off % 8 ≠ 0 then .next s
  else if bar = 0 then .next (s.writeBar0 off value)
  else if bar = 2 then .next (s.writeBar2 off value)
  else .next s

/-! ### Reads -/

/-- DBGDAT (21 R386): the selected dword of a frozen slot, else 0. Registers of a firing read 0 while none is in flight; the system registers
read as the slot holds them. Of TRAPI it reads the first dword: the R50 number selects no other (log 62). -/
def State.dbgDat (s : State) : Dword :=
  let v := s.dv.dbgSel
  let idx := bits v 32 20
  let found := s.slots.find? fun ks =>
    ks.2.pl.ctx == bits v 57 52 && ks.2.pl.cti == bits v 51 40 && ks.1 % 8 == bits v 39 37 && ks.2.due.frozen
  match found with
  | none => 0
  | some (_, sl) =>
    let f := sl.firing
    match bits v 36 33 with
    | 0 => if idx < 64 then f.elim 0 (fun f => nth f.r.g idx 0) else 0
    | 1 => if idx < 2048 then f.elim 0 (fun f => BitVec.ofNat 64 (velem (nth f.r.v (idx / 32) 0) 64 (idx % 32))) else 0
    | 2 =>
      if idx < 4096 then
        f.elim 0 (fun f =>
          let a := nth f.r.acc (idx / 1024) Acc.zero
          let lo := nth a.e (2 * (idx % 1024)) 0
          let hi := nth a.e (2 * (idx % 1024) + 1) 0
          BitVec.ofNat 64 (lo.toNat + hi.toNat * 2 ^ 32))
      else 0
    | 3 => if idx = 0 then BitVec.allOnes 64 else if idx < 16 then f.elim 0 (fun f => nth f.r.p idx 0) else 0
    | 4 => BitVec.ofNat 64 (f.elim sl.c (·.r.c)).toNat
    | 5 => if idx < 8 then BitVec.ofNat 64 (nth sl.tl idx { issued := 0, done := 0 }).done else 0
    | 6 => if idx ≤ 0x012 then f.elim (s.sysView sl sl.sys sl.stamp sl.phase sl.rset sl.flga false idx 0) (fun f => s.sysRead sl f idx 0) else 0
    | 7 => BitVec.ofNat 64 (f.elim 0 (·.pc))
    | _ => 0

/-- A byte of the crash region (23 R409). -/
def Crash.byte (c : Crash) (o : Nat) : Byte :=
  let part := fun (l : List Byte) (i : Nat) => (l[i]?).getD (0 : Byte)
  if o < 64 then
    part ([0x43, 0x52, 0x53, 0x48] ++ toBytes 4 c.rsts ++ toBytes 1 c.cause ++ toBytes 1 c.trpn ++ toBytes 1 c.excn ++ [0] ++ toBytes 4 c.errn) o
  else if o < 0x400 then 0
  else if o < 0x800 then
    (c.traps.find ((o - 0x400) / 64)).elim 0 fun r => part (r.toList.flatMap fun d => toBytes 8 d.toNat) ((o - 0x400) % 64)
  else if o < 0x2800 then (c.excs.find ((o - 0x800) / 256)).elim 0 fun l => part l ((o - 0x800) % 256)
  else if o < 0x10000 then (c.errs.find ((o - 0x2800) / 32)).elim 0 fun l => part l ((o - 0x2800) % 32)
  else 0

/-- The value of a port register of the MMU. -/
def MmuPort.word (x : MmuPort) (w : Nat) : Dword :=
  match w with
  | 0 => x.va
  | 1 => x.pa
  | 2 => BitVec.ofNat 64 (bit x.busy * 2 ^ 63 + x.sts % 8 * 2 ^ 60 + x.ctx % 64 * 2 ^ 16 + x.log % 64 * 256)
  | _ => 0

/-- A read of BAR0 at an 8-byte offset: 0 before STAGE 3 except for LHSTS, and while frozen (22 R387, R394; 26 R433). -/
def State.readBar0 (s : State) (off : Nat) : Dword :=
  let j := s.dv.jetty
  let word := fun (n : Nat) => BitVec.ofNat 64 n
  if off = 0x150000 then s.dv.lh.status
  else if !s.barOpen then 0
  else if off = 0x100 then word (s.dv.rsvLast % 2 ^ 26 * 2 ^ 38 + bit s.dv.rsvBar * 2 ^ 37 + s.dv.rsvCnt % 2 ^ 32)
  else if off = 0x108 then word (bit s.dv.pkgLock * 256 + s.dv.pkg % 256)
  else if off = 0x100000 then word (s.al.bypl % 16 * 65536 + bit s.al.recl * 256 + bit s.al.rben)
  else if 0x100100 ≤ off ∧ off < 0x100300 then word ((s.ctx ((off - 0x100100) / 8)).cap % 65536)
  else if off = 0x110000 then word (bit j.lock * 2 ^ 32 + j.wmax % 65536 * 65536 + j.wmin % 65536)
  else if 0x120000 ≤ off ∧ off < 0x120400 then
    let c := s.ctx ((off - 0x120000) / 16)
    if off % 16 = 0 then word (bit c.rootEn * 2 ^ 63 + c.root % 2 ^ 37 * 32768)
    else word (bit c.kip * 2 ^ 32 + c.gen % 2 ^ 20 * 4096 + c.tag % 4096)
  else if 0x130000 ≤ off ∧ off < 0x130040 then (s.mmuPort ((off - 0x130000) / 32)).word (off % 32 / 8)
  else if off = 0x130100 then word (s.mm.fltBase % 2 ^ 40 * 4096 + s.mm.fltLog % 16)
  else if off = 0x130108 then word (s.mm.fltTail % 2 ^ 32 * 2 ^ 32 + s.mm.fltHead % 2 ^ 32)
  else if 0x140000 ≤ off ∧ off < 0x140200 then
    let c := s.ctx ((off - 0x140000) / 8)
    word (bit c.haltDone * 2 + bit c.halted)
  else if off = 0x140400 then s.dv.dbgSel
  else if off = 0x140408 then s.dbgDat
  else if off = 0x150008 then s.dv.lh.policy
  else if off = 0x150010 then s.dv.lh.mansel
  else if 0x160000 ≤ off ∧ off < 0x160400 then
    let c := s.ctx ((off - 0x160000) / 16)
    if off % 16 = 0 then word (c.snapBase % 2 ^ 36 * 65536 + c.snapSize % 65536) else word (bit c.snapRbk * 2 + bit c.snapEn)
  else if off = 0x170000 then s.dv.errInj
  else if off = 0x170008 then s.dv.errAdr
  else if off = 0x170010 then word (j.wpg % 8 * 65536 + bit j.fail * 64 + j.next % 2 * 8 + j.act % 2 * 4)
  else if 0x170100 ≤ off ∧ off < 0x170140 then word (s.dieStatus ((off - 0x170100) / 8) % 4 * 4)
  else if 0x180000 ≤ off ∧ off < 0x190000 then word (ofBytes ((List.range 8).map fun i => s.dv.crash.byte (off - 0x180000 + i)))
  else if 0x1A0000 ≤ off ∧ off < 0x1A4000 then
    let g := s.group ((off - 0x1A0000) / 64)
    let w := off % 64 / 8
    if w = 0 then g.word else if w ≤ 4 then word (g.mbr.toNat / 2 ^ (64 * (w - 1)) % 2 ^ 64) else 0
  else 0

/-- A dword of a queue state block (18 R332). -/
def Queue.dword (x : Queue) (w : Nat) : Dword :=
  let word := fun (n : Nat) => BitVec.ofNat 64 n
  match w with
  | 0 => word x.rbase
  | 1 => word (x.rsize % 2 ^ 32 + x.ctx % 256 * 2 ^ 32 + x.state % 4 * 2 ^ 40)
  | 2 => word x.tshad
  | 3 => word (x.seq % 2 ^ 32 + x.tail % 2 ^ 26 * 2 ^ 32)
  | 4 => word (x.head % 2 ^ 26 + x.done % 2 ^ 32 * 2 ^ 32)
  | 5 => x.err
  | 6 => x.rpos
  | 7 => word (x.rgen % 2 ^ 32)
  | 8 => word x.lord
  | 9 => word x.lage
  | 10 => word (x.lbyp % 256)
  | _ => 0

/-- A read of BAR2 of the physical function at an 8-byte offset; the notify aperture reads 0 (18 R333, R337). -/
def State.readBar2 (s : State) (off : Nat) : Dword :=
  if s.dv.lh.frozen then 0
  else if 0x10000 ≤ off ∧ off < 0x14000 then (s.queue ((off - 0x10000) / 256)).dword (off % 256 / 8)
  else if 0x20000 ≤ off ∧ off < 0x20200 then BitVec.ofNat 64 ((s.queue ((off - 0x20000) / 8)).state % 4 * 4)
  else if off = 0x20400 then BitVec.ofNat 64 (s.fe.disc % 65536 * 65536 + bit s.fe.capOvf)
  else 0

end Sys2Proof.Machine
end

