-- ==== Sys2Proof/Machine/EvHost.lean ====
section
/-! DEFINITION. The host: debug halts, BAR4, the host link, power, resets and boot (21 R383, R384; 22 R387, R389; 23 R398, R412;
26 R426 to R433). -/

namespace Sys2Proof.Machine

/-! ### Debug halts (21 R383, R384) -/

/-- DEBUG_HALT (R383): DBGCTL with HLT 1. -/
def execDebugHalt (ctx : Nat) (s : State) : Host.Outcome State Fault Refusal :=
  .next (if s.barOpen ∧ ctx < 64 then s.writeDbgctl ctx 1 else s)

/-- DEBUG_RELEASE (R383): DBGCTL with HLT 0. -/
def execDebugRelease (ctx : Nat) (s : State) : Host.Outcome State Fault Refusal :=
  .next (if s.barOpen ∧ ctx < 64 then s.writeDbgctl ctx 0 else s)

/-- HALT_STOPPED (R384): every frozen slot of a halted context has stopped. -/
def execHaltStopped (ctx : Nat) (s : State) : Host.Outcome State Fault Refusal :=
  .next (if (s.ctx ctx).halted then s.setCtx ctx { s.ctx ctx with haltDone := true } else s)

/-! ### BAR4 (26 R427, 23 R398) -/

/-- Do bytes lie within BAR4, which shows local HBM from PA 0 up, and is HBM trained? -/
def State.bar4Open (s : State) (off n : Nat) : Bool := s.barOpen && decide (off + n ≤ 2 ^ s.dv.host.bar4Log)

/-- The host sizes BAR4, from 1 GiB to 1 TiB (log 129). -/
def State.sizeBar4 (s : State) (log : Nat) : State := if 30 ≤ log ∧ log ≤ 40 then { s with dv.host.bar4Log := log } else s

/-- A host AtomicOp to BAR4 completes with Unsupported Request (26 R426). -/
def State.bar4Atomic (s : State) (off : Nat) : State := if s.bar4Open off 1 then s.emit (.reply "BAR4 Unsupported Request" []) else s

/-- HOST_BAR4_WRITE (R427): a host write under tag 0x000. -/
def execHostBar4Write (off : Nat) (bytes : List Byte) (s : State) : Host.Outcome State Fault Refusal :=
  .next (if s.bar4Open off bytes.length then s.writeGlobal { tag := 0, gen := 0, unit := hostUnit } false ((bytes.zipIdx).map fun b => (off + b.2, b.1)) else s)

/-- HOST_BAR4_READ (R398): the bytes, with EP where a line is poisoned. -/
def execHostBar4Read (off len : Nat) (s : State) : Host.Outcome State Fault Refusal :=
  if s.bar4Open off len then
    let bad := (List.range len).any fun i => s.mm.poison.contains ((off + i) / 64)
    .next (s.emit (.reply (if bad then "BAR4 data EP" else "BAR4 data") (s.mm.mem.bytes off len)))
  else .next s

/-! ### The host link (26 R426) -/

/-- HOST_LINK_TRAINING (R426): below 128 GT/s or x16 an event is posted. -/
def execHostLinkTraining (rate width : Nat) (s : State) : Host.Outcome State Fault Refusal :=
  if s.dv.host.power ∧ (rate = 128 ∨ rate = 64 ∨ rate = 32) ∧ (width = 16 ∨ width = 8 ∨ width = 4) then
    let s1 := { s with dv.host.rate := rate, dv.host.width := width }
    .next (if (rate < 128 ∨ width < 16) ∧ !s.dv.lh.frozen then s1.report "host link at reduced bandwidth" rate width else s1)
  else .next s

/-! ### Power and fundamental resets (26 R430 to R432) -/

/-- What is due comes to nothing; moves of the outside stay. -/
def keptMoves (l : List Move) : List Move := l.filter fun m => match m with | .due _ => false | _ => true

/-- Tiles after a reset: the spare map stands in fuses (23 R400). -/
def State.spareTiles (s : State) : Tab Tile := s.tiles.map fun (t : Nat × Tile) => (t.1, { Tile.zero with spare := t.2.spare })

/-- The watchdog after a fundamental reset: a locked register keeps its value (log 21). -/
def Jetty.afterReset (j : Jetty) : Jetty := if j.lock then { Jetty.zero with wmin := j.wmin, wmax := j.wmax, lock := true } else Jetty.zero

/-- The Lighthouse after a fundamental reset: ALRM, the freeze, the seed, the fuses, and a locked LHPOL stand. -/
def Lighthouse.afterReset (l : Lighthouse) : Lighthouse :=
  let l1 := { Lighthouse.zero with alrm := l.alrm, erased := l.erased, frozen := l.frozen, fuses := l.fuses, image := l.image, seed := l.seed,
                                     pub := l.pub }
  if l.lock then { l1 with lock := true, reqsig := l.reqsig, clka := l.clka, tmpa := l.tmpa, glta := l.glta } else l1

/-- The part in reset: the model's own fields go on, memory is zeroed only by the boot. -/
def State.inReset (s : State) : State :=
  { State.reset with
    agenda := keptMoves s.agenda, focus := s.focus, freeCtr := s.freeCtr, outbox := s.outbox, nextId := s.nextId, clock := s.clock,
    tiles := s.spareTiles,
    mm.mem := s.mm.mem, mm.poison := s.mm.poison, mm.sram := s.mm.sram, mm.poisonSram := s.mm.poisonSram,
    dv.firmware := s.dv.firmware, dv.host.power := s.dv.host.power, dv.host.perst := true, dv.host.railsBroken := s.dv.host.railsBroken }

/-- A fundamental reset: everything outside the AUX domain. -/
def State.fundamental (s : State) : State :=
  { s.inReset with
    fe.capture := s.fe.capture, fe.gated := s.fe.gated, dv.crash := s.dv.crash, dv.jetty := s.dv.jetty.afterReset,
    dv.lh := s.dv.lh.afterReset }

/-- PERST_ASSERT (R432): the fundamental reset. -/
def execPerstAssert (s : State) : Host.Outcome State Fault Refusal := .next (if s.dv.host.power then s.fundamental else s)

/-- The rails power up or down out of their order: the part is held in fundamental reset until power is lost (R430). -/
def State.railsBreak (s : State) : State :=
  if s.dv.host.power then { s.fundamental with dv.host.railsBroken := true }
  else { s with dv.host.power := true, dv.host.perst := true, dv.host.railsBroken := true }

/-- POWER_LOSS (R432): everything is reset; what lies in host and peer memory stays, and so do the fuses, the firmware slots, and
the seed, or that it is erased. -/
def execPowerLoss (s : State) : Host.Outcome State Fault Refusal :=
  let r := s.inReset
  .next { r with mm.mem := r.mm.mem.filter fun c => !paLocal c.1, mm.poison := r.mm.poison.filter fun l => !paLocal (l * 64),
                 mm.sram := [], mm.poisonSram := [], dv.host.power := false, dv.host.railsBroken := false,
                 dv.lh := { Lighthouse.zero with erased := s.dv.lh.erased, fuses := s.dv.lh.fuses, image := s.dv.lh.image, seed := s.dv.lh.seed,
                                                 pub := s.dv.lh.pub } }

/-- POWER_UP (R430): the rails rise in order, with PERST# asserted. -/
def execPowerUp (s : State) : Host.Outcome State Fault Refusal :=
  .next (if s.dv.host.power then s else { s with dv.host.power := true, dv.host.perst := true })

/-- PERST_DEASSERT (R433): device time starts at 0, and the boot ROM runs, unless the rails broke their order. -/
def execPerstDeassert (s : State) : Host.Outcome State Fault Refusal :=
  .next (if s.dv.host.power ∧ s.dv.host.perst ∧ !s.dv.host.railsBroken then
    { s with dv.host.perst := false, clock := 0, dv.lh.stage := 0 }.later .bootStage else s)

/-! ### Boot (26 R433) -/

/-- The boot slot: of the slots that pass, the one with the higher SVN, slot 0 where they are equal (23 R412). -/
def State.bootSlot (s : State) : Option Nat :=
  match s.fwPasses 0, s.fwPasses 1 with
  | true, true => some (if (s.fw 0).svn < (s.fw 1).svn then 1 else 0)
  | true, false => some 0
  | false, true => some 1
  | false, false => none

/-- The measurements that the boot ROM takes: of itself, the Lighthouse firmware, the fused configuration, and LHPOL where it is locked
(22 R389). -/
def State.bootMeasurements (s : State) : Vector (BitVec 256) 5 :=
  #v[Config.romDigest, s.dv.lh.image.digest, 0, sha256 (Config.fuseBytes Config.vendorKeyHash s.dv.lh.fuses.val s.spareMap),
     if s.dv.lh.lock then sha256 (toBytes 8 s.dv.lh.policy.toNat) else 0]

/-- HBM and tile SRAM zeroed. -/
def State.zeroMemory (s : State) : State :=
  { s with mm.mem := s.mm.mem.filter fun c => !paLocal c.1, mm.poison := s.mm.poison.filter fun l => !paLocal (l * 64),
           mm.sram := [], mm.poisonSram := [] }

/-- Step 1 of the boot: the ROM verifies and measures the Lighthouse firmware, which runs at STAGE 1, or the boot stops (22 R387). -/
def State.bootLighthouse (s : State) : State :=
  { s with dv.lh.meas := s.bootMeasurements, dv.lh.stage := if s.dv.lh.accepts s.dv.lh.image then 1 else 0xF }

/-- Step 2: the Lighthouse firmware verifies both slots and selects the boot slot, whose firmware is measured and runs at STAGE 2, or the boot
stops where none passes (22 R387). -/
def State.bootFirmware (s : State) : State :=
  match s.bootSlot with
  | none => { s with dv.lh.stage := 0xF }
  | some n =>
    { s with dv.lh.stage := 2, dv.lh.meas := s.dv.lh.meas.set 2 (s.fw n).digest, dv.jetty.act := n, dv.jetty.next := n,
             dv.jetty.lastKick := s.clock, dv.jetty.kicked := false }

/-- Does the boot stand still: no power, PERST#, or a freeze? -/
def State.bootHeld (s : State) : Bool := !s.dv.host.power || s.dv.host.perst || s.dv.lh.frozen

/-- One of the stages before the last. -/
def State.bootStep (s : State) : State :=
  if s.bootHeld then s
  else
    match s.dv.lh.stage with
    | 0 => s.bootLighthouse
    | 1 => s.bootFirmware
    | _ => s

/-- The row of a stage: after the first the second is due. -/
def bootStage (s : State) : Host.Outcome State Fault Refusal :=
  .next (if s.dv.lh.stage = 0 then (s.bootStep.later .bootStage) else s.bootStep)

/-- Step 3: the Jetty firmware zeroes HBM and tile SRAM, and retires the tiles that fail the self-test (23 R400). -/
def State.bootJetty (s : State) : State :=
  let fail := fun (s : State) (t : Nat) =>
    (s.setTile t { s.tile t with failures := [s.clock, s.clock, s.clock] }).later (.tileRetirement t)
  { (s.dv.testFailed.foldl fail s.zeroMemory) with dv.testFailed := [], dv.lh.stage := 3 }

/-- BOOT_READY (R433): the part is at STAGE 3, once the stages before have verified, measured and run; where one fails the boot stops at STAGE
0xF (22 R387). -/
def execBootReady (s : State) : Host.Outcome State Fault Refusal :=
  let s1 := s.bootStep.bootStep
  if s1.bootHeld ∨ s1.dv.lh.stage ≠ 2 ∨ s1.dv.jetty.restarting.isSome then .next s1
  else .next (s1.bootJetty.report "ready" s1.dv.jetty.act 0)

/-! ### Function-level resets (26 R432) -/

/-- The queues of some contexts go to STATE 0 at once. -/
def State.dropQueues (s : State) (mine : Nat → Bool) : State :=
  { s with fe.queues := s.fe.queues.map fun (q : Nat × Queue) =>
      if mine q.2.ctx then (q.1, { q.2 with state := 0, packets := [], replay := none, replayOpen := [], faultWait := none }) else q }

/-- PF_FLR (R432): every cove is killed, every queue is at STATE 0, the Jetty core restarts, and RSVWR is cleared. The reset goes on while its
kills run, and what the capture queue holds is discarded (26 R434). -/
def execPfFlr (s : State) : Host.Outcome State Fault Refusal :=
  let coves := ((s.al.ctxs.map fun c => c.2.tag).filter (· != 0)).eraseDups
  let s1 := coves.foldl (fun (s : State) (c : Nat) => s.startKill c []) s
  let s2 := (s1.fe.capture.foldl (fun (s : State) _ => s.discard) (s1.dropQueues fun _ => true)).restartJetty 0
  let mark := fun (x : Kill) => if coves.contains x.cove then { x with flrs := x.flrs ++ [0] } else x
  let s3 : State := { s2 with dv.rsvLast := 0, dv.rsvBar := false, dv.rsvCnt := 0, fe.capture := [], mm.kills := s2.mm.kills.map mark,
                              dv.host.flr := !coves.isEmpty }
  .next (if coves.isEmpty then s3.emit (.notice "FLR complete" 0 0) else s3)

/-- VF_FLR (R432): the cove of context k is killed, its queues are at STATE 0; a kill under way is joined, and the FLR completes
with it. -/
def execVfFlr (vf : Nat) (s : State) : Host.Outcome State Fault Refusal :=
  if vf = 0 ∨ 64 ≤ vf then .next s
  else
    let tag := (s.ctx vf).tag
    let s1 := s.dropQueues fun c => c == vf
    if tag = 0 then .next (s1.emit (.notice "FLR complete" vf 0))
    else
      let s2 := s1.startKill tag []
      .next { s2 with mm.kills := s2.mm.kills.map fun (x : Kill) => if x.cove = tag then { x with flrs := x.flrs ++ [vf] } else x }

end Sys2Proof.Machine
end

