-- ==== Sys2Proof/Machine/Consequence.lean ====
section
/-! DEFINITION. What is due after an earlier step, as the rows of the table give it, and the error that an injection makes
(23 R404, R410). -/

namespace Sys2Proof.Machine

/-- Is a configuration joined to others by arcs between packages (23 R404)? -/
def State.joined (s : State) (cfg : Nat) : List Nat :=
  (s.arcs.filterMap fun x => if x.2.cfg = cfg then x.2.cross else none).eraseDups

/-- A cut that this package has completed: with no joined configuration it is complete; else the other packages are told, and it is
complete when the row comes from outside (23 R404). -/
def State.cutReached (s : State) (cfg : Nat) : Host.Outcome State Fault Refusal :=
  match s.joined cfg with
  | [] => execCutComplete cfg s
  | ps =>
    if (s.cfg cfg).any fun c => c.cuts.any fun r => s.cutDone cfg r then
      .next (ps.foldl (fun (s : State) (p : Nat) => s.toPeer p (.peer p "cut done" cfg ((s.cfg cfg).elim 0 (·.inpr)))) s)
    else .next s

/-- A due row takes place. -/
def runDue (d : DueRow) (s : State) : Host.Outcome State Fault Refusal :=
  match d with
  | .handlerFiringStart k => execHandlerFiringStart k s
  | .jettyPolicyTrap k => execJettyPolicyTrap k s
  | .fallbackFiring k => execFallbackFiring k s
  | .stampedCommit k => execStampedCommit k s
  | .wpArrival n => execWpArrival n [] s
  | .rpMirrorUpdate n => execRpMirrorUpdate n none s
  | .controlEntryDelivery n => execControlEntryDelivery n s
  | .parkedTokenDelivery n => execParkedTokenDelivery n s
  | .cutComplete cfg => s.cutReached cfg
  | .quiescentPoint r => execQuiescentPoint r s
  | .atomicAtHome k => execAtomicAtHome (.own k) s
  | .heldAtomicRelease k => execHeldAtomicRelease k s
  | .awtConditionMet k => execAwtConditionMet k s
  | .enginePiecePerformed c n => execEnginePiecePerformed c n s
  | .engineCommandEnd c => execEngineCommandEnd c s
  | .streamTokenPublish c => execStreamTokenPublish c s
  | .floodComplete c l => execFloodComplete c l s
  | .floodFail c l st => execFloodFail c l st s
  | .ebbComplete c l => execEbbComplete c l s
  | .faultRecordPost => execFaultRecordPost s
  | .invalidationComplete i => execInvalidationComplete i s
  | .migrationCopyComplete p => execMigrationCopyComplete p s
  | .homeGenerationUpdate h c => execHomeGenerationUpdate h c s
  | .killComplete c => execKillComplete c s
  | .packetCompletion q n => execPacketCompletion q n s
  | .queueStopComplete q => execQueueStopComplete q s
  | .reconcilePass => execReconcilePass s
  | .captureQueueDrain => execCaptureQueueDrain s
  | .admission => execAdmission s
  | .runEnd c => .next (if s.runOver c then s.endRun c 0 else s)
  | .compaction ms => execCompaction ms s
  | .moveComplete c => execMoveComplete c s
  | .swapOut c => execSwapOut c s
  | .cloneRelease k => execCloneRelease k s
  | .rebalancerWindow k => execRebalancerWindow k true s
  | .wfiWake k => execWfiWake k s
  | .jettyRestartComplete => execJettyRestartComplete s
  | .tileRetirement t => execTileRetirement t s
  | .retirementComplete t => execRetirementComplete t s
  | .rollbackRequest c => execRollbackRequest c s
  | .haltStopped c => execHaltStopped c s
  | .membershipProbe g e p => execMembershipProbe g e p s
  | .silentError k st => execSilentError k st s
  | .correctedError e => execCorrectedError e s
  | .uncorrectableError e => execUncorrectableError e s
  | .cfgRollback c => .next (s.awaitedRollback c)
  | .dieHandover d => .next (s.dieHandover d)
  | .bootStage => bootStage s
  | .copyLine p => .next (s.copyNext p)

end Sys2Proof.Machine
end

