-- ==== Sys2Proof/Machine/ArcOps.lean ====
section
/-! DEFINITION. The arc instructions (06 R107 to R118). -/

namespace Sys2Proof.Machine

/-- Trap 0x06: the arc, the declared rate and the index (R120). -/
def misuse (out : Bool) (k decl act : Nat) : Stop := arcTrap 0x06 out k decl act

/-- The declared input arc of an instruction with its slot in the consumer's carve, or trap 0x06 (R108, R120). -/
def State.inputArc (s : State) (sl : Slot) (f : Firing) (k i : Nat) : Except Stop Arc :=
  match f.handler, sizeIn sl k, (arcIn sl k).bind s.arc with
  | false, some _, some x => .ok x
  | _, _, _ => .error (misuse false k 0 i)

/-- The token size of a declared output, or trap 0x06 (R109, R120). -/
def outputSize (sl : Slot) (f : Firing) (k i : Nat) : Except Stop Nat :=
  match f.handler, sizeOut sl k with
  | false, some n => .ok n
  | _, _ => .error (misuse true k 0 i)

/-- Output token `i` of a declared output, or trap 0x06. -/
def outputToken (sl : Slot) (f : Firing) (k i : Nat) : Except Stop Nat := do
  let n ← outputSize sl f k i
  if i < rateOut sl f k then return n else throw (misuse true k (rateOut sl f k) i)

/-- rp at firing start of an input, and wp of an output (R107). -/
def Firing.rp (f : Firing) (k : Nat) : Nat := nth f.tk.rpAt k 0

/-- Byte `j` of token `i` of an input. -/
def State.tokenByte (s : State) (x : Arc) (f : Firing) (k i j : Nat) : Byte :=
  match x.consumer with
  | some c => s.mm.sram.byte (s.tokKey x c.1 (cnt (f.rp k + i)) j)
  | none => 0

/-- The first size error of a port is kept (R108). -/
def noteSize {n : Nat} (v : Vector (Option Nat) n) (k b : Nat) : Vector (Option Nat) n :=
  v.setIfInBounds k (some ((nth v k none).getD b))

/-- A high-water mark raised. -/
def raiseTo {n : Nat} (v : Vector Nat n) (k c : Nat) : Vector Nat n := v.setIfInBounds k (max (nth v k 0) c)

/-- The lane that governs byte `j` of a register seen in elements of width `w` (03 R47). -/
def byteLane (w j : Nat) : Nat := if w = 64 then j / 8 * 2 else j / 4

/-- Is byte `j` enabled? -/
def byteOn (pr : Dword) (w j : Nat) : Bool := pr.getLsbD (byteLane w j)

/-- The read of RECV and PEEK (R108): an acquire of the commit that published the token (R119, 07 R129). -/
def State.readToken (s : State) (sl : Slot) (f : Firing) (x : AFields) : Except Stop Firing := do
  let k := x.arc.val
  let i := x.count.toNat
  let a ← s.inputArc sl f k i
  if rateIn sl f k ≤ i then throw (misuse false k (rateIn sl f k) i)
  let f0 := { f with view := f.view.gain (a.carried (cnt (f.rp k + i))) }
  let f1 := if a.poisoned.contains (cnt (f.rp k + i)) then f0.taint else f0
  if x.d.isG then
    let n := x.ty.bytes
    let b := x.off.toNat * n
    if a.size < b + n then
      return { f1 with tk.sizeErrIn := noteSize f.tk.sizeErrIn k b, r := f1.r.writeG x.d 0 }
    else
      let v := ofBytes ((List.range n).map fun j => s.tokenByte a f k i (b + j))
      return { f1 with r := f1.r.writeG x.d (widen x.ty v) }
  else
    let d ← f.r.vecNum x.d
    let b := x.off.toNat * 256
    let on := byteOn (f.r.pr x.pm) x.ty.bits
    let r1 := f1.r.putElems d 8 on fun j => if b + j < a.size then (s.tokenByte a f k i (b + j)).toNat else 0
    return { f1 with r := r1, tk.sizeErrIn := if a.size ≤ b then noteSize f.tk.sizeErrIn k b else f.tk.sizeErrIn }

/-- The key of byte `j` of output token `i` of port `k` in the emission buffer. -/
def emitKey (k i j : Nat) : Nat := k * 2 ^ 24 + i * 2 ^ 16 + j

/-- Bytes of an output token written; later writes stand (R109). -/
def Firing.emitBytes (f : Firing) (k i : Nat) (l : List (Nat × Byte)) : Firing :=
  { f with b.emitted := l.foldl (fun t z => t.put (emitKey k i z.1) z.2) f.b.emitted, tk.sent := raiseTo f.tk.sent k (i + 1) }

/-- EMIT (R109). -/
def Firing.emitPiece (f : Firing) (sl : Slot) (x : AFields) : Except Stop Firing := do
  let k := x.arc.val
  let i := x.count.toNat
  let size ← outputToken sl f k i
  if x.d.isG then
    let n := x.ty.bytes
    let b := x.off.toNat * n
    if size < b + n then return { f.emitBytes k i [] with tk.sizeErrOut := noteSize f.tk.sizeErrOut k b }
    else return f.emitBytes k i ((toBytes n (f.r.readG x.d).toNat).zipIdx.map fun z => (b + z.2, z.1))
  else
    let d ← f.r.vecNum x.d
    let b := x.off.toNat * 256
    if size ≤ b then return { f.emitBytes k i [] with tk.sizeErrOut := noteSize f.tk.sizeErrOut k b }
    else
      let v := vBytes (f.r.v.get d)
      return f.emitBytes k i ((v.zipIdx.filter fun z => byteOn (f.r.pr x.pm) x.ty.bits z.2 && decide (b + z.2 < size)).map
        fun z => (b + z.2, z.1))

/-- EMITS (R111). -/
def State.emitWhole (s : State) (k : Nat) (sl : Slot) (f : Firing) (x : AFields) : Except Stop Firing := do
  let size ← outputToken sl f x.arc.val x.count.toNat
  let a := (f.r.readG x.d).toNat
  if a % 64 ≠ 0 ∨ sl.pl.lim * 64 < a + size then throw (trapInfo 0x09 a)
  let r := s.readLocs f ((List.range size).map fun j => Loc.carve k (a + j))
  return r.2.emitBytes x.arc.val x.count.toNat (r.1.zipIdx.map fun z => (z.2, z.1))

/-- ARCQ (R112). -/
def State.arcQuery (s : State) (sl : Slot) (f : Firing) (x : AFields) : Except Stop Nat := do
  let k := x.arc.val
  let i := x.count.toNat
  let a ← s.inputArc sl f k i
  match x.off.toNat with
  | 0 =>
    if rateIn sl f k ≤ i then throw (misuse false k (rateIn sl f k) i)
    return a.base + (s.tokPlace a (a.consumer.elim 0 (·.1)) (cnt (f.rp k + i))).2 % a.window * a.size
  | 1 => return cntSub a.wpSeen (f.rp k)
  | 2 => return rateIn sl f k
  | 3 => return a.size
  | 4 => return a.window
  | 5 => return nth f.tk.got k 0
  | _ => return f.rp k

/-- A control entry placed on an output (R116). -/
def Firing.place (f : Firing) (k : Nat) (e : Entry) : Firing := { f with b.entries := f.b.entries ++ [(k, e)] }

/-! ### Meanings -/

/-- RECV (R108). -/
def execRecv (x : AFields) (s : State) : Host.Outcome State Fault Refusal :=
  runFiring (.recv x) s fun s _ sl f =>
    (s.readToken sl f x).map fun f => { f with tk.got := raiseTo f.tk.got x.arc.val (x.count.toNat + 1) }

/-- PEEK (R108). -/
def execPeek (x : AFields) (s : State) : Host.Outcome State Fault Refusal :=
  runFiring (.peek x) s fun s _ sl f => s.readToken sl f x

/-- EMIT (R109). -/
def execEmit (x : AFields) (s : State) : Host.Outcome State Fault Refusal :=
  runFiring (.emit x) s fun _ _ sl f => f.emitPiece sl x

/-- EMITS (R111). -/
def execEmits (x : AFields) (s : State) : Host.Outcome State Fault Refusal :=
  runFiring (.emits x) s fun s k sl f => s.emitWhole k sl f x

/-- ARCQ (R112); with q = 0 an acquire (R119). -/
def execArcq (x : AFields) (s : State) : Host.Outcome State Fault Refusal :=
  runFiring (.arcq x) s fun s _ sl f => do
    let v ← s.arcQuery sl f x
    let seen := if x.off = 0 then ((arcIn sl x.arc.val).bind s.arc).elim [] fun a => a.carried (cnt (f.rp x.arc.val + x.count.toNat)) else []
    return { f with r := f.r.writeG x.d (BitVec.ofNat 64 v), view := f.view.gain seen }

/-- SKIP (R113). -/
def execSkip (x : AFields) (s : State) : Host.Outcome State Fault Refusal :=
  runFiring (.skip x) s fun s _ sl f => do
    let k := x.arc.val
    let n := x.count.toNat
    let a ← s.inputArc sl f k n
    if rateIn sl f k < n then throw (misuse false k (rateIn sl f k) n)
    let seen := if n = 0 then [] else a.carried (cnt (f.rp k + n - 1))
    return { f with tk.got := raiseTo f.tk.got k n, view := f.view.gain seen }

/-- MARK (R117). -/
def execMark (x : AFields) (s : State) : Host.Outcome State Fault Refusal :=
  runFiring (.mark x) s fun _ _ sl f => do
    let _ ← outputSize sl f x.arc.val 0
    let v := f.r.readG x.d
    if bits v 63 32 ≠ 0 then throw (trapInfo 0x09 v.toNat)
    return f.place x.arc.val (.marker v.toNat false)

/-- CTOK (R118). -/
def execCtok (x : AFields) (s : State) : Host.Outcome State Fault Refusal :=
  runFiring (.ctok x) s fun _ _ sl f => do
    let _ ← outputSize sl f x.arc.val 0
    return f.place x.arc.val (.user (Fin.ofNat 32 x.count.toNat))

end Sys2Proof.Machine
end

