-- ==== Sys2Proof/Machine/Control.lean ====
section
/-! DEFINITION. Branches, condition bits and the end of a firing (06 R96 to R105). -/

namespace Sys2Proof.Machine

/-- The branch's own index: the firing handed to a meaning has moved on by one. -/
def Firing.own (f : Firing) : Nat := f.pc - 1

/-- A transfer to a target, or trap 0x09 outside the run (R96). -/
def Firing.goto (f : Firing) (sl : Slot) (t : Int) (link : Regs → Regs) : Except Stop Firing :=
  if inRun sl t then .ok { f with pc := t.toNat, r := link f.r } else .error (.trap { code := 0x09, info := BitVec.ofInt 64 t })

/-- The target of a branch (R97). -/
def branchTarget (x : BFields) (f : Firing) : Int := f.own + x.disp.toInt

/-- A register named by a sel field. -/
def selReg (x : BFields) : Fin 64 := x.sel

/-- An absolute transfer (R99): an index of 32,768 or more, or outside the run, traps 0x09. -/
def Firing.jump (f : Firing) (sl : Slot) (t : Nat) (link : Regs → Regs) : Except Stop Firing :=
  if t < 32768 ∧ inRun sl t then .ok { f with pc := t, r := link f.r } else .error (trapInfo 0x09 t)

/-- A condition bit written (R101). -/
def Regs.setC (r : Regs) (k : Nat) (b : Bool) : Regs :=
  { r with c := if b then r.c ||| BitVec.ofNat 32 (2 ^ k) else r.c &&& ~~~(BitVec.ofNat 32 (2 ^ k)) }

/-- CLOG (R102). -/
def Regs.clog (r : Regs) (x : IFields) : Regs :=
  let k := x.imm.toNat % 32
  let j := x.imm.toNat / 32 % 32
  let a := r.c.getLsbD k
  let b := r.c.getLsbD j
  match x.imm.toNat / 1024 % 8 with
  | 0 => r.setC k (a && b)
  | 1 => r.setC k (a || b)
  | 2 => r.setC k (a != b)
  | 3 => r.setC k (a && !b)
  | 4 => r.setC k b
  | 5 => r.setC k (!b)
  | 6 => r.setC k (r.readG x.a != 0)
  | _ => r.writeG x.d (r.c.setWidth 64)

/-! ### Meanings -/

/-- NOP (R100). -/
def execNop (x : RFields) (s : State) : Host.Outcome State Fault Refusal := runRegs (.nop x) s fun r => .ok r

/-- BRA (R97). -/
def execBra (x : BFields) (s : State) : Host.Outcome State Fault Refusal :=
  runFiring (.bra x) s fun _ _ sl f => f.goto sl (branchTarget x f) id

/-- BRC (R97). -/
def execBrc (x : BFields) (s : State) : Host.Outcome State Fault Refusal :=
  runFiring (.brc x) s fun s _ sl f => if s.cond sl f x.sel.val then f.goto sl (branchTarget x f) id else .ok f

/-- BRN (R97). -/
def execBrn (x : BFields) (s : State) : Host.Outcome State Fault Refusal :=
  runFiring (.brn x) s fun s _ sl f => if s.cond sl f x.sel.val then .ok f else f.goto sl (branchTarget x f) id

/-- JMP (R99). -/
def execJmp (x : RFields) (s : State) : Host.Outcome State Fault Refusal :=
  runFiring (.jmp x) s fun _ _ sl f => f.jump sl (f.r.readG x.a).toNat fun r => r.writeG x.d (BitVec.ofNat 64 f.pc)

/-- CALL (R97). -/
def execCall (x : BFields) (s : State) : Host.Outcome State Fault Refusal :=
  runFiring (.call x) s fun _ _ sl f => f.goto sl (branchTarget x f) fun r => r.setG (selReg x) (BitVec.ofNat 64 f.pc)

/-- RET (R99). -/
def execRet (x : RFields) (s : State) : Host.Outcome State Fault Refusal :=
  runFiring (.ret x) s fun _ _ sl f => f.jump sl (f.r.readG x.a).toNat id

/-- LOOP (R98). -/
def execLoop (x : BFields) (s : State) : Host.Outcome State Fault Refusal :=
  runFiring (.loop x) s fun _ _ sl f =>
    let n := f.r.gr (selReg x)
    if n = 0 then .ok f
    else if n = 1 then .ok { f with r := f.r.setG (selReg x) 0 }
    else f.goto sl (branchTarget x f) fun r => r.setG (selReg x) (n - 1)

/-- CSET (R101). -/
def execCset (x : IFields) (s : State) : Host.Outcome State Fault Refusal :=
  runRegs (.cset x) s fun r => .ok (r.setC (x.imm.toNat % 32) true)

/-- CCLR (R101). -/
def execCclr (x : IFields) (s : State) : Host.Outcome State Fault Refusal :=
  runRegs (.cclr x) s fun r => .ok (r.setC (x.imm.toNat % 32) false)

/-- CLOG (R102). -/
def execClog (x : IFields) (s : State) : Host.Outcome State Fault Refusal := runRegs (.clog x) s fun r => .ok (r.clog x)

/-- FEND (R103); in a handler firing it traps 0x0A. -/
def execFend (x : RFields) (s : State) : Host.Outcome State Fault Refusal :=
  runInst (.fend x) s fun s k sl f => if f.handler then .error (.trap { code := 0x0A }) else s.endFiring k sl f .fend

/-- FABT (R105). -/
def execFabt (x : RFields) (s : State) : Host.Outcome State Fault Refusal :=
  runInst (.fabt x) s fun _ _ _ f => .error (.trap { code := 0x14, info := f.r.readG x.a, abt := true })

/-- TRAP (R105). -/
def execTrap (x : IFields) (s : State) : Host.Outcome State Fault Refusal :=
  runInst (.trap x) s fun _ _ _ _ => .error (.trap { code := 0x14, info := x.imm.setWidth 64 })

/-- BRK (R105). -/
def execBrk (x : RFields) (s : State) : Host.Outcome State Fault Refusal :=
  runInst (.brk x) s fun _ _ _ _ => .error (.trap { code := 0x15 })

end Sys2Proof.Machine
end

