-- ==== Sys2Proof/Machine/VectorReduce.lean ====
section
/-! DEFINITION. Reductions, scans and sorting (11 R244 to R248). -/

namespace Sys2Proof.Machine

/-- Comb (R244) on patterns: codes 0 add, 1 min, 2 max, 3 and, 4 or, 5 xor. -/
def combine (t : Ty) (sat : Bool) (c a b : Nat) : Nat × Nat :=
  match c with
  | 0 =>
    if t.isInt then intDeliver t sat (intVal t a + intVal t b)
    else (tyFmt t).result (exactAdd ((tyFmt t).value a) ((tyFmt t).value b) .rne) .rne false 0
  | 1 => minMaxPat t false a b
  | 2 => minMaxPat t true a b
  | 3 => (a &&& b, 0)
  | 4 => (a ||| b, 0)
  | _ => (a ^^^ b, 0)

/-- The identities (R244). -/
def identity (t : Ty) (c : Nat) : Nat :=
  match c with
  | 1 => if t.isInt then intPat t (intMax t) else (tyFmt t).infPat
  | 2 => if t.isInt then intPat t (intMin t) else (tyFmt t).infPat + (tyFmt t).signBit
  | 3 => 2 ^ t.bits - 1
  | _ => 0

/-- Code limit: floats accept 0 to 2 (R244). -/
def reduceLimit (t : Ty) : Nat := if t.isInt then 5 else 2

/-- An element that takes part: a NaN enters as the canonical NaN, so that a result which is a NaN is canonical however many
elements are live (10 R202), a signalling one with its flag (R244). -/
def enter (t : Ty) (a : Nat) : Nat × Nat :=
  if t.isFloat && ((tyFmt t).value a).isNan then
    ((tyFmt t).nan, if ((tyFmt t).value a).isSig then flNV ||| flSN else 0)
  else (a, 0)

/-- A node of the tree: its value and the lowest live element below it; none when nothing below is live. -/
abbrev TreeNode := Option (Nat × Nat)

/-- One level of Tree (R244): pairs combined, with the flags raised and the element they count against. -/
def treeLevel (f : Nat → Nat → Nat × Nat) : List TreeNode → List TreeNode × List (Nat × Nat)
  | a :: b :: t =>
    let r := treeLevel f t
    match a, b with
    | some x, some y => let z := f x.1 y.1; (some (z.1, x.2) :: r.1, (x.2, z.2) :: r.2)
    | some x, none => (some x :: r.1, r.2)
    | none, y => (y :: r.1, r.2)
  | l => (l, [])

/-- Tree (R244) over at most 2^k elements: the value, if an element is live, and the flags raised. -/
def treeFrom (f : Nat → Nat → Nat × Nat) : Nat → List TreeNode → TreeNode × List (Nat × Nat)
  | 0, l => ((l.head?).join, [])
  | k + 1, l =>
    let r := treeLevel f l
    let q := treeFrom f k r.1
    (q.1, r.2 ++ q.2)

/-- Tree over the elements of a register that are live. -/
def treeOf (t : Ty) (sat : Bool) (c : Nat) (a : VReg) (live : Nat → Bool) : Option Nat × List (Nat × Nat) :=
  let leaves := (List.range (elems t.bits)).map fun i => if live i then some ((enter t (velem a t.bits i)).1, i) else none
  let r := treeFrom (combine t sat c) 8 leaves
  (r.1.map (·.1), r.2)

/-- The flags with which enabled elements enter. -/
def enterFlags (t : Ty) (a : VReg) (on : Nat → Bool) : List (Nat × Nat) :=
  ((List.range (elems t.bits)).filter on).map fun i => (i, (enter t (velem a t.bits i)).2)

/-- The running values of VSCAN (R246): for each element to visit, the value written to it; and the flags. -/
def scanFrom (t : Ty) (sat excl : Bool) (c : Nat) (a : VReg) : List Nat → Nat → List (Nat × Nat) × List (Nat × Nat)
  | [], _ => ([], [])
  | i :: rest, run =>
    let z := combine t sat c run (enter t (velem a t.bits i)).1
    let r := scanFrom t sat excl c a rest z.1
    ((i, if excl then run else z.1) :: r.1, (i, z.2) :: r.2)

/-- Values written to listed elements. -/
def Regs.putList (r : Regs) (d : Fin 64) (w : Nat) (l : List (Nat × Nat)) : Regs :=
  r.putElems d w (fun i => l.any fun z => z.1 == i) fun i => ((l.find? fun z => z.1 == i).map (·.2)).getD 0

/-- The first element of the segment that holds element `i` (R247). -/
def segStart (start : Nat → Bool) : Nat → Nat
  | 0 => 0
  | i + 1 => if start (i + 1) then i + 1 else segStart start i

/-- The order of VSORT (R248): does `a` come before `b`? NaNs come last, -0 before +0. -/
def sortsBefore (t : Ty) (desc : Bool) (a b : Nat) : Bool :=
  if t.isInt then (if desc then decide (intVal t b < intVal t a) else decide (intVal t a < intVal t b))
  else
    let x := (tyFmt t).value a
    let y := (tyFmt t).value b
    let less := fun (x y : FVal) => x.lt y || (!y.lt x && x.isNeg && !y.isNeg)
    if x.isNan then false else if y.isNan then true else if desc then less y x else less x y

/-- Stable insertion of element `e` behind every element that does not come after it. -/
def insertSorted (before : Nat → Nat → Bool) (e : Nat) : List Nat → List Nat
  | [] => [e]
  | h :: t => if before e h then e :: h :: t else h :: insertSorted before e t

/-! ### Meanings -/

/-- VRED (R245). -/
def execVred (x : RFields) (s : State) : Host.Outcome State Fault Refusal :=
  runRegs (.vred x) s fun r => do
    let c ← r.code x.c (reduceLimit x.ty)
    let a ← r.vec x.a
    let on := laneOn (r.pmask x.pm) x.ty.bits
    let z := treeOf x.ty x.mods.sat c a on
    let r1 ← r.raise (enterFlags x.ty a on ++ z.2)
    return r1.writeG x.d (widen x.ty (z.1.getD (identity x.ty c)))

/-- VSCAN (R246). -/
def execVscan (x : RFields) (s : State) : Host.Outcome State Fault Refusal :=
  runRegs (.vscan x) s fun r => do
    let c ← r.code x.c (reduceLimit x.ty)
    let d ← r.vecNum x.d
    let a ← r.vec x.a
    let on := laneOn (r.pmask x.pm) x.ty.bits
    let z := scanFrom x.ty x.mods.sat x.mods.w c a ((List.range (elems x.ty.bits)).filter on) (identity x.ty c)
    let r1 ← r.raise (enterFlags x.ty a on ++ z.2)
    return r1.putList d x.ty.bits z.1

/-- VSEG (R247). -/
def execVseg (x : RFields) (s : State) : Host.Outcome State Fault Refusal :=
  runRegs (.vseg x) s fun r => do
    let c ← r.code x.c (reduceLimit x.ty)
    let d ← r.vecNum x.d
    let a ← r.vec x.a
    let w := x.ty.bits
    let on := laneOn (r.pmask x.pm) w
    let seg := segStart (r.selected x.b w)
    let live := (List.range (elems w)).filter on
    let heads := live.foldl (fun l i => addNum l (seg i)) []
    let trees := heads.map fun h => (h, treeOf x.ty x.mods.sat c a fun i => on i && seg i == h)
    let value := fun (i : Nat) => ((trees.find? fun q => q.1 == seg i).bind (·.2.1)).getD 0
    let r1 ← r.raise (enterFlags x.ty a on ++ trees.flatMap (·.2.2))
    return r1.putList d w (live.map fun i => (i, value i))

/-- VSORT (R248). -/
def execVsort (x : RFields) (s : State) : Host.Outcome State Fault Refusal :=
  runRegs (.vsort x) s fun r => do
    let d ← r.vecNum x.d
    let a ← r.vec x.a
    let w := x.ty.bits
    let before := fun (i j : Nat) => sortsBefore x.ty x.mods.w (velem a w i) (velem a w j)
    let order := (r.picked x.b w).foldl (fun l e => insertSorted before e l) []
    return r.move d w x.pm fun j => (order[j]?).getD (2 ^ w - 1)

end Sys2Proof.Machine
end

