-- ==== Sys2Proof/Machine/Dispatch.lean ====
section
/-! DEFINITION. One arm per row of the opcode table: its meaning. -/

namespace Sys2Proof.Machine

def exec (i : Instr) (s : State) : Host.Outcome State Fault Refusal :=
  match i with
  | .nop x => Sys2Proof.Machine.execNop x s
  | .bra x => Sys2Proof.Machine.execBra x s
  | .brc x => Sys2Proof.Machine.execBrc x s
  | .brn x => Sys2Proof.Machine.execBrn x s
  | .jmp x => Sys2Proof.Machine.execJmp x s
  | .call x => Sys2Proof.Machine.execCall x s
  | .ret x => Sys2Proof.Machine.execRet x s
  | .loop x => Sys2Proof.Machine.execLoop x s
  | .cset x => Sys2Proof.Machine.execCset x s
  | .cclr x => Sys2Proof.Machine.execCclr x s
  | .clog x => Sys2Proof.Machine.execClog x s
  | .fend x => Sys2Proof.Machine.execFend x s
  | .fabt x => Sys2Proof.Machine.execFabt x s
  | .trap x => Sys2Proof.Machine.execTrap x s
  | .brk x => Sys2Proof.Machine.execBrk x s
  | .add x => Sys2Proof.Machine.execAdd x s
  | .sub x => Sys2Proof.Machine.execSub x s
  | .mul x => Sys2Proof.Machine.execMul x s
  | .mulh x => Sys2Proof.Machine.execMulh x s
  | .div x => Sys2Proof.Machine.execDiv x s
  | .rem x => Sys2Proof.Machine.execRem x s
  | .and x => Sys2Proof.Machine.execAnd x s
  | .or x => Sys2Proof.Machine.execOr x s
  | .xor x => Sys2Proof.Machine.execXor x s
  | .andn x => Sys2Proof.Machine.execAndn x s
  | .shl x => Sys2Proof.Machine.execShl x s
  | .shr x => Sys2Proof.Machine.execShr x s
  | .sar x => Sys2Proof.Machine.execSar x s
  | .rot x => Sys2Proof.Machine.execRot x s
  | .min x => Sys2Proof.Machine.execMin x s
  | .max x => Sys2Proof.Machine.execMax x s
  | .cmp x => Sys2Proof.Machine.execCmp x s
  | .sel x => Sys2Proof.Machine.execSel x s
  | .clz x => Sys2Proof.Machine.execClz x s
  | .popc x => Sys2Proof.Machine.execPopc x s
  | .bext x => Sys2Proof.Machine.execBext x s
  | .bins x => Sys2Proof.Machine.execBins x s
  | .adds x => Sys2Proof.Machine.execAdds x s
  | .addi x => Sys2Proof.Machine.execAddi x s
  | .andi x => Sys2Proof.Machine.execAndi x s
  | .ori x => Sys2Proof.Machine.execOri x s
  | .xori x => Sys2Proof.Machine.execXori x s
  | .shli x => Sys2Proof.Machine.execShli x s
  | .shri x => Sys2Proof.Machine.execShri x s
  | .sari x => Sys2Proof.Machine.execSari x s
  | .cmpi x => Sys2Proof.Machine.execCmpi x s
  | .lil x => Sys2Proof.Machine.execLil x s
  | .fadd x => Sys2Proof.Machine.execFadd x s
  | .fsub x => Sys2Proof.Machine.execFsub x s
  | .fmul x => Sys2Proof.Machine.execFmul x s
  | .fdiv x => Sys2Proof.Machine.execFdiv x s
  | .fsqrt x => Sys2Proof.Machine.execFsqrt x s
  | .ffma x => Sys2Proof.Machine.execFfma x s
  | .fmin x => Sys2Proof.Machine.execFmin x s
  | .fmax x => Sys2Proof.Machine.execFmax x s
  | .fcmp x => Sys2Proof.Machine.execFcmp x s
  | .fclass x => Sys2Proof.Machine.execFclass x s
  | .fcvt x => Sys2Proof.Machine.execFcvt x s
  | .fsgn x => Sys2Proof.Machine.execFsgn x s
  | .fmvi x => Sys2Proof.Machine.execFmvi x s
  | .frnd x => Sys2Proof.Machine.execFrnd x s
  | .fscl x => Sys2Proof.Machine.execFscl x s
  | .fflg x => Sys2Proof.Machine.execFflg x s
  | .vadd x => Sys2Proof.Machine.execVadd x s
  | .vsub x => Sys2Proof.Machine.execVsub x s
  | .vmul x => Sys2Proof.Machine.execVmul x s
  | .vfma x => Sys2Proof.Machine.execVfma x s
  | .vdiv x => Sys2Proof.Machine.execVdiv x s
  | .vsqrt x => Sys2Proof.Machine.execVsqrt x s
  | .vrcp x => Sys2Proof.Machine.execVrcp x s
  | .vrsq x => Sys2Proof.Machine.execVrsq x s
  | .vmin x => Sys2Proof.Machine.execVmin x s
  | .vmax x => Sys2Proof.Machine.execVmax x s
  | .vabs x => Sys2Proof.Machine.execVabs x s
  | .vneg x => Sys2Proof.Machine.execVneg x s
  | .vand x => Sys2Proof.Machine.execVand x s
  | .vor x => Sys2Proof.Machine.execVor x s
  | .vxor x => Sys2Proof.Machine.execVxor x s
  | .vshl x => Sys2Proof.Machine.execVshl x s
  | .vshr x => Sys2Proof.Machine.execVshr x s
  | .vsar x => Sys2Proof.Machine.execVsar x s
  | .vcmp x => Sys2Proof.Machine.execVcmp x s
  | .vsel x => Sys2Proof.Machine.execVsel x s
  | .vcvt x => Sys2Proof.Machine.execVcvt x s
  | .vexp2 x => Sys2Proof.Machine.execVexp2 x s
  | .vlog2 x => Sys2Proof.Machine.execVlog2 x s
  | .vscl x => Sys2Proof.Machine.execVscl x s
  | .vclass x => Sys2Proof.Machine.execVclass x s
  | .vadds x => Sys2Proof.Machine.execVadds x s
  | .vsubs x => Sys2Proof.Machine.execVsubs x s
  | .vmulh x => Sys2Proof.Machine.execVmulh x s
  | .vdot x => Sys2Proof.Machine.execVdot x s
  | .vaddi x => Sys2Proof.Machine.execVaddi x s
  | .vmuli x => Sys2Proof.Machine.execVmuli x s
  | .vbcst x => Sys2Proof.Machine.execVbcst x s
  | .vext x => Sys2Proof.Machine.execVext x s
  | .vins x => Sys2Proof.Machine.execVins x s
  | .vidx x => Sys2Proof.Machine.execVidx x s
  | .vred x => Sys2Proof.Machine.execVred x s
  | .vscan x => Sys2Proof.Machine.execVscan x s
  | .vperm x => Sys2Proof.Machine.execVperm x s
  | .vshuf x => Sys2Proof.Machine.execVshuf x s
  | .vcmpr x => Sys2Proof.Machine.execVcmpr x s
  | .vexpn x => Sys2Proof.Machine.execVexpn x s
  | .vpcnt x => Sys2Proof.Machine.execVpcnt x s
  | .plog x => Sys2Proof.Machine.execPlog x s
  | .vqnt x => Sys2Proof.Machine.execVqnt x s
  | .vdqt x => Sys2Proof.Machine.execVdqt x s
  | .vsort x => Sys2Proof.Machine.execVsort x s
  | .vseg x => Sys2Proof.Machine.execVseg x s
  | .vmov x => Sys2Proof.Machine.execVmov x s
  | .mma x => Sys2Proof.Machine.execMma x s
  | .mmag x => Sys2Proof.Machine.execMmag x s
  | .mmt x => Sys2Proof.Machine.execMmt x s
  | .mrec x => Sys2Proof.Machine.execMrec x s
  | .mzero x => Sys2Proof.Machine.execMzero x s
  | .mlda x => Sys2Proof.Machine.execMlda x s
  | .msta x => Sys2Proof.Machine.execMsta x s
  | .mscl x => Sys2Proof.Machine.execMscl x s
  | .msplt x => Sys2Proof.Machine.execMsplt x s
  | .mjoin x => Sys2Proof.Machine.execMjoin x s
  | .mtsw x => Sys2Proof.Machine.execMtsw x s
  | .mtst x => Sys2Proof.Machine.execMtst x s
  | .mpert x => Sys2Proof.Machine.execMpert x s
  | .mchk x => Sys2Proof.Machine.execMchk x s
  | .mtov x => Sys2Proof.Machine.execMtov x s
  | .mfrv x => Sys2Proof.Machine.execMfrv x s
  | .ld x => Sys2Proof.Machine.execLd x s
  | .st x => Sys2Proof.Machine.execSt x s
  | .ldaq x => Sys2Proof.Machine.execLdaq x s
  | .strl x => Sys2Proof.Machine.execStrl x s
  | .vld x => Sys2Proof.Machine.execVld x s
  | .vst x => Sys2Proof.Machine.execVst x s
  | .vlds x => Sys2Proof.Machine.execVlds x s
  | .vsts x => Sys2Proof.Machine.execVsts x s
  | .vgth x => Sys2Proof.Machine.execVgth x s
  | .vsct x => Sys2Proof.Machine.execVsct x s
  | .wld x => Sys2Proof.Machine.execWld x s
  | .wst x => Sys2Proof.Machine.execWst x s
  | .pref x => Sys2Proof.Machine.execPref x s
  | .cinv x => Sys2Proof.Machine.execCinv x s
  | .cwb x => Sys2Proof.Machine.execCwb x s
  | .ldnt x => Sys2Proof.Machine.execLdnt x s
  | .recv x => Sys2Proof.Machine.execRecv x s
  | .peek x => Sys2Proof.Machine.execPeek x s
  | .emit x => Sys2Proof.Machine.execEmit x s
  | .emits x => Sys2Proof.Machine.execEmits x s
  | .arcq x => Sys2Proof.Machine.execArcq x s
  | .skip x => Sys2Proof.Machine.execSkip x s
  | .mark x => Sys2Proof.Machine.execMark x s
  | .ctok x => Sys2Proof.Machine.execCtok x s
  | .aadd x => Sys2Proof.Machine.execAadd x s
  | .amin x => Sys2Proof.Machine.execAmin x s
  | .amax x => Sys2Proof.Machine.execAmax x s
  | .aand x => Sys2Proof.Machine.execAand x s
  | .aor x => Sys2Proof.Machine.execAor x s
  | .axor x => Sys2Proof.Machine.execAxor x s
  | .aswp x => Sys2Proof.Machine.execAswp x s
  | .acas x => Sys2Proof.Machine.execAcas x s
  | .aincb x => Sys2Proof.Machine.execAincb x s
  | .adecb x => Sys2Proof.Machine.execAdecb x s
  | .afadd x => Sys2Proof.Machine.execAfadd x s
  | .afmin x => Sys2Proof.Machine.execAfmin x s
  | .afmax x => Sys2Proof.Machine.execAfmax x s
  | .ared x => Sys2Proof.Machine.execAred x s
  | .awt x => Sys2Proof.Machine.execAwt x s
  | .arty x => Sys2Proof.Machine.execArty x s
  | .fence x => Sys2Proof.Machine.execFence x s
  | .tlwait x => Sys2Proof.Machine.execTlwait x s
  | .tlrd x => Sys2Proof.Machine.execTlrd x s
  | .tladv x => Sys2Proof.Machine.execTladv x s
  | .barinit x => Sys2Proof.Machine.execBarinit x s
  | .baradd x => Sys2Proof.Machine.execBaradd x s
  | .barsub x => Sys2Proof.Machine.execBarsub x s
  | .barwait x => Sys2Proof.Machine.execBarwait x s
  | .barrd x => Sys2Proof.Machine.execBarrd x s
  | .barfree x => Sys2Proof.Machine.execBarfree x s
  | .gbara x => Sys2Proof.Machine.execGbara x s
  | .gbarw x => Sys2Proof.Machine.execGbarw x s
  | .sleep x => Sys2Proof.Machine.execSleep x s
  | .time x => Sys2Proof.Machine.execTime x s
  | .evsig x => Sys2Proof.Machine.execEvsig x s
  | .stmp x => Sys2Proof.Machine.execStmp x s
  | .cpy x => Sys2Proof.Machine.execCpy x s
  | .cpyt x => Sys2Proof.Machine.execCpyt x s
  | .cpyxGather x => Sys2Proof.Machine.execCpyxGather x s
  | .cpyxScatter x => Sys2Proof.Machine.execCpyxScatter x s
  | .cpys x => Sys2Proof.Machine.execCpys x s
  | .cpyq x => Sys2Proof.Machine.execCpyq x s
  | .cpyk x => Sys2Proof.Machine.execCpyk x s
  | .cpyb x => Sys2Proof.Machine.execCpyb x s
  | .strm x => Sys2Proof.Machine.execStrm x s
  | .strmq x => Sys2Proof.Machine.execStrmq x s
  | .strmk x => Sys2Proof.Machine.execStrmk x s
  | .coll x => Sys2Proof.Machine.execColl x s
  | .collq x => Sys2Proof.Machine.execCollq x s
  | .collk x => Sys2Proof.Machine.execCollk x s
  | .fill x => Sys2Proof.Machine.execFill x s
  | .csum x => Sys2Proof.Machine.execCsum x s
  | .xferPin x => Sys2Proof.Machine.execXferPin x s
  | .xferUnpin x => Sys2Proof.Machine.execXferUnpin x s
  | .xferCopyPin x => Sys2Proof.Machine.execXferCopyPin x s
  | .flood x => Sys2Proof.Machine.execFlood x s
  | .ebb x => Sys2Proof.Machine.execEbb x s
  | .tidew x => Sys2Proof.Machine.execTidew x s
  | .tideq x => Sys2Proof.Machine.execTideq x s
  | .evcl x => Sys2Proof.Machine.execEvcl x s
  | .mode x => Sys2Proof.Machine.execMode x s
  | .modeq x => Sys2Proof.Machine.execModeq x s
  | .sbeg x => Sys2Proof.Machine.execSbeg x s
  | .sres x => Sys2Proof.Machine.execSres x s
  | .sfall x => Sys2Proof.Machine.execSfall x s
  | .chkerr x => Sys2Proof.Machine.execChkerr x s
  | .flgt x => Sys2Proof.Machine.execFlgt x s
  | .mfsr x => Sys2Proof.Machine.execMfsr x s
  | .mtsr x => Sys2Proof.Machine.execMtsr x s
  | .syscOrd x => Sys2Proof.Machine.execSyscOrd x s
  | .syscEpoch x => Sys2Proof.Machine.execSyscEpoch x s
  | .syscPinq x => Sys2Proof.Machine.execSyscPinq x s
  | .sret x => Sys2Proof.Machine.execSret x s
  | .sretSkip x => Sys2Proof.Machine.execSretSkip x s
  | .sretEsc x => Sys2Proof.Machine.execSretEsc x s
  | .tlbi x => Sys2Proof.Machine.execTlbi x s
  | .xlat x => Sys2Proof.Machine.execXlat x s
  | .halt x => Sys2Proof.Machine.execHalt x s
  | .haltRel x => Sys2Proof.Machine.execHaltRel x s
  | .dstep x => Sys2Proof.Machine.execDstep x s
  | .prio x => Sys2Proof.Machine.execPrio x s
  | .ordl x => Sys2Proof.Machine.execOrdl x s
  | .ordlDrop x => Sys2Proof.Machine.execOrdlDrop x s
  | .ordlStat x => Sys2Proof.Machine.execOrdlStat x s
  | .wfi x => Sys2Proof.Machine.execWfi x s
  | .exit x => Sys2Proof.Machine.execExit x s
  | .cmpt x => Sys2Proof.Machine.execCmpt x s
  | .firingStart tile => Sys2Proof.Machine.execFiringStart tile s
  | .parkedFiringResume tile => Sys2Proof.Machine.execParkedFiringResume tile s
  | .preEmption tile => Sys2Proof.Machine.execPreEmption tile s
  | .handlerFiringStart k => Sys2Proof.Machine.execHandlerFiringStart k s
  | .fallbackFiring k => Sys2Proof.Machine.execFallbackFiring k s
  | .stampedCommit k => Sys2Proof.Machine.execStampedCommit k s
  | .firingOverrun k => Sys2Proof.Machine.execFiringOverrun k s
  | .drawWindowEnd tile => Sys2Proof.Machine.execDrawWindowEnd tile s
  | .grinderChunk k => Sys2Proof.Machine.execGrinderChunk k s
  | .wpArrival arc carried => Sys2Proof.Machine.execWpArrival arc carried s
  | .rpMirrorUpdate arc peerRp => Sys2Proof.Machine.execRpMirrorUpdate arc peerRp s
  | .controlEntryDelivery arc => Sys2Proof.Machine.execControlEntryDelivery arc s
  | .cutComplete cfg => Sys2Proof.Machine.execCutComplete cfg s
  | .quiescentPoint region => Sys2Proof.Machine.execQuiescentPoint region s
  | .drainTimeout region => Sys2Proof.Machine.execDrainTimeout region s
  | .generationWaitTimeout region => Sys2Proof.Machine.execGenerationWaitTimeout region s
  | .parkedTokenDelivery arc => Sys2Proof.Machine.execParkedTokenDelivery arc s
  | .atomicAtHome r => Sys2Proof.Machine.execAtomicAtHome r s
  | .heldAtomicRelease k => Sys2Proof.Machine.execHeldAtomicRelease k s
  | .awtConditionMet k => Sys2Proof.Machine.execAwtConditionMet k s
  | .remoteAtomicTimeout k => Sys2Proof.Machine.execRemoteAtomicTimeout k s
  | .enginePiecePerformed cmd bytes => Sys2Proof.Machine.execEnginePiecePerformed cmd bytes s
  | .engineCommandEnd cmd => Sys2Proof.Machine.execEngineCommandEnd cmd s
  | .streamTokenPublish stream => Sys2Proof.Machine.execStreamTokenPublish stream s
  | .collRoundInput cmd data => Sys2Proof.Machine.execCollRoundInput cmd data s
  | .roundTimeout cmd => Sys2Proof.Machine.execRoundTimeout cmd s
  | .membershipProbe group epoch starter => Sys2Proof.Machine.execMembershipProbe group epoch starter s
  | .probeDeadline group answered => Sys2Proof.Machine.execProbeDeadline group answered s
  | .newMembership group epoch mbr => Sys2Proof.Machine.execNewMembership group epoch mbr s
  | .floodComplete ctx layer => Sys2Proof.Machine.execFloodComplete ctx layer s
  | .floodFail ctx layer status => Sys2Proof.Machine.execFloodFail ctx layer status s
  | .ebbComplete ctx layer => Sys2Proof.Machine.execEbbComplete ctx layer s
  | .faultRecordPost => Sys2Proof.Machine.execFaultRecordPost s
  | .faultServed token => Sys2Proof.Machine.execFaultServed token s
  | .faultFail token => Sys2Proof.Machine.execFaultFail token s
  | .atsInvalidation pa log => Sys2Proof.Machine.execAtsInvalidation pa log s
  | .mmuInvalidate port value => Sys2Proof.Machine.execMmuInvalidate port value s
  | .mmuMigrate port value => Sys2Proof.Machine.execMmuMigrate port value s
  | .invalidationComplete id => Sys2Proof.Machine.execInvalidationComplete id s
  | .settleWindowEnd ctx vpg => Sys2Proof.Machine.execSettleWindowEnd ctx vpg s
  | .homeGenerationUpdate home cove => Sys2Proof.Machine.execHomeGenerationUpdate home cove s
  | .killComplete cove => Sys2Proof.Machine.execKillComplete cove s
  | .peerKillMessage pkg cove ctx gen => Sys2Proof.Machine.execPeerKillMessage pkg cove ctx gen s
  | .tailWrite fn off size value => Sys2Proof.Machine.execTailWrite fn off size value s
  | .reconcilePass => Sys2Proof.Machine.execReconcilePass s
  | .captureQueueDrain => Sys2Proof.Machine.execCaptureQueueDrain s
  | .packetFetch q => Sys2Proof.Machine.execPacketFetch q s
  | .sliceExpiry => Sys2Proof.Machine.execSliceExpiry s
  | .packetCompletion q n => Sys2Proof.Machine.execPacketCompletion q n s
  | .waitTimeout q => Sys2Proof.Machine.execWaitTimeout q s
  | .launch q => Sys2Proof.Machine.execLaunch q s
  | .slaunch q => Sys2Proof.Machine.execSlaunch q s
  | .delta q => Sys2Proof.Machine.execDelta q s
  | .wrsig q => Sys2Proof.Machine.execWrsig q s
  | .wait q => Sys2Proof.Machine.execWait q s
  | .detset q => Sys2Proof.Machine.execDetset q s
  | .replay q => Sys2Proof.Machine.execReplay q s
  | .patch q => Sys2Proof.Machine.execPatch q s
  | .fencePacket q => Sys2Proof.Machine.execFencePacket q s
  | .floodh q => Sys2Proof.Machine.execFloodh q s
  | .kill q => Sys2Proof.Machine.execKill q s
  | .queueEnable q => Sys2Proof.Machine.execQueueEnable q s
  | .queueStop q => Sys2Proof.Machine.execQueueStop q s
  | .queueResume q => Sys2Proof.Machine.execQueueResume q s
  | .queueStopComplete q => Sys2Proof.Machine.execQueueStopComplete q s
  | .admission => Sys2Proof.Machine.execAdmission s
  | .compaction moves => Sys2Proof.Machine.execCompaction moves s
  | .moveComplete cfg => Sys2Proof.Machine.execMoveComplete cfg s
  | .swapOut cfg => Sys2Proof.Machine.execSwapOut cfg s
  | .deadlineExpiry cfg => Sys2Proof.Machine.execDeadlineExpiry cfg s
  | .rebalancerWindow k host => Sys2Proof.Machine.execRebalancerWindow k host s
  | .cloneRelease k => Sys2Proof.Machine.execCloneRelease k s
  | .wfiWake k => Sys2Proof.Machine.execWfiWake k s
  | .jettyPolicyTrap k => Sys2Proof.Machine.execJettyPolicyTrap k s
  | .watchdogKick => Sys2Proof.Machine.execWatchdogKick s
  | .watchdogExpiry => Sys2Proof.Machine.execWatchdogExpiry s
  | .firmwareException record => Sys2Proof.Machine.execFirmwareException record s
  | .jettyRestartComplete => Sys2Proof.Machine.execJettyRestartComplete s
  | .jfwselGo value => Sys2Proof.Machine.execJfwselGo value s
  | .firmwareWindowWrite off bytes => Sys2Proof.Machine.execFirmwareWindowWrite off bytes s
  | .rollbackRequest ctx => Sys2Proof.Machine.execRollbackRequest ctx s
  | .dieDrainResetReturn die => Sys2Proof.Machine.execDieDrainResetReturn die s
  | .dieDrainHold die => Sys2Proof.Machine.execDieDrainHold die s
  | .dieReturn die => Sys2Proof.Machine.execDieReturn die s
  | .dieResetComplete die failed dieFailed => Sys2Proof.Machine.execDieResetComplete die failed dieFailed s
  | .errorInject inj adr => Sys2Proof.Machine.execErrorInject inj adr s
  | .silentError k site => Sys2Proof.Machine.execSilentError k site s
  | .correctedError e => Sys2Proof.Machine.execCorrectedError e s
  | .uncorrectableError e => Sys2Proof.Machine.execUncorrectableError e s
  | .dieCrcFailure e tries => Sys2Proof.Machine.execDieCrcFailure e tries s
  | .tileRetirement tile => Sys2Proof.Machine.execTileRetirement tile s
  | .linkTraining link peer peerLocked => Sys2Proof.Machine.execLinkTraining link peer peerLocked s
  | .linkRetrain link lanes => Sys2Proof.Machine.execLinkRetrain link lanes s
  | .linkWidthRetry link => Sys2Proof.Machine.execLinkWidthRetry link s
  | .pathDownTimeout pkg => Sys2Proof.Machine.execPathDownTimeout pkg s
  | .pathRestored pkg => Sys2Proof.Machine.execPathRestored pkg s
  | .collgrpWrite off value => Sys2Proof.Machine.execCollgrpWrite off value s
  | .sensorTrip sensor => Sys2Proof.Machine.execSensorTrip sensor s
  | .getVersion => Sys2Proof.Machine.execGetVersion s
  | .getCapabilities => Sys2Proof.Machine.execGetCapabilities s
  | .negotiateAlgorithms => Sys2Proof.Machine.execNegotiateAlgorithms s
  | .getDigests => Sys2Proof.Machine.execGetDigests s
  | .getCertificate => Sys2Proof.Machine.execGetCertificate s
  | .challenge nonce => Sys2Proof.Machine.execChallenge nonce s
  | .getMeasurements index signed => Sys2Proof.Machine.execGetMeasurements index signed s
  | .pldmMonitorRequest => Sys2Proof.Machine.execPldmMonitorRequest s
  | .debugHalt ctx => Sys2Proof.Machine.execDebugHalt ctx s
  | .debugRelease ctx => Sys2Proof.Machine.execDebugRelease ctx s
  | .haltStopped ctx => Sys2Proof.Machine.execHaltStopped ctx s
  | .hostBar4Write off bytes => Sys2Proof.Machine.execHostBar4Write off bytes s
  | .hostBar4Read off len => Sys2Proof.Machine.execHostBar4Read off len s
  | .registerWrite bar off value => Sys2Proof.Machine.execRegisterWrite bar off value s
  | .powerUp => Sys2Proof.Machine.execPowerUp s
  | .powerLoss => Sys2Proof.Machine.execPowerLoss s
  | .perstAssert => Sys2Proof.Machine.execPerstAssert s
  | .perstDeassert => Sys2Proof.Machine.execPerstDeassert s
  | .bootReady => Sys2Proof.Machine.execBootReady s
  | .pfFlr => Sys2Proof.Machine.execPfFlr s
  | .vfFlr vf => Sys2Proof.Machine.execVfFlr vf s
  | .linkRetrainComplete link lanes => Sys2Proof.Machine.execLinkRetrainComplete link lanes s
  | .peerWrite pkg cove gen pa bytes => Sys2Proof.Machine.execPeerWrite pkg cove gen pa bytes s
  | .hostLinkTraining rate width => Sys2Proof.Machine.execHostLinkTraining rate width s
  | .pageRequestResponse id frame => Sys2Proof.Machine.execPageRequestResponse id frame s
  | .ideKmRequest stream key => Sys2Proof.Machine.execIdeKmRequest stream key s
  | .mctpControlMessage => Sys2Proof.Machine.execMctpControlMessage s
  | .signingComplete => Sys2Proof.Machine.execSigningComplete s
  | .retirementComplete tile => Sys2Proof.Machine.execRetirementComplete tile s
  | .levelChangeTimeout region => Sys2Proof.Machine.execLevelChangeTimeout region s
  | .migrationCopyComplete port => Sys2Proof.Machine.execMigrationCopyComplete port s

end Sys2Proof.Machine
end

