-- ==== Sys2Proof/Machine/Sequence.lean ====
section
/-! DEFINITION. Which agent moves next and what its move is: the fetch of an instruction (04 R61, R62; 06 R96), the debug step
(21 R385), the passing of time (02 R31, R38; 21 R384), TLB fills (20 R356), and what the part does of its own accord. -/

namespace Sys2Proof.Machine

/-! ### The core of a tile -/

/-- The word at an instruction index of a tile; a word that no image fills is zero (04 R61). -/
def State.fetch (s : State) (tile pc : Nat) : Dword := (s.store.find (tile * 32768 + pc)).getD 0

/-- An atomic that was performed ahead of earlier accesses takes its result when its index comes up (07 R137). -/
def State.inOrder (s : State) (k : Nat) (sl : Slot) (f : Firing) : State :=
  match f.ahead.find? fun x => x.1 == f.pc with
  | some x =>
    s.putFiring k sl { f with request := some x.2, ahead := f.ahead.filter fun y => y.1 != f.pc,
                              ordinals := f.ordinals.put x.2.site ((f.ordinals.find x.2.site).getD 0 + 1) }
  | none => s

/-- R62 and R96 for the firing of slot `k` that runs on the tile in focus: beyond the run trap 0x09, a word that does not decode its
trap, and else the instruction. -/
def State.runAt (s : State) (k : Nat) (sl : Slot) (f : Firing) : Host.Outcome State Fault Refusal :=
  if !inRun sl f.pc then .next (s.takeTrap k { code := 0x09, info := BitVec.ofNat 64 f.pc })
  else
    let w := s.fetch s.focus f.pc
    match decode w with
    | .error e => .next (s.takeTrap k { code := e.code, info := w })
    | .ok i => exec i (s.inOrder k sl f)

/-! ### Injected errors (23 R410) -/

/-- A slot whose commit buffer and spill carve hold nothing. -/
def State.unbuffered (s : State) (k : Nat) : State :=
  s.updSlot k fun sl => { sl with spill := [], firing := sl.firing.map fun f => { f with b := { f.b with gbuf := [], sbuf := [], lines := [] } } }

/-- Does a slot's firing hold stores of its own, or does its spill carve the armed line? -/
def State.holdsStores (s : State) (k : Nat) : Bool :=
  (s.slot k).any fun sl =>
    if s.armedAt 5 (tileOf k) then sl.spill.any fun c => c.1 / 64 == s.dv.errAdr.toNat / 64
    else sl.firing.any fun f => !f.b.gbuf.isEmpty || !f.b.sbuf.isEmpty

/-- An instruction that stores strikes an injection armed at the commit buffer, at its tags, or at the line of the spill carve that it writes:
seen on a slot that held nothing before. -/
def State.storeStruck (s : State) (k : Nat) (run : State → Host.Outcome State Fault Refusal) : Bool :=
  (s.armedAt 3 (tileOf k) || s.armedAt 5 (tileOf k) || s.armedAt 9 (tileOf k)) &&
    match run (s.unbuffered k) with
    | .next u => u.holdsStores k
    | _ => false

/-- The next instruction of the firing of slot `k`, with an injection that it meets: one at site 1 corrupts it, beyond correction before it
has any effect; the rest is noted for `State.inject`. -/
def State.runStruck (s : State) (k : Nat) (run : State → Host.Outcome State Fault Refusal) : Host.Outcome State Fault Refusal :=
  if s.opStruck (tileOf k) then .next (s.makeError k (s.slotCove k))
  else
    match run s with
    | .next u =>
      if s.armedAt 1 (tileOf k) ∧ u.dv.errInj = s.dv.errInj then .next (u.makeError k (s.slotCove k))
      else .next (if s.storeStruck k run ∧ u.dv.errInj = s.dv.errInj then { u with dv.hit := some k } else u)
    | o => o

/-- An outcome with an armed injection made. -/
def withInjection (old : State) : Host.Outcome State Fault Refusal → Host.Outcome State Fault Refusal
  | .next s => .next (State.inject old s)
  | o => o

/-- A step of the core of the tile in focus: it selects a firing when it is free; a firing that has run too long overruns (02 R31);
at a boundary it may give way (16 R295); else it executes its next instruction. -/
def State.coreHere (s : State) : Host.Outcome State Fault Refusal :=
  match s.current with
  | none =>
    let s1 := s.noteReady s.focus
    match (s.tile s.focus).running, s1.select s.focus with
    | none, some (i, starved) => .next (s1.dispatch (s.focus * 8 + i) starved)
    | _, _ => .next s
  | some (k, sl, f) =>
    if sl.pl.actor.len < f.ran then execFiringOverrun k s
    else if (s.givesWay s.focus).isSome then execPreEmption s.focus s
    else s.runStruck k fun u => (u.current).elim (.next u) fun c => u.runAt c.1 c.2.1 c.2.2

/-- A step of the core of a tile. -/
def State.coreStep (s : State) (tile : Nat) : Host.Outcome State Fault Refusal :=
  let s1 := { s with focus := tile }
  withInjection s1 s1.coreHere

/-! ### An atomic ahead of earlier accesses (07 R130, R137) -/

/-- The bytes of an access to global memory, by physical address. -/
def State.bytesAt (s : State) (ctx va n : Nat) : List Nat :=
  (List.range n).filterMap fun i => match s.translate ctx (va + i) false with | .ok t => some t.pa | .error _ => none

/-- The fields of an atomic without an order suffix, with its opcode; ARTY and AWT are none. -/
def plainAtomic (i : Instr) : Option (Nat × AtomFields) :=
  match i.parts with
  | some (op, .atom x) => if op ≤ 0xA5 ∧ x.order = .relaxed then some (op, x) else none
  | _ => none

/-- What an access that an atomic may pass reads and writes: registers read, register written, and bytes; none for another instruction. -/
def State.plainAccess (s : State) (k : Nat) (sl : Slot) (f : Firing) (i : Instr) : Option (List Reg × List Reg × List Nat) :=
  let bytes := fun (x : MFields) =>
    match s.accessLocs k sl f x.sp (f.r.ea x) x.ty.bytes false with
    | .ok ls => ls.filterMap fun l => match l with | .glob pa _ => some pa | .carve _ _ => none
    | .error _ => []
  match i with
  | .ld x => some ([x.base, x.index], [x.d], bytes x)
  | .st x => some ([x.d, x.base, x.index], [], bytes x)
  | _ => (plainAtomic i).map fun p =>
    ([p.2.a, p.2.b, p.2.c], [p.2.d], s.bytesAt sl.pl.ctx (f.r.readG p.2.a).toNat p.2.ty.bytes)

/-- Does an access go through where it stands: it neither traps nor waits? -/
def State.goesThrough (s : State) (k : Nat) (sl : Slot) (f : Firing) (i : Instr) : Bool :=
  match plainAtomic i with
  | some (op, x) => match s.atomicAddress sl f op x with | .ok _ => true | .error _ => false
  | none =>
    match exec i (s.putFiring k sl f) with
    | .next u => (u.current).any fun c => c.1 == k && c.2.2.pc == f.pc + 1
    | _ => false

/-- The firing past so many accesses, with the registers that they write, none of which an atomic with some operands and bytes follows: it
reads none of those registers and touches none of their bytes. -/
def State.passes (s : State) (k : Nat) (sl : Slot) (regs : List Reg) (bytes : List Nat) : Nat → List Reg → Firing → Option Firing
  | 0, busy, f => if regs.any busy.contains then none else some f
  | n + 1, busy, f =>
    match decode (s.fetch s.focus f.pc) with
    | .error _ => none
    | .ok i =>
      match i.parts with
      | none => none
      | some (op, o) =>
        if !s.guardHolds sl f (operandGuard o) then s.passes k sl regs bytes n busy f.advance
        else
          match s.plainAccess k sl f i with
          | none => none
          | some (rs, ws, bs) =>
            if rs.any busy.contains ∨ bs.any bytes.contains ∨ !s.goesThrough k sl f i then none
            else
              let f1 := match plainAtomic i with
                | some p =>
                  let h := hashClass (f.r.readG p.2.a).toNat
                  { f with ordinals := f.ordinals.put h ((f.ordinals.find h).getD 0 + 1) }
                | none => f
              s.passes k sl regs bytes n (ws.filter (· != .g 0) ++ busy) (f1.executed op)

/-- The atomic that stands `n` indexes on is performed at its home ahead of the accesses before it; its result waits for its turn (log 133). -/
def State.performAhead (s : State) (n : Nat) : State :=
  match s.current with
  | none => s
  | some (k, sl, f) =>
    match decode (s.fetch s.focus (f.pc + n)) with
    | .error _ => s
    | .ok i =>
      match plainAtomic i with
      | none => s
      | some (op, x) =>
        let bytes := s.bytesAt sl.pl.ctx (f.r.readG x.a).toNat x.ty.bytes
        let free := n != 0 && f.request.isNone && f.grind == 0 && !f.begun && inRun sl (f.pc + n) && !f.ahead.any (fun y => y.1 == f.pc + n)
          && s.guardHolds sl f x.guard
        match (if free then s.passes k sl [x.a, x.b, x.c] bytes n [] f else none) with
        | none => s
        | some fn =>
          match (do return (← s.atomicAddress sl fn op x, ← s.irrevocable k sl f i) : Except Stop (Nat × Firing)) with
          | .error _ => s
          | .ok (pa, g) =>
            if !s.releaseReady g false then s
            else
              let q := atomicRequest k sl fn op x pa (if s.isRemote pa then sl.nextTag else 0)
              let tag := (sl.nextTag + bit (s.isRemote pa)) % 2 ^ 32
              let s1 := (s.putFiring k { sl with nextTag := tag } { g with request := some q }).arrival k
              match (s1.slot k).bind fun u => u.firing.map fun h => (u, h) with
              | some (u, h) =>
                match h.request with
                | some p => if p.result.isSome then s1.putFiring k u { h with request := none, ahead := h.ahead ++ [(f.pc + n, p)] } else s
                | none => s
              | none => s

/-! ### The debug step (21 R385) -/

/-- The result of DSTEP in the monitor's register. -/
def State.writeMonitor (s : State) (m dst v : Nat) : State :=
  s.updSlot m fun sl => { sl with firing := sl.firing.map fun f =>
    { f with r := { f.r with g := if dst = 0 then f.r.g else f.r.g.setIfInBounds dst (BitVec.ofNat 64 v) } } }

/-- Did the slot trap between two states? -/
def trapped (a b : Option Slot) : Bool :=
  match a, b with
  | some x, some y => (y.due.trapped && !x.due.trapped) || (y.due.policy.isSome && x.due.policy.isNone)
  | _, _ => false

/-- The slot frozen again, unless the step has released its context, and the core given back to the slot that held it. -/
def State.refreeze (s : State) (t : Nat) (was : Option Nat) : State :=
  let s1 := s.updSlot t fun sl => { sl with due.frozen := (s.ctx sl.pl.ctx).halted }
  let x := s1.tile (tileOf t)
  let s2 := if x.running = some (t % 8) then s1.park t .preempted else s1
  let y := s2.tile (tileOf t)
  s2.setTile (tileOf t) { y with running := was }

/-- One instruction of a frozen slot, which starts a firing first when it has none and its guard holds. One that waits goes on waiting where
what it waits for has not come about (log 119). -/
def State.single (s : State) (m t dst : Nat) : Host.Outcome State Fault Refusal :=
  match s.slot t with
  | none => .next s
  | some sl =>
    if !sl.due.frozen then .next (s.writeMonitor m dst 2)
    else
      let was := (s.tile (tileOf t)).running
      let open' := s.setSlot t { sl with due.frozen := false }
      let waits := sl.firing.any fun f => f.parked.any fun w => !open'.waitOver t sl f w
      let ready : Option State :=
        match sl.firing with
        | some _ => if waits then none else some (open'.resumeFiring t)
        | none => if open'.startReady t { sl with due.frozen := false } then some (open'.startFiring t false) else none
      match ready with
      | none => .next (s.writeMonitor m dst (if waits then 0 else 1))
      | some s1 =>
        let s2 := { s1 with focus := tileOf t }
        let out : Host.Outcome State Fault Refusal :=
          match s2.current with
          | some (k, _, _) =>
            if k = t then withInjection s2 (s2.runStruck k fun u => (u.current).elim (.next u) fun c => u.runAt c.1 c.2.1 c.2.2) else .next s2
          | none => .next s2
        match out with
        | .next s3 =>
          let v := if trapped (some sl) (s3.slot t) then 3 else 0
          .next (({ s3 with focus := s.focus }.refreeze t was).writeMonitor m dst v)
        | o => o

/-! ### Time -/

/-- The tiles that hold a slot. -/
def State.busyTiles (s : State) : List Nat := (s.slots.map fun ks => tileOf ks.1).eraseDups

/-- Does the firing guard of a slot fail only on residency (02 R28, R38)? -/
def State.onlyLayers (s : State) (k : Nat) (sl : Slot) : Bool :=
  s.mayStart k sl && s.guardRest k sl && !sl.layersHeld && sl.faultedLayer.isNone

/-- Is the context of a region's configuration halted (21 R384)? -/
def State.regionHalted (s : State) (r : Region) : Bool := (s.cfg r.cfg).any fun c => (s.ctx c.launch.ctx).halted

/-- Does the drain clock of a region pause: its context is halted (21 R384), its configuration is swapped out (16 R316), or no firing of
it is in flight and the guard of some slot fails only on residency (02 R38)? -/
def State.clockPauses (s : State) (r : Region) : Bool :=
  let mine := s.regionSlots r
  s.regionHalted r || (s.cfg r.cfg).any (fun c => decide (c.state = .swapped))
    || (mine.all (·.2.firing.isNone) && mine.any fun ks => s.onlyLayers ks.1 ks.2)

/-- The clocks of a region after some cycles. The 10 ms of a level change run on whatever the region waits for (09 R197). -/
def Region.ageBy (r : Region) (paused halted : Bool) (n : Nat) : Region :=
  { r with queue := r.queue.map fun t => { t with ran := if paused then t.ran else t.ran + n, age := t.age + n },
           levelRan := if r.levels.isEmpty || halted then r.levelRan else r.levelRan + n }

/-- Tile cycles of the reconcile period of 50 µs (18 R337). -/
def reconcileSpan : Nat := 135000

/-- Time passes, in tile cycles: the clocks of firings run, running or parked, but not in a halted context. -/
def State.passTime (s : State) (n : Nat) : State :=
  let s1 := s.busyTiles.foldl State.noteReady s
  let run := fun (ks : Nat × Slot) =>
    if ks.2.due.frozen then ks else (ks.1, { ks.2 with firing := ks.2.firing.map fun f => { f with ran := f.ran + n } })
  let age := fun (r : Nat × Region) => (r.1, r.2.ageBy (s.clockPauses r.2) (s.regionHalted r.2) n)
  let s2 := { s1 with clock := s1.clock + n, slots := s1.slots.map run, en.regions := s1.en.regions.map age, al.windows := s.countWindows n }
  let s3 := if s2.mm.order.olds.isEmpty then s2 else s2.forget
  if s.clock / reconcileSpan < (s.clock + n) / reconcileSpan then s3.later .reconcilePass else s3

/-! ### TLB fills (20 R356) -/

/-- The leaf that a walk reads now, with its level: each entry by a relaxed read (20 R354). -/
def State.leafNow (s : State) (v : View) (va : Nat) : Nat → Nat → Nat → Option (Nat × Dword)
  | 0, _, _ => none
  | fuel + 1, lvl, t =>
    let e := s.entrySeen v (t + 8 * vaIndex lvl va)
    if s.mm.poison.contains ((t + 8 * vaIndex lvl va) / 64) ∨ !e.getLsbD 0 ∨ badEntry lvl e then none
    else if e.getLsbD 1 then some (lvl, e)
    else s.leafNow v va fuel (lvl + 1) (bits e 51 15 * 32768)

/-- The TLB of a unit takes the leaf of an address for a context. -/
def State.fillTlb (s : State) (unit ctx va : Nat) : State :=
  let c := s.ctx ctx
  match s.leafNow (s.walkView ctx va) va 4 1 (c.root * 32768) with
  | some (lvl, e) =>
    if bits e 63 52 = c.tag ∧ ((s.at unit).tlbHit ctx va).isNone then
      { s with mm.tlb := s.mm.tlb ++ [{ unit := unit, ctx := ctx, tag := c.tag, gen := c.gen, vpg := va / 65536, level := lvl, leaf := e }] }
    else s
  | none => s

/-! ### Gates: power, PERST#, and a freeze (22 R394, 26 R430, R432) -/

/-- Rows that the Lighthouse and the board serve in every STAGE and while frozen. -/
def boardRow : Instr → Bool
  | .sensorTrip _ => true
  | .getVersion => true
  | .getCapabilities => true
  | .negotiateAlgorithms => true
  | .getDigests => true
  | .getCertificate => true
  | .challenge _ => true
  | .getMeasurements _ _ => true
  | .signingComplete => true
  | .pldmMonitorRequest => true
  | .mctpControlMessage => true
  | .ideKmRequest _ _ => true
  | .powerUp => true
  | .powerLoss => true
  | .perstAssert => true
  | .perstDeassert => true
  | .hostLinkTraining _ _ => true
  | _ => false

/-- Does the part hold still but for its board: no power, PERST# asserted, or frozen? -/
def State.still (s : State) : Bool := !s.dv.host.power || s.dv.host.perst || s.dv.lh.frozen

/-- Does a move take place while the part holds still? Without power only the rails move. -/
def State.moves (s : State) : Move → Bool
  | .pass _ => true
  | .railsBreak => true
  | .bar4Size _ => s.dv.host.power && !s.dv.host.perst
  | .run i => if s.dv.host.power then !s.still || boardRow i else (match i with | .powerUp => true | _ => false)
  | _ => !s.still

/-! ### A move -/

/-- What a move was to pass over has been passed over. -/
def State.settled (s : State) : State :=
  if s.mm.order.lag.isEmpty ∧ s.mm.order.under.isEmpty then s else { s with mm.order := { s.mm.order with lag := [], under := [] } }

/-- An outcome after which nothing is passed over any more. -/
def passedOver : Host.Outcome State Fault Refusal → Host.Outcome State Fault Refusal
  | .next s => .next s.settled
  | o => o

/-- The host writes its own memory, or a peer its own (07 R124). -/
def State.outside (s : State) (pa : Nat) (bs : List Byte) : State :=
  let ws := (bs.zipIdx).map fun b => (pa + b.2, b.1)
  if ws.all fun w => paOk w.1 && paHost w.1 then
    s.writeGlobal { tag := 0, gen := 0, unit := hostUnit, before := s.eventsOf hostUnit, release := true } false ws
  else if ws.all fun w => paOk w.1 && s.isRemote w.1 && paPkg w.1 == paPkg pa && !s.pathDown (paPkg pa) then s.peerStore (paPkg pa) false false ws
  else s

/-- A move of the agenda takes place. A row that an instruction word encodes comes about only when a core executes that word. -/
def State.move (s : State) (m : Move) : Host.Outcome State Fault Refusal :=
  if !s.moves m then .next s
  else
    match m with
    | .run i => if i.parts.isSome then .next s else passedOver (withInjection s (exec i s))
    | .due d => passedOver (withInjection s (runDue d s))
    | .core t => passedOver (s.coreStep t)
    | .single a b c => passedOver (s.single a b c)
    | .pass n => .next (s.passTime n)
    | .lag l => .next { s with mm.order := { s.mm.order with lag := l } }
    | .under l => .next { s with mm.order := { s.mm.order with under := l } }
    | .outside pa bs => .next (s.outside pa bs)
    | .railsBreak => .next s.railsBreak
    | .tlbFill u c va => .next (s.fillTlb u c va)
    | .tlbDrop u c va => .next { s with mm.tlb := s.mm.tlb.filter fun t =>
        !(t.unit == u && t.ctx == c && decide (t.vpg * 65536 / leafSize t.level = va / leafSize t.level)) }
    | .ahead t n => .next { ({ s with focus := t }.performAhead n).settled with focus := s.focus }
    | .writeBack l => .next (s.writeBack l)
    | .openCommit k => .next (s.openCommit k)
    | .readAhead c => .next (s.readAhead c).settled
    | .bar4Size n => .next (s.sizeBar4 n)
    | .bar4Atomic off => .next (s.bar4Atomic off)
    | .selfTest l => .next (if s.dv.lh.stage = 3 then s else { s with dv.testFailed := l.filter fun t => decide (t < 1152) })
    | .peerRollback p c n => .next (s.peerRollback p c n)
    | .pinQuota c n => .next (if s.dv.jetty.restarting.isSome ∨ 64 ≤ c then s else s.setCtx c { s.ctx c with pinShare := n })

/-! ### What the part does of its own accord -/

/-- The first move that changes anything. -/
def firstChange (s : State) : List (State → Host.Outcome State Fault Refusal) → Option (Host.Outcome State Fault Refusal)
  | [] => none
  | f :: t =>
    match f s with
    | .next s1 => if s1 = s then firstChange s t else some (.next s1)
    | o => some o

/-- Rows of arcs that may be due. -/
def State.arcRows (s : State) : List (State → Host.Outcome State Fault Refusal) :=
  s.arcs.flatMap fun x =>
    [execControlEntryDelivery x.1, execWpArrival x.1 [], execParkedTokenDelivery x.1]
      ++ (if x.2.leaves ∨ x.2.rpMirror = x.2.rp ∨ x.2.cross.isNone then [] else [execRpMirrorUpdate x.1 none])

/-- Rows of slots. -/
def State.slotRows (s : State) : List (State → Host.Outcome State Fault Refusal) :=
  s.slots.flatMap fun x =>
    let k := x.1
    [execStampedCommit k, execHandlerFiringStart k, execJettyPolicyTrap k, execFallbackFiring k, execWfiWake k, execFiringOverrun k]
      ++ (if (x.2.firing.bind (·.request)).isSome then
            [execAtomicAtHome (.own k), execHeldAtomicRelease k, execAwtConditionMet k, execRemoteAtomicTimeout k] else [])
      ++ (if x.2.pl.actor.clonable then [execRebalancerWindow k false] else [])

/-- Rows of requests that no firing here waits for (07 R138, 08 R166). -/
def State.requestRows (s : State) : List (State → Host.Outcome State Fault Refusal) :=
  s.en.late.map (fun l => execAtomicAtHome (.own l.slot)) ++ s.en.peerWaits.map fun w => execAwtConditionMet (peerWaitBase + w.id)

/-- Rows of tiles, commands, layers, regions and configurations. -/
def State.unitRows (s : State) : List (State → Host.Outcome State Fault Refusal) :=
  s.busyTiles.flatMap (fun t => [execDrawWindowEnd t, execRetirementComplete t])
    ++ s.en.commands.flatMap (fun c => if c.2.ended then [] else
        [execEnginePiecePerformed c.1 (2 ^ 60), execEngineCommandEnd c.1, execStreamTokenPublish c.1, execRoundTimeout c.1])
    ++ s.en.tides.flatMap (fun t => [execFloodComplete (t.1 / 1024) (t.1 % 1024), execEbbComplete (t.1 / 1024) (t.1 % 1024)])
    ++ s.en.regions.flatMap (fun r => [execQuiescentPoint r.1, execDrainTimeout r.1, execGenerationWaitTimeout r.1, execLevelChangeTimeout r.1])
    ++ s.al.cfgs.flatMap (fun c => if c.2.state = .ended then [] else
        [execMoveComplete c.1, execSwapOut c.1, execDeadlineExpiry c.1, runDue (.runEnd c.1), runDue (.cfgRollback c.1)]
          ++ (c.2.cloneSets.flatMap fun x => x.leaving.map fun l => execCloneRelease l.1)
          ++ (if (s.joined c.1).isEmpty then [execCutComplete c.1] else []))

/-- Configurations that have become idle let a launch that is pending be considered again (16 R307). -/
def admissionOnIdle (s : State) : Host.Outcome State Fault Refusal :=
  if s.al.launches.isEmpty ∨ s.idleCands = s.al.idleSeen then .next s else execAdmission s

/-- Rows of translation, recovery, links, the Jetty controller and the Lighthouse. -/
def State.deviceRows (s : State) : List (State → Host.Outcome State Fault Refusal) :=
  [execFaultRecordPost, runDue (.copyLine 0), runDue (.copyLine 1), execMigrationCopyComplete 0, execMigrationCopyComplete 1, execSigningComplete,
   execWatchdogExpiry, firmwareKick, admissionOnIdle, bootStage, execBootReady, fun s => .next s.completeAts]
    ++ ((List.range 8).filter fun d => nth s.dv.dieState d 0 == 1).map (fun d => runDue (.dieHandover d))
    ++ (s.tiles.filter fun t => decide (3 ≤ t.2.failures.length) && !t.2.retiring).map (fun t => execTileRetirement t.1)
    ++ s.mm.invals.map (fun i => execInvalidationComplete i.id)
    ++ s.mm.settle.map (fun w => execSettleWindowEnd (w.1 / 2 ^ 44) (w.1 % 2 ^ 44))
    ++ s.mm.kills.map (fun k => execKillComplete k.cove)
    ++ s.dv.paths.map (fun p => execPathDownTimeout p.pkg)
    ++ (List.range 12).map execLinkWidthRetry

/-- Rows of the front end: it completes, stops, and serves the queue whose slice it is. -/
def State.frontRows (s : State) : List (State → Host.Outcome State Fault Refusal) :=
  (s.fe.queues.flatMap fun q => (q.2.packets.map fun p => execPacketCompletion q.1 p.num) ++ [execQueueStopComplete q.1, fun s => .next (s.checkFence q.1)])
    ++ s.fe.deltas.map (fun d => execDelta d.queue)
    ++ (if s.fe.capture.isEmpty then [] else [execCaptureQueueDrain])
    ++ (if s.fe.queues.any fun q => q.2.state == 1 then
          let q := s.fe.slice.1
          [execSliceExpiry, execLaunch q, execSlaunch q, execDelta q, execWrsig q, execWaitTimeout q, execWait q, execDetset q, execReplay q,
           execPatch q, execFencePacket q, execFloodh q, execKill q, execPacketFetch q]
        else [])

/-- The tiles from the one after the focus on. -/
def State.tilesInTurn (s : State) : List Nat :=
  let l := s.busyTiles
  l.filter (fun t => decide (s.focus < t)) ++ l.filter fun t => decide (t ≤ s.focus)

/-- The core of a tile moves, if it has anything to do but to stand in focus. -/
def State.coreMove (s : State) (t : Nat) : Host.Outcome State Fault Refusal :=
  match s.coreStep t with
  | .next s1 => if s1 = { s with focus := t } then .next s else .next s1
  | o => o

/-- With nothing on the agenda: a row that is due, else the next core that can move, else the front end, else time passes. One cycle
passes with each round of the cores. -/
def State.ownMove (s : State) : Host.Outcome State Fault Refusal :=
  if s.still then .next (s.passTime 1)
  else
    match firstChange s (s.arcRows ++ s.slotRows ++ s.requestRows ++ s.unitRows ++ s.deviceRows ++ s.frontRows) with
    | some o => o
    | none =>
      match firstChange s (s.tilesInTurn.map fun t (s : State) => s.coreMove t) with
      | some (.next s1) => .next (if s1.focus ≤ s.focus then s1.passTime 1 else s1)
      | some o => o
      | none => .next (s.passTime 1)

/-- ONE STEP OF THE PACKAGE: the head of the agenda, or what the part does of its own accord. -/
def State.nextStep (s : State) : Host.Outcome State Fault Refusal :=
  match s.agenda with
  | m :: rest => { s with agenda := rest }.move m
  | [] => s.ownMove

/-! ### A word placed where the next fetch takes it -/

/-- An actor without ports whose run is one word at index 0. -/
def bareActor (w : Dword) : Actor :=
  { num := 0, len := 2 ^ 32, foot := 8192, stateBytes := 4096, weightBytes := 0, spillBytes := 4096, power := 3, condMask := 0, condMatch := 0,
    clonable := false, stamped := none, surrogateOf := none, initSet := 0, period := Vector.replicate 8 1, entry := [],
    inSize := Vector.replicate 16 none, outSize := Vector.replicate 16 none, closedFault := Vector.replicate 16 false, rates := [],
    layers := [], code := [w], initC := 0, hasMark := false }

/-- An image of that actor alone, and its launch in context 0. -/
def bareImage (w : Dword) : Image :=
  { hash := 0, signature := none, bsig := 1, widths := [8], prio := 5, ecl := 0, detl := 0, actors := [bareActor w],
    lines := [{ actor := 0, row := 0, col := 0, slot := 0, word := [0], fallbackOf := none }], edges := [], streams := [], segments := [],
    relocs := [], regions := [], layerLines := [] }

def bareLaunch (w : Dword) : Launch :=
  { ordinal := 1, queue := 0, packet := 0, ctx := 0, image := bareImage w, lvl := 5, ecl := 0, detl := 0, deadline := 0, hard := false,
    strict := false, surrogate := false, tolr := 0, dataBase := 0, age := 0, bypass := 0, loaded := true, loadPos := 0, loadWait := none,
    swapped := none, late := false }

/-- Its configuration, number 1, on the page of tile 0. -/
def bareCfg (w : Dword) : Configuration :=
  { launch := bareLaunch w, state := .placed, x0 := 0, y0 := 0, w := 1, h := 1, moveTo := none, slots := [0], admitted := 0, dlDone := true,
    lastActive := 0, residentAtSwap := [], section0 := none, part := 0, last := 0, inpr := 0, vld := false, abn := false, swp := false,
    saves := [], savedArcs := [], cuts := [], instancesLeft := 1, cloneSets := [] }

/-- Slot 0 of a tile as placement leaves it, for that actor: state region from local 0, spill carve behind it. -/
def bareSlot (w : Dword) : Slot :=
  { pl := { ctx := 0, cfg := 1, inst := 0, cti := 0, actor := bareActor w, instWord := 0, runBase := 0, runLen := 1, phb := 0, wtb := 0,
            stb := 0, spb := 64, lim := 128, inArc := Vector.replicate 16 none, outArc := Vector.replicate 16 none, tag := 0, gen := 0,
            launchLvl := 5, launchEcl := 0, region := none, controls := [], rank := 0, fallback := none, surrogate := none },
    layers := [], rateGen := Vector.replicate 8 0, c := 0, tl := Vector.replicate 8 { issued := 0, done := 0 },
    sys := { fcsr := 0x400, tolr := 0, chki := 0, spov := 0, trapv := 0, prioEcl := 0, prioLvl := 5 }, stamp := 0, phase := 0, rset := 0,
    detl := 0, trapc := 0, trapi := Vector.replicate 8 0, flga := 0, chkCount := 0, drawOp := none, nextTag := 0, spill := [], spillId := 0,
    spillBad := [],
    due := Due.zero, cut := { last := none, want := none, marked := [] }, firing := none }

/-- A firing of slot 0 at tile 0 is placed, about to execute index 0. -/
def State.placeBare (s : State) (w : Dword) : State :=
  let s1 := { s with focus := 0, dv.lh.stage := 3, al.cfgs := s.al.cfgs.put 1 (bareCfg w), store := s.store.put 0 w }
  let s2 := s1.setSlot 0 (bareSlot w)
  s2.enter 0 (bareSlot w) (s2.newFiring 0 (bareSlot w) 0 false)

/-- A word stored where the next step fetches: at the index of the firing that runs on the tile in focus, else in a firing placed for
it; the core moves next. -/
def State.placeWord (s : State) (w : Dword) : State :=
  let s1 :=
    match s.current with
    | some (_, sl, f) => if inRun sl f.pc then { s with store := s.store.put (s.focus * 32768 + f.pc) w } else s.placeBare w
    | none => s.placeBare w
  { s1 with agenda := .core s1.focus :: s1.agenda }

end Sys2Proof.Machine
end

