-- ==== Sys2Proof/Machine/Step.lean ====
section
/-! DEFINITION. The step of the package, and a word placed where it fetches next. -/

namespace Sys2Proof.Machine

/-- One step of the package (log 1). -/
def step : State → Host.Outcome State Fault Refusal := State.nextStep

/-- The state with an instruction whose bits are `w`, the bits from `nbits` up zero, stored where the next step fetches (log 2). -/
def State.withFetchWord (s : State) (nbits w : Nat) : State := s.placeWord (BitVec.ofNat 64 (w % 2 ^ min nbits 64))

end Sys2Proof.Machine
end

