-- ==== Sys2Proof/Safety.lean ====
section
/-! DEFINITION. What a safe run is: it stops at no fault and no refusal, and every state on it is in form; and the terms in which
claims speak of one instruction: that it runs, that it has had its effect, and what values operands stand for. -/

namespace Sys2Proof.Safety

open Sys2Proof.Machine

/-! ### Safe runs -/

/-- Both memories are in canonical form. -/
def inForm (s : State) : Prop := s.mm.mem.wf = true ∧ s.mm.sram.wf = true

/-- An outcome that goes on to a state with a property. -/
def goesOn (p : State → Prop) : Host.Outcome State Fault Refusal → Prop
  | .next s => p s
  | .fault _ => False
  | .refused _ => False

/-- So many steps from a state go on, every state on the way in form. -/
def safeFor : Nat → State → Prop
  | 0, s => inForm s
  | n + 1, s => inForm s ∧ goesOn (safeFor n) (step s)

/-- A safe run: however far it goes. -/
def safeRun (s : State) : Prop := ∀ n, safeFor n s

/-! ### One instruction of a firing -/

/-- The firing `f` of the slot `sl` with key `k` runs on the tile in focus. -/
def Running (s : State) (k : Nat) (sl : Slot) (f : Firing) : Prop := s.current = some (k, sl, f)

/-- It runs, and a guard holds for it (04 R68). -/
def Runs (s : State) (k : Nat) (sl : Slot) (f : Firing) (g : Guard) : Prop :=
  s.current = some (k, sl, f) ∧ s.guardHolds sl f g = true

/-- The outcome of an instruction whose effect is on the firing alone: the firing is `f`, nothing else of the package changes but the
model's own counter. -/
def did (s : State) (k : Nat) (sl : Slot) (f : Firing) : Host.Outcome State Fault Refusal :=
  .next { s.putFiring k sl f with freeCtr := s.freeCtr + 1 }

/-- The outcome of an instruction with opcode `op` whose effect is on registers alone: the firing stands at the next index with the
registers `r`. -/
def wrote (s : State) (k : Nat) (sl : Slot) (f : Firing) (op : Nat) (r : Regs) : Host.Outcome State Fault Refusal :=
  did s k sl { f.executed op with r := r }

/-- The outcome of an instruction that traps: nothing of its effect has happened (02 R30). -/
def traps (s : State) (k : Nat) (t : TrapInfo) : Host.Outcome State Fault Refusal := .next (s.takeTrap k t)

/-! ### Values of operands (11 R214) -/

/-- The number that the low bits of a register stand for in a type: two's complement for I types, unsigned for the others. -/
def valueOf (t : Ty) (x : Dword) : Int := if t.signed then (x.setWidth t.bits).toInt else (x.setWidth t.bits).toNat

/-- A pattern of a type extended to 64 bits: with its sign for I types, with zeros for the others. -/
def extended (t : Ty) (p : BitVec t.bits) : Dword := if t.signed then p.signExtend 64 else p.setWidth 64

/-- An integer modulo 2^n in a general register. -/
def wrapped (t : Ty) (v : Int) : Dword := extended t (BitVec.ofInt t.bits v)

/-- The range of an integer type. -/
def least (t : Ty) : Int := if t.signed then -(2 ^ (t.bits - 1) : Int) else 0
def most (t : Ty) : Int := if t.signed then (2 ^ (t.bits - 1) : Int) - 1 else (2 ^ t.bits : Int) - 1
def fits (t : Ty) (v : Int) : Prop := least t ≤ v ∧ v ≤ most t

/-- The flag bits OF and NV of FL (10 R209). -/
def flagOF : BitVec 5 := 4
def flagNV : BitVec 5 := 16

/-- Registers with flags raised: they enter FCSR.FL and the flags of the firing (10 R212). -/
def flagged (r : Regs) (fl : BitVec 5) : Regs :=
  { r with sys.fcsr := r.sys.fcsr ||| fl.setWidth 64, raised := r.raised ||| fl }

/-- The trap enables TE of FCSR as the firing sees it (03 R52). -/
def enables (r : Regs) : BitVec 5 := r.sys.fcsr.extractLsb' 5 5

/-- No flag and no signalling operand traps (10 R210, R211). -/
def quiet (r : Regs) : Prop := enables r = 0 ∧ r.sys.fcsr.getLsbD 13 = false

end Sys2Proof.Safety
end

