-- ==== Sys2Proof/Certificates/Slice0/Obligations.lean ====
section
/-! DEFINITION. The statements for the provers, family by family: each says for every state, firing and operands what an instruction or a
row of the part does, where it traps, and what it leaves unchanged. -/

open Sys2Proof Sys2Proof.Machine Sys2Proof.Safety

/-! ### Registers -/

/-- R47: g0 and p0. A write to a general register is read back at its number alone, a write to g0 is discarded and g0 reads 0; p0 reads
all ones and keeps them. A predicate bit governs the 32-bit lane of its number: a narrower element takes the bit of the lane that
holds it, and a 64-bit element the bit of its lower lane. -/
def Obligations.HardwiredRegisters : Prop :=
  (∀ (r : Regs) (n m : Fin 64) (v : Dword), (r.setG n v).gr m = if m = n ∧ n ≠ 0 then v else r.gr m) ∧
  (∀ r : Regs, r.gr 0 = 0) ∧
  (∀ (r : Regs) (n m : Fin 16) (v : Dword), (r.setP n v).pr m = if m = n ∧ n ≠ 0 then v else r.pr m) ∧
  (∀ r : Regs, r.pr 0 = BitVec.allOnes 64) ∧
  (∀ (r : Regs) (v : Dword), r.setG 0 v = r) ∧ (∀ (r : Regs) (v : Dword), r.setP 0 v = r) ∧
  (∀ (p : Dword) (e : Nat), laneOn p 64 e = p.getLsbD (2 * e) ∧ laneOn p 32 e = p.getLsbD e ∧ laneOn p 16 e = p.getLsbD (e / 2) ∧
    laneOn p 8 e = p.getLsbD (e / 4))

/-! ### Scalar integer instructions (R218 to R224) -/

namespace Sys2Proof.Safety
open Sys2Proof.Machine

/-- What R218 says of an instruction that forms the exact value `v`: in range it is written with its extension; out of range it wraps, or
with SAT clamps and raises OF, which traps 0x0B when FCSR.TE enables it. -/
def deliversInt (i : Instr) (g : Guard) (op : Nat) (ty : Ty) (d : Reg) (sat : Bool) (v : Regs → Int) : Prop :=
  ty.isInt = true → ∀ s k sl f, Runs s k sl f g →
    (fits ty (v f.r) ∨ sat = false → exec i s = wrote s k sl f op (f.r.writeG d (wrapped ty (v f.r)))) ∧
    (¬ fits ty (v f.r) → sat = true → enables f.r &&& flagOF = 0 →
      exec i s = wrote s k sl f op
        ((flagged f.r flagOF).writeG d (wrapped ty (if v f.r < least ty then least ty else most ty)))) ∧
    (¬ fits ty (v f.r) → sat = true → enables f.r &&& flagOF ≠ 0 → exec i s = traps s k { code := 0x0B, fl := flagOF })

/-- An instruction that only writes a general register, with no flag and no trap. -/
def writesG (i : Instr) (g : Guard) (op : Nat) (d : Reg) (v : Regs → Dword) : Prop :=
  ∀ s k sl f, Runs s k sl f g → exec i s = wrote s k sl f op (f.r.writeG d (v f.r))

/-- A source operand. -/
def src (t : Ty) (x : Reg) (r : Regs) : Int := valueOf t (r.readG x)

/-- The 16-bit immediate as R76 extends it. -/
def immDword (t : Ty) (imm : Half) : Dword := if t.signed then imm.signExtend 64 else imm.setWidth 64

/-- DIV and REM (R219). -/
def quotient (t : Ty) (x y : Int) : Int := if y = 0 then (if t.signed then -1 else most t) else Int.tdiv x y
def remainder (x y : Int) : Int := if y = 0 then x else Int.tmod x y

/-- The pattern that an operand holds. -/
def pattern (t : Ty) (x : Reg) (r : Regs) : BitVec t.bits := (r.readG x).setWidth t.bits

/-- The relation mask of R222 for integers. -/
def relation (x y : Int) : Dword := if x < y then 1 else if x = y then 2 else 4

end Sys2Proof.Safety

/-- R211, R217, R218, R219: DIV truncates towards zero and REM takes the sign of the dividend. Division by zero gives all ones and REM
the dividend; the least value by -1 wraps to itself, or with SAT clamps to the greatest value and raises OF; no other flag and no
trap of its own. That this OF traps 0x0B where FCSR.TE enables it is a reading of R211, R217 and R218 beside R219 (log 130). Choices
of the model in it stand in the assumption log: 130. -/
def Obligations.DivisionAndRemainder : Prop :=
  (∀ x : RFields, deliversInt (.div x) x.guard 0x14 x.ty x.d x.mods.sat fun r => quotient x.ty (src x.ty x.a r) (src x.ty x.b r)) ∧
  (∀ x : RFields, deliversInt (.rem x) x.guard 0x15 x.ty x.d x.mods.sat fun r => remainder (src x.ty x.a r) (src x.ty x.b r))

/-- R218, R220, R223: the instructions that form an exact integer. R218, R220, R221, R222, R223, R224: the instructions on bit patterns,
the comparisons, SEL, the counts and LIL. R218, R221: CLZ and POPC count bits; BEXT and BINS move a bit field, and trap 0x09 with
position and length where there is none. -/
def Obligations.IntegerArithmetic : Prop :=
  (
  (∀ x : RFields, deliversInt (.add x) x.guard 0x10 x.ty x.d x.mods.sat fun r => src x.ty x.a r + src x.ty x.b r) ∧
  (∀ x : RFields, deliversInt (.sub x) x.guard 0x11 x.ty x.d x.mods.sat fun r => src x.ty x.a r - src x.ty x.b r) ∧
  (∀ x : RFields, deliversInt (.mul x) x.guard 0x12 x.ty x.d x.mods.sat fun r => src x.ty x.a r * src x.ty x.b r) ∧
  (∀ x : RFields, deliversInt (.mulh x) x.guard 0x13 x.ty x.d x.mods.sat
    fun r => (src x.ty x.a r * src x.ty x.b r).fdiv (2 ^ x.ty.bits)) ∧
  (∀ x : RFields, deliversInt (.shl x) x.guard 0x1A x.ty x.d x.mods.sat fun r => src x.ty x.a r * 2 ^ (r.readG x.b).toNat) ∧
  (∀ x : RFields, deliversInt (.min x) x.guard 0x1E x.ty x.d x.mods.sat fun r => min (src x.ty x.a r) (src x.ty x.b r)) ∧
  (∀ x : RFields, deliversInt (.max x) x.guard 0x1F x.ty x.d x.mods.sat fun r => max (src x.ty x.a r) (src x.ty x.b r)) ∧
  (∀ x : RFields, deliversInt (.adds x) x.guard 0x26 x.ty x.d x.mods.sat
    fun r => src x.ty x.a r + src x.ty x.b r * src x.ty x.c r) ∧
  (∀ x : IFields, deliversInt (.addi x) x.guard 0x27 x.ty x.d x.mods.sat
    fun r => src x.ty x.a r + if x.ty.signed then x.imm.toInt else x.imm.toNat) ∧
  (∀ x : IFields, deliversInt (.shli x) x.guard 0x2B x.ty x.d x.mods.sat fun r => src x.ty x.a r * 2 ^ x.imm.toNat)
  ) ∧
  (
  (∀ x : RFields, writesG (.and x) x.guard 0x16 x.d fun r => extended x.ty (pattern x.ty x.a r &&& pattern x.ty x.b r)) ∧
  (∀ x : RFields, writesG (.or x) x.guard 0x17 x.d fun r => extended x.ty (pattern x.ty x.a r ||| pattern x.ty x.b r)) ∧
  (∀ x : RFields, writesG (.xor x) x.guard 0x18 x.d fun r => extended x.ty (pattern x.ty x.a r ^^^ pattern x.ty x.b r)) ∧
  (∀ x : RFields, writesG (.andn x) x.guard 0x19 x.d fun r => extended x.ty (pattern x.ty x.a r &&& ~~~(pattern x.ty x.b r))) ∧
  (∀ x : RFields, writesG (.shr x) x.guard 0x1B x.d fun r => extended x.ty (pattern x.ty x.a r >>> (r.readG x.b).toNat)) ∧
  (∀ x : RFields, writesG (.sar x) x.guard 0x1C x.d fun r => extended x.ty ((pattern x.ty x.a r).sshiftRight (r.readG x.b).toNat)) ∧
  (∀ x : RFields, writesG (.rot x) x.guard 0x1D x.d
    fun r => extended x.ty ((pattern x.ty x.a r).rotateLeft ((r.readG x.b).toNat % x.ty.bits))) ∧
  (∀ x : RFields, writesG (.cmp x) x.guard 0x20 x.d fun r => relation (src x.ty x.a r) (src x.ty x.b r)) ∧
  (∀ x : RFields, writesG (.sel x) x.guard 0x21 x.d
    fun r => extended x.ty (if pattern x.ty x.c r = 0 then pattern x.ty x.b r else pattern x.ty x.a r)) ∧
  (∀ x : IFields, writesG (.andi x) x.guard 0x28 x.d
    fun r => extended x.ty (pattern x.ty x.a r &&& (immDword x.ty x.imm).setWidth x.ty.bits)) ∧
  (∀ x : IFields, writesG (.ori x) x.guard 0x29 x.d
    fun r => extended x.ty (pattern x.ty x.a r ||| (immDword x.ty x.imm).setWidth x.ty.bits)) ∧
  (∀ x : IFields, writesG (.xori x) x.guard 0x2A x.d
    fun r => extended x.ty (pattern x.ty x.a r ^^^ (immDword x.ty x.imm).setWidth x.ty.bits)) ∧
  (∀ x : IFields, writesG (.shri x) x.guard 0x2C x.d fun r => extended x.ty (pattern x.ty x.a r >>> x.imm.toNat)) ∧
  (∀ x : IFields, writesG (.sari x) x.guard 0x2D x.d fun r => extended x.ty ((pattern x.ty x.a r).sshiftRight x.imm.toNat)) ∧
  (∀ x : IFields, writesG (.cmpi x) x.guard 0x2E x.d
    fun r => relation (src x.ty x.a r) (if x.ty.signed then x.imm.toInt else x.imm.toNat)) ∧
  (∀ x : LFields, writesG (.lil x) x.guard 0x2F x.d fun _ => x.imm.signExtend 64)
  ) ∧
  (
  (∀ (x : RFields) s k sl f, Runs s k sl f x.guard → ∃ c,
    exec (.clz x) s = wrote s k sl f 0x22 (f.r.writeG x.d (BitVec.ofNat 64 c)) ∧ c ≤ x.ty.bits ∧
    (∀ j, j < c → (pattern x.ty x.a f.r).getMsbD j = false) ∧ (c < x.ty.bits → (pattern x.ty x.a f.r).getMsbD c = true)) ∧
  (∀ (x : RFields), writesG (.popc x) x.guard 0x23 x.d
    fun r => BitVec.ofNat 64 ((List.range x.ty.bits).countP fun j => (r.readG x.a).getLsbD j)) ∧
  (∀ (x : RFields) s k sl f, Runs s k sl f x.guard →
    let pos := (f.r.readG x.b).toNat
    let len := (f.r.readG x.c).toNat
    let old := pattern x.ty x.d f.r
    let y := f.r.readG x.a
    (1 ≤ len → pos + len ≤ x.ty.bits →
      exec (.bext x) s = wrote s k sl f 0x24 (f.r.writeG x.d
        (if x.ty.signed then ((y >>> pos).setWidth len).signExtend 64 else ((y >>> pos).setWidth len).setWidth 64)) ∧
      ∃ p : BitVec x.ty.bits, exec (.bins x) s = wrote s k sl f 0x25 (f.r.writeG x.d (extended x.ty p)) ∧
        ∀ j, j < x.ty.bits → p.getLsbD j = if pos ≤ j ∧ j < pos + len then y.getLsbD (j - pos) else old.getLsbD j) ∧
    (¬ (1 ≤ len ∧ pos + len ≤ x.ty.bits) →
      exec (.bext x) s = traps s k { code := 0x09, info := f.r.readG x.b, aux := f.r.readG x.c } ∧
      exec (.bins x) s = traps s k { code := 0x09, info := f.r.readG x.b, aux := f.r.readG x.c }))
  )

/-! ### Flags and scalar floating point (R209 to R212, R225 to R232) -/

namespace Sys2Proof.Safety
open Sys2Proof.Machine

/-- A pattern and its flags, with a signalling operand marked in bit 5. -/
abbrev PatFlags := Nat × Nat

/-- A scalar instruction that delivers a pattern with flags: where its flags trap (R210, R211) it does; else it writes `ext` of the pattern,
raises the flags, and counts when it rounds stochastically. -/
def deliversPat (i : Instr) (g : Guard) (op : Nat) (d : Reg) (rm : Option Rnd) (ext : Nat → Dword) (p : Regs → PatFlags) : Prop :=
  ∀ s k sl f, Runs s k sl f g →
    let fl := (p f.r).2
    let r := (flagged f.r (BitVec.ofNat 5 fl)).writeG d (ext (p f.r).1)
    (∀ t, f.r.raise [(0, fl)] = .error (.trap t) → exec i s = traps s k t) ∧
    (f.r.raise [(0, fl)] = .ok (flagged f.r (BitVec.ofNat 5 fl)) →
      exec i s = wrote s k sl f op
        (match rm with | some m => if f.r.mode m = .sr then { r with srCount := f.r.srCount + 1 } else r | none => r))

/-- A pattern zero-extended. -/
def zeroExt (n : Nat) : Dword := BitVec.ofNat 64 n

/-- An exact result of a type, rounded once in the mode of the instruction (10 R205 to R208). -/
def roundedTo (t : Ty) (m : Mods) (e : Regs → Exact) (r : Regs) : PatFlags := (tyFmt t).result (e r) (r.mode m.rnd) m.sat (r.sr 0 0)

/-- The exact integer nearest to n/d in a mode (R205): at a tie the even one for RNE and the larger for RNA. -/
def nearest (n d q : Nat) (ties : Nat → Prop) : Prop :=
  2 * (d * q) ≤ 2 * n + d ∧ 2 * n ≤ 2 * (d * q) + d ∧ (2 * n = 2 * (d * q) + d ∨ 2 * (d * q) = 2 * n + d → ties q)

/-- The bit of R228's table for a pattern: -inf, -normal, -subnormal, -0, +0, +subnormal, +normal, +inf, signalling NaN, quiet NaN. -/
def classBit (F : FloatFmt) (x : Nat) : Nat :=
  match F.value x with
  | .inf true => 0
  | .inf false => 7
  | .nan true => 8
  | .nan false => 9
  | .num neg n _ =>
    if n = 0 then (if neg then 3 else 4)
    else if x / 2 ^ F.frac % 2 ^ F.ebits = 0 then (if neg then 2 else 5)
    else (if neg then 1 else 6)

end Sys2Proof.Safety

/-- R210, R211, R212: the flags that the elements of an instruction raise. A signalling operand traps 0x0C when SNT or TE[4] is set;
else a flag that TE enables traps 0x0B; else the flags enter FCSR.FL and the flags of the firing, and nothing else changes. The trap
names the lowest element that raised an enabled flag; where SNT alone traps and no flag is enabled, the lowest with a signalling
operand, which the model chooses (log 81). Choices of the model in it stand in the assumption log: 81. -/
def Obligations.FlagsAndTraps : Prop :=
  ∀ (r : Regs) (l : List (Nat × Nat)),
    let all := orFlags l
    let fl := BitVec.ofNat 5 all
    (all.testBit 5 = true → r.sys.fcsr.getLsbD 13 = true ∨ (enables r).getLsbD 4 = true →
      let el := if fl &&& enables r ≠ 0 then lowestWith (enables r).toNat l else lowestWith 32 l
      r.raise l = .error (.trap { code := 0x0C, fl := fl, elem := el })) ∧
    ((all.testBit 5 = false ∨ (r.sys.fcsr.getLsbD 13 = false ∧ (enables r).getLsbD 4 = false)) → fl &&& enables r ≠ 0 →
      r.raise l = .error (.trap { code := 0x0B, fl := fl, elem := lowestWith (enables r).toNat l })) ∧
    ((all.testBit 5 = false ∨ (r.sys.fcsr.getLsbD 13 = false ∧ (enables r).getLsbD 4 = false)) → fl &&& enables r = 0 →
      r.raise l = .ok (flagged r fl))

/-- R205, R206: RoundInt of the magnitude n/d in each mode; the stochastic one adds its 32 bits to the fraction. R225, R231: the scalar
instructions that round one exact result; a flag that traps leaves them without effect. R226, R227, R228, R230, R232: the scalar
instructions that compare, classify, select or move. FCMP's mask has the bits LT, EQ, GT and UN; FCLASS sets the one bit that R228's
table gives the pattern; FSGN changes the sign bit alone; FFLG writes the old FL and raises the flags of g[a], and traps 0x09 above
bit 4. -/
def Obligations.ScalarFloatArithmetic : Prop :=
  (
  ∀ (neg : Bool) (sr n d : Nat), 0 < d →
    (nearest n d (roundInt .rne neg sr n d) fun q => q % 2 = 0) ∧
    (nearest n d (roundInt .rna neg sr n d) fun q => n ≤ d * q) ∧
    roundInt .rtz neg sr n d = n / d ∧
    roundInt .rup neg sr n d = (if neg then n / d else (n + d - 1) / d) ∧
    roundInt .rdn neg sr n d = (if neg then (n + d - 1) / d else n / d) ∧
    roundInt .sr neg sr n d = n / d + (if 2 ^ 32 ≤ n % d * 2 ^ 32 / d + sr then 1 else 0)
  ) ∧
  (
  (∀ x : RFields, deliversPat (.fadd x) x.guard 0x30 x.d (some x.mods.rnd) zeroExt
    (roundedTo x.ty x.mods fun r => exactAdd (r.fval x.ty x.a x.mods.na) (r.fval x.ty x.b x.mods.nb) (r.mode x.mods.rnd))) ∧
  (∀ x : RFields, deliversPat (.fsub x) x.guard 0x31 x.d (some x.mods.rnd) zeroExt
    (roundedTo x.ty x.mods fun r => exactAdd (r.fval x.ty x.a x.mods.na) (r.fval x.ty x.b x.mods.nb).neg (r.mode x.mods.rnd))) ∧
  (∀ x : RFields, deliversPat (.fmul x) x.guard 0x32 x.d (some x.mods.rnd) zeroExt
    (roundedTo x.ty x.mods fun r => exactMul (r.fval x.ty x.a x.mods.na) (r.fval x.ty x.b x.mods.nb))) ∧
  (∀ x : RFields, deliversPat (.fdiv x) x.guard 0x33 x.d (some x.mods.rnd) zeroExt
    (roundedTo x.ty x.mods fun r => exactDiv (r.fval x.ty x.a x.mods.na) (r.fval x.ty x.b x.mods.nb))) ∧
  (∀ x : RFields, deliversPat (.fsqrt x) x.guard 0x34 x.d (some x.mods.rnd) zeroExt
    (roundedTo x.ty x.mods fun r => exactSqrt (r.fval x.ty x.a x.mods.na))) ∧
  (∀ x : RFields, deliversPat (.ffma x) x.guard 0x35 x.d (some x.mods.rnd) zeroExt
    (roundedTo x.ty x.mods fun r => exactFma (r.fval x.ty x.a x.mods.na) (r.fval x.ty x.b x.mods.nb) (r.fval x.ty x.c x.mods.nc)
      (r.mode x.mods.rnd))) ∧
  (∀ x : RFields, deliversPat (.fscl x) x.guard 0x3E x.d (some x.mods.rnd) zeroExt
    (roundedTo x.ty x.mods fun r => exactScale (r.fval x.ty x.a x.mods.na) (r.readG x.b).toInt)) ∧
  (∀ x : IFields, deliversPat (.fmvi x) x.guard 0x3C x.d (some x.mods.rnd) zeroExt
    fun r => (tyFmt x.ty).deliver (fmtB16.value x.imm.toNat) (r.mode x.mods.rnd) x.mods.sat (r.sr 255 0)) ∧
  (∀ x : RFields, deliversPat (.frnd x) x.guard 0x3D x.d (some x.mods.rnd) zeroExt fun r =>
    let q := roundIntegral (r.fval x.ty x.a x.mods.na) (r.mode x.mods.rnd) (r.sr 0 0)
    let p := (tyFmt x.ty).deliver q.1 .rtz false 0
    (p.1, p.2 ||| (if x.mods.w = true ∧ q.2 = false then 1 else 0))) ∧
  (∀ x : CvtFields, deliversPat (.fcvt x) x.guard 0x3A x.d (some x.mods.rnd) (fun p => extended x.ty (BitVec.ofNat x.ty.bits p))
    fun r => convertPat x.ty x.src ((r.readG x.a).toNat % 2 ^ x.src.bits) (r.mode x.mods.rnd) x.mods.sat (r.sr 0 0))
  ) ∧
  (
  (∀ x : RFields, deliversPat (.fmin x) x.guard 0x36 x.d none zeroExt
    fun r => (tyFmt x.ty).minMax false (r.fpat x.ty x.a x.mods.na) (r.fpat x.ty x.b x.mods.nb)) ∧
  (∀ x : RFields, deliversPat (.fmax x) x.guard 0x37 x.d none zeroExt
    fun r => (tyFmt x.ty).minMax true (r.fpat x.ty x.a x.mods.na) (r.fpat x.ty x.b x.mods.nb)) ∧
  (∀ x : RFields, deliversPat (.fcmp x) x.guard 0x38 x.d none zeroExt fun r =>
    let a := r.fval x.ty x.a x.mods.na
    let b := r.fval x.ty x.b x.mods.nb
    if a.isSig || b.isSig then (8, 16 + 32)
    else if a.isNan || b.isNan then (8, if x.mods.w then 16 else 0)
    else (if a.lt b then 1 else if b.lt a then 4 else 2, 0)) ∧
  (∀ x : RFields, (x.ty = .f16 ∨ x.ty = .bf16 ∨ x.ty = .f32 ∨ x.ty = .f64) →
    writesG (.fclass x) x.guard 0x39 x.d fun r => BitVec.ofNat 64 (2 ^ classBit (tyFmt x.ty) (r.fpat x.ty x.a false))) ∧
  (∀ x : RFields, (x.ty = .f16 ∨ x.ty = .bf16 ∨ x.ty = .f32 ∨ x.ty = .f64) → ∀ s k sl f, Runs s k sl f x.guard →
    ∃ p : Dword, exec (.fsgn x) s = wrote s k sl f 0x3B (f.r.writeG x.d p) ∧
      (∀ j, j < x.ty.bits - 1 → p.getLsbD j = (f.r.readG x.a).getLsbD j) ∧ (∀ j, x.ty.bits ≤ j → p.getLsbD j = false) ∧
      p.getLsbD (x.ty.bits - 1) =
        let neg := (f.r.readG x.b).getLsbD (x.ty.bits - 1) ^^ x.mods.nb
        if x.mods.w then (f.r.readG x.a).getLsbD (x.ty.bits - 1) ^^ neg else neg) ∧
  (∀ x : RFields, ∀ s k sl f, Runs s k sl f x.guard →
    let a := f.r.readG x.a
    (a.toNat < 32 → enables f.r &&& a.setWidth 5 = 0 →
      exec (.fflg x) s = wrote s k sl f 0x3F ((flagged f.r (a.setWidth 5)).writeG x.d ((f.r.sys.fcsr.extractLsb' 0 5).setWidth 64))) ∧
    (a.toNat < 32 → enables f.r &&& a.setWidth 5 ≠ 0 → exec (.fflg x) s = traps s k { code := 0x0B, fl := a.setWidth 5 }) ∧
    (32 ≤ a.toNat → exec (.fflg x) s = traps s k { code := 0x09, info := a }))
  )

/-! ### Vector instructions (R233 to R248) -/

namespace Sys2Proof.Safety
open Sys2Proof.Machine

/-- An operand names a vector register: one by number, or `v[gN]` with gN below 64 (03 R48). -/
def named (x : Reg) (r : Regs) : Prop := ∃ n, r.vecNum x = .ok n

/-- The register that it names. -/
def vnum (r : Regs) (x : Reg) : Fin 64 := match r.vecNum x with | .ok n => n | .error _ => 0

/-- Element `e` of width `w` of a named register, and the same as an integer and as a floating-point value with an optional negation. -/
def elemBits (r : Regs) (x : Reg) (w e : Nat) : Nat := velem (r.v.get (vnum r x)) w e
def elemAs (t : Ty) (x : Reg) (r : Regs) (e : Nat) : Int := valueOf t (BitVec.ofNat 64 (elemBits r x t.bits e))
def elemFl (t : Ty) (neg : Bool) (x : Reg) (r : Regs) (e : Nat) : FVal :=
  (tyFmt t).value (if t.isFloat then (tyFmt t).negate neg (elemBits r x t.bits e) else elemBits r x t.bits e)

/-- Element `e` of width `w` is enabled: bit floor(e * w / 32) of the predicate (R215). -/
def enabledBy (pm : Fin 16) (w : Nat) (r : Regs) (e : Nat) : Bool := (r.pr pm).getLsbD (e * w / 32)

/-- All four lanes of block `b` are enabled (10 R203). -/
def blockEnabled (pm : Fin 16) (r : Regs) (b : Nat) : Bool :=
  (r.pr pm).getLsbD (4 * b) && (r.pr pm).getLsbD (4 * b + 1) && (r.pr pm).getLsbD (4 * b + 2) && (r.pr pm).getLsbD (4 * b + 3)

/-- Registers that agree but for vector registers that `m` names, for FCSR, the raised flags and the stochastic count. -/
def sameBut (m : Fin 64 → Prop) (r q : Regs) : Prop :=
  (∀ n, ¬ m n → q.v.get n = r.v.get n) ∧ q.g = r.g ∧ q.p = r.p ∧ q.acc = r.acc ∧ q.c = r.c ∧ q.stamp = r.stamp ∧
    (∃ z, q.sys = { r.sys with fcsr := z })

/-- An instruction that writes elements of width `w` of a vector register where `on` says so: the other elements and every other
register keep their values. -/
def writesElems (i : Instr) (g : Guard) (op : Nat) (d : Reg) (pre : Regs → Prop) (w : Nat) (on : Regs → Nat → Bool)
    (res : Regs → Nat → Nat) : Prop :=
  ∀ s k sl f, Runs s k sl f g → named d f.r → pre f.r →
    ∃ r, exec i s = wrote s k sl f op r ∧ sameBut (fun n => n = vnum f.r d) f.r r ∧
      ∀ e, e < 2048 / w → velem (r.v.get (vnum f.r d)) w e = if on f.r e then res f.r e % 2 ^ w else elemBits f.r d w e

/-- Two and three named sources. -/
def two (a b : Reg) (r : Regs) : Prop := named a r ∧ named b r
def three (a b c : Reg) (r : Regs) : Prop := named a r ∧ named b r ∧ named c r

/-- No trap enabled, besides. -/
def calm (p : Regs → Prop) (r : Regs) : Prop := quiet r ∧ p r

/-- Every type but E2M1. -/
def plain (t : Ty) (r : Regs → Prop) (q : Regs) : Prop := t ≠ .e2m1 ∧ r q

/-- The flags of the enabled elements among the first `n`, each with its element. -/
def flagList (n : Nat) (on : Nat → Bool) (fl : Nat → Nat) : List (Nat × Nat) := ((List.range n).filter on).map fun e => (e, fl e)

/-- An instruction that raises the flags of a list (10 R209 to R212): where they trap it does, and writes nothing; else it goes on with the
registers that hold them. -/
def raises (i : Instr) (s : State) (k : Nat) (r : Regs) (l : List (Nat × Nat)) (goes : Regs → Prop) : Prop :=
  (∀ t, r.raise l = .error (.trap t) → exec i s = traps s k t) ∧ (∀ q, r.raise l = .ok q → goes q)

/-- An instruction that writes elements of width `w` of a vector register where `on` says so, and raises the flags of the enabled elements
and those in `more`: `res` gives the pattern and the flags of each; it counts where `rounds` says that it rounds stochastically (10 R206). -/
def writesFlagged (i : Instr) (g : Guard) (op : Nat) (d : Reg) (pre : Regs → Prop) (w : Nat) (on : Regs → Nat → Bool)
    (more : Regs → List (Nat × Nat)) (rounds : Regs → Bool) (res : Regs → Nat → Nat × Nat) : Prop :=
  ∀ s k sl f, Runs s k sl f g → named d f.r → pre f.r →
    raises i s k f.r (more f.r ++ flagList (2048 / w) (on f.r) fun e => (res f.r e).2) fun q =>
      ∃ r, exec i s = wrote s k sl f op r ∧
        r = { q with v := r.v, srCount := if rounds f.r then f.r.srCount + 1 else f.r.srCount } ∧
        (∀ n, n ≠ vnum f.r d → r.v.get n = f.r.v.get n) ∧
        ∀ e, e < 2048 / w → velem (r.v.get (vnum f.r d)) w e = if on f.r e then (res f.r e).1 % 2 ^ w else elemBits f.r d w e

/-- The pattern of an integer result that wraps or clamps (R218), with OF where it clamps. -/
def clamped (t : Ty) (sat : Bool) (v : Int) : Int := if sat then (if v < least t then least t else if most t < v then most t else v) else v
def intPattern (t : Ty) (sat : Bool) (v : Int) : Nat := (BitVec.ofInt t.bits (clamped t sat v)).toNat
def intResult (t : Ty) (sat : Bool) (v : Int) : Nat × Nat := (intPattern t sat v, if sat = true ∧ (v < least t ∨ most t < v) then 4 else 0)

/-- The pattern and the flags of a floating-point result rounded once for element `e`. -/
def floatResult (t : Ty) (m : Mods) (r : Regs) (e : Nat) (x : Exact) : Nat × Nat := (tyFmt t).result x (r.mode m.rnd) m.sat (r.sr 0 e)

/-- Arithmetic on elements: `fi` on integers, `ff` on floating-point values. -/
def arithElem (t : Ty) (m : Mods) (fi : Regs → Nat → Int) (ff : Regs → Nat → Exact) (r : Regs) (e : Nat) : Nat × Nat :=
  if t.isInt then intResult t m.sat (fi r e) else floatResult t m r e (ff r e)

/-- The instruction rounds stochastically. -/
def stochastic (m : Rnd) (r : Regs) : Bool := decide (r.mode m = .sr)

/-- Arithmetic on the elements of a type where the predicate enables them. -/
def vectorOp (i : Instr) (x : RFields) (op : Nat) (pre : Regs → Prop) (fi : Regs → Nat → Int) (ff : Regs → Nat → Exact) : Prop :=
  writesFlagged i x.guard op x.d pre x.ty.bits (enabledBy x.pm x.ty.bits) (fun _ => []) (fun r => x.ty.isFloat && stochastic x.mods.rnd r)
    (arithElem x.ty x.mods fi ff)

/-- The same with an immediate, whose conversion raises flags of its own: they count against element 0 (log 121). -/
def immediateOp (i : Instr) (x : IFields) (op : Nat) (fi : Regs → Nat → Int) (ff : Regs → Nat → Exact) : Prop :=
  writesFlagged i x.guard op x.d (plain x.ty (named x.a)) x.ty.bits (enabledBy x.pm x.ty.bits)
    (fun r => if x.ty.isInt then [] else [(0, (r.immFloat x.ty x.mods x.imm).2)]) (fun r => !x.ty.isInt && stochastic x.mods.rnd r)
    (arithElem x.ty x.mods fi ff)

/-- A floating-point function of one vector that rounds once (R234). -/
def vectorFun (i : Instr) (x : RFields) (op : Nat) (pre : Regs → Prop) (ff : Regs → Nat → Exact) : Prop :=
  writesFlagged i x.guard op x.d pre x.ty.bits (enabledBy x.pm x.ty.bits) (fun _ => []) (stochastic x.mods.rnd)
    fun r e => floatResult x.ty x.mods r e (ff r e)

/-- An instruction on the elements of a type that does not round. -/
def plainOp (i : Instr) (x : RFields) (op : Nat) (pre : Regs → Prop) (res : Regs → Nat → Nat × Nat) : Prop :=
  writesFlagged i x.guard op x.d pre x.ty.bits (enabledBy x.pm x.ty.bits) (fun _ => []) (fun _ => false) res

/-- A value as the addend of an exact sum: a signalling NaN raises NV as an operand (10 R210). -/
def addend (v : FVal) : Exact := { v := if v.isNan then .nan false else v, fl := if v.isSig then 16 + 32 else 0 }

/-- Lane `e` of VDOT (R236): the lane of vC and the products of the elements in it, summed exactly; an integer lane wraps or clamps, and a
floating-point one is rounded once to F32. -/
def dotResult (x : RFields) (r : Regs) (e : Nat) : Nat × Nat :=
  let ks := (List.range (32 / x.ty.bits)).map fun j => 32 / x.ty.bits * e + j
  let lane : Ty := if x.ty.signed then .i32 else .n32
  if x.ty.isInt then
    intResult lane x.mods.sat ((ks.map fun j => elemAs x.ty x.a r j * elemAs x.ty x.b r j).sum + elemAs lane x.c r e)
  else
    let z := exactSum (addend (elemFl .f32 x.mods.nc x.c r e) ::
      ks.map fun j => exactMul (elemFl x.ty x.mods.na x.a r j) (elemFl x.ty x.mods.nb x.b r j)) (r.mode x.mods.rnd)
    fmt32.result z (r.mode x.mods.rnd) x.mods.sat (r.sr 0 e)

end Sys2Proof.Safety

/-- R233, R235, R236: vector arithmetic, integer and floating point, element by element; disabled elements keep their values. The flags
of the enabled elements are raised together, and an enabled one traps. R233, R234: vector functions of one source, shifts, bit
operations, minimum and maximum, scaling and classes, with their flags. Choices of the model in it stand in the assumption log: 12,
121. -/
def Obligations.VectorElementArithmetic : Prop :=
  (
  (∀ x : RFields, vectorOp (.vadd x) x 0x40 (two x.a x.b) (fun r e => elemAs x.ty x.a r e + elemAs x.ty x.b r e)
    fun r e => exactAdd (elemFl x.ty x.mods.na x.a r e) (elemFl x.ty x.mods.nb x.b r e) (r.mode x.mods.rnd)) ∧
  (∀ x : RFields, vectorOp (.vsub x) x 0x41 (two x.a x.b) (fun r e => elemAs x.ty x.a r e - elemAs x.ty x.b r e)
    fun r e => exactAdd (elemFl x.ty x.mods.na x.a r e) (elemFl x.ty x.mods.nb x.b r e).neg (r.mode x.mods.rnd)) ∧
  (∀ x : RFields, vectorOp (.vmul x) x 0x42 (two x.a x.b) (fun r e => elemAs x.ty x.a r e * elemAs x.ty x.b r e)
    fun r e => exactMul (elemFl x.ty x.mods.na x.a r e) (elemFl x.ty x.mods.nb x.b r e)) ∧
  (∀ x : RFields, vectorOp (.vfma x) x 0x43 (three x.a x.b x.c)
    (fun r e => elemAs x.ty x.a r e * elemAs x.ty x.b r e + elemAs x.ty x.c r e)
    fun r e => exactFma (elemFl x.ty x.mods.na x.a r e) (elemFl x.ty x.mods.nb x.b r e) (elemFl x.ty x.mods.nc x.c r e) (r.mode x.mods.rnd)) ∧
  (∀ x : RFields, vectorOp (.vdiv x) x 0x44 (two x.a x.b) (fun r e => quotient x.ty (elemAs x.ty x.a r e) (elemAs x.ty x.b r e))
    fun r e => exactDiv (elemFl x.ty x.mods.na x.a r e) (elemFl x.ty x.mods.nb x.b r e)) ∧
  (∀ x : RFields, vectorOp (.vadds x) x 0x59 (named x.a) (fun r e => elemAs x.ty x.a r e + src x.ty x.b r)
    fun r e => exactAdd (elemFl x.ty x.mods.na x.a r e) (r.fval x.ty x.b x.mods.nb) (r.mode x.mods.rnd)) ∧
  (∀ x : RFields, vectorOp (.vsubs x) x 0x5A (named x.a) (fun r e => elemAs x.ty x.a r e - src x.ty x.b r)
    fun r e => exactAdd (elemFl x.ty x.mods.na x.a r e) (r.fval x.ty x.b x.mods.nb).neg (r.mode x.mods.rnd)) ∧
  (∀ x : IFields, immediateOp (.vaddi x) x 0x5D (fun r e => elemAs x.ty x.a r e + if x.ty.signed then x.imm.toInt else x.imm.toNat)
    fun r e => exactAdd (elemFl x.ty x.mods.na x.a r e) ((tyFmt x.ty).value (r.immFloat x.ty x.mods x.imm).1) (r.mode x.mods.rnd)) ∧
  (∀ x : IFields, immediateOp (.vmuli x) x 0x5E (fun r e => elemAs x.ty x.a r e * if x.ty.signed then x.imm.toInt else x.imm.toNat)
    fun r e => exactMul (elemFl x.ty x.mods.na x.a r e) ((tyFmt x.ty).value (r.immFloat x.ty x.mods x.imm).1)) ∧
  (∀ x : RFields, writesFlagged (.vdot x) x.guard 0x5C x.d (three x.a x.b x.c) 32 (enabledBy x.pm 32) (fun _ => [])
    (fun r => x.ty.isFloat && stochastic x.mods.rnd r) (dotResult x))
  ) ∧
  (
  (∀ x : RFields, vectorFun (.vsqrt x) x 0x45 (named x.a) fun r e => exactSqrt (elemFl x.ty x.mods.na x.a r e)) ∧
  (∀ x : RFields, vectorFun (.vrcp x) x 0x46 (named x.a) fun r e => exactDiv (.num false 1 1) (elemFl x.ty x.mods.na x.a r e)) ∧
  (∀ x : RFields, vectorFun (.vrsq x) x 0x47 (named x.a) fun r e => exactRsqrt (elemFl x.ty x.mods.na x.a r e)) ∧
  (∀ x : RFields, vectorFun (.vexp2 x) x 0x55 (named x.a) fun r e => exactExp2 (elemFl x.ty x.mods.na x.a r e)) ∧
  (∀ x : RFields, vectorFun (.vlog2 x) x 0x56 (named x.a) fun r e => exactLog2 (elemFl x.ty x.mods.na x.a r e)) ∧
  (∀ x : RFields, vectorFun (.vscl x) x 0x57 (two x.a x.b) fun r e =>
    exactScale (elemFl x.ty x.mods.na x.a r e) (BitVec.ofNat x.ty.bits (elemBits r x.b x.ty.bits e)).toInt) ∧
  (∀ x : RFields, x.ty.isInt = true → plainOp (.vmin x) x 0x48 (two x.a x.b)
    fun r e => (intPattern x.ty false (min (elemAs x.ty x.a r e) (elemAs x.ty x.b r e)), 0)) ∧
  (∀ x : RFields, x.ty.isInt = true → plainOp (.vmax x) x 0x49 (two x.a x.b)
    fun r e => (intPattern x.ty false (max (elemAs x.ty x.a r e) (elemAs x.ty x.b r e)), 0)) ∧
  (∀ x : RFields, x.ty.isFloat = true → plainOp (.vmin x) x 0x48 (two x.a x.b)
    fun r e => (tyFmt x.ty).minMax false ((tyFmt x.ty).negate x.mods.na (elemBits r x.a x.ty.bits e))
      ((tyFmt x.ty).negate x.mods.nb (elemBits r x.b x.ty.bits e))) ∧
  (∀ x : RFields, x.ty.isFloat = true → plainOp (.vmax x) x 0x49 (two x.a x.b)
    fun r e => (tyFmt x.ty).minMax true ((tyFmt x.ty).negate x.mods.na (elemBits r x.a x.ty.bits e))
      ((tyFmt x.ty).negate x.mods.nb (elemBits r x.b x.ty.bits e))) ∧
  (∀ x : RFields, x.ty.isInt = true → plainOp (.vabs x) x 0x4A (named x.a)
    fun r e => intResult x.ty x.mods.sat (elemAs x.ty x.a r e).natAbs) ∧
  (∀ x : RFields, x.ty.isInt = true → plainOp (.vneg x) x 0x4B (named x.a)
    fun r e => intResult x.ty x.mods.sat (-(elemAs x.ty x.a r e))) ∧
  (∀ x : RFields, (x.ty = .f16 ∨ x.ty = .bf16 ∨ x.ty = .f32 ∨ x.ty = .f64) → plainOp (.vabs x) x 0x4A (named x.a)
      fun r e => (elemBits r x.a x.ty.bits e % 2 ^ (x.ty.bits - 1), 0)) ∧
  (∀ x : RFields, (x.ty = .f16 ∨ x.ty = .bf16 ∨ x.ty = .f32 ∨ x.ty = .f64) → plainOp (.vneg x) x 0x4B (named x.a)
      fun r e => (elemBits r x.a x.ty.bits e ^^^ 2 ^ (x.ty.bits - 1), 0)) ∧
  (∀ x : RFields, x.mods.na = false → x.mods.nb = false → plainOp (.vand x) x 0x4C (two x.a x.b)
      fun r e => (elemBits r x.a x.ty.bits e &&& elemBits r x.b x.ty.bits e, 0)) ∧
  (∀ x : RFields, x.mods.na = false → x.mods.nb = false → plainOp (.vor x) x 0x4D (two x.a x.b)
      fun r e => (elemBits r x.a x.ty.bits e ||| elemBits r x.b x.ty.bits e, 0)) ∧
  (∀ x : RFields, x.mods.na = false → x.mods.nb = false → plainOp (.vxor x) x 0x4E (two x.a x.b)
      fun r e => (elemBits r x.a x.ty.bits e ^^^ elemBits r x.b x.ty.bits e, 0)) ∧
  (∀ x : RFields, x.ty.isInt = true → plainOp (.vshl x) x 0x4F (two x.a x.b)
    fun r e => intResult x.ty x.mods.sat (elemAs x.ty x.a r e * 2 ^ elemBits r x.b x.ty.bits e)) ∧
  (∀ x : RFields, x.ty.isInt = true → plainOp (.vshr x) x 0x50 (two x.a x.b)
    fun r e => (elemBits r x.a x.ty.bits e >>> elemBits r x.b x.ty.bits e, 0)) ∧
  (∀ x : RFields, x.ty.isInt = true → plainOp (.vsar x) x 0x51 (two x.a x.b)
    fun r e => (((BitVec.ofNat x.ty.bits (elemBits r x.a x.ty.bits e)).sshiftRight (elemBits r x.b x.ty.bits e)).toNat, 0)) ∧
  (∀ x : RFields, x.ty.isInt = true → plainOp (.vmulh x) x 0x5B (two x.a x.b)
    fun r e => (intPattern x.ty false ((elemAs x.ty x.a r e * elemAs x.ty x.b r e).fdiv (2 ^ x.ty.bits)), 0)) ∧
  (∀ x : RFields, (x.ty = .f16 ∨ x.ty = .bf16 ∨ x.ty = .f32 ∨ x.ty = .f64) → plainOp (.vclass x) x 0x58 (named x.a)
    fun r e => (2 ^ classBit (tyFmt x.ty) (elemBits r x.a x.ty.bits e), 0))
  )

/-- R48: an indirect operand names the vector register whose number is in 0 to 63, and a larger value traps 0x09 with the value. R239,
R240, R241: the moves, permutations and selections of elements. An element index beyond the vector traps 0x09. R203, R239, R240: the
moves of E2M1 blocks: a block is written with its scale, and only when its four lanes are enabled. -/
def Obligations.VectorMovesAndPermutations : Prop :=
  (
  ∀ (r : Regs) (n : Fin 64),
    ((r.gr n).toNat < 64 → r.vecNum (.vi n) = .ok (Fin.ofNat 64 (r.gr n).toNat)) ∧
    (64 ≤ (r.gr n).toNat → r.vecNum (.vi n) = .error (.trap { code := 0x09, info := r.gr n }))
  ) ∧
  (
  (∀ x : RFields, writesElems (.vmov x) x.guard 0x6F x.d (plain x.ty (named x.a)) x.ty.bits (enabledBy x.pm x.ty.bits)
    fun r e => elemBits r x.a x.ty.bits e) ∧
  (∀ x : RFields, writesElems (.vbcst x) x.guard 0x5F x.d (plain x.ty fun _ => True) x.ty.bits (enabledBy x.pm x.ty.bits)
    fun r _ => (r.readG x.a).toNat) ∧
  (∀ x : RFields, writesElems (.vidx x) x.guard 0x62 x.d (fun _ => True) x.ty.bits (enabledBy x.pm x.ty.bits)
    fun r e => (r.readG x.a).toNat + e * (r.readG x.b).toNat) ∧
  (∀ x : RFields, writesElems (.vins x) x.guard 0x61 x.d (fun r => (r.readG x.b).toNat < 2048 / x.ty.bits) x.ty.bits
    (fun r e => e == (r.readG x.b).toNat && enabledBy x.pm x.ty.bits r e) fun r _ => (r.readG x.a).toNat) ∧
  (∀ x : RFields, writesElems (.vperm x) x.guard 0x65 x.d (plain x.ty (two x.a x.b)) x.ty.bits (enabledBy x.pm x.ty.bits)
    fun r e => elemBits r x.a x.ty.bits (elemBits r x.b x.ty.bits e % (2048 / x.ty.bits))) ∧
  (∀ x : RFields, writesElems (.vshuf x) x.guard 0x66 x.d (plain x.ty fun r => two x.a x.b r ∧ (r.readG x.c).toNat < 4) x.ty.bits
    (enabledBy x.pm x.ty.bits) fun r e =>
      let m := 2048 / x.ty.bits
      let w := x.ty.bits
      match (r.readG x.c).toNat with
      | 0 => elemBits r (if e % 2 = 0 then x.a else x.b) w (e / 2)
      | 1 => elemBits r (if e % 2 = 0 then x.a else x.b) w (m / 2 + e / 2)
      | 2 => elemBits r (if e < m / 2 then x.a else x.b) w (2 * (e % (m / 2)))
      | _ => elemBits r (if e < m / 2 then x.a else x.b) w (2 * (e % (m / 2)) + 1)) ∧
  (∀ x : RFields, writesElems (.vsel x) x.guard 0x53 x.d (two x.a x.b) x.ty.bits (enabledBy x.pm x.ty.bits)
    fun r e => if (r.readP x.c).getLsbD (e * x.ty.bits / 32) then elemBits r x.a x.ty.bits e else elemBits r x.b x.ty.bits e) ∧
  (∀ x : RFields, writesElems (.vcmpr x) x.guard 0x67 x.d (named x.a) x.ty.bits (enabledBy x.pm x.ty.bits) fun r e =>
    let chosen := (List.range (2048 / x.ty.bits)).filter fun j => (r.readP x.b).getLsbD (j * x.ty.bits / 32)
    if e < chosen.length then elemBits r x.a x.ty.bits (chosen.getD e 0) else 0) ∧
  (∀ x : RFields, writesElems (.vexpn x) x.guard 0x68 x.d (named x.a) x.ty.bits (enabledBy x.pm x.ty.bits) fun r e =>
    let sel := fun j => (r.readP x.b).getLsbD (j * x.ty.bits / 32)
    if sel e then elemBits r x.a x.ty.bits ((List.range e).countP sel) else 0) ∧
  (∀ x : RFields, ∀ s k sl f, Runs s k sl f x.guard → named x.a f.r →
    let j := f.r.readG x.b
    (j.toNat < 2048 / x.ty.bits → exec (.vext x) s = wrote s k sl f 0x60
      (f.r.writeG x.d (extended x.ty (BitVec.ofNat x.ty.bits (elemBits f.r x.a x.ty.bits j.toNat))))) ∧
    (2048 / x.ty.bits ≤ j.toNat → exec (.vext x) s = traps s k { code := 0x09, info := j })) ∧
  (∀ x : RFields, ∀ s k sl f, Runs s k sl f x.guard → named x.d f.r →
    2048 / x.ty.bits ≤ (f.r.readG x.b).toNat → exec (.vins x) s = traps s k { code := 0x09, info := f.r.readG x.b }) ∧
  (∀ x : RFields, ∀ s k sl f, Runs s k sl f x.guard →
    4 ≤ (f.r.readG x.c).toNat → exec (.vshuf x) s = traps s k { code := 0x09, info := f.r.readG x.c })
  ) ∧
  (
  ∀ (i : Instr) (x : RFields) (op : Nat) (pick : Regs → Nat → (Nat → Nat) × Nat), x.ty = .e2m1 →
    ((i = .vmov x ∧ op = 0x6F ∧ pick = fun r b => (fun e => elemBits r x.a 4 (32 * b + e), velem (r.v.get (vnum r x.a + 1)) 8 b)) ∨
     (i = .vbcst x ∧ op = 0x5F ∧ pick = fun r _ => (fun _ => (r.readG x.a).toNat % 16, (r.readG x.a).toNat / 256 % 256)) ∨
     (i = .vperm x ∧ op = 0x65 ∧ pick = fun r b =>
       let j := elemBits r x.b 8 b % 16
       (fun e => elemBits r x.a 4 (32 * j + e), velem (r.v.get (vnum r x.a + 1)) 8 j))) →
    ∀ s k sl f, Runs s k sl f x.guard → named x.d f.r → named x.a f.r → (i = .vperm x → named x.b f.r) →
      ∃ r, exec i s = wrote s k sl f op r ∧ sameBut (fun n => n = vnum f.r x.d ∨ n = vnum f.r x.d + 1) f.r r ∧
        (∀ b e, b < 16 → e < 32 → velem (r.v.get (vnum f.r x.d)) 4 (32 * b + e) =
          if blockEnabled x.pm f.r b then (pick f.r b).1 e else elemBits f.r x.d 4 (32 * b + e)) ∧
        ∀ b, b < 16 → velem (r.v.get (vnum f.r x.d + 1)) 8 b =
          if blockEnabled x.pm f.r b then (pick f.r b).2 else velem (f.r.v.get (vnum f.r x.d + 1)) 8 b
  )

namespace Sys2Proof.Safety
open Sys2Proof.Machine

/-- The flags with which the enabled elements enter a reduction: NV of a signalling NaN (R244). -/
def entering (t : Ty) (x : Reg) (on : Nat → Bool) (r : Regs) : List (Nat × Nat) :=
  flagList (2048 / t.bits) on fun e => if t.isFloat && (elemFl t false x r e).isSig then 16 + 32 else 0

/-- The running value of VSCAN before element `e`: the combination of the enabled elements below it (R246). -/
def running (t : Ty) (sat : Bool) (c : Nat) (x : Reg) (on : Nat → Bool) (r : Regs) (e : Nat) : Nat :=
  ((List.range e).filter on).foldl (fun acc j => (combine t sat c acc (enter t (elemBits r x t.bits j)).1).1) (identity t c)

end Sys2Proof.Safety

/-- R242, R243, R244, R245: comparisons and truth tables write predicates, VPCNT counts and VRED reduces into a general register, with
the flags of the elements; a function code beyond its range traps 0x09. Choices of the model in it stand in the assumption log: 98. -/
def Obligations.VectorPredicates : Prop :=
  (∀ x : RFields, x.ty ≠ .e2m1 → ∀ s k sl f, Runs s k sl f x.guard → named x.a f.r → named x.b f.r →
    (f.r.readG x.c).toNat < 16 →
    let w := x.ty.bits
    let rel := fun e => if x.ty.isInt then (relInt (elemAs x.ty x.a f.r e) (elemAs x.ty x.b f.r e), 0) else
      relFloat (elemFl x.ty x.mods.na x.a f.r e) (elemFl x.ty x.mods.nb x.b f.r e) x.mods.w
    raises (.vcmp x) s k f.r (flagList (2048 / w) (enabledBy x.pm w f.r) fun e => (rel e).2) fun q =>
      ∃ p, exec (.vcmp x) s = wrote s k sl f 0x52 (q.writeP x.d p) ∧
      ∀ j, j < 64 →
        let holds := fun e => (rel e).1 &&& (f.r.readG x.c).toNat != 0
        p.getLsbD j =
          if w = 64 then (if enabledBy x.pm w f.r (j / 2) then holds (j / 2) else (f.r.readP x.d).getLsbD j)
          else if (f.r.pr x.pm).getLsbD j then (List.range (32 / w)).all fun e => holds (j * (32 / w) + e)
          else (f.r.readP x.d).getLsbD j) ∧
  (∀ x : RFields, ∀ s k sl f, Runs s k sl f x.guard → (f.r.readG x.c).toNat < 16 →
    ∃ p, exec (.plog x) s = wrote s k sl f 0x6A (f.r.writeP x.d p) ∧ ∀ j, j < 64 →
      p.getLsbD j = if (f.r.pr x.pm).getLsbD j then
        (f.r.readG x.c).getLsbD (2 * ((f.r.readP x.a).getLsbD j).toNat + ((f.r.readP x.b).getLsbD j).toNat)
      else (f.r.readP x.d).getLsbD j) ∧
  (∀ x : RFields, writesG (.vpcnt x) x.guard 0x69 x.d fun r =>
    BitVec.ofNat 64 ((List.range (2048 / x.ty.bits)).countP fun e => (r.readP x.a).getLsbD (e * x.ty.bits / 32))) ∧
  (∀ x : RFields, ∀ s k sl f, Runs s k sl f x.guard → named x.a f.r → (f.r.readG x.c).toNat ≤ (if x.ty.isInt then 5 else 2) →
    let c := (f.r.readG x.c).toNat
    let z := treeOf x.ty x.mods.sat c (f.r.v.get (vnum f.r x.a)) (enabledBy x.pm x.ty.bits f.r)
    raises (.vred x) s k f.r (entering x.ty x.a (enabledBy x.pm x.ty.bits f.r) f.r ++ z.2) fun q =>
      exec (.vred x) s = wrote s k sl f 0x63 (q.writeG x.d (widen x.ty (z.1.getD (identity x.ty c))))) ∧
  (∀ (x : RFields) s k sl f, Runs s k sl f x.guard → 16 ≤ (f.r.readG x.c).toNat →
    exec (.vcmp x) s = traps s k { code := 0x09, info := f.r.readG x.c } ∧
    exec (.plog x) s = traps s k { code := 0x09, info := f.r.readG x.c }) ∧
  (∀ (x : RFields) s k sl f, Runs s k sl f x.guard → (if x.ty.isInt then 5 else 2) < (f.r.readG x.c).toNat →
    exec (.vred x) s = traps s k { code := 0x09, info := f.r.readG x.c } ∧
    exec (.vscan x) s = traps s k { code := 0x09, info := f.r.readG x.c } ∧
    exec (.vseg x) s = traps s k { code := 0x09, info := f.r.readG x.c })

/-- R246, R247, R248: scans, segments and sorting. VSCAN writes the running combination, with or without the element itself; VSEG writes
to each enabled element the tree of its segment, both with the flags of their elements; VSORT writes a list of indices in which
every selected element stands once, none coming before an earlier one, and all ones behind them. -/
def Obligations.ScansAndSorting : Prop :=
  (∀ (x : RFields) s k sl f, Runs s k sl f x.guard → named x.d f.r → named x.a f.r → (f.r.readG x.c).toNat ≤ (if x.ty.isInt then 5 else 2) →
    let c := (f.r.readG x.c).toNat
    let on := enabledBy x.pm x.ty.bits f.r
    let w := x.ty.bits
    let next := fun e => combine x.ty x.mods.sat c (running x.ty x.mods.sat c x.a on f.r e) (enter x.ty (elemBits f.r x.a w e)).1
    raises (.vscan x) s k f.r (entering x.ty x.a on f.r ++ flagList (2048 / w) on fun e => (next e).2) fun q =>
      ∃ r, exec (.vscan x) s = wrote s k sl f 0x64 r ∧ r = { q with v := r.v } ∧
        (∀ n, n ≠ vnum f.r x.d → r.v.get n = f.r.v.get n) ∧ ∀ e, e < 2048 / w → velem (r.v.get (vnum f.r x.d)) w e =
          if on e then (if x.mods.w then running x.ty x.mods.sat c x.a on f.r e else (next e).1) % 2 ^ w else elemBits f.r x.d w e) ∧
  (∀ (x : RFields) s k sl f, Runs s k sl f x.guard → named x.d f.r → named x.a f.r → (f.r.readG x.c).toNat ≤ (if x.ty.isInt then 5 else 2) →
    let on := enabledBy x.pm x.ty.bits f.r
    let w := x.ty.bits
    let starts := fun j => j == 0 || (f.r.readP x.b).getLsbD (j * w / 32)
    let same := fun e j => (List.range (2048 / w)).all fun m => !(decide (min e j < m ∧ m ≤ max e j) && starts m)
    let tree := fun e => treeOf x.ty x.mods.sat (f.r.readG x.c).toNat (f.r.v.get (vnum f.r x.a)) fun j => on j && same e j
    ∃ l, (∀ p, p ∈ l ↔ p ∈ entering x.ty x.a on f.r ∨ ∃ e, e < 2048 / w ∧ on e = true ∧ p ∈ (tree e).2) ∧
      raises (.vseg x) s k f.r l fun q => ∃ r, exec (.vseg x) s = wrote s k sl f 0x6E r ∧ r = { q with v := r.v } ∧
        (∀ n, n ≠ vnum f.r x.d → r.v.get n = f.r.v.get n) ∧ ∀ e, e < 2048 / w → velem (r.v.get (vnum f.r x.d)) w e =
          if on e then ((tree e).1).getD 0 % 2 ^ w else elemBits f.r x.d w e) ∧
  (∀ x : RFields, ∃ order : Regs → List Nat,
    (∀ r, (order r).Perm ((List.range (2048 / x.ty.bits)).filter fun j => (r.readP x.b).getLsbD (j * x.ty.bits / 32))) ∧
    (∀ r, (order r).Pairwise fun i j =>
      let before := sortsBefore x.ty x.mods.w
      before (elemBits r x.a x.ty.bits j) (elemBits r x.a x.ty.bits i) = false ∧
      (before (elemBits r x.a x.ty.bits i) (elemBits r x.a x.ty.bits j) = true ∨ i < j)) ∧
    writesElems (.vsort x) x.guard 0x6D x.d (named x.a) x.ty.bits (enabledBy x.pm x.ty.bits) fun r e =>
      (order r).getD e (2 ^ x.ty.bits - 1))

/-! ### Blocks and conversions of vectors (R203, R204, R235, R237, R238, R240) -/

namespace Sys2Proof.Safety
open Sys2Proof.Machine

/-- An instruction that writes E2M1 blocks with their scales: block `b` where `on` says so becomes the scale and the 32 elements of
`blk`, which come with their flags, raised together; other blocks, and every other register, keep their values. -/
def writesBlocks (i : Instr) (g : Guard) (op : Nat) (d : Reg) (pre : Regs → Prop) (on : Regs → Nat → Bool) (rounds : Regs → Bool)
    (blk : Regs → Nat → Nat × (Nat → Nat × Nat)) : Prop :=
  ∀ s k sl f, Runs s k sl f g → named d f.r → pre f.r →
    raises i s k f.r (flagList 512 (fun e => on f.r (e / 32)) fun e => ((blk f.r (e / 32)).2 (e % 32)).2) fun q =>
      ∃ r, exec i s = wrote s k sl f op r ∧
        r = { q with v := r.v, srCount := if rounds f.r then f.r.srCount + 1 else f.r.srCount } ∧
        (∀ n, n ≠ vnum f.r d → n ≠ vnum f.r d + 1 → r.v.get n = f.r.v.get n) ∧
        (∀ b e, b < 16 → e < 32 → velem (r.v.get (vnum f.r d)) 4 (32 * b + e) =
          if on f.r b then ((blk f.r b).2 e).1 % 16 else elemBits f.r d 4 (32 * b + e)) ∧
        (∀ b, b < 16 → velem (r.v.get (vnum f.r d + 1)) 8 b =
          if on f.r b then (blk f.r b).1 % 256 else velem (f.r.v.get (vnum f.r d + 1)) 8 b) ∧
        ∀ b, 16 ≤ b → b < 256 → velem (r.v.get (vnum f.r d + 1)) 8 b = velem (f.r.v.get (vnum f.r d + 1)) 8 b

/-- 32 values encoded as block `b`, each with the flags of its encoding and its own (10 R204). -/
def encoded (x : Mods) (r : Regs) (b : Nat) (v : Nat → FVal) (fl : Nat → Nat) : Nat × (Nat → Nat × Nat) :=
  let k := encodeBlock ((List.range 32).map v) (r.mode x.rnd) x.sat fun i => r.sr 0 (32 * b + i)
  (k.1, fun e => let z := (k.2[e]?).getD (0, 0); (z.1, z.2 ||| fl e))

/-- Element `e` of E2M1 blocks with the scale of its block. -/
def blockElem (r : Regs) (x : Reg) (e : Nat) : FVal := blockVal (velem (r.v.get (vnum r x + 1)) 8 (e / 32)) (elemBits r x 4 e)

/-- The wider width of a conversion, its elements, and the positions it starts from in the narrower type (R237). -/
def cvtWidth (x : CvtFields) : Nat := max x.ty.bits x.src.bits
def cvtCount (x : CvtFields) : Nat := 2048 / cvtWidth x
def readsFrom (x : CvtFields) : Nat := if x.mods.w ∧ x.src.bits < x.ty.bits then cvtCount x else 0
def writesFrom (x : CvtFields) : Nat := if x.mods.w ∧ x.ty.bits < x.src.bits then cvtCount x else 0

/-- Position `i` of the destination is converted and enabled. -/
def converts (x : CvtFields) (r : Regs) (i : Nat) : Bool :=
  decide (writesFrom x ≤ i ∧ i < writesFrom x + cvtCount x) && (r.pr x.pm).getLsbD ((i - writesFrom x) * cvtWidth x / 32)

/-- The 64 narrow positions of VQNT and VDQT (R238). -/
def narrowFrom (x : RFields) : Nat := if x.mods.w then 64 else 0

/-- The exact product of F32 lane `e` and the scale. -/
def scaledLane (x : RFields) (r : Regs) (e : Nat) : Exact := exactMul (elemFl .f32 false x.a r e) (r.fval .f32 x.b false)

end Sys2Proof.Safety

namespace Sys2Proof.Safety
open Sys2Proof.Machine

/-- A conversion whose destination is not E2M1: it writes the positions that `converts` names with pattern and flags of `res`. -/
def convertsTo (x : CvtFields) (res : Regs → Nat → Nat × Nat) : Prop :=
  writesFlagged (.vcvt x) x.guard 0x54 x.d (named x.a) x.ty.bits (converts x) (fun _ => []) (stochastic x.mods.rnd) res

/-- The flags of an operand that is converted: NV of a signalling NaN (10 R210). -/
def signalling (v : FVal) : Nat := if v.isSig then 16 + 32 else 0

end Sys2Proof.Safety

/-- R203, R204, R235, R240: immediates are added to and multiplied with E2M1 blocks, each encoded anew with its scale and its flags, and
VSHUF moves whole blocks. R237, R238: VCVT converts every enabled element once, or encodes groups of 32 as blocks; VQNT and VDQT
multiply by a scale and convert between 64 lanes of F32 and a narrow type; each raises the flags of what it converts. Choices of the
model in it stand in the assumption log: 13, 126. -/
def Obligations.BlocksAndConversions : Prop :=
  (
  (∀ x : IFields, x.ty = .e2m1 → writesBlocks (.vaddi x) x.guard 0x5D x.d (named x.a) (blockEnabled x.pm) (stochastic x.mods.rnd) fun r b =>
    encoded x.mods r b (fun e => (exactAdd (blockElem r x.a (32 * b + e)) (fmtB16.value x.imm.toNat) (r.mode x.mods.rnd)).v) fun _ => 0) ∧
  (∀ x : IFields, x.ty = .e2m1 → writesBlocks (.vmuli x) x.guard 0x5E x.d (named x.a) (blockEnabled x.pm) (stochastic x.mods.rnd) fun r b =>
    encoded x.mods r b (fun e => (exactMul (blockElem r x.a (32 * b + e)) (fmtB16.value x.imm.toNat)).v) fun _ => 0) ∧
  (∀ x : RFields, x.ty = .e2m1 → writesBlocks (.vshuf x) x.guard 0x66 x.d (fun r => two x.a x.b r ∧ (r.readG x.c).toNat < 4)
    (blockEnabled x.pm) (fun _ => false) fun r b =>
      let z : Reg × Nat := match (r.readG x.c).toNat with
        | 0 => (if b % 2 = 0 then x.a else x.b, b / 2)
        | 1 => (if b % 2 = 0 then x.a else x.b, 8 + b / 2)
        | 2 => (if b < 8 then x.a else x.b, 2 * (b % 8))
        | _ => (if b < 8 then x.a else x.b, 2 * (b % 8) + 1)
      (velem (r.v.get (vnum r z.1 + 1)) 8 z.2, fun e => (elemBits r z.1 4 (32 * z.2 + e), 0)))
  ) ∧
  (
  (∀ x : CvtFields, x.ty ≠ .e2m1 → x.src ≠ .e2m1 → convertsTo x fun r i =>
    convertPat x.ty x.src (elemBits r x.a x.src.bits (i - writesFrom x + readsFrom x)) (r.mode x.mods.rnd) x.mods.sat (r.sr 0 i)) ∧
  (∀ x : CvtFields, x.ty ≠ .e2m1 → x.src = .e2m1 → convertsTo x fun r i =>
    deliverTo x.ty (blockElem r x.a (i - writesFrom x + readsFrom x)) (r.mode x.mods.rnd) x.mods.sat (r.sr 0 i)) ∧
  (∀ x : CvtFields, x.ty = .e2m1 → writesBlocks (.vcvt x) x.guard 0x54 x.d (named x.a)
    (fun r b => (List.range 32).all fun e => converts x r (32 * b + e)) (stochastic x.mods.rnd) fun r b =>
      let v := fun e => if x.src = .e2m1 then blockElem r x.a (32 * b + e) else patVal x.src (elemBits r x.a x.src.bits (32 * b + e - writesFrom x))
      encoded x.mods r b (fun e => if (v e).isNan then .nan false else v e) fun e => signalling (v e)) ∧
  (∀ x : RFields, x.ty ≠ .e2m1 → 128 * x.ty.bits ≤ 2048 → writesFlagged (.vqnt x) x.guard 0x6B x.d (named x.a) x.ty.bits
    (fun r i => decide (narrowFrom x ≤ i ∧ i < narrowFrom x + 64) && enabledBy x.pm 32 r (i - narrowFrom x)) (fun _ => []) (stochastic x.mods.rnd)
    fun r i =>
      let p := scaledLane x r (i - narrowFrom x)
      let q := deliverTo x.ty p.v (r.mode x.mods.rnd) x.mods.sat (r.sr 0 i)
      (q.1, q.2 ||| p.fl)) ∧
  (∀ x : RFields, x.ty = .e2m1 → writesBlocks (.vqnt x) x.guard 0x6B x.d (named x.a)
    (fun r b => decide (narrowFrom x / 32 ≤ b ∧ b < narrowFrom x / 32 + 2) &&
      (List.range 32).all fun e => enabledBy x.pm 32 r (32 * b + e - narrowFrom x)) (stochastic x.mods.rnd) fun r b =>
      encoded x.mods r b (fun e => (scaledLane x r (32 * b + e - narrowFrom x)).v) fun e => (scaledLane x r (32 * b + e - narrowFrom x)).fl) ∧
  (∀ x : RFields, writesFlagged (.vdqt x) x.guard 0x6C x.d (named x.a) 32 (enabledBy x.pm 32) (fun _ => []) (stochastic x.mods.rnd) fun r e =>
    let v := if x.ty = .e2m1 then blockElem r x.a (e + narrowFrom x) else patVal x.ty (elemBits r x.a x.ty.bits (e + narrowFrom x))
    fmt32.result (exactMul v (r.fval .f32 x.b false)) (r.mode x.mods.rnd) x.mods.sat (r.sr 0 e))
  )

/-! ### Control (R96 to R105) -/

namespace Sys2Proof.Safety
open Sys2Proof.Machine

/-- A transfer to index `t`: inside the actor's run the firing stands there with the registers `r`; outside it traps 0x09. -/
def transfers (i : Instr) (s : State) (k : Nat) (sl : Slot) (f : Firing) (op : Nat) (t : Int) (r : Regs) : Prop :=
  ((sl.pl.runBase : Int) ≤ t ∧ t < sl.pl.runBase + sl.pl.runLen → exec i s = did s k sl { f.executed op with pc := t.toNat, r := r }) ∧
  (¬ ((sl.pl.runBase : Int) ≤ t ∧ t < sl.pl.runBase + sl.pl.runLen) → exec i s = traps s k { code := 0x09, info := BitVec.ofInt 64 t })

/-- An absolute transfer: the index must also be below 32,768. -/
def jumps (i : Instr) (s : State) (k : Nat) (sl : Slot) (f : Firing) (op : Nat) (t : Dword) (r : Regs) : Prop :=
  (t.toNat < 32768 ∧ sl.pl.runBase ≤ t.toNat ∧ t.toNat < sl.pl.runBase + sl.pl.runLen →
    exec i s = did s k sl { f.executed op with pc := t.toNat, r := r }) ∧
  (¬ (t.toNat < 32768 ∧ sl.pl.runBase ≤ t.toNat ∧ t.toNat < sl.pl.runBase + sl.pl.runLen) →
    exec i s = traps s k { code := 0x09, info := t })

/-- Registers with condition bit `n` written. -/
def withCond (r : Regs) (n : Nat) (b : Bool) (q : Regs) : Prop :=
  q = { r with c := q.c } ∧ ∀ j, j < 32 → q.c.getLsbD j = if j = n then b else r.c.getLsbD j

/-- An index as a link. -/
def link (f : Firing) : Dword := BitVec.ofNat 64 (f.pc + 1)

end Sys2Proof.Safety

/-- R96, R97, R99: branches, calls, jumps, returns and LOOP: a taken transfer goes to its target inside the run and traps 0x09 outside
it, and one that is not taken goes on; a firing whose index lies outside its actor's run traps 0x09 there and executes nothing. -/
def Obligations.TransfersStayInTheRun : Prop :=
  ∀ s k sl f,
    (∀ x : BFields, Runs s k sl f x.guard → transfers (.bra x) s k sl f 0x02 (f.pc + x.disp.toInt) f.r) ∧
    (∀ x : BFields, Runs s k sl f x.guard → s.cond sl f x.sel.val = true →
      transfers (.brc x) s k sl f 0x03 (f.pc + x.disp.toInt) f.r ∧ exec (.brn x) s = wrote s k sl f 0x04 f.r) ∧
    (∀ x : BFields, Runs s k sl f x.guard → s.cond sl f x.sel.val = false →
      transfers (.brn x) s k sl f 0x04 (f.pc + x.disp.toInt) f.r ∧ exec (.brc x) s = wrote s k sl f 0x03 f.r) ∧
    (∀ x : RFields, Runs s k sl f x.guard → jumps (.jmp x) s k sl f 0x05 (f.r.readG x.a) (f.r.writeG x.d (link f))) ∧
    (∀ x : BFields, Runs s k sl f x.guard → transfers (.call x) s k sl f 0x06 (f.pc + x.disp.toInt) (f.r.setG x.sel (link f))) ∧
    (∀ x : RFields, Runs s k sl f x.guard → jumps (.ret x) s k sl f 0x07 (f.r.readG x.a) f.r) ∧
    (∀ x : BFields, Runs s k sl f x.guard → 1 < (f.r.gr x.sel).toNat →
      transfers (.loop x) s k sl f 0x08 (f.pc + x.disp.toInt) (f.r.setG x.sel (f.r.gr x.sel - 1))) ∧
    (∀ n : Nat, inRun sl n = decide (sl.pl.runBase ≤ n ∧ n < sl.pl.runBase + sl.pl.runLen)) ∧
    (inRun sl f.pc = false → s.runAt k sl f = traps s k { code := 0x09, info := BitVec.ofNat 64 f.pc })

/-- R98: LOOP counts its register down. At 0 it falls through and leaves 0, at 1 it writes 0 and falls through, and else it writes one
less and goes to the target; a target outside the run traps 0x09 and writes nothing. -/
def Obligations.LoopCountsDown : Prop :=
  ∀ s k sl f,
    (∀ x : BFields, Runs s k sl f x.guard →
      (f.r.gr x.sel = 0 → exec (.loop x) s = wrote s k sl f 0x08 f.r) ∧
      (f.r.gr x.sel = 1 → exec (.loop x) s = wrote s k sl f 0x08 (f.r.setG x.sel 0)) ∧
      (1 < (f.r.gr x.sel).toNat → transfers (.loop x) s k sl f 0x08 (f.pc + x.disp.toInt) (f.r.setG x.sel (f.r.gr x.sel - 1))))

/-- R100, R101, R102: NOP, and the condition bits. R105, R370, R382: FABT, TRAP, BRK and CMPT take their traps, with the information
that each gives. -/
def Obligations.ConditionBitsAndTrapInstructions : Prop :=
  (
  ∀ s k sl f,
    (∀ x : RFields, Runs s k sl f x.guard → exec (.nop x) s = wrote s k sl f 0x01 f.r) ∧
    (∀ x : IFields, Runs s k sl f x.guard →
      (∃ r, exec (.cset x) s = wrote s k sl f 0x09 r ∧ withCond f.r (x.imm.toNat % 32) true r) ∧
      (∃ r, exec (.cclr x) s = wrote s k sl f 0x0A r ∧ withCond f.r (x.imm.toNat % 32) false r)) ∧
    (∀ x : IFields, Runs s k sl f x.guard →
      let n := x.imm.toNat % 32
      let a := f.r.c.getLsbD n
      let b := f.r.c.getLsbD (x.imm.toNat / 32 % 32)
      let op := x.imm.toNat / 1024 % 8
      (op = 7 → exec (.clog x) s = wrote s k sl f 0x0B (f.r.writeG x.d (f.r.c.setWidth 64))) ∧
      (op ≠ 7 → ∃ r, exec (.clog x) s = wrote s k sl f 0x0B r ∧ withCond f.r n
        (if op = 0 then a && b else if op = 1 then a || b else if op = 2 then a ^^ b else if op = 3 then a && !b else if op = 4 then b
          else if op = 5 then !b else f.r.readG x.a != 0) r))
  ) ∧
  (
  ∀ s k sl f,
    (∀ x : RFields, Runs s k sl f x.guard → exec (.fabt x) s = traps s k { code := 0x14, info := f.r.readG x.a, abt := true }) ∧
    (∀ x : IFields, Runs s k sl f x.guard → exec (.trap x) s = traps s k { code := 0x14, info := x.imm.setWidth 64 }) ∧
    (∀ x : RFields, Runs s k sl f x.guard → exec (.brk x) s = traps s k { code := 0x15 }) ∧
    (∀ x : YFields, Runs s k sl f x.guard → 
      let bsig := (s.cfg sl.pl.cfg).elim 0 (·.launch.image.bsig)
      exec (.cmpt x) s =
        traps s k { code := 0x16, info := f.r.readG x.gr, aux := BitVec.ofNat 64 (x.sub.toNat * 65536 + bsig % 65536) })
  )

/-! ### Taking a trap, and the end of a firing (R369 to R373, R103, R372) -/

namespace Sys2Proof.Safety
open Sys2Proof.Machine

/-- What ends a firing without a wait: its checks pass, its immediate commands have ended, its deferred ones find room, the lower stamps of
its group have committed, and it is no surrogate firing. -/
def mayEnd (s : State) (k : Nat) (sl : Slot) (f : Firing) : Prop :=
  s.endChecks sl f = .ok () ∧ s.commandsEnded f.started = true ∧ s.outstanding k + f.b.commands ≤ 64 ∧
    s.lowerDone k f.r.stamp.toNat sl.pl.rank = true ∧ isSurrogate sl f = false

/-- The state that an instruction leaves with its body's state `t`: the model's counter moves on. -/
def leaves (t : State) : Host.Outcome State Fault Refusal := .next { t with freeCtr := t.freeCtr + 1 }

end Sys2Proof.Safety

namespace Sys2Proof.Safety
open Sys2Proof.Machine

/-- The verdict of R329: the check is open, nothing has rejected, and the residual is within the tolerance. -/
def verdict (f : Firing) : Bool :=
  f.surK && !f.surReject && (decide (f.r.sys.tolr.toNat % 2 ^ 31 = 0x7F800000) ||
    (decide (f.surQ.toNat ≤ 0x7F800000) && decide (f.surQ.toNat ≤ f.r.sys.tolr.toNat % 2 ^ 31)))

/-- The choice of a verdict noted in the order log, which stands for every level but D0 (09 R189). -/
def noted (s : State) (k : Nat) (sl : Slot) (f : Firing) : State :=
  if sl.detl = 0 then s
  else s.logRecord sl.pl.ctx 4 (s.launchOf sl.pl.cfg) sl.pl.cti
    (BitVec.ofNat 64 (k % 8 * 2 ^ 49 + f.r.stamp.toNat % 2 ^ 39 * 2 ^ 10 + if verdict f then 0 else 1))

end Sys2Proof.Safety

/-- R103, R380, R381: FEND, EXIT and WFI end their firing: its checks pass, it commits as one event, EXIT then ends the instance and WFI
waits for an entry, with the time it gives; in a handler firing FEND and WFI trap 0x0A, and a failed check takes its trap. R329,
R416: FEND and EXIT in a firing of a surrogate. After its checks it decides its verdict, where no log forces it (D0, D1 and D3): an
accepted firing commits, and EXIT then ends the instance with its fallback; a rejected one is voided, the surrogate waits, and its
fallback runs one firing under the same stamp, phase and rate set. -/
def Obligations.EndOfAFiring : Prop :=
  (
  ∀ s k sl f,
    (∀ x : RFields, Runs s k sl f x.guard →
      let g := f.executed 0x0C
      (f.handler = false → mayEnd s k sl g → exec (.fend x) s = leaves ((s.putFiring k sl g).commit k)) ∧
      (f.handler = false → ∀ t, s.endChecks sl g = .error (.trap t) → exec (.fend x) s = traps s k t) ∧
      (f.handler = true → exec (.fend x) s = traps s k { code := 0x0A })) ∧
    (∀ x : YFields, Runs s k sl f x.guard →
      let g := f.executed 0xDF
      (f.handler = false → mayEnd s k sl g → f.r.sys.chki.getLsbD 0 = false →
        exec (.exit x) s = leaves (((s.putFiring k sl g).commit k).exitSlot k)) ∧
      (f.handler = true → f.r.sys.chki.getLsbD 0 = false → s.commandsEnded f.started = true → s.outstanding k + f.b.commands ≤ 64 →
        ((f.b.gbuf = [] ∧ f.b.sbuf = []) ∨ s.lowerDone k f.r.stamp.toNat sl.pl.rank = true) →
        exec (.exit x) s = leaves ((s.commitHandler k sl g).exitSlot k)) ∧
      (s.endChecks sl g = .ok () → f.r.sys.chki.getLsbD 0 = true →
        exec (.exit x) s = traps s k { code := 0x0D, info := f.r.sys.chki })) ∧
    (∀ x : YFields, Runs s k sl f x.guard →
      let g := f.executed 0xDE
      let ns := (f.r.readG x.gr).toNat
      (f.handler = false → mayEnd s k sl g → exec (.wfi x) s = leaves (((s.putFiring k sl g).commit k).updSlot k fun u =>
        { u with due.wfi := some (if ns = 0 then none else some (((s.putFiring k sl g).commit k).clock + nsCycles ns)) })) ∧
      (f.handler = true → exec (.wfi x) s = traps s k { code := 0x0A }))
  ) ∧
  (
  ∀ s k sl f, isSurrogate sl f = true → sl.detl ≠ 2 →
    (∀ x : RFields, Runs s k sl f x.guard → s.endChecks sl (f.executed 0x0C) = .ok () → s.commandsEnded f.started = true →
      s.outstanding k + f.b.commands ≤ 64 → s.lowerDone k f.r.stamp.toNat sl.pl.rank = true →
      let g := f.executed 0x0C
      let s1 := noted (s.putFiring k sl g) k sl g
      (verdict f = true → exec (.fend x) s = leaves (s1.commit k)) ∧
      (verdict f = false → exec (.fend x) s = leaves ((s1.dropFiring k).redeliver k sl g) ∧
        (∀ fk fs, sl.pl.fallback = some fk → fk ≠ k → s.slot k = some sl → s.slot fk = some fs → sl.detl = 0 →
          ∃ t u v, exec (.fend x) s = .next t ∧ t.mm.mem = s.mm.mem ∧ t.slot k = some u ∧ u.firing = none ∧ u.due.surWait = true ∧
            u.c = sl.c ∧ u.flga = sl.flga ∧ t.slot fk = some v ∧ v.due.fallback = some (f.r.stamp, f.phase, f.rset) ∧ v.stamp = f.r.stamp))) ∧
    (∀ x : YFields, Runs s k sl f x.guard → s.endChecks sl (f.executed 0xDF) = .ok () → s.commandsEnded f.started = true →
      s.outstanding k + f.b.commands ≤ 64 → s.lowerDone k f.r.stamp.toNat sl.pl.rank = true → f.r.sys.chki.getLsbD 0 = false →
      let g := f.executed 0xDF
      let s1 := noted (s.putFiring k sl g) k sl g
      (verdict f = true → exec (.exit x) s = leaves ((s1.commit k).exitSlot k)) ∧
      (verdict f = false → exec (.exit x) s = leaves ((s1.dropFiring k).redeliver k sl g)))
  )

/-- R30: the stores of a commit reach global memory: every byte that the firing buffered, and no other, where the move places none of
them beneath a write that nothing orders before the commit (log 100). -/
def Obligations.CommitPublishesStores : Prop :=
  ∀ (s : State) (k : Nat) (sl : Slot) (f : Firing), s.mm.mem.wf = true → (f.b.gbuf.map (·.1)).Pairwise (· < ·) → s.mm.splices = [] →
    s.mm.order.under = [] → (∀ w ∈ f.b.gbuf, s.homeTakes w.1 sl.pl.tag sl.pl.gen = true) →
    ∀ a, (s.commitStores k sl f).mm.mem.byte a = (f.b.gbuf.find a).getD (s.mm.mem.byte a)

/-- R369, R371, R373: taking a trap voids the firing and either makes a handler firing due, with TRAPC and TRAPI holding the record, or
hands the record to Jetty policy and stops the slot; a trap in a handler firing goes to policy with NEST set. The record holds the
instruction's index, whether the firing was irrevocable, the code, the information and the time. Global memory keeps every byte.
R372: SRET, SRET.skip and SRET.esc end a handler firing: the handler's effects commit (its stores, in a stamped group, after the
lower stamps), TRAPC and TRAPI clear, and the trapped firing runs again, commits empty in its turn, or goes to Jetty policy; outside
a handler firing each traps 0x0A. -/
def Obligations.TakingAndLeavingTraps : Prop :=
  (
  ∀ (s : State) (k : Nat) (sl : Slot) (f : Firing) (t : TrapInfo), s.slot k = some sl → sl.firing = some f → t.code ≠ 0x12 →
    let rec' := s.trapRecord k sl f.pc f.irr f.rset f.phase t
    (s.takeTrap k t).mm.mem = s.mm.mem ∧
    rec'[0].toNat % 256 = t.code % 256 ∧ rec'[0].getLsbD 8 = f.irr ∧ rec'[0].getLsbD 9 = t.abt ∧ rec'[0].toNat / 2 ^ 16 % 2 ^ 15 = f.pc % 2 ^ 15 ∧
    rec'[5] = t.info ∧ rec'[6] = t.aux ∧ rec'[7] = BitVec.ofNat 64 s.ns ∧
    ∃ u, (s.takeTrap k t).slot k = some u ∧ u.firing = none ∧
      (f.handler = false → sl.sys.trapv.getLsbD 0 = true →
        u.due.handler = true ∧ u.due.trapped = true ∧ u.trapi = rec' ∧
        u.trapc = BitVec.ofNat 64 ((if f.irr then 256 else 0) + t.code)) ∧
      (f.handler = false → sl.sys.trapv.getLsbD 0 = false → u.due.policy = some rec' ∧ u.due.stopped = true ∧ u.due.handler = false) ∧
      (f.handler = true → u.due.policy = some (nestRecord rec') ∧ u.due.stopped = true ∧ u.due.trapped = false)
  ) ∧
  (
  ∀ s k sl f (x : YFields), Runs s k sl f x.guard →
    (f.handler = false → exec (.sret x) s = traps s k { code := 0x0A } ∧ exec (.sretSkip x) s = traps s k { code := 0x0A } ∧
      exec (.sretEsc x) s = traps s k { code := 0x0A }) ∧
    (f.handler = true → s.commandsEnded f.started = true → s.outstanding k + f.b.commands ≤ 64 →
      (f.b.gbuf = [] ∧ f.b.sbuf = []) ∨ s.lowerDone k f.r.stamp.toNat sl.pl.rank = true →
      let back := fun op => (s.commitHandler k sl (f.executed op)).updSlot k fun u =>
        { u with trapc := 0, trapi := Vector.replicate 8 0, due.trapped := false, due.handler := false }
      exec (.sret x) s = leaves (back 0xD7) ∧
      ((back 0xD7).lowerDone k f.r.stamp.toNat sl.pl.rank = true → exec (.sretSkip x) s = leaves ((back 0xD7).commitEmpty k (f.executed 0xD7))) ∧
      ((back 0xD7).lowerDone k f.r.stamp.toNat sl.pl.rank = false →
        exec (.sretSkip x) s = leaves ((back 0xD7).updSlot k fun u => { u with due.skip := true })) ∧
      exec (.sretEsc x) s = leaves ((back 0xD7).toPolicy k sl.trapi))
  )

/-! ### Memory (R151 to R161, R57, R58) -/

namespace Sys2Proof.Safety
open Sys2Proof.Machine

/-- Where a byte lies, apart from the page by which it was reached. -/
def cell : Loc → Nat × Nat × Nat
  | .glob pa _ => (0, 0, pa)
  | .carve k a => (1, k, a)

/-- The carve of a slot is laid out in order inside its 4 MiB, and the firing buffers no byte of its own spill carve (03 R56, R58). -/
def laidOut (sl : Slot) (k : Nat) (f : Firing) : Prop :=
  sl.pl.wtb ≤ sl.pl.stb ∧ sl.pl.stb ≤ sl.pl.spb ∧ sl.pl.spb ≤ sl.pl.lim ∧ sl.pl.lim ≤ 65536 ∧
    ∀ a, sl.pl.spb * 64 ≤ a → a < 4194304 → f.b.sbuf.find (carveKey k a) = none

/-- A byte whose value is settled: no weight byte of a layer that is not RESIDENT (17 R323), and within a carve of 4 MiB. -/
def settled (s : State) : Loc → Prop
  | .glob _ _ => True
  | .carve k a => a < 4194304 ∧ ∀ sl, s.slot k = some sl → s.weightOpen sl a = false

/-- An instruction that reads bytes: poison that they meet taints the firing, which then stands at the next index with the write events
that the read returned; an acquire takes over what they release (07 R132). -/
def afterRead (s : State) (f : Firing) (op : Nat) (co acq : Bool) (xs : List (List Nat × Loc)) : Firing :=
  let es := s.readEvents f co xs
  { (if xs.any fun x => s.poisonLoc f.b x.2 then (f.executed op).taint else f.executed op) with
      view := if acq then s.acquire s.focus (f.view.meet es) (es.map (·.2)) else f.view.meet es }

/-- The bytes of an access as the firing reads them, each with those that the access takes together with it (R151, 07 R123, R125, R130). -/
def bytesAt (s : State) (f : Firing) (co : Bool) (xs : List (List Nat × Loc)) : List Byte := xs.map fun x => (s.readSeen f co x).1

/-- The bytes of a scalar access: all together where it is an aligned one of 1, 2, 4 or 8 bytes of global memory, else each by itself (07 R123). -/
def scalarBytes (ls : List Loc) : List (List Nat × Loc) :=
  let pas := ls.filterMap Loc.pa
  if pas = [] ∨ (pas.length ∈ [1, 2, 4, 8] ∧ pas.headD 0 % pas.length = 0) then ls.map fun l => (pas, l) else ls.map fun l => (l.pa.toList, l)

/-- The bytes of one element of a vector access, all together (07 R123). -/
def elementBytes (ls : List Loc) : List (List Nat × Loc) := ls.map fun l => (ls.filterMap Loc.pa, l)

/-- A scalar load of type `ty` from `ls`: little-endian bytes, extended; for a stamped group the lines enter the read signature. -/
def loads (i : Instr) (s : State) (k : Nat) (sl : Slot) (f : Firing) (op : Nat) (x : MFields) (acq : Bool) (ls : List Loc) : Prop :=
  let xs := scalarBytes ls
  ∃ lines, exec i s = did s k sl
      { afterRead s f op x.co acq xs with
          r := (afterRead s f op x.co acq xs).r.writeG x.d (extended x.ty (BitVec.ofNat x.ty.bits (ofBytes (bytesAt s f x.co xs)))),
          readLines := lines } ∧
    (s.groupId k = none → lines = f.readLines)

/-- What reads of a firing give after it has buffered `ws`: the last byte stored where it stored, and every other byte as before. -/
def readsAfter (s : State) (k : Nat) (_sl : Slot) (f : Firing) (sl' : Slot) (b : Buffers) (ws : List (Loc × Byte)) : Prop :=
  let t := { s.putFiring k sl' { f with b := b } with freeCtr := s.freeCtr + 1 }
  (∀ l, settled s l → (∀ w ∈ ws, cell w.1 ≠ cell l) → t.readLoc b l = s.readLoc f.b l) ∧
  (∀ pre w post, ws = pre ++ w :: post → (∀ v ∈ post, cell v.1 ≠ cell w.1) → t.readLoc b w.1 = w.2)

/-- A storing instruction whose bytes are `ws`, below the footprint limit: it buffers them, and touches nothing else (02 R31, 08 R153). With
`cum` its commit becomes cumulative and notes the bytes (07 R131, R148). -/
def storesBelow (i : Instr) (s : State) (k : Nat) (sl : Slot) (f : Firing) (op : Nat) (ws : List (Loc × Byte)) (cum : Bool) : Prop :=
  let rel := if cum then ws.filterMap fun w => match w.1 with | .glob pa _ => some pa | .carve _ _ => none else []
  let b := f.b.storeAll (ws.filter fun w => !isSpill sl k w.1)
  b.lines.length * 64 ≤ footLimit sl → ∃ sl' b',
    exec i s = did s k sl' { f.executed op with b := { b' with cumulative := b'.cumulative || cum, released := b'.released ++ rel } } ∧
    sl' = { sl with spill := sl'.spill, spillBad := sl'.spillBad } ∧
    b' = { f.b with gbuf := b'.gbuf, sbuf := b'.sbuf, lines := b'.lines, xlated := b'.xlated } ∧
    (laidOut sl k f → s.slot k = some sl → (∀ w ∈ ws, ∀ j a, w.1 = .carve j a → a < 4194304) →
      readsAfter s k sl f sl' b' ws)

/-- A storing instruction that stores `ws` as one access at `ea`: a store that would take the footprint over the limit traps 0x07 and stores
nothing (02 R31, 21 R370). -/
def stores (i : Instr) (s : State) (k : Nat) (sl : Slot) (f : Firing) (op : Nat) (ea : Nat) (ws : List (Loc × Byte)) (cum : Bool) : Prop :=
  let b := f.b.storeAll (ws.filter fun w => !isSpill sl k w.1)
  storesBelow i s k sl f op ws cum ∧
  (footLimit sl < b.lines.length * 64 → f.b.lines.length < b.lines.length → exec i s = traps s k
    { code := 0x07, decl := BitVec.ofNat 64 (footLimit sl), act := BitVec.ofNat 64 (b.lines.length * 64), info := BitVec.ofNat 64 ea })

/-- A storing instruction that stores elements at addresses of their own, each element with its bytes: trap 0x07 names the address of the
first element that would take the footprint over the limit, with the footprint up to it, and nothing is stored (02 R31, 21 R370; log 134). -/
def storesEach (i : Instr) (s : State) (k : Nat) (sl : Slot) (f : Firing) (op : Nat) (addr : Nat → Nat) (ps : List (Nat × List (Loc × Byte))) :
    Prop :=
  let upTo := fun (l : List (Nat × List (Loc × Byte))) => (f.b.storeAll ((l.flatMap (·.2)).filter fun w => !isSpill sl k w.1)).lines.length * 64
  storesBelow i s k sl f op (ps.flatMap (·.2)) false ∧
  ∀ pre p post, ps = pre ++ p :: post → upTo pre ≤ footLimit sl → footLimit sl < upTo (pre ++ [p]) → exec i s = traps s k
    { code := 0x07, decl := BitVec.ofNat 64 (footLimit sl), act := BitVec.ofNat 64 (upTo (pre ++ [p])), info := BitVec.ofNat 64 (addr p.1) }

/-- A meaning's first stop is the instruction's. -/
def stopsWith (i : Instr) (s : State) (k : Nat) (st : Stop) : Prop := exec i s = .next (s.stopWith k st)

end Sys2Proof.Safety

namespace Sys2Proof.Safety
open Sys2Proof.Machine

/-- What a global access at `va` stops with when its translation fails (20 R355, R359, R360). -/
def unreached (va : Nat) (w : Bool) : XlErr → Stop
  | .noMap => .page va 1 w
  | .malformed => .page va 2 w
  | .agent => .page va 0 w
  | .cove => .trap { code := 0x0A, info := BitVec.ofNat 64 va, aux := 1 }
  | .readOnly => .trap { code := 0x0A, info := BitVec.ofNat 64 va, aux := 2 }

/-- A trap 0x09 with an address. -/
def outside (va : Nat) : Stop := .trap { code := 0x09, info := BitVec.ofNat 64 va }

end Sys2Proof.Safety

/-- R71, R151, R355, R57, R58: where the bytes of an access lie. A global access below 2^60 lies at its translation, page by page, and
stops where a page has none; above 2^60 it traps 0x09. A tile access lies in the slot's carve below SPLIM. Above it, it is the
global access at offset a - SPLIM of the overflow area that SPOV gives, and traps 0x18 beyond its size; an access across SPLIM and
one beyond 4 MiB trap 0x09, and a store below the state region traps 0x0A. -/
def Obligations.WhereAnAccessLies : Prop :=
  (∀ (s : State) ctx ea n w pa, ea < 2 ^ 60 → ea % 65536 + n ≤ 65536 → (s.translate ctx ea w).map (·.pa) = .ok pa →
    s.globalLocs [] ctx ea n w = .ok ((List.range n).map fun i => .glob (pa + i) (ea / 65536))) ∧
  (∀ (s : State) ctx ea n w pa pa2, 65536 < ea % 65536 + n → (ea / 65536 + 1) * 65536 < 2 ^ 60 → (s.translate ctx ea w).map (·.pa) = .ok pa →
    (s.translate ctx ((ea / 65536 + 1) * 65536) w).map (·.pa) = .ok pa2 →
    s.globalLocs [] ctx ea n w = .ok ((List.range n).map fun i =>
      if ea % 65536 + i < 65536 then .glob (pa + i) (ea / 65536) else .glob (pa2 + (ea % 65536 + i - 65536)) (ea / 65536 + 1))) ∧
  (∀ (s : State) ctx ea n w pa e, 65536 < ea % 65536 + n → (ea / 65536 + 1) * 65536 < 2 ^ 60 → (s.translate ctx ea w).map (·.pa) = .ok pa →
    s.translate ctx ((ea / 65536 + 1) * 65536) w = .error e →
    s.globalLocs [] ctx ea n w = .error (unreached ((ea / 65536 + 1) * 65536) w e)) ∧
  (∀ (s : State) ctx ea n w pa, ea < 2 ^ 60 → 65536 < ea % 65536 + n → 2 ^ 60 ≤ (ea / 65536 + 1) * 65536 →
    (s.translate ctx ea w).map (·.pa) = .ok pa → s.globalLocs [] ctx ea n w = .error (outside ea)) ∧
  (∀ (s : State) ctx ea n w e, ea < 2 ^ 60 → s.translate ctx ea w = .error e → s.globalLocs [] ctx ea n w = .error (unreached ea w e)) ∧
  (∀ (s : State) xl ctx ea n w frame, ea < 2 ^ 60 → ea % 65536 + n ≤ 65536 → xl.find (ea / 65536) = some frame →
    s.globalLocs xl ctx ea n w = .ok ((List.range n).map fun i => .glob (frame * 65536 + ea % 65536 + i) (ea / 65536))) ∧
  (∀ (s : State) xl ctx ea n w, 2 ^ 60 ≤ ea → s.globalLocs xl ctx ea n w = .error (outside ea)) ∧
  (∀ (s : State) xl k sl spov a n w, a + n ≤ sl.pl.lim * 64 → 0 < n → sl.pl.lim ≤ 65536 → (w = true → sl.pl.stb * 64 ≤ a) →
    s.tileLocs xl k sl spov a n w = .ok ((List.range n).map fun i => .carve k (a + i))) ∧
  (∀ (s : State) xl k sl spov a n, a + n ≤ sl.pl.lim * 64 → 0 < n → sl.pl.lim ≤ 65536 → a < sl.pl.stb * 64 →
    s.tileLocs xl k sl spov a n true = .error (.trap { code := 0x0A, info := BitVec.ofNat 64 a })) ∧
  (∀ (s : State) xl k sl (spov : Dword) a n w, sl.pl.lim * 64 ≤ a → a < 2 ^ 22 → a - sl.pl.lim * 64 + n ≤ spov.toNat % 128 * 65536 →
    s.tileLocs xl k sl spov a n w = s.globalLocs xl sl.pl.ctx (spov.toNat / 2 ^ 16 % 2 ^ 44 * 65536 + (a - sl.pl.lim * 64)) n w) ∧
  (∀ (s : State) xl k sl (spov : Dword) a n w, sl.pl.lim * 64 ≤ a → a < 2 ^ 22 → spov.toNat % 128 * 65536 < a - sl.pl.lim * 64 + n →
    s.tileLocs xl k sl spov a n w = .error (.trap { code := 0x18, info := BitVec.ofNat 64 a })) ∧
  (∀ (s : State) xl k sl spov a n w, (a < sl.pl.lim * 64 ∧ sl.pl.lim * 64 < a + n) ∨ 2 ^ 22 ≤ a →
    s.tileLocs xl k sl spov a n w = .error (outside a))

namespace Sys2Proof.Safety
open Sys2Proof.Machine

/-- Elements of `n` bytes at the listed places loaded into a named register: they hold the bytes, the other elements and registers stay. -/
def loadsElems (i : Instr) (s : State) (k : Nat) (sl : Slot) (f : Firing) (op : Nat) (co : Bool) (d : Reg) (n : Nat)
    (ls : List (Nat × List Loc)) : Prop :=
  let xs := ls.flatMap fun z => elementBytes z.2
  ∃ r lines, exec i s = did s k sl { afterRead s f op co false xs with r := r, readLines := lines } ∧
    (s.groupId k = none → lines = f.readLines) ∧
    r = { (afterRead s f op co false xs).r with v := r.v } ∧
    (∀ m, m ≠ vnum f.r d → r.v.get m = f.r.v.get m) ∧
    ∀ e, e < 2048 / (8 * n) → velem (r.v.get (vnum f.r d)) (8 * n) e =
      match ls.find? (fun z => z.1 == e) with
      | some z => ofBytes (bytesAt s f co (elementBytes z.2)) % 2 ^ (8 * n)
      | none => elemBits f.r d (8 * n) e

/-- The elements of `n` bytes that a store at addresses of their own writes, each with its bytes. -/
def elemParts (r : Regs) (d : Reg) (n : Nat) (ls : List (Nat × List Loc)) : List (Nat × List (Loc × Byte)) :=
  ls.map fun z => (z.1, z.2.zip (toBytes n (elemBits r d (8 * n) z.1)))

/-- The bytes of the elements of `n` bytes that a vector store writes. -/
def elemBytes (r : Regs) (d : Reg) (n : Nat) (ls : List (Nat × List Loc)) : List (Loc × Byte) :=
  ls.flatMap fun z => z.2.zip (toBytes n (elemBits r d (8 * n) z.1))

/-- The enabled pieces of a contiguous vector access, and the enabled elements of the others (R156 to R158). -/
def piecesOf (x : MFields) (r : Regs) : List Nat :=
  (List.range (256 / pieceBytes x.ty)).filter fun e => (r.pr x.pm).getLsbD (if x.ty.bits = 64 then 2 * e else e * pieceBytes x.ty / 4)
def elemsOf (x : MFields) (m : Nat) (r : Regs) : List Nat := (List.range m).filter (enabledBy x.pm x.ty.bits r)

/-- The address of element `e` of a strided access, and of a gather or scatter with the offset vector v[gN] (R157, R158). -/
def stridedAt (x : MFields) (r : Regs) (e : Nat) : Nat :=
  (r.readG x.base + x.disp.signExtend 64 + BitVec.ofNat 64 e * (r.readG x.index <<< x.scl.val)).toNat
def gatheredAt (x : MFields) (r : Regs) (e : Nat) : Nat :=
  (r.readG x.base + ((BitVec.ofNat 32 (velem (r.v.get (Fin.ofNat 64 (r.readG x.index).toNat)) 32 e)).signExtend 64 <<< x.scl.val)).toNat

end Sys2Proof.Safety

namespace Sys2Proof.Safety
open Sys2Proof.Machine

/-- What VSCT with a combination leaves at one address: the enabled elements added to the old value one after another in ascending order,
each sum wrapped, clamped under `.sat`, or rounded (R159). -/
def scattered (x : MFields) (r : Regs) (es : List Nat) (old : Nat) : Nat :=
  es.foldl (fun acc e => if x.ty.isInt then intPattern x.ty (x.disp == 3) (valueOf x.ty (BitVec.ofNat 64 acc) + elemAs x.ty x.d r e)
    else ((tyFmt x.ty).result (exactAdd ((tyFmt x.ty).value acc) (elemFl x.ty false x.d r e) r.dynamicMode) r.dynamicMode (x.disp == 3)
      (r.sr 0 e)).1) old

end Sys2Proof.Safety

/-- R155, R160: the scalar stores ST, STRL and WST, with the bytes that the firing reads afterwards. STRL makes the commit cumulative
and traps 0x09 on an address that is no multiple of the size. R156 to R160: vector stores. VSCT with a combination whose enabled
elements meet one address adds them all to the value there. Choices of the model in it stand in the assumption log: 27, 134. -/
def Obligations.StoresAreBuffered : Prop :=
  (
  ∀ s k sl f (x : MFields), Runs s k sl f x.guard →
    (∀ ls, s.accessLocs k sl f x.sp (f.r.ea x) x.ty.bytes true = .ok ls →
      stores (.st x) s k sl f 0x81 (f.r.ea x) (ls.zip (toBytes x.ty.bytes (f.r.readG x.d).toNat)) false ∧
      (f.r.ea x % x.ty.bytes = 0 →
        stores (.strl x) s k sl f 0x83 (f.r.ea x) (ls.zip (toBytes x.ty.bytes (f.r.readG x.d).toNat)) true)) ∧
    (∀ st, s.accessLocs k sl f x.sp (f.r.ea x) x.ty.bytes true = .error st → stopsWith (.st x) s k st) ∧
    (f.r.ea x % x.ty.bytes ≠ 0 → stopsWith (.strl x) s k (trapInfo 0x09 (f.r.ea x))) ∧
    (x.d.isG = true → ∀ ls, s.remoteLocs sl (f.r.ea x) x.ty.bytes true = .ok ls →
      stores (.wst x) s k sl f 0x8B (f.r.ea x) (ls.zip (toBytes x.ty.bytes (f.r.readG x.d).toNat)) false) ∧
    (x.d.isG = true → ∀ st, s.remoteLocs sl (f.r.ea x) x.ty.bytes true = .error st → stopsWith (.wst x) s k st)
  ) ∧
  (
  ∀ s k sl f (x : MFields), Runs s k sl f x.guard → named x.d f.r →
    (∀ ls, s.elemLocs k sl f x.sp (pieceBytes x.ty) (fun e => addr64 (f.r.ea x + e * pieceBytes x.ty)) true (piecesOf x f.r) = .ok ls →
      stores (.vst x) s k sl f 0x85 (f.r.ea x) (elemBytes f.r x.d (pieceBytes x.ty) ls) false) ∧
    (x.ty ≠ .e2m1 → ∀ ls, s.elemLocs k sl f x.sp x.ty.bytes (stridedAt x f.r) true (elemsOf x (2048 / x.ty.bits) f.r) = .ok ls →
      storesEach (.vsts x) s k sl f 0x87 (stridedAt x f.r) (elemParts f.r x.d x.ty.bytes ls)) ∧
    (x.ty ≠ .e2m1 → x.disp = 0 → (f.r.readG x.index).toNat < 64 →
      ∀ ls, s.elemLocs k sl f x.sp x.ty.bytes (gatheredAt x f.r) true (elemsOf x (min 64 (2048 / x.ty.bits)) f.r) = .ok ls →
      storesEach (.vsct x) s k sl f 0x89 (gatheredAt x f.r) (elemParts f.r x.d x.ty.bytes ls)) ∧
    (x.ty ≠ .e2m1 → x.disp = 1 ∨ x.disp = 3 → (f.r.readG x.index).toNat < 64 → quiet f.r → laidOut sl k f → s.slot k = some sl →
      s.mm.order.lag = [] → ∀ a ls, elemsOf x (min 64 (2048 / x.ty.bits)) f.r ≠ [] → (∀ e ∈ elemsOf x (min 64 (2048 / x.ty.bits)) f.r, gatheredAt x f.r e = a) →
      a % x.ty.bytes = 0 → s.accessLocs k sl f x.sp a x.ty.bytes true = .ok ls → (∀ l ∈ ls, ∀ j b, l = .carve j b → b < 4194304) →
      (∀ l ∈ ls, s.poisonLoc f.b l = false) →
      (f.b.storeAll ((ls.zip (toBytes x.ty.bytes 0)).filter fun w => !isSpill sl k w.1)).lines.length * 64 ≤ footLimit sl →
      ∃ t u g, exec (.vsct x) s = .next t ∧ t.current = some (k, u, g) ∧ g.pc = f.pc + 1 ∧ sameBut (fun _ => False) f.r g.r ∧
        (∀ i l, ls[i]? = some l → t.readLoc g.b l = BitVec.ofNat 8
          (scattered x f.r (elemsOf x (min 64 (2048 / x.ty.bits)) f.r) (ofBytes (bytesAt s f false (elementBytes ls))) / 256 ^ i)) ∧
        ∀ l, settled s l → (∀ m ∈ ls, cell m ≠ cell l) → t.readLoc g.b l = s.readLoc f.b l) ∧
    (64 ≤ (f.r.readG x.index).toNat → exec (.vsct x) s = traps s k { code := 0x09, info := f.r.readG x.index }) ∧
    (x.d.isG = false → ∀ ls, s.remotePieces sl (pieceBytes x.ty) (f.r.ea x) true (piecesOf x f.r) = .ok ls →
      stores (.wst x) s k sl f 0x8B (f.r.ea x) (elemBytes f.r x.d (pieceBytes x.ty) ls) false)
  )

/-- R123, R125, R130, R133: a byte as a firing reads it is its own latest store; else the newest value, or one that stands below writes
which nothing yet orders before the read; and the newest where the move passes over none. The bytes that an access takes together
are passed over together where the write reached them together. R155, R160: the scalar loads LD, LDAQ, LDNT and WLD. LDAQ traps 0x09
on an address that is no multiple of the size. R156, R157, R158, R160: vector loads. R161: the cache operations change no value.
PREF leaves the firing as it is; CINV and CWB note the line for the commit where the address translates, and do nothing where it
does not; an address above 2^60 traps 0x09. Choices of the model in it stand in the assumption log: 28, 82, 100. -/
def Obligations.LoadsReadMemory : Prop :=
  (
  ∀ (s : State) (f : Firing) (co : Bool) (piece : List Nat) (pa page : Nat),
    (∀ v, f.b.gbuf.find pa = some v → s.readSeen f co (piece, .glob pa page) = (v, none)) ∧
    (f.b.gbuf.find pa = none →
      (s.readSeen f co (piece, .glob pa page)).1 = s.mm.mem.byte pa ∨
      ∃ o, o ∈ s.mm.order.olds ∧ o.pa = pa ∧ s.mayPass f.view co piece o = true ∧ (s.readSeen f co (piece, .glob pa page)).1 = o.was) ∧
    (∀ o, s.mayPass f.view co piece o = true → ∃ e, s.event o.num = some e ∧ e.num ∉ f.view.hb ∧ e.num ∉ f.view.floor ∧
      (co = true → o.pa ∈ piece → (o.pa, e.num) ∉ f.view.metAt)) ∧
    (∀ o o' e, s.event o.num = some e → e.grain = 0 → o'.num = o.num → piece ≠ [] → s.lags piece o' = s.lags piece o) ∧
    (s.mm.order.lag = [] → ∀ x, (s.readSeen f co x).1 = s.readLoc f.b x.2)
  ) ∧
  (
  ∀ s k sl f (x : MFields), Runs s k sl f x.guard →
    (∀ ls, s.accessLocs k sl f x.sp (f.r.ea x) x.ty.bytes false = .ok ls →
      loads (.ld x) s k sl f 0x80 x false ls ∧
      (f.r.ea x % x.ty.bytes = 0 → loads (.ldaq x) s k sl f 0x82 x true ls) ∧
      exec (.ldnt x) s = did s k sl { afterRead s f 0x8F x.co false (scalarBytes ls) with
        r := (afterRead s f 0x8F x.co false (scalarBytes ls)).r.writeG x.d
          (extended x.ty (BitVec.ofNat x.ty.bits (ofBytes (bytesAt s f x.co (scalarBytes ls))))) }) ∧
    (∀ st, s.accessLocs k sl f x.sp (f.r.ea x) x.ty.bytes false = .error st → stopsWith (.ld x) s k st ∧ stopsWith (.ldnt x) s k st) ∧
    (f.r.ea x % x.ty.bytes ≠ 0 → stopsWith (.ldaq x) s k (trapInfo 0x09 (f.r.ea x))) ∧
    (x.d.isG = true → ∀ ls, s.remoteLocs sl (f.r.ea x) x.ty.bytes false = .ok ls →
      exec (.wld x) s = did s k sl { afterRead s f 0x8A x.co false (scalarBytes ls) with
        r := (afterRead s f 0x8A x.co false (scalarBytes ls)).r.writeG x.d
          (extended x.ty (BitVec.ofNat x.ty.bits (ofBytes (bytesAt s f x.co (scalarBytes ls))))) }) ∧
    (x.d.isG = true → ∀ st, s.remoteLocs sl (f.r.ea x) x.ty.bytes false = .error st → stopsWith (.wld x) s k st)
  ) ∧
  (
  ∀ s k sl f (x : MFields), Runs s k sl f x.guard → named x.d f.r →
    (∀ ls, s.elemLocs k sl f x.sp (pieceBytes x.ty) (fun e => addr64 (f.r.ea x + e * pieceBytes x.ty)) false (piecesOf x f.r) = .ok ls →
      loadsElems (.vld x) s k sl f 0x84 x.co x.d (pieceBytes x.ty) ls) ∧
    (x.ty ≠ .e2m1 → ∀ ls, s.elemLocs k sl f x.sp x.ty.bytes (stridedAt x f.r) false (elemsOf x (2048 / x.ty.bits) f.r) = .ok ls →
      loadsElems (.vlds x) s k sl f 0x86 x.co x.d x.ty.bytes ls) ∧
    (x.ty ≠ .e2m1 → (f.r.readG x.index).toNat < 64 →
      ∀ ls, s.elemLocs k sl f x.sp x.ty.bytes (gatheredAt x f.r) false (elemsOf x (min 64 (2048 / x.ty.bits)) f.r) = .ok ls →
      loadsElems (.vgth x) s k sl f 0x88 x.co x.d x.ty.bytes ls) ∧
    (64 ≤ (f.r.readG x.index).toNat → exec (.vgth x) s = traps s k { code := 0x09, info := f.r.readG x.index }) ∧
    (x.d.isG = false → ∀ ls, s.remotePieces sl (pieceBytes x.ty) (f.r.ea x) false (piecesOf x f.r) = .ok ls →
      loadsElems (.wld x) s k sl f 0x8A x.co x.d (pieceBytes x.ty) ls)
  ) ∧
  (
  ∀ s k sl f (x : MFields), Runs s k sl f x.guard →
    (f.r.ea x < 2 ^ 60 →
      exec (.pref x) s = wrote s k sl f 0x8C f.r ∧
      (∀ t, s.translate sl.pl.ctx (f.r.ea x) false = .ok t →
        exec (.cinv x) s = did s k sl ((f.executed 0x8D).defer (.cacheInv (t.pa / 64))) ∧
        exec (.cwb x) s = did s k sl ((f.executed 0x8E).defer (.cacheWb (t.pa / 64)))) ∧
      (∀ e, s.translate sl.pl.ctx (f.r.ea x) false = .error e →
        exec (.cinv x) s = wrote s k sl f 0x8D f.r ∧ exec (.cwb x) s = wrote s k sl f 0x8E f.r)) ∧
    (2 ^ 60 ≤ f.r.ea x → exec (.pref x) s = traps s k { code := 0x09, info := BitVec.ofNat 64 (f.r.ea x) } ∧
      exec (.cinv x) s = traps s k { code := 0x09, info := BitVec.ofNat 64 (f.r.ea x) } ∧
      exec (.cwb x) s = traps s k { code := 0x09, info := BitVec.ofNat 64 (f.r.ea x) })
  )

/-! ### Arc instructions (R107 to R118) -/

namespace Sys2Proof.Safety
open Sys2Proof.Machine

/-- Port `n` is a declared input of a firing that is no handler firing, and `a` its arc (R108, R120). -/
def hasInput (s : State) (sl : Slot) (f : Firing) (n : Nat) (a : Arc) : Prop :=
  f.handler = false ∧ (sizeIn sl n).isSome = true ∧ (arcIn sl n).bind s.arc = some a

/-- The misuse trap of an arc port (R120). -/
def misused (out : Bool) (n decl act : Nat) : TrapInfo :=
  { code := 0x06, decl := BitVec.ofNat 64 decl, act := BitVec.ofNat 64 act, arc := some (out, n) }

/-- A firing after RECV of token `i` of port `n`: the high-water mark of the port is raised. -/
def received (f : Firing) (n i : Nat) : Firing := { f with tk.got := f.tk.got.setIfInBounds n (max (nth f.tk.got n 0) (i + 1)) }

/-- A firing that has taken over what happened before the publication of token `i` of a port (06 R119, 07 R129). -/
def tookOver (f : Firing) (a : Arc) (n i : Nat) : Firing := { f with view := f.view.gain (a.carried (cnt (f.rp n + i))) }

/-- The same with the poison of the token, which taints it (23 R398). -/
def tookToken (f : Firing) (a : Arc) (n i : Nat) : Firing :=
  if a.poisoned.contains (cnt (f.rp n + i)) then (tookOver f a n i).taint else tookOver f a n i

/-- The first size error of a port, kept for FEND (R108, R109). -/
def firstError {m : Nat} (v : Vector (Option Nat) m) (n b : Nat) : Vector (Option Nat) m := v.setIfInBounds n (some ((nth v n none).getD b))

/-- The bytes of a piece of a token in a consumer's window (06 R107). -/
def pieceOf (s : State) (a : Arc) (f : Firing) (n i b len : Nat) : List Byte :=
  (List.range len).map fun j => s.tokenByte a f n i (b + j)

end Sys2Proof.Safety

/-- R108, R119, R120: RECV and PEEK of a piece. A whole piece is read little-endian and extended, or lane by lane into a vector
register; the read is an acquire of the commit that published the token; RECV raises the count of the port; a piece beyond the token
reads zero and is noted as a size error. A token beyond the rate, an undeclared port and a handler firing trap 0x06 with the rate
and the index. R109, R111, R120: EMIT of a piece of a general register or of the enabled bytes of a vector register, and EMITS of a
whole token from the carve: the bytes enter the emission buffer at their place, later writes standing, and the count of the port is
raised; a piece beyond the token writes nothing and is noted as a size error. A token beyond the rate, an undeclared port and a
handler firing trap 0x06. Choices of the model in it stand in the assumption log: 80, 99. -/
def Obligations.TokensReceivedAndEmitted : Prop :=
  (
  ∀ s k sl f (x : AFields), Runs s k sl f x.guard →
    let n := x.arc.val
    let i := x.count.toNat
    let b := x.off.toNat * x.ty.bytes
    (∀ a, hasInput s sl f n a →
      let gets := fun (op : Nat) (g : Firing → Firing) (j : Instr) =>
        exec j s = did s k sl (g (tookToken (f.executed op) a n i))
      (i < rateIn sl f n → x.d.isG = true → b + x.ty.bytes ≤ a.size →
        let g := fun (h : Firing) => { h with r := h.r.writeG x.d (extended x.ty (BitVec.ofNat x.ty.bits (ofBytes (pieceOf s a f n i b x.ty.bytes)))) }
        gets 0x91 g (.peek x) ∧ gets 0x90 (fun h => received (g h) n i) (.recv x)) ∧
      (i < rateIn sl f n → x.d.isG = true → a.size < b + x.ty.bytes →
        let g := fun (h : Firing) => { h with r := h.r.writeG x.d 0, tk := { f.tk with sizeErrIn := firstError f.tk.sizeErrIn n b } }
        gets 0x91 g (.peek x) ∧ gets 0x90 (fun h => received (g h) n i) (.recv x)) ∧
      (i < rateIn sl f n → x.d.isG = false → named x.d f.r → ∃ v : Vector VReg 64,
        let e := if a.size ≤ x.off.toNat * 256 then firstError f.tk.sizeErrIn n (x.off.toNat * 256) else f.tk.sizeErrIn
        let g := fun (h : Firing) => { h with r := { h.r with v := v }, tk := { f.tk with sizeErrIn := e } }
        gets 0x91 g (.peek x) ∧ gets 0x90 (fun h => received (g h) n i) (.recv x) ∧
        (∀ m : Fin 64, m ≠ vnum f.r x.d → v.get m = f.r.v.get m) ∧
        ∀ j, j < 256 → velem (v.get (vnum f.r x.d)) 8 j =
          if (f.r.pr x.pm).getLsbD (if x.ty.bits = 64 then j / 8 * 2 else j / 4) then
            (if x.off.toNat * 256 + j < a.size then (s.tokenByte a f n i (x.off.toNat * 256 + j)).toNat else 0)
          else elemBits f.r x.d 8 j) ∧
      (rateIn sl f n ≤ i → exec (.recv x) s = traps s k (misused false n (rateIn sl f n) i) ∧
        exec (.peek x) s = traps s k (misused false n (rateIn sl f n) i))) ∧
    (f.handler = true ∨ sizeIn sl n = none → exec (.recv x) s = traps s k (misused false n 0 i) ∧
      exec (.peek x) s = traps s k (misused false n 0 i))
  ) ∧
  (
  ∀ s k sl f (x : AFields), Runs s k sl f x.guard →
    let n := x.arc.val
    let i := x.count.toNat
    let sent := f.tk.sent.setIfInBounds n (max (nth f.tk.sent n 0) (i + 1))
    let key := fun j => n * 2 ^ 24 + i * 2 ^ 16 + j
    let puts := fun (op : Nat) (j : Instr) (em : Tab Byte) => exec j s =
      did s k sl { f.executed op with b := { f.b with emitted := em }, tk := { f.tk with sent := sent } }
    let misses := fun (b : Nat) => exec (.emit x) s =
      did s k sl { f.executed 0x92 with tk := { f.tk with sent := sent, sizeErrOut := firstError f.tk.sizeErrOut n b } }
    (∀ size, f.handler = false → sizeOut sl n = some size → i < rateOut sl f n →
      (x.d.isG = true → 
        let b := x.off.toNat * x.ty.bytes
        (b + x.ty.bytes ≤ size → ∃ em, puts 0x92 (.emit x) em ∧
          ∀ q, em.find q = if key b ≤ q ∧ q < key (b + x.ty.bytes) then some (((f.r.readG x.d) >>> (8 * (q - key b))).setWidth 8)
            else f.b.emitted.find q) ∧
        (size < b + x.ty.bytes → misses b)) ∧
      (x.d.isG = false → named x.d f.r →
        let b := x.off.toNat * 256
        (b < size → ∃ em, puts 0x92 (.emit x) em ∧
          ∀ q, em.find q = if key b ≤ q ∧ q < key (min (b + 256) size) ∧
              (f.r.pr x.pm).getLsbD (if x.ty.bits = 64 then (q - key b) / 8 * 2 else (q - key b) / 4) = true then
            some (BitVec.ofNat 8 (elemBits f.r x.d 8 (q - key b))) else f.b.emitted.find q) ∧
        (size ≤ b → misses b)) ∧
      ((f.r.readG x.d).toNat % 64 = 0 → (f.r.readG x.d).toNat + size ≤ sl.pl.lim * 64 → ∃ em,
        let xs := (List.range size).map fun j => (([], Loc.carve k ((f.r.readG x.d).toNat + j)) : List Nat × Loc)
        exec (.emits x) s = did s k sl
          { afterRead s f 0x93 false false xs with b := { f.b with emitted := em }, tk := { f.tk with sent := sent } } ∧
        ∀ q, em.find q = if key 0 ≤ q ∧ q < key size then (bytesAt s f false xs)[q - key 0]? else f.b.emitted.find q) ∧
      ((f.r.readG x.d).toNat % 64 ≠ 0 ∨ sl.pl.lim * 64 < (f.r.readG x.d).toNat + size →
        exec (.emits x) s = traps s k { code := 0x09, info := f.r.readG x.d })) ∧
    (∀ size, f.handler = false → sizeOut sl n = some size → rateOut sl f n ≤ i →
      exec (.emit x) s = traps s k (misused true n (rateOut sl f n) i) ∧ exec (.emits x) s = traps s k (misused true n (rateOut sl f n) i)) ∧
    (f.handler = true ∨ sizeOut sl n = none → exec (.emit x) s = traps s k (misused true n 0 i) ∧
      exec (.emits x) s = traps s k (misused true n 0 i))
  )

/-- R112, R113, R117, R118, R120: ARCQ, SKIP, MARK and CTOK. ARCQ 0 gives the address of a token in the window, which for an instance
with clones is the window of the copy that consumes it (log 111). An undeclared port and a handler firing trap 0x06. Choices of the
model in it stand in the assumption log: 80, 84, 99, 111. -/
def Obligations.ArcQueriesAndEntries : Prop :=
  ∀ s k sl f (x : AFields), Runs s k sl f x.guard →
    let n := x.arc.val
    let i := x.count.toNat
    (∀ a, hasInput s sl f n a →
      (x.off.toNat = 1 → exec (.arcq x) s = wrote s k sl f 0x94 (f.r.writeG x.d (BitVec.ofNat 64 (cntSub a.wpSeen (f.rp n))))) ∧
      (x.off.toNat = 2 → exec (.arcq x) s = wrote s k sl f 0x94 (f.r.writeG x.d (BitVec.ofNat 64 (rateIn sl f n)))) ∧
      (x.off.toNat = 3 → exec (.arcq x) s = wrote s k sl f 0x94 (f.r.writeG x.d (BitVec.ofNat 64 a.size))) ∧
      (x.off.toNat = 4 → exec (.arcq x) s = wrote s k sl f 0x94 (f.r.writeG x.d (BitVec.ofNat 64 a.window))) ∧
      (x.off.toNat = 5 → exec (.arcq x) s = wrote s k sl f 0x94 (f.r.writeG x.d (BitVec.ofNat 64 (nth f.tk.got n 0)))) ∧
      (x.off.toNat = 6 → exec (.arcq x) s = wrote s k sl f 0x94 (f.r.writeG x.d (BitVec.ofNat 64 (f.rp n)))) ∧
      (x.off.toNat = 0 → i < rateIn sl f n → exec (.arcq x) s =
        did s k sl { tookOver (f.executed 0x94) a n i with
          r := f.r.writeG x.d (BitVec.ofNat 64
            (a.base + (s.tokPlace a (a.consumer.elim 0 (·.1)) (cnt (f.rp n + i))).2 % a.window * a.size)) }) ∧
      (∀ j m, s.cloneSet j = none → s.tokPlace a j m = (j, m)) ∧
      (x.off.toNat = 0 → rateIn sl f n ≤ i → exec (.arcq x) s = traps s k (misused false n (rateIn sl f n) i)) ∧
      (i ≤ rateIn sl f n → exec (.skip x) s = did s k sl
        { (if i = 0 then f.executed 0x95 else tookOver (f.executed 0x95) a n (i - 1)) with
            tk := { f.tk with got := f.tk.got.setIfInBounds n (max (nth f.tk.got n 0) i) } }) ∧
      (rateIn sl f n < i → exec (.skip x) s = traps s k (misused false n (rateIn sl f n) i))) ∧
    (f.handler = false → (sizeOut sl n).isSome = true →
      ((f.r.readG x.d).toNat < 2 ^ 32 → exec (.mark x) s = did s k sl
        { f.executed 0x96 with b := { f.b with entries := f.b.entries ++ [(n, .marker (f.r.readG x.d).toNat false)] } }) ∧
      (2 ^ 32 ≤ (f.r.readG x.d).toNat → exec (.mark x) s = traps s k { code := 0x09, info := f.r.readG x.d }) ∧
      (i < 32 → exec (.ctok x) s = did s k sl
        { f.executed 0x97 with b := { f.b with entries := f.b.entries ++ [(n, .user (Fin.ofNat 32 i))] } })) ∧
    (f.handler = true ∨ sizeIn sl n = none → exec (.arcq x) s = traps s k (misused false n 0 i) ∧
      exec (.skip x) s = traps s k (misused false n 0 i)) ∧
    (f.handler = true ∨ sizeOut sl n = none → exec (.mark x) s = traps s k (misused true n 0 0) ∧
      exec (.ctok x) s = traps s k (misused true n 0 0))

/-! ### Atomics (R162 to R168) -/

namespace Sys2Proof.Safety
open Sys2Proof.Machine

/-- What R164 and R165 say an atomic writes over the old pattern `old`: none where it writes nothing. The operands are the patterns of
g[b] and g[c] in the type; `rm` and `sr` round a floating-point sum. -/
def atomicNew (op : Nat) (t : Ty) (sat : Bool) (rm : Rnd) (sr : Nat) (old b c : BitVec t.bits) : Option Nat :=
  let v := fun (p : BitVec t.bits) => if t.signed then p.toInt else (p.toNat : Int)
  let sum := ((tyFmt t).result (exactAdd ((tyFmt t).value old.toNat) ((tyFmt t).value b.toNat) rm) rm false sr).1
  if op = 0x98 ∨ (op = 0xA5 ∧ t.isInt = true) then some (intPattern t sat (v old + v b))
  else if op = 0x99 then some (if v b < v old then b.toNat else old.toNat)
  else if op = 0x9A then some (if v old < v b then b.toNat else old.toNat)
  else if op = 0x9B then some (old &&& b).toNat
  else if op = 0x9C then some (old ||| b).toNat
  else if op = 0x9D then some (old ^^^ b).toNat
  else if op = 0x9E then some b.toNat
  else if op = 0x9F then (if old = c then some b.toNat else none)
  else if op = 0xA0 then (if v old < v b then some (intPattern t false (v old + 1)) else none)
  else if op = 0xA1 then (if v b < v old then some (intPattern t false (v old - 1)) else none)
  else if op = 0xA3 then some ((tyFmt t).minMax false old.toNat b.toNat).1
  else if op = 0xA4 then some ((tyFmt t).minMax true old.toNat b.toNat).1
  else some sum

/-- The conditions of R166: at least, at most, equal, different. -/
def awaits (_t : Ty) (c : Nat) (v b : Int) : Prop := if c = 0 then b ≤ v else if c = 1 then v ≤ b else if c = 2 then v = b else v ≠ b

/-- An atomic of a firing that can go to its home at once: the address passes the checks of R163 and lies in this package, the
firing is or may become irrevocable, no order log forces the choice, the home takes the tag, the line holds no poison, and a release
has nothing to wait for. -/
def atomicGoes (s : State) (k : Nat) (sl : Slot) (f : Firing) (op : Nat) (x : AtomFields) (pa : Nat) : Prop :=
  f.request = none ∧ s.slot k = some sl ∧ sl.firing = some f ∧ s.atomicAddress sl f op x = .ok pa ∧ s.isRemote pa = false ∧ paHost pa = false ∧
    (f.irr = true ∨ (isSurrogate sl f = false ∧ s.lowerDone k f.r.stamp.toNat sl.pl.rank = true)) ∧
    sl.detl = 0 ∧ s.homeTakes pa sl.pl.tag sl.pl.gen = true ∧ s.mm.splices = [] ∧ s.mm.poison.contains (pa / 64) = false ∧
    s.commandsEnded f.started = true ∧ s.commandsEnded f.fenced = true

/-- The value at a physical address, little-endian. -/
def patternAt (s : State) (pa : Nat) (t : Ty) : BitVec t.bits := BitVec.ofNat t.bits (ofBytes (s.mm.mem.bytes pa t.bytes))

/-- The firing of a slot. -/
def firingOf (s : State) (k : Nat) : Option Firing := (s.slot k).bind (·.firing)

end Sys2Proof.Safety

/-- R163, R164, R165: an atomic at its home reads the old value into g[d], writes the new one, and changes no other byte of global
memory; the firing is irrevocable and stands at the next index. R166: AWT whose condition holds reads the value and goes on; one
whose condition does not hold waits at its home. Neither writes. R163, R167: what stops an atomic before it reaches its home: an
address above 2^60 and one that is no multiple of the size trap 0x09. ARTY asks a home in another package: 2 where the path to it is
down, else what the home answers of the tag, with the result in the next register; an address in this package traps 0x09. A home
answers DONE with the result while it holds the tag, LOST once it holds it no longer, and NOTDONE else, which refuses the tag. DONE
establishes the synchronisation of the original's order suffix: an acquire takes over what it read from, and a release hands on what
came before it (07 R138). An atomic to a peer or to host memory waits on its way. Choices of the model in it stand in the assumption
log: 29, 30, 86, 101. -/
def Obligations.AtomicsOfAFiring : Prop :=
  (
  ∀ (x : AtomFields) (i : Instr) (op : Nat),
    ((i, op) ∈ [(.aadd x, 0x98), (.amin x, 0x99), (.amax x, 0x9A), (.aand x, 0x9B), (.aor x, 0x9C), (.axor x, 0x9D), (.aswp x, 0x9E),
      (.acas x, 0x9F), (.aincb x, 0xA0), (.adecb x, 0xA1), (.afadd x, 0xA2), (.afmin x, 0xA3), (.afmax x, 0xA4), (.ared x, 0xA5)]) →
    typesAccepted op x.ty .i8 x.d.isG = true →
    ∀ s k sl f pa, Runs s k sl f x.guard → quiet f.r → s.mm.mem.wf = true → atomicGoes s k sl f op x pa →
      let t := x.ty
      let old := patternAt s pa t
      let new := atomicNew op t x.sat (f.r.mode x.rnd) (f.r.sr 0 0) old ((f.r.readG x.b).setWidth t.bits) ((f.r.readG x.c).setWidth t.bits)
      ∃ s' g, exec i s = .next s' ∧ firingOf s' k = some g ∧ g.pc = f.pc + 1 ∧ g.irr = true ∧ g.request = none ∧
        g.r.g = (f.r.writeG x.d (extended t old)).g ∧ g.r.v = f.r.v ∧ g.r.p = f.r.p ∧ g.r.c = f.r.c ∧ g.b = f.b ∧
        ∀ a, s'.mm.mem.byte a = match new with
          | some v => if pa ≤ a ∧ a < pa + t.bytes then BitVec.ofNat 8 (v / 256 ^ (a - pa)) else s.mm.mem.byte a
          | none => s.mm.mem.byte a
  ) ∧
  (
  ∀ (x : AtomFields) s k sl f pa, Runs s k sl f x.guard → quiet f.r → atomicGoes s k sl f 0xA6 x pa → x.ty.isInt = true →
    (f.r.readG x.c).toNat < 4 →
    let t := x.ty
    let v := valueOf t (extended t (patternAt s pa t))
    ∃ s' g, exec (.awt x) s = .next s' ∧ firingOf s' k = some g ∧ (∀ a, s'.mm.mem.byte a = s.mm.mem.byte a) ∧
      (awaits t (f.r.readG x.c).toNat v (valueOf t (f.r.readG x.b)) →
        g.pc = f.pc + 1 ∧ g.parked = none ∧ g.r.g = (f.r.writeG x.d (extended t (patternAt s pa t))).g) ∧
      (¬ awaits t (f.r.readG x.c).toNat v (valueOf t (f.r.readG x.b)) →
        g.pc = f.pc ∧ g.parked = some (.awt s.clock true) ∧ g.r.g = f.r.g)
  ) ∧
  (
  (∀ (x : AtomFields) s k sl f, Runs s k sl f x.guard → f.request = none → sl.detl ≠ 3 →
    let va := (f.r.readG x.a).toNat
    (2 ^ 60 ≤ va ∨ va % x.ty.bytes ≠ 0) →
      exec (.aadd x) s = traps s k { code := 0x09, info := f.r.readG x.a } ∧
      exec (.acas x) s = traps s k { code := 0x09, info := f.r.readG x.a } ∧
      exec (.awt x) s = traps s k { code := 0x09, info := f.r.readG x.a }) ∧
  (∀ (x : AtomFields) s k sl f (n : Fin 64) t, Runs s k sl f x.guard → x.d = .g n → (f.r.readG x.a).toNat < 2 ^ 60 →
    s.translate sl.pl.ctx (f.r.readG x.a).toNat true = .ok t →
    (s.isRemote t.pa = true →
      let key := tagKey s.dv.pkg k ((f.r.readG x.b).toNat % 2 ^ 32)
      let a := if s.pathDown (paPkg t.pa) then ((2, 0), s) else s.tagAnswer (atomicHome t.pa) key
      let y := s.tagSync (atomicHome t.pa) key
      exec (.arty x) s = did (if a.1.1 = 0 then a.2.rerelease y true else a.2) k sl { f.executed 0xA7 with
        r := (f.r.setG n (BitVec.ofNat 64 a.1.1)).setG (n + 1) a.1.2,
        view := if a.1.1 = 0 ∧ y.acq = true then s.acquire (tileOf k) f.view y.reads else f.view }) ∧
    (s.isRemote t.pa = false → exec (.arty x) s = traps s k { code := 0x09, info := f.r.readG x.a })) ∧
  (∀ (s : State) (home key : Nat),
    let a := s.tagAnswer home key
    (∀ t v, (s.en.tags.find? fun t => t.home == home && t.key == key) = some t → t.result = some v →
      a = (if s.clock ≤ t.time + cycles2ms ∧ s.tagsSince home key < 4096 then (0, v) else (2, 0), s)) ∧
    ((s.en.tags.find? fun t => t.home == home && t.key == key) = none →
      a.1 = (1, 0) ∧ a.2.tagRefused home key = true ∧ a.2.mm = s.mm ∧ a.2.slots = s.slots) ∧
    (s.tagRefused home key = true → a = ((1, 0), s))) ∧
  (∀ (s : State) (y : TagSync) (e : WriteEvent), e ∈ s.mm.order.events → y.own.contains e.num = true →
    ∃ e' ∈ (s.rerelease y true).mm.order.events, e'.num = e.num ∧ (y.rel = true → ∀ n, n ∈ y.before ∨ n = e.num → n ∈ e'.rel)) ∧
  (∀ (x : AtomFields) s k sl f pa, Runs s k sl f x.guard → f.request = none → s.slot k = some sl → sl.firing = some f →
    s.atomicAddress sl f 0x98 x = .ok pa → (s.isRemote pa = true ∨ paHost pa = true) → f.irr = true →
    s.commandsEnded f.started = true → s.commandsEnded f.fenced = true →
      ∃ s' g q, exec (.aadd x) s = .next s' ∧ firingOf s' k = some g ∧ g.pc = f.pc ∧ g.parked = some (.atomic s.clock false) ∧
        g.request = some q ∧ q.op = 0x98 ∧ q.pa = pa ∧ q.arrived = false ∧ q.result = none ∧ s'.mm = s.mm ∧
        s'.agenda = s.agenda ++ [.due (.atomicAtHome k)])
  )

/-! ### Synchronisation (R169 to R174) -/

namespace Sys2Proof.Safety
open Sys2Proof.Machine

/-- An instruction that parks its firing (16 R293). -/
def waits (s : State) (k : Nat) (w : Wait) : Host.Outcome State Fault Refusal := .next (s.park k w)

/-- A firing with one more operation for its commit. -/
def deferring (f : Firing) (op : Nat) (o : DeferredOp) : Firing :=
  { f.executed op with b := { f.b with deferredOps := f.b.deferredOps ++ [o] } }

/-- A firing that is or may become irrevocable (02 R34, R35; 07 R141). -/
def mayBind (s : State) (k : Nat) (sl : Slot) (f : Firing) : Prop :=
  f.irr = true ∨ (isSurrogate sl f = false ∧ s.lowerDone k f.r.stamp.toNat sl.pl.rank = true)

/-- What the firing sees of its context's barrier `n`: live or not, and its size, its own buffered operations included (R171). -/
def barrierSeen (s : State) (sl : Slot) (f : Firing) (n : Nat) : Bool × Nat := s.barrierSeen sl.pl.ctx n f.b.deferredOps

end Sys2Proof.Safety

/-- R134, R135, R169, R170, R173: FENCE, the timeline instructions, SLEEP, TIME and STMP. An acquire fence takes over what the writes
that the firing has met release, as far as their writers lie within its scope; a release fence notes what happens before it;
FENCE.sc stands in the order of its domain. TLWAIT waits until the counter has reached the value, and traps when it covers a failed
command; SLEEP parks until its time; TIME and STMP read the clock and the stamp, and STMP, once the lower stamps of its group have
committed, takes over what happened before their commits. Choices of the model in it stand in the assumption log: 31, 35. -/
def Obligations.FencesTimelinesAndTime : Prop :=
  ∀ s k sl f,
    (∀ x : YFields, Runs s k sl f x.guard →
      let kind := x.sub.toNat / 4 % 4
      let scope := x.sub.toNat % 4
      let r := s.fence kind scope (f.executed 0xA8)
      exec (.fence x) s = did r.1 k sl r.2 ∧
      r.2 = { f.executed 0xA8 with view := r.2.view, fenced := r.2.fenced } ∧ (kind ≠ 3 → r.1 = s) ∧
      (kind ≠ 1 → ∀ n e m, n ∈ f.view.met → s.event n = some e → inScope scope s.focus e.unit = true → m ∈ e.given s.focus →
        m ∈ r.2.view.hb) ∧
      (kind ≠ 0 → r.2.fenced = f.started ∧ ∃ before, r.2.view.rel = (scope, s.focus, before) :: f.view.rel ∧
        ∀ m, m ∈ f.view.hb ∨ m ∈ f.view.own → m ∈ before) ∧
      (kind = 3 → r.1.mm.order.sc.find (domainOf scope s.focus) = some s.mm.order.next ∧
        ∀ n, s.mm.order.sc.find (domainOf scope s.focus) = some n → 0 < n → (scope, s.focus, n) ∈ r.2.view.sc)) ∧
    (∀ (x : RFields) tl, Runs s k sl f x.guard → x.a = .tl tl →
      let v := (f.r.readG x.b).toNat
      (v ≤ (sl.tl.get tl).done → s.failedUpTo k tl.val v = none → exec (.tlwait x) s =
        did s k sl { f.executed 0xA9 with view := f.view.gain (s.timelineEvents k tl.val v) }) ∧
      ((sl.tl.get tl).done < v → exec (.tlwait x) s = waits s k (.timeline tl v)) ∧
      (∀ num st, v ≤ (sl.tl.get tl).done → s.failedUpTo k tl.val v = some (num, st) → exec (.tlwait x) s = traps s k
        { code := statusTrap st, info := BitVec.ofNat 64 num, aux := BitVec.ofNat 64 (st * 256 + tl.val), eng := true }) ∧
      exec (.tlrd x) s =
        wrote s k sl f 0xAA (f.r.writeG x.d (BitVec.ofNat 64 (if x.mods.w then (sl.tl.get tl).issued else (sl.tl.get tl).done))) ∧
      exec (.tladv x) s = did s k sl (deferring f 0xAB (.tladv tl v))) ∧
    (∀ x : IFields, Runs s k sl f x.guard →
      exec (.sleep x) s = leaves ((s.putFiring k sl (f.executed 0xB4)).park k (.sleep (s.clock + nsCycles x.imm.toNat)))) ∧
    (∀ x : RFields, Runs s k sl f x.guard → exec (.time x) s = wrote s k sl f 0xB5 (f.r.writeG x.d (BitVec.ofNat 64 s.ns))) ∧
    (∀ x : RFields, Runs s k sl f x.guard →
      (s.lowerDone k f.r.stamp.toNat sl.pl.rank = true → exec (.stmp x) s =
        did s k sl { f.executed 0xB7 with r := f.r.writeG x.d f.r.stamp, view := f.view.gain (s.groupSeen k) }) ∧
      (s.lowerDone k f.r.stamp.toNat sl.pl.rank = false → exec (.stmp x) s = waits s k .lowerStamps))

/-- R171, R172: the barrier instructions. Each names a barrier below 4,096 in the state that it requires, and traps 0x09 else; the
changes wait for the commit; BARWAIT and GBARW wait at the barrier; BARRD reads its 64-bit object. R173: EVSIG posts an event of the
context and makes the firing irrevocable; a number above 255 traps 0x09, and a surrogate firing traps 0x12. -/
def Obligations.BarriersAndEvents : Prop :=
  (
  ∀ s k sl f (x : RFields), Runs s k sl f x.guard →
    let n := (f.r.readG x.a).toNat
    let seen := barrierSeen s sl f n
    let b := s.barrier (sl.pl.ctx * 4096 + n)
    let v := f.r.readG x.b
    (n < 4096 →
      (seen.1 = false → v = (v.setWidth 48).signExtend 64 → (f.r.readG x.c).toNat ≤ 65535 →
        exec (.barinit x) s = did s k sl (deferring f 0xAC (.barInit n (v.toNat % 2 ^ 48) (f.r.readG x.c).toNat))) ∧
      (seen.1 = true → exec (.barinit x) s = traps s k { code := 0x09, info := f.r.readG x.a }) ∧
      (seen = (true, 0) → v.toNat < 2 ^ 48 → exec (.baradd x) s = did s k sl (deferring f 0xAD (.barAdd n v.toNat))) ∧
      (seen = (true, 0) → exec (.barsub x) s = did s k sl (deferring f 0xAE (.barSub n v.toNat))) ∧
      (seen = (true, 0) → b.count = 0 → b.err = false → exec (.barwait x) s =
        did s k sl { f.executed 0xAF with view := f.view.gain b.carry }) ∧
      (seen = (true, 0) → b.count ≠ 0 → exec (.barwait x) s = waits s k (.barrier n)) ∧
      (seen.1 = true → exec (.barrd x) s = wrote s k sl f 0xB0 (f.r.writeG x.d (BitVec.ofNat 64
        ((if b.live then 2 ^ 63 else 0) + (if b.err then 2 ^ 62 else 0) + b.epoch % 16384 * 2 ^ 48 + b.count.toNat)))) ∧
      (seen.1 = true → exec (.barfree x) s = did s k sl (deferring f 0xB1 (.barFree n))) ∧
      (seen.1 = true → seen.2 ≠ 0 → v.toNat < 16384 → exec (.gbara x) s = did s k sl (deferring f 0xB2 (.groupArrive n v.toNat))) ∧
      (seen.1 = true → seen.2 ≠ 0 → v.toNat < 16384 → b.passed v.toNat = true → exec (.gbarw x) s =
        did s k sl { f.executed 0xB3 with view := f.view.gain b.carry }) ∧
      (seen.1 = true → seen.2 ≠ 0 → v.toNat < 16384 → b.passed v.toNat = false → exec (.gbarw x) s = waits s k (.group n v.toNat)) ∧
      (seen.1 = false → exec (.barrd x) s = traps s k { code := 0x09, info := f.r.readG x.a } ∧
        exec (.barfree x) s = traps s k { code := 0x09, info := f.r.readG x.a })) ∧
    (4096 ≤ n → ∀ i ∈ [Instr.barinit x, .baradd x, .barsub x, .barwait x, .barrd x, .barfree x, .gbara x, .gbarw x],
      exec i s = traps s k { code := 0x09, info := f.r.readG x.a })
  ) ∧
  (
  ∀ s k sl f (x : RFields), Runs s k sl f x.guard →
    let n := (f.r.readG x.a).toNat
    (n ≤ 255 → mayBind s k sl f → s.commandsEnded f.fenced = true →
      exec (.evsig x) s = leaves ((s.putFiring k sl { f.executed 0xB6 with irr := true }).postEvent sl.pl.ctx n (f.r.readG x.b)) ∧
      ∃ t, exec (.evsig x) s = .next t ∧ (t.ctx sl.pl.ctx).events = (s.ctx sl.pl.ctx).events ++ [(n, f.r.readG x.b)]) ∧
    (255 < n → exec (.evsig x) s = traps s k { code := 0x09, info := f.r.readG x.a }) ∧
    (n ≤ 255 → f.irr = false → s.lowerDone k f.r.stamp.toNat sl.pl.rank = true → isSurrogate sl f = true →
      exec (.evsig x) s = traps s k { code := 0x12, info := (encode (.evsig x)).getD 0 })
  )

/-! ### Engine commands (R175 to R183) -/

/-- R175: the engine commands. A valid block is captured; a deferred command waits for the commit, and the seventeenth traps 0x07; an
immediate one makes the firing irrevocable and starts at once; a block that is not aligned or reaches beyond SPLIM traps 0x09, and
one that is not valid traps 0x03. R182, R183: the queries read a command of their family by counter and number, zero for one that is
not among the slot's last 64; the cancels cancel it at the commit, or at once. Choices of the model in it stand in the assumption
log: 32, 35, 85. -/
def Obligations.EngineCommandsAndQueries : Prop :=
  (
  ∀ (x : EFields) (i : Instr) (op : Nat),
    ((i, op) ∈ [(.cpy x, 0xB8), (.cpyt x, 0xB9), (.cpyxGather x, 0xBA), (.cpyxScatter x, 0xBA), (.cpys x, 0xBB), (.cpyb x, 0xBE),
      (.strm x, 0xBF), (.coll x, 0xC2), (.fill x, 0xC5), (.csum x, 0xC6), (.xferPin x, 0xC7), (.xferUnpin x, 0xC7), (.xferCopyPin x, 0xC7)]) →
    ∀ s k sl f, Runs s k sl f x.guard →
      let va := (f.r.readG x.desc).toNat
      let raw := (List.range (blockSize op)).map fun j => s.readLoc f.b (.carve k (va + j))
      let blk := if x.len = .g 0 then raw else withCount op raw (f.r.readG x.len)
      let c := fun bar => captured k sl f op x blk bar
      let bar := if x.bw then some x.bar.toNat else none
      let barOk := x.bw = false ∨ (barrierSeen s sl f x.bar.toNat).2 = 0
      (va % 64 = 0 → va + blockSize op ≤ sl.pl.lim * 64 → validBlock op blk = true → barOk → x.deferred = true → f.b.commands ≠ 16 →
        exec i s = did s k sl (deferring f op (.command (c bar)))) ∧
      (va % 64 = 0 → va + blockSize op ≤ sl.pl.lim * 64 → validBlock op blk = true → barOk → x.deferred = true → f.b.commands = 16 →
        exec i s = traps s k { code := 0x07, info := f.r.readG x.desc }) ∧
      (va % 64 = 0 → va + blockSize op ≤ sl.pl.lim * 64 → validBlock op blk = true → barOk → x.deferred = false → mayBind s k sl f →
        s.commandsEnded f.fenced = true → s.outstanding k < 64 → exec i s =
          leaves ((s.putFiring k sl { f.executed op with irr := true, started := f.started ++ [s.nextId] }).startCommand k
            { c bar with seen := joinEvents (joinEvents f.view.hb f.view.own) (s.groupWrote k) })) ∧
      (va % 64 = 0 → va + blockSize op ≤ sl.pl.lim * 64 → validBlock op blk = true → ¬ barOk →
        exec i s = traps s k { code := 0x09, info := x.bar.setWidth 64 }) ∧
      (va % 64 ≠ 0 ∨ sl.pl.lim * 64 < va + blockSize op → exec i s = traps s k { code := 0x09, info := f.r.readG x.desc }) ∧
      (va % 64 = 0 → va + blockSize op ≤ sl.pl.lim * 64 → validBlock op blk = false →
        exec i s = traps s k { code := 0x03, info := f.r.readG x.desc })
  ) ∧
  (
  ∀ (x : EFields) s k sl f, Runs s k sl f x.guard →
    (∀ i op fam, (i, op, fam) ∈ [(Instr.cpyq x, 0xBC, Family.copy), (.strmq x, 0xC0, .stream), (.collq x, 0xC3, .coll)] →
      exec i s = wrote s k sl f op (f.r.writeG x.desc
        (match (s.lastCommands k).find? (fun c => c.tl == x.tl.val && c.num == (f.r.readG x.len).toNat && decide (c.family = fam)) with
         | some c => BitVec.ofNat 64 (c.state.code * 2 ^ 61 + c.status % 32 * 2 ^ 56 + c.progress % 2 ^ 48)
         | none => 0))) ∧
    (∀ i op, (i, op) ∈ [(Instr.cpyk x, 0xBD), (.strmk x, 0xC1), (.collk x, 0xC4)] →
      (x.deferred = true → exec i s = did s k sl (deferring f op (.cancel op x.tl (f.r.readG x.len).toNat))) ∧
      (x.deferred = false → mayBind s k sl f →
        exec i s = leaves ((s.putFiring k sl { f.executed op with irr := true }).cancel k op x.tl.val (f.r.readG x.len).toNat)))
  )

/-! ### Residency, modes, surrogates and checks (R319 to R331) -/

namespace Sys2Proof.Safety
open Sys2Proof.Machine

/-- The image of the slot's configuration describes a layer (24 R413). -/
def describes (s : State) (sl : Slot) (n : Nat) : Prop :=
  ∃ c, s.cfg sl.pl.cfg = some c ∧ ∃ l ∈ c.launch.image.layerLines, l.layer = n

/-- The entry of a layer of the slot's context. -/
def entryOf (s : State) (sl : Slot) (n : Nat) : Tide := s.tide (sl.pl.ctx * 1024 + n)

end Sys2Proof.Safety

/-- R319, R324: FLOOD and EBB wait for the commit; TIDEQ reads the 64-bit entry of a layer at once and TIDEW once it is RESIDENT, with
what happened before its flood, or FAULTED; EVCL lowers the eviction class no higher than the launch gave it. R325, R326: MODE
places a mode token, with the slot that issues it, on every control port of the actor and MODEQ reads the state of a region. An
actor without a control port traps 0x06, and so does a handler firing; a set above 7 and an unknown region trap 0x09. Choices of the
model in it stand in the assumption log: 89. -/
def Obligations.ResidencyAndModes : Prop :=
  (
  ∀ s k sl f (x : RFields), Runs s k sl f x.guard →
    let n := (f.r.readG x.a).toNat
    let src := (f.r.readG x.b).toNat
    let t := entryOf s sl n
    let stat := if t.state = .faulted then t.stat % 256 else 0
    let word := BitVec.ofNat 64 (t.state.code * 2 ^ 61 + (if t.pfl then 2 ^ 60 else 0) + stat * 2 ^ 48 + t.gen % 65536 * 2 ^ 32
      + t.ecl % 8 * 2 ^ 29 + t.pend % 2 ^ 29)
    (n ≤ 1023 → describes s sl n →
      (src % 65536 = 0 → src < 2 ^ 60 → exec (.flood x) s = did s k sl (deferring f 0xC8 (.flood n src))) ∧
      (¬ (src % 65536 = 0 ∧ src < 2 ^ 60) → exec (.flood x) s = traps s k { code := 0x09, info := f.r.readG x.b }) ∧
      exec (.ebb x) s = did s k sl (deferring f 0xC9 (.ebb n)) ∧
      exec (.tideq x) s = wrote s k sl f 0xCB (f.r.writeG x.d word) ∧
      (t.state = .resident → exec (.tidew x) s =
        did s k sl { f.executed 0xCA with r := f.r.writeG x.d word, view := f.view.gain t.keptSeen }) ∧
      (t.state = .faulted → exec (.tidew x) s = wrote s k sl f 0xCA (f.r.writeG x.d word)) ∧
      (t.state ≠ .resident → t.state ≠ .faulted → exec (.tidew x) s = waits s k (.tide n))) ∧
    (1023 < n → ∀ i ∈ [Instr.flood x, .ebb x, .tideq x, .tidew x], exec i s = traps s k { code := 0x09, info := f.r.readG x.a }) ∧
    (n ≤ sl.pl.launchEcl → n < 8 → exec (.evcl x) s = did s k sl { f.executed 0xCC with r := { f.r with sys.prioEcl := n } }) ∧
    (sl.pl.launchEcl < n ∨ 8 ≤ n → exec (.evcl x) s = traps s k { code := 0x0A, info := f.r.readG x.a })
  ) ∧
  (
  ∀ s k sl f (x : RFields), Runs s k sl f x.guard →
    let v := (f.r.readG x.a).toNat
    (f.handler = false → sl.pl.controls ≠ [] → v ≤ 7 → exec (.mode x) s = did s k sl { f.executed 0xCD with
      b := { f.b with entries := f.b.entries ++ sl.pl.controls.map fun c => (c.1, Entry.mode c.2 v (s.issuerOf k sl)) } }) ∧
    (s.cloneSet k = none → s.issuerOf k sl = sl.pl.inst) ∧
    (f.handler = true ∨ sl.pl.controls = [] → exec (.mode x) s = traps s k { code := 0x06 }) ∧
    (f.handler = false → sl.pl.controls ≠ [] → 7 < v → exec (.mode x) s = traps s k { code := 0x09, info := f.r.readG x.a }) ∧
    (∀ r, v < 65536 → s.region (sl.pl.cfg * 65536 + v) = some r → exec (.modeq x) s = wrote s k sl f 0xCE (f.r.writeG x.d (BitVec.ofNat 64
      (r.cfgn % 2 ^ 32 * 2 ^ 32 + (if r.queue ≠ [] ∨ r.levels ≠ [] ∨ r.delta ≠ 0 then 2 ^ 31 else 0) + (if r.queue ≠ [] then 2 ^ 30 else 0)
        + (r.queue.head?.elim 0 (·.rset)) % 8 * 2 ^ 27 + r.cur % 8 * 2 ^ 24 + min r.queue.length 255 * 2 ^ 16 + r.lf % 256 * 2 ^ 8)))) ∧
    (s.region (sl.pl.cfg * 65536 + v) = none → exec (.modeq x) s = traps s k { code := 0x09, info := f.r.readG x.a })
  )

/-- R328, R330, R331: SBEG opens the check of a surrogate firing, SRES takes the greatest magnitude of the enabled lanes into the
residual and SFALL marks a rejection; outside a surrogate firing each traps 0x0A. CHKERR reads CHKI or traps 0x0D on poison; FLGT
tests the flags. -/
def Obligations.SurrogatesAndChecks : Prop :=
  ∀ s k sl f (x : RFields), Runs s k sl f x.guard →
    (isSurrogate sl f = true →
      exec (.sbeg x) s = did s k sl { f.executed 0xCF with surK := true, surQ := 0 } ∧
      exec (.sfall x) s = did s k sl { f.executed 0xD1 with surReject := true } ∧
      (named x.a f.r → ∃ q, exec (.sres x) s = did s k sl { f.executed 0xD0 with surQ := q } ∧
        f.surQ.toNat ≤ q.toNat ∧
        (∀ e, e < 64 → (f.r.pr x.pm).getLsbD e = true → elemBits f.r x.a 32 e % 2 ^ 31 ≤ q.toNat) ∧
        (q = f.surQ ∨ ∃ e, e < 64 ∧ (f.r.pr x.pm).getLsbD e = true ∧ q.toNat = elemBits f.r x.a 32 e % 2 ^ 31))) ∧
    (isSurrogate sl f = false → ∀ i ∈ [Instr.sbeg x, .sres x, .sfall x], exec i s = traps s k { code := 0x0A }) ∧
    (f.r.sys.chki.getLsbD 0 = false → exec (.chkerr x) s = wrote s k sl f 0xD2 (f.r.writeG x.d (f.r.sys.chki &&& 3))) ∧
    (f.r.sys.chki.getLsbD 0 = true → exec (.chkerr x) s = traps s k { code := 0x0D, info := f.r.sys.chki }) ∧
    ((f.r.readG x.a).toNat < 32 → exec (.flgt x) s = wrote s k sl f 0xD3
      (f.r.writeG x.d (((sl.flga &&& ~~~f.b.flgaClear) ||| f.r.raised).setWidth 64 &&& f.r.readG x.a))) ∧
    (32 ≤ (f.r.readG x.a).toNat → exec (.flgt x) s = traps s k { code := 0x09, info := f.r.readG x.a })

/-! ### System registers and system instructions (R50 to R56, R374 to R385) -/

namespace Sys2Proof.Safety

/-- The registers with the bits that are not reserved in them (03 R50 to R56); those that MTSR may write. -/
def sysBits : List (Nat × Dword) :=
  [(0x000, 0x3FFF), (0x001, 0x7FFFFFFF), (0x002, 0xFFFF0003), (0x003, 0xFFFFFFFFFFFFFFFF), (0x004, 0xFFFFFFFFFFFFFFFF), (0x005, 0xF),
   (0x006, 0x7), (0x007, 0xFFFF), (0x008, 0x0FFFFFFFFFFF007F), (0x009, 0x3F), (0x00A, 0xFFFFFFFF), (0x00B, 0x3), (0x00C, 0x70F),
   (0x00D, 0xFFFFFFFFFFFFFFFF), (0x00E, 0x1FF), (0x00F, 0xFFFFFFFFFFFFFFFF), (0x010, 0x3FFF9), (0x011, 0x1F), (0x012, 0xFFFFFFFFFFFFFFFF)]
def mtsrWrites : List Nat := [0x000, 0x001, 0x002, 0x008, 0x010, 0x011]

end Sys2Proof.Safety

/-- R50 to R56, R369, R374: MFSR reads every system register. R51 to R56, R374: MTSR writes FCSR, TOLR, CHKI, SPOV, TRAPV and FLGA as
the firing sees them: CHKI's low bits and FLGA are cleared by ones. A reserved bit traps 0x03 with the word, and so does an invalid
code of FCSR, TOLR or SPOV; then a register that may not be written traps 0x0A, and an enabled handler outside the run 0x09. The
reserved bits of CTXID, COVE, DETL, PRIO and TRAPC are the model's reading (log 94). Choices of the model in it stand in the
assumption log: 33, 94. -/
def Obligations.SystemRegisters : Prop :=
  (
  ∀ s k sl f (x : YFields), Runs s k sl f x.guard →
    let c := s.ctx sl.pl.ctx
    let p := sl.pl
    ∃ v, exec (.mfsr x) s = wrote s k sl f 0xD4 (f.r.writeG x.gr v) ∧
      (x.sysreg.toNat = 0x000 → v = f.r.sys.fcsr) ∧
      (x.sysreg.toNat = 0x001 → v = f.r.sys.tolr) ∧
      (x.sysreg.toNat = 0x002 → v = f.r.sys.chki) ∧
      (x.sysreg.toNat = 0x003 → v = f.r.stamp) ∧
      (x.sysreg.toNat = 0x004 → v = p.instWord) ∧
      (x.sysreg.toNat = 0x005 → v = BitVec.ofNat 64 (f.phase % 16)) ∧
      (x.sysreg.toNat = 0x006 → v = BitVec.ofNat 64 (f.rset % 8)) ∧
      (x.sysreg.toNat = 0x007 → v = BitVec.ofNat 64 (p.lim % 65536)) ∧
      (x.sysreg.toNat = 0x008 → v = f.r.sys.spov) ∧
      (x.sysreg.toNat = 0x009 → v = BitVec.ofNat 64 (p.ctx % 64)) ∧
      (x.sysreg.toNat = 0x00A → v = BitVec.ofNat 64 (c.gen % 2 ^ 20 * 4096 + c.tag % 4096)) ∧
      (x.sysreg.toNat = 0x00B → v = BitVec.ofNat 64 (sl.detl % 4)) ∧
      (x.sysreg.toNat = 0x00C → v = BitVec.ofNat 64 (f.r.sys.prioEcl % 8 * 256 + f.r.sys.prioLvl % 16)) ∧
      (x.sysreg.toNat = 0x00D → v = BitVec.ofNat 64 s.ns) ∧
      (x.sysreg.toNat = 0x00E → v = if f.handler then sl.trapc else 0) ∧
      (x.sysreg.toNat = 0x00F → v = if f.handler then sl.trapi.get (Fin.ofNat 8 x.sub.toNat) else 0) ∧
      (x.sysreg.toNat = 0x010 → v = f.r.sys.trapv) ∧
      (x.sysreg.toNat = 0x011 → v = (sl.flga &&& ~~~f.b.flgaClear).setWidth 64) ∧
      (x.sysreg.toNat = 0x012 → v = BitVec.ofNat 64 (p.spb % 65536 * 2 ^ 48 + p.stb % 65536 * 2 ^ 32 + p.wtb % 65536 * 2 ^ 16 + p.phb % 65536))
  ) ∧
  (
  ∀ s k sl f (x : YFields), Runs s k sl f x.guard →
    let v := f.r.readG x.gr
    let now := fun (r : SysRegs) => did s k sl { f.executed 0xD5 with r := { f.r with sys := r } }
    (x.sysreg.toNat = 0x000 → v &&& ~~~0x3FFF = 0 → v.toNat / 1024 % 8 ≠ 0 → v.toNat / 1024 % 8 ≠ 7 →
      exec (.mtsr x) s = now { f.r.sys with fcsr := v }) ∧
    (x.sysreg.toNat = 0x001 → v.toNat ≤ 0x7F800000 → exec (.mtsr x) s = now { f.r.sys with tolr := v }) ∧
    (x.sysreg.toNat = 0x002 → v &&& ~~~0xFFFF0003 = 0 →
      exec (.mtsr x) s = now { f.r.sys with chki := (v &&& 0xFFFF0000) ||| (f.r.sys.chki &&& ~~~v &&& 3) }) ∧
    (x.sysreg.toNat = 0x008 → v &&& ~~~0x0FFFFFFFFFFF007F = 0 → v.toNat % 128 ≤ 64 → exec (.mtsr x) s = now { f.r.sys with spov := v }) ∧
    (x.sysreg.toNat = 0x010 → v &&& ~~~0x3FFF9 = 0 → (v.getLsbD 0 = true → inRun sl ((v.toNat / 8 % 2 ^ 15 : Nat) : Int) = true) →
      exec (.mtsr x) s = now { f.r.sys with trapv := v }) ∧
    (x.sysreg.toNat = 0x010 → v &&& ~~~0x3FFF9 = 0 → v.getLsbD 0 = true → inRun sl ((v.toNat / 8 % 2 ^ 15 : Nat) : Int) = false →
      exec (.mtsr x) s = traps s k { code := 0x09, info := v }) ∧
    (x.sysreg.toNat = 0x011 → v.toNat < 32 → exec (.mtsr x) s =
      did s k sl { f.executed 0xD5 with b := { f.b with flgaClear := f.b.flgaClear ||| v.setWidth 5 } }) ∧
    (∀ m, (x.sysreg.toNat, m) ∈ sysBits → v &&& ~~~m ≠ 0 → exec (.mtsr x) s = traps s k { code := 0x03, info := (encode (.mtsr x)).getD 0 }) ∧
    ((x.sysreg.toNat = 0x000 ∧ (v.toNat / 1024 % 8 = 0 ∨ v.toNat / 1024 % 8 = 7)) ∨ (x.sysreg.toNat = 0x001 ∧ 0x7F800000 < v.toNat) ∨
      (x.sysreg.toNat = 0x008 ∧ 64 < v.toNat % 128) → exec (.mtsr x) s = traps s k { code := 0x03, info := (encode (.mtsr x)).getD 0 }) ∧
    (∀ m, (x.sysreg.toNat, m) ∈ sysBits → x.sysreg.toNat ∉ mtsrWrites → v &&& ~~~m = 0 →
      exec (.mtsr x) s = traps s k { code := 0x0A, info := v })
  )

/-- R375 to R378, R382: PRIO, the SYSC and ORDL queries, and XLAT. PRIO sets a level no higher than the launch gave; XLAT gives the
translation or the code of its failure. R379, R383, R385: TLBI begins an invalidation and waits for it, in context 0 alone; HALT
freezes the other slots of the context and HALT.rel releases it; DSTEP puts one instruction of a frozen slot next. Each of the last
three makes the firing irrevocable. Choices of the model in it stand in the assumption log: 38, 62. -/
def Obligations.SystemInstructions : Prop :=
  (
  ∀ s k sl f, (∀ x : YFields, Runs s k sl f x.guard →
    let v := (f.r.readG x.gr).toNat
    let log := fun (g : OrderLog → Nat) => BitVec.ofNat 64 (((s.ctx sl.pl.ctx).log).elim 0 g)
    (v ≤ sl.pl.launchLvl → v < 16 → exec (.prio x) s = did s k sl { f.executed 0xDC with r := { f.r with sys.prioLvl := v } }) ∧
    (sl.pl.launchLvl < v → v < 16 → exec (.prio x) s = traps s k { code := 0x0A, info := f.r.readG x.gr }) ∧
    (16 ≤ v → exec (.prio x) s = traps s k { code := 0x09, info := f.r.readG x.gr }) ∧
    exec (.ordl x) s = wrote s k sl f 0xDD (f.r.writeG x.gr (log (·.wp))) ∧
    exec (.ordlDrop x) s = wrote s k sl f 0xDD (f.r.writeG x.gr (log (·.drop))) ∧
    exec (.ordlStat x) s = wrote s k sl f 0xDD (f.r.writeG x.gr (log fun l =>
      (if l.ovf then 1 else 0) + 2 * (if l.div then 1 else 0) + 4 * ((s.ctx sl.pl.ctx).level % 4))) ∧
    (s.dv.jetty.restarting = none →
      exec (.syscOrd x) s = wrote s k sl f 0xD6 (f.r.writeG x.gr (BitVec.ofNat 64 (s.launchOf sl.pl.cfg))) ∧
      exec (.syscPinq x) s = wrote s k sl f 0xD6 (f.r.writeG x.gr (BitVec.ofNat 64 (s.pinLeft (k / 8 / 144) sl.pl.ctx))) ∧
      (v ≤ 255 → exec (.syscEpoch x) s = wrote s k sl f 0xD6 (f.r.writeG x.gr (BitVec.ofNat 64 (s.group v).epoch))) ∧
      (255 < v → exec (.syscEpoch x) s = traps s k { code := 0x09, info := f.r.readG x.gr })) ∧
    (s.dv.jetty.restarting.isSome = true → ∀ i ∈ [Instr.syscOrd x, .syscPinq x, .syscEpoch x], exec i s = waits s k .jetty)) ∧
  (∀ x : RFields, Runs s k sl f x.guard →
    let va := (f.r.readG x.a).toNat
    let gives := fun (n : Nat) => exec (.xlat x) s = wrote s k sl f 0xD9 (f.r.writeG x.d (BitVec.ofNat 64 n))
    (2 ^ 60 ≤ va → gives (2 ^ 63 + 5 * 2 ^ 56)) ∧
    (∀ e, va < 2 ^ 60 → s.translateLeaf sl.pl.ctx va x.mods.w = .error e → gives (2 ^ 63 + e.code * 2 ^ 56)) ∧
    (∀ t, va < 2 ^ 60 → s.translateLeaf sl.pl.ctx va x.mods.w = .ok t → gives ((if t.level = 4 then 0 else if t.level = 3 then 1 else 2) * 2 ^ 54
      + (if t.leaf.getLsbD 2 then 2 ^ 53 else 0) + (if t.leaf.getLsbD 3 then 2 ^ 52 else 0) + t.pa % 2 ^ 52)))
  ) ∧
  (
  ∀ s k sl f (x : YFields), Runs s k sl f x.guard →
    let v := f.r.readG x.gr
    let vpg := v.toNat / 2 ^ 16 % 2 ^ 44
    let log := v.toNat % 64
    (sl.pl.ctx ≠ 0 → exec (.tlbi x) s = traps s k { code := 0x0A, info := v }) ∧
    (sl.pl.ctx = 0 → sl.firing = some f → f.begun = false → v &&& 0xF00000000000FFC0 = 0 → log ≤ 44 → vpg % 2 ^ log = 0 →
      exec (.tlbi x) s = leaves ((s.beginInvalidation 0 vpg log none).park k (.invalidation s.nextId))) ∧
    (sl.pl.ctx = 0 → sl.firing = some f → f.begun = true → exec (.tlbi x) s = wrote s k sl f 0xD8 f.r) ∧
    (mayBind s k sl f →
      exec (.halt x) s = leaves ((s.putFiring k sl { f.executed 0xDA with irr := true }).haltCtx sl.pl.ctx (some k)) ∧
      exec (.haltRel x) s = leaves ((s.putFiring k sl { f.executed 0xDA with irr := true }).releaseCtx sl.pl.ctx) ∧
      ∀ t n, s.stepTarget sl v = .ok t → x.gr = .g n → ∃ s', exec (.dstep x) s = .next s' ∧
        s'.agenda = .single k t n.val :: (s.putFiring k sl { f.executed 0xDB with irr := true }).agenda ∧
        s'.slots = (s.putFiring k sl { f.executed 0xDB with irr := true }).slots ∧ s'.mm = s.mm) ∧
    (∀ st, s.stepTarget sl v = .error st → stopsWith (.dstep x) s k st)
  )

/-! ### The matrix engine (R249 to R278) -/

namespace Sys2Proof.Safety
open Sys2Proof.Machine

/-- The accumulators that an instruction on aN writes: aN, and the odd one of its pair (R249). -/
def target (n : Fin 4) (wide : Bool) (m : Fin 4) : Prop := m = n ∨ (wide = true ∧ m = n + 1)

/-- No injection is armed there (R277). -/
def unarmed (n : Fin 4) (wide : Bool) (r : Regs) : Prop := ∀ m, target n wide m → (r.acc.get m).armed = none

/-- Registers that agree but for accumulators that `m` names, FCSR, the raised flags and the stochastic count. -/
def sameButAcc (m : Fin 4 → Prop) (r q : Regs) : Prop :=
  (∀ n, ¬ m n → q.acc.get n = r.acc.get n) ∧
  q = { r with acc := q.acc, sys.fcsr := q.sys.fcsr, raised := q.raised, srCount := q.srCount }

/-- Row `i` is enabled (R254). -/
def rowOn (pm : Fin 16) (r : Regs) (i : Nat) : Bool := (r.pr pm).getLsbD i

/-- What an instruction that forms accumulator elements leaves in the registers: the elements that `on` names hold their results and the
others are unchanged; the checksums agree with the contents; flags enter FCSR.FL, the raised flags and the status word, which loses
none but those that `fresh` replaces; PSN and CSM stay (R251, R254, R275). -/
def formed (r q : Regs) (n : Fin 4) (wide fresh : Bool) (on : Nat → Bool) (res : Nat → Nat) : Prop :=
  sameButAcc (target n wide) r q ∧
  (∀ e, e < 2048 → q.accPat n wide e = if on e then res e else r.accPat n wide e) ∧
  (∀ m, target n wide m → (q.acc.get m).agrees = true) ∧
  (∃ fl tf : BitVec 5, q.sys.fcsr = r.sys.fcsr ||| fl.setWidth 64 ∧ q.raised = r.raised ||| fl ∧
    (q.acc.get n).tsw.extractLsb' 0 5 = (if fresh then 0 else (r.acc.get n).tsw.extractLsb' 0 5) ||| tf ∧ fl &&& tf = fl) ∧
  (q.acc.get n).tsw.extractLsb' 5 2 = (r.acc.get n).tsw.extractLsb' 5 2

/-- A matrix instruction that runs with no trap enabled and no injection armed. -/
def forms (i : Instr) (g : Guard) (op : Nat) (n : Fin 4) (wide fresh : Bool) (pre : Regs → Prop) (on : Regs → Nat → Bool)
    (res : Regs → Nat → Nat) : Prop :=
  ∀ s k sl f, Runs s k sl f g → quiet f.r → unarmed n wide f.r → pre f.r →
    ∃ r, exec i s = wrote s k sl f op r ∧ formed f.r r n wide fresh (on f.r) (res f.r)

/-- A register begins a group of `n`: the instruction names it, and the group ends by v63 (R253). -/
def begins (x : Reg) (n : Nat) (r : Regs) : Prop := named x r ∧ (vnum r x).val + n ≤ 64

/-- Element `p` of width `b` in the string of elements of a group, and the scale of its block (R253). -/
def groupElem (r : Regs) (x : Reg) (b p : Nat) : Nat := velem (r.v.get (Fin.ofNat 64 ((vnum r x).val + p / (2048 / b)))) b (p % (2048 / b))
def groupScale (r : Regs) (x : Reg) (n p : Nat) : Nat := velem (r.v.get (Fin.ofNat 64 ((vnum r x).val + n))) 8 (p / 32)

/-- The registers of an A panel and of a B panel of `n` k-steps (R253). -/
def lengthA (n b : Nat) : Nat := (n * b + 31) / 32
def lengthB (n b : Nat) : Nat := (n * b + 63) / 64

/-- The value of a floating-point matrix operand: for E2M1 times the scale of its block (R203), and negated where the modifier says. -/
def operandVal (t : Ty) (neg : Bool) (pat scale : Nat) : FVal :=
  let v := if t = .e2m1 then blockVal scale pat else (tyFmt t).value pat
  if neg then v.neg else v

/-- k-steps of a group (R252). -/
def groupLen (t : Ty) : Nat := if t.bits = 4 then 4 else if t.bits = 8 then 2 else 1

/-- R255 for one element with old pattern `c`: one rounding for each group. -/
def accumulated (am : AccMode) (sat : Bool) (spc : Nat) (a b : Nat → FVal) (n c : Nat) : Nat :=
  (List.range ((n + spc - 1) / spc)).foldl (fun c g =>
    let p := exactSum ((List.range (min spc (n - g * spc))).map fun t => exactMul (a (g * spc + t)) (b (g * spc + t))) .rne
    let x := match am with
      | .set => if g = 0 then p else exactAdd (fmt32.value c) p.v .rne
      | .add => exactAdd (fmt32.value c) p.v .rne
      | .sub => exactAdd (fmt32.value c) p.v.neg .rne
    (fmt32.result x .rne sat 0).1) c

/-- R256 for one element with old value `c`: with SAT every step clamps. -/
def summed (t : Ty) (am : AccMode) (sat : Bool) (a b : Nat → Int) (n : Nat) (c : Int) : Int :=
  (List.range n).foldl (fun c k => clamped t sat (if am = .sub then c - a k * b k else c + a k * b k)) (if am = .set then 0 else c)

/-- The type that integer pairs accumulate in. -/
def sumType (w : Bool) : Ty := if w then .i64 else .i32

/-- The result of a multiplication for element (i, j) over `n` k-steps of patterns with scales. -/
def product (x : XFields) (n : Nat) (a b : Nat → Nat → Nat × Nat) (r : Regs) (e : Nat) : Nat :=
  if x.tyA.isInt then
    let t := sumType x.mods.w
    (BitVec.ofInt t.bits (summed t x.am x.mods.sat (fun q => valueOf x.tyA (BitVec.ofNat 64 (a (e / 32) q).1))
      (fun q => valueOf x.tyB (BitVec.ofNat 64 (b q (e % 32)).1)) n
      (valueOf t (BitVec.ofNat 64 (r.accPat x.acc x.mods.w e))))).toNat
  else accumulated x.am x.mods.sat (groupLen x.tyA) (fun q => operandVal x.tyA x.mods.na (a (e / 32) q).1 (a (e / 32) q).2)
    (fun q => operandVal x.tyB x.mods.nb (b q (e % 32)).1 (b q (e % 32)).2) n (r.accPat x.acc false e)

/-- A pair of types that the engine multiplies (R252). -/
def paired (x : XFields) : Prop :=
  (x.tyA.isInt = true ∧ x.tyB.isInt = true ∧ x.tyA.bits = 8 ∧ x.tyB.bits = 8) ∨
  (x.tyA.isInt = false ∧ x.tyB.isInt = false ∧ x.mods.w = false ∧
    ((x.tyA.bits = 8 ∧ x.tyB.bits = 8) ∨ (x.tyA.bits = 16 ∧ x.tyB.bits = 16) ∨ (x.tyA = .e2m1 ∧ x.tyB = .e2m1)))

/-- Element `p` of width `b` bits in a panel of bytes, and the panel's scale bytes behind its `len` bytes (R260). -/
def byteElem (byte : Nat → Byte) (base b p : Nat) : Nat :=
  if b = 4 then (byte (base + p / 2)).toNat / 16 ^ (p % 2) % 16 else ofBytes ((List.range (b / 8)).map fun j => byte (base + p * (b / 8) + j))

/-- A firing after an instruction that may have met poison (23 R398). -/
def afterPoison (f : Firing) (op : Nat) (psn : Bool) : Firing := if psn then (f.executed op).taint else f.executed op

end Sys2Proof.Safety

/-- R252 to R256, R258, R264, R268, R272: MMA, MREC, MSCL and MJOIN form their elements, with no trap enabled and no injection armed.
R259, R260, R261: MMAG and MMT, whose operands lie in tile SRAM. MMAG gathers the rows that its index vector names; MMT takes a
panel in chunks of 64 k-steps, of which all but the last leave the firing at the instruction with one more chunk counted. A group of
B that runs past v63 traps 0x03, with the word as information. Choices of the model in it stand in the assumption log: 14, 15. -/
def Obligations.MatrixMultiplication : Prop :=
  (
  (∀ x : XFields, paired x → 1 ≤ x.kidx.toNat →
    let n := x.kidx.toNat
    let b := x.tyA.bits
    forms (.mma x) x.guard 0x70 x.acc (x.tyA.isInt && x.mods.w) (x.am == .set)
      (fun r => begins x.a (lengthA n b) r ∧ begins x.b (lengthB n b) r) (fun r e => rowOn x.pm r (e / 32)) fun r e =>
        product x n (fun i q => (groupElem r x.a b (64 * q + i), groupScale r x.a (lengthA n b) (64 * q + i)))
          (fun q j => (groupElem r x.b b (32 * q + j), groupScale r x.b (lengthB n b) (32 * q + j))) r e) ∧
  (∀ x : XFields, x.tyA = .bf16 ∨ x.tyA = .f16 ∨ x.tyA = .f32 → x.kidx.toNat ≤ 64 →
    forms (.mrec x) x.guard 0x73 x.acc false false (two x.a x.b)
      (fun r e => decide (e / 32 < x.kidx.toNat) && rowOn x.pm r (e / 32)) fun r e =>
        (List.range (e / 32 + 1)).foldl (fun h i =>
          let c := r.accPat x.acc false (32 * i + e % 32)
          if rowOn x.pm r i then
            (fmt32.result (exactFma (elemFl x.tyA x.mods.na x.a r i) (fmt32.value h) (fmt32.value c) .rne) .rne x.mods.sat 0).1
          else c) (elemBits r x.b 32 (e % 32))) ∧
  (∀ (x : RFields) (n : Fin 4), x.d = .a n → x.ty = .f32 ∨ x.ty = .i32 →
    forms (.mscl x) x.guard 0x77 n false false (two x.a x.b) (fun r e => rowOn x.pm r (e / 32)) fun r e =>
      let c := r.accPat n false e
      let v := if x.ty = .i32 then intExact (valueOf .i32 (BitVec.ofNat 64 c)) else fmt32.value c
      let p := exactMul v (elemFl .f32 x.mods.na x.a r (e / 32))
      let q := exactMul p.v (elemFl .f32 false x.b r (e % 32))
      (fmt32.result { q with fl := q.fl ||| p.fl } (r.mode x.mods.rnd) x.mods.sat (r.sr 0 e)).1) ∧
  (∀ (x : RFields) (t u : Fin 4), x.d = .a t → x.a = .a u →
    forms (.mjoin x) x.guard 0x79 t true false (two x.b x.c) (fun r e => rowOn x.pm r (e / 32)) fun r e =>
      let w := elemAs .i32 x.b r (e / 32) + elemAs .i32 x.c r (e % 32)
      let v := (exactScale (intExact (valueOf .i64 (BitVec.ofNat 64 (r.accPat u true e)))) w).v
      (fmt64.result (exactAdd (fmt64.value (r.accPat t true e)) v .rne) .rne x.mods.sat 0).1)
  ) ∧
  (
  (∀ (x : XFields) s k sl f n ix, Runs s k sl f x.guard → quiet f.r → unarmed x.acc (x.tyA.isInt && x.mods.w) f.r → paired x → x.tyA ≠ .e2m1 →
    let b := x.tyA.bits
    let d := f.r.readG x.a
    let index := fun i => elemBits f.r ix 32 i
    let on := fun i => rowOn x.pm f.r i && index i != 0xFFFFFFFF
    let row := fun i => d.toNat % 2 ^ 22 + index i * (d.toNat / 2 ^ 22 % 2 ^ 16)
    let ls := ((List.range 64).filter on).flatMap fun i => (List.range (n * b / 8)).map fun j => Loc.carve k (row i + j)
    d.toNat / 2 ^ 38 = n → 1 ≤ n → n ≤ 512 / b → begins x.b (lengthB n b) f.r → Reg.ofSpec x.kidx.toNat = some ix → named ix f.r →
    (∀ i, i < 64 → on i = true → row i % (b / 8) = 0 ∧ row i + n * b / 8 ≤ sl.pl.lim * 64) →
    ls.any (s.poisonLoc f.b) = false →
    ∃ r, exec (.mmag x) s = did s k sl { f.executed 0x71 with r := r } ∧
      formed f.r r x.acc (x.tyA.isInt && x.mods.w) (x.am == .set) (fun e => on (e / 32)) (product x n
        (fun i q => (byteElem (fun a => s.readLoc f.b (.carve k a)) (row i) b q, 0))
        (fun q j => (groupElem f.r x.b b (32 * q + j), groupScale f.r x.b (lengthB n b) (32 * q + j))) f.r)) ∧
  (∀ (x : XFields) s k sl f kr, Runs s k sl f x.guard → paired x → Reg.ofSpec x.kidx.toNat = some kr →
    let b := x.tyA.bits
    let n := (f.r.readG kr).toNat
    let pa := (f.r.readG x.a).toNat
    let pb := (f.r.readG x.b).toNat
    let lenA := 8 * n * b + if x.tyA = .e2m1 then 2 * n else 0
    let lenB := 4 * n * b + if x.tyA = .e2m1 then n else 0
    let byte := fun a => s.readLoc f.b (.carve k a)
    1 ≤ n → n ≤ 131072 → pa % 64 = 0 → pb % 64 = 0 → pa + lenA ≤ sl.pl.lim * 64 → pb + lenB ≤ sl.pl.lim * 64 →
    ((f.grind + 1) * 64 < n → exec (.mmt x) s = did s k sl { f.executed 0x72 with pc := f.pc, grind := f.grind + 1 }) ∧
    (n ≤ (f.grind + 1) * 64 → quiet f.r → unarmed x.acc (x.tyA.isInt && x.mods.w) f.r →
      (∀ a, s.poisonLoc f.b (.carve k a) = false) →
      ∃ r, exec (.mmt x) s = did s k sl { f.executed 0x72 with r := r, grind := 0 } ∧
        formed f.r r x.acc (x.tyA.isInt && x.mods.w) (x.am == .set) (fun e => rowOn x.pm f.r (e / 32)) (product x n
          (fun i q => (byteElem byte pa b (64 * q + i), (byte (pa + 8 * n * b + (64 * q + i) / 32)).toNat))
          (fun q j => (byteElem byte pb b (32 * q + j), (byte (pb + 4 * n * b + (32 * q + j) / 32)).toNat)) f.r))) ∧
  (∀ (x : XFields) s k sl f kr, Runs s k sl f x.guard → Reg.ofSpec x.kidx.toNat = some kr →
    (f.r.readG kr = 0 ∨ 131072 < (f.r.readG kr).toNat) → exec (.mmt x) s = traps s k { code := 0x09, info := f.r.readG kr }) ∧
  (∀ (x : XFields) s k sl f, Runs s k sl f x.guard →
    let d := f.r.readG x.a
    (2 ^ 46 ≤ d.toNat ∨ d.toNat / 2 ^ 38 % 256 = 0 ∨ 512 / x.tyA.bits < d.toNat / 2 ^ 38 % 256) →
      exec (.mmag x) s = traps s k { code := 0x09, info := d }) ∧
  (∀ (x : XFields) (m : Fin 64) s k sl f, x.b = .v m → Runs s k sl f x.guard →
    let d := (f.r.readG x.a).toNat
    d < 2 ^ 46 → 1 ≤ d / 2 ^ 38 → d / 2 ^ 38 ≤ 512 / x.tyA.bits → 64 < m.val + lengthB (d / 2 ^ 38) x.tyA.bits →
      exec (.mmag x) s = traps s k { code := 0x03, info := (encode (.mmag x)).getD 0 })
  )

namespace Sys2Proof.Safety
open Sys2Proof.Machine

/-- Where the lines of a tile and its status slot lie (R266): the bytes of element `e` at `place e`, those of the status slot at `status`. -/
def tileAt (s : State) (k : Nat) (sl : Slot) (f : Firing) (x : MFields) (write : Bool) (place : Nat → List Loc) (status : List Loc) : Prop :=
  let w := x.ty.bytes
  (∀ i, i < 64 → rowOn x.pm f.r i = true → ∀ j, j < w / 2 →
    s.accessLocs k sl f x.sp ((f.r.ea x + 32 * w * i + 64 * j) % 2 ^ 64) 64 write =
      .ok ((List.range (64 / w)).flatMap fun t => place (32 * i + 64 / w * j + t))) ∧
  (∀ e, (place e).length = w) ∧
  s.accessLocs k sl f x.sp ((f.r.ea x + 2048 * w) % 2 ^ 64) 64 write = .ok status ∧ status.length = 64

/-- The elements of the enabled rows. -/
def enabledElems (x : MFields) (r : Regs) : List Nat := (List.range 2048).filter fun e => rowOn x.pm r (e / 32)

/-- A type that MLDA and MSTA move. -/
def tileType (t : Ty) : Prop := t = .i32 ∨ t = .bf16 ∨ t = .f16 ∨ t = .f32

end Sys2Proof.Safety

/-- R265, R269, R276, R277: MZERO, MTSW, MTST, MCHK and MPERT. R267, R270: MTOV and MFRV move rows between accumulators and vector
registers, and MSPLT splits F64 values into exponents or digits. A row number beyond 63 traps 0x09. R266: MLDA loads the enabled
rows of a tile and the status word; its poison and mismatch marks reach CHKI. MSTA stores the enabled rows and the status word with
the flags of its roundings. An address that is no multiple of 64 traps 0x09. Choices of the model in it stand in the assumption log:
14, 27. -/
def Obligations.Accumulators : Prop :=
  (
  (∀ (x : RFields) (n : Fin 4) s k sl f, x.d = .a n → Runs s k sl f x.guard → ∃ r,
    exec (.mzero x) s = wrote s k sl f 0x74 r ∧ sameButAcc (· = n) f.r r ∧ r.sys = f.r.sys ∧
    (∀ e, (r.acc.get n).e.get e = 0) ∧ (∀ e, (r.acc.get n).chkRow.get e = 0) ∧ (∀ e, (r.acc.get n).chkCol.get e = 0) ∧
    (r.acc.get n).tsw = 0 ∧ (r.acc.get n).armed = none) ∧
  (∀ (x : RFields) (n : Fin 4) s k sl f, x.a = .a n → Runs s k sl f x.guard →
    let a := f.r.acc.get n
    let w := f.r.readG x.b
    (x.mods.w = false → exec (.mtsw x) s = wrote s k sl f 0x7A (f.r.writeG x.d (a.tsw.setWidth 64))) ∧
    (x.mods.w = true → w.toNat < 2 ^ 32 → w.toNat % 2 ^ 16 < 128 → exec (.mtsw x) s = wrote s k sl f 0x7A
      ((f.r.setAcc n { a with tsw := w.setWidth 32, armed := none }).writeG x.d (a.tsw.setWidth 64))) ∧
    (x.mods.w = true → (2 ^ 32 ≤ w.toNat ∨ 128 ≤ w.toNat % 2 ^ 16) → exec (.mtsw x) s = traps s k { code := 0x09, info := w })) ∧
  (∀ (x : RFields) (n : Fin 4) (m : Fin 16) s k sl f, x.a = .a n → x.d = .p m → Runs s k sl f x.guard →
    let mask := (f.r.readG x.b).toNat
    (mask < 1024 → ∃ p : Dword, exec (.mtst x) s = wrote s k sl f 0x7B (f.r.setP m p) ∧ ∀ i, i < 64 → p.getLsbD i =
      if rowOn x.pm f.r i then (List.range 32).any fun j => mask.testBit (classBit fmt32 (f.r.accPat n false (32 * i + j)))
      else (f.r.pr m).getLsbD i) ∧
    (1024 ≤ mask → exec (.mtst x) s = traps s k { code := 0x09, info := f.r.readG x.b })) ∧
  (∀ (x : RFields) (n : Fin 4) s k sl f, x.a = .a n → Runs s k sl f x.guard →
    let a := f.r.acc.get n
    (a.agrees = true → exec (.mchk x) s = wrote s k sl f 0x7D (f.r.writeG x.d 0)) ∧
    (a.agrees = false → ∃ q : Acc, exec (.mchk x) s = wrote s k sl f 0x7D ((f.r.setAcc n q).writeG x.d 1) ∧
      q.e = a.e ∧ q.tsw = a.tsw ||| 64 ∧ q.agrees = true ∧ q.armed = a.armed)) ∧
  (∀ (x : RFields) (n : Fin 4) s k sl f, x.d = .a n → Runs s k sl f x.guard →
    let i := f.r.readG x.a
    (i.toNat ≤ 2047 → exec (.mpert x) s = wrote s k sl f 0x7C (f.r.setAcc n { f.r.acc.get n with
      armed := some (x.ty == .f32, i.toNat, (f.r.readG x.b).setWidth 32) })) ∧
    (2047 < i.toNat → exec (.mpert x) s = traps s k { code := 0x09, info := i }))
  ) ∧
  (
  (∀ (x : RFields) (n : Fin 4), x.a = .a n → x.ty.bits = 32 ∨ x.ty.bits = 64 → ∀ s k sl f, Runs s k sl f x.guard → named x.d f.r →
    let row := (f.r.readG x.b).toNat
    (row < 64 → ∃ r : Regs, exec (.mtov x) s = did s k sl
        { afterPoison f 0x7E ((f.r.acc.get n).tsw.getLsbD 5) with r := { (afterPoison f 0x7E ((f.r.acc.get n).tsw.getLsbD 5)).r with v := r.v } } ∧
      (∀ m, m ≠ vnum f.r x.d → r.v.get m = f.r.v.get m) ∧
      ∀ e, e < 2048 / x.ty.bits → velem (r.v.get (vnum f.r x.d)) x.ty.bits e =
        if enabledBy x.pm x.ty.bits f.r e then
          (if x.ty.bits = 64 then f.r.accPat n true (32 * row + e) else f.r.accPat n false (32 * ((row + e / 32) % 64) + e % 32))
        else elemBits f.r x.d x.ty.bits e) ∧
    (64 ≤ row → exec (.mtov x) s = traps s k { code := 0x09, info := f.r.readG x.b })) ∧
  (∀ (x : RFields) (n : Fin 4), x.d = .a n → x.ty.bits = 32 ∨ x.ty.bits = 64 → ∀ s k sl f, Runs s k sl f x.guard → named x.a f.r →
    let row := (f.r.readG x.b).toNat
    let wide := x.ty.bits == 64
    (row < 64 → ∃ r, exec (.mfrv x) s = wrote s k sl f 0x7F r ∧ sameButAcc (target n wide) f.r r ∧ r.sys = f.r.sys ∧
      (∀ m, target n wide m → (r.acc.get m).tsw = (f.r.acc.get m).tsw ∧ (r.acc.get m).agrees = true ∧ (r.acc.get m).armed = none) ∧
      (wide = true → ∀ e, e < 2048 → r.accPat n true e =
        if e / 32 = row ∧ enabledBy x.pm 64 f.r (e % 32) = true then elemBits f.r x.a 64 (e % 32) else f.r.accPat n true e) ∧
      (wide = false → ∀ e, e < 2048 → r.accPat n false e =
        let lane := if e / 32 = row then e % 32 else 32 + e % 32
        if (e / 32 = row ∨ e / 32 = (row + 1) % 64) ∧ enabledBy x.pm 32 f.r lane = true then elemBits f.r x.a 32 lane
        else f.r.accPat n false e)) ∧
    (64 ≤ row → exec (.mfrv x) s = traps s k { code := 0x09, info := f.r.readG x.b })) ∧
  (∀ x : RFields, x.mods.w = true → ∀ s k sl f, Runs s k sl f x.guard → quiet f.r → two x.d x.a f.r →
    let h := (f.r.readG x.c).toNat / 128
    (f.r.readG x.c).toNat % 128 = 0 → h < 2 →
    ∃ r, exec (.msplt x) s = wrote s k sl f 0x78 r ∧ sameBut (fun m => m = vnum f.r x.d) f.r r ∧
      ∀ i, i < 64 → velem (r.v.get (vnum f.r x.d)) 32 i =
        if i / 32 = h ∧ enabledBy x.pm 64 f.r (i % 32) = true then (sliceExp (elemFl .f64 false x.a f.r (i % 32))).1
        else elemBits f.r x.d 32 i) ∧
  (∀ x : RFields, x.mods.w = false → ∀ s k sl f, Runs s k sl f x.guard → quiet f.r → three x.d x.a x.b f.r →
    let c := (f.r.readG x.c).toNat
    c < 256 → 1 ≤ c % 16 → c % 16 ≤ 9 →
    ∃ r, exec (.msplt x) s = wrote s k sl f 0x78 r ∧ sameBut (fun m => m = vnum f.r x.d) f.r r ∧
      ∀ i, i < 256 → velem (r.v.get (vnum f.r x.d)) 8 i =
        if i / 32 = c / 16 % 8 ∧ enabledBy x.pm 64 f.r (i % 32) = true then
          (sliceDigit (elemFl .f64 false x.a f.r (i % 32)) (c % 16) (elemAs .i32 x.b f.r (32 * (c / 128) + i % 32))).1
        else elemBits f.r x.d 8 i)
  ) ∧
  (
  (∀ (x : MFields) (n : Fin 4) s k sl f place status, x.d = .a n → tileType x.ty → Runs s k sl f x.guard → quiet f.r →
    f.r.ea x % 64 = 0 → tileAt s k sl f x false place status →
    let word := BitVec.ofNat 32 (ofBytes ((bytesAt s f false (status.map fun l => (l.pa.toList, l))).take 4))
    let bad := ((enabledElems x f.r).flatMap place ++ status).any (s.poisonLoc f.b)
    ∃ (r : Regs) (lines met : List Nat) (metAt : List (Nat × Nat)),
      exec (.mlda x) s = did s k sl { f.executed 0x75 with
        r := r, tainted := f.tainted || bad || word.getLsbD 5, readLines := lines, view := { f.view with met := met, metAt := metAt } } ∧
      (s.groupId k = none → lines = f.readLines) ∧
      r = { f.r with acc := r.acc, raised := r.raised, sys.fcsr := r.sys.fcsr, sys.chki := r.sys.chki } ∧
      (∀ m, m ≠ n → r.acc.get m = f.r.acc.get m) ∧
      (∀ e : Fin 2048, (r.acc.get n).e.get e = if rowOn x.pm f.r (e / 32) then
        (let p := ofBytes (bytesAt s f false ((place e).map fun l => (l.pa.toList, l)))
         BitVec.ofNat 32 (if x.ty.bytes = 4 then p else (convertPat .f32 x.ty p .rne false 0).1)) else (f.r.acc.get n).e.get e) ∧
      (r.acc.get n).agrees = true ∧ (r.acc.get n).armed = none ∧
      (r.acc.get n).tsw = (word &&& 0xFFFF007F ||| if bad then 32 else 0) ∧
      r.sys.chki = f.r.sys.chki ||| (if bad || word.getLsbD 5 then 1 else 0) ||| (if word.getLsbD 6 then 2 else 0)) ∧
  (∀ (x : MFields) (n : Fin 4) s k sl f place status, x.d = .a n → tileType x.ty → Runs s k sl f x.guard → quiet f.r →
    f.r.ea x % 64 = 0 → tileAt s k sl f x true place status →
    let pat := fun e => if x.ty.bytes = 4 then f.r.accPat n false e
      else ((tyFmt x.ty).deliver (fmt32.value (f.r.accPat n false e)) f.r.dynamicMode false (f.r.sr 0 e)).1
    ∃ fl : BitVec 5, (x.ty.bytes = 4 → fl = 0) ∧
      let tsw := (f.r.acc.get n).tsw ||| fl.setWidth 32
      let ws := ((enabledElems x f.r).flatMap fun e => (place e).zip (toBytes x.ty.bytes (pat e))) ++
        status.zip (toBytes 4 tsw.toNat ++ List.replicate 60 0)
      let b := f.b.storeAll (ws.filter fun w => !isSpill sl k w.1)
      (b.lines.length * 64 ≤ footLimit sl → ∃ (sl' : Slot) (b' : Buffers) (r : Regs),
        exec (.msta x) s = did s k sl' { f.executed 0x76 with b := b', r := r, tainted := f.tainted || tsw.getLsbD 5 } ∧
        sl' = { sl with spill := sl'.spill, spillBad := sl'.spillBad } ∧
        b' = { f.b with gbuf := b'.gbuf, sbuf := b'.sbuf, lines := b'.lines, xlated := b'.xlated } ∧
        r.acc = f.r.acc ∧ r.g = f.r.g ∧ r.p = f.r.p ∧ r.v = f.r.v ∧ r.raised = f.r.raised ||| fl ∧
        r.sys = { f.r.sys with fcsr := f.r.sys.fcsr ||| fl.setWidth 64, chki := f.r.sys.chki ||| if tsw.getLsbD 5 then 1 else 0 } ∧
        (laidOut sl k f → s.slot k = some sl → (∀ w ∈ ws, ∀ j a, w.1 = .carve j a → a < 4194304) →
          readsAfter s k sl f sl' b' ws)) ∧
      (footLimit sl < b.lines.length * 64 → f.b.lines.length < b.lines.length → exec (.msta x) s = traps s k
        { code := 0x07, decl := BitVec.ofNat 64 (footLimit sl), act := BitVec.ofNat 64 (b.lines.length * 64),
          info := BitVec.ofNat 64 (f.r.ea x) })) ∧
  (∀ (x : MFields) s k sl f, Runs s k sl f x.guard → f.r.ea x % 64 ≠ 0 →
    exec (.mlda x) s = traps s k { code := 0x09, info := BitVec.ofNat 64 (f.r.ea x) } ∧
    exec (.msta x) s = traps s k { code := 0x09, info := BitVec.ofNat 64 (f.r.ea x) })
  )

/-! ### Arbitration, firings and their events (R28, R29, R31, R139, R293 to R297, R306, R371) -/

namespace Sys2Proof.Safety
open Sys2Proof.Machine

/-- A step takes its effect: it answers a next state, of which `p` holds. -/
def happens (i : Instr) (s : State) (p : State → Prop) : Prop := ∃ t, exec i s = .next t ∧ p t

/-- A step with nothing to do leaves the state as it is. -/
def idles (i : Instr) (s : State) : Prop := exec i s = .next s

/-- The general, vector and predicate registers and the accumulators read as zero. -/
def zeroRegs (r : Regs) : Prop :=
  (∀ n, r.g.get n = 0) ∧ (∀ n, r.v.get n = 0) ∧ (∀ n, r.p.get n = 0) ∧ (∀ n e, (r.acc.get n).e.get e = 0)

/-- The condition bits that a firing of a slot begins with: the slot's own; a fallback's firing, those of its surrogate's instance
(17 R329; log 128). -/
def startBits (s : State) (k : Nat) (sl : Slot) : BitVec 32 :=
  if sl.due.fallback.isSome then ((s.slot (s.anchor k)).getD sl).c else sl.c

/-- A slot whose firing has just begun at index `pc`: registers zero, condition bits `c` and the slot's system registers, nothing
buffered, revocable, the spill carve without a defined value (R29). -/
def begunFiring (sl : Slot) (c : BitVec 32) (pc : Nat) (u : Slot) (f : Firing) : Prop :=
  u.firing = some f ∧ u.spill = [] ∧ f.pc = pc ∧ zeroRegs f.r ∧ f.r.c = c ∧ f.r.sys = sl.sys ∧ f.b = Buffers.empty ∧ f.irr = false ∧
    f.count = 0 ∧ f.parked = none

/-- No trap comes before the first instruction of the slot's next firing (02 R29, 03 R54, 17 R322). -/
def noTrapDue (sl : Slot) : Prop := sl.due.traps = [] ∧ sl.layersHeld = true ∧ (sl.due.check = true → sl.sys.chki.getLsbD 0 = false)

/-- The slot `i` of a tile is ready: level, parked or not, and since when (R294). -/
def readyAs (s : State) (tile i lvl : Nat) (parked : Bool) (since : Nat) : Prop := (i, lvl, parked, since) ∈ s.readySlots tile

end Sys2Proof.Safety

/-- R294, R295, R297: what the arbiter selects. It selects whenever a slot is ready; a step-1 selection takes the slot that has been
ready longest, and is made for every 64th start; any other takes the highest level, and there a parked firing before a new one. A
retiring tile starts no new firing. -/
def Obligations.Arbitration : Prop :=
  ∀ (s : State) (tile : Nat),
    (∀ i st, s.select tile = some (i, st) → ∃ lvl parked since, readyAs s tile i lvl parked since ∧
      (st = true → ((s.tile tile).starts + 1) % 64 = 0 ∧ ∀ j l p t, readyAs s tile j l p t → since ≤ t ∧ (t = since → i ≤ j)) ∧
      (st = false → (s.tile tile).retiring = false → ∀ j l p t, readyAs s tile j l p t → l ≤ lvl ∧ (l = lvl → p = true → parked = true)) ∧
      ((s.tile tile).retiring = true → parked = true)) ∧
    ((s.tile tile).retiring = false → s.readySlots tile ≠ [] → s.select tile ≠ none) ∧
    ((s.tile tile).retiring = false → ((s.tile tile).starts + 1) % 64 = 0 → (∃ j l t, readyAs s tile j l false t) →
      ∃ i, s.select tile = some (i, true))

/-- R29, R293, R294, R371: a firing starts, a parked firing resumes, a handler firing and a fallback firing start. A trap that is due
comes before the first instruction. R31, R139, R261, R295, R306, R381: a pre-empted firing is parked or voided; a firing that waits
for its turn commits when every lower stamp has; an overrun traps 0x11; a draw window ends; a chunk of an MMT; and a slot whose wait
is over. Choices of the model in it stand in the assumption log: 15, 77. -/
def Obligations.FiringsStartAndEnd : Prop :=
  (
  (∀ (s : State) tile i st sl, i < 8 → (s.tile tile).running = none → (s.noteReady tile).select tile = some (i, st) →
    (s.noteReady tile).slot (tile * 8 + i) = some sl → sl.firing = none → noTrapDue sl →
    happens (.firingStart tile) s fun t => (t.tile tile).running = some i ∧ (t.tile tile).starts = (s.tile tile).starts + 1 ∧
      t.mm = s.mm ∧ t.arcs = s.arcs ∧ ∃ u f, t.slot (tile * 8 + i) = some u ∧ begunFiring sl (startBits s (tile * 8 + i) sl) f.pc u f ∧ f.starved = st ∧ f.handler = false ∧
        ((∀ c, s.cfg sl.pl.cfg = some c → c.cloneSets = []) → f.r.stamp = sl.stamp ∧
          f.pc = sl.pl.runBase + (sl.pl.actor.entry.find (sl.rset * 16 + sl.phase % sl.period)).getD 0)) ∧
  (∀ (s : State) tile i st sl f, i < 8 → (s.tile tile).running = none → (s.noteReady tile).select tile = some (i, st) →
    (s.noteReady tile).slot (tile * 8 + i) = some sl → sl.firing = some f →
    happens (.parkedFiringResume tile) s fun t => (t.tile tile).running = some i ∧ (t.tile tile).starts = (s.tile tile).starts ∧
      t.mm = s.mm ∧ t.arcs = s.arcs ∧ ∃ u, t.slot (tile * 8 + i) = some u ∧ u.firing = some { f with parked := none }) ∧
  (∀ (s : State) k sl, s.slot k = some sl → (s.tile (tileOf k)).running = none → (s.tile (tileOf k)).retiring = false →
    (s.placed k).isSome = true → sl.due.handler = true → sl.due.stopped = false → sl.firing = none → sl.due.fault = none →
    sl.due.frozen = false →
    happens (.handlerFiringStart k) s fun t => (t.tile (tileOf k)).running = some (k % 8) ∧ t.mm = s.mm ∧ t.arcs = s.arcs ∧
      ∃ u f, t.slot k = some u ∧ begunFiring sl (startBits s k sl) (bits sl.sys.trapv 17 3) u f ∧ f.handler = true ∧ u.due.handler = false) ∧
  (∀ (s : State) k sl st, (s.tile (tileOf k)).running = none → (s.noteReady (tileOf k)).select (tileOf k) = some (k % 8, st) →
    (s.noteReady (tileOf k)).slot k = some sl → sl.due.fallback.isSome = true → sl.firing = none → noTrapDue sl →
    happens (.fallbackFiring k) s fun t => (t.tile (tileOf k)).running = some (k % 8) ∧
      (t.tile (tileOf k)).starts = (s.tile (tileOf k)).starts + 1 ∧ t.mm = s.mm ∧
      ∃ u f, t.slot k = some u ∧ begunFiring sl (startBits s k sl) f.pc u f ∧ f.handler = false ∧
        (s.cloneSet k = none → f.r.stamp = sl.stamp))
  ) ∧
  (
  (∀ (s : State) tile k sl f, (s.noteReady tile).givesWay tile = some k → (s.noteReady tile).slot k = some sl → sl.firing = some f →
    (f.irr = true → ((s.noteReady tile).giveWay k).slot k = some { sl with firing := some { f with parked := some .preempted } }) ∧
    (f.irr = false → (((s.noteReady tile).giveWay k).slot k).map (fun u => (u.firing, u.due.voids)) = some (none, sl.due.voids + 1)) ∧
    happens (.preEmption tile) s fun t => match ((s.noteReady tile).giveWay k).select tile with
      | some (i, st) => t = ((s.noteReady tile).giveWay k).dispatch (tile * 8 + i) st
      | none => t = (s.noteReady tile).giveWay k) ∧
  (∀ (s : State) k sl f e, s.slot k = some sl → sl.firing = some f → f.parked = some (.commitTurn e) → sl.due.frozen = false →
    isSurrogate sl f = false → (s.onTiles k).isSome = true →
    (s.lowerDone k f.r.stamp.toNat sl.pl.rank = true →
      happens (.stampedCommit k) s fun t => t = (s.putFiring k sl { f with parked := none }).finish k e) ∧
    (s.lowerDone k f.r.stamp.toNat sl.pl.rank = false → idles (.stampedCommit k) s)) ∧
  (∀ (s : State) k sl, s.placed k = some sl → sl.firing = none → sl.due.skip = true →
    s.lowerDone k (s.nextStart k sl).1.toNat sl.pl.rank = true → exec (.stampedCommit k) s =
      .next ((s.setSlot k { sl with due.skip := false }).commitEmpty k (s.newFiring k sl 0 false))) ∧
  (∀ (s : State) k sl f, s.slot k = some sl → sl.firing = some f → sl.due.frozen = false →
    (sl.pl.actor.len < f.ran → exec (.firingOverrun k) s =
      traps s k { code := 0x11, decl := BitVec.ofNat 64 sl.pl.actor.len, act := BitVec.ofNat 64 f.ran }) ∧
    (f.ran ≤ sl.pl.actor.len → idles (.firingOverrun k) s)) ∧
  (∀ (s : State) tile, (s.tile tile).windowStart + 2700 ≤ s.clock → (∀ i sl, i < 8 → s.slot (tile * 8 + i) = some sl → sl.windowOp = none ∨ sl.pl.actor.power ≠ 0) →
    happens (.drawWindowEnd tile) s fun t => (t.tile tile).windowStart = s.clock / 2700 * 2700 ∧ t.mm = s.mm ∧
      ∀ i sl, i < 8 → s.slot (tile * 8 + i) = some sl → ∃ u, t.slot (tile * 8 + i) = some u ∧ u.windowOp = none ∧ u.due = sl.due) ∧
  (∀ (s : State) tile i sl op, i < 8 → (s.tile tile).windowStart + 2700 ≤ s.clock → s.slot (tile * 8 + i) = some sl → sl.firing = none →
    sl.pl.actor.power = 0 → sl.windowOp = some op →
    (∀ j u, j < 8 → j ≠ i → s.slot (tile * 8 + j) = some u → u.windowOp = none) →
    happens (.drawWindowEnd tile) s fun t => ∃ u, t.slot (tile * 8 + i) = some u ∧
      u.due.traps = sl.due.traps ++ [{ code := 0x10, act := BitVec.ofNat 64 op }]) ∧
  (∀ (s : State) k x, (s.tile (tileOf k)).running = some (k % 8) → s.wordAt k = some (.mmt x) →
    exec (.grinderChunk k) s = match exec (.mmt x) { s with focus := tileOf k } with
      | .next t => .next { t with focus := s.focus }
      | o => o) ∧
  (∀ (s : State) k sl f (x : XFields) kr, Runs { s with focus := tileOf k } k sl f x.guard → s.wordAt k = some (.mmt x) →
    Reg.ofSpec x.kidx.toNat = some kr → x.tyA ≠ .e2m1 →
    let n := (f.r.readG kr).toNat
    let pa := (f.r.readG x.a).toNat
    let pb := (f.r.readG x.b).toNat
    n ≤ 131072 → pa % 64 = 0 → pb % 64 = 0 → pa + 8 * n * x.tyA.bits ≤ sl.pl.lim * 64 → pb + 4 * n * x.tyA.bits ≤ sl.pl.lim * 64 →
    (f.grind + 1) * 64 < n →
    happens (.grinderChunk k) s fun t => t.focus = s.focus ∧ t.mm = s.mm ∧ t.slots = s.slots.put k { sl with
      firing := some { f.executed 0x72 with pc := f.pc, grind := f.grind + 1 } }) ∧
  (∀ (s : State) k sl till, s.slot k = some sl → sl.due.wfi = some (some till) →
    (till ≤ s.clock → happens (.wfiWake k) s fun t => t = s.setSlot k { sl with due.wfi := none }) ∧
    (s.clock < till → idles (.wfiWake k) s))
  )

/-! ### Arcs, cuts and mode changes as events (R24, R37 to R43, R106, R116, R185, R197, R403, R404) -/

namespace Sys2Proof.Safety
open Sys2Proof.Machine

/-- An arc that is no merge and no part of one. -/
def simple (x : Arc) : Prop := x.merge = none ∧ x.inputs = []

/-- The consumer of an arc is a slot that is placed. -/
def deliveredTo (s : State) (x : Arc) (k p : Nat) : Prop := x.consumer = some (k, p) ∧ (s.placed k).isSome = true

/-- The first entry of an arc may be delivered to its slot now (R116): the tokens before it are consumed, no marker holds the arc, and no
firing of the instance is under way. -/
def entryReady (s : State) (x : Arc) (k p q : Nat) (e : Entry) (rest : List (Nat × Entry)) : Prop :=
  x.consumer = some (k, p) ∧ x.entries = (q, e) :: rest ∧ cntReached x.rp q = true ∧ x.held = none ∧ x.merge = none ∧
    s.instanceIdle k = true

/-- Trap 0x0F of a mode fault (21 R370): the set named, the set that is current, the region and the cause. -/
def modeTrap (r : Region) (m : ModeToken) (cause : Nat) : TrapInfo :=
  { code := 0x0F, decl := BitVec.ofNat 64 m.rset, act := BitVec.ofNat 64 r.cur, info := BitVec.ofNat 64 r.num, aux := BitVec.ofNat 64 cause }

/-- A region at its quiescent point whose first mode token may be served, with no clones of its actors, no DELTA before it, and no drain
token on its way; under D3 the drain tokens have passed (R37, R38, R194). -/
def servable (s : State) (r : Region) (m : ModeToken) (rest : List ModeToken) : Prop :=
  r.queue = m :: rest ∧ s.quiescent r = true ∧ s.evenSet r m.rset = true ∧ s.regionSets r = [] ∧ r.delta ≠ 1 ∧
    (s.regionLevel r = 3 → r.stepping = true) ∧ (r.stepping = true → s.drainsOut r = false)

/-- No clone was asked for while the regions of a configuration drained (16 R314). -/
def noneWanted (s : State) (cfg : Nat) : Prop := ∀ c, s.cfg cfg = some c → ∀ z ∈ c.cloneSets, z.wanted = false

end Sys2Proof.Safety

/-- R24, R25, R40, R43, R106: WP_ARRIVAL brings the fill up to wp, and a token that another package sent into the window, or discards
and counts it where its tag names another context; RP_MIRROR_UPDATE brings the producer's copy up to rp while the path stands;
parked tokens go into the window in order, as space allows, or to the merge behind the arc. The window of an instance without clones
holds W tokens, token number n at n mod W; the bytes are said of such a window. R116, R118, R185, R403, R404, R407: a control entry
that its tokens have reached is delivered: a user entry sets its condition bit, a mode token joins its region's queue, a marker is
dropped where no cuts are taken. A cut that every slot and arc has completed becomes LAST; while its configuration is swapped out it
stands still. At D3 a merge takes tokens in turn only, and every merge takes nothing when its port has no space. Choices of the
model in it stand in the assumption log: 17, 19, 84, 103, 104, 108. -/
def Obligations.TokensEntriesAndCuts : Prop :=
  (
  (∀ (s : State) n x, s.arc n = some x → simple x →
    happens (.wpArrival n []) s fun t => t = s.setArc n { x with wpSeen := x.wp }) ∧
  (∀ (s : State) n x k p pkg bs taint, s.mm.sram.wf = true → s.arc n = some x → simple x → deliveredTo s x k p → x.producer = none → x.cross = some pkg → s.cloneSet k = none →
    s.pathDown pkg = false → x.parked = [] → cntSub x.published x.rp < x.window → bs.length = x.size → x.closed = false →
    (∀ sl, s.slot k = some sl → sl.pl.ctx = x.tag) →
    happens (.wpArrival n [.token x.tag bs taint]) s fun t => (∃ y, t.arc n = some y ∧ y.wp = cnt (x.wp + 1) ∧ y.wpSeen = y.wp ∧ y.rp = x.rp ∧
        (taint = true → y.poisoned = x.poisoned ++ [cnt x.wp]) ∧ (taint = false → y.poisoned = x.poisoned)) ∧
      (∀ j (h : j < bs.length), t.mm.sram.byte (x.tokKey k (cnt x.wp) j) = bs[j]) ∧ t.mm.mem = s.mm.mem) ∧
  (∀ (s : State) n x k p pkg tag bs taint sl, s.arc n = some x → simple x → x.consumer = some (k, p) → x.producer = none →
    x.cross = some pkg → s.pathDown pkg = false → cntSub x.published x.rp < s.windowRoom x → bs.length = x.size → s.slot k = some sl →
    sl.pl.ctx ≠ tag →
    happens (.wpArrival n [.token tag bs taint]) s fun t => t.arc n = some { x with wpSeen := x.wp } ∧ t.mm = s.mm ∧
      (t.tile (tileOf k)).protEvents = (s.tile (tileOf k)).protEvents + 1) ∧
  (∀ (s : State) n x, s.arc n = some x → x.leaves = false → x.cross.any s.pathDown = false →
    happens (.rpMirrorUpdate n none) s fun t => t.arc n = some { x with rpMirror := x.rp } ∧ t.mm = s.mm) ∧
  (∀ (s : State) n x r, s.arc n = some x → x.leaves = true → x.cross.any s.pathDown = false → cntReached r x.rpMirror = true →
    cntReached x.wp r = true →
    happens (.rpMirrorUpdate n (some r)) s fun t => t.mm = s.mm ∧
      t.arc n = some { x with rp := cnt r, rpMirror := cnt r, entries := x.entries.filter fun e => !cntReached r e.1 }) ∧
  (∀ (s : State) n x v, s.arc n = some x → x.cross.any s.pathDown = true → idles (.rpMirrorUpdate n v) s) ∧
  (∀ (s : State) n x k p, s.mm.sram.wf = true → s.arc n = some x → deliveredTo s x k p → x.parked ≠ [] → cntSub x.wp x.rp < s.windowRoom x →
    let go := min x.parked.length (s.windowRoom x - cntSub x.wp x.rp)
    happens (.parkedTokenDelivery n) s fun t => t.mm.mem = s.mm.mem ∧ ∃ y, t.arc n = some y ∧ y.parked = x.parked.drop go ∧
      y.wp = cnt (x.wp + go) ∧ y.rp = x.rp ∧
      (x.merge.isSome = true → y.waiting = x.waiting ++ x.parked.take go) ∧
      (x.merge = none → s.cloneSet k = none → (∀ b ∈ x.parked, b.1.length = x.size) → (x.window ∣ 2 ^ 32 ∨ x.wp + go ≤ 2 ^ 32) →
        ∀ i b, i < go → x.parked[i]? = some b → (b.2 = true → cnt (x.wp + i) ∈ y.poisoned) ∧
          ∀ j (h : j < b.1.length), t.mm.sram.byte (x.tokKey k (cnt (x.wp + i)) j) = b.1[j])) ∧
  (∀ (s : State) n x k p, s.arc n = some x → deliveredTo s x k p → s.windowRoom x ≤ cntSub x.wp x.rp → idles (.parkedTokenDelivery n) s)
  ) ∧
  (
  (∀ (s : State) n x k p q j rest sl, s.arc n = some x → entryReady s x k p q (.user j) rest → s.slot k = some sl →
    happens (.controlEntryDelivery n) s fun t => t.arc n = some { x with entries := rest, origins := x.origins.drop 1 } ∧ t.mm = s.mm ∧
      ∃ u, t.slot k = some u ∧ u.c = sl.c ||| BitVec.ofNat 32 (2 ^ j.val) ∧ u.firing = sl.firing ∧ u.sys = sl.sys) ∧
  (∀ (s : State) n x k p q num set issuer rest r, s.arc n = some x → entryReady s x k p q (.mode num set issuer) rest →
    s.region (regionKey x.cfg num) = some r → r.queue = [] → s.emptySet r set = false →
    happens (.controlEntryDelivery n) s fun t => t.arc n = some { x with entries := rest, origins := x.origins.drop 1 } ∧ t.mm = s.mm ∧
      t.region (regionKey x.cfg num) = some { r with queue := [{ rset := set, issuer := issuer, ran := 0, age := 0 }] }) ∧
  (∀ (s : State) n x k p q cut al rest sl, s.arc n = some x → entryReady s x k p q (.marker cut al) rest → s.slot k = some sl →
    (s.ctx sl.pl.ctx).snapEn = false →
    happens (.controlEntryDelivery n) s fun t => t.arc n = some { x with entries := rest } ∧ t.mm = s.mm ∧
      t.slot k = some { sl with seen := joinEvents sl.seen (x.carried q) } ∧ ∀ j, j ≠ k → t.slot j = s.slot j) ∧
  (∀ (s : State) n x, s.arc n = some x → x.merge = none → s.entryDue x = none → idles (.controlEntryDelivery n) s) ∧
  (∀ (s : State) cfg c, s.cfg cfg = some c → c.state = .swapped → idles (.cutComplete cfg) s) ∧
  (∀ (s : State) cfg c r, s.cfg cfg = some c → c.cuts.find? (s.cutDone cfg) = some r → r.dead = false →
    happens (.cutComplete cfg) s fun t => t.slots = s.slots ∧ ∃ d, t.cfg cfg = some d ∧ d.last = r.num ∧ d.vld = true ∧
      d.cuts = c.cuts.filter fun y => y.num != r.num) ∧
  (∀ (s : State) cfg c r, s.cfg cfg = some c → c.cuts.find? (s.cutDone cfg) = some r → r.dead = true →
    happens (.cutComplete cfg) s fun t => ∃ d, t.cfg cfg = some d ∧ d.last = c.last ∧ d.vld = c.vld ∧
      d.cuts = c.cuts.filter fun y => y.num != r.num) ∧
  (∀ (s : State) m x k p sl pref, x.consumer = some (k, p) → s.slot k = some sl →
    (s.arcSpace x = 0 → s.mergeChoice m x pref = none) ∧
    (sl.detl = 3 → (s.mergeWaiting x).contains x.turn = false → s.mergeChoice m x pref = none) ∧
    (sl.detl = 3 → ∀ t, s.mergeChoice m x pref = some t → t = s.mergeTake m x x.turn))
  )

/-- R37, R38, R194, R197: at its quiescent point a region takes the named set with PHASE 0 and counts CFGN; under D3 its drain tokens
come first. A drain or a wait for even generations that lasts too long ends with a mode fault of the issuer, and the region goes on
under its old set; a level change that times out leaves the level, and its packet fails. Choices of the model in it stand in the
assumption log: 37, 64, 91, 96, 106. -/
def Obligations.ModeChanges : Prop :=
  (∀ (s : State) key r m, s.region key = some r → servable s r m [] → r.levels = [] →
    happens (.quiescentPoint key) s fun t => t.mm = s.mm ∧ t.region key = some
        { r with cfgn := (r.cfgn + 1) % 2 ^ 32, cur := m.rset, queue := [], levelRan := 0, delta := 0, stepping := false } ∧
      (∀ k sl, s.slots.find k = some sl → (k, sl) ∈ s.regionSlots r → t.slots.find k = some { sl with rset := m.rset, phase := 0 }) ∧
      (∀ k, (∀ sl, (k, sl) ∉ s.regionSlots r) → t.slots.find k = s.slots.find k)) ∧
  (∀ (s : State) key r, s.region key = some r → (s.quiescent r = false ∨ r.drain = false) → idles (.quiescentPoint key) s) ∧
  (∀ (s : State) key r m, s.region key = some r → r.queue = [m] → s.quiescent r = true → s.evenSet r m.rset = true →
    s.regionSets r = [] → r.delta ≠ 1 → s.regionLevel r = 3 → r.stepping = false →
    happens (.quiescentPoint key) s fun t => t.region key = some { r with stepping := true } ∧ t.slots = s.slots ∧ t.mm = s.mm) ∧
  (∀ (s : State) key r m k sl, s.region key = some r → noneWanted s r.cfg → r.queue = [m] → 27000000 ≤ m.ran →
    s.issuerSlot r.cfg m.issuer = some (k, sl) → s.slot k = some sl → sl.due.exited = false →
    happens (.drainTimeout key) s fun t => t.region key = some { r with queue := [], lf := 1, stepping := false } ∧ t.mm = s.mm ∧
      t.slot k = some { sl with due.traps := sl.due.traps ++ [modeTrap r m 1] }) ∧
  (∀ (s : State) key r m rest, s.region key = some r → r.queue = m :: rest → m.ran < 27000000 → idles (.drainTimeout key) s) ∧
  (∀ (s : State) key r m k sl, s.region key = some r → noneWanted s r.cfg → r.queue = [m] → 4096 ≤ m.age → s.evenSet r m.rset = false →
    s.issuerSlot r.cfg m.issuer = some (k, sl) → s.slot k = some sl → sl.due.exited = false →
    happens (.generationWaitTimeout key) s fun t => t.region key = some { r with queue := [], lf := 3, stepping := false } ∧ t.mm = s.mm ∧
      t.slot k = some { sl with due.traps := sl.due.traps ++ [modeTrap r m 3] }) ∧
  (∀ (s : State) key r m rest, s.region key = some r → r.queue = m :: rest → (m.age < 4096 ∨ s.evenSet r m.rset = true) →
    idles (.generationWaitTimeout key) s) ∧
  (∀ (s : State) key r lvl q n c, s.region key = some r → noneWanted s r.cfg → r.levels = [(lvl, q, n)] → s.cfg r.cfg = some c →
    27000000 ≤ r.levelRan → s.regionsWaiting q n = [(key, r)] →
    happens (.levelChangeTimeout key) s fun t => t.slots = s.slots ∧ t.mm = s.mm ∧
      t.region key = some { r with levels := [], levelRan := 0, stepping := r.stepping && (!r.queue.isEmpty || r.delta != 0) } ∧
      (t.queue q).packets = ((s.queue q).packets.map fun p => if p.num = n ∧ p.finished.isNone then { p with finished := some 7 } else p) ∧
      ∀ h ∈ t.al.history, h.ctx = c.launch.ctx → h.ordinal = c.launch.ordinal → c.state ≠ .ended → h.part = true) ∧
  (∀ (s : State) key r lvl q n rest, s.region key = some r → r.levels = (lvl, q, n) :: rest → r.levelRan < 27000000 →
    idles (.levelChangeTimeout key) s)

/-! ### Atomics and engines as events (R137, R144 to R146, R163 to R167, R176 to R181, R420 to R423) -/

namespace Sys2Proof.Safety
open Sys2Proof.Machine

/-- A request of a firing has come to its home: the home takes its tag, it is not one that arrived before or is too old, the line holds no
poison, and the path to a home in another package stands. -/
def arrives (s : State) (k : Nat) (sl : Slot) (f : Firing) (q : AtomicReq) : Prop :=
  s.slot k = some sl ∧ sl.firing = some f ∧ f.request = some q ∧ q.arrived = false ∧ s.homeTakes q.pa sl.pl.tag sl.pl.gen = true ∧
    s.atomicPoison q = false ∧ s.staleRequest f q = false ∧ (s.isRemote q.pa && s.pathDown (paPkg q.pa)) = false

/-- The request that a firing waits for. -/
def requestOf (s : State) (k : Nat) : Option AtomicReq := (firingOf s k).bind (·.request)

/-- The old value of a request, and the new one (R164, R165). -/
def oldOf (s : State) (q : AtomicReq) : BitVec q.type.bits := patternAt s q.pa q.type
def newOf (s : State) (q : AtomicReq) : Option Nat :=
  atomicNew q.op q.type q.sat q.rm q.sr (oldOf s q) (q.b.setWidth q.type.bits) (q.c.setWidth q.type.bits)

/-- The request of a slot after its home has performed it. -/
def answered (s t : State) (k : Nat) (q : AtomicReq) : Prop :=
  ∃ fl own, requestOf t k = some { q with
    arrived := true, result := some (extended q.type (oldOf s q), fl), events := s.atomicReads q, own := own }

/-- Global memory with a value written at an address, little-endian. -/
def wroteAt (s t : State) (pa n : Nat) (v : Option Nat) : Prop :=
  ∀ a, t.mm.mem.byte a = match v with
    | some p => if pa ≤ a ∧ a < pa + n then BitVec.ofNat 8 (p / 256 ^ (a - pa)) else s.mm.mem.byte a
    | none => s.mm.mem.byte a

/-- A command of an engine that goes on. -/
def engaged (s : State) (id : Nat) (c : Command) : Prop := s.command id = some c ∧ s.commandLive c = true ∧ c.loader = false

/-- A request may be performed as an atomic that reads and writes: an opcode of R164 or R165 with a type that it takes, at a multiple of its
size. -/
def performable (q : AtomicReq) : Prop :=
  0x98 ≤ q.op ∧ q.op ≤ 0xA5 ∧ typesAccepted q.op q.type .i8 true = true ∧ q.pa % q.type.bytes = 0

/-- Is an epoch newer than another, counted modulo 2^32 (25 R420)? -/
def newer (a b : Nat) : Prop := a % 2 ^ 32 ≠ b % 2 ^ 32 ∧ (a + 2 ^ 32 - b % 2 ^ 32) % 2 ^ 32 < 2 ^ 31

/-- A COLL that has sent the data of its first round, and of which no input waits (25 R421). -/
def roundsOn (c : Command) : Prop := c.family = .coll ∧ (c.partials.find collBegun).isSome = true ∧ c.inputs = []

/-- The package that takes what a member of a ring sends (25 R421). -/
def nextMember (s : State) (c : Command) : Nat := ((s.collGroup c).members[((s.ring c).rank + 1) % (s.ring c).n]?).getD 0

/-- The epoch after another, 0 skipped (25 R422). -/
def followingEpoch (e : Nat) : Nat := if e + 1 = 2 ^ 32 then 1 else e + 1

end Sys2Proof.Safety

/-- R137, R163 to R168, R191, R366: an atomic performed at its home writes the new value and keeps the old one for the firing; one of a
peer is answered, and dropped when its generation is old or the home has refused its tag; an ARTY of a peer is answered. A held
atomic is performed when its turn comes; a held AWT, a peer's too, when its condition holds. A request that is lost traps 0x13 and
hands nothing of its own on (R138); it reaches its home after all if it was still on its way, at D2 in its turn. Choices of the
model in it stand in the assumption log: 29, 30, 86. -/
def Obligations.AtomicsAtTheirHomes : Prop :=
  (∀ (s : State) k sl f q, arrives s k sl f q → s.mm.mem.wf = true → s.mm.splices = [] → sl.detl = 0 → performable q →
    happens (.atomicAtHome (.own k)) s fun t => wroteAt s t q.pa q.type.bytes (newOf s q) ∧ answered s t k q) ∧
  (∀ (s : State) k sl f q since, arrives s k sl f q → f.parked = some (.atomic since true) → q.op ≠ 0xA6 → s.mm.splices = [] → sl.detl = 2 →
    let ctx := sl.pl.ctx
    let lnch := s.launchOf sl.pl.cfg
    s.forced 2 ctx 1 lnch q.site (fun x => x == q.subj) = .turn →
    happens (.heldAtomicRelease k) s fun t =>
      answered (((s.performed ctx 1 lnch q.site).offerHeld ctx).logRecord ctx 1 lnch q.site q.subj) t k q) ∧
  (∀ (s : State) k sl f q, s.slot k = some sl → sl.firing = some f → f.request = some q → q.arrived = false →
    s.homeTakes q.pa sl.pl.tag sl.pl.gen = false → idles (.atomicAtHome (.own k)) s) ∧
  (∀ (s : State) pkg slot tag age cove gen op ty pa b c rm sat sr, s.mm.mem.wf = true → s.mm.splices = [] →
    let q := peerRequest tag op ty pa b c rm sat sr
    let i : Instr := .atomicAtHome (.peer pkg slot tag age cove gen op ty pa b c rm sat sr)
    let key := tagKey pkg slot tag
    (s.peerTakes pkg pa cove gen = false ∨ s.tagRefused (atomicHome pa) key = true → idles i s) ∧
    (s.peerTakes pkg pa cove gen = true → s.tagRefused (atomicHome pa) key = false →
      (1000000 < age → happens i s fun t => t.mm = s.mm ∧ t.tagRefused (atomicHome pa) key = true) ∧
      (age ≤ 1000000 → s.mm.poison.contains (pa / 64) = false → performable q →
        happens i s fun t => wroteAt s t pa q.type.bytes (newOf s q) ∧ (t.tagAnswer (atomicHome pa) key).1 = (0, extended q.type (oldOf s q)) ∧
          t.outbox = .peer pkg "atomic result" tag (extended q.type (oldOf s q)).toNat :: s.outbox) ∧
      (age ≤ 1000000 → s.mm.poison.contains (pa / 64) = false → op = 0xA6 → q.type.isInt = true →
        let v := valueOf q.type (extended q.type (oldOf s q))
        (awaits q.type (c.toNat % 4) v (valueOf q.type b) → happens i s fun t => t.mm.mem = s.mm.mem ∧
          t.outbox = .peer pkg "atomic result" tag (extended q.type (oldOf s q)).toNat :: s.outbox) ∧
        (¬ awaits q.type (c.toNat % 4) v (valueOf q.type b) → happens i s fun t => t.mm = s.mm ∧
          t.outbox = .peer pkg "awt acknowledged" tag 0 :: s.outbox ∧
          t.en.peerWaits = s.en.peerWaits ++ [{ id := s.nextId, pkg := pkg, slot := slot, cove := cove, gen := gen, q := q }])))) ∧
  (∀ (s : State) pkg slot tag pa,
    let a := s.tagAnswer (atomicHome pa) (tagKey pkg slot tag)
    happens (.atomicAtHome (.ask pkg slot tag pa)) s fun t => t = { a.2 with outbox := .peer pkg "tag answer" a.1.1 a.1.2.toNat :: s.outbox }) ∧
  (∀ (s : State) k sl f q, s.slot k = some sl → sl.firing = some f → f.request = some q → q.op = 0xA6 → q.arrived = true →
    q.result = none → q.type.isInt = true → s.atomicPoison q = false → s.mm.splices = [] → k < peerWaitBase →
    let v := valueOf q.type (extended q.type (oldOf s q))
    (awaits q.type (q.c.toNat % 4) v (valueOf q.type q.b) →
      happens (.awtConditionMet k) s fun t => t.mm.mem = s.mm.mem ∧ answered s t k q) ∧
    (¬ awaits q.type (q.c.toNat % 4) v (valueOf q.type q.b) → idles (.awtConditionMet k) s)) ∧
  (∀ (s : State) id w, (s.en.peerWaits.find? fun x => x.id == id) = some w → s.peerTakes w.pkg w.q.pa w.cove w.gen = true → w.q.op = 0xA6 →
    w.q.type.isInt = true → s.mm.splices = [] →
    let v := valueOf w.q.type (extended w.q.type (oldOf s w.q))
    (awaits w.q.type (w.q.c.toNat % 4) v (valueOf w.q.type w.q.b) → happens (.awtConditionMet (peerWaitBase + id)) s fun t =>
      t.mm.mem = s.mm.mem ∧ t.en.peerWaits = (s.en.peerWaits.filter fun x => x.id != id) ∧
      t.outbox = .peer w.pkg "atomic result" w.q.tag (extended w.q.type (oldOf s w.q)).toNat :: s.outbox) ∧
    (¬ awaits w.q.type (w.q.c.toNat % 4) v (valueOf w.q.type w.q.b) → idles (.awtConditionMet (peerWaitBase + id)) s)) ∧
  (∀ (s : State) k sl f q since, s.slot k = some sl → sl.firing = some f → f.request = some q → f.parked = some (.atomic since false) →
    let down := s.isRemote q.pa = true ∧ s.pathDown (paPkg q.pa) = true
    let t : TrapInfo := { code := 0x13, decl := q.b, act := q.c, info := BitVec.ofNat 64 q.va, aux := BitVec.ofNat 64 (q.op * 2 ^ 32 + q.tag % 2 ^ 32) }
    (s.isRemote q.pa = true ∨ paHost q.pa = true → down ∨ since + 540000 ≤ s.clock →
      (q.arrived = true → happens (.remoteAtomicTimeout k) s fun u => u.slots = (s.takeTrap k t).slots ∧ u.en = (s.takeTrap k t).en ∧
        u.mm.mem = (s.takeTrap k t).mm.mem ∧
        ∀ e ∈ u.mm.order.events, e.num ∈ q.own → e.rel = ((s.takeTrap k t).handed q.events).1) ∧
      (q.arrived = false → happens (.remoteAtomicTimeout k) s fun u => u.slots = (s.takeTrap k t).slots ∧ u.mm = (s.takeTrap k t).mm ∧
        ∃ y : TagSync, y.acq = q.acquires ∧ y.rel = q.releases ∧ y.reads = [] ∧ y.own = [] ∧
          u.en.late = (s.takeTrap k t).en.late ++
            [{ slot := k, cove := sl.pl.tag, gen := sl.pl.gen, key := tagKey s.dv.pkg k q.tag, since := since, q := q, sync := y }])) ∧
    (¬ down → s.clock < since + 540000 → idles (.remoteAtomicTimeout k) s)) ∧
  (∀ (s : State) k l, s.inFlight k = none →
    (s.en.late.find? fun l => l.slot == k && !(s.isRemote l.q.pa && s.pathDown (paPkg l.q.pa))) = some l →
    (∀ sl, s.slot k = some sl → sl.detl = 0) → s.homeTakes l.q.pa l.cove l.gen = true → s.tagRefused (atomicHome l.q.pa) l.key = false → s.atomicPoison l.q = false →
    s.mm.mem.wf = true → s.mm.splices = [] → performable l.q → s.isRemote l.q.pa = true →
    (s.clock ≤ l.since + 2700000 → happens (.atomicAtHome (.own k)) s fun t => wroteAt s t l.q.pa l.q.type.bytes (newOf s l.q) ∧
      (t.tagAnswer (atomicHome l.q.pa) l.key).1 = (0, extended l.q.type (oldOf s l.q))) ∧
    (l.since + 2700000 < s.clock → happens (.atomicAtHome (.own k)) s fun t => t.mm = s.mm ∧
      t.tagRefused (atomicHome l.q.pa) l.key = true)) ∧
  (∀ (s : State) k l sl, s.inFlight k = none →
    (s.en.late.find? fun l => l.slot == k && !(s.isRemote l.q.pa && s.pathDown (paPkg l.q.pa))) = some l → s.slot k = some sl →
    s.homeTakes l.q.pa l.cove l.gen = true → s.tagRefused (atomicHome l.q.pa) l.key = false → s.atomicPoison l.q = false → l.q.op ≠ 0xA6 →
    s.clock ≤ l.since + 2700000 → s.forced sl.detl sl.pl.ctx 1 (s.launchOf sl.pl.cfg) l.q.site (fun x => x == l.q.subj) = .hold →
    idles (.atomicAtHome (.own k)) s)

/-- R145, R146, R176, R177, R384: a copy moves its next piece, which ends at a line of the destination, and no other byte of global
memory; the bytes of a piece that the engine has read into its holding buffer are those; a command whose work is done completes; one
that meets a page fault waits for its answer; a loader stream moves the elements of one token. R181, R384, R420 to R423: a COLL
sends the data of its first round, or fails with status 7 where its group does not take it; the input of a round advances it, or
waits while it cannot go on; one whose input is late fails with status 6 and starts the recovery of its group; a probe is answered;
at the deadline the starter takes the members that answered into the next epoch, and so does every member that is told. Choices of
the model in it stand in the assumption log: 34, 36, 60, 85. -/
def Obligations.EngineWorkAndCollectives : Prop :=
  (
  (∀ (s : State) id c ls pb pg, engaged s id c → s.mm.mem.wf = true → s.mm.splices = [] → c.op = 0xB8 → c.family = .copy → c.barrier = none →
    c.progress < c.len →
    let n := min (64 - (c.dst + c.progress) % 2 ^ 64 % 64) (c.len - c.progress)
    let kept := c.held.find? fun h => h.pos == c.progress && h.src == addr64 (c.src + c.progress) && h.bytes.length == n
    (kept = none → s.engineLocs c c.srcSpace (addr64 (c.src + c.progress)) n false = .ok ls ∧ ls.length = n) →
    s.engineLocs c c.dstSpace (addr64 (c.dst + c.progress)) n true = .ok ((List.range n).map fun i => .glob (pb + i) pg) →
    (∀ i, i < n → s.homeTakes (pb + i) c.cove c.gen = true) →
    happens (.enginePiecePerformed id 1) s fun t => (t.command id).map (·.progress) = some (c.progress + n) ∧ t.mm.sram = s.mm.sram ∧
      (∀ a, (a < pb ∨ pb + n ≤ a) → t.mm.mem.byte a = s.mm.mem.byte a) ∧
      (∀ h, kept = some h → ∀ i (g : i < h.bytes.length), t.mm.mem.byte (pb + i) = h.bytes[i]) ∧
      (kept = none → ∀ i (h : i < ls.length), t.mm.mem.byte (pb + i) = s.engineByte c ls[i])) ∧
  (∀ (s : State) id c va r, engaged s id c → c.op = 0xB8 → c.family = .copy → c.progress < c.len → c.held = [] →
    s.engineLocs c c.srcSpace (addr64 (c.src + c.progress)) 
      (min (64 - (c.dst + c.progress) % 2 ^ 64 % 64) (c.len - c.progress)) false = .error (.page va r false) →
    happens (.enginePiecePerformed id 1) s fun t => t.command id = some { c with faultWait := some s.nextId } ∧ t.mm.mem = s.mm.mem ∧
      ∃ p, t.mm.faults = s.mm.faults ++ [p] ∧ p.id = s.nextId ∧ p.va = va ∧ p.reason = r ∧ p.who = .command id ∧ p.token = none) ∧
  (∀ (s : State) id c, engaged s id c → c.op = 0xB8 → c.family = .copy →
    (c.len ≤ c.progress → happens (.engineCommandEnd id) s fun t => t.mm = s.mm ∧
      ∃ d, t.command id = some d ∧ d.state = .completed ∧ d.status = 0 ∧ d.progress = c.progress) ∧
    (c.progress < c.len → idles (.engineCommandEnd id) s)) ∧
  (∀ (s : State) id c n x r, s.command id = some c → s.commandLive c = true → c.loader = true → c.family = .stream → s.streamArc c = some (n, x) →
    let count := field c.block 24 8
    let els := min (c.perToken x.size) (count - c.progress)
    c.progress < count → field c.block 47 1 = 0 →
    (s.arcSpace x = 0 → idles (.streamTokenPublish id) s) ∧
    (s.arcSpace x ≠ 0 → s.sourceBytes c ((List.range els).map fun i => c.progress + i) = .ok r →
      happens (.streamTokenPublish id) s fun t => ∃ d, t.command id = some d ∧ d.progress = c.progress + els ∧
        (d.state = .completed ↔ count ≤ c.progress + els))) ∧
  (∀ (s : State) id c n x tok psn rest s1, s.command id = some c → s.commandLive c = true → c.loader = true → c.family = .stream →
    s.streamArc c = some (n, x) →
    let count := field c.block 24 8
    let els := min (c.perToken x.size) (count - c.progress)
    c.progress < count → field c.block 47 1 ≠ 0 → x.parked = (tok, psn) :: rest →
    s.sinkBytes c psn ((List.range els).map fun i => c.progress + i) tok = .ok s1 →
    happens (.streamTokenPublish id) s fun t => t.arc n = some { x with parked := rest } ∧ t.mm = s1.mm ∧
      (t.command id).map (·.progress) = some (c.progress + els))
  ) ∧
  (
  (∀ (s : State) id c data s1 c1, s.command id = some c → roundsOn c → s.commandLive c = true → s.collAllowed c = true →
    c.progress < 2 * ((s.ring c).n - 1) →
    let n := ((s.ring c).chunk ((s.ring c).inputChunk (c.progress + 1))).2
    data.length = n ∨ data.length = n + 1 → s.collInput c data = .ok (s1, c1) →
    happens (.collRoundInput id data) s fun t => t.mm = s1.mm ∧
      ∃ d, t.command id = some d ∧ d.progress = c.progress + 1 ∧ d.roundStart = s.clock ∧ d.partials = c1.partials) ∧
  (∀ (s : State) c data own bad, c.progress + 1 < (s.ring c).n → c.progress + 2 ≠ (s.ring c).n → (s.ring c).ty.isInt = true → (s.ring c).op = 0 →
    let ch := (s.ring c).chunk ((s.ring c).inputChunk (c.progress + 1))
    s.collRead c (field c.block 0 8) ch.1 ch.2 (s.ring c).ty.bytes = .ok (own, bad) → own.length = data.length → data.length = ch.2 →
    ∃ c1, s.collInput c data = .ok (s, c1) ∧ c1.psn = (c.psn || bad) ∧ ∀ j (h : j < data.length) (h' : j < own.length),
      c1.partials.find (ch.1 + j) = some (BitVec.ofNat 64 (intPattern (s.ring c).ty false
        (valueOf (s.ring c).ty data[j] + valueOf (s.ring c).ty (BitVec.ofNat 64 own[j]))))) ∧
  (∀ (s : State) id c own bad, s.command id = some c → c.family = .coll → s.commandLive c = true → c.partials.find collBegun = none →
    (s.collAllowed c = false → happens (.enginePiecePerformed id 1) s fun t => t.mm = s.mm ∧
      ∃ d, t.command id = some d ∧ d.state = .failed ∧ d.status = 7) ∧
    (s.collAllowed c = true → 1 < (s.ring c).n → s.pathDown (nextMember s c) = false →
      let ch := (s.ring c).chunk (((s.ring c).rank + (s.ring c).n - 1) % (s.ring c).n)
      s.collRead c (field c.block 0 8) ch.1 ch.2 (s.ring c).ty.bytes = .ok (own, bad) →
      happens (.enginePiecePerformed id 1) s fun t => t.mm = s.mm ∧ (t.command id).map (·.roundStart) = some s.clock ∧
        t.outbox = .peerRound (nextMember s c) id 1 (own.map (BitVec.ofNat 64)) bad :: s.outbox)) ∧
  (∀ (s : State) id c data, s.command id = some c → c.family = .coll → c.state = .running → (¬ roundsOn c ∨ s.commandLive c = false) →
    happens (.collRoundInput id data) s fun t => t = s.setCommand id { c with inputs := c.inputs ++ [data] }) ∧
  (∀ (s : State) id c data, s.command id = some c → roundsOn c → s.commandLive c = true → s.collAllowed c = false →
    idles (.collRoundInput id data) s) ∧
  (∀ (s : State) id c, s.command id = some c → roundsOn c → c.state = .running → c.progress < 2 * ((s.ring c).n - 1) →
    let g := field c.block 24 2
    (c.roundStart + field c.block 32 4 * 2700 ≤ s.clock → (s.group g).recovery = none → (s.group g).en = true →
      happens (.roundTimeout id) s fun t => t.mm = s.mm ∧ (t.group g).recovery = some ((s.group g).epoch, true, s.clock + 2700000) ∧
        ∃ d, t.command id = some d ∧ d.state = .failed ∧ d.status = 6) ∧
    (s.clock < c.roundStart + field c.block 32 4 * 2700 → idles (.roundTimeout id) s)) ∧
  (∀ (s : State) id c, s.command id = some c → c.partials.find collBegun = none → idles (.roundTimeout id) s) ∧
  (∀ (s : State) g epoch starter, (s.group g).en = true →
    (newer (s.group g).epoch epoch → happens (.membershipProbe g epoch starter) s fun t => t.en = s.en ∧
      t.outbox = .membership starter g (s.group g).epoch (s.group g).mbr :: s.outbox) ∧
    (¬ newer (s.group g).epoch epoch → happens (.membershipProbe g epoch starter) s fun t => (t.group g).recovery.isSome = true ∧
      t.outbox.head? = some (.peer starter "probe answer" g epoch) ∧
      ∀ id c, s.command id = some c → c.family = .coll → field c.block 24 2 = g → c.ended = false →
        ∃ d, t.command id = some d ∧ d.state = .failed ∧ d.status = 7)) ∧
  (∀ (s : State) g answered e due, (s.group g).recovery = some (e, true, due) → e < 2 ^ 32 →
    (due ≤ s.clock → happens (.probeDeadline g answered) s fun t => (t.group g).epoch = followingEpoch e ∧ (t.group g).recovery = none ∧
      ∀ p, p < 256 → (t.group g).mbr.getLsbD p = ((s.group g).mbr.getLsbD p && (answered.getLsbD p || p == s.dv.pkg % 256))) ∧
    (s.clock < due → idles (.probeDeadline g answered) s)) ∧
  (∀ (s : State) g epoch mbr, (s.group g).en = true → newer epoch (s.group g).epoch →
    happens (.newMembership g epoch mbr) s fun t => (t.group g).epoch = epoch ∧ (t.group g).recovery = none ∧
      (mbr.getLsbD s.dv.pkg = true → (t.group g).mbr = mbr) ∧
      (mbr.getLsbD s.dv.pkg = false → ∀ p, p < 256 → (t.group g).mbr.getLsbD p = ((s.group g).mbr.getLsbD p && p != s.dv.pkg % 256))) ∧
  (∀ (s : State) g epoch mbr, ¬ newer epoch (s.group g).epoch → idles (.newMembership g epoch mbr) s)
  )

/-! ### Residency, page faults, invalidations, migrations and kills as events (R320, R321, R357 to R367) -/

namespace Sys2Proof.Safety
open Sys2Proof.Machine

/-- The key of a layer of a context. -/
def tideKey (ctx layer : Nat) : Nat := ctx * 1024 + layer

/-- Every position of a layer in the slots of a context has these bits in its tile's copy (17 R318). -/
def layerMarked (t : State) (ctx layer : Nat) (res flt : Bool) : Prop :=
  ∀ k sl, t.slots.find k = some sl → sl.pl.ctx = ctx → ∀ p ∈ sl.layers, p.layer = layer → p.resident = res ∧ p.fault = flt

/-- A register write that is ignored as a whole is counted (00 R5). -/
def ignored (s t : State) : Prop :=
  t.dv.rsvCnt = min (s.dv.rsvCnt + 1) 0xFFFFFFFF ∧ t.mm = s.mm ∧ t.slots = s.slots ∧ t.al = s.al ∧ t.fe = s.fe ∧ t.en = s.en

/-- Where the data of a layer comes from that a transfer writes: the source of the flood, or of the flood that made the layer RESIDENT (R436). -/
def sourceOf (s : State) (ctx layer : Nat) : Nat :=
  if (s.tide (tideKey ctx layer)).state = .resident then (s.tide (tideKey ctx layer)).kept else (s.tide (tideKey ctx layer)).src

/-- What happened before the flood whose data a transfer writes (07 R129). -/
def seenOf (s : State) (ctx layer : Nat) : List Nat :=
  if (s.tide (tideKey ctx layer)).state = .resident then (s.tide (tideKey ctx layer)).keptSeen else (s.tide (tideKey ctx layer)).seen

/-- A page fault of the firing of a slot is open (R359). -/
def opened (s t : State) (k : Nat) (sl : Slot) (va r : Nat) (write : Bool) : Prop :=
  t.mm.faults = s.mm.faults ++ [{ id := s.nextId, va := va, reason := r, who := .tile k, ctx := sl.pl.ctx, write := write, time := s.ns,
                                  token := none }]

/-- Trap 0x08 of an answer FAIL (R360). -/
def failTrap (va r : Nat) : TrapInfo := { code := 0x08, info := BitVec.ofNat 64 va, aux := BitVec.ofNat 64 (max 1 r) }

/-- The requester, slot and number bytes of a record at an address (R359), for the requesters of the table. -/
def requesterIn (s : State) (m : Memory) (a : Nat) : Requester → Prop
  | .tile k => m.byte (a + 9) = 0 ∧ m.byte (a + 11) = BitVec.ofNat 8 (k % 8) ∧ ofBytes (m.bytes (a + 12) 2) = tileOf k % 65536
  | .command id => ∀ c, s.command id = some c →
      (c.family = .copy → m.byte (a + 9) = 1 ∧ m.byte (a + 11) = BitVec.ofNat 8 (c.slot % 8) ∧ ofBytes (m.bytes (a + 12) 2) = tileOf c.slot % 65536) ∧
      (c.family = .stream → m.byte (a + 9) = 2 ∧ ofBytes (m.bytes (a + 12) 2) = c.engine % 64) ∧
      (c.family = .coll → m.byte (a + 9) = 4 ∧ ofBytes (m.bytes (a + 12) 2) = c.engine % 12)
  | .flood _ _ => m.byte (a + 9) = 3 ∧ ofBytes (m.bytes (a + 12) 2) = 0
  | _ => True

/-- Does the bus frame of a cached host translation lie in a range (R360)? -/
def inBusRange (pa log : Nat) (e : Nat × Nat) : Prop := e.1 * 65536 / 2 ^ log = pa / 2 ^ log ∨ pa / 65536 = e.1

/-- The frames that cached translations of a bus range name (R360). -/
def framesOf (s : State) (pa log : Nat) (hit : List Nat) : Prop := ∀ n, n ∈ hit ↔ ∃ e ∈ s.mm.ats, inBusRange pa log e ∧ e.2 = n

/-- A port of the MMU copies a page: its migration has opened its splice, and its leaf is not written yet (R361 step 2). -/
def copies (s : State) (port : Nat) : Prop :=
  port < 2 ∧ (s.mmuPort port).busy = true ∧ (s.mmuPort port).op = 2 ∧ s.mm.invals.any (fun i => i.port == some port) = false

/-- The page request that the host answers. -/
def pageAsked (s : State) (id : Nat) (p : PageFault) : Prop := s.mm.faults.find? (fun p => p.id == id && p.reason == 0) = some p

/-- The fault that a token names. -/
def faultNamed (s : State) (token : Nat) (p : PageFault) : Prop := s.mm.faults.find? (fun p => p.token == some token) = some p

/-- A write of MMUCMD that is acted on: the port is free, the reserved bits are zero and LOG is in its range (R357). -/
def commanded (s : State) (port : Nat) (v : Dword) (op : Nat) : Prop :=
  s.barOpen = true ∧ port < 2 ∧ (s.mmuPort port).busy = false ∧ v &&& mmuReserved = 0 ∧ bits v 13 8 ≤ 44 ∧ bits v 3 0 = op

end Sys2Proof.Safety

/-- R320, R321, R262: a flood that completes has written its slices, none under a firing that holds the layer's weights, and marks the
layer RESIDENT in every slot; one that fails marks it FAULTED with the status; an ebb that completes leaves the layer ABSENT, or
starts the flood that waited for it, and waits for the firings that list it. Choices of the model in it stand in the assumption log:
39, 89. -/
def Obligations.FloodsAndEbbs : Prop :=
  (∀ (s : State) ctx layer s1, s.served ctx layer = true → s.weightsHeld ctx layer = false →
    s.writeSlices ctx layer (sourceOf s ctx layer) (seenOf s ctx layer) (s.slicesDue ctx layer) = .ok s1 → s1.en = s.en →
    happens (.floodComplete ctx layer) s fun t => t.mm = s1.mm ∧ layerMarked t ctx layer true false ∧
      (t.tide (tideKey ctx layer)).state = .resident ∧ (t.tide (tideKey ctx layer)).pend = 0 ∧ (t.tide (tideKey ctx layer)).stat = 0 ∧
      (t.tide (tideKey ctx layer)).kept = sourceOf s ctx layer ∧ (t.tide (tideKey ctx layer)).keptSeen = seenOf s ctx layer ∧
      (t.tide (tideKey ctx layer)).gen = if (s.tide (tideKey ctx layer)).state = .resident then (s.tide (tideKey ctx layer)).gen
        else ((s.tide (tideKey ctx layer)).gen + 1) % 65536) ∧
  (∀ (s : State) ctx layer src seen k sl p c pa pg, s.mm.sram.wf = true → s.slicesDue ctx layer = [(k, sl, p)] → p.len = 64 → s.cfg sl.pl.cfg = some c →
    (s.at floodUnit).globalLocs [] ctx (src + c.launch.image.sliceOff sl.pl.inst layer) 64 false =
      .ok ((List.range 64).map fun i => .glob (pa + i) pg) →
    ∃ s1, s.writeSlices ctx layer src seen (s.slicesDue ctx layer) = .ok s1 ∧ s1.en = s.en ∧
      ∀ i, i < 64 → s1.mm.sram.byte (carveKey k (sl.pl.wtb * 64 + p.off + i)) = (s.seenByte { hb := seen } false [pa + i] (pa + i)).1) ∧
  (∀ (s : State) ctx layer, (s.served ctx layer = false ∨ s.weightsHeld ctx layer = true) → idles (.floodComplete ctx layer) s) ∧
  (∀ (s : State) ctx layer st, (s.tide (tideKey ctx layer)).state = .flooding → st ≠ 0 → st < 256 →
    happens (.floodFail ctx layer st) s fun t => t.mm = s.mm ∧ layerMarked t ctx layer false true ∧
      (t.tide (tideKey ctx layer)).state = .faulted ∧ (t.tide (tideKey ctx layer)).stat = st) ∧
  (∀ (s : State) ctx layer, (s.tide (tideKey ctx layer)).state = .ebbing → s.layerInUse ctx layer = false →
    ((s.tide (tideKey ctx layer)).pfl = false → happens (.ebbComplete ctx layer) s fun t => t.mm = s.mm ∧ t.slots = s.slots ∧
      (t.tide (tideKey ctx layer)).state = .absent ∧ (t.tide (tideKey ctx layer)).stat = 0) ∧
    ((s.tide (tideKey ctx layer)).pfl = true → (s.tide (tideKey ctx layer)).nextSrc ≠ 0 →
      happens (.ebbComplete ctx layer) s fun t => t.mm = s.mm ∧ layerMarked t ctx layer false false ∧
        (t.tide (tideKey ctx layer)).state = .flooding ∧ (t.tide (tideKey ctx layer)).src = (s.tide (tideKey ctx layer)).nextSrc ∧
        (t.tide (tideKey ctx layer)).ecl = (s.tide (tideKey ctx layer)).nextEcl ∧
        (t.tide (tideKey ctx layer)).seen = (s.tide (tideKey ctx layer)).nextSeen)) ∧
  (∀ (s : State) ctx layer, s.layerInUse ctx layer = true → idles (.ebbComplete ctx layer) s)

/-- R359, R360: a revocable firing that meets a page fault is voided and its slot waits, an irrevocable one parks; LD is named for every
access. The oldest fault that waits is posted at TAIL of the fault ring when it has room, with its record and an interrupt. SERVED
lets the requester go on; FAIL gives the slot's next firing trap 0x08, and the parked instruction when it runs again; an answer that
names no fault is an ignored write. An ATS invalidation drops its entries at once and is complete when no request through one of
them is under way. Choices of the model in it stand in the assumption log: 24, 95, 105. -/
def Obligations.PageFaults : Prop :=
  (∀ (s : State) p, s.mm.faults.find? (fun p => p.token.isNone && p.reason != 0) = some p → s.mm.mem.wf = true → s.mm.splices = [] →
    let room := 2 ^ (s.mm.fltLog + 6)
    let a := s.mm.fltBase * 4096 + 32 * (s.mm.fltTail % room)
    (cntSub s.mm.fltTail s.mm.fltHead < room →
      happens .faultRecordPost s fun t => t.mm.fltTail = cnt (s.mm.fltTail + 1) ∧ t.outbox = .msix 0 64 :: s.outbox ∧ t.slots = s.slots ∧
        ofBytes (t.mm.mem.bytes a 8) = p.va % 2 ^ 64 ∧ t.mm.mem.byte (a + 8) = BitVec.ofNat 8 p.reason ∧ requesterIn s t.mm.mem a p.who ∧
        t.mm.mem.byte (a + 10) = BitVec.ofNat 8 (p.ctx % 64 + if p.write then 64 else 0) ∧ ofBytes (t.mm.mem.bytes (a + 14) 2) = 0 ∧
        ofBytes (t.mm.mem.bytes (a + 20) 4) = 0 ∧ ofBytes (t.mm.mem.bytes (a + 24) 8) = p.time % 2 ^ 64 ∧
        ofBytes (t.mm.mem.bytes (a + 16) 4) = p.id % 2 ^ 32 ∧ (∀ b, (b < a ∨ a + 32 ≤ b) → t.mm.mem.byte b = s.mm.mem.byte b)) ∧
    (room ≤ cntSub s.mm.fltTail s.mm.fltHead → idles .faultRecordPost s)) ∧
  (∀ (s : State), (∀ p ∈ s.mm.faults, p.token ≠ none ∨ p.reason = 0) → idles .faultRecordPost s) ∧
  (∀ s k sl f (x : MFields) va r, Runs s k sl f x.guard → s.accessLocs k sl f x.sp (f.r.ea x) x.ty.bytes false = .error (.page va r false) →
    (f.failedFault = false → f.irr = false → happens (.ld x) s fun t => opened s t k sl va r false ∧ t.mm.mem = s.mm.mem ∧
      ∃ u, t.slot k = some u ∧ u.firing = none ∧ u.due.fault = some s.nextId ∧ u.due.handler = f.handler ∧ u.due.traps = sl.due.traps) ∧
    (f.failedFault = false → f.irr = true → happens (.ld x) s fun t => opened s t k sl va r false ∧ t.mm.mem = s.mm.mem ∧
      t.slot k = some { sl with firing := some { f with parked := some (.page s.nextId), begun := true } }) ∧
    (f.failedFault = true → exec (.ld x) s = traps s k (failTrap va r))) ∧
  (∀ (s : State) token p k sl, s.barOpen = true → faultNamed s token p → p.who = .tile k → s.slot k = some sl → sl.due.fault = some p.id →
    (happens (.faultServed token) s fun t => t.mm.faults = s.mm.faults.filter (fun x => x.id != p.id) ∧
      t.slot k = some { sl with due.fault := none }) ∧
    (sl.due.handler = false → happens (.faultFail token) s fun t => t.mm.faults = s.mm.faults.filter (fun x => x.id != p.id) ∧
      t.slot k = some { sl with due.fault := none, due.traps := sl.due.traps ++ [failTrap p.va p.reason] }) ∧
    (sl.due.handler = true → happens (.faultFail token) s fun t => t.mm.faults = s.mm.faults.filter (fun x => x.id != p.id) ∧
      ∃ u r, t.slot k = some u ∧ u.due.fault = none ∧ u.due.handler = false ∧ u.due.stopped = true ∧ u.due.policy = some r ∧
        r[0].toNat % 256 = 0x08 ∧ r[5] = BitVec.ofNat 64 p.va)) ∧
  (∀ (s : State) token p k sl f, s.barOpen = true → faultNamed s token p → p.who = .tile k → s.slot k = some sl → sl.due.fault = none →
    sl.firing = some f → f.parked = some (.page p.id) →
    (happens (.faultServed token) s fun t => t.mm.faults = s.mm.faults.filter (fun x => x.id != p.id) ∧ t.slots = s.slots) ∧
    (happens (.faultFail token) s fun t => t.mm.faults = s.mm.faults.filter (fun x => x.id != p.id) ∧
      t.slot k = some { sl with firing := some { f with failedFault := true } })) ∧
  (∀ (s : State) id p k sl f, pageAsked s id p → p.who = .tile k → s.slot k = some sl → sl.due.fault = none →
    sl.firing = some f → f.parked = some (.page p.id) →
    (∀ frame, paHost (frame * 65536) = true → happens (.pageRequestResponse id (some frame)) s fun t =>
      t.mm.faults = s.mm.faults.filter (fun x => x.id != p.id) ∧ t.slots = s.slots ∧
      ∀ x, s.walk p.ctx p.va p.write = .ok x → x.leaf.getLsbD 4 = true → t.mm.ats.find (x.pa / 65536) = some frame) ∧
    (happens (.pageRequestResponse id none) s fun t => t.mm.faults = s.mm.faults.filter (fun x => x.id != p.id) ∧
      t.slot k = some { sl with firing := some { f with failedFault := true } })) ∧
  (∀ (s : State) token p id c, s.barOpen = true → faultNamed s token p → p.who = .command id → s.command id = some c →
    c.faultWait = some p.id → c.ended = false → c.loader = false →
    (happens (.faultServed token) s fun t => t.command id = some { c with faultWait := none }) ∧
    (happens (.faultFail token) s fun t => ∃ d, t.command id = some d ∧ d.state = .failed ∧ d.status = 3)) ∧
  (∀ (s : State) token, s.barOpen = true → s.mm.faults.find? (fun p => p.token == some token) = none →
    (happens (.faultServed token) s (ignored s)) ∧ (happens (.faultFail token) s (ignored s)) ∧
      ∀ id frame, (∀ p, ¬ pageAsked s id p) → idles (.pageRequestResponse id frame) s) ∧
  (∀ (s : State) token, s.barOpen = false → idles (.faultServed token) s ∧ idles (.faultFail token) s) ∧
  (∀ (s : State) pa log, happens (.atsInvalidation pa log) s fun t => t.mm.mem = s.mm.mem ∧ t.slots = s.slots ∧
    ∀ e, e ∈ t.mm.ats ↔ e ∈ s.mm.ats ∧ ¬ inBusRange pa log e) ∧
  (∀ (s : State) pa log hit, s.mm.atsInvals = [] → framesOf s pa log hit →
    (s.hostRequests hit = false → happens (.atsInvalidation pa log) s fun t => t.mm.atsInvals = [] ∧
      t.outbox = .reply "ATS invalidation complete" (toBytes 8 pa) :: s.outbox) ∧
    (s.hostRequests hit = true → happens (.atsInvalidation pa log) s fun t => t.outbox = s.outbox ∧
      ∃ l, t.mm.atsInvals = [(pa, l)] ∧ ∀ n, n ∈ l ↔ n ∈ hit))

/-- R357, R358: a command to an MMU port starts an invalidation of an aligned range, and one that the port cannot take is an ignored
write; the invalidation completes once no access is open that used the range, and drops the translations. R361, R363: a migration
opens a splice from the page's frame to the new one, copies the page line by line, then writes the leaf and starts its invalidation;
one of a page that has just moved, of a page without a leaf, or to a frame that is not allowed is answered at once. Choices of the
model in it stand in the assumption log: 41, 58, 61, 88, 95. -/
def Obligations.InvalidationsAndMigrations : Prop :=
  (
  (∀ (s : State) port v, commanded s port v 1 →
    let log := bits v 13 8
    let first := bits (s.mmuPort port).va 59 16 / 2 ^ log * 2 ^ log
    happens (.mmuInvalidate port v) s fun t => (t.mmuPort port).busy = true ∧ (t.mmuPort port).sts = 0 ∧ t.mm.mem = s.mm.mem ∧
      t.mm.invals = s.mm.invals ++ [{ id := s.nextId, ctx := bits v 21 16, vpg := first, log := log, port := some port, since := s.mm.order.next }]) ∧
  (∀ (s : State) port v, s.barOpen = true → port < 2 → (s.mmuPort port).busy = true →
    (bits v 3 0 = 1 → happens (.mmuInvalidate port v) s (ignored s)) ∧ (bits v 3 0 = 2 → happens (.mmuMigrate port v) s (ignored s))) ∧
  (∀ (s : State) port v, s.barOpen = false → idles (.mmuInvalidate port v) s ∧ idles (.mmuMigrate port v) s) ∧
  (∀ (s : State) i, s.mm.invals.find? (fun x => x.id == i.id) = some i →
    (s.accessOpen i = true → idles (.invalidationComplete i.id) s) ∧
    (s.accessOpen i = false →
      happens (.invalidationComplete i.id) s fun t => t.mm.invals = s.mm.invals.filter (fun x => x.id != i.id) ∧
        (∀ e ∈ t.mm.tlb, i.meets e = false) ∧ (∀ e ∈ s.mm.tlb, i.meets e = false → e ∈ t.mm.tlb) ∧ t.mm.mem = s.mm.mem ∧
        ∀ p, i.port = some p → p < 2 → (t.mmuPort p).busy = false ∧ (t.mmuPort p).sts = 0 ∧
          ((s.mmuPort p).op = 2 → t.mm.splices = s.mm.splices.filter (· != ((s.mmuPort p).fromFrame, (s.mmuPort p).toFrame)) ∧
            (pageKey (s.mmuPort p).ctx (s.mmuPort p).vpg, s.clock + 270000) ∈ t.mm.settle)))
  ) ∧
  (
  (∀ (s : State) port v a e, commanded s port v 2 →
    let vpg := bits (s.mmuPort port).va 59 16
    let g := bits (s.mmuPort port).pa 51 16
    (s.pageSettling (bits v 21 16) vpg = false → s.leafOf (bits v 21 16) (vpg * 65536) = some (a, e) → moveAllowed (bits e 51 16) g = true →
      happens (.mmuMigrate port v) s fun t => (t.mmuPort port).busy = true ∧ (t.mmuPort port).sts = 0 ∧ t.mm.mem = s.mm.mem ∧
        t.mm.splices = s.mm.splices ++ [(bits e 51 16, g)]) ∧
    (s.pageSettling (bits v 21 16) vpg = true →
      happens (.mmuMigrate port v) s fun t => (t.mmuPort port).busy = false ∧ (t.mmuPort port).sts = 1 ∧ t.mm.splices = s.mm.splices) ∧
    (s.pageSettling (bits v 21 16) vpg = false → s.leafOf (bits v 21 16) (vpg * 65536) = none →
      happens (.mmuMigrate port v) s fun t => (t.mmuPort port).busy = false ∧ (t.mmuPort port).sts = 2 ∧ t.mm.splices = s.mm.splices) ∧
    (s.pageSettling (bits v 21 16) vpg = false → s.leafOf (bits v 21 16) (vpg * 65536) = some (a, e) → moveAllowed (bits e 51 16) g = false →
      happens (.mmuMigrate port v) s fun t => (t.mmuPort port).busy = false ∧ (t.mmuPort port).sts = 2 ∧ t.mm.splices = s.mm.splices)) ∧
  (∀ (s : State) port, s.mm.mem.wf = true → copies s port → (s.mmuPort port).copied < 1024 →
    let f := (s.mmuPort port).fromFrame * 1024 + (s.mmuPort port).copied
    let g := (s.mmuPort port).toFrame * 1024 + (s.mmuPort port).copied
    f ≠ g →
    (∀ i, i < 64 → (s.copyNext port).mm.mem.byte (g * 64 + i) = s.mm.mem.byte (f * 64 + i)) ∧
    (∀ b, b / 64 ≠ g → (s.copyNext port).mm.mem.byte b = s.mm.mem.byte b) ∧
    (s.copyNext port).mm.poison.contains g = s.mm.poison.contains f ∧
    (s.copyNext port).mmuPort port = { s.mmuPort port with copied := (s.mmuPort port).copied + 1 }) ∧
  (∀ (s : State) port, ¬ (copies s port ∧ (s.mmuPort port).copied = 1024) → idles (.migrationCopyComplete port) s) ∧
  (∀ (s : State) port a e, s.mm.mem.wf = true → copies s port → (s.mmuPort port).copied = 1024 →
    let f := (s.mmuPort port).fromFrame
    let g := (s.mmuPort port).toFrame
    s.leafOf (s.mmuPort port).ctx ((s.mmuPort port).vpg * 65536) = some (a, e) → s.mm.splices = [(f, g)] → a % 8 = 0 →
    a / 65536 ≠ f → a / 65536 ≠ g →
    happens (.migrationCopyComplete port) s fun t =>
      t.mm.mem.bytes a 8 = toBytes 8 (e.toNat / 2 ^ 52 * 2 ^ 52 + g % 2 ^ 36 * 2 ^ 16 + e.toNat % 2 ^ 16) ∧
      (∀ b, (b < a ∨ a + 8 ≤ b) → t.mm.mem.byte b = s.mm.mem.byte b) ∧
      t.mm.invals = s.mm.invals ++ [{ id := s.nextId, ctx := (s.mmuPort port).ctx, vpg := (s.mmuPort port).vpg, log := 0, port := some port,
                                      since := t.mm.order.next }]) ∧
  (∀ (s : State) ctx vpg, happens (.settleWindowEnd ctx vpg) s fun t => t.mm.mem = s.mm.mem ∧
    (∀ w ∈ t.mm.settle, w ∈ s.mm.settle ∧ ¬ (w.1 = pageKey ctx vpg ∧ w.2 ≤ s.clock)) ∧
    (∀ w ∈ s.mm.settle, ¬ (w.1 = pageKey ctx vpg ∧ w.2 ≤ s.clock) → w ∈ t.mm.settle))
  )

/-- R365 to R367: a kill sets KIP and the next generation in the contexts of its cove and ends its slots, commands, translations, pins
and dirty shelf lines; each of the 234 homes takes the generation and acknowledges, a Causeway port discarding what it holds back of
the old one (at once, and the port that a path's number gives: log 66); when all have, the kill is over and KIP clears; a peer's
message sets the homes' generation for the peer's cove and traps 0x1A the slots that share an arc or a group with it, those of a
swapped-out configuration too. Choices of the model in it stand in the assumption log: 40, 66, 88. -/
def Obligations.Kills : Prop :=
  (∀ (s : State) home cove kl, s.mm.kills.find? (fun x => x.cove == cove) = some kl → home < 234 → kl.acked.contains home = false →
    happens (.homeGenerationUpdate home cove) s fun t => t.mm.homeGen.find (home * 4096 + cove) = some kl.gen ∧
      ((∀ p ∈ s.dv.paths, p.heldWrites = []) → t.mm.mem = s.mm.mem) ∧
      (∀ p ∈ t.dv.paths, 145 + p.pkg % 12 = home → ∀ w ∈ p.heldWrites, w.1 = cove → w.2.1 = kl.gen) ∧
      t.slots = s.slots ∧ ∃ x, t.mm.kills.find? (fun x => x.cove == cove) = some x ∧ x.gen = kl.gen ∧
        ∀ h, x.acked.contains h = (kl.acked.contains h || h == home)) ∧
  (∀ (s : State) home cove, (s.mm.kills.find? (fun x => x.cove == cove) = none ∨ 234 ≤ home) → idles (.homeGenerationUpdate home cove) s) ∧
  (∀ (s : State) cove kl, s.mm.kills.find? (fun x => x.cove == cove) = some kl →
    (234 ≤ kl.acked.length → s.dv.jetty.restarting = none →
      (happens (.killComplete cove) s fun t => ∀ x ∈ t.mm.kills, x.cove ≠ cove) ∧
      ((∀ c ∈ s.al.cfgs, (s.coveCtxs cove).contains c.2.launch.ctx = true → c.2.state = .ended) →
        (∀ l ∈ s.al.launches, (s.coveCtxs cove).contains l.ctx = false) →
        happens (.killComplete cove) s fun t => ∀ c ∈ s.coveCtxs cove, (t.ctx c).kip = false)) ∧
    (kl.acked.length < 234 → idles (.killComplete cove) s)) ∧
  (∀ (s : State) cove, (∀ x ∈ s.mm.kills, x.cove ≠ cove) → ∀ c, c ∈ s.coveCtxs cove →
    (s.startKill cove []).mm.kills.any (fun x => x.cove == cove && x.gen == (s.coveGen cove + 1) % 2 ^ 20 && x.acked.isEmpty) = true ∧
    ((s.startKill cove []).ctx c).kip = true ∧ ((s.startKill cove []).ctx c).gen = (s.coveGen cove + 1) % 2 ^ 20) ∧
  (∀ (s : State) cove, (∀ x ∈ s.mm.kills, x.cove ≠ cove) →
    let t := s.startKill cove []
    (∀ k u, t.slot k = some u → (s.coveCtxs cove).contains u.pl.ctx = true → u.firing = none ∧ u.due.stopped = true ∧ u.due.handler = false ∧
      u.due.traps = []) ∧
    (∀ id c, t.command id = some c → (s.coveCtxs cove).contains c.ctx = true → c.ended = true) ∧
    (∀ e ∈ t.mm.tlb, e.tag ≠ cove) ∧ (∀ e ∈ s.mm.tlb, e.tag ≠ cove → e ∈ t.mm.tlb) ∧
    (∀ p ∈ t.mm.pins, (s.coveCtxs cove).contains p.2.1 = false) ∧ (∀ d ∈ t.mm.dirty, d.1 ≠ cove) ∧
    (s.mm.mem.wf = true → (∀ d ∈ s.mm.dirty, ∀ e ∈ s.mm.dirty, d.1 = cove → e.1 = cove → d.2.1 = e.2.1 → d = e) →
      ∀ d ∈ s.mm.dirty, d.1 = cove → t.mm.mem.byte d.2.1 = d.2.2)) ∧
  (∀ (s : State) pkg cove ctx gen, happens (.peerKillMessage pkg cove ctx gen) s fun t => t.mm.mem = s.mm.mem ∧
    (∀ h, h < 234 → t.mm.homeGen.find (((pkg + 1) * 1024 + h) * 4096 + cove) = some gen) ∧
    ∀ k sl, s.slot k = some sl → t.slot k = some (if (s.coveCtxs cove).contains sl.pl.ctx && s.sharesWith sl.pl.ctx pkg
      then { sl with due.traps := sl.due.traps ++ [{ code := 0x1A, info := BitVec.ofNat 64 ctx }] } else sl) ∧
    ∀ n c, s.cfg n = some c → ∃ d, t.cfg n = some d ∧ d.saves.length = c.saves.length ∧
      ∀ v ∈ d.saves, v.part = 2 → (s.coveCtxs cove).contains v.slot.pl.ctx = true → s.sharesWith v.slot.pl.ctx pkg = true →
        v.slot.due.traps.getLast? = some { code := 0x1A, info := BitVec.ofNat 64 ctx })

/-! ### Queues and packets as events (R332 to R341, R188, R365) -/

namespace Sys2Proof.Safety
open Sys2Proof.Machine

/-- The packet `p`, not completed, stands where queue `q` may dispatch a packet of this type now (R336, R339, R344). -/
def headIs (s : State) (q type : Nat) (p : Packet) : Prop :=
  s.headOf q type = some p ∧ s.packet q p.num = some p ∧ p.finished = none

/-- A packet has been dispatched and completes with a status. -/
def completes (t : State) (q n st : Nat) : Prop := ∃ y, t.packet q n = some y ∧ y.dispatched = true ∧ y.finished = some st

/-- A packet has been dispatched and goes on. -/
def dispatchedOnly (t : State) (q n : Nat) : Prop := ∃ y, t.packet q n = some y ∧ y.dispatched = true ∧ y.finished = none

/-- The context of a queue. -/
def ctxOf (s : State) (q : Nat) : Nat := (s.queue q).ctx

/-- A fetch may be made: the queue runs and waits for nothing, `n` units at least have been announced, and every packet fetched has been
dispatched (R332, R336). -/
def mayFetch (s : State) (q n : Nat) : Prop :=
  (s.queue q).state = 1 ∧ (s.queue q).faultWait = none ∧ n ≤ ((s.queue q).tail + 2 ^ 26 - (s.queue q).head % 2 ^ 26) % 2 ^ 26 ∧ 1 ≤ n ∧
    ∀ p ∈ (s.queue q).packets, p.dispatched = true

/-- A page fault of a packet is open, or a request to the host's agent, of reason 0 (20 R359, R360). -/
def asksAt (s t : State) (q n va r : Nat) (write : Bool) : Prop :=
  t.mm.faults.getLast?.map (fun p => (p.va, p.reason, p.who, p.ctx, p.write)) = some (va, r, .packet q n, ctxOf s q, write)

/-- A tail value that a queue takes: newer than the last one, and within the ring (R337). -/
def newerTail (x : Queue) (v : Dword) : Prop :=
  cntSub (bits v 63 32) x.seq ≠ 0 ∧ cntSub (bits v 63 32) x.seq < 2 ^ 31 ∧ (bits v 25 0 + 2 ^ 26 - x.head % 2 ^ 26) % 2 ^ 26 ≤ x.rsize

/-- The units of a queue's ring from HEAD up to its tail. -/
def unitsWaiting (x : Queue) : Nat := (x.tail + 2 ^ 26 - x.head % 2 ^ 26) % 2 ^ 26

/-- Tail writes given to the apertures one after another. -/
def givenInOrder : List (Nat × Nat × Nat × Dword) → State → State → Prop
  | [], s, t => t = s
  | w :: l, s, t => ∃ u, exec (.tailWrite w.1 w.2.1 w.2.2.1 w.2.2.2) s = .next u ∧ givenInOrder l u t

/-- A slot on a tile that a DELTA touches (R340). -/
def onTouchedTile (s : State) (d : Delta) (c : Configuration) (k : Nat) : Prop :=
  ∃ x ∈ s.touched d.cfg c d.image, tileOf x.1 = tileOf k

/-- A DELTA packet names a configuration that has not ended, and a new image, signed as the Lighthouse asks (22 R388), that may replace its
own (R340). -/
def deltaTaken (s : State) (q : Nat) (p : Packet) (cfg : Nat) (c : Configuration) (new : Image) : Prop :=
  s.imageSigned new = true ∧ c.launch.image.hash.toNat = ofBytes ((p.bytes.drop 32).take 32).reverse ∧ deltaOk c.launch.image new = true ∧
    new.accepted c.launch.surrogate c.launch.dataBase = true ∧ new.rateStop = none ∧ s.deltaDraw cfg (ctxOf s q) (s.touched cfg c new) = true ∧
    ∀ x ∈ s.touched cfg c new, (s.deltaRun x.1 x.2.1 x.2.2.code.length).isSome = true

/-- The DELTA of a queue is carried out now: its configuration is placed, and no other DELTA stands at the head of the queue. -/
def deltaUnderWay (s : State) (q : Nat) (d : Delta) (c : Configuration) : Prop :=
  s.fe.deltas.find? (fun d => d.queue == q) = some d ∧ s.dv.jetty.restarting = none ∧ s.headOf q 0x03 = none ∧ s.cfg d.cfg = some c ∧
    (∀ x ∈ s.touched d.cfg c d.image, s.slot x.1 = some x.2.1) ∧ ((s.touched d.cfg c d.image).map (·.1)).Nodup

/-- The generation of a rate set after one more step of a DELTA that changes it (02 R23). -/
def genStep (sl : Slot) (a : Actor) (i : Nat) : Option Nat := sl.rateGen.toList[i]?.map fun g => if (changedSets sl.pl.actor a).contains i then g + 1 else g

end Sys2Proof.Safety

/-- R333, R339, R432: while BAR2 is open a disabled queue with a valid block is enabled, but not during a function-level reset of
function 0, and one with an invalid block is an ignored write; a running queue stops fetching, a queue in error resumes past the
packet that failed, and a stopping queue is disabled once every dispatched packet has completed. The front end serves one running
queue for 10 µs, then the next. R337, R338, R432: a tail written to the aperture of the queue's own function is taken when it is
newer and within the ring, and discarded and counted when it is not for a running queue of the function or is stale; while the
aperture logic is gated the capture queue holds it, up to 64, and gives it back in order; the reconcile pass takes the shadow tail
of every running queue. During a function-level reset of function 0 every tail write is discarded. Choices of the model in it stand
in the assumption log: 45. -/
def Obligations.QueuesAndTails : Prop :=
  (
  (∀ (s : State) q, q < 64 → s.barOpen = true → s.dv.host.flr = false → (s.queue q).state = 0 →
    ((s.queue q).valid = true → happens (.queueEnable q) s fun t => (t.queue q).state = 1 ∧ (t.queue q).packets = [] ∧ t.mm = s.mm) ∧
    ((s.queue q).valid = false → happens (.queueEnable q) s fun t => ignored s t ∧ t.dv.rsvBar = true)) ∧
  (∀ (s : State) q, ((s.queue q).state ≠ 0 ∨ s.dv.host.flr = true) → idles (.queueEnable q) s) ∧
  (∀ (s : State) q, s.barOpen = false → idles (.queueEnable q) s ∧ idles (.queueStop q) s ∧ idles (.queueResume q) s) ∧
  (∀ (s : State) q, q < 64 → s.barOpen = true → ((s.queue q).state = 1 ∨ (s.queue q).state = 2) →
    happens (.queueStop q) s fun t => (t.queue q).state = 3 ∧ (t.queue q).packets = (s.queue q).packets ∧ t.mm = s.mm) ∧
  (∀ (s : State) q, (s.queue q).state = 0 ∨ (s.queue q).state = 3 → idles (.queueStop q) s) ∧
  (∀ (s : State) q, q < 64 → s.barOpen = true → (s.queue q).state = 2 →
    let x := s.queue q
    (bits x.err 7 0 ≠ 6 → happens (.queueResume q) s fun t => t.queue q = { x with state := 1, err := 0, head := x.head % 2 ^ 26 } ∧ t.mm = s.mm) ∧
    (∀ first, bits x.err 7 0 = 6 → s.readUnits x x.head 1 = .ok first → happens (.queueResume q) s fun t => t.mm = s.mm ∧
      t.queue q = { x with state := 1, err := 0, head := (x.head + min (unitsWaiting x) (field first 1 1 % 16 + 1)) % 2 ^ 26 }) ∧
    (∀ e, bits x.err 7 0 = 6 → s.readUnits x x.head 1 = .error e → happens (.queueResume q) s fun t => t.mm = s.mm ∧
      t.queue q = { x with state := 1, err := 0, head := (x.head + min (unitsWaiting x) 1) % 2 ^ 26 })) ∧
  (∀ (s : State) q, (s.queue q).state ≠ 2 → idles (.queueResume q) s) ∧
  (∀ (s : State) q, (s.queue q).state = 3 →
    ((∀ p ∈ (s.queue q).packets, p.dispatched = false) → (s.queue q).replayOpen = [] →
      happens (.queueStopComplete q) s fun t => (t.queue q).state = 0 ∧ (t.queue q).packets = [] ∧ t.mm = s.mm) ∧
    ((∃ p ∈ (s.queue q).packets, p.dispatched = true) → idles (.queueStopComplete q) s)) ∧
  (∀ (s : State) q, ¬ ((s.queue s.fe.slice.1).state = 1 ∧ s.clock < s.fe.slice.2 + 27000) →
    (s.nextQueue s.fe.slice.1 = some q → happens .sliceExpiry s fun t => t.fe.slice = (q, s.clock) ∧ t.fe.queues = s.fe.queues) ∧
    (s.nextQueue s.fe.slice.1 = none → happens .sliceExpiry s fun t => t.fe.gated = true ∧ t.fe.queues = s.fe.queues)) ∧
  (∀ (s : State) q, s.nextQueue s.fe.slice.1 = some q → (s.queue q).state = 1 ∧ q < 64) ∧
  (∀ (s : State), (s.queue s.fe.slice.1).state = 1 → s.clock < s.fe.slice.2 + 27000 → idles .sliceExpiry s)
  ) ∧
  (
  (∀ (s : State) fn v, s.fe.gated = false → s.dv.host.flr = false →
    let q := bits v 31 26
    let x := s.queue q
    (x.ctx = fn → x.state = 1 → newerTail x v → happens (.tailWrite fn 0 8 v) s fun t =>
      t.queue q = { x with seq := bits v 63 32, tail := bits v 25 0 } ∧ t.fe.disc = s.fe.disc ∧ t.mm = s.mm) ∧
    (x.ctx = fn → x.state = 1 → cntSub (bits v 63 32) x.seq ≠ 0 → cntSub (bits v 63 32) x.seq < 2 ^ 31 →
      x.rsize < (bits v 25 0 + 2 ^ 26 - x.head % 2 ^ 26) % 2 ^ 26 →
      happens (.tailWrite fn 0 8 v) s fun t => (t.queue q).state = 2 ∧ (t.queue q).tail = x.tail ∧ bits (t.queue q).err 7 0 = 2) ∧
    (∀ off size, off ≠ 0 ∨ size ≠ 8 ∨ x.ctx ≠ fn ∨ x.state ≠ 1 ∨ cntSub (bits v 63 32) x.seq = 0 ∨ 2 ^ 31 ≤ cntSub (bits v 63 32) x.seq →
      happens (.tailWrite fn off size v) s fun t => t.fe.queues = s.fe.queues ∧ t.fe.disc = min (s.fe.disc + 1) 0xFFFF ∧ t.mm = s.mm)) ∧
  (∀ (s : State) fn off size v, s.dv.host.flr = true → happens (.tailWrite fn off size v) s fun t => t.fe.queues = s.fe.queues ∧
    t.fe.capture = s.fe.capture ∧ t.fe.disc = min (s.fe.disc + 1) 0xFFFF ∧ t.mm = s.mm) ∧
  (∀ (s : State) fn off size v, s.fe.gated = true → s.dv.host.flr = false →
    (s.fe.capture.length < 64 → happens (.tailWrite fn off size v) s fun t => t.fe.capture = s.fe.capture ++ [(fn, off, size, v)] ∧
      t.fe.queues = s.fe.queues) ∧
    (64 ≤ s.fe.capture.length → happens (.tailWrite fn off size v) s fun t => t.fe.capOvf = true ∧ t.fe.capture = s.fe.capture ∧
      t.fe.queues = s.fe.queues)) ∧
  (∀ (s : State), s.fe.gated = true →
    (s.fe.capOvf = false → happens .captureQueueDrain s fun t => t.fe.gated = false ∧ t.fe.capture = [] ∧
      givenInOrder s.fe.capture { s with fe.gated := false, fe.capture := [] } t) ∧
    (s.fe.capOvf = true → happens .captureQueueDrain s fun t => ∃ u, exec .reconcilePass u = .next t ∧
      givenInOrder s.fe.capture { s with fe.gated := false, fe.capture := [] } u)) ∧
  (∀ (s : State), s.fe.gated = false → idles .captureQueueDrain s) ∧
  (∀ (s : State), (∀ x ∈ s.fe.queues, x.2.state ≠ 1) → idles .reconcilePass s) ∧
  (∀ (s : State), (s.fe.queues.map (·.1)).Nodup → happens .reconcilePass s fun t => t.fe.disc = s.fe.disc ∧ t.mm.mem = s.mm.mem ∧
    ∀ q x, (q, x) ∈ s.fe.queues →
      (x.state ≠ 1 → t.queue q = x) ∧
      (∀ e, x.state = 1 → s.ctxRead x.ctx x.tshad 8 = .error e → t.queue q = x) ∧
      ∀ bs, x.state = 1 → s.ctxRead x.ctx x.tshad 8 = .ok bs →
        let v := BitVec.ofNat 64 (ofBytes bs)
        (bits v 31 26 = q → newerTail x v → t.queue q = { x with seq := bits v 63 32, tail := bits v 25 0 }) ∧
        ((bits v 31 26 ≠ q ∨ cntSub (bits v 63 32) x.seq = 0 ∨ 2 ^ 31 ≤ cntSub (bits v 63 32) x.seq) → t.queue q = x))
  )

/-- R332, R334 to R336: a packet is fetched whole and the head moves past it, a malformed one completes with status 2 and stops the
queue; a completion writes its record, signals its vector and counts in DONE; a record that its address cannot take is lost, with a
page fault posted (R359), or waits for the host's agent (R360). R335, R339, R365: WRSIG writes and signals, WAIT is evaluated once
in a slice, goes on when its condition holds and completes with status 5 when its time is over, FENCE completes when all before it
has and no write of the cove waits for a path (R408), for which WRSIG waits too (log 112), FLOODH asks for a layer that is
described, and KILL ends its context or completes where there is nothing to end. Choices of the model in it stand in the assumption
log: 42, 43, 45. -/
def Obligations.PacketsAndCompletions : Prop :=
  (
  (∀ (s : State) q n first bs, mayFetch s q n → s.readUnits (s.queue q) (s.queue q).head 1 = .ok first → field first 1 1 % 16 + 1 = n →
    s.readUnits (s.queue q) (s.queue q).head n = .ok bs →
    let p : Packet := { num := (s.queue q).nextNum, unit := (s.queue q).head, bytes := bs, dispatched := false, finished := none, since := 0, tried := none }
    (p.malformed = false → happens (.packetFetch q) s fun t => t.mm = s.mm ∧ (t.queue q).head = ((s.queue q).head + n) % 2 ^ 26 ∧
      (t.queue q).packets = (s.queue q).packets ++ [p] ∧ (t.queue q).state = 1) ∧
    (p.malformed = true → (∀ y ∈ (s.queue q).packets, y.num ≠ p.num) → happens (.packetFetch q) s fun t => (t.queue q).state = 2 ∧
      (t.queue q).head = ((s.queue q).head + n) % 2 ^ 26 ∧ completes t q p.num 2)) ∧
  (∀ (s : State) q, ((s.queue q).state ≠ 1 ∨ (s.queue q).faultWait ≠ none ∨ (∃ p ∈ (s.queue q).packets, p.dispatched = false)) →
    idles (.packetFetch q) s) ∧
  (∀ (s : State) q n, (s.packet q n = none ∨ ∃ p, s.packet q n = some p ∧ p.finished = none) → idles (.packetCompletion q n) s) ∧
  (∀ (s : State) q n p st, s.packet q n = some p → p.finished = some st → (s.queue q).replay = none → (s.queue q).replayOpen = [] →
    (p.cva = 0 → happens (.packetCompletion q n) s fun t => t.mm = s.mm ∧ (t.queue q).done = cnt ((s.queue q).done + 1) ∧
      (∀ y ∈ (t.queue q).packets, y.num ≠ n) ∧
      (p.irq = true → t.outbox = .msix (ctxOf s q) q :: s.outbox) ∧ (p.irq = false → t.outbox = s.outbox)) ∧
    (∀ s1, p.cva ≠ 0 → p.cva % 16 = 0 → p.refused = false →
      s.ctxWrite (ctxOf s q) p.cva (toBytes 2 st ++ toBytes 2 p.tag ++ toBytes 4 0 ++ toBytes 8 s.ns) = .ok s1 →
      happens (.packetCompletion q n) s fun t => t.mm = s1.mm ∧ (t.queue q).done = cnt ((s.queue q).done + 1) ∧
        ∀ y ∈ (t.queue q).packets, y.num ≠ n) ∧
    (∀ va r w, p.cva ≠ 0 → p.cva % 16 = 0 → p.refused = false →
      s.ctxWrite (ctxOf s q) p.cva (toBytes 2 st ++ toBytes 2 p.tag ++ toBytes 4 0 ++ toBytes 8 s.ns) = .error (.page va r w) →
      (r ≠ 0 → happens (.packetCompletion q n) s fun t => t.mm.mem = s.mm.mem ∧ asksAt s t q n va r w ∧
        (t.queue q).done = cnt ((s.queue q).done + 1) ∧ ∀ y ∈ (t.queue q).packets, y.num ≠ n) ∧
      (r = 0 → p.asked = none → happens (.packetCompletion q n) s fun t => t.mm.mem = s.mm.mem ∧ asksAt s t q n va 0 w ∧
        (t.queue q).done = (s.queue q).done ∧ (t.packet q n).map (·.asked) = some (some s.nextId))))
  ) ∧
  (
  (∀ (s : State) q p, headIs s q 0x04 p → s.waitsForPath (ctxOf s q) (p.f 16 8) = true → idles (.wrsig q) s) ∧
  (∀ (s : State) q p, headIs s q 0x04 p → s.waitsForPath (ctxOf s q) (p.f 16 8) = false →
    (∀ s1, s.ctxWrite (ctxOf s q) (p.f 16 8) (toBytes (p.f 32 1) (p.f 24 8)) = .ok s1 → s1.al.ctxs = s.al.ctxs → s1.fe = s.fe →
      happens (.wrsig q) s fun t => t.mm = s1.mm ∧ completes t q p.num 0 ∧
        (t.ctx (ctxOf s q)).events = (s.ctx (ctxOf s q)).events ++ [(p.f 33 1, BitVec.ofNat 64 (p.f 40 8))]) ∧
    (∀ e, s.ctxWrite (ctxOf s q) (p.f 16 8) (toBytes (p.f 32 1) (p.f 24 8)) = .error e →
      ((∀ va w, e ≠ .page va 0 w) → happens (.wrsig q) s fun t => t.mm.mem = s.mm.mem ∧ completes t q p.num 6) ∧
      (∀ va r w, e = .page va r w → happens (.wrsig q) s fun t => t.mm.mem = s.mm.mem ∧ asksAt s t q p.num va r w ∧
        (r = 0 → (t.packet q p.num).map (fun y => (y.asked, y.finished)) = some (some s.nextId, none))))) ∧
  (∀ (s : State) q p bs, headIs s q 0x05 p → p.tried ≠ some s.fe.slice.2 → p.f 41 1 = 0 → s.ctxRead (ctxOf s q) (p.f 16 8) 8 = .ok bs →
    let v := ofBytes bs &&& p.f 32 8
    let c := p.f 24 8
    let holds := if p.f 40 1 = 0 then c ≤ v else if p.f 40 1 = 1 then v ≤ c else if p.f 40 1 = 2 then v = c else v ≠ c
    (holds → happens (.wait q) s fun t => t.mm = s.mm ∧ completes t q p.num 0) ∧
    (¬ holds → happens (.wait q) s fun t => t.mm = s.mm ∧ ∃ y, t.packet q p.num = some y ∧ y.dispatched = p.dispatched ∧ y.finished = none ∧
      y.tried = some s.fe.slice.2 ∧ y.since = if p.since = 0 then s.ns + 1 else p.since)) ∧
  (∀ (s : State) q p, headIs s q 0x05 p → p.tried = some s.fe.slice.2 → idles (.wait q) s) ∧
  (∀ (s : State) q p, headIs s q 0x05 p →
    (p.f 48 8 ≠ 0 → p.since ≠ 0 → p.since - 1 + p.f 48 8 * 1000 ≤ s.ns → happens (.waitTimeout q) s fun t => t.mm = s.mm ∧ completes t q p.num 5) ∧
    ((p.f 48 8 = 0 ∨ p.since = 0 ∨ s.ns < p.since - 1 + p.f 48 8 * 1000) → idles (.waitTimeout q) s)) ∧
  (∀ (s : State) q p, headIs s q 0x09 p →
    ((s.queue q).packets.head? = some p → s.holdsFor (ctxOf s q) = false →
      happens (.fencePacket q) s fun t => t.mm = s.mm ∧ completes t q p.num 0) ∧
    ((s.queue q).packets.head? = some p → s.holdsFor (ctxOf s q) = true →
      happens (.fencePacket q) s fun t => t.mm = s.mm ∧ dispatchedOnly t q p.num) ∧
    (∀ y rest, (s.queue q).packets = y :: rest → y.type ≠ 0x09 → happens (.fencePacket q) s fun t => t.mm = s.mm ∧
      dispatchedOnly t q p.num)) ∧
  (∀ (s : State) q p, headIs s q 0x0A p →
    let ctx := ctxOf s q
    let layer := p.f 16 8
    ((∃ c ∈ s.al.cfgs, c.2.launch.ctx = ctx ∧ c.2.state ≠ .ended ∧ ∃ l ∈ c.2.launch.image.layerLines, l.layer = layer) →
      (s.tide (tideKey ctx layer)).state = .absent → p.f 24 8 ≠ 0 →
      happens (.floodh q) s fun t => completes t q p.num 0 ∧ (t.tide (tideKey ctx layer)).state = .flooding ∧
        (t.tide (tideKey ctx layer)).src = p.f 24 8 ∧ (t.tide (tideKey ctx layer)).ecl = p.f 32 1 ∧
        (t.tide (tideKey ctx layer)).seen = s.allEvents) ∧
    ((∀ c ∈ s.al.cfgs, c.2.launch.ctx = ctx → c.2.state ≠ .ended → ∀ l ∈ c.2.launch.image.layerLines, l.layer ≠ layer) →
      happens (.floodh q) s fun t => completes t q p.num 1 ∧ t.en = s.en)) ∧
  (∀ (s : State) q p, headIs s q 0x0B p →
    (p.f 24 8 = 2 ^ 64 - 1 → (s.ctx (ctxOf s q)).tag ≠ 0 → (∀ x ∈ s.mm.kills, x.cove ≠ (s.ctx (ctxOf s q)).tag) →
      happens (.kill q) s fun t => ∃ x ∈ t.mm.kills, x.cove = (s.ctx (ctxOf s q)).tag ∧ x.packets = [(q, p.num)]) ∧
    (p.f 24 8 ≠ 2 ^ 64 - 1 → (∀ c ∈ s.al.cfgs, c.2.launch.ctx = ctxOf s q → c.2.launch.ordinal ≠ p.f 24 8) →
      (∀ l ∈ s.al.launches, l.ctx = ctxOf s q → l.ordinal ≠ p.f 24 8) →
      happens (.kill q) s fun t => completes t q p.num 0 ∧ t.mm = s.mm ∧ t.slots = s.slots))
  )

/-- R188, R327, R335: LAUNCH and SLAUNCH read the image at their address and make a launch pend, or complete with the status of their
refusal; DETSET sets a new log and level, at once where nothing runs in a region. R23, R340, R341, R388: a DELTA that is accepted
halts the tiles it touches, voiding revocable firings, turns the generations of the changed rate sets odd, then makes its changes,
turns them even, lets the tiles go on and completes; one that may not be made is refused. REPLAY dispatches the next node, and fails
at a malformed one; PATCH makes a new generation of a list. Choices of the model in it stand in the assumption log: 43, 44, 46, 83,
90, 102. -/
def Obligations.LaunchesAndLists : Prop :=
  (
  (∀ (s : State) q p im i ty sl, headIs s q ty p → (i = .launch q ∧ ty = 0x01 ∧ sl = false) ∨ (i = .slaunch q ∧ ty = 0x02 ∧ sl = true) →
    s.readImage (ctxOf s q) (p.f 16 8) = .ok (some im) →
    let own := p.f 36 1 / 2 % 2 = 1
    let lvl := if own then im.prio else p.f 33 1
    let detl := if own then im.detl else p.f 35 1
    (∀ st, s.refuseLaunch (ctxOf s q) p im lvl detl sl = some st → happens i s fun t => t.al = s.al ∧ t.mm = s.mm ∧ completes t q p.num st) ∧
    (s.refuseLaunch (ctxOf s q) p im lvl detl sl = none → happens i s fun t => t.mm = s.mm ∧ t.slots = s.slots ∧ dispatchedOnly t q p.num ∧
      (t.ctx (ctxOf s q)).launches = (s.ctx (ctxOf s q)).launches + 1 ∧
      ∃ l, t.al.launches = s.al.launches ++ [l] ∧ l.ordinal = (s.ctx (ctxOf s q)).launches + 1 ∧ l.queue = q ∧ l.packet = p.num ∧
        l.ctx = ctxOf s q ∧ l.image = im ∧ l.lvl = lvl ∧ l.surrogate = sl ∧ l.dataBase = p.f 40 8 ∧ l.deadline = p.f 24 8 ∧
        (detl ≠ 2 → l.detl = detl))) ∧
  (∀ (s : State) q p i ty, headIs s q ty p → (i = .launch q ∧ ty = 0x01) ∨ (i = .slaunch q ∧ ty = 0x02) →
    (s.readImage (ctxOf s q) (p.f 16 8) = .ok none → happens i s fun t => t.al = s.al ∧ completes t q p.num 1) ∧
    (∀ e, s.readImage (ctxOf s q) (p.f 16 8) = .error e →
      ((∀ va w, e ≠ .page va 0 w) → happens i s fun t => t.al = s.al ∧ completes t q p.num 6) ∧
      (∀ va w, e = .page va 0 w → happens i s fun t => t.al = s.al ∧ asksAt s t q p.num va 0 w))) ∧
  (∀ (s : State) ctx p im lvl detl sl,
    ((s.ctx ctx).kip = true → s.refuseLaunch ctx p im lvl detl sl = some 3) ∧
    ((s.ctx ctx).kip = false → (s.ctx ctx).rootEn = false → s.refuseLaunch ctx p im lvl detl sl = some 1) ∧
    ((s.ctx ctx).kip = false → s.dv.lh.reqsig = true → im.signature ≠ some true → s.refuseLaunch ctx p im lvl detl sl = some 1) ∧
    ((s.ctx ctx).kip = false → im.signature = some false → s.refuseLaunch ctx p im lvl detl sl = some 1) ∧
    ((s.ctx ctx).kip = false → im.signature.isSome = true → s.dv.lh.fuses ≠ 0 → s.refuseLaunch ctx p im lvl detl sl = some 1) ∧
    ((s.ctx ctx).kip = false → detl = 3 → im.mergesEqual = false → s.refuseLaunch ctx p im lvl detl sl = some 1) ∧
    ((s.ctx ctx).kip = false → im.rateStop.isSome = true → s.refuseLaunch ctx p im lvl detl sl = some 1)) ∧
  (∀ (s : State) q p, headIs s q 0x06 p → p.f 28 1 ≤ 1 →
    (∀ r ∈ s.en.regions, ∀ c, s.cfg r.2.cfg = some c → c.launch.ctx ≠ ctxOf s q) →
    happens (.detset q) s fun t => (t.ctx (ctxOf s q)).level = p.f 28 1 ∧ completes t q p.num 0 ∧
      (∃ l, (t.ctx (ctxOf s q)).log = some l ∧ l.base = p.f 16 8 ∧ l.units = p.f 24 4 ∧ l.wp = 0 ∧ l.records = []) ∧
      ∀ k old, s.slot k = some old → old.pl.ctx = ctxOf s q → old.pl.region = none → s.cloneSet k = none → ∃ sl, t.slot k = some sl ∧
        if old.firing.isSome then sl.detl = old.detl ∧ sl.due.level = some (p.f 28 1) else sl.detl = p.f 28 1) ∧
  (∀ (s : State) q p h rs, headIs s q 0x06 p → p.f 28 1 = 2 → s.ctxRead (ctxOf s q) (p.f 32 8) 64 = .ok h →
    s.readRecords (ctxOf s q) (p.f 32 8 + 64) (p.f 40 8) = .ok rs → (field h 24 1 % 2 = 1 ∨ canonical none rs = false) →
    happens (.detset q) s fun t => completes t q p.num 1 ∧ t.al = s.al ∧ t.slots = s.slots ∧ t.mm = s.mm)
  ) ∧
  (
  (∀ (s : State) q p new cfg c, headIs s q 0x03 p → s.fe.deltas.find? (fun d => d.queue == q) = none →
    s.readImage (ctxOf s q) (p.f 16 8) = .ok (some new) →
    s.al.cfgs.find? (fun c => c.2.launch.ctx == ctxOf s q && c.2.launch.ordinal == p.f 24 8 && decide (c.2.state ≠ .ended)) = some (cfg, c) →
    (deltaTaken s q p cfg c new → happens (.delta q) s fun t => dispatchedOnly t q p.num ∧ t.slots = s.slots ∧ t.mm = s.mm ∧ t.al = s.al ∧
      t.fe.deltas = s.fe.deltas ++ [{ queue := q, packet := p.num, cfg := cfg, image := new, stage := 0 }]) ∧
    (¬ deltaTaken s q p cfg c new → happens (.delta q) s fun t => completes t q p.num 1 ∧ t.slots = s.slots ∧ t.mm = s.mm ∧ t.al = s.al)) ∧
  (∀ (s : State) q d c, deltaUnderWay s q d c → c.state = .placed → (s.ctx c.launch.ctx).kip = false → d.stage = 0 →
    (∀ x ∈ s.touched d.cfg c d.image, x.2.1.detl ≠ 3) →
    (∀ k u f, s.slot k = some u → onTouchedTile s d c k → u.firing = some f → f.irr = false) →
    happens (.delta q) s fun t => t.mm = s.mm ∧ t.fe.deltas.find? (fun d => d.queue == q) = some { d with stage := 1 } ∧
      (∀ x ∈ s.touched d.cfg c d.image, ∃ sl, t.slot x.1 = some sl ∧ sl.pl = x.2.1.pl ∧
        ∀ i, sl.rateGen.toList[i]? = genStep x.2.1 x.2.2 i) ∧
      ∀ k u, s.slot k = some u → onTouchedTile s d c k → ∃ v, t.slot k = some v ∧ v.due.stopped = true ∧ v.firing = none) ∧
  (∀ (s : State) q d c y, deltaUnderWay s q d c → c.state = .placed → (s.ctx c.launch.ctx).kip = false → d.stage ≠ 0 →
    s.packet q d.packet = some y → y.dispatched = true → y.finished = none →
    happens (.delta q) s fun t => completes t q d.packet 0 ∧ (t.cfg d.cfg).map (·.launch.image) = some d.image ∧
      (∀ x ∈ s.touched d.cfg c d.image, ∃ sl, t.slot x.1 = some sl ∧ sl.pl.actor = x.2.2 ∧
        ∀ i, sl.rateGen.toList[i]? = genStep x.2.1 x.2.2 i) ∧
      ∀ k u, s.slot k = some u → onTouchedTile s d c k → ∃ v, t.slot k = some v ∧ v.due.stopped = u.due.policy.isSome) ∧
  (∀ (s : State) q d c y, deltaUnderWay s q d c → c.state = .swapped → s.packet q d.packet = some y → y.dispatched = true → y.finished = none →
    (∀ v ∈ c.saves, v.part = 2 → v.slot.detl ≠ 3) →
    happens (.delta q) s fun t => completes t q d.packet 0 ∧ (t.cfg d.cfg).map (·.launch.image) = some d.image ∧ t.mm = s.mm) ∧
  (∀ (s : State) q d c, deltaUnderWay s q d c → c.state = .placed → (s.ctx c.launch.ctx).kip = true → idles (.delta q) s) ∧
  (∀ (s : State) q d c y, deltaUnderWay s q d c → c.state = .ended → s.packet q d.packet = some y → y.dispatched = true → y.finished = none →
    happens (.delta q) s fun t => completes t q d.packet 3 ∧ t.slots = s.slots ∧ t.mm = s.mm) ∧
  (∀ (s : State) q p first bs s1, headIs s q 0x07 p → (s.queue q).replay = none → 1 ≤ p.f 24 4 → p.f 24 4 < 2 ^ 32 → p.f 28 4 < 2 ^ 16 →
    let g := ((s.gens (ctxOf s q) (p.f 28 4)).head?).getD { gen := 0, patched := [] }
    s.nodeBytes (ctxOf s q) (p.f 16 8) 0 1 g = .ok first → s.nodeBytes (ctxOf s q) (p.f 16 8) 0 (field first 1 1 % 16 + 1) g = .ok bs →
    let n : Packet := { num := (s.queue q).nextNum, unit := p.unit, bytes := bs, dispatched := false, finished := none, since := 0, tried := none }
    (n.malformed = false → n.type = 0x04 → n.bar = false → (∀ y ∈ (s.queue q).packets, y.num ≠ n.num) →
      s.waitsForPath (ctxOf s q) (n.f 16 8) = false →
      s.ctxWrite (ctxOf s q) (n.f 16 8) (toBytes (n.f 32 1) (n.f 24 8)) = .ok s1 →
      happens (.replay q) s fun t => t.mm.mem = s1.mm.mem ∧ (t.queue q).rpos.toNat % 2 ^ 32 = 1 ∧
        (t.queue q).replayOpen = (s.queue q).replayOpen ++ [n.num] ∧ (t.queue q).nextNum = n.num + 1 ∧ completes t q n.num 0) ∧
    (n.malformed = true ∨ n.type = 0x07 ∨ n.type = 0x08 → happens (.replay q) s fun t => completes t q p.num 2 ∧ (t.queue q).state = 2 ∧
      (t.queue q).replay = none ∧ t.mm = s.mm)) ∧
  (∀ (s : State) q p r, headIs s q 0x07 p → (s.queue q).replay = some r → r.1 ≠ p.num → idles (.replay q) s) ∧
  (∀ (s : State) q p cur, headIs s q 0x08 p →
    let ctx := ctxOf s q
    let list := p.f 16 4
    (s.dropGens ctx list).gens ctx list = [cur] →
    happens (.patch q) s fun t => completes t q p.num 0 ∧ ∃ g rest, t.gens ctx list = g :: rest ∧ g.gen = cur.gen + 1 ∧
      g.patched = (((p.bytes.drop 32).take (p.f 28 4)).zipIdx).foldl (fun m b => Tab.put m (p.f 20 4 * 1024 + p.f 24 4 + b.2) b.1) cur.patched) ∧
  (∀ (s : State) q p cur old rest, headIs s q 0x08 p → (s.dropGens (ctxOf s q) (p.f 16 4)).gens (ctxOf s q) (p.f 16 4) = cur :: old :: rest →
    idles (.patch q) s)
  )

/-! ### Admission, moves and clones as events (R298 to R315, R407) -/

namespace Sys2Proof.Safety
open Sys2Proof.Machine

/-- Nothing of an admission waits: the controller runs, no move or swap-out is under way, the data of every launch is written, and no launch
of level 10 or 11 is past its deadline. -/
def admits (s : State) : Prop :=
  s.dv.jetty.restarting = none ∧ s.allocBusy = false ∧ (∀ x ∈ s.al.launches, x.loaded = true) ∧
    ∀ x ∈ s.al.launches, ¬ (10 ≤ x.level ∧ x.deadline < s.ns)

/-- The clones of an instance may change: it is placed, its actor is clonable and not a surrogate's fallback, the slot has not exited, stands
for itself in its clone set, and its region does not drain (R309, R314). -/
def watched (s : State) (k : Nat) (sl : Slot) : Prop :=
  s.placed k = some sl ∧ sl.pl.actor.clonable = true ∧ sl.due.exited = false ∧ (∀ c, s.cloneSet k = some c → c.original = k) ∧
    (s.regionOf sl).any Region.drain = false ∧ sl.pl.surrogate = none

/-- A bottleneck window of `n` cycles and a quiet one, by the cycles counted: every copy busy for at least 90 % and an input arc under
back-pressure for at least 25 %; every copy busy for less than 40 % (R309, R310). -/
def bottleneck (w : Window) (copies : List Nat) (n : Nat) : Prop :=
  (∀ k ∈ copies, 90 * n ≤ 100 * (w.busy.find k).getD 0) ∧ ∃ b ∈ w.back, 25 * n ≤ 100 * b.2
def quietWindow (w : Window) (copies : List Nat) (n : Nat) : Prop := ∀ k ∈ copies, 100 * (w.busy.find k).getD 0 < 40 * n

/-- No window of an instance that has ended waits to be judged. -/
def noneEnded (s : State) (k : Nat) : Prop := ∀ w, s.al.windows.find k = some w → w.ended = []

/-- The Jetty controller tells the host of an event, on PF vector 64 (26 R426). -/
def told (s t : State) (what : String) (a b : Nat) : Prop := t.outbox = .msix 0 64 :: .notice what a b :: s.outbox

/-- A clone of the slot `sl` stands at `j`: it has the condition bits, timelines, layers and level of the original and the actor's code, the PRIO of
the launch, no FLGA, no trap cause and no firing (R311). -/
def clonedAt (t : State) (j : Nat) (sl : Slot) : Prop :=
  ∃ u, t.slot j = some u ∧ u.c = sl.c ∧ u.tl = sl.tl ∧ u.layers = sl.layers ∧ u.flga = 0 ∧ u.firing = none ∧ u.pl.actor = sl.pl.actor ∧
    { u.sys with trapv := sl.sys.trapv } = { sl.sys with prioEcl := sl.pl.launchEcl, prioLvl := sl.pl.launchLvl } ∧ u.trapc = 0 ∧
    u.trapi = Vector.replicate 8 0

end Sys2Proof.Safety

/-- R298, R299, R303: the launch of the highest rank that fits is admitted at the origin of the lowest row and then the lowest column
whose pages are free, and its instances stand there; nothing is admitted while the Jetty controller restarts. A compaction moves a
configuration that has stopped, with the state of its slots. R196, R304, R309 to R312, R407: a configuration that has stopped is
swapped out and its launch pends again; a deadline that passes posts an event, or ends a hard run with status 4; two bottleneck
windows in a row add a clone of a slot and four quiet ones make the last one leave; a host that asks for a clone gets one, or under
D2 and D3 its request is refused and reported; a clone that leaves is released once every stamp routed to it has committed, and its
FLGA joins the original's. Choices of the model in it stand in the assumption log: 47, 48, 49, 50, 72, 87, 107, 118. -/
def Obligations.AdmissionSwapOutsAndClones : Prop :=
  (
  (∀ (s : State), s.dv.jetty.restarting ≠ none → idles .admission s) ∧
  (∀ (s : State) l rest o, admits s → s.considered = l :: rest → s.fit l [] true = some o → s.admitHeld l = false → l.detl = 0 →
    l.swapped = none →
    happens .admission s fun t => t.al.launches = s.al.launches.filter (fun x => x.key != l.key) ∧
      (∃ c, t.cfg s.nextId = some c ∧ c.launch = l ∧ c.state = .placed ∧ c.x0 = o.1 ∧ c.y0 = o.2 ∧ c.admitted = s.clock) ∧
      (((l.image.planned l.surrogate).map fun p => p.key o.1 o.2).Nodup → ∀ p ∈ l.image.planned l.surrogate,
        ∃ sl, t.slot (p.key o.1 o.2) = some sl ∧ sl.pl.inst = p.inst ∧ sl.pl.cfg = s.nextId ∧ sl.pl.ctx = l.ctx ∧ sl.firing = none ∧
          sl.c = p.actor.initC ∧ sl.stamp = 0 ∧ sl.phase = 0)) ∧
  (∀ (s : State), admits s → s.considered = [] → happens .admission s fun t => t = { s with al.idleSeen := s.idleCands }) ∧
  (∀ (s : State) l rest, s.considered = l :: rest → ∀ x ∈ rest, x.before l = false) ∧
  (∀ (s : State) l o, s.fit l [] true = some o → o.1 + l.image.shape.1 ≤ 16 ∧ o.2 + l.image.shape.2 ≤ 8 ∧
    (∀ p ∈ rectPages o.1 o.2 l.image.shape.1 l.image.shape.2, (s.takenPages [] true).contains p = false) ∧
    ∀ x y, x + l.image.shape.1 ≤ 16 → y + l.image.shape.2 ≤ 8 → (y < o.2 ∨ (y = o.2 ∧ x < o.1)) → s.fitsAt l [] true x y = false) ∧
  (∀ (s : State) l cfg c x y, s.stuckLaunch = some l → s.allocBusy = false → s.dv.jetty.restarting = none →
    s.movesFit l [(cfg, y * 16 + x)] = true → s.cfg cfg = some c → c.state = .placed → x < 16 →
    happens (.compaction [(cfg, y * 16 + x)]) s fun t => t.al.launches = s.al.launches ∧ t.mm = s.mm ∧
      (t.cfg cfg).map (fun d => (d.state, d.moveTo)) = some (.moving, some (x, y))) ∧
  (∀ (s : State) moves, s.stuckLaunch = none → idles (.compaction moves) s) ∧
  (∀ (s : State) cfg c x y k sl, s.cfg cfg = some c → c.state = .moving → c.moveTo = some (x, y) → (s.al.cfgs.map (·.1)).Nodup →
    (∀ d ∈ s.al.cfgs, d.1 ≠ cfg → d.2.moveTo = none) → s.al.cfgs.any (fun d => decide (d.2.state = .moving) && s.cfgBusy d.1) = false →
    s.cfgSlots cfg = [(k, sl)] →
    happens (.moveComplete cfg) s fun t => t.mm.mem = s.mm.mem ∧
      (t.cfg cfg).map (fun d => (d.state, d.x0, d.y0, d.moveTo)) = some (.placed, x, y, none) ∧
      ∃ u, t.slot (gridTile x y (sl.pl.cti / 64) (sl.pl.cti % 64) * 8 + k % 8) = some u ∧ u.c = sl.c ∧ u.tl = sl.tl ∧ u.sys = sl.sys ∧
        u.stamp = sl.stamp ∧ u.phase = sl.phase ∧ u.rset = sl.rset ∧ u.firing = sl.firing ∧ u.pl.actor = sl.pl.actor) ∧
  (∀ (s : State) cfg, (s.cfg cfg = none ∨ ∃ c, s.cfg cfg = some c ∧ (c.state ≠ .moving ∨ s.cfgBusy cfg = true)) →
    idles (.moveComplete cfg) s)
  ) ∧
  (
  (∀ (s : State) cfg c, s.cfg cfg = some c → c.state = .stopping → s.cfgBusy cfg = false → (∀ x ∈ c.cloneSets, x.copies = []) →
    happens (.swapOut cfg) s fun t => (t.cfg cfg).map (fun d => (d.state, d.swp)) = some (.swapped, true) ∧
      (∀ ks ∈ t.slots, ks.2.pl.cfg ≠ cfg) ∧ t.al.launches = s.al.launches ++ [{ c.launch with swapped := some cfg }]) ∧
  (∀ (s : State) cfg, (s.cfg cfg = none ∨ ∃ c, s.cfg cfg = some c ∧ (c.state ≠ .stopping ∨ s.cfgBusy cfg = true ∨ ∃ x ∈ c.cloneSets, x.copies ≠ [])) →
    idles (.swapOut cfg) s) ∧
  (∀ (s : State) cfg c, s.cfg cfg = some c → c.state ≠ .ended → c.dlDone = false → 10 ≤ c.launch.lvl → c.launch.late = false →
    c.launch.deadline ≠ 0 → c.launch.deadline < s.ns → s.dv.jetty.restarting = none →
    (c.launch.hard = false → happens (.deadlineExpiry cfg) s fun t => told s t "DEADLINE" c.launch.ctx c.launch.ordinal ∧
      t.cfg cfg = some { c with dlDone := true } ∧ t.slots = s.slots ∧ t.mm = s.mm) ∧
    (c.launch.hard = true → (∀ r ∈ s.en.regions, r.2.levels = []) → ∀ p, s.packet c.launch.queue c.launch.packet = some p → p.finished = none →
      happens (.deadlineExpiry cfg) s fun t => (t.cfg cfg).map (·.state) = some .ended ∧ (∀ ks ∈ t.slots, ks.2.pl.cfg ≠ cfg) ∧
        (t.packet c.launch.queue c.launch.packet).map (·.finished) = some (some 4))) ∧
  (∀ (s : State) cfg c, s.cfg cfg = some c → (c.state = .ended ∨ c.dlDone = true ∨ c.launch.lvl < 10 ∨ c.launch.late = true ∨
      c.launch.deadline = 0 ∨ s.ns ≤ c.launch.deadline) → idles (.deadlineExpiry cfg) s) ∧
  (∀ (w : Window) copies n, (w.hot copies n = true ↔ bottleneck w copies n) ∧ (w.cold copies n = true ↔ quietWindow w copies n)) ∧
  (∀ (w : Window) copies busy back clock n, clock < w.since + 270000 →
    (n < w.since + 270000 - clock → w.run copies busy back clock n 2 = w.add busy back n) ∧
    let full := w.add busy back (w.since + 270000 - clock)
    (w.run copies busy back clock (w.since + 270000 - clock) 2).since = w.since + 270000 ∧
    (w.run copies busy back clock (w.since + 270000 - clock) 2).ended = w.ended ++ [(full.hot copies 270000, full.cold copies 270000)]) ∧
  (∀ (s : State) k sl w hotNow coldNow rest, s.placed k = some sl → s.al.windows.find k = some w → w.ended = (hotNow, coldNow) :: rest →
    let x := s.cloneCounts k sl
    let y : CloneSet := { x with hot := if hotNow then x.hot + 1 else 0, cold := if coldNow then x.cold + 1 else 0 }
    let counted := ({ s with al.windows := s.al.windows.put k { w with ended := rest } }).setCloneSet sl.pl.cfg y
    let acts := watched s k sl ∧ s.al.rben = true ∧ sl.detl < 2
    (¬ acts → exec (.rebalancerWindow k false) s = .next counted) ∧
    (acts → y.hot < 2 → y.cold < 4 → exec (.rebalancerWindow k false) s = .next counted) ∧
    (acts → 2 ≤ y.hot → x.copies.length < 4 →
      (∀ j, counted.cloneSpot y sl = some j → happens (.rebalancerWindow k false) s fun t => clonedAt t j sl) ∧
      (counted.cloneSpot y sl = none → exec (.rebalancerWindow k false) s = .next counted)) ∧
    (acts → (y.hot < 2 ∨ 4 ≤ x.copies.length) → 4 ≤ y.cold → x.active ≠ [] →
      exec (.rebalancerWindow k false) s = .next (counted.removeCloneAt y (counted.firstUnrouted y)))) ∧
  (∀ (s : State) k, (s.placed k = none ∨ ∃ sl, s.placed k = some sl ∧ noneEnded s k ∧ (¬ watched s k sl ∨ sl.detl ≠ 2)) →
    idles (.rebalancerWindow k false) s) ∧
  (∀ (s : State) k sl g, watched s k sl → noneEnded s k → sl.detl = 2 → (s.ctx sl.pl.ctx).log = some g →
    let set := s.cloneCounts k sl
    (g.siteRecords 3 (s.launchOf sl.pl.cfg) sl.pl.actor.num = [] → idles (.rebalancerWindow k false) s) ∧
    (∀ r more, g.siteRecords 3 (s.launchOf sl.pl.cfg) sl.pl.actor.num = r :: more →
      (∀ j, s.recordTarget sl r.subj = some j → j ≠ k → idles (.rebalancerWindow k false) s) ∧
      (s.recordTarget sl r.subj = some k → r.subj.getLsbD 60 = true → ∀ j, s.cloneSpot set sl = some j →
        happens (.rebalancerWindow k false) s fun t => clonedAt t j sl) ∧
      (s.recordTarget sl r.subj = some k → r.subj.getLsbD 60 = false →
        exec (.rebalancerWindow k false) s =
          .next ((s.performed sl.pl.ctx 3 (s.launchOf sl.pl.cfg) sl.pl.actor.num).removeCloneAt set (bits r.subj 38 0))))) ∧
  (∀ (s : State) k, (s.dv.jetty.restarting ≠ none ∨ s.placed k = none) → idles (.rebalancerWindow k true) s) ∧
  (∀ (s : State) k sl, s.dv.jetty.restarting = none → s.placed k = some sl →
    ((sl.detl = 2 ∨ sl.detl = 3) → exec (.rebalancerWindow k true) s =
      .next { s with outbox := .msix 0 64 :: .notice "clone refused, determinism violation" 0x17 k :: s.outbox }) ∧
    (sl.detl < 2 → sl.pl.actor.clonable = true → (s.regionOf sl).any Region.drain = true →
      exec (.rebalancerWindow k true) s = .next (s.setCloneSet sl.pl.cfg { s.cloneCounts k sl with wanted := true })) ∧
    (watched s k sl → sl.detl < 2 → (s.cloneCounts k sl).copies.length < 4 →
      ∀ j, s.cloneSpot (s.cloneCounts k sl) sl = some j → happens (.rebalancerWindow k true) s fun t => clonedAt t j sl)) ∧
  (∀ (s : State) k c sl u, s.cloneSet k = some c → s.slot k = some sl → s.cloneDone c k = true → c.original ≠ k →
    s.slot c.original = some u → u.due.level = none → (s.slots.map (·.1)).Nodup →
    happens (.cloneRelease k) s fun t => t.slot k = none ∧ t.slot c.original = some { u with flga := u.flga ||| sl.flga } ∧ t.mm.mem = s.mm.mem) ∧
  (∀ (s : State) k, (s.cloneSet k = none ∨ ∃ c, s.cloneSet k = some c ∧ s.cloneDone c k = false) → idles (.cloneRelease k) s)
  )

/-! ### The Jetty controller, errors and repair as events (R343, R344, R373, R395 to R412) -/

namespace Sys2Proof.Safety
open Sys2Proof.Machine

/-- The Jetty core restarts now, with this cause in the crash header (R343, R344, R409). -/
def restarts (s t : State) (cause : Nat) : Prop :=
  t.dv.jetty.restarting = some s.clock ∧ t.dv.crash.cause = cause ∧ t.dv.crash.rsts = (s.dv.crash.rsts + 1) % 2 ^ 32

/-- One more record of an error with a site in the log, the site at byte 8 of the record (R409). -/
def errorLogged (s t : State) (site : Nat) : Prop :=
  t.dv.crash.errn = cnt (s.dv.crash.errn + 1) ∧ ∃ l, t.dv.crash.errs.find (s.dv.crash.errn % 1728) = some l ∧ l.length = 32 ∧
    l[8]? = some (BitVec.ofNat 8 site)

/-- A command that an engine or a tile has in hand, of a family. -/
def inHand (s : State) (c : Nat) (p : Command → Prop) : Prop := ∃ x ∈ s.en.commands, x.2.ended = false ∧ x.2.cove = c ∧ p x.2

/-- A cove has an entry in the domain of a tag that is lost (20 R364), by the domain that byte `slot` of the site names. -/
def entryIn (s : State) (e : ErrorSite) (c : Nat) : Prop :=
  (e.slot ≤ 1 ∧ ∃ i sl, i < 8 ∧ s.slot (e.unit * 8 + i) = some sl ∧ sl.pl.tag = c) ∨
  ((e.slot = 2 ∨ e.slot = 4) ∧ (c = e.cove ∨ c ∈ e.coves)) ∨
  (e.slot = 2 ∧ ((∃ d ∈ s.mm.dirty, d.1 = c ∧ s.homeSlice (d.2.1 / 64) = e.unit) ∨
    ∃ p ∈ s.mm.pins, (s.ctx p.2.1).tag = c ∧ p.1 * 16 + Config.sliceOf p.2.2 % 16 = e.unit)) ∨
  (e.slot = 3 ∧ inHand s c fun x => x.family = .stream ∧ x.engine % 64 = e.unit) ∨
  (e.slot = 5 ∧ ∃ x ∈ s.en.tides, (x.2.state = .flooding ∨ x.2.state = .ebbing) ∧ (s.ctx (x.1 / 1024)).tag = c) ∨
  ((e.slot = 6 ∨ e.slot = 8) ∧ inHand s c fun x => x.family = .copy ∧ (x.op = 0xBA ↔ e.slot = 8) ∧ tileOf x.slot = e.unit) ∨
  ((e.slot = 7 ∨ 8 < e.slot) ∧ inHand s c fun x => x.family = .coll ∧ x.engine % 12 = e.unit) ∨
  (∃ x ∈ s.mm.tlb, x.tag = c ∧ ((e.slot = 1 ∧ x.unit = e.unit) ∨ (e.slot = 3 ∧ x.unit = strandUnit e.unit) ∨ (e.slot = 5 ∧ x.unit = floodUnit) ∨
    ((e.slot = 7 ∨ 8 < e.slot) ∧ x.unit = collUnit e.unit)))

/-- A failure of a tile is counted now (R399). -/
def failed (s t : State) (tile : Nat) : Prop := s.clock ∈ (t.tile tile).failures

/-- A kill of a cove is under way. -/
def underKill (t : State) (cove : Nat) : Prop := ∃ x ∈ t.mm.kills, x.cove = cove

end Sys2Proof.Safety

/-- R343, R344, R373, R406, R412: the policy posts the record of a trap, and BRK halts the context while any other code ends the launch;
kicks that come too early or too late and exceptions restart the core, after which the slot NEXT runs if it verifies; JFWSEL and the
window name and write the other firmware slot; a rollback request takes every configuration of its context back to its cut, or says
that there is none. Choices of the model in it stand in the assumption log: 11, 52, 53, 54, 92. -/
def Obligations.JettyController : Prop :=
  (∀ (s : State) k sl r, s.slot k = some sl → sl.due.policy = some r → s.dv.jetty.restarting = none →
    (bits r[0] 7 0 = 0x15 → happens (.jettyPolicyTrap k) s fun t => .record sl.pl.ctx r ∈ t.outbox ∧ (t.ctx sl.pl.ctx).halted = true ∧
      t.dv.crash.traps.find (s.dv.crash.trpn % 16) = some r ∧ t.dv.crash.trpn = (s.dv.crash.trpn + 1) % 256 ∧ t.mm = s.mm) ∧
    (bits r[0] 7 0 ≠ 0x15 → ∀ c, s.cfg sl.pl.cfg = some c → happens (.jettyPolicyTrap k) s fun t => .record sl.pl.ctx r ∈ t.outbox ∧
      (t.cfg sl.pl.cfg).map (·.state) = some .ended ∧ t.dv.crash.traps.find (s.dv.crash.trpn % 16) = some r)) ∧
  (∀ (s : State) k, (s.slot k = none ∨ ∃ sl, s.slot k = some sl ∧ (sl.due.policy = none ∨ s.dv.jetty.restarting ≠ none)) →
    idles (.jettyPolicyTrap k) s) ∧
  (∀ (s : State), s.jettyRuns = true →
    (s.dv.jetty.kicked = true → s.clock < s.dv.jetty.lastKick + s.dv.jetty.wmin * 27000 → happens .watchdogKick s fun t => restarts s t 2) ∧
    ((s.dv.jetty.kicked = false ∨ s.dv.jetty.lastKick + s.dv.jetty.wmin * 27000 ≤ s.clock) →
      (s.clock ≤ s.dv.jetty.lastKick + s.dv.jetty.wmax * 27000 →
        happens .watchdogKick s fun t => t.dv.jetty = { s.dv.jetty with lastKick := s.clock, kicked := true }) ∧
      (s.dv.jetty.lastKick + s.dv.jetty.wmax * 27000 < s.clock → happens .watchdogKick s fun t => restarts s t 1)) ∧
    (s.dv.jetty.lastKick + s.dv.jetty.wmax * 27000 < s.clock → happens .watchdogExpiry s fun t => restarts s t 1) ∧
    (s.clock ≤ s.dv.jetty.lastKick + s.dv.jetty.wmax * 27000 → idles .watchdogExpiry s) ∧
    (∀ rec, happens (.firmwareException rec) s fun t => restarts s t 3 ∧ t.dv.crash.excn = (s.dv.crash.excn + 1) % 256 ∧
      ∃ l, t.dv.crash.excs.find (s.dv.crash.excn % 32) = some l ∧ l.length = 256 ∧ (rec.length = 148 → l = rec.take 12 ++
        toBytes 4 (s.fw s.dv.jetty.act).svn ++ toBytes 8 s.ns ++ rec.drop 24 ++ List.replicate 108 0))) ∧
  (∀ (s : State), s.jettyRuns = false → idles .watchdogKick s ∧ idles .watchdogExpiry s ∧ ∀ rec, idles (.firmwareException rec) s) ∧
  (∀ (s : State), s.dv.jetty.restarting ≠ none →
    happens .jettyRestartComplete s fun t => t.dv.jetty.restarting = none ∧ t.dv.jetty.kicked = false ∧ t.dv.jetty.lastKick = s.clock ∧
      t.dv.crash = s.dv.crash ∧ t.mm = s.mm ∧ .due .admission ∈ t.agenda ∧
      (∀ c ∈ s.al.ctxs, c.2.rollbackDue = true → .due (.rollbackRequest c.1) ∈ t.agenda) ∧
      (s.fwPasses s.dv.jetty.next = true → t.dv.jetty.act = s.dv.jetty.next ∧ t.dv.jetty.fail = s.dv.jetty.fail) ∧
      (s.fwPasses s.dv.jetty.next = false → t.dv.jetty.act = s.dv.jetty.act ∧ t.dv.jetty.fail = true)) ∧
  (∀ (s : State), s.dv.jetty.restarting = none → idles .jettyRestartComplete s) ∧
  (∀ (s : State) v, s.barOpen = true → v &&& 0xFFFFFFFFFFF8FF33 = 0 →
    (v.getLsbD 7 = true → s.dv.jetty.restarting = none → happens (.jfwselGo v) s fun t => restarts s t 4 ∧
      t.dv.jetty.next = bit (v.getLsbD 3) ∧ t.dv.jetty.wpg = bits v 18 16 ∧ t.dv.jetty.fail = (s.dv.jetty.fail && !v.getLsbD 6)) ∧
    (v.getLsbD 7 = false → happens (.jfwselGo v) s fun t => t.dv.jetty =
      { s.dv.jetty with wpg := bits v 18 16, next := bit (v.getLsbD 3), fail := s.dv.jetty.fail && !v.getLsbD 6 } ∧ t.dv.crash = s.dv.crash)) ∧
  (∀ (s : State) v, (s.barOpen = true → v &&& 0xFFFFFFFFFFF8FF33 ≠ 0 → happens (.jfwselGo v) s (ignored s)) ∧
    (s.barOpen = false → idles (.jfwselGo v) s)) ∧
  (∀ (s : State) off bytes, (s.barOpen = true → off + bytes.length ≤ 65536 → s.dv.jetty.act ≤ 1 →
      happens (.firmwareWindowWrite off bytes) s fun t => t.fw s.dv.jetty.act = s.fw s.dv.jetty.act ∧
        ∀ i b, bytes[i]? = some b → (t.fw (1 - s.dv.jetty.act)).written.find (65536 * s.dv.jetty.wpg + off + i) = some b) ∧
    ((s.barOpen = false ∨ 65536 < off + bytes.length) → idles (.firmwareWindowWrite off bytes) s)) ∧
  (∀ (s : State) ctx, s.dv.jetty.restarting ≠ none →
    (ctx < 64 → happens (.rollbackRequest ctx) s fun t => t = s.setCtx ctx { s.ctx ctx with rollbackDue := true }) ∧
    (64 ≤ ctx → idles (.rollbackRequest ctx) s)) ∧
  (∀ (s : State) ctx, s.dv.jetty.restarting = none → (s.ctx ctx).rollbackDue = false →
    happens (.rollbackRequest ctx) s fun t => t = (s.ctxCfgs ctx).foldl State.rollback s) ∧
  (∀ (s : State) cfg c, s.cfg cfg = some c → c.state ≠ .ended → c.vld = false →
    (c.rollbackDue = true → c.cutting = true → s.rollback cfg = s) ∧
    ((c.rollbackDue = false ∨ c.cutting = false) → told s (s.rollback cfg) "NOCUT" c.launch.ctx c.launch.ordinal ∧
      (s.rollback cfg).slots = s.slots ∧ (s.rollback cfg).arcs = s.arcs ∧ (s.rollback cfg).mm = s.mm)) ∧
  (∀ (s : State) cfg c, s.cfg cfg = some c → c.state ≠ .ended → c.state ≠ .swapped → c.vld = true → (s.slots.map (·.1)).Nodup →
    .notice "ROLLBACK" c.launch.ordinal c.last ∈ (s.rollback cfg).outbox ∧
    (∀ ks ∈ (s.rollback cfg).slots, ks.2.pl.cfg = cfg → ks.1 ∈ c.slots) ∧
    ∀ k sl v, k ∈ c.slots → s.slot k = some sl → sl.pl.cfg = cfg →
      c.saves.find? (fun (v : Save) => v.part == c.last % 2 && v.copy == 0 && v.inst == sl.pl.inst) = some v →
      ∃ u, (s.rollback cfg).slot k = some u ∧ u.c = v.slot.c ∧ u.sys = v.slot.sys ∧ u.stamp = v.slot.stamp ∧ u.phase = v.slot.phase ∧
        u.rset = v.slot.rset ∧ u.flga = v.slot.flga ∧ u.firing = none) ∧
  (∀ (s : State) cfg c, s.cfg cfg = some c → c.state = .swapped → c.vld = true → ∃ d, (s.rollback cfg).cfg cfg = some d ∧ d.state = .swapped ∧
    d.rollbackDue = true ∧ d.saves.length = c.saves.length ∧
    ∀ (i : Nat) (v u : Save), c.saves[i]? = some v → v.part = 2 →
      c.saves.find? (fun (u : Save) => u.part == c.last % 2 && u.copy == 0 && u.inst == v.inst) = some u →
      ∃ w : Save, d.saves[i]? = some w ∧ w.part = 2 ∧ w.inst = v.inst ∧ w.slot.c = u.slot.c ∧ w.slot.sys = u.slot.sys ∧ w.slot.stamp = u.slot.stamp ∧
        w.slot.phase = u.slot.phase ∧ w.slot.rset = u.slot.rset ∧ w.slot.firing = none)

/-- R396, R397, R409, R410: an injection is armed by its two words; a corrected error is counted; a mismatch at the sites of a core
voids the firing, or kills the cove of one that is irrevocable; a lost line is poisoned; a lost word is fetched again; a lost tag
kills the coves with entries there; a lost transfer takes the configuration back to its cut or kills its cove. R399, R400, R411: a
tile with three failures within 1 ms starts no firing more and its arcs report no space; once its firings have ended a spare takes
its number, or its page becomes unavailable; a die that serves can be drained; once nothing stands on it its home roles go to the
die beside it, and it is reset and returned, or held; a held die returns. Choices of the model in it stand in the assumption log:
55, 56, 57, 93, 95, 113, 114. -/
def Obligations.ErrorsAndRetirement : Prop :=
  (
  (∀ (s : State) inj adr, s.barOpen = true → bits adr 63 52 = 0 →
    (injectOk inj = true → happens (.errorInject inj adr) s fun t => t.dv.errInj = inj ∧ t.dv.errAdr = adr ∧ t.mm = s.mm ∧ t.slots = s.slots) ∧
    (injectOk inj = false → happens (.errorInject inj adr) s fun t => t.dv.errInj = s.dv.errInj ∧ t.dv.errAdr = adr ∧ ignored s t)) ∧
  (∀ (s : State) inj adr, s.barOpen = false → idles (.errorInject inj adr) s) ∧
  (∀ (s : State) (e : ErrorSite), (1 ≤ e.site → e.site ≤ 12 → happens (.correctedError e) s fun t => errorLogged s t e.site ∧ t.mm = s.mm ∧
      t.slots = s.slots ∧ t.arcs = s.arcs ∧ t.tiles = s.tiles) ∧
    ((e.site = 0 ∨ 12 < e.site) → idles (.correctedError e) s ∧ idles (.uncorrectableError e) s)) ∧
  (∀ (s : State) k site sl f, 1 ≤ site → site ≤ 3 → s.slot k = some sl → sl.firing = some f →
    (∀ i, (i = .silentError k site ∨ ∃ e : ErrorSite, e.site = site ∧ e.slot = k ∧ i = .uncorrectableError e) →
      (f.irr = false → happens i s fun t => errorLogged s t site ∧ (t.slot k).map (·.firing) = some none ∧ t.mm = s.mm ∧
        failed s t (tileOf k)) ∧
      (f.irr = true → happens i s fun t => errorLogged s t site ∧ underKill t sl.pl.tag ∧ failed s t (tileOf k)))) ∧
  (∀ (s : State) k site, 1 ≤ site → site ≤ 3 → (∀ sl, s.slot k = some sl → sl.firing = none) →
    ∀ i, (i = .silentError k site ∨ ∃ e : ErrorSite, e.site = site ∧ e.slot = k ∧ i = .uncorrectableError e) →
      happens i s fun t => errorLogged s t site ∧ t.slots = s.slots ∧ t.mm = s.mm ∧ failed s t (tileOf k)) ∧
  (∀ (s : State) k site, site = 0 ∨ 3 < site → idles (.silentError k site) s) ∧
  (∀ (s : State) (e : ErrorSite),
    (e.site = 4 → ∀ i sl, s.slot (e.unit * 8) = some sl → (∀ j, 1 ≤ j → j < 8 → s.slot (e.unit * 8 + j) = none) →
      e.addr = sl.pl.runBase + i → i < sl.pl.runLen → happens (.uncorrectableError e) s fun t => errorLogged s t 4 ∧ t.slots = s.slots ∧
        failed s t e.unit ∧
        t.store.find (e.unit * 32768 + e.addr) = some ((sl.pl.actor.code[i]?).getD 0)) ∧
    (e.site = 5 → ∀ sl, s.slot e.slot = some sl → sl.pl.wtb * 64 ≤ e.addr → e.addr < sl.pl.spb * 64 →
      happens (.uncorrectableError e) s fun t => errorLogged s t 5 ∧ carveKey e.slot e.addr / 64 ∈ t.mm.poisonSram ∧ t.mm.sram = s.mm.sram ∧
      failed s t (tileOf e.slot)) ∧
    (e.site = 5 → ∀ sl, s.slot e.slot = some sl → sl.pl.wtb * 64 ≤ e.addr → sl.pl.spb * 64 ≤ e.addr →
      happens (.uncorrectableError e) s fun t => errorLogged s t 5 ∧ t.mm = s.mm ∧ ∃ u, t.slot e.slot = some u ∧ e.addr / 64 ∈ u.spillBad) ∧
    (e.site = 6 → ∀ sl p, s.slot e.slot = some sl →
      sl.layers.find? (fun p => decide (sl.pl.wtb * 64 + p.off ≤ e.addr ∧ e.addr < sl.pl.wtb * 64 + p.off + p.len)) = some p →
      (s.tide (sl.pl.ctx * 1024 + p.layer)).state ≠ .absent →
      happens (.uncorrectableError e) s fun t => errorLogged s t 6 ∧ carveKey e.slot e.addr / 64 ∈ t.mm.poisonSram ∧
        (t.tide (sl.pl.ctx * 1024 + p.layer)).state = .faulted ∧ (t.tide (sl.pl.ctx * 1024 + p.layer)).stat = 9) ∧
    (e.site = 7 → happens (.uncorrectableError e) s fun t => errorLogged s t 7 ∧ e.addr / 64 ∈ t.mm.poison ∧ t.mm.mem = s.mm.mem) ∧
    (e.site = 8 ∨ e.site = 10 → ∀ sl c, s.slot e.slot = some sl → s.cfg sl.pl.cfg = some c →
      ((c.vld = false ∨ (s.ctx c.launch.ctx).snapRbk = false) → happens (.uncorrectableError e) s fun t => errorLogged s t e.site ∧
        underKill t (s.ctx c.launch.ctx).tag) ∧
      (c.vld = true → (s.ctx c.launch.ctx).snapRbk = true → c.state ≠ .ended → c.state ≠ .swapped → happens (.uncorrectableError e) s fun t =>
        errorLogged s t e.site ∧ .notice "ROLLBACK" c.launch.ordinal c.last ∈ t.outbox)) ∧
    (e.site = 9 → happens (.uncorrectableError e) s fun t => errorLogged s t 9 ∧ (∀ c, entryIn s e c → c ≠ 0 → underKill t c) ∧
      ∀ d, e.cove = 0 → ((e.slot = 0 ∨ e.slot = 1 ∨ e.slot = 6 ∨ e.slot = 8) ∧ d = e.unit / 144 ∨ e.slot = 2 ∧ d = e.unit / 16) → d < 8 →
        nth s.dv.dieState d 0 = 0 → nth t.dv.dieState d 0 = 1) ∧
    (e.site = 11 → happens (.uncorrectableError e) s fun t => errorLogged s t 11 ∧ (e.unit < 12 → (t.link e.unit).up = false ∧
      ∃ l, t.dv.crash.errs.find (s.dv.crash.errn % 1728) = some l ∧ l[11]? = some (if e.unit < 6 then 8 else 9))) ∧
    (e.site = 12 → (e.slot = 1 → happens (.uncorrectableError e) s fun t => errorLogged s t 12 ∧ (t.queue e.unit).state = 2 ∧
        e.addr / 64 ∈ t.mm.poison) ∧
      (e.slot = 2 → ∀ g, (s.ctx e.unit).log = some g → happens (.uncorrectableError e) s fun t => errorLogged s t 12 ∧
        ((t.ctx e.unit).log).map (·.ovf) = some true) ∧
      (e.slot ≠ 1 → e.slot ≠ 2 → happens (.uncorrectableError e) s fun t => errorLogged s t 12 ∧ e.addr / 64 ∈ t.mm.poison))) ∧
  (∀ (s : State) (e : ErrorSite) n, (n = 0 → idles (.dieCrcFailure e n) s) ∧
    (1 ≤ n → n ≤ 8 → happens (.dieCrcFailure e n) s fun t => errorLogged s t 10 ∧ t.mm = s.mm ∧ t.slots = s.slots) ∧
    (8 < n → exec (.dieCrcFailure e n) s = exec (.uncorrectableError { e with site := 10 }) s))
  ) ∧
  (
  (∀ (s : State) tile, tile < 1152 → (s.tile tile).retiring = false → 3 ≤ (s.tile tile).failures.length → s.dv.jetty.restarting = none →
    happens (.tileRetirement tile) s fun t => (t.tile tile).retiring = true ∧ t.mm = s.mm ∧
      (∀ n x, t.arc n = some x → (∃ c, x.consumer = some c ∧ tileOf c.1 = tile) → x.blocked = true) ∧
      ∀ i u f, i < 8 → t.slot (tile * 8 + i) = some u → u.firing = some f → f.irr = true) ∧
  (∀ (s : State) tile, (1152 ≤ tile ∨ (s.tile tile).retiring = true ∨ (s.tile tile).failures.length < 3 ∨ s.dv.jetty.restarting ≠ none) →
    idles (.tileRetirement tile) s) ∧
  (∀ (s : State) tile, (s.tile tile).retiring = true → (∀ i u, i < 8 → s.slot (tile * 8 + i) = some u → u.firing = none) →
    s.dv.jetty.restarting = none →
    (s.sparesUsed (tile / 144) < 4 → happens (.retirementComplete tile) s fun t => (t.tile tile).retiring = false ∧
      (t.tile tile).spare = (s.tile tile).spare + 1 ∧ (t.tile tile).failures = [] ∧ t.slots = s.slots ∧ t.mm = s.mm) ∧
    (4 ≤ s.sparesUsed (tile / 144) → happens (.retirementComplete tile) s fun t => pageOf tile ∈ t.al.offPages)) ∧
  (∀ (s : State) tile, ((s.tile tile).retiring = false ∨ (∃ i u, i < 8 ∧ s.slot (tile * 8 + i) = some u ∧ u.firing ≠ none) ∨
      s.dv.jetty.restarting ≠ none) → idles (.retirementComplete tile) s) ∧
  (∀ (s : State) die hold i, (i = .dieDrainResetReturn die ∧ hold = false) ∨ (i = .dieDrainHold die ∧ hold = true) →
    (s.barOpen = true → die < 8 → nth s.dv.dieState die 0 = 0 →
      happens i s fun t => nth t.dv.dieState die 0 = 1 ∧ nth t.dv.dieHold die false = hold ∧
        ∀ d, d ≠ die → nth t.dv.dieState d 0 = nth s.dv.dieState d 0) ∧
    ((s.barOpen = false ∨ 8 ≤ die ∨ nth s.dv.dieState die 0 ≠ 0) → idles i s)) ∧
  (∀ (s : State) die, (nth s.dv.dieState die 0 ≠ 1 ∨ s.dieEmpty die = false) → s.dieHandover die = s) ∧
  (∀ (s : State) die other, die < 8 → other = (if die % 2 = 0 then die + 1 else die - 1) → nth s.dv.dieState die 0 = 1 → s.dieEmpty die = true →
    (s.dieHandover die).mm.mem = s.mm.mem ∧ (s.dieHandover die).slots = s.slots ∧
    (∀ x ∈ (s.dieHandover die).mm.dirty, s.homeSlice (x.2.1 / 64) / 16 ≠ die) ∧
    (s.atomicsAt die = true ∨ nth s.dv.dieState other 0 ≠ 0 → nth (s.dieHandover die).dv.dieState die 0 = 1) ∧
    (s.atomicsAt die = false → nth s.dv.dieState other 0 = 0 → nth (s.dieHandover die).dv.dieHome die die = other ∧
      nth (s.dieHandover die).dv.dieState die 0 = if nth s.dv.dieHold die false then 3 else 2)) ∧
  (∀ (s : State) die, (s.barOpen = true → die < 8 → s.dieStatus die = 3 → happens (.dieReturn die) s fun t => nth t.dv.dieState die 0 = 0 ∧ nth t.dv.dieHome die die = die ∧
      t.slots = s.slots ∧ t.mm = s.mm) ∧
    ((s.barOpen = false ∨ 8 ≤ die ∨ s.dieStatus die ≠ 3) → idles (.dieReturn die) s)) ∧
  (∀ (s : State) die failed, die < 8 → s.dieStatus die = 2 →
    (happens (.dieResetComplete die failed true) s fun t => nth t.dv.dieState die 0 = 3 ∧ nth t.dv.dieHold die false = true ∧ t.mm = s.mm) ∧
    (happens (.dieResetComplete die [] false) s fun t => nth t.dv.dieState die 0 = 0 ∧ nth t.dv.dieHome die die = die ∧
      (∀ x ∈ t.tiles, x.1 / 144 = die → x.2.running = none ∧ x.2.failures = []) ∧ t.slots = s.slots ∧ t.mm = s.mm)) ∧
  (∀ (s : State) die failed b, (8 ≤ die ∨ s.dieStatus die ≠ 2) → idles (.dieResetComplete die failed b) s)
  )

/-! ### Links, groups and peers as events (R124, R366, R408, R420, R429) -/

namespace Sys2Proof.Safety
open Sys2Proof.Machine

/-- What was held for a peer while its path was down is sent once it stands again (R408). -/
def sentOn (s t : State) (peer : Nat) : Prop :=
  s.pathDown peer = true → ∀ p ∈ s.dv.paths, p.pkg = peer → ∀ e ∈ p.held, e ∈ t.outbox

end Sys2Proof.Safety

/-- R408, R420, R429: a link trains to a peer whose number is locked and differs from the part's own; it retrains at fewer lanes, comes
back at the width it reached or is lost, and a narrowed link tries its full width after 10 s; a path that has been down for 10 ms
discards its held writes and starts the recovery of the groups with that member; a path that a link serves again stands. A group is
set up while it is not enabled, and is enabled with epoch 1 when it has two members or more, this package among them. Choices of the
model in it stand in the assumption log: 66, 67, 117. -/
def Obligations.LinksPathsGroups : Prop :=
  (∀ (s : State) n peer, n < 12 → peer < 256 → s.dv.pkgLock = true → (s.link n).up = false →
    (peer ≠ s.dv.pkg → happens (.linkTraining n peer true) s fun t =>
      t.link n = { up := true, peer := peer, lanes := 16, retraining := false, triedAt := s.clock } ∧ t.pathDown peer = false ∧
        ((∀ p ∈ s.dv.paths, p.heldWrites = []) → t.mm = s.mm) ∧ sentOn s t peer) ∧
    (peer = s.dv.pkg → happens (.linkTraining n peer true) s fun t => t.dv = s.dv ∧
      told s t "same package number at both ends" n peer)) ∧
  (∀ (s : State) n peer b, (12 ≤ n ∨ 256 ≤ peer ∨ s.dv.pkgLock = false ∨ b = false ∨ (s.link n).up = true) → idles (.linkTraining n peer b) s) ∧
  (∀ (s : State) n lanes, n < 12 → (s.link n).up = true → (lanes = 8 ∨ lanes = 4) → lanes ≤ (s.link n).lanes →
    happens (.linkRetrain n lanes) s fun t => t.link n = { s.link n with retraining := true, lanes := lanes, triedAt := s.clock } ∧ t.mm = s.mm) ∧
  (∀ (s : State) n lanes, (12 ≤ n ∨ (s.link n).up = false ∨ (lanes ≠ 8 ∧ lanes ≠ 4) ∨ (s.link n).lanes < lanes) → idles (.linkRetrain n lanes) s) ∧
  (∀ (s : State) n, n < 12 → (s.link n).retraining = true →
    (∀ lanes, (lanes = 4 ∨ lanes = 8 ∨ lanes = 16) → happens (.linkRetrainComplete n lanes) s fun t =>
      t.link n = { s.link n with retraining := false, lanes := lanes } ∧ t.dv.paths = s.dv.paths) ∧
    ((s.link n).up = true → (∀ m, m ≠ n → (s.link m).up = true → (s.link m).peer ≠ (s.link n).peer) →
      happens (.linkRetrainComplete n 0) s fun t => (t.link n).up = false ∧ t.pathDown (s.link n).peer = true)) ∧
  (∀ (s : State) n lanes, (s.link n).retraining = false → idles (.linkRetrainComplete n lanes) s) ∧
  (∀ (s : State) n, n < 12 → (s.link n).up = true → (s.link n).retraining = false → (s.link n).lanes < 16 →
    ((s.link n).triedAt + 27000000000 ≤ s.clock → happens (.linkWidthRetry n) s fun t =>
      t.link n = { s.link n with retraining := true, triedAt := s.clock }) ∧
    (s.clock < (s.link n).triedAt + 27000000000 → idles (.linkWidthRetry n) s)) ∧
  (∀ (s : State) pkg, (∀ p ∈ s.dv.paths, p.pkg = pkg → p.timedOut = false → ∀ d, p.downSince = some d → s.clock < d + 27000000) →
    idles (.pathDownTimeout pkg) s) ∧
  (∀ (s : State) p d, s.dv.paths = [p] → p.timedOut = false → p.downSince = some d → d + 27000000 ≤ s.clock → s.al.cfgs = [] → s.en.groups = [] →
    happens (.pathDownTimeout p.pkg) s fun t => t.slots = s.slots ∧
      t.dv.paths = [{ p with timedOut := true, heldWrites := [], held := p.held.filter fun e => !e.isFlit }] ∧
      (∀ l ∈ t.en.late, paPeer l.q.pa = true → paPkg l.q.pa ≠ p.pkg) ∧
      ∀ (ws : List (Nat × Nat × Nat × Byte)) tag gen a b, s.mm.mem.wf = true → p.heldWrites = ws ++ [(tag, gen, a, b)] → t.mm.mem.byte a = b) ∧
  (∀ (s : State) p d g x, s.dv.paths = [p] → p.timedOut = false → p.downSince = some d → d + 27000000 ≤ s.clock → s.al.cfgs = [] →
    s.en.groups = [(g, x)] → x.en = true → x.members.contains p.pkg = true → x.recovery = none →
    happens (.pathDownTimeout p.pkg) s fun t => (t.group g).recovery = some (x.epoch, true, s.clock + 2700000)) ∧
  (∀ (s : State) pkg, (∃ l ∈ s.dv.links.toList, l.up = true ∧ l.retraining = false ∧ l.peer = pkg) →
    happens (.pathRestored pkg) s fun t => t.pathDown pkg = false ∧ t.dv.links = s.dv.links ∧ ((∀ p ∈ s.dv.paths, p.heldWrites = []) → t.mm = s.mm) ∧
      sentOn s t pkg) ∧
  (∀ (s : State) pkg, (∀ l ∈ s.dv.links.toList, l.up = true → l.peer = pkg → l.retraining = true) → idles (.pathRestored pkg) s) ∧
  (∀ (s : State) n v, s.barOpen = true → n < 256 → (s.group n).en = false →
    (v &&& 0x7FFFFFC000000000 = 0 →
      (v.getLsbD 63 = true → 2 ≤ (s.group n).members.length → (s.group n).members.contains s.dv.pkg = true →
        happens (.collgrpWrite (0x1A0000 + 64 * n) v) s fun t =>
          t.group n = { s.group n with en := true, ctx := bits v 37 32, epoch := 1 } ∧ t.mm = s.mm) ∧
      (v.getLsbD 63 = true → ((s.group n).members.length < 2 ∨ (s.group n).members.contains s.dv.pkg = false) →
        happens (.collgrpWrite (0x1A0000 + 64 * n) v) s (ignored s)) ∧
      (v.getLsbD 63 = false → happens (.collgrpWrite (0x1A0000 + 64 * n) v) s fun t => (t.group n).en = false ∧ (t.group n).ctx = bits v 37 32)) ∧
    (v &&& 0x7FFFFFC000000000 ≠ 0 → happens (.collgrpWrite (0x1A0000 + 64 * n) v) s (ignored s)) ∧
    (∀ i : Nat, i < 4 → happens (.collgrpWrite (0x1A0000 + 64 * n + 8 * (i + 1)) v) s fun t =>
      (t.group n).mbr.extractLsb' (64 * i) 64 = v ∧ ∀ j, j < 4 → j ≠ i →
        (t.group n).mbr.extractLsb' (64 * j) 64 = (s.group n).mbr.extractLsb' (64 * j) 64)) ∧
  (∀ (s : State) n i v, s.barOpen = true → n < 256 → (s.group n).en = true → i < 4 → (s.group n).mbr.extractLsb' (64 * i) 64 ≠ v →
    happens (.collgrpWrite (0x1A0000 + 64 * n + 8 * (i + 1)) v) s (ignored s)) ∧
  (∀ (s : State) off v, (s.barOpen = false ∨ off < 0x1A0000 ∨ 0x1A4000 ≤ off ∨ off % 8 ≠ 0) → idles (.collgrpWrite off v) s) ∧
  (∀ (s : State) pkg cove gen pa bytes, s.pathDown pkg = false → pa + bytes.length ≤ 2 ^ 40 → s.mm.splices = [] → s.mm.mem.wf = true →
    ((∀ i, i < bytes.length → s.peerTakes pkg (pa + i) cove gen = true) →
      happens (.peerWrite pkg cove gen pa bytes) s fun t => t.slots = s.slots ∧ (∀ i b, bytes[i]? = some b → t.mm.mem.byte (pa + i) = b) ∧
        ∀ a, (a < pa ∨ pa + bytes.length ≤ a) → t.mm.mem.byte a = s.mm.mem.byte a) ∧
    ((∀ i, i < bytes.length → s.peerTakes pkg (pa + i) cove gen = false) →
      happens (.peerWrite pkg cove gen pa bytes) s fun t => t.mm.mem = s.mm.mem ∧ t.slots = s.slots)) ∧
  (∀ (s : State) pkg cove gen pa bytes, s.pathDown pkg = false → pa + bytes.length ≤ 2 ^ 40 → s.mm.splices = [] →
    (∀ i, i < bytes.length → s.peerTakes pkg (pa + i) cove gen = true) →
    happens (.peerWrite pkg cove gen (2 ^ 52 + pa) bytes) s fun t => ∀ i, i < bytes.length → (pa + i) / 64 ∈ t.mm.poison) ∧
  (∀ (s : State) pkg cove gen pa bytes, (s.pathDown pkg = true ∨ (bytes ≠ [] ∧ 2 ^ 40 ≤ pa ∧ pa < 2 ^ 50)) →
    idles (.peerWrite pkg cove gen pa bytes) s)

/-! ### The Lighthouse and the board as events (R389 to R394, R426, R434) -/

namespace Sys2Proof.Safety
open Sys2Proof.Machine

/-- A request is answered, and nothing else changes. -/
def answers (i : Instr) (s : State) (what : String) (bs : List Byte) : Prop :=
  exec i s = .next { s with outbox := .reply what bs :: s.outbox }

/-- A request whose answer is signed: refused with the seed erased or while another is being signed, else it starts to be signed. -/
def signs (i : Instr) (s : State) (kind : Nat) (bs : List Byte) : Prop :=
  (s.dv.lh.erased = true → answers i s "ERROR Unspecified" []) ∧
  (s.dv.lh.erased = false → s.dv.lh.signing ≠ none → answers i s "ERROR ResponseNotReady" []) ∧
  (s.dv.lh.erased = false → s.dv.lh.signing = none → exec i s = .next { s with dv.lh.signing := some (kind, bs) })

end Sys2Proof.Safety

/-- R389 to R394, R426, R434: a sensor trip sets its alarm bit and takes the action that LHPOL names; the requests of the SPDM responder
are answered, those that carry a signature once it is made; IDE keys are set after authentication; the monitor reports LHSTS last.
Choices of the model in it stand in the assumption log: 26, 68, 70, 116. -/
def Obligations.LighthouseAnswers : Prop :=
  (∀ (s : State) sensor,
    (s.sensorAction sensor = 0 → happens (.sensorTrip sensor) s fun t => t.dv.lh.alrm = s.dv.lh.alrm ||| BitVec.ofNat 3 (2 ^ alarmBit sensor) ∧
      t.dv.lh.frozen = s.dv.lh.frozen ∧ t.dv.lh.erased = s.dv.lh.erased ∧ t.mm = s.mm ∧
      (s.dv.lh.frozen = false → s.jettyRuns = true → told s t "sensor trip" (alarmBit sensor) 0) ∧
      ((s.dv.lh.frozen = true ∨ s.jettyRuns = false) → t.outbox = s.outbox)) ∧
    (s.sensorAction sensor = 1 → happens (.sensorTrip sensor) s fun t => t.dv.lh.alrm = s.dv.lh.alrm ||| BitVec.ofNat 3 (2 ^ alarmBit sensor) ∧
      t.dv.lh.frozen = true ∧ t.dv.lh.erased = s.dv.lh.erased ∧ t.mm = s.mm) ∧
    (2 ≤ s.sensorAction sensor → happens (.sensorTrip sensor) s fun t => t.dv.lh.alrm = s.dv.lh.alrm ||| BitVec.ofNat 3 (2 ^ alarmBit sensor) ∧
      t.dv.lh.frozen = true ∧ t.dv.lh.erased = true ∧ t.mm = s.mm ∧ t.dv.lh.seed = List.replicate 48 0 ∧ t.dv.lh.signing = none ∧
      t.dv.lh.publicKey = s.dv.lh.publicKey ∧
      (s.dv.lh.signing ≠ none → t.outbox = .reply "ERROR Unspecified" [] :: s.outbox) ∧ (s.dv.lh.signing = none → t.outbox = s.outbox))) ∧
  (∀ (s : State), answers .getVersion s "VERSION" [0x13] ∧ answers .getCapabilities s "CAPABILITIES" [] ∧
    answers .negotiateAlgorithms s "ALGORITHMS SHA-256" [1, 0] ∧
    answers .getDigests s "DIGESTS" (digestBytes (sha256 (Config.certificateChain s.dv.lh.publicKey))) ∧
    answers .getCertificate s "CERTIFICATE" (Config.certificateChain s.dv.lh.publicKey) ∧ answers .mctpControlMessage s "MCTP control" []) ∧
  (∀ (s : State) nonce, signs (.challenge nonce) s 1 (digestBytes nonce ++ s.dv.lh.meas.toList.flatMap digestBytes)) ∧
  (∀ (s : State) i d, 1 ≤ i → i ≤ 5 → s.dv.lh.meas.toList[i - 1]? = some d →
    answers (.getMeasurements i false) s "MEASUREMENTS" (digestBytes d) ∧ signs (.getMeasurements i true) s 2 (digestBytes d)) ∧
  (∀ (s : State) b, (s.selectedManifest ≠ [] → signs (.getMeasurements 0xF0 b) s 2 s.selectedManifest) ∧
    (s.selectedManifest = [] → signs (.getMeasurements 0xF0 true) s 2 [] ∧
      (s.dv.lh.erased = false → answers (.getMeasurements 0xF0 false) s "MEASUREMENTS" []) ∧
      (s.dv.lh.erased = true → answers (.getMeasurements 0xF0 false) s "ERROR Unspecified" []))) ∧
  (∀ (s : State) i b, (i = 0 ∨ 5 < i) → i ≠ 0xF0 → answers (.getMeasurements i b) s "ERROR InvalidRequest" []) ∧
  (∀ (s : State) kind bs, s.dv.lh.signing = some (kind, bs) →
    let sig := slhSign slh128f s.dv.lh.seed (toBytes 16 (Config.signRandom s.freeCtr).toNat) bs
    happens .signingComplete s fun t => t.dv.lh.signing = none ∧ t.mm = s.mm ∧
      (kind = 1 → t.dv.host.authed = true ∧ t.outbox = .reply "CHALLENGE_AUTH" (bs ++ sig) :: s.outbox) ∧
      (kind = 2 → t.dv.host.authed = s.dv.host.authed ∧
        t.outbox = .reply "MEASUREMENTS signed" (bs ++ sig) :: s.outbox)) ∧
  (∀ (s : State), s.dv.lh.signing = none → idles .signingComplete s) ∧
  (∀ (s : State) stream key, (stream ≤ 4 → s.dv.host.authed = true → happens (.ideKmRequest stream key) s fun t =>
      t.dv.host.ideKeys.find stream = some key ∧ t.mm = s.mm ∧ t.outbox = .reply "IDE_KM key set" (toBytes 1 stream) :: s.outbox) ∧
    ((4 < stream ∨ s.dv.host.authed = false) → answers (.ideKmRequest stream key) s "IDE_KM refused" (toBytes 1 stream))) ∧
  (∀ (s : State), ∃ bs, answers .pldmMonitorRequest s "PLDM" (bs ++ toBytes 8 s.dv.lh.status.toNat))

/-! ### The host as events: halts, windows, registers, power and boot (R5, R383, R384, R398, R426 to R433) -/

namespace Sys2Proof.Safety
open Sys2Proof.Machine

/-- Everything that a reset takes away is gone: no slot, arc, queue, configuration, context, kill or command (R432). -/
def cleared (t : State) : Prop :=
  t.slots = [] ∧ t.arcs = [] ∧ t.fe.queues = [] ∧ t.al.cfgs = [] ∧ t.al.launches = [] ∧ t.al.ctxs = [] ∧ t.mm.kills = [] ∧ t.mm.homeGen = [] ∧
    t.en.commands = [] ∧ t.dv.lh.stage = 0 ∧ t.dv.host.authed = false ∧ t.dv.host.ideKeys = []

/-- The firmware slot from which the part boots: it passes, and the other one does not, or has a lower SVN, or the same where this is slot 0
(R387, R412). -/
def bootsFrom (s : State) (n : Nat) : Prop :=
  n < 2 ∧ s.fwPasses n = true ∧
    (s.fwPasses (1 - n) = false ∨ (s.fw (1 - n)).svn < (s.fw n).svn ∨ (n = 0 ∧ (s.fw 0).svn = (s.fw 1).svn))

/-- A queue stands at STATE 0 with nothing fetched (R432). -/
def dropped (t : State) (q : Nat) : Prop := (t.queue q).state = 0 ∧ (t.queue q).packets = []

end Sys2Proof.Safety

/-- R5, R383, R384, R398, R427: a halt freezes every slot of its context and a release frees them; bytes of HBM are written and read
through BAR4; a register write takes effect with legal bits, is ignored as a whole and counted with others, and has no effect while
the part is frozen. R387, R389, R426, R430 to R433: power, the fundamental reset, the boot and function-level resets. The boot runs
the firmware slot of the higher SVN that verifies, with local memory zeroed, and stops at STAGE 0xF with none or where the
Lighthouse firmware fails; rails that break their order hold the part in reset until power is lost. Choices of the model in it stand
in the assumption log: 10, 11, 21, 65, 69, 95, 129. -/
def Obligations.HostAccessPowerAndBoot : Prop :=
  (
  (∀ (s : State) ctx, s.barOpen = true → ctx < 64 →
    ((s.ctx ctx).halted = false → happens (.debugHalt ctx) s fun t => (t.ctx ctx).halted = true ∧ (t.ctx ctx).haltDone = false ∧ t.mm = s.mm ∧
      ∀ k sl, t.slot k = some sl → sl.pl.ctx = ctx → sl.due.frozen = true) ∧
    ((s.ctx ctx).halted = true → idles (.debugHalt ctx) s) ∧
    ((s.ctx ctx).halted = true → happens (.debugRelease ctx) s fun t => (t.ctx ctx).halted = false ∧ (t.ctx ctx).haltDone = false ∧ t.mm = s.mm ∧
      ∀ k sl, t.slot k = some sl → sl.pl.ctx = ctx → sl.due.frozen = false) ∧
    ((s.ctx ctx).halted = false → idles (.debugRelease ctx) s)) ∧
  (∀ (s : State) ctx, (s.barOpen = false ∨ 64 ≤ ctx) → idles (.debugHalt ctx) s ∧ idles (.debugRelease ctx) s) ∧
  (∀ (s : State) ctx, ((s.ctx ctx).halted = true → happens (.haltStopped ctx) s fun t => (t.ctx ctx).haltDone = true ∧ (t.ctx ctx).halted = true ∧
      t.slots = s.slots) ∧
    ((s.ctx ctx).halted = false → idles (.haltStopped ctx) s)) ∧
  (∀ (s : State) off bytes, s.barOpen = true → off + bytes.length ≤ 2 ^ s.dv.host.bar4Log → s.dv.host.bar4Log ≤ 40 → s.mm.splices = [] → s.mm.mem.wf = true →
    (∀ i, i < bytes.length → s.homeTakes (off + i) 0 0 = true) →
    happens (.hostBar4Write off bytes) s fun t => t.slots = s.slots ∧ (∀ i b, bytes[i]? = some b → t.mm.mem.byte (off + i) = b) ∧
      ∀ a, (a < off ∨ off + bytes.length ≤ a) → t.mm.mem.byte a = s.mm.mem.byte a) ∧
  (∀ (s : State) off len, s.barOpen = true → off + len ≤ 2 ^ s.dv.host.bar4Log →
    ((∀ i, i < len → s.mm.poison.contains ((off + i) / 64) = false) →
      answers (.hostBar4Read off len) s "BAR4 data" ((List.range len).map fun i => s.mm.mem.byte (off + i))) ∧
    ((∃ i, i < len ∧ s.mm.poison.contains ((off + i) / 64) = true) →
      answers (.hostBar4Read off len) s "BAR4 data EP" ((List.range len).map fun i => s.mm.mem.byte (off + i)))) ∧
  (∀ (s : State) off bytes, (s.barOpen = false ∨ 2 ^ s.dv.host.bar4Log < off + bytes.length) →
    idles (.hostBar4Write off bytes) s ∧ idles (.hostBar4Read off bytes.length) s) ∧
  (∀ (s : State) n off, (30 ≤ n → n ≤ 40 → s.sizeBar4 n = { s with dv.host.bar4Log := n }) ∧ ((n < 30 ∨ 40 < n) → s.sizeBar4 n = s) ∧
    (s.barOpen = true → off < 2 ^ s.dv.host.bar4Log → s.bar4Atomic off = { s with outbox := .reply "BAR4 Unsupported Request" [] :: s.outbox })) ∧
  (∀ (s : State) bar off v, (s.barOpen = false ∨ off % 8 ≠ 0 ∨ (bar ≠ 0 ∧ bar ≠ 2)) →
    idles (.registerWrite bar off v) s) ∧
  (∀ (s : State) v, s.barOpen = true →
    (v &&& 0xFFFFFFFFFFF0FEFE = 0 → bits v 19 16 ≠ 0 → happens (.registerWrite 0 0x100000 v) s fun t =>
      t.al.bypl = bits v 19 16 ∧ t.al.recl = v.getLsbD 8 ∧ t.al.rben = v.getLsbD 0 ∧ t.readBar0 0x100000 = v ∧ t.mm = s.mm) ∧
    ((v &&& 0xFFFFFFFFFFF0FEFE ≠ 0 ∨ bits v 19 16 = 0) → happens (.registerWrite 0 0x100000 v) s (ignored s))) ∧
  (∀ (s : State) v, s.barOpen = true → s.dv.pkgLock = false →
    (v &&& 0xFFFFFFFFFFFFFE00 = 0 → happens (.registerWrite 0 0x108 v) s fun t => t.dv.pkg = bits v 7 0 ∧ t.dv.pkgLock = v.getLsbD 8 ∧
      t.readBar0 0x108 = v) ∧
    (v &&& 0xFFFFFFFFFFFFFE00 ≠ 0 → happens (.registerWrite 0 0x108 v) s (ignored s))) ∧
  (∀ (s : State) v, s.barOpen = true → s.dv.pkgLock = true → v &&& 0xFFFFFFFFFFFFFE00 = 0 → idles (.registerWrite 0 0x108 v) s) ∧
  (∀ (s : State) n v, s.barOpen = true → n < 64 → v &&& 0xFFFFFFFFFFFF0000 = 0 →
    happens (.registerWrite 0 (0x100100 + 8 * n) v) s fun t => (t.ctx n).cap = bits v 15 0 ∧ t.readBar0 (0x100100 + 8 * n) = v) ∧
  (∀ (s : State) v, s.barOpen = true → s.dv.jetty.lock = false →
    (v &&& 0xFFFFFFFE00000000 = 0 → 2 ≤ bits v 31 16 → bits v 15 0 < bits v 31 16 → happens (.registerWrite 0 0x110000 v) s fun t =>
      t.dv.jetty = { s.dv.jetty with wmin := bits v 15 0, wmax := bits v 31 16, lock := v.getLsbD 32 } ∧ t.readBar0 0x110000 = v) ∧
    ((v &&& 0xFFFFFFFE00000000 ≠ 0 ∨ bits v 31 16 < 2 ∨ bits v 31 16 ≤ bits v 15 0) →
      happens (.registerWrite 0 0x110000 v) s (ignored s))) ∧
  (∀ (s : State) q v, s.barOpen = true → q < 64 → (s.queue q).state = 0 →
    happens (.registerWrite 2 (0x10000 + 256 * q) v) s fun t => (t.queue q).rbase = v.toNat ∧ t.readBar2 (0x10000 + 256 * q) = v) ∧
  (∀ (s : State) q w v, s.barOpen = true → q < 64 → w < 32 → (s.queue q).state ≠ 0 →
    happens (.registerWrite 2 (0x10000 + 256 * q + 8 * w) v) s fun t => ignored s t ∧ t.dv.rsvBar = true)
  ) ∧
  (
  (∀ (s : State), (s.dv.host.power = false → happens .powerUp s fun t => t.dv.host.power = true ∧ t.dv.host.perst = true ∧ t.slots = s.slots) ∧
    (s.dv.host.power = true → idles .powerUp s)) ∧
  (∀ (s : State), happens .powerLoss s fun t => cleared t ∧ t.dv.host.power = false ∧ t.dv.host.railsBroken = false ∧ t.fe.capture = [] ∧ t.dv.jetty.lock = false ∧
    t.dv.crash.rsts = 0 ∧ t.mm.sram = [] ∧ (s.mm.mem.wf = true → ∀ a, paLocal a = true → t.mm.mem.byte a = 0) ∧
    t.dv.lh.fuses = s.dv.lh.fuses ∧ t.dv.lh.erased = s.dv.lh.erased ∧ t.dv.lh.seed = s.dv.lh.seed ∧ t.dv.lh.publicKey = s.dv.lh.publicKey) ∧
  (∀ (s : State), (s.dv.host.power = true → happens .perstAssert s fun t => cleared t ∧ t.dv.host.perst = true ∧ t.dv.host.power = true ∧
      t.fe.capture = s.fe.capture ∧ t.dv.crash = s.dv.crash ∧ t.dv.lh.frozen = s.dv.lh.frozen ∧ t.dv.lh.alrm = s.dv.lh.alrm ∧
      t.dv.lh.erased = s.dv.lh.erased ∧ t.dv.lh.seed = s.dv.lh.seed ∧ t.dv.lh.publicKey = s.dv.lh.publicKey) ∧
    (s.dv.host.power = false → idles .perstAssert s)) ∧
  (∀ (s : State), (s.dv.host.power = true → s.dv.host.perst = true → s.dv.host.railsBroken = false →
      happens .perstDeassert s fun t => t.dv.host.perst = false ∧ t.clock = 0 ∧ t.dv.lh.stage = 0) ∧
    ((s.dv.host.power = false ∨ s.dv.host.perst = false ∨ s.dv.host.railsBroken = true) → idles .perstDeassert s)) ∧
  (∀ (s : State), s.agenda = [.railsBreak] → ∃ t, step s = .next t ∧ t.dv.host.railsBroken = true ∧ t.dv.host.perst = true ∧ t.still = true) ∧
  (∀ (s : State), s.bootHeld = true → s.bootStep = s) ∧
  (∀ (s : State), s.bootHeld = false →
    (s.dv.lh.stage = 0 → s.bootStep = { s with dv.lh.meas := s.bootMeasurements, dv.lh.stage := if s.dv.lh.accepts s.dv.lh.image then 1 else 0xF } ∧
      s.bootMeasurements.toList[1]? = some s.dv.lh.image.digest ∧
      s.bootMeasurements.toList[3]? = some (sha256 (Config.fuseBytes Config.vendorKeyHash s.dv.lh.fuses.val s.spareMap))) ∧
    (s.dv.lh.stage = 1 → s.fwPasses 0 = false → s.fwPasses 1 = false → s.bootStep = { s with dv.lh.stage := 0xF }) ∧
    (∀ n, s.dv.lh.stage = 1 → bootsFrom s n → s.bootStep.dv.lh.stage = 2 ∧ s.bootStep.dv.jetty.act = n ∧ s.bootStep.dv.jetty.next = n ∧
      s.bootStep.dv.lh.meas.toList[2]? = some (s.fw n).digest) ∧
    (s.dv.lh.stage = 2 → s.bootStep = s)) ∧
  (∀ (s : State), s.bootHeld = false → ((s.dv.lh.stage = 0 ∧ s.dv.lh.accepts s.dv.lh.image = false) ∨
      ((s.dv.lh.stage = 0 ∨ s.dv.lh.stage = 1) ∧ s.fwPasses 0 = false ∧ s.fwPasses 1 = false)) →
    happens .bootReady s fun t => t.dv.lh.stage = 0xF ∧ t.mm = s.mm) ∧
  (∀ (s : State) n, s.bootHeld = false → s.dv.jetty.restarting = none →
    ((s.dv.lh.stage = 0 ∧ s.dv.lh.accepts s.dv.lh.image = true ∧ bootsFrom s n) ∨ (s.dv.lh.stage = 1 ∧ bootsFrom s n) ∨
      (s.dv.lh.stage = 2 ∧ s.dv.jetty.act = n)) →
    happens .bootReady s fun t => t.dv.lh.stage = 3 ∧ t.dv.jetty.act = n ∧ t.mm.sram = [] ∧
      (s.mm.mem.wf = true → ∀ a, paLocal a = true → t.mm.mem.byte a = 0) ∧ (∀ a, paLocal a = false → t.mm.mem.byte a = s.mm.mem.byte a) ∧
      (∀ x ∈ s.dv.testFailed, (t.tile x).failures = [s.clock, s.clock, s.clock] ∧ .due (.tileRetirement x) ∈ t.agenda) ∧
      told s t "ready" n 0) ∧
  (∀ (s : State), (s.dv.host.power = false ∨ s.dv.host.perst = true ∨ s.dv.lh.frozen = true ∨ 2 < s.dv.lh.stage) → idles .bootReady s) ∧
  (∀ (s : State), happens .pfFlr s fun t => (∀ q, dropped t q) ∧ t.dv.rsvCnt = 0 ∧ (s.dv.jetty.restarting = none → restarts s t 0) ∧
    t.fe.capture = [] ∧ ((∀ c ∈ s.al.ctxs, c.2.tag = 0) → t.outbox = .notice "FLR complete" 0 0 :: s.outbox) ∧
    ∀ c ∈ s.al.ctxs, c.2.tag ≠ 0 → underKill t c.2.tag) ∧
  (∀ (s : State) vf, 1 ≤ vf → vf < 64 →
    ((s.ctx vf).tag = 0 → happens (.vfFlr vf) s fun t => t.outbox = .notice "FLR complete" vf 0 :: s.outbox ∧
      ∀ q, (s.queue q).ctx = vf → dropped t q) ∧
    ((s.ctx vf).tag ≠ 0 → happens (.vfFlr vf) s fun t => (∀ q, (s.queue q).ctx = vf → dropped t q) ∧
      ∃ x ∈ t.mm.kills, x.cove = (s.ctx vf).tag ∧ vf ∈ x.flrs)) ∧
  (∀ (s : State) vf, vf = 0 ∨ 64 ≤ vf → idles (.vfFlr vf) s) ∧
  (∀ (s : State) rate width, s.dv.host.power = true → (rate = 128 ∨ rate = 64 ∨ rate = 32) → (width = 16 ∨ width = 8 ∨ width = 4) →
    happens (.hostLinkTraining rate width) s fun t => t.dv.host.rate = rate ∧ t.dv.host.width = width ∧ t.mm = s.mm ∧
      ((rate < 128 ∨ width < 16) → s.dv.lh.frozen = false →
        told s t "host link at reduced bandwidth" rate width) ∧
      (rate = 128 → width = 16 → t.outbox = s.outbox)) ∧
  (∀ (s : State) rate width, (s.dv.host.power = false ∨ (rate ≠ 128 ∧ rate ≠ 64 ∧ rate ≠ 32) ∨ (width ≠ 16 ∧ width ≠ 8 ∧ width ≠ 4)) →
    idles (.hostLinkTraining rate width) s)
  )

/-! ### Words, the step, reset and the whole machine (R62, R63, R68, R96, 03, 16, 18, 22, 26) -/

namespace Sys2Proof.Safety
open Sys2Proof.Machine

/-- The modifier byte with every field 0. -/
def noMods : Mods := { rnd := .dyn, sat := false, na := false, nb := false, nc := false, w := false }

/-- The word at the pc of the firing that runs on tile `t` is about to be fetched by a step: the core of `t` stands first on the agenda, the
part does not hold still, the firing is within its length and does not give way, and its index lies in the run. `u` is the state
that the fetch is in. -/
def fetches (s : State) (t : Nat) (u : State) (k : Nat) (sl : Slot) (f : Firing) : Prop :=
  (∃ rest, s.agenda = .core t :: rest ∧ u = { s with agenda := rest, focus := t }) ∧ s.still = false ∧ Running u k sl f ∧
    f.ran ≤ sl.pl.actor.len ∧ u.givesWay t = none ∧ inRun sl f.pc = true

end Sys2Proof.Safety

/-- R63, R65, R66, R68: words of each format and what they stand for; and two words that no instruction has. -/
def Obligations.WordsStandForInstructions : Prop :=
  decode 0x1040304050000000 = .ok (.add { guard := .always, ty := .i32, d := .g 3, a := .g 4, b := .g 5, c := .g 0, pm := 0, mods := noMods }) ∧
  decode 0x2700304FFFD00000 = .ok (.addi { guard := .always, ty := .i8, d := .g 3, a := .g 4, imm := 0xFFFD, pm := 0, mods := noMods }) ∧
  decode 0x8060604051003000 = .ok (.ld { guard := .always, ty := .i64, d := .g 6, base := .g 4, index := .g 5, disp := 16, pm := 0, sp := .global, scl := 3, co := false, ns := false }) ∧
  decode 0x43C47894247340C5 = .ok (.vfma { guard := .cond true 5, ty := .f32, d := .v 7, a := .vi 9, b := .v 2, c := .v 7, pm := 3, mods := { noMods with rnd := .rtz } }) ∧
  decode 0x081FFFFFFFFFFB82 = .ok (.loop { guard := .cond false 2, sel := 7, disp := 0x3FFFFFFFFFB }) ∧
  decode 0x2F07000000000400 = .ok (.lil { guard := .always, d := .g 7, imm := 4 }) ∧
  decode 0x90C4420010300000 = .ok (.recv { guard := .always, ty := .f32, d := .v 4, arc := 2, count := 1, off := 3, pm := 0, mods := noMods }) ∧
  decode 0x9860304050000400 = .ok (.aadd { guard := .always, ty := .i64, d := .g 3, a := .g 4, b := .g 5, c := .g 0, pm := 0, rnd := .dyn, sat := false, order := .acq }) ∧
  decode 0xA80F000000000000 = .ok (.fence { guard := .always, sub := 15, sysreg := 0, gr := .g 0 }) ∧
  decode 0xB840500007800000 = .ok (.cpy { guard := .always, tl := 2, deferred := false, desc := .g 5, len := .g 0, bar := 7, bw := true, flags := 0 }) ∧
  decode 0x71AA5044C4600000 = .ok (.mmag { guard := .always, tyA := .bf16, tyB := .bf16, acc := 1, am := .add, a := .g 4, b := .v 12, kidx := 0x46, pm := 0, mods := noMods }) ∧
  decode 0x3A40304000D04000 = .ok (.fcvt { guard := .always, ty := .i32, src := .f64, d := .g 3, a := .g 4, b := .g 0, pm := 0, mods := { noMods with rnd := .rtz } }) ∧
  decode 0xD40500F050000000 = .ok (.mfsr { guard := .always, sub := 5, sysreg := 15, gr := .g 5 }) ∧
  decode 0 = .error .opcode ∧ decode 0xFFFFFFFFFFFFFFFF = .error .opcode

/-- R62, R63: a word that decodes is the encoding of what it decodes to, which is well formed; so no two words stand for one
instruction. -/
def Obligations.AcceptedWordsEncode : Prop :=
  ∀ (w : Dword) (i : Instr), decode w = .ok i → i.wellFormed = true ∧ encode i = some w

/-- R62, R63: decoding the word of a well-formed instruction gives that instruction, whatever its operands; and every well-formed
instruction of an encoded row has a word. -/
def Obligations.EncodedInstructionsDecode : Prop :=
  ∀ i : Instr, i.wellFormed = true → (∀ w, encode i = some w → decode w = .ok i) ∧ (i.parts.isSome = true → (encode i).isSome = true)

/-- R62, R96: a step of a tile's core runs the instruction that the word at the pc decodes to. A word that does not decode traps with
the code of the step of R62 that refused it and the word, and an index outside the run traps 0x09 with the index. An error injection
that is armed (23 R410) for the tile's next operation is made before the operation where it corrupts that beyond correction, and
after it where it is corrected; with none armed the step is the instruction's effect. An atomic that the firing has performed ahead
of its turn (log 133) has its result at hand when its index comes up. What the reads and writes of the move were to pass over (log
100) has been passed over after it. Choices of the model in it stand in the assumption log: 1, 56, 77, 78, 133. -/
def Obligations.AStepRunsTheWordAtThePc : Prop :=
  ∀ s t u k sl f, fetches s t u k sl f →
    (s.dv.errInj.getLsbD 63 = false →
      (∀ i, decode (u.fetch t f.pc) = .ok i →
        (f.ahead.find? (fun x => x.1 == f.pc) = none → step s = passedOver (exec i u)) ∧
        (∀ x, f.ahead.find? (fun x => x.1 == f.pc) = some x → step s = passedOver (exec i (u.putFiring k sl
          { f with request := some x.2, ahead := f.ahead.filter (fun y => y.1 != f.pc),
                   ordinals := f.ordinals.put x.2.site ((f.ordinals.find x.2.site).getD 0 + 1) })))) ∧
      (∀ e, decode (u.fetch t f.pc) = .error e → step s = passedOver (traps u k { code := e.code, info := u.fetch t f.pc }))) ∧
    (u.opStruck (tileOf k) = true → step s = passedOver (.next (u.makeError k (u.slotCove k)))) ∧
    (u.armedAt 1 (tileOf k) = true → u.opStruck (tileOf k) = false → ∀ i v, decode (u.fetch t f.pc) = .ok i → f.ahead = [] →
      exec i u = .next v → v.dv.errInj = u.dv.errInj → step s = passedOver (.next (v.makeError k (u.slotCove k)))) ∧
    (∀ pc : Nat, inRun sl pc = false → u.runAt k sl { f with pc := pc } = .next (u.takeTrap k { code := 0x09, info := BitVec.ofNat 64 pc }))

/-- R62, R68: an instruction whose guard is false, met at a boundary, has no effect: the firing moves to the next index and counts it.
And a word's instruction goes on whenever a firing runs: it stops only where there is none. Choices of the model in it stand in the
assumption log: 4. -/
def Obligations.GuardsSkip : Prop :=
  ∀ s i op o, i.parts = some (op, o) →
    (∀ k sl f, Running s k sl f → f.grind = 0 → f.begun = false → s.guardHolds sl f (operandGuard o) = false →
      exec i s = .next (s.putFiring k sl f.advance)) ∧
    (∀ k sl f, Running s k sl f → ∃ t, exec i s = .next t) ∧
    (s.current = none → exec i s = .fault .noFiring)

/-- R207 to R246: the arithmetic, conversion and vector instructions (opcodes 0x10 to 0x6F) change registers only: general, vector and
predicate registers and the flags of FCSR, or they trap. Accumulators, condition bits, every other system register, memory and all
else stand as they were. -/
def Obligations.RegisterInstructionsChangeRegistersOnly : Prop :=
  ∀ s k sl f i op o, i.parts = some (op, o) → 0x10 ≤ op → op ≤ 0x6F → Runs s k sl f (operandGuard o) →
    (∃ r : Regs, exec i s = wrote s k sl f op r ∧ r.acc = f.r.acc ∧ r.c = f.r.c ∧ r.stamp = f.r.stamp ∧
      r.sys = { f.r.sys with fcsr := r.sys.fcsr } ∧ ∀ j, 5 ≤ j → r.sys.fcsr.getLsbD j = f.r.sys.fcsr.getLsbD j) ∨
    ∃ t, exec i s = traps s k t

/-- What reset leaves: STAGE 0, device time 0, every slot unloaded, every queue disabled, both memories zero, and the registers of the
field maps at their values "After reset", as the host reads them once the part serves. Choices of the model in it stand in the
assumption log: 2, 5, 7. -/
def Obligations.ResetState : Prop :=
  let s := { State.reset with dv.lh.stage := 3 }
  State.reset.dv.lh.stage = 0 ∧ State.reset.clock = 0 ∧ State.reset.still = false ∧ inForm State.reset ∧
  (∀ k, State.reset.slot k = none) ∧ (∀ q, (State.reset.queue q).state = 0) ∧ (∀ a, State.reset.mm.mem.byte a = 0 ∧ State.reset.mm.sram.byte a = 0) ∧
  State.reset.readBar0 0x150000 = 0 ∧ State.reset.readBar0 0x100000 = 0 ∧
  s.readBar0 0x100000 = 0x80101 ∧ s.readBar0 0x110000 = 0x3E8000A ∧ s.readBar0 0x150008 = 0x15 ∧ s.readBar0 0x100 = 0 ∧ s.readBar0 0x108 = 0 ∧
  s.readBar0 0x170000 = 0 ∧ s.readBar0 0x170008 = 0 ∧
  (∀ n, n < 64 → s.readBar0 (0x100100 + 8 * n) = 48000 ∧ s.readBar0 (0x120000 + 16 * n) = 0 ∧ s.readBar0 (0x120008 + 16 * n) = 0 ∧
    s.readBar0 (0x140000 + 8 * n) = 0 ∧ s.readBar0 (0x160000 + 16 * n) = 0 ∧ s.readBar0 (0x160008 + 16 * n) = 0) ∧
  (∀ d, d < 8 → s.readBar0 (0x170100 + 8 * d) = 0)

/-- A byte written to a memory reads back, every other byte reads as before, the canonical form is kept, and two memories in form that
read alike are equal. R124, R130, R149: an event's bytes stand in global memory after it, and every other byte as before; the
canonical form is kept. A read returns the newest byte where nothing is passed over, and at all times where the newest write is
ordered before it: it happened before the read, an acquire read from it, or an earlier read met it at the same byte and the access
is marked `.co`. Choices of the model in it stand in the assumption log: 7, 100. -/
def Obligations.MemoryWrites : Prop :=
  (
  ∀ (m : Memory), m.wf = true →
    (∀ a b, (m.put a b).wf = true ∧ (m.put a b).byte a = b ∧ ∀ x, x ≠ a → (m.put a b).byte x = m.byte x) ∧
    (∀ a l, (m.putAll a l).wf = true ∧ (m.putAll a l).bytes a l.length = l ∧ ∀ x, ¬ (a ≤ x ∧ x < a + l.length) → (m.putAll a l).byte x = m.byte x) ∧
    (∀ m' : Memory, m'.wf = true → (∀ a, m'.byte a = m.byte a) → m' = m)
  ) ∧
  (
  (∀ (s : State) w p ws, s.mm.mem.wf = true → (s.writeEvent w p ws).mm.mem.wf = true) ∧
  (∀ (s : State) w pre a b post, s.mm.mem.wf = true → (∀ x ∈ post, x.1 ≠ a) →
    (s.writeEvent w (fun _ => false) (pre ++ (a, b) :: post)).mm.mem.byte a = b) ∧
  (∀ (s : State) w ws a, s.mm.mem.wf = true → (∀ x ∈ ws, x.1 ≠ a) → (s.writeEvent w (fun _ => false) ws).mm.mem.byte a = s.mm.mem.byte a) ∧
  (∀ (s : State) v co piece pa, s.mm.order.lag = [] → s.seenByte v co piece pa = (s.mm.mem.byte pa, s.newest pa)) ∧
  (∀ (s : State) (v : View) co piece pa n, s.newest pa = some n → n ∈ v.hb ∨ n ∈ v.floor ∨ (co = true ∧ pa ∈ piece ∧ (pa, n) ∈ v.metAt) →
    s.seenByte v co piece pa = (s.mm.mem.byte pa, some n))
  )

/-- Every step of the package that goes on keeps both memories in canonical form. Choices of the model in it stand in the assumption
log: 7. -/
def Obligations.StepsKeepMemoriesInForm : Prop :=
  ∀ s t, inForm s → step s = .next t → inForm t

/-! ### Forms that complete, named one by one (R335, R374 to R385, R392, R398, R410, R434) -/

/-- R374 to R381, R383 to R385: under its guard each system form named here completes with its own effect. MFSR and the queries write
their register; MTSR writes a register with a legal value; PRIO sets a level up to the launch's; XLAT gives a translation; TLBI in
context 0 begins its invalidation and, done, moves on; HALT, HALT.rel and DSTEP make the firing irrevocable, where it may become so,
and act. R31, R335, R392, R395, R397, R398, R410, R411, R434: each row named here comes about with its own effect: a firing that has
run too long traps 0x11; LAUNCH and SLAUNCH make an accepted launch pend; a die drains, to be reset or held; a mismatch voids a
firing or kills its cove; HBM is read through BAR4; and the requests of the SPDM responder, the monitor and MCTP are answered, or
start to be signed. Choices of the model in it stand in the assumption log: 9, 38. -/
def Obligations.NamedFormsComplete : Prop :=
  (
  (∀ s k sl f (x : YFields), Runs s k sl f x.guard →
    (∃ v, exec (.mfsr x) s = .next { s.putFiring k sl { f.executed 0xD4 with r := f.r.writeG x.gr v } with freeCtr := s.freeCtr + 1 }) ∧
    (x.sysreg.toNat = 0x001 → (f.r.readG x.gr).toNat ≤ 0x7F800000 → exec (.mtsr x) s =
      .next { s.putFiring k sl { f.executed 0xD5 with r := { f.r with sys.tolr := f.r.readG x.gr } } with freeCtr := s.freeCtr + 1 }) ∧
    (s.dv.jetty.restarting = none → exec (.syscOrd x) s =
      .next { s.putFiring k sl { f.executed 0xD6 with r := f.r.writeG x.gr (BitVec.ofNat 64 (s.launchOf sl.pl.cfg)) } with freeCtr := s.freeCtr + 1 }) ∧
    (s.dv.jetty.restarting = none → (f.r.readG x.gr).toNat ≤ 255 → exec (.syscEpoch x) s =
      .next { s.putFiring k sl { f.executed 0xD6 with r := f.r.writeG x.gr (BitVec.ofNat 64 (s.group (f.r.readG x.gr).toNat).epoch) }
              with freeCtr := s.freeCtr + 1 }) ∧
    (s.dv.jetty.restarting = none → exec (.syscPinq x) s =
      .next { s.putFiring k sl { f.executed 0xD6 with r := f.r.writeG x.gr (BitVec.ofNat 64 (s.pinLeft (k / 8 / 144) sl.pl.ctx)) }
              with freeCtr := s.freeCtr + 1 }) ∧
    ((f.r.readG x.gr).toNat < 16 → (f.r.readG x.gr).toNat ≤ sl.pl.launchLvl → exec (.prio x) s =
      .next { s.putFiring k sl { f.executed 0xDC with r := { f.r with sys.prioLvl := (f.r.readG x.gr).toNat } } with freeCtr := s.freeCtr + 1 }) ∧
    (∃ v, exec (.ordl x) s = .next { s.putFiring k sl { f.executed 0xDD with r := f.r.writeG x.gr v } with freeCtr := s.freeCtr + 1 }) ∧
    (∃ v, exec (.ordlDrop x) s = .next { s.putFiring k sl { f.executed 0xDD with r := f.r.writeG x.gr v } with freeCtr := s.freeCtr + 1 }) ∧
    (∃ v, exec (.ordlStat x) s = .next { s.putFiring k sl { f.executed 0xDD with r := f.r.writeG x.gr v } with freeCtr := s.freeCtr + 1 }) ∧
    (sl.pl.ctx = 0 → sl.firing = some f → f.begun = true → exec (.tlbi x) s =
      .next { s.putFiring k sl (f.executed 0xD8) with freeCtr := s.freeCtr + 1 }) ∧
    (mayBind s k sl f → exec (.halt x) s =
      .next { (s.putFiring k sl { f.executed 0xDA with irr := true }).haltCtx sl.pl.ctx (some k) with freeCtr := s.freeCtr + 1 }) ∧
    (mayBind s k sl f → exec (.haltRel x) s =
      .next { (s.putFiring k sl { f.executed 0xDA with irr := true }).releaseCtx sl.pl.ctx with freeCtr := s.freeCtr + 1 }) ∧
    (∀ t n, mayBind s k sl f → s.stepTarget sl (f.r.readG x.gr) = .ok t → x.gr = .g n → ∃ s', exec (.dstep x) s = .next s' ∧
      s'.agenda = .single k t n.val :: (s.putFiring k sl { f.executed 0xDB with irr := true }).agenda)) ∧
  (∀ s k sl f (x : RFields), Runs s k sl f x.guard →
    ∃ v, exec (.xlat x) s = .next { s.putFiring k sl { f.executed 0xD9 with r := f.r.writeG x.d v } with freeCtr := s.freeCtr + 1 })
  ) ∧
  (
  (∀ (s : State) k sl f, s.slot k = some sl → sl.firing = some f → sl.due.frozen = false → sl.pl.actor.len < f.ran →
    exec (.firingOverrun k) s =
      .next (s.takeTrap k { code := 0x11, decl := BitVec.ofNat 64 sl.pl.actor.len, act := BitVec.ofNat 64 f.ran })) ∧
  (∀ (s : State) q p im, headIs s q 0x01 p → s.readImage (ctxOf s q) (p.f 16 8) = .ok (some im) → p.f 36 1 / 2 % 2 = 0 →
    s.refuseLaunch (ctxOf s q) p im (p.f 33 1) (p.f 35 1) false = none →
    ∃ t, exec (.launch q) s = .next t ∧ dispatchedOnly t q p.num ∧ t.al.launches.length = s.al.launches.length + 1) ∧
  (∀ (s : State) q p im, headIs s q 0x02 p → s.readImage (ctxOf s q) (p.f 16 8) = .ok (some im) → p.f 36 1 / 2 % 2 = 0 →
    s.refuseLaunch (ctxOf s q) p im (p.f 33 1) (p.f 35 1) true = none →
    ∃ t, exec (.slaunch q) s = .next t ∧ dispatchedOnly t q p.num ∧ t.al.launches.length = s.al.launches.length + 1) ∧
  (∀ (s : State) die, s.barOpen = true → die < 8 → nth s.dv.dieState die 0 = 0 →
    (∃ t, exec (.dieDrainResetReturn die) s = .next t ∧ nth t.dv.dieState die 0 = 1 ∧ nth t.dv.dieHold die false = false) ∧
    (∃ t, exec (.dieDrainHold die) s = .next t ∧ nth t.dv.dieState die 0 = 1 ∧ nth t.dv.dieHold die false = true)) ∧
  (∀ (s : State) k site sl f, 1 ≤ site → site ≤ 3 → s.slot k = some sl → sl.firing = some f →
    (f.irr = false → ∃ t, exec (.silentError k site) s = .next t ∧ (t.slot k).map (·.firing) = some none ∧ t.mm = s.mm) ∧
    (f.irr = true → ∃ t, exec (.silentError k site) s = .next t ∧ underKill t sl.pl.tag)) ∧
  (∀ (s : State) off len, s.barOpen = true → off + len ≤ 2 ^ s.dv.host.bar4Log → (∀ i, i < len → s.mm.poison.contains ((off + i) / 64) = false) →
    exec (.hostBar4Read off len) s =
      .next { s with outbox := .reply "BAR4 data" ((List.range len).map fun i => s.mm.mem.byte (off + i)) :: s.outbox }) ∧
  (∀ (s : State),
    exec .getVersion s = .next { s with outbox := .reply "VERSION" [0x13] :: s.outbox } ∧
    exec .getCapabilities s = .next { s with outbox := .reply "CAPABILITIES" [] :: s.outbox } ∧
    exec .negotiateAlgorithms s = .next { s with outbox := .reply "ALGORITHMS SHA-256" [1, 0] :: s.outbox } ∧
    exec .getDigests s = .next { s with outbox := .reply "DIGESTS" (digestBytes (sha256 (Config.certificateChain s.dv.lh.publicKey))) :: s.outbox } ∧
    exec .getCertificate s = .next { s with outbox := .reply "CERTIFICATE" (Config.certificateChain s.dv.lh.publicKey) :: s.outbox } ∧
    exec .mctpControlMessage s = .next { s with outbox := .reply "MCTP control" [] :: s.outbox } ∧
    (∃ bs, exec .pldmMonitorRequest s = .next { s with outbox := .reply "PLDM" (bs ++ toBytes 8 s.dv.lh.status.toNat) :: s.outbox })) ∧
  (∀ (s : State) nonce, s.dv.lh.erased = false → s.dv.lh.signing = none →
    exec (.challenge nonce) s =
      .next { s with dv.lh.signing := some (1, digestBytes nonce ++ s.dv.lh.meas.toList.flatMap digestBytes) }) ∧
  (∀ (s : State) i d, 1 ≤ i → i ≤ 5 → s.dv.lh.meas.toList[i - 1]? = some d →
    exec (.getMeasurements i false) s = .next { s with outbox := .reply "MEASUREMENTS" (digestBytes d) :: s.outbox } ∧
    (s.dv.lh.erased = false → s.dv.lh.signing = none → exec (.getMeasurements i true) s = .next { s with dv.lh.signing := some (2, digestBytes d) }))
  )
end

