-- ==== Sys2Proof/Laws/Tables.lean ====
section
/-! SUPPORT. Sparse tables and memories: what a key reads after an update, and that the canonical form is kept. -/

namespace Sys2Proof.Laws

open Sys2Proof.Machine

/-! ### Tables -/

@[simp] theorem find_put {α : Type} (t : Tab α) (k : Nat) (v : α) : (t.put k v).find k = some v := by
  induction t with
  | nil => simp [Tab.put, Tab.find]
  | cons x t ih =>
    obtain ⟨n, w⟩ := x
    by_cases h : k < n
    · simp [Tab.put, Tab.find, h]
    · by_cases h2 : k = n
      · simp [Tab.put, Tab.find, h2]
      · simp [Tab.put, Tab.find, h, h2, ih, Ne.symm h2]

theorem find_put_other {α : Type} (t : Tab α) {k n : Nat} (v : α) (h : n ≠ k) : (t.put k v).find n = t.find n := by
  induction t with
  | nil => simp [Tab.put, Tab.find, h.symm]
  | cons x t ih =>
    obtain ⟨m, w⟩ := x
    by_cases h1 : k < m
    · simp [Tab.put, Tab.find, h1, h.symm]
    · by_cases h2 : k = m
      · subst h2; simp [Tab.put, Tab.find, h.symm]
      · simp only [Tab.put, h1, h2, if_false, Tab.find, ih]

theorem find_del_other {α : Type} (t : Tab α) {k n : Nat} (h : n ≠ k) : (t.del k).find n = t.find n := by
  induction t with
  | nil => rfl
  | cons x t ih =>
    obtain ⟨m, w⟩ := x
    by_cases h2 : m = k
    · subst h2; simp [Tab.del, Tab.find, h.symm]
    · simp only [Tab.del, h2, if_false, Tab.find, ih]

theorem find_upd {α : Type} (t : Tab α) (k n : Nat) (g : α → α) :
    (t.upd k g).find n = if n = k then (t.find n).map g else t.find n := by
  induction t with
  | nil => simp [Tab.upd, Tab.find]
  | cons x t ih =>
    obtain ⟨m, w⟩ := x
    simp only [Tab.upd, List.map_cons] at ih ⊢
    by_cases h1 : m = k <;> by_cases h2 : m = n <;> by_cases h3 : n = k <;> simp_all [Tab.find]

/-! ### Memories -/

/-- The canonical form, as a property of the entries. -/
theorem wf_iff (m : Memory) : m.wf = true ↔ (m.map (·.1)).Pairwise (· < ·) ∧ ∀ c ∈ m, c.2 ≠ 0 := by
  induction m with
  | nil => simp [Memory.wf]
  | cons x t ih =>
    obtain ⟨a, b⟩ := x
    cases t with
    | nil => simp [Memory.wf]
    | cons y t =>
      obtain ⟨c, d⟩ := y
      simp only [Memory.wf, Bool.and_eq_true, decide_eq_true_eq, bne_iff_ne, ne_eq, ih, List.map_cons, List.pairwise_cons,
        List.mem_cons, List.mem_map, forall_eq_or_imp]
      constructor
      · rintro ⟨⟨h1, h2⟩, ⟨h3, h4⟩, h5, h6⟩
        refine ⟨⟨⟨h1, ?_⟩, h3, h4⟩, h2, h5, h6⟩
        intro e he
        exact lt_trans h1 (h3 e he)
      · rintro ⟨⟨⟨h1, _⟩, h3, h4⟩, h2, h5, h6⟩
        exact ⟨⟨h1, h2⟩, ⟨h3, h4⟩, h5, h6⟩

/-- Filtering keeps the form. -/
theorem wf_filter {m : Memory} (h : m.wf = true) (p : Host.Cell → Bool) : Memory.wf (m.filter p) = true := by
  rw [wf_iff] at h ⊢
  refine ⟨?_, fun c hc => h.2 c (List.mem_filter.1 hc).1⟩
  exact List.Pairwise.sublist (List.Sublist.map _ List.filter_sublist) h.1

theorem mem_put {α : Type} {t : Tab α} {k : Nat} {v : α} {c : Nat × α} (h : c ∈ t.put k v) : c = (k, v) ∨ c ∈ t := by
  induction t with
  | nil => simpa [Tab.put] using h
  | cons x t ih =>
    obtain ⟨n, w⟩ := x
    by_cases h1 : k < n
    · simpa [Tab.put, h1] using h
    · by_cases h2 : k = n
      · simp only [Tab.put, h2, lt_irrefl, if_false, if_true, List.mem_cons] at h ⊢
        rcases h with h | h <;> simp [h]
      · simp only [Tab.put, h1, h2, if_false, List.mem_cons] at h ⊢
        rcases h with h | h
        · simp [h]
        · rcases ih h with h | h <;> simp [h]

theorem keys_put {α : Type} {t : Tab α} (h : (t.map (·.1)).Pairwise (· < ·)) (k : Nat) (v : α) :
    ((t.put k v).map (·.1)).Pairwise (· < ·) := by
  induction t with
  | nil => simp [Tab.put]
  | cons x t ih =>
    obtain ⟨n, w⟩ := x
    simp only [List.map_cons, List.pairwise_cons] at h
    by_cases h1 : k < n
    · rw [Tab.put, if_pos h1]
      simp only [List.map_cons, List.pairwise_cons, List.mem_cons, forall_eq_or_imp]
      exact ⟨⟨h1, fun a ha => lt_trans h1 (h.1 a ha)⟩, h⟩
    · by_cases h2 : k = n
      · subst h2; simpa [Tab.put] using h
      · simp only [Tab.put, h1, h2, if_false, List.map_cons, List.pairwise_cons]
        refine ⟨?_, ih h.2⟩
        intro a ha
        obtain ⟨c, hc, rfl⟩ := List.mem_map.1 ha
        rcases mem_put hc with rfl | hc
        · show n < k
          omega
        · exact h.1 _ (List.mem_map.2 ⟨c, hc, rfl⟩)

theorem del_sublist {α : Type} (t : Tab α) (k : Nat) : (t.del k).Sublist t := by
  induction t with
  | nil => exact .slnil
  | cons x t ih =>
    obtain ⟨n, w⟩ := x
    by_cases h : n = k
    · simp [Tab.del, h]
    · simpa [Tab.del, h] using ih

theorem keys_del {α : Type} {t : Tab α} (h : (t.map (·.1)).Pairwise (· < ·)) (k : Nat) :
    ((t.del k).map (·.1)).Pairwise (· < ·) := List.Pairwise.sublist (List.Sublist.map _ (del_sublist t k)) h

/-- A write keeps the form. -/
theorem wf_put {m : Memory} (h : m.wf = true) (a : Nat) (b : Byte) : (m.put a b).wf = true := by
  rw [wf_iff] at h ⊢
  unfold Memory.put
  split
  · exact ⟨keys_del h.1 a, fun c hc => h.2 c ((del_sublist m a).mem hc)⟩
  · rename_i hb
    refine ⟨keys_put h.1 a b, fun c hc => ?_⟩
    rcases mem_put hc with rfl | hc
    · exact hb
    · exact h.2 c hc

/-- So does a fold of writes over any list. -/
theorem wf_foldl {α : Type} {m : Memory} (h : m.wf = true) (l : List α) (g : Memory → α → Memory)
    (hg : ∀ m x, m.wf = true → (g m x).wf = true) : (l.foldl g m).wf = true := by
  induction l generalizing m with
  | nil => exact h
  | cons x l ih => exact ih (hg m x h)

theorem wf_putAll {m : Memory} (h : m.wf = true) (a : Nat) (l : List Byte) : (m.putAll a l).wf = true := by
  induction l generalizing m a with
  | nil => exact h
  | cons b l ih => exact ih (wf_put h a b) (a + 1)

end Sys2Proof.Laws
end

