-- ==== Sys2Proof/Laws/Memory.lean ====
section
/-! SUPPORT. Every operation on global memory keeps its canonical form; what a write event leaves at a byte. -/

namespace Sys2Proof.Laws

open Sys2Proof.Machine

theorem writeByte_wf (p : Old → Bool) (q : Nat → List Old → Bool) (n : Nat) {x : Memory × List Old} (h : x.1.wf = true) (w : Nat × Byte) :
    (writeByte p q n x w).1.wf = true := by
  unfold writeByte
  dsimp only
  split
  · exact h
  · exact wf_put h _ _

theorem writeBytes_wf (p : Old → Bool) (q : Nat → List Old → Bool) (n : Nat) (ws : List (Nat × Byte)) {x : Memory × List Old} (h : x.1.wf = true) :
    (ws.foldl (writeByte p q n) x).1.wf = true := by
  induction ws generalizing x with
  | nil => exact h
  | cons w t ih => exact ih (writeByte_wf p q n h w)

/-- A write event keeps the canonical form, wherever it comes in coherence order. -/
theorem writeEvent_wf {s : State} (h : s.mm.mem.wf = true) (w : Writer) (p : Old → Bool) (ws : List (Nat × Byte)) :
    (s.writeEvent w p ws).mm.mem.wf = true := by
  unfold State.writeEvent
  split
  · exact h
  · exact writeBytes_wf p _ _ ws h

/-- A write event changes memory and its recent past only. -/
theorem writeEvent_frame (s : State) (w : Writer) (p : Old → Bool) (ws : List (Nat × Byte)) :
    s.writeEvent w p ws = { s with mm.mem := (s.writeEvent w p ws).mm.mem, mm.order := (s.writeEvent w p ws).mm.order } := by
  unfold State.writeEvent
  split <;> rfl

/-- Beneath no write: the list stands undivided, its first part empty. -/
theorem splitOlds_none (d : Nat) (l : List Old) : (splitOlds (fun _ => false) d l).1 = [] := by
  induction l with
  | nil => rfl
  | cons o t ih =>
    unfold splitOlds
    by_cases h : o.pa / 8 = d
    · simp [h]
    · simp [h, ih]

/-- Nothing is the longest beginning of nothing. -/
theorem longestBeginning_nil (q : List Old → Bool) : longestBeginning q [] = ([], []) := by simp [longestBeginning]

/-- Beneath no write a byte is the newest at its address. -/
theorem writeByte_newest (q : Nat → List Old → Bool) (n : Nat) (x : Memory × List Old) (w : Nat × Byte) :
    (writeByte (fun _ => false) q n x w).1 = x.1.put w.1 w.2 := by
  unfold writeByte
  dsimp only
  rw [splitOlds_none, longestBeginning_nil]
  rfl

theorem writeBytes_newest (q : Nat → List Old → Bool) (n : Nat) (ws : List (Nat × Byte)) (x : Memory × List Old) :
    (ws.foldl (writeByte (fun _ => false) q n) x).1 = ws.foldl (fun (m : Memory) w => m.put w.1 w.2) x.1 := by
  induction ws generalizing x with
  | nil => rfl
  | cons w t ih => simp only [List.foldl_cons]; rw [ih, writeByte_newest]

/-- With nothing to pass over, no write is passed over. -/
theorem oldByte_none {p : Old → Bool} (hp : ∀ o, p o = false) (pa : Nat) (now : Byte) (l : List Old) :
    (oldByte p pa now l).1 = now := by
  induction l with
  | nil => rfl
  | cons o t ih =>
    unfold oldByte
    split
    · simp [hp]
    · exact ih

/-- What settles after a move is the choice of what it was to pass over, and nothing else. -/
theorem settled_eq (s : State) : s.settled = { s with mm.order := { s.mm.order with lag := [], under := [] } } := by
  unfold State.settled
  split
  · rename_i h
    obtain ⟨h1, h2⟩ := h
    rw [List.isEmpty_iff] at h1 h2
    cases s with | mk a b c d e f g h' i j mm k l m n =>
    cases mm with | mk m1 m2 m3 m4 m5 m6 m7 m8 m9 m10 m11 m12 m13 m14 m15 m16 m17 m18 m19 m20 order =>
    cases order
    simp only at h1 h2
    subst h1 h2
    rfl
  · rfl

@[simp] theorem passedOver_next (s : State) : passedOver (.next s) = .next s.settled := rfl
@[simp] theorem passedOver_fault (e : Fault) : passedOver (.fault e) = .fault e := rfl
@[simp] theorem passedOver_refused (e : Refusal) : passedOver (.refused e) = .refused e := rfl

end Sys2Proof.Laws
end

