-- ==== Sys2Proof/Laws/Parts.lean ====
section
/-! SUPPORT. An instruction is made again from its opcode and operands. -/

namespace Sys2Proof.Laws

/-- The opcode and operands of an instruction, with the field that picks one of several rows of an opcode, name it. -/
theorem ofParts_parts {i : Instr} {op : Nat} {o : Operands} (h : i.parts = some (op, o)) (hv : i.variantOk = true) :
    Instr.ofParts op o = some i := by
  cases i <;> first
    | (obtain ⟨rfl, rfl⟩ := Prod.mk.inj (Option.some.inj h)
       first
         | rfl
         | (simp only [Instr.variantOk, beq_iff_eq] at hv
            simp [Instr.ofParts, Instr.ofE, Instr.ofY, hv]))
    | simp [Instr.parts] at h

end Sys2Proof.Laws
end

