-- ==== Sys2Proof/Laws/Run.lean ====
section
/-! SUPPORT. What the shared operations that run an instruction can do: one lemma for each case of each. -/

namespace Sys2Proof.Laws

open Sys2Proof.Machine Sys2Proof.Safety

@[simp] theorem executed_r (f : Firing) (op : Nat) : (f.executed op).r = f.r := rfl
@[simp] theorem executed_pc (f : Firing) (op : Nat) : (f.executed op).pc = f.pc + 1 := rfl
@[simp] theorem executed_b (f : Firing) (op : Nat) : (f.executed op).b = f.b := rfl
@[simp] theorem executed_tk (f : Firing) (op : Nat) : (f.executed op).tk = f.tk := rfl
@[simp] theorem executed_handler (f : Firing) (op : Nat) : (f.executed op).handler = f.handler := rfl
@[simp] theorem executed_irr (f : Firing) (op : Nat) : (f.executed op).irr = f.irr := rfl
@[simp] theorem advance_pc (f : Firing) : f.advance.pc = f.pc + 1 := rfl
@[simp] theorem advance_r (f : Firing) : f.advance.r = f.r := rfl

@[simp] theorem stopWith_trap (s : State) (k : Nat) (t : TrapInfo) : s.stopWith k (.trap t) = s.takeTrap k t := rfl
@[simp] theorem stopWith_page (s : State) (k va rs : Nat) (w : Bool) : s.stopWith k (.page va rs w) = s.pageFault k va rs w := rfl
@[simp] theorem stopWith_wait (s : State) (k : Nat) (w : Wait) : s.stopWith k (.wait w) = s.park k w := rfl

/-- An instruction that runs has the effect that its meaning gives, or stops without one. -/
theorem runInst_runs {i : Instr} {s : State} {k : Nat} {sl : Slot} {f : Firing} {g : Guard} {op : Nat} {o : Operands}
    {body : State → Nat → Slot → Firing → Except Stop State} (h : Runs s k sl f g) (hp : i.parts = some (op, o))
    (hg : operandGuard o = g) :
    runInst i s body = match body s k sl (f.executed op) with
      | .ok s1 => .next { s1 with freeCtr := s1.freeCtr + 1 }
      | .error st => .next (s.stopWith k st) := by
  simp only [runInst, h.1, hp, hg, h.2, or_true, if_true] <;> cases body s k sl (f.executed op) <;> rfl

/-- An instruction whose guard is false, at a boundary, only counts (04 R62). -/
theorem runInst_skips {i : Instr} {s : State} {k : Nat} {sl : Slot} {f : Firing} {op : Nat} {o : Operands}
    {body : State → Nat → Slot → Firing → Except Stop State} (h : Running s k sl f) (hp : i.parts = some (op, o))
    (hf : f.grind = 0) (hb : f.begun = false) (hg : s.guardHolds sl f (operandGuard o) = false) :
    runInst i s body = .next (s.putFiring k sl f.advance) := by
  simp only [Running] at h
  simp [runInst, h, hp, hf, hb, hg]

/-- With no firing on the tile in focus there is nothing to run. -/
theorem runInst_noFiring {i : Instr} {s : State} {body : State → Nat → Slot → Firing → Except Stop State} (h : s.current = none) :
    runInst i s body = .fault .noFiring := by
  simp only [runInst, h]

/-- The outcome of a meaning that changes the firing. -/
def firingOutcome (s : State) (k : Nat) (sl : Slot) : Except Stop Firing → Host.Outcome State Fault Refusal
  | .ok f => did s k sl f
  | .error st => .next (s.stopWith k st)

@[simp] theorem firingOutcome_ok (s : State) (k : Nat) (sl : Slot) (f : Firing) : firingOutcome s k sl (.ok f) = did s k sl f := rfl
@[simp] theorem firingOutcome_error (s : State) (k : Nat) (sl : Slot) (st : Stop) :
    firingOutcome s k sl (.error st) = .next (s.stopWith k st) := rfl

theorem runFiring_runs {i : Instr} {s : State} {k : Nat} {sl : Slot} {f : Firing} {g : Guard} {op : Nat} {o : Operands}
    {body : State → Nat → Slot → Firing → Except Stop Firing} (h : Runs s k sl f g) (hp : i.parts = some (op, o))
    (hg : operandGuard o = g) :
    runFiring i s body = firingOutcome s k sl (body s k sl (f.executed op)) := by
  rw [runFiring, runInst_runs h hp hg]
  cases body s k sl (f.executed op) <;> rfl

/-- The outcome of a meaning that changes the slot and the firing. -/
def slotOutcome (s : State) (k : Nat) : Except Stop (Slot × Firing) → Host.Outcome State Fault Refusal
  | .ok x => did s k x.1 x.2
  | .error st => .next (s.stopWith k st)

@[simp] theorem slotOutcome_ok (s : State) (k : Nat) (x : Slot × Firing) : slotOutcome s k (.ok x) = did s k x.1 x.2 := rfl
@[simp] theorem slotOutcome_error (s : State) (k : Nat) (st : Stop) : slotOutcome s k (.error st) = .next (s.stopWith k st) := rfl

theorem runSlot_runs {i : Instr} {s : State} {k : Nat} {sl : Slot} {f : Firing} {g : Guard} {op : Nat} {o : Operands}
    {body : State → Nat → Slot → Firing → Except Stop (Slot × Firing)} (h : Runs s k sl f g) (hp : i.parts = some (op, o))
    (hg : operandGuard o = g) :
    runSlot i s body = slotOutcome s k (body s k sl (f.executed op)) := by
  rw [runSlot, runInst_runs h hp hg]
  cases body s k sl (f.executed op) <;> rfl

/-- The outcome of a meaning that changes registers. -/
def regsOutcome (s : State) (k : Nat) (sl : Slot) (f : Firing) (op : Nat) : Except Stop Regs → Host.Outcome State Fault Refusal
  | .ok r => wrote s k sl f op r
  | .error st => .next (s.stopWith k st)

@[simp] theorem regsOutcome_ok (s : State) (k : Nat) (sl : Slot) (f : Firing) (op : Nat) (r : Regs) :
    regsOutcome s k sl f op (.ok r) = wrote s k sl f op r := rfl
@[simp] theorem regsOutcome_error (s : State) (k : Nat) (sl : Slot) (f : Firing) (op : Nat) (st : Stop) :
    regsOutcome s k sl f op (.error st) = .next (s.stopWith k st) := rfl

theorem runRegs_runs {i : Instr} {s : State} {k : Nat} {sl : Slot} {f : Firing} {g : Guard} {op : Nat} {o : Operands}
    {body : Regs → Except Stop Regs} (h : Runs s k sl f g) (hp : i.parts = some (op, o)) (hg : operandGuard o = g) :
    runRegs i s body = regsOutcome s k sl f op (body f.r) := by
  rw [runRegs, runInst_runs h hp hg]
  simp only [executed_r]
  cases body f.r <;> rfl

end Sys2Proof.Laws
end

