-- ==== Sys2Proof/Laws/State.lean ====
section
/-! SUPPORT. Each field of the state after each of its updates. -/

namespace Sys2Proof.Laws

open Sys2Proof.Machine

/-! ### State.setTile -/

@[simp] theorem setTile_agenda (s : State) (t : Nat) (x : Tile) : (s.setTile t x).agenda = s.agenda := rfl
@[simp] theorem setTile_focus (s : State) (t : Nat) (x : Tile) : (s.setTile t x).focus = s.focus := rfl
@[simp] theorem setTile_freeCtr (s : State) (t : Nat) (x : Tile) : (s.setTile t x).freeCtr = s.freeCtr := rfl
@[simp] theorem setTile_outbox (s : State) (t : Nat) (x : Tile) : (s.setTile t x).outbox = s.outbox := rfl
@[simp] theorem setTile_nextId (s : State) (t : Nat) (x : Tile) : (s.setTile t x).nextId = s.nextId := rfl
@[simp] theorem setTile_clock (s : State) (t : Nat) (x : Tile) : (s.setTile t x).clock = s.clock := rfl
@[simp] theorem setTile_tiles (s : State) (t : Nat) (x : Tile) : (s.setTile t x).tiles = s.tiles.put t x := rfl
@[simp] theorem setTile_slots (s : State) (t : Nat) (x : Tile) : (s.setTile t x).slots = s.slots := rfl
@[simp] theorem setTile_store (s : State) (t : Nat) (x : Tile) : (s.setTile t x).store = s.store := rfl
@[simp] theorem setTile_arcs (s : State) (t : Nat) (x : Tile) : (s.setTile t x).arcs = s.arcs := rfl
@[simp] theorem setTile_mm (s : State) (t : Nat) (x : Tile) : (s.setTile t x).mm = s.mm := rfl
@[simp] theorem setTile_en (s : State) (t : Nat) (x : Tile) : (s.setTile t x).en = s.en := rfl
@[simp] theorem setTile_al (s : State) (t : Nat) (x : Tile) : (s.setTile t x).al = s.al := rfl
@[simp] theorem setTile_fe (s : State) (t : Nat) (x : Tile) : (s.setTile t x).fe = s.fe := rfl
@[simp] theorem setTile_dv (s : State) (t : Nat) (x : Tile) : (s.setTile t x).dv = s.dv := rfl

/-! ### State.setSlot -/

@[simp] theorem setSlot_agenda (s : State) (k : Nat) (x : Slot) : (s.setSlot k x).agenda = s.agenda := rfl
@[simp] theorem setSlot_focus (s : State) (k : Nat) (x : Slot) : (s.setSlot k x).focus = s.focus := rfl
@[simp] theorem setSlot_freeCtr (s : State) (k : Nat) (x : Slot) : (s.setSlot k x).freeCtr = s.freeCtr := rfl
@[simp] theorem setSlot_outbox (s : State) (k : Nat) (x : Slot) : (s.setSlot k x).outbox = s.outbox := rfl
@[simp] theorem setSlot_nextId (s : State) (k : Nat) (x : Slot) : (s.setSlot k x).nextId = s.nextId := rfl
@[simp] theorem setSlot_clock (s : State) (k : Nat) (x : Slot) : (s.setSlot k x).clock = s.clock := rfl
@[simp] theorem setSlot_tiles (s : State) (k : Nat) (x : Slot) : (s.setSlot k x).tiles = s.tiles := rfl
@[simp] theorem setSlot_slots (s : State) (k : Nat) (x : Slot) : (s.setSlot k x).slots = s.slots.put k x := rfl
@[simp] theorem setSlot_store (s : State) (k : Nat) (x : Slot) : (s.setSlot k x).store = s.store := rfl
@[simp] theorem setSlot_arcs (s : State) (k : Nat) (x : Slot) : (s.setSlot k x).arcs = s.arcs := rfl
@[simp] theorem setSlot_mm (s : State) (k : Nat) (x : Slot) : (s.setSlot k x).mm = s.mm := rfl
@[simp] theorem setSlot_en (s : State) (k : Nat) (x : Slot) : (s.setSlot k x).en = s.en := rfl
@[simp] theorem setSlot_al (s : State) (k : Nat) (x : Slot) : (s.setSlot k x).al = s.al := rfl
@[simp] theorem setSlot_fe (s : State) (k : Nat) (x : Slot) : (s.setSlot k x).fe = s.fe := rfl
@[simp] theorem setSlot_dv (s : State) (k : Nat) (x : Slot) : (s.setSlot k x).dv = s.dv := rfl

/-! ### State.updSlot -/

@[simp] theorem updSlot_agenda (s : State) (k : Nat) (g : Slot → Slot) : (s.updSlot k g).agenda = s.agenda := rfl
@[simp] theorem updSlot_focus (s : State) (k : Nat) (g : Slot → Slot) : (s.updSlot k g).focus = s.focus := rfl
@[simp] theorem updSlot_freeCtr (s : State) (k : Nat) (g : Slot → Slot) : (s.updSlot k g).freeCtr = s.freeCtr := rfl
@[simp] theorem updSlot_outbox (s : State) (k : Nat) (g : Slot → Slot) : (s.updSlot k g).outbox = s.outbox := rfl
@[simp] theorem updSlot_nextId (s : State) (k : Nat) (g : Slot → Slot) : (s.updSlot k g).nextId = s.nextId := rfl
@[simp] theorem updSlot_clock (s : State) (k : Nat) (g : Slot → Slot) : (s.updSlot k g).clock = s.clock := rfl
@[simp] theorem updSlot_tiles (s : State) (k : Nat) (g : Slot → Slot) : (s.updSlot k g).tiles = s.tiles := rfl
@[simp] theorem updSlot_slots (s : State) (k : Nat) (g : Slot → Slot) : (s.updSlot k g).slots = s.slots.upd k g := rfl
@[simp] theorem updSlot_store (s : State) (k : Nat) (g : Slot → Slot) : (s.updSlot k g).store = s.store := rfl
@[simp] theorem updSlot_arcs (s : State) (k : Nat) (g : Slot → Slot) : (s.updSlot k g).arcs = s.arcs := rfl
@[simp] theorem updSlot_mm (s : State) (k : Nat) (g : Slot → Slot) : (s.updSlot k g).mm = s.mm := rfl
@[simp] theorem updSlot_en (s : State) (k : Nat) (g : Slot → Slot) : (s.updSlot k g).en = s.en := rfl
@[simp] theorem updSlot_al (s : State) (k : Nat) (g : Slot → Slot) : (s.updSlot k g).al = s.al := rfl
@[simp] theorem updSlot_fe (s : State) (k : Nat) (g : Slot → Slot) : (s.updSlot k g).fe = s.fe := rfl
@[simp] theorem updSlot_dv (s : State) (k : Nat) (g : Slot → Slot) : (s.updSlot k g).dv = s.dv := rfl

/-! ### State.putFiring -/

@[simp] theorem putFiring_agenda (s : State) (k : Nat) (sl : Slot) (f : Firing) : (s.putFiring k sl f).agenda = s.agenda := rfl
@[simp] theorem putFiring_focus (s : State) (k : Nat) (sl : Slot) (f : Firing) : (s.putFiring k sl f).focus = s.focus := rfl
@[simp] theorem putFiring_freeCtr (s : State) (k : Nat) (sl : Slot) (f : Firing) : (s.putFiring k sl f).freeCtr = s.freeCtr := rfl
@[simp] theorem putFiring_outbox (s : State) (k : Nat) (sl : Slot) (f : Firing) : (s.putFiring k sl f).outbox = s.outbox := rfl
@[simp] theorem putFiring_nextId (s : State) (k : Nat) (sl : Slot) (f : Firing) : (s.putFiring k sl f).nextId = s.nextId := rfl
@[simp] theorem putFiring_clock (s : State) (k : Nat) (sl : Slot) (f : Firing) : (s.putFiring k sl f).clock = s.clock := rfl
@[simp] theorem putFiring_tiles (s : State) (k : Nat) (sl : Slot) (f : Firing) : (s.putFiring k sl f).tiles = s.tiles := rfl
@[simp] theorem putFiring_slots (s : State) (k : Nat) (sl : Slot) (f : Firing) : (s.putFiring k sl f).slots = s.slots.put k { sl with firing := some f } := rfl
@[simp] theorem putFiring_store (s : State) (k : Nat) (sl : Slot) (f : Firing) : (s.putFiring k sl f).store = s.store := rfl
@[simp] theorem putFiring_arcs (s : State) (k : Nat) (sl : Slot) (f : Firing) : (s.putFiring k sl f).arcs = s.arcs := rfl
@[simp] theorem putFiring_mm (s : State) (k : Nat) (sl : Slot) (f : Firing) : (s.putFiring k sl f).mm = s.mm := rfl
@[simp] theorem putFiring_en (s : State) (k : Nat) (sl : Slot) (f : Firing) : (s.putFiring k sl f).en = s.en := rfl
@[simp] theorem putFiring_al (s : State) (k : Nat) (sl : Slot) (f : Firing) : (s.putFiring k sl f).al = s.al := rfl
@[simp] theorem putFiring_fe (s : State) (k : Nat) (sl : Slot) (f : Firing) : (s.putFiring k sl f).fe = s.fe := rfl
@[simp] theorem putFiring_dv (s : State) (k : Nat) (sl : Slot) (f : Firing) : (s.putFiring k sl f).dv = s.dv := rfl

/-! ### State.setArc -/

@[simp] theorem setArc_agenda (s : State) (n : Nat) (x : Arc) : (s.setArc n x).agenda = s.agenda := rfl
@[simp] theorem setArc_focus (s : State) (n : Nat) (x : Arc) : (s.setArc n x).focus = s.focus := rfl
@[simp] theorem setArc_freeCtr (s : State) (n : Nat) (x : Arc) : (s.setArc n x).freeCtr = s.freeCtr := rfl
@[simp] theorem setArc_outbox (s : State) (n : Nat) (x : Arc) : (s.setArc n x).outbox = s.outbox := rfl
@[simp] theorem setArc_nextId (s : State) (n : Nat) (x : Arc) : (s.setArc n x).nextId = s.nextId := rfl
@[simp] theorem setArc_clock (s : State) (n : Nat) (x : Arc) : (s.setArc n x).clock = s.clock := rfl
@[simp] theorem setArc_tiles (s : State) (n : Nat) (x : Arc) : (s.setArc n x).tiles = s.tiles := rfl
@[simp] theorem setArc_slots (s : State) (n : Nat) (x : Arc) : (s.setArc n x).slots = s.slots := rfl
@[simp] theorem setArc_store (s : State) (n : Nat) (x : Arc) : (s.setArc n x).store = s.store := rfl
@[simp] theorem setArc_arcs (s : State) (n : Nat) (x : Arc) : (s.setArc n x).arcs = s.arcs.put n x := rfl
@[simp] theorem setArc_mm (s : State) (n : Nat) (x : Arc) : (s.setArc n x).mm = s.mm := rfl
@[simp] theorem setArc_en (s : State) (n : Nat) (x : Arc) : (s.setArc n x).en = s.en := rfl
@[simp] theorem setArc_al (s : State) (n : Nat) (x : Arc) : (s.setArc n x).al = s.al := rfl
@[simp] theorem setArc_fe (s : State) (n : Nat) (x : Arc) : (s.setArc n x).fe = s.fe := rfl
@[simp] theorem setArc_dv (s : State) (n : Nat) (x : Arc) : (s.setArc n x).dv = s.dv := rfl

/-! ### State.updArc -/

@[simp] theorem updArc_agenda (s : State) (n : Nat) (g : Arc → Arc) : (s.updArc n g).agenda = s.agenda := rfl
@[simp] theorem updArc_focus (s : State) (n : Nat) (g : Arc → Arc) : (s.updArc n g).focus = s.focus := rfl
@[simp] theorem updArc_freeCtr (s : State) (n : Nat) (g : Arc → Arc) : (s.updArc n g).freeCtr = s.freeCtr := rfl
@[simp] theorem updArc_outbox (s : State) (n : Nat) (g : Arc → Arc) : (s.updArc n g).outbox = s.outbox := rfl
@[simp] theorem updArc_nextId (s : State) (n : Nat) (g : Arc → Arc) : (s.updArc n g).nextId = s.nextId := rfl
@[simp] theorem updArc_clock (s : State) (n : Nat) (g : Arc → Arc) : (s.updArc n g).clock = s.clock := rfl
@[simp] theorem updArc_tiles (s : State) (n : Nat) (g : Arc → Arc) : (s.updArc n g).tiles = s.tiles := rfl
@[simp] theorem updArc_slots (s : State) (n : Nat) (g : Arc → Arc) : (s.updArc n g).slots = s.slots := rfl
@[simp] theorem updArc_store (s : State) (n : Nat) (g : Arc → Arc) : (s.updArc n g).store = s.store := rfl
@[simp] theorem updArc_arcs (s : State) (n : Nat) (g : Arc → Arc) : (s.updArc n g).arcs = s.arcs.upd n g := rfl
@[simp] theorem updArc_mm (s : State) (n : Nat) (g : Arc → Arc) : (s.updArc n g).mm = s.mm := rfl
@[simp] theorem updArc_en (s : State) (n : Nat) (g : Arc → Arc) : (s.updArc n g).en = s.en := rfl
@[simp] theorem updArc_al (s : State) (n : Nat) (g : Arc → Arc) : (s.updArc n g).al = s.al := rfl
@[simp] theorem updArc_fe (s : State) (n : Nat) (g : Arc → Arc) : (s.updArc n g).fe = s.fe := rfl
@[simp] theorem updArc_dv (s : State) (n : Nat) (g : Arc → Arc) : (s.updArc n g).dv = s.dv := rfl

/-! ### State.setCtx -/

@[simp] theorem setCtx_agenda (s : State) (n : Nat) (x : Ctx) : (s.setCtx n x).agenda = s.agenda := rfl
@[simp] theorem setCtx_focus (s : State) (n : Nat) (x : Ctx) : (s.setCtx n x).focus = s.focus := rfl
@[simp] theorem setCtx_freeCtr (s : State) (n : Nat) (x : Ctx) : (s.setCtx n x).freeCtr = s.freeCtr := rfl
@[simp] theorem setCtx_outbox (s : State) (n : Nat) (x : Ctx) : (s.setCtx n x).outbox = s.outbox := rfl
@[simp] theorem setCtx_nextId (s : State) (n : Nat) (x : Ctx) : (s.setCtx n x).nextId = s.nextId := rfl
@[simp] theorem setCtx_clock (s : State) (n : Nat) (x : Ctx) : (s.setCtx n x).clock = s.clock := rfl
@[simp] theorem setCtx_tiles (s : State) (n : Nat) (x : Ctx) : (s.setCtx n x).tiles = s.tiles := rfl
@[simp] theorem setCtx_slots (s : State) (n : Nat) (x : Ctx) : (s.setCtx n x).slots = s.slots := rfl
@[simp] theorem setCtx_store (s : State) (n : Nat) (x : Ctx) : (s.setCtx n x).store = s.store := rfl
@[simp] theorem setCtx_arcs (s : State) (n : Nat) (x : Ctx) : (s.setCtx n x).arcs = s.arcs := rfl
@[simp] theorem setCtx_mm (s : State) (n : Nat) (x : Ctx) : (s.setCtx n x).mm = s.mm := rfl
@[simp] theorem setCtx_en (s : State) (n : Nat) (x : Ctx) : (s.setCtx n x).en = s.en := rfl
@[simp] theorem setCtx_al (s : State) (n : Nat) (x : Ctx) : (s.setCtx n x).al = { s.al with ctxs := s.al.ctxs.put n x } := rfl
@[simp] theorem setCtx_fe (s : State) (n : Nat) (x : Ctx) : (s.setCtx n x).fe = s.fe := rfl
@[simp] theorem setCtx_dv (s : State) (n : Nat) (x : Ctx) : (s.setCtx n x).dv = s.dv := rfl

/-! ### State.updCfg -/

@[simp] theorem updCfg_agenda (s : State) (n : Nat) (g : Configuration → Configuration) : (s.updCfg n g).agenda = s.agenda := rfl
@[simp] theorem updCfg_focus (s : State) (n : Nat) (g : Configuration → Configuration) : (s.updCfg n g).focus = s.focus := rfl
@[simp] theorem updCfg_freeCtr (s : State) (n : Nat) (g : Configuration → Configuration) : (s.updCfg n g).freeCtr = s.freeCtr := rfl
@[simp] theorem updCfg_outbox (s : State) (n : Nat) (g : Configuration → Configuration) : (s.updCfg n g).outbox = s.outbox := rfl
@[simp] theorem updCfg_nextId (s : State) (n : Nat) (g : Configuration → Configuration) : (s.updCfg n g).nextId = s.nextId := rfl
@[simp] theorem updCfg_clock (s : State) (n : Nat) (g : Configuration → Configuration) : (s.updCfg n g).clock = s.clock := rfl
@[simp] theorem updCfg_tiles (s : State) (n : Nat) (g : Configuration → Configuration) : (s.updCfg n g).tiles = s.tiles := rfl
@[simp] theorem updCfg_slots (s : State) (n : Nat) (g : Configuration → Configuration) : (s.updCfg n g).slots = s.slots := rfl
@[simp] theorem updCfg_store (s : State) (n : Nat) (g : Configuration → Configuration) : (s.updCfg n g).store = s.store := rfl
@[simp] theorem updCfg_arcs (s : State) (n : Nat) (g : Configuration → Configuration) : (s.updCfg n g).arcs = s.arcs := rfl
@[simp] theorem updCfg_mm (s : State) (n : Nat) (g : Configuration → Configuration) : (s.updCfg n g).mm = s.mm := rfl
@[simp] theorem updCfg_en (s : State) (n : Nat) (g : Configuration → Configuration) : (s.updCfg n g).en = s.en := rfl
@[simp] theorem updCfg_al (s : State) (n : Nat) (g : Configuration → Configuration) : (s.updCfg n g).al = { s.al with cfgs := s.al.cfgs.upd n g } := rfl
@[simp] theorem updCfg_fe (s : State) (n : Nat) (g : Configuration → Configuration) : (s.updCfg n g).fe = s.fe := rfl
@[simp] theorem updCfg_dv (s : State) (n : Nat) (g : Configuration → Configuration) : (s.updCfg n g).dv = s.dv := rfl

/-! ### State.setQueue -/

@[simp] theorem setQueue_agenda (s : State) (q : Nat) (x : Queue) : (s.setQueue q x).agenda = s.agenda := rfl
@[simp] theorem setQueue_focus (s : State) (q : Nat) (x : Queue) : (s.setQueue q x).focus = s.focus := rfl
@[simp] theorem setQueue_freeCtr (s : State) (q : Nat) (x : Queue) : (s.setQueue q x).freeCtr = s.freeCtr := rfl
@[simp] theorem setQueue_outbox (s : State) (q : Nat) (x : Queue) : (s.setQueue q x).outbox = s.outbox := rfl
@[simp] theorem setQueue_nextId (s : State) (q : Nat) (x : Queue) : (s.setQueue q x).nextId = s.nextId := rfl
@[simp] theorem setQueue_clock (s : State) (q : Nat) (x : Queue) : (s.setQueue q x).clock = s.clock := rfl
@[simp] theorem setQueue_tiles (s : State) (q : Nat) (x : Queue) : (s.setQueue q x).tiles = s.tiles := rfl
@[simp] theorem setQueue_slots (s : State) (q : Nat) (x : Queue) : (s.setQueue q x).slots = s.slots := rfl
@[simp] theorem setQueue_store (s : State) (q : Nat) (x : Queue) : (s.setQueue q x).store = s.store := rfl
@[simp] theorem setQueue_arcs (s : State) (q : Nat) (x : Queue) : (s.setQueue q x).arcs = s.arcs := rfl
@[simp] theorem setQueue_mm (s : State) (q : Nat) (x : Queue) : (s.setQueue q x).mm = s.mm := rfl
@[simp] theorem setQueue_en (s : State) (q : Nat) (x : Queue) : (s.setQueue q x).en = s.en := rfl
@[simp] theorem setQueue_al (s : State) (q : Nat) (x : Queue) : (s.setQueue q x).al = s.al := rfl
@[simp] theorem setQueue_fe (s : State) (q : Nat) (x : Queue) : (s.setQueue q x).fe = { s.fe with queues := s.fe.queues.put q x } := rfl
@[simp] theorem setQueue_dv (s : State) (q : Nat) (x : Queue) : (s.setQueue q x).dv = s.dv := rfl

/-! ### State.setBarrier -/

@[simp] theorem setBarrier_agenda (s : State) (k : Nat) (x : Barrier) : (s.setBarrier k x).agenda = s.agenda := rfl
@[simp] theorem setBarrier_focus (s : State) (k : Nat) (x : Barrier) : (s.setBarrier k x).focus = s.focus := rfl
@[simp] theorem setBarrier_freeCtr (s : State) (k : Nat) (x : Barrier) : (s.setBarrier k x).freeCtr = s.freeCtr := rfl
@[simp] theorem setBarrier_outbox (s : State) (k : Nat) (x : Barrier) : (s.setBarrier k x).outbox = s.outbox := rfl
@[simp] theorem setBarrier_nextId (s : State) (k : Nat) (x : Barrier) : (s.setBarrier k x).nextId = s.nextId := rfl
@[simp] theorem setBarrier_clock (s : State) (k : Nat) (x : Barrier) : (s.setBarrier k x).clock = s.clock := rfl
@[simp] theorem setBarrier_tiles (s : State) (k : Nat) (x : Barrier) : (s.setBarrier k x).tiles = s.tiles := rfl
@[simp] theorem setBarrier_slots (s : State) (k : Nat) (x : Barrier) : (s.setBarrier k x).slots = s.slots := rfl
@[simp] theorem setBarrier_store (s : State) (k : Nat) (x : Barrier) : (s.setBarrier k x).store = s.store := rfl
@[simp] theorem setBarrier_arcs (s : State) (k : Nat) (x : Barrier) : (s.setBarrier k x).arcs = s.arcs := rfl
@[simp] theorem setBarrier_mm (s : State) (k : Nat) (x : Barrier) : (s.setBarrier k x).mm = s.mm := rfl
@[simp] theorem setBarrier_en (s : State) (k : Nat) (x : Barrier) : (s.setBarrier k x).en = { s.en with barriers := s.en.barriers.put k x } := rfl
@[simp] theorem setBarrier_al (s : State) (k : Nat) (x : Barrier) : (s.setBarrier k x).al = s.al := rfl
@[simp] theorem setBarrier_fe (s : State) (k : Nat) (x : Barrier) : (s.setBarrier k x).fe = s.fe := rfl
@[simp] theorem setBarrier_dv (s : State) (k : Nat) (x : Barrier) : (s.setBarrier k x).dv = s.dv := rfl

/-! ### State.setTide -/

@[simp] theorem setTide_agenda (s : State) (k : Nat) (x : Tide) : (s.setTide k x).agenda = s.agenda := rfl
@[simp] theorem setTide_focus (s : State) (k : Nat) (x : Tide) : (s.setTide k x).focus = s.focus := rfl
@[simp] theorem setTide_freeCtr (s : State) (k : Nat) (x : Tide) : (s.setTide k x).freeCtr = s.freeCtr := rfl
@[simp] theorem setTide_outbox (s : State) (k : Nat) (x : Tide) : (s.setTide k x).outbox = s.outbox := rfl
@[simp] theorem setTide_nextId (s : State) (k : Nat) (x : Tide) : (s.setTide k x).nextId = s.nextId := rfl
@[simp] theorem setTide_clock (s : State) (k : Nat) (x : Tide) : (s.setTide k x).clock = s.clock := rfl
@[simp] theorem setTide_tiles (s : State) (k : Nat) (x : Tide) : (s.setTide k x).tiles = s.tiles := rfl
@[simp] theorem setTide_slots (s : State) (k : Nat) (x : Tide) : (s.setTide k x).slots = s.slots := rfl
@[simp] theorem setTide_store (s : State) (k : Nat) (x : Tide) : (s.setTide k x).store = s.store := rfl
@[simp] theorem setTide_arcs (s : State) (k : Nat) (x : Tide) : (s.setTide k x).arcs = s.arcs := rfl
@[simp] theorem setTide_mm (s : State) (k : Nat) (x : Tide) : (s.setTide k x).mm = s.mm := rfl
@[simp] theorem setTide_en (s : State) (k : Nat) (x : Tide) : (s.setTide k x).en = { s.en with tides := s.en.tides.put k x } := rfl
@[simp] theorem setTide_al (s : State) (k : Nat) (x : Tide) : (s.setTide k x).al = s.al := rfl
@[simp] theorem setTide_fe (s : State) (k : Nat) (x : Tide) : (s.setTide k x).fe = s.fe := rfl
@[simp] theorem setTide_dv (s : State) (k : Nat) (x : Tide) : (s.setTide k x).dv = s.dv := rfl

/-! ### State.setGroup -/

@[simp] theorem setGroup_agenda (s : State) (g : Nat) (x : Group) : (s.setGroup g x).agenda = s.agenda := rfl
@[simp] theorem setGroup_focus (s : State) (g : Nat) (x : Group) : (s.setGroup g x).focus = s.focus := rfl
@[simp] theorem setGroup_freeCtr (s : State) (g : Nat) (x : Group) : (s.setGroup g x).freeCtr = s.freeCtr := rfl
@[simp] theorem setGroup_outbox (s : State) (g : Nat) (x : Group) : (s.setGroup g x).outbox = s.outbox := rfl
@[simp] theorem setGroup_nextId (s : State) (g : Nat) (x : Group) : (s.setGroup g x).nextId = s.nextId := rfl
@[simp] theorem setGroup_clock (s : State) (g : Nat) (x : Group) : (s.setGroup g x).clock = s.clock := rfl
@[simp] theorem setGroup_tiles (s : State) (g : Nat) (x : Group) : (s.setGroup g x).tiles = s.tiles := rfl
@[simp] theorem setGroup_slots (s : State) (g : Nat) (x : Group) : (s.setGroup g x).slots = s.slots := rfl
@[simp] theorem setGroup_store (s : State) (g : Nat) (x : Group) : (s.setGroup g x).store = s.store := rfl
@[simp] theorem setGroup_arcs (s : State) (g : Nat) (x : Group) : (s.setGroup g x).arcs = s.arcs := rfl
@[simp] theorem setGroup_mm (s : State) (g : Nat) (x : Group) : (s.setGroup g x).mm = s.mm := rfl
@[simp] theorem setGroup_en (s : State) (g : Nat) (x : Group) : (s.setGroup g x).en = { s.en with groups := s.en.groups.put g x } := rfl
@[simp] theorem setGroup_al (s : State) (g : Nat) (x : Group) : (s.setGroup g x).al = s.al := rfl
@[simp] theorem setGroup_fe (s : State) (g : Nat) (x : Group) : (s.setGroup g x).fe = s.fe := rfl
@[simp] theorem setGroup_dv (s : State) (g : Nat) (x : Group) : (s.setGroup g x).dv = s.dv := rfl

/-! ### State.setCommand -/

@[simp] theorem setCommand_agenda (s : State) (n : Nat) (x : Command) : (s.setCommand n x).agenda = s.agenda := rfl
@[simp] theorem setCommand_focus (s : State) (n : Nat) (x : Command) : (s.setCommand n x).focus = s.focus := rfl
@[simp] theorem setCommand_freeCtr (s : State) (n : Nat) (x : Command) : (s.setCommand n x).freeCtr = s.freeCtr := rfl
@[simp] theorem setCommand_outbox (s : State) (n : Nat) (x : Command) : (s.setCommand n x).outbox = s.outbox := rfl
@[simp] theorem setCommand_nextId (s : State) (n : Nat) (x : Command) : (s.setCommand n x).nextId = s.nextId := rfl
@[simp] theorem setCommand_clock (s : State) (n : Nat) (x : Command) : (s.setCommand n x).clock = s.clock := rfl
@[simp] theorem setCommand_tiles (s : State) (n : Nat) (x : Command) : (s.setCommand n x).tiles = s.tiles := rfl
@[simp] theorem setCommand_slots (s : State) (n : Nat) (x : Command) : (s.setCommand n x).slots = s.slots := rfl
@[simp] theorem setCommand_store (s : State) (n : Nat) (x : Command) : (s.setCommand n x).store = s.store := rfl
@[simp] theorem setCommand_arcs (s : State) (n : Nat) (x : Command) : (s.setCommand n x).arcs = s.arcs := rfl
@[simp] theorem setCommand_mm (s : State) (n : Nat) (x : Command) : (s.setCommand n x).mm = s.mm := rfl
@[simp] theorem setCommand_en (s : State) (n : Nat) (x : Command) : (s.setCommand n x).en = { s.en with commands := s.en.commands.put n x } := rfl
@[simp] theorem setCommand_al (s : State) (n : Nat) (x : Command) : (s.setCommand n x).al = s.al := rfl
@[simp] theorem setCommand_fe (s : State) (n : Nat) (x : Command) : (s.setCommand n x).fe = s.fe := rfl
@[simp] theorem setCommand_dv (s : State) (n : Nat) (x : Command) : (s.setCommand n x).dv = s.dv := rfl

/-! ### State.setRegion -/

@[simp] theorem setRegion_agenda (s : State) (n : Nat) (x : Region) : (s.setRegion n x).agenda = s.agenda := rfl
@[simp] theorem setRegion_focus (s : State) (n : Nat) (x : Region) : (s.setRegion n x).focus = s.focus := rfl
@[simp] theorem setRegion_freeCtr (s : State) (n : Nat) (x : Region) : (s.setRegion n x).freeCtr = s.freeCtr := rfl
@[simp] theorem setRegion_outbox (s : State) (n : Nat) (x : Region) : (s.setRegion n x).outbox = s.outbox := rfl
@[simp] theorem setRegion_nextId (s : State) (n : Nat) (x : Region) : (s.setRegion n x).nextId = s.nextId := rfl
@[simp] theorem setRegion_clock (s : State) (n : Nat) (x : Region) : (s.setRegion n x).clock = s.clock := rfl
@[simp] theorem setRegion_tiles (s : State) (n : Nat) (x : Region) : (s.setRegion n x).tiles = s.tiles := rfl
@[simp] theorem setRegion_slots (s : State) (n : Nat) (x : Region) : (s.setRegion n x).slots = s.slots := rfl
@[simp] theorem setRegion_store (s : State) (n : Nat) (x : Region) : (s.setRegion n x).store = s.store := rfl
@[simp] theorem setRegion_arcs (s : State) (n : Nat) (x : Region) : (s.setRegion n x).arcs = s.arcs := rfl
@[simp] theorem setRegion_mm (s : State) (n : Nat) (x : Region) : (s.setRegion n x).mm = s.mm := rfl
@[simp] theorem setRegion_en (s : State) (n : Nat) (x : Region) : (s.setRegion n x).en = { s.en with regions := s.en.regions.put n x } := rfl
@[simp] theorem setRegion_al (s : State) (n : Nat) (x : Region) : (s.setRegion n x).al = s.al := rfl
@[simp] theorem setRegion_fe (s : State) (n : Nat) (x : Region) : (s.setRegion n x).fe = s.fe := rfl
@[simp] theorem setRegion_dv (s : State) (n : Nat) (x : Region) : (s.setRegion n x).dv = s.dv := rfl

/-! ### State.emit -/

@[simp] theorem emit_agenda (s : State) (e : Emission) : (s.emit e).agenda = s.agenda := rfl
@[simp] theorem emit_focus (s : State) (e : Emission) : (s.emit e).focus = s.focus := rfl
@[simp] theorem emit_freeCtr (s : State) (e : Emission) : (s.emit e).freeCtr = s.freeCtr := rfl
@[simp] theorem emit_outbox (s : State) (e : Emission) : (s.emit e).outbox = e :: s.outbox := rfl
@[simp] theorem emit_nextId (s : State) (e : Emission) : (s.emit e).nextId = s.nextId := rfl
@[simp] theorem emit_clock (s : State) (e : Emission) : (s.emit e).clock = s.clock := rfl
@[simp] theorem emit_tiles (s : State) (e : Emission) : (s.emit e).tiles = s.tiles := rfl
@[simp] theorem emit_slots (s : State) (e : Emission) : (s.emit e).slots = s.slots := rfl
@[simp] theorem emit_store (s : State) (e : Emission) : (s.emit e).store = s.store := rfl
@[simp] theorem emit_arcs (s : State) (e : Emission) : (s.emit e).arcs = s.arcs := rfl
@[simp] theorem emit_mm (s : State) (e : Emission) : (s.emit e).mm = s.mm := rfl
@[simp] theorem emit_en (s : State) (e : Emission) : (s.emit e).en = s.en := rfl
@[simp] theorem emit_al (s : State) (e : Emission) : (s.emit e).al = s.al := rfl
@[simp] theorem emit_fe (s : State) (e : Emission) : (s.emit e).fe = s.fe := rfl
@[simp] theorem emit_dv (s : State) (e : Emission) : (s.emit e).dv = s.dv := rfl

/-! ### State.soon -/

@[simp] theorem soon_agenda (s : State) (d : DueRow) : (s.soon d).agenda = .due d :: s.agenda := rfl
@[simp] theorem soon_focus (s : State) (d : DueRow) : (s.soon d).focus = s.focus := rfl
@[simp] theorem soon_freeCtr (s : State) (d : DueRow) : (s.soon d).freeCtr = s.freeCtr := rfl
@[simp] theorem soon_outbox (s : State) (d : DueRow) : (s.soon d).outbox = s.outbox := rfl
@[simp] theorem soon_nextId (s : State) (d : DueRow) : (s.soon d).nextId = s.nextId := rfl
@[simp] theorem soon_clock (s : State) (d : DueRow) : (s.soon d).clock = s.clock := rfl
@[simp] theorem soon_tiles (s : State) (d : DueRow) : (s.soon d).tiles = s.tiles := rfl
@[simp] theorem soon_slots (s : State) (d : DueRow) : (s.soon d).slots = s.slots := rfl
@[simp] theorem soon_store (s : State) (d : DueRow) : (s.soon d).store = s.store := rfl
@[simp] theorem soon_arcs (s : State) (d : DueRow) : (s.soon d).arcs = s.arcs := rfl
@[simp] theorem soon_mm (s : State) (d : DueRow) : (s.soon d).mm = s.mm := rfl
@[simp] theorem soon_en (s : State) (d : DueRow) : (s.soon d).en = s.en := rfl
@[simp] theorem soon_al (s : State) (d : DueRow) : (s.soon d).al = s.al := rfl
@[simp] theorem soon_fe (s : State) (d : DueRow) : (s.soon d).fe = s.fe := rfl
@[simp] theorem soon_dv (s : State) (d : DueRow) : (s.soon d).dv = s.dv := rfl

/-! ### State.later -/

@[simp] theorem later_agenda (s : State) (d : DueRow) : (s.later d).agenda = s.agenda ++ [.due d] := rfl
@[simp] theorem later_focus (s : State) (d : DueRow) : (s.later d).focus = s.focus := rfl
@[simp] theorem later_freeCtr (s : State) (d : DueRow) : (s.later d).freeCtr = s.freeCtr := rfl
@[simp] theorem later_outbox (s : State) (d : DueRow) : (s.later d).outbox = s.outbox := rfl
@[simp] theorem later_nextId (s : State) (d : DueRow) : (s.later d).nextId = s.nextId := rfl
@[simp] theorem later_clock (s : State) (d : DueRow) : (s.later d).clock = s.clock := rfl
@[simp] theorem later_tiles (s : State) (d : DueRow) : (s.later d).tiles = s.tiles := rfl
@[simp] theorem later_slots (s : State) (d : DueRow) : (s.later d).slots = s.slots := rfl
@[simp] theorem later_store (s : State) (d : DueRow) : (s.later d).store = s.store := rfl
@[simp] theorem later_arcs (s : State) (d : DueRow) : (s.later d).arcs = s.arcs := rfl
@[simp] theorem later_mm (s : State) (d : DueRow) : (s.later d).mm = s.mm := rfl
@[simp] theorem later_en (s : State) (d : DueRow) : (s.later d).en = s.en := rfl
@[simp] theorem later_al (s : State) (d : DueRow) : (s.later d).al = s.al := rfl
@[simp] theorem later_fe (s : State) (d : DueRow) : (s.later d).fe = s.fe := rfl
@[simp] theorem later_dv (s : State) (d : DueRow) : (s.later d).dv = s.dv := rfl

/-! ### Reading back -/

@[simp] theorem setSlot_slot (s : State) (k : Nat) (x : Slot) : (s.setSlot k x).slot k = some x := find_put _ _ _
theorem setSlot_slot_other (s : State) {k j : Nat} (x : Slot) (h : j ≠ k) : (s.setSlot k x).slot j = s.slot j := find_put_other _ _ h
@[simp] theorem putFiring_slot (s : State) (k : Nat) (sl : Slot) (f : Firing) :
    (s.putFiring k sl f).slot k = some { sl with firing := some f } := find_put _ _ _
theorem putFiring_slot_other (s : State) {k j : Nat} (sl : Slot) (f : Firing) (h : j ≠ k) : (s.putFiring k sl f).slot j = s.slot j :=
  find_put_other _ _ h
@[simp] theorem setTile_tile (s : State) (t : Nat) (x : Tile) : (s.setTile t x).tile t = x := by
  simp [State.tile, find_put]
theorem setTile_tile_other (s : State) {t u : Nat} (x : Tile) (h : u ≠ t) : (s.setTile t x).tile u = s.tile u := by
  simp [State.tile, find_put_other _ _ h]
@[simp] theorem setArc_arc (s : State) (n : Nat) (x : Arc) : (s.setArc n x).arc n = some x := find_put _ _ _
theorem setArc_arc_other (s : State) {n m : Nat} (x : Arc) (h : m ≠ n) : (s.setArc n x).arc m = s.arc m := find_put_other _ _ h
@[simp] theorem setCtx_ctx (s : State) (n : Nat) (x : Ctx) : (s.setCtx n x).ctx n = x := by simp [State.ctx, find_put]
theorem setCtx_ctx_other (s : State) {n m : Nat} (x : Ctx) (h : m ≠ n) : (s.setCtx n x).ctx m = s.ctx m := by
  simp [State.ctx, find_put_other _ _ h]
@[simp] theorem setQueue_queue (s : State) (n : Nat) (x : Queue) : (s.setQueue n x).queue n = x := by simp [State.queue, find_put]
theorem setQueue_queue_other (s : State) {n m : Nat} (x : Queue) (h : m ≠ n) : (s.setQueue n x).queue m = s.queue m := by
  simp [State.queue, find_put_other _ _ h]
@[simp] theorem setBarrier_barrier (s : State) (n : Nat) (x : Barrier) : (s.setBarrier n x).barrier n = x := by
  simp [State.barrier, find_put]
@[simp] theorem setTide_tide (s : State) (n : Nat) (x : Tide) : (s.setTide n x).tide n = x := by simp [State.tide, find_put]
@[simp] theorem setGroup_group (s : State) (n : Nat) (x : Group) : (s.setGroup n x).group n = x := by simp [State.group, find_put]
@[simp] theorem setCommand_command (s : State) (n : Nat) (x : Command) : (s.setCommand n x).command n = some x := find_put _ _ _
@[simp] theorem setRegion_region (s : State) (n : Nat) (x : Region) : (s.setRegion n x).region n = some x := find_put _ _ _

/-- The firing that runs on the tile in focus, as a put back firing leaves it. -/
theorem putFiring_current {s : State} {k : Nat} {sl : Slot} {f : Firing} (h : s.current = some (k, sl, f)) (g : Firing) :
    (s.putFiring k sl g).current = some (k, { sl with firing := some g }, g) := by
  unfold State.current at h ⊢
  have ht : (s.putFiring k sl g).tile (s.putFiring k sl g).focus = s.tile s.focus := rfl
  rw [ht]
  split at h
  · cases h
  · rename_i i hi
    split at h
    · cases h
    · rename_i u hu
      cases hf : u.firing with
      | none => simp [hf] at h
      | some v =>
        simp only [hf, Option.some.injEq, Prod.mk.injEq] at h
        obtain ⟨rfl, rfl, rfl⟩ := h
        simp

end Sys2Proof.Laws
end

