-- ==== Sys2Proof/Laws/Stops.lean ====
section
/-! SUPPORT. What parking, a trap, a page fault and the step to irrevocable can do: one lemma for each case of each. -/

namespace Sys2Proof.Laws

open Sys2Proof.Machine

/-- A slot after an update of it. -/
theorem updSlot_slot (s : State) (k : Nat) (g : Slot → Slot) : (s.updSlot k g).slot k = (s.slot k).map g := by
  simp only [State.slot, State.updSlot, find_upd, if_true]

theorem updSlot_slot_other (s : State) {k j : Nat} (g : Slot → Slot) (h : j ≠ k) : (s.updSlot k g).slot j = s.slot j := by
  simp only [State.slot, State.updSlot, find_upd, if_neg h]

theorem setTile_slot (s : State) (t k : Nat) (x : Tile) : (s.setTile t x).slot k = s.slot k := rfl

/-- A parked firing waits, its slot else as before. -/
theorem park_slot {s : State} {k : Nat} {sl : Slot} {f : Firing} (w : Wait) (h : s.slot k = some sl) (hf : sl.firing = some f) :
    (s.park k w).slot k = some { sl with firing := some { f with parked := some w, begun := f.begun || w.inside } } := by
  unfold State.park
  dsimp only
  split
  · rw [setTile_slot, updSlot_slot, h]
    simp [hf]
  · rw [updSlot_slot, h]
    simp [hf]

theorem park_slot_other (s : State) {k j : Nat} (w : Wait) (h : j ≠ k) : (s.park k w).slot j = s.slot j := by
  unfold State.park
  dsimp only
  split
  · rw [setTile_slot, updSlot_slot_other s _ h]
  · rw [updSlot_slot_other s _ h]

/-- Parking changes a slot and a tile only. -/
theorem park_frame (s : State) (k : Nat) (w : Wait) :
    s.park k w = { s with slots := (s.park k w).slots, tiles := (s.park k w).tiles } := by
  unfold State.park
  dsimp only
  split <;> rfl

/-- A trap of a slot with a firing; without one there is nothing to trap. -/
theorem takeTrap_firing {s : State} {k : Nat} {sl : Slot} {f : Firing} (t : TrapInfo) (h : s.slot k = some sl) (hf : sl.firing = some f) :
    s.takeTrap k t = s.trapFrom k sl f f.pc t := by
  simp [State.takeTrap, h, hf]

theorem takeTrap_idle {s : State} {k : Nat} (t : TrapInfo) (h : (s.slot k).bind (·.firing) = none) : s.takeTrap k t = s := by
  unfold State.takeTrap
  cases hs : s.slot k with
  | none => rfl
  | some sl =>
    rw [hs] at h
    have hf : sl.firing = none := h
    simp [hf]

/-- Where a trap goes (21 R371, R373): a handler's own to policy, 0x12 to the fallback, else to the handler that TRAPV enables, else to
policy. -/
theorem trapFrom_handler (s : State) (k idx : Nat) (sl : Slot) {f : Firing} (t : TrapInfo) (h : f.handler = true) :
    s.trapFrom k sl f idx t = (s.dropFiring k).toPolicy k (nestRecord (s.trapRecord k sl idx f.irr f.rset f.phase t)) := by
  simp [State.trapFrom, h]

theorem trapFrom_enabled (s : State) (k idx : Nat) {sl : Slot} {f : Firing} {t : TrapInfo} (h : f.handler = false) (hc : t.code ≠ 0x12)
    (hv : sl.sys.trapv.getLsbD 0 = true) :
    s.trapFrom k sl f idx t = ((s.dropFiring k).updSlot k fun u =>
      { u with trapc := BitVec.ofNat 64 (bit f.irr * 256 + t.code), trapi := s.trapRecord k sl idx f.irr f.rset f.phase t,
               due.trapped := true, due.handler := true }).soon (.handlerFiringStart k) := by
  simp [State.trapFrom, h, hc, hv]

theorem trapFrom_disabled (s : State) (k idx : Nat) {sl : Slot} {f : Firing} {t : TrapInfo} (h : f.handler = false) (hc : t.code ≠ 0x12)
    (hv : sl.sys.trapv.getLsbD 0 = false) :
    s.trapFrom k sl f idx t = (s.dropFiring k).toPolicy k (s.trapRecord k sl idx f.irr f.rset f.phase t) := by
  simp [State.trapFrom, h, hc, -BitVec.getLsbD_eq_getElem, hv]

/-- A page fault (20 R360): after FAIL trap 0x08; an irrevocable firing parks; a revocable one is voided and its slot waits. -/
theorem pageFault_failed {s : State} {k va reason : Nat} {w : Bool} {sl : Slot} {f : Firing} (h : s.slot k = some sl) (hf : sl.firing = some f)
    (hx : f.failedFault = true) :
    s.pageFault k va reason w = s.takeTrap k { code := 0x08, info := BitVec.ofNat 64 va, aux := BitVec.ofNat 64 (max 1 reason) } := by
  simp [State.pageFault, h, hf, hx]

theorem pageFault_parks {s : State} {k va reason : Nat} {w : Bool} {sl : Slot} {f : Firing} (h : s.slot k = some sl) (hf : sl.firing = some f)
    (hx : f.failedFault = false) (hi : f.irr = true) :
    s.pageFault k va reason w = (s.newFault va reason (.tile k) sl.pl.ctx w).park k (.page s.nextId) := by
  simp [State.pageFault, h, hf, hx, hi]

theorem pageFault_voids {s : State} {k va reason : Nat} {w : Bool} {sl : Slot} {f : Firing} (h : s.slot k = some sl) (hf : sl.firing = some f)
    (hx : f.failedFault = false) (hi : f.irr = false) :
    s.pageFault k va reason w = ((s.newFault va reason (.tile k) sl.pl.ctx w).dropFiring k).updSlot k fun u =>
      { u with due.fault := some s.nextId, due.handler := f.handler } := by
  simp [State.pageFault, h, hf, hx, hi]

/-- The firing is irrevocable afterwards, and else as before. -/
theorem irrevocable_ok {s : State} {k : Nat} {sl : Slot} {f g : Firing} {i : Instr} (h : s.irrevocable k sl f i = .ok g) :
    g = { f with irr := true } := by
  unfold State.irrevocable at h
  split at h
  · rename_i hi
    have hg : f = g := Except.ok.inj h
    rw [← hg]
    cases f
    simp only at hi
    subst hi
    rfl
  · split at h
    · cases h
    · split at h
      · cases h
      · exact (Except.ok.inj h).symm

theorem irrevocable_waits {s : State} {k : Nat} {sl : Slot} {f : Firing} (i : Instr) (hi : f.irr = false)
    (hl : s.lowerDone k f.r.stamp.toNat sl.pl.rank = false) : s.irrevocable k sl f i = .error (.wait .lowerStamps) := by
  simp [State.irrevocable, hi, hl]

end Sys2Proof.Laws
end

