-- ==== Sys2Proof/Tests/Slice0.lean ====
section
/-! SUPPORT. Tests of the model on small concrete inputs: words of the spec and what they decode to, an ill-formed term for every
check, single steps on small states, and for every obligation with hypotheses a named input that meets them. -/

namespace Sys2Proof.Tests
open Sys2Proof.Machine Sys2Proof.Safety Sys2Proof.Laws
set_option Elab.async false

/-! ### Words of the spec's encoding tables and what they stand for (04 R63 to R77, 08, 11, 12, 14 to 23) -/

/-- Format R with the guard always. -/
def rOf (ty : Ty) (d a b c : Reg) (pm : Fin 16 := 0) (m : Mods := noMods) : RFields :=
  { guard := .always, ty := ty, d := d, a := a, b := b, c := c, pm := pm, mods := m }
/-- Format Y with the guard always. -/
def yOf (sub : Byte) (gr : Reg) (sysreg : BitVec 12 := 0) : YFields := { guard := .always, sub := sub, sysreg := sysreg, gr := gr }
/-- Format A with the guard always. -/
def aOf (ty : Ty) (d : Reg) (arc : Fin 16) (count off : Byte) : AFields :=
  { guard := .always, ty := ty, d := d, arc := arc, count := count, off := off, pm := 0, mods := noMods }
/-- Format I with the guard always. -/
def iOf (ty : Ty) (d a : Reg) (imm : Half) : IFields :=
  { guard := .always, ty := ty, d := d, a := a, imm := imm, pm := 0, mods := noMods }
/-- Format M with the guard always. -/
def mOf (ty : Ty) (d base index : Reg) (disp : Byte) (sp : Space := .global) (scl : Fin 4 := 0) : MFields :=
  { guard := .always, ty := ty, d := d, base := base, index := index, disp := disp, pm := 0, sp := sp, scl := scl, co := false, ns := false }
/-- An atomic with the guard always. -/
def tOf (ty : Ty) (d a b : Reg) (order : Order := .relaxed) : AtomFields :=
  { guard := .always, ty := ty, d := d, a := a, b := b, c := .g 0, pm := 0, rnd := .dyn, sat := false, order := order }
/-- Format B with the guard always. -/
def bOf (sel : Fin 64) (disp : BitVec 42) : BFields := { guard := .always, sel := sel, disp := disp }
/-- Format E with the guard always. -/
def eOf (tl : Fin 8) (deferred : Bool) (desc : Reg) : EFields :=
  { guard := .always, tl := tl, deferred := deferred, desc := desc, len := .g 0, bar := 0, bw := false, flags := 0 }
/-- Format X with the guard always. -/
def xOf (tyA tyB : Ty) (acc : Fin 4) (am : AccMode) (a b : Reg) (kidx : Byte) : XFields :=
  { guard := .always, tyA := tyA, tyB := tyB, acc := acc, am := am, a := a, b := b, kidx := kidx, pm := 0, mods := noMods }

theorem test_decode_control :
    decode 0x0100000000000000 = .ok (.nop (rOf .i8 (.g 0) (.g 0) (.g 0) (.g 0))) ∧
    decode 0x0610000000000100 = .ok (.call (bOf 4 1)) ∧
    decode 0x0B00000000000000 = .ok (.clog (iOf .i8 (.g 0) (.g 0) 0)) ∧
    decode 0x0B00000000080000 = .error .fields ∧
    decode 0x0D000290000000C2 = .ok (.fabt { rOf .i8 (.g 0) (.g 41) (.g 0) (.g 0) with guard := .cond true 2 }) ∧
    decode 0x0C00000000000081 = .ok (.fend { rOf .i8 (.g 0) (.g 0) (.g 0) (.g 0) with guard := .cond false 1 }) := by
  refine ⟨?_, ?_, ?_, ?_, ?_, ?_⟩ <;> rfl

theorem test_decode_scalar :
    decode 0x2660304050600000 = .ok (.adds (rOf .i64 (.g 3) (.g 4) (.g 5) (.g 6))) ∧
    decode 0x2151513051400000 = .ok (.sel (rOf .n32 (.g 21) (.g 19) (.g 5) (.g 20))) ∧
    decode 0x2B40304000500000 = .ok (.shli (iOf .i32 (.g 3) (.g 4) 5)) ∧
    decode 0x2C70B09003D00000 = .ok (.shri (iOf .n64 (.g 11) (.g 9) 61)) ∧
    decode 0x35D030405060A000 = .ok (.ffma (rOf .f64 (.g 3) (.g 4) (.g 5) (.g 6) 0 { noMods with rnd := .rna })) := by
  refine ⟨?_, ?_, ?_, ?_, ?_⟩ <;> rfl

theorem test_decode_vector :
    decode 0x4064341420000000 = .ok (.vadd (rOf .i64 (.v 3) (.v 1) (.v 2) (.g 0))) ∧
    decode 0x52CD243440500000 = .ok (.vcmp (rOf .f32 (.p 2) (.v 3) (.v 4) (.g 5))) ∧
    decode 0x54C5956000A00100 = .ok (.vcvt ⟨.always, .f32, .bf16, .v 25, .v 22, .g 0, 0, { noMods with w := true }⟩) ∧
    decode 0x5DC4441C00000000 = .ok (.vaddi (iOf .f32 (.v 4) (.v 1) 0xC000)) ∧
    decode 0x49C44447F0000000 = .ok (.vmax (rOf .f32 (.v 4) (.v 4) (.v 63) (.g 0))) ∧
    decode 0x63C0748000960000 = .ok (.vred (rOf .f32 (.g 7) (.v 8) (.g 0) (.g 9) 6)) ∧
    decode 0x6454544000900100 = .ok (.vscan (rOf .n32 (.v 5) (.v 4) (.g 0) (.g 9) 0 { noMods with w := true })) ∧
    decode 0x6744748D10000000 = .ok (.vcmpr (rOf .i32 (.v 7) (.v 8) (.p 1) (.g 0))) ∧
    decode 0x6D54844D50000000 = .ok (.vsort (rOf .n32 (.v 8) (.v 4) (.p 5) (.g 0))) ∧
    decode 0x6E54A42D10300000 = .ok (.vseg (rOf .n32 (.v 10) (.v 2) (.p 1) (.g 3))) ∧
    decode 0x69503D1000000000 = .ok (.vpcnt (rOf .n32 (.g 3) (.p 1) (.g 0) (.g 0))) := by
  refine ⟨?_, ?_, ?_, ?_, ?_, ?_, ?_, ?_, ?_, ?_, ?_⟩ <;> rfl

theorem test_decode_matrix :
    decode 0x70AA1484C0200000 = .ok (.mma (xOf .bf16 .bf16 0 .add (.v 8) (.v 12) 2)) ∧
    decode 0x72AA804050600000 = .ok (.mmt (xOf .bf16 .bf16 2 .set (.g 4) (.g 5) 6)) ∧
    decode 0x73CC044490400000 = .ok (.mrec (xOf .f32 .f32 0 .set (.v 4) (.v 9) 4)) ∧
    decode 0x740C200000000000 = .ok (.mzero (rOf .i8 (.a 2) (.g 0) (.g 0) (.g 0))) ∧
    decode 0x76AC204000000000 = .ok (.msta (mOf .bf16 (.a 2) (.g 4) (.g 0) 0)) ∧
    decode 0x78D5444450600000 = .ok (.msplt (rOf .f64 (.v 20) (.v 4) (.v 5) (.g 6))) ∧
    decode 0x79DC2C0474800000 = .ok (.mjoin (rOf .f64 (.a 2) (.a 0) (.v 7) (.v 8))) ∧
    decode 0x7EC45C2060000000 = .ok (.mtov (rOf .f32 (.v 5) (.a 2) (.g 6) (.g 0))) := by
  refine ⟨?_, ?_, ?_, ?_, ?_, ?_, ?_, ?_⟩ <;> rfl

theorem test_decode_memory :
    decode 0x8270304000800000 = .ok (.ldaq (mOf .n64 (.g 3) (.g 4) (.g 0) 8)) ∧
    decode 0x8944704060306000 = .ok (.vsct (mOf .i32 (.v 7) (.g 4) (.g 6) 3 .tile 2)) ∧
    decode 0x8654505070404000 = .ok (.vlds (mOf .n32 (.v 5) (.g 5) (.g 7) 4 .tile)) ∧
    decode 0x9144500000100000 = .ok (.peek (aOf .i32 (.v 5) 0 0 1)) ∧
    decode 0x9250300008000000 = .ok (.emit (aOf .n32 (.g 3) 0 0 128)) ∧
    decode 0x9600100000000000 = .ok (.mark (aOf .i8 (.g 1) 0 0 0)) ∧
    decode 0x9400500010000000 = .ok (.arcq (aOf .i8 (.g 5) 0 1 0)) ∧
    decode 0x9500000020000000 = .ok (.skip (aOf .i8 (.g 0) 0 2 0)) := by
  refine ⟨?_, ?_, ?_, ?_, ?_, ?_, ?_, ?_⟩ <;> rfl

theorem test_decode_atomic_and_time :
    decode 0xA050304050000000 = .ok (.aincb (tOf .n32 (.g 3) (.g 4) (.g 5))) ∧
    decode 0x9952423220000000 = .ok (.amin (tOf .n32 (.g 36) (.g 35) (.g 34))) ∧
    decode 0x9E500282A0000800 = .ok (.aswp (tOf .n32 (.g 0) (.g 40) (.g 42) .rel)) ∧
    decode 0xA650F0E001A00000 = .ok (.awt { tOf .n32 (.g 15) (.g 14) (.g 0) with c := .g 26 }) ∧
    decode 0xA9000E2050000000 = .ok (.tlwait (rOf .i8 (.g 0) (.tl 2) (.g 5) (.g 0))) ∧
    decode 0xB40000003E800000 = .ok (.sleep (iOf .i8 (.g 0) (.g 0) 1000)) := by
  refine ⟨?_, ?_, ?_, ?_, ?_, ?_⟩ <;> rfl

theorem test_decode_engine_and_residency :
    decode 0xB850500000000000 = .ok (.cpy (eOf 2 true (.g 5))) ∧
    decode 0xBA10F00000000000 = .ok (.cpyxGather (eOf 0 true (.g 15))) ∧
    decode 0xC210000000000000 = .ok (.coll (eOf 0 true (.g 0))) ∧
    decode 0xC800004050000000 = .ok (.flood (rOf .i8 (.g 0) (.g 4) (.g 5) (.g 0))) ∧
    decode 0xC900004000000000 = .ok (.ebb (rOf .i8 (.g 0) (.g 4) (.g 0) (.g 0))) ∧
    decode 0xCB00304000000000 = .ok (.tideq (rOf .i8 (.g 3) (.g 4) (.g 0) (.g 0))) ∧
    decode 0xD000045000020000 = .ok (.sres (rOf .i8 (.g 0) (.v 5) (.g 0) (.g 0) 2)) := by
  refine ⟨?_, ?_, ?_, ?_, ?_, ?_, ?_⟩ <;> rfl

theorem test_decode_system :
    decode 0xD4000041E0000000 = .ok (.mfsr (yOf 0 (.g 30) 4)) ∧
    decode 0xD500010050000000 = .ok (.mtsr (yOf 0 (.g 5) 0x010)) ∧
    decode 0xD601000060000000 = .ok (.syscEpoch (yOf 1 (.g 6))) ∧
    decode 0xD701000000000000 = .ok (.sretSkip (yOf 1 (.g 0))) ∧
    decode 0xD702000000000089 = .ok (.sretEsc { yOf 2 (.g 0) with guard := .cond false 9 }) ∧
    decode 0xDA01000000000000 = .ok (.haltRel (yOf 1 (.g 0))) ∧
    decode 0xE003000050000000 = .ok (.cmpt (yOf 3 (.g 5))) := by
  refine ⟨?_, ?_, ?_, ?_, ?_, ?_, ?_⟩ <;> rfl

/-- R62: each step refuses a word of its own: an unassigned opcode, a type code the row does not take (0x0F is reserved), a register
specifier the row does not take, and an immediate out of range. -/
theorem test_decode_refuses_by_name :
    decode 0 = .error .opcode ∧ decode 0xE100000000000000 = .error .opcode ∧ decode 0x10F0304050000000 = .error .types ∧
    decode 0x1004304050000000 = .error .fields ∧ decode 0x2B403040FFF00000 = .error .immediate := by
  refine ⟨?_, ?_, ?_, ?_, ?_⟩ <;> rfl
/-! ### WellFormed: an ill-formed term for every check, which the check refuses -/

/-- Step 2 of R62: SEL of the 4-bit float type. -/
theorem test_wellFormed_types : (Instr.sel (rOf .e2m1 (.g 1) (.g 2) (.g 3) (.g 4))).wellFormed = false := by decide
/-- Step 3 of R62: a vector register where ADD takes general ones; a nonzero field that NOP does not have. -/
theorem test_wellFormed_fields : (Instr.add (rOf .i32 (.v 1) (.g 2) (.g 3) (.g 0))).wellFormed = false ∧
    (Instr.nop (rOf .i8 (.g 1) (.g 0) (.g 0) (.g 0))).wellFormed = false := by decide
/-- Step 4 of R62: a shift by more than the type's width. -/
theorem test_wellFormed_immediate : (Instr.shli (iOf .i32 (.g 1) (.g 2) 4095)).wellFormed = false := by decide
/-- A variant with another variant's code: HALT.rel with sub 0, a scatter with the flags of a gather. -/
theorem test_wellFormed_variant : (Instr.haltRel (yOf 0 (.g 0))).wellFormed = false ∧ (Instr.cpyxScatter (eOf 0 false (.g 1))).wellFormed = false := by
  decide
/-- The index ranges of the rows that no word encodes: tiles (R9), dies (R8), queues (R332), contexts (R18), ports (R357), links (R429). -/
theorem test_wellFormed_tile : (Instr.firingStart 1152).wellFormed = false ∧ (Instr.firingStart 1151).wellFormed = true := by decide
theorem test_wellFormed_die : (Instr.dieDrainHold 8).wellFormed = false ∧ (Instr.dieDrainHold 7).wellFormed = true := by decide
theorem test_wellFormed_queue : (Instr.packetFetch 64).wellFormed = false ∧ (Instr.packetFetch 63).wellFormed = true := by decide
theorem test_wellFormed_context : (Instr.debugHalt 64).wellFormed = false ∧ (Instr.debugHalt 63).wellFormed = true := by decide
theorem test_wellFormed_port : (Instr.mmuInvalidate 2 0).wellFormed = false ∧ (Instr.mmuInvalidate 1 0).wellFormed = true := by decide
theorem test_wellFormed_link : (Instr.linkWidthRetry 12).wellFormed = false ∧ (Instr.linkWidthRetry 11).wellFormed = true := by decide
/-- And a well-formed term of an encoded row, which has a word that decodes to it. -/
theorem test_wellFormed_add : (Instr.add (rOf .i32 (.g 3) (.g 4) (.g 5) (.g 0))).wellFormed = true ∧
    encode (.add (rOf .i32 (.g 3) (.g 4) (.g 5) (.g 0))) = some 0x1040304050000000 := by decide

/-! ### A firing of slot 0 on tile 0 -/

/-- The firing that stands in the state `State.placeBare` makes for a word 0, its slot, and the state. -/
def bare : State := State.reset.placeBare 0
def bareS : Slot := (bare.slot 0).getD (bareSlot 0)
def bareF : Firing := bareS.firing.getD (bare.newFiring 0 (bareSlot 0) 0 false)

theorem bare_current : bare.current = some (0, bareS, bareF) := by rfl

/-- The state in which that slot's firing is `f`, and the slot as it then stands. -/
def run (f : Firing) : State := bare.putFiring 0 bareS f
def runS (f : Firing) : Slot := { bareS with firing := some f }

theorem runs (f : Firing) : Runs (run f) 0 (runS f) f .always := ⟨putFiring_current bare_current f, rfl⟩
theorem running (f : Firing) : Running (run f) 0 (runS f) f := (runs f).1

/-- The registers of the firing with values in some general registers. -/
def gs (l : List (Fin 64 × Dword)) : Regs := l.foldl (fun r x => r.setG x.1 x.2) bareF.r
/-- The firing with registers `r`. -/
def withR (r : Regs) : Firing := { bareF with r := r }

/-- A general register, the flags FL and the pc of slot 0's firing after an instruction that goes on. -/
def after {α : Type} (o : Host.Outcome State Fault Refusal) (p : Slot → Firing → α) : Option α :=
  match o with
  | .next t => (t.slot 0).bind fun sl => sl.firing.map (p sl)
  | _ => none
def gOf (n : Fin 64) (_ : Slot) (f : Firing) : Dword := f.r.gr n
def flOf (_ : Slot) (f : Firing) : Nat := f.r.sys.fcsr.toNat % 32
def pcOf (_ : Slot) (f : Firing) : Nat := f.pc
/-- The code of the trap record that a slot holds (21 R369). -/
def trapOf (o : Host.Outcome State Fault Refusal) : Option Nat :=
  match o with
  | .next t => (t.slot 0).map fun sl => sl.trapc.toNat % 256
  | _ => none

/-! ### Scalar integer instructions -/

/-- R218: an I32 sum wraps and is sign-extended. -/
theorem test_add_wraps : after (exec (.add (rOf .i32 (.g 3) (.g 4) (.g 5) (.g 0))) (run (withR (gs [(4, 0x7FFFFFFF), (5, 1)])))) (gOf 3) =
    some 0xFFFFFFFF80000000 := by decide +kernel
/-- R219: division by zero gives -1 in an I type. -/
theorem test_div_by_zero : after (exec (.div (rOf .i64 (.g 3) (.g 4) (.g 0) (.g 0))) (run (withR (gs [(4, 5)])))) (gOf 3) =
    some 0xFFFFFFFFFFFFFFFF := by decide +kernel
/-- Every statement about an instruction of a firing begins with `Runs`, which `runs` meets for any firing and `Running` for a firing that
need not pass its guard. What else the statements ask stands in the witnesses, which name the operands that meet it. -/
theorem witness_DivisionAndRemainder :
    let r := gs [(4, 0x80000000), (5, 0xFFFFFFFF)]
    let e := { r with sys.fcsr := 0x480 }
    let q := fun r : Regs => quotient .i32 (src .i32 (.g 4) r) (src .i32 (.g 5) r)
    Runs (run (withR r)) 0 (runS (withR r)) (withR r) .always ∧ fits .i32 (remainder (src .i32 (.g 4) r) (src .i32 (.g 5) r)) ∧
    ¬ fits .i32 (q r) ∧ enables r &&& flagOF = 0 ∧ Runs (run (withR e)) 0 (runS (withR e)) (withR e) .always ∧ ¬ fits .i32 (q e) ∧
    enables e &&& flagOF ≠ 0 :=
  ⟨runs _, by unfold fits; decide +kernel, by unfold fits; decide +kernel, by decide +kernel, runs _, by unfold fits; decide +kernel,
    by decide +kernel⟩

/-- The sums at the ends of the range, and the bit fields at the ends of the register (length 1 and 32 are fields, 0 and 33 none). -/
theorem witness_IntegerArithmetic :
    let r := gs [(4, 0x7FFFFFFE), (5, 1), (6, 2), (7, 31), (8, 32)]
    let e := { r with sys.fcsr := 0x480 }
    let a := fun (r : Regs) (y : Reg) => src .i32 (.g 4) r + src .i32 y r
    Runs (run (withR r)) 0 (runS (withR r)) (withR r) .always ∧ fits .i32 (a r (.g 5)) ∧ ¬ fits .i32 (a r (.g 6)) ∧ enables r &&& flagOF = 0 ∧
    ¬ fits .i32 (a e (.g 6)) ∧ enables e &&& flagOF ≠ 0 ∧
    (1 ≤ (r.readG (.g 5)).toNat ∧ (r.readG (.g 7)).toNat + (r.readG (.g 5)).toNat ≤ Ty.i32.bits) ∧
    (1 ≤ (r.readG (.g 8)).toNat ∧ (r.readG (.g 0)).toNat + (r.readG (.g 8)).toNat ≤ Ty.i32.bits) ∧
    ¬ (1 ≤ (r.readG (.g 0)).toNat) ∧ ¬ ((r.readG (.g 7)).toNat + (r.readG (.g 6)).toNat ≤ Ty.i32.bits) :=
  ⟨runs _, by unfold fits; decide +kernel, by unfold fits; decide +kernel, by decide +kernel, by unfold fits; decide +kernel,
    by decide +kernel, by decide +kernel, by decide +kernel, by decide +kernel, by decide +kernel⟩

/-! ### Flags and scalar floating point -/

/-- R225: 1 + 1 = 2, and a scalar of NaN results is the canonical NaN (R202). -/
theorem test_fadd : after (exec (.fadd (rOf .f32 (.g 3) (.g 4) (.g 4) (.g 0))) (run (withR (gs [(4, 0x3F800000)])))) (gOf 3) =
    some 0x40000000 := by decide +kernel
theorem test_fsqrt_of_minus_one :
    after (exec (.fsqrt (rOf .f32 (.g 3) (.g 4) (.g 0) (.g 0))) (run (withR (gs [(4, 0xBF800000)])))) (fun sl f => (gOf 3 sl f, flOf sl f)) =
    some (0x7FC00000, 16) := by decide +kernel

/-- A signalling operand under SNT; a flag under TE; and both with nothing enabled. -/
theorem witness_FlagsAndTraps :
    let l := [(0, 1), (2, 48)]
    let r := gs []
    (orFlags l).testBit 5 = true ∧ ({ r with sys.fcsr := 0x2400 } : Regs).sys.fcsr.getLsbD 13 = true ∧
    (enables { r with sys.fcsr := 0x600 }).getLsbD 4 = true ∧
    ((orFlags [(0, 1)]).testBit 5 = false ∧ BitVec.ofNat 5 (orFlags [(0, 1)]) &&& enables { r with sys.fcsr := 0x420 } ≠ 0) ∧
    (r.sys.fcsr.getLsbD 13 = false ∧ (enables r).getLsbD 4 = false ∧ BitVec.ofNat 5 (orFlags l) &&& enables r = 0) := by
  decide +kernel
/-- Results that raise no trap, and one that does, of the scalar floating-point forms; FFLG at 31, and 32 which is none. -/
theorem witness_ScalarFloatArithmetic :
    let r := gs [(4, 0xBF800000), (5, 31), (6, 32)]
    let e := { r with sys.fcsr := 0x7E0 }
    let p := fun r : Regs => roundedTo .f32 noMods (fun r => exactSqrt (r.fval .f32 (.g 4) false)) r
    Runs (run (withR r)) 0 (runS (withR r)) (withR r) .always ∧ r.raise [(0, (p r).2)] = .ok (flagged r (BitVec.ofNat 5 (p r).2)) ∧
    Runs (run (withR e)) 0 (runS (withR e)) (withR e) .always ∧
    e.raise [(0, (p e).2)] = .error (.trap { code := 0x0B, fl := 16, elem := 0 }) ∧
    ((r.readG (.g 5)).toNat < 32 ∧ enables r &&& (r.readG (.g 5)).setWidth 5 = 0) ∧
    ((e.readG (.g 5)).toNat < 32 ∧ enables e &&& (e.readG (.g 5)).setWidth 5 ≠ 0) ∧ 32 ≤ (r.readG (.g 6)).toNat :=
  ⟨runs _, by rfl, runs _, by rfl, by decide +kernel, by decide +kernel, by decide +kernel⟩

/-! ### Vector instructions -/

/-- Registers with two vector registers filled with one 32-bit pattern each. -/
def vs (g : List (Fin 64 × Dword)) (x y : Dword) : Regs :=
  let two := fun v : Dword => BitVec.ofNat 2048 (v.toNat * ((2 ^ 2048 - 1) / (2 ^ 32 - 1)))
  { gs g with v := ((gs g).v.setIfInBounds 1 (two x)).setIfInBounds 2 (two y) }
def vOf (n : Fin 64) (w e : Nat) (_ : Slot) (f : Firing) : Nat := velem (f.r.v.get n) w e

theorem named_v (n : Fin 64) (r : Regs) : named (.v n) r := ⟨n, rfl⟩

/-- R233: every enabled element takes its sum, and the others keep their values. -/
theorem test_vadd : after (exec (.vadd { rOf .i32 (.v 3) (.v 1) (.v 2) (.g 0) with pm := 0 }) (run (withR (vs [] 5 7)))) (vOf 3 32 63) =
    some 12 := by decide +kernel
theorem test_vred : after (exec (.vred (rOf .i32 (.g 3) (.v 1) (.g 0) (.g 0))) (run (withR (vs [] 5 7)))) (gOf 3) = some 320 := by
  decide +kernel

/-- Quiet registers with named sources and destination: what every vector form asks. -/
theorem witness_VectorElementArithmetic :
    let f := bareF
    Runs (run f) 0 (runS f) f .always ∧ named (.v 3) f.r ∧ calm (three (.v 1) (.v 2) (.v 3)) f.r ∧
    plain .f32 (named (.v 1)) f.r ∧ Ty.i8.isInt = true ∧ Ty.f32.isFloat = true :=
  ⟨runs _, named_v 3 _, ⟨⟨by decide +kernel, by decide +kernel⟩, named_v 1 _, named_v 2 _, named_v 3 _⟩, ⟨by decide, named_v 1 _⟩,
    by decide, by decide⟩

/-- The last element and one past it, the last shuffle and one past it, and indirect operands at 63 and 64. -/
theorem witness_VectorMovesAndPermutations :
    let r := gs [(4, 63), (5, 64), (6, 3), (7, 4)]
    Runs (run (withR r)) 0 (runS (withR r)) (withR r) .always ∧ named (.v 1) r ∧ plain .i32 (two (.v 1) (.v 2)) r ∧
    (r.gr 4).toNat < 64 ∧ 64 ≤ (r.gr 5).toNat ∧ r.vecNum (.vi 4) = .ok 63 ∧
    (r.readG (.g 4)).toNat < 2048 / Ty.i32.bits ∧ 2048 / Ty.i32.bits ≤ (r.readG (.g 5)).toNat ∧
    (r.readG (.g 6)).toNat < 4 ∧ 4 ≤ (r.readG (.g 7)).toNat :=
  ⟨runs _, named_v 1 _, ⟨by decide, named_v 1 _, named_v 2 _⟩, by decide +kernel, by decide +kernel, by rfl, by decide +kernel,
    by decide +kernel, by decide +kernel, by decide +kernel⟩

/-- The last function codes and the first beyond them, for an integer and a floating-point type. -/
theorem witness_VectorPredicates :
    let r := gs [(4, 15), (5, 16), (6, 5), (7, 6), (8, 2), (9, 3)]
    Runs (run (withR r)) 0 (runS (withR r)) (withR r) .always ∧ quiet r ∧ named (.v 1) r ∧ named (.v 2) r ∧ Ty.i32 ≠ .e2m1 ∧
    (r.readG (.g 4)).toNat < 16 ∧ 16 ≤ (r.readG (.g 5)).toNat ∧
    ((r.readG (.g 6)).toNat ≤ (if Ty.i32.isInt then 5 else 2) ∧ (if Ty.i32.isInt then 5 else 2) < (r.readG (.g 7)).toNat) ∧
    ((r.readG (.g 8)).toNat ≤ (if Ty.f32.isInt then 5 else 2) ∧ (if Ty.f32.isInt then 5 else 2) < (r.readG (.g 9)).toNat) :=
  ⟨runs _, ⟨by decide +kernel, by decide +kernel⟩, named_v 1 _, named_v 2 _, by decide, by decide +kernel, by decide +kernel,
    by decide +kernel, by decide +kernel⟩

theorem witness_ScansAndSorting :
    let r := gs [(4, 5)]
    Runs (run (withR r)) 0 (runS (withR r)) (withR r) .always ∧ named (.v 3) r ∧ quiet r ∧ named (.v 1) r ∧
    (r.readG (.g 4)).toNat ≤ (if Ty.n32.isInt then 5 else 2) :=
  ⟨runs _, named_v 3 _, ⟨by decide +kernel, by decide +kernel⟩, named_v 1 _, by decide +kernel⟩

/-- Each kind of conversion: between plain types, out of blocks and into blocks. -/
theorem witness_BlocksAndConversions :
    let r := gs [(4, 3)]
    Runs (run (withR r)) 0 (runS (withR r)) (withR r) .always ∧ named (.v 4) r ∧ calm (named (.v 1)) r ∧
    (two (.v 1) (.v 2) r ∧ (r.readG (.g 4)).toNat < 4) ∧ (Ty.i8 ≠ .e2m1 ∧ Ty.f64 ≠ .e2m1) :=
  ⟨runs _, named_v 4 _, ⟨⟨by decide +kernel, by decide +kernel⟩, named_v 1 _⟩, ⟨⟨named_v 1 _, named_v 2 _⟩, by decide +kernel⟩,
    by decide⟩

/-! ### Control, traps and the end of a firing -/

/-- R98: LOOP at 1 writes 0 and falls through. -/
theorem test_loop_falls_through : after (exec (.loop (bOf 7 (-5))) (run (withR (gs [(7, 1)])))) (fun sl f => (gOf 7 sl f, pcOf sl f)) =
    some (0, 1) := by decide +kernel
/-- R97: a branch that leaves the run traps 0x09. -/
theorem test_branch_out_of_the_run : trapOf (exec (.bra (bOf 0 (-1))) (run bareF)) = some 0 ∧
    after (exec (.bra (bOf 0 0)) (run bareF)) pcOf = some 0 := by decide +kernel

/-- The slot runs at indices 0 to 0: a target at 0 is inside, at 1 and at -1 outside. A condition that holds and one that does not; a loop count
above 1; an index outside the run. -/
theorem witness_TransfersStayInTheRun :
    let r := { gs [(4, 0), (5, 1), (7, 2)] with c := 2 }
    let f := withR r
    let s := run f
    let sl := runS f
    Runs s 0 sl f .always ∧ s.cond sl f 1 = true ∧ s.cond sl f 0 = false ∧
    ((sl.pl.runBase : Int) ≤ f.pc + 0 ∧ (f.pc : Int) + 0 < sl.pl.runBase + sl.pl.runLen) ∧
    ¬ ((f.pc : Int) + 1 < sl.pl.runBase + sl.pl.runLen) ∧ ¬ ((sl.pl.runBase : Int) ≤ f.pc + (-1)) ∧
    ((r.readG (.g 4)).toNat < 32768 ∧ sl.pl.runBase ≤ (r.readG (.g 4)).toNat ∧ (r.readG (.g 4)).toNat < sl.pl.runBase + sl.pl.runLen) ∧
    ¬ ((r.readG (.g 5)).toNat < sl.pl.runBase + sl.pl.runLen) ∧ 1 < (r.gr 7).toNat ∧ inRun sl 1 = false := by
  refine ⟨runs _, ?_⟩
  decide +kernel

/-- Counts 0, 1 and 2. -/
theorem witness_LoopCountsDown :
    let r := gs [(4, 1), (5, 2)]
    Runs (run (withR r)) 0 (runS (withR r)) (withR r) .always ∧ r.gr 0 = 0 ∧ r.gr 4 = 1 ∧ 1 < (r.gr 5).toNat := by
  refine ⟨runs _, ?_⟩
  decide +kernel

/-- CLOG's copy of all bits and one of its functions of two. -/
theorem witness_ConditionBitsAndTrapInstructions :
    Runs (run bareF) 0 (runS bareF) bareF .always ∧ (0x1C00 : Half).toNat / 1024 % 8 = 7 ∧ (0x1800 : Half).toNat / 1024 % 8 ≠ 7 := by
  refine ⟨runs _, ?_⟩
  decide +kernel

/-- A firing that may end; one whose undelivered token traps at its end; a handler firing; and a check that CHKI asks for. -/
theorem witness_EndOfAFiring :
    let c := withR { bareF.r with sys.chki := 1 }
    let h := { bareF with handler := true }
    mayEnd (run bareF) 0 (runS bareF) (bareF.executed 0x0C) ∧ bareF.handler = false ∧ bareF.r.sys.chki.getLsbD 0 = false ∧
    (h.handler = true ∧ (run h).commandsEnded h.started = true ∧ (run h).outstanding 0 + h.b.commands ≤ 64 ∧ h.b.gbuf = [] ∧ h.b.sbuf = []) ∧
    (Runs (run c) 0 (runS c) c .always ∧ c.r.sys.chki.getLsbD 0 = true ∧ (run c).endChecks (runS c) (c.executed 0xDF) = .ok ()) := by
  refine ⟨⟨by rfl, by decide +kernel⟩, by decide +kernel, by decide +kernel, by decide +kernel, runs _, by decide +kernel, by rfl⟩

/-- A firing that has buffered two bytes. -/
theorem witness_CommitPublishesStores :
    let f := { bareF with b.gbuf := [(64, 1), (65, 2)] }
    let s := run f
    s.mm.mem.wf = true ∧ (f.b.gbuf.map (·.1)).Pairwise (· < ·) ∧ s.mm.splices = [] ∧ s.mm.order.under = [] ∧
    ∀ w ∈ f.b.gbuf, s.homeTakes w.1 (runS f).pl.tag (runS f).pl.gen = true := by
  decide +kernel

/-- A firing without and with a handler, a handler firing, and the returns from one. -/
theorem witness_TakingAndLeavingTraps :
    let h := { bareF with handler := true }
    (run bareF).slot 0 = some (runS bareF) ∧ (runS bareF).firing = some bareF ∧ bareF.handler = false ∧
    (runS bareF).sys.trapv.getLsbD 0 = false ∧ ({ runS bareF with sys.trapv := 1 } : Slot).sys.trapv.getLsbD 0 = true ∧
    Runs (run h) 0 (runS h) h .always ∧ h.handler = true ∧ (run h).commandsEnded h.started = true ∧
    (run h).outstanding 0 + h.b.commands ≤ 64 ∧ (h.b.gbuf = [] ∧ h.b.sbuf = []) := by
  refine ⟨by rfl, by rfl, by decide +kernel, by decide +kernel, by decide +kernel, runs _, by decide +kernel⟩

/-! ### Memory -/

/-- Global page 0 of context 0 is translated to PA 0x1230000, writable, and page 1 to the page behind it, read-only (20 R354's leaves,
for cove 0); page 2 is not mapped, page 3 lies in package 5 and page 4 in host memory. -/
def mapped (s : State) : State :=
  let e := fun n leaf => { unit := 0, ctx := 0, tag := 0, gen := (s.ctx 0).gen, vpg := n, level := 4, leaf := leaf }
  { s with mm.tlb := [e 0 0x000000000123000F, e 1 0x000000000124000B, e 3 0x000805000000000F, e 4 0x000400000000000F] }
def runM (f : Firing) : State := mapped (run f)

theorem runsM (f : Firing) : Runs (runM f) 0 (runS f) f .always := ⟨(runs f).1, rfl⟩

/-- R154: a load of a byte that nothing has written reads 0; a store is read back by the same firing. -/
theorem test_ld : after (exec (.ld (mOf .i32 (.g 3) (.g 4) (.g 0) 0)) (runM (withR (gs [(3, 7), (4, 64)])))) (gOf 3) = some 0 := by
  decide +kernel
theorem test_st : after (exec (.st (mOf .i32 (.g 3) (.g 4) (.g 0) 0)) (runM (withR (gs [(3, 0x12345678), (4, 64)])))) (fun _ f => f.b.gbuf) =
    some [(0x1230040, 0x78), (0x1230041, 0x56), (0x1230042, 0x34), (0x1230043, 0x12)] := by decide +kernel

/-- The last bytes of a page and of the address space below 2^60; the ends of the carve, of its state region and of the spill window. -/
theorem witness_WhereAnAccessLies :
    let s := runM bareF
    let sl := runS bareF
    ((65532 : Nat) < 2 ^ 60 ∧ 65532 % 65536 + 4 ≤ 65536 ∧ (s.translate 0 65532 true).map (·.pa) = .ok 0x123FFFC) ∧
    ((s.translate 0 65536 true).map (·.pa) = .error .readOnly ∧ (s.translate 0 131072 false).map (·.pa) = .error .noMap ∧
      (s.translate 0 65536 false).map (·.pa) = .ok 0x1240000) ∧
    (8188 + 4 ≤ sl.pl.lim * 64 ∧ sl.pl.lim ≤ 65536 ∧ sl.pl.stb * 64 ≤ 0) ∧
    (let low := { sl with pl.stb := 1 }; low.pl.stb * 64 = 64 ∧ 60 + 4 ≤ low.pl.lim * 64) ∧
    (sl.pl.lim * 64 ≤ 8192 ∧ (8192 : Nat) < 2 ^ 22 ∧ bits 0 6 0 * 65536 < 8192 - sl.pl.lim * 64 + 1) ∧
    (8191 < sl.pl.lim * 64 ∧ sl.pl.lim * 64 < 8191 + 4) := by
  decide +kernel

/-- Scalar and vector loads from the last aligned place of a page; a read of the firing's own store and of memory. The three of PREF's
addresses: translated, not translated, and at 2^60. -/
theorem witness_LoadsReadMemory :
    let r := gs [(4, 65532), (5, 0x20000), (6, 0x1000000000000000), (7, 63), (8, 64), (9, 65533)]
    let f := { withR r with b.gbuf := [(3, 9)] }
    let s := runM f
    let sl := runS f
    let x := fun b => mOf .i32 (.g 3) b (.g 0) 0
    Runs s 0 sl f .always ∧ named (.v 1) r ∧
    (f.b.gbuf.find 3 = some 9 ∧ f.b.gbuf.find 4 = none ∧ s.mm.order.lag = []) ∧
    (s.accessLocs 0 sl f .global (r.ea (x (.g 4))) 4 false).isOk = true ∧ (s.accessLocs 0 sl f .global (r.ea (x (.g 5))) 4 false).isOk = false ∧
    (r.ea (x (.g 4)) % 4 = 0 ∧ r.ea (x (.g 9)) % 4 ≠ 0) ∧
    (s.elemLocs 0 sl f .tile 4 (fun e => addr64 (r.ea (x (.g 0)) + e * 4)) false (piecesOf (x (.g 0)) r)).isOk = true ∧
    ((r.readG (.g 7)).toNat < 64 ∧ 64 ≤ (r.readG (.g 8)).toNat) ∧
    (r.ea (x (.g 4)) < 2 ^ 60 ∧ (s.translate sl.pl.ctx (r.ea (x (.g 4))) false).isOk = true) ∧
    (r.ea (x (.g 5)) < 2 ^ 60 ∧ (s.translate sl.pl.ctx (r.ea (x (.g 5))) false).isOk = false) ∧ 2 ^ 60 ≤ r.ea (x (.g 6)) := by
  refine ⟨runsM _, named_v 1 _, ?_⟩
  decide +kernel

/-- WLD and WST reach the carve of an instance of the same configuration, here the slot's own; a column offset of 1 reaches none. -/
theorem witness_RemoteAccess :
    let s := run bareF
    (s.remoteLocs (runS bareF) 0 4 false).isOk = true ∧ (s.remoteLocs (runS bareF) 4194304 4 false).isOk = false ∧
    (s.remotePieces (runS bareF) 4 0 false [0, 1]).isOk = true := by
  decide +kernel

/-- A store within the footprint and one over it, a misaligned STRL, an access that stops, and VSCT adding to one place. -/
theorem witness_StoresAreBuffered :
    let r := { gs [(4, 65532), (5, 65536), (7, 63), (8, 64), (9, 65533)] with p := (gs []).p.setIfInBounds 1 1 }
    let f := withR r
    let s := runM f
    let sl := runS f
    let x := fun b => mOf .i32 (.g 3) b (.g 0) 0
    let y : MFields := { mOf .i32 (.v 2) (.g 0) (.g 7) 1 .tile with pm := 1 }
    let full := { f with b.lines := List.range 128 }
    Runs s 0 sl f .always ∧ laidOut sl 0 f ∧ named (.v 2) r ∧ quiet r ∧
    (s.accessLocs 0 sl f .global (r.ea (x (.g 4))) 4 true).isOk = true ∧ (s.accessLocs 0 sl f .global (r.ea (x (.g 5))) 4 true).isOk = false ∧
    r.ea (x (.g 9)) % 4 ≠ 0 ∧ footLimit sl = 8192 ∧
    (let b := f.b.storeAll [(.glob 0x123FFFC 0, 1)]; b.lines.length * 64 ≤ footLimit sl) ∧
    (let b := full.b.storeAll [(.glob 0x123FFFC 0, 1)]; footLimit sl < b.lines.length * 64 ∧ full.b.lines.length < b.lines.length) ∧
    (y.disp = 1 ∧ (r.readG y.index).toNat < 64 ∧ s.slot 0 = some sl ∧ s.mm.order.lag = [] ∧ elemsOf y (min 64 (2048 / 32)) r = [0] ∧
      gatheredAt y r 0 = 0 ∧ (s.accessLocs 0 sl f .tile 0 4 true) = .ok [.carve 0 0, .carve 0 1, .carve 0 2, .carve 0 3] ∧
      s.poisonLoc f.b (.carve 0 3) = false) ∧ 64 ≤ (r.readG (.g 8)).toNat := by
  refine ⟨runsM _, ⟨by decide +kernel, by decide +kernel, by decide +kernel, by decide +kernel, ?_⟩, named_v 2 _,
    ⟨by decide +kernel, by decide +kernel⟩, by decide +kernel, by decide +kernel, by decide +kernel, by decide +kernel, by decide +kernel,
    by decide +kernel, ?_, by decide +kernel⟩
  · intro a _ _; rfl
  · refine ⟨by decide +kernel, by decide +kernel, by rfl, by decide +kernel, by decide +kernel, by decide +kernel, by decide +kernel,
      by decide +kernel⟩

/-! ### Arcs, atomics, synchronisation and engines -/

/-- The state in which the firing `f` runs in a slot `sl` in place of the bare one. -/
def runAs (sl : Slot) (f : Firing) : State := bare.putFiring 0 sl f
def slotAs (sl : Slot) (f : Firing) : Slot := { sl with firing := some f }

theorem runsAs (sl : Slot) (f : Firing) : Runs (runAs sl f) 0 (slotAs sl f) f .always := by
  refine ⟨?_, rfl⟩
  unfold State.current runAs
  have ht : (bare.putFiring 0 sl f).tile (bare.putFiring 0 sl f).focus = bare.tile bare.focus := rfl
  rw [ht]
  rfl

/-- The slot with one input and one output port of 64-byte tokens, a token each per firing. -/
def pipedS : Slot :=
  { bareS with pl.actor.inSize := (Vector.replicate 16 none).set 0 (some 64), pl.actor.outSize := (Vector.replicate 16 none).set 0 (some 64),
               pl.actor.rates := [(0, 1), (16, 1)], pl.inArc := (Vector.replicate 16 none).set 0 (some 1),
               pl.outArc := (Vector.replicate 16 none).set 0 (some 2), rset := 0 }
def arc1 : Arc :=
  { cfg := 1, producer := none, consumer := some (0, 0), tag := 0, size := 64, window := 4, base := 0, delay := 0, closedFault := false, park := 0,
    wp := 1, wpSeen := 1, rp := 0, rpMirror := 0, cross := none, entries := [], parked := [], discards := 0, poisoned := [], closed := false,
    held := none, recorded := [], blocked := false, merge := none, waiting := [], inputs := [], turn := 0 }
def arc2 : Arc := { arc1 with producer := some (0, 0), consumer := some (8, 0), wp := 0, wpSeen := 0 }
def runP (f : Firing) : State := { runAs pipedS f with arcs := [(1, arc1), (2, arc2)] }
theorem runsP (f : Firing) : Runs (runP f) 0 (slotAs pipedS f) f .always := ⟨(runsAs pipedS f).1, rfl⟩

/-- R108: RECV of an element at offset 1 of token 0, bytes 4 to 7 of its window. -/
theorem test_recv : after (exec (.recv (aOf .i32 (.g 3) 0 0 1)) { runP bareF with mm.sram := [(4, 0x2A)] }) (fun sl f => (gOf 3 sl f, f.tk.got.toList.head?)) =
    some (0x2A, some 1) := by decide +kernel
theorem test_recv_beyond_the_rate : trapOf (exec (.recv (aOf .i32 (.g 3) 0 1 0)) (runP bareF)) = some 0 ∧
    after (exec (.recv (aOf .i32 (.g 3) 0 1 0)) (runP bareF)) pcOf = none := by decide +kernel

/-- The one token of each port and the first beyond it, and a whole token from the carve. -/
theorem witness_TokensReceivedAndEmitted :
    let r := gs [(4, 64)]
    let f := withR r
    let s := runP f
    let sl := slotAs pipedS f
    Runs s 0 sl f .always ∧ hasInput s sl f 0 arc1 ∧ (0 < rateIn sl f 0 ∧ rateIn sl f 0 ≤ 1) ∧ arc1.poisoned.contains (cnt (f.rp 0 + 0)) = false ∧
    60 + 4 ≤ arc1.size ∧ named (.v 1) r ∧ f.handler = false ∧ sizeOut sl 0 = some 64 ∧ (0 < rateOut sl f 0 ∧ rateOut sl f 0 ≤ 1) ∧
    (r.readG (.g 4)).toNat % 64 = 0 ∧ (r.readG (.g 4)).toNat + 64 ≤ sl.pl.lim * 64 := by
  refine ⟨runsP _, ⟨by rfl, by rfl, by rfl⟩, by decide +kernel, by decide +kernel, by decide +kernel, named_v 1 _, by decide +kernel, by decide +kernel, by decide +kernel, by decide +kernel, by decide +kernel⟩

/-- Every query of ARCQ, SKIP at the rate and beyond it, markers below 2^32 and not, a declared port and none. -/
theorem witness_ArcQueriesAndEntries :
    let r := gs [(4, 0xFFFFFFFF), (5, 0x100000000)]
    let f := withR r
    let s := runP f
    let sl := slotAs pipedS f
    Runs s 0 sl f .always ∧ hasInput s sl f 0 arc1 ∧ 0 < rateIn sl f 0 ∧ 1 ≤ rateIn sl f 0 ∧ rateIn sl f 0 < 2 ∧ f.handler = false ∧
    (sizeOut sl 0).isSome = true ∧ (r.readG (.g 4)).toNat < 2 ^ 32 ∧ 2 ^ 32 ≤ (r.readG (.g 5)).toNat ∧ sizeOut sl 1 = none := by
  refine ⟨runsP _, ⟨by rfl, by rfl, by rfl⟩, ?_⟩
  decide +kernel

/-- An atomic in this package; addresses at 2^60 and misaligned; one to a peer and one to host memory; a tag that a home holds, one that it
refuses and one that it has not seen; and both outcomes of AWT. -/
theorem witness_AtomicsOfAFiring :
    let r := gs [(4, 64), (5, 0x1000000000000000), (6, 65), (7, 196608), (8, 262144), (9, 1)]
    let f := withR r
    let g := { f with irr := true }
    let s := runM f
    let x := fun a => tOf .i32 (.g 3) a (.g 9)
    let t := { s with en.tags := [{ home := 7, key := 9, time := 0, result := some 5 }, { home := 7, key := 10, time := 0, result := none }] }
    Runs s 0 (runS f) f .always ∧ typesAccepted 0x98 .i32 .i8 true = true ∧ quiet r ∧ s.mm.mem.wf = true ∧
    atomicGoes s 0 (runS f) f 0x98 (x (.g 4)) 0x1230040 ∧ atomicGoes s 0 (runS f) f 0xA6 (x (.g 4)) 0x1230040 ∧ (r.readG (x (.g 4)).c).toNat < 4 ∧
    (¬ awaits .i32 0 0 1 ∧ awaits .i32 1 0 1) ∧
    2 ^ 60 ≤ (r.readG (.g 5)).toNat ∧ (r.readG (.g 6)).toNat % 4 ≠ 0 ∧ (runS f).detl ≠ 3 ∧
    ((s.translate 0 (r.readG (.g 7)).toNat true).map (fun t => s.isRemote t.pa) = .ok true ∧
      (s.translate 0 (r.readG (.g 4)).toNat true).map (fun t => s.isRemote t.pa) = .ok false) ∧
    ((runM g).atomicAddress (runS g) g 0x98 (x (.g 8)) = .ok 0x4000000000000 ∧ paHost 0x4000000000000 = true ∧ g.irr = true) ∧
    ((t.en.tags.find? fun n => n.home == 7 && n.key == 9) = some { home := 7, key := 9, time := 0, result := some 5 } ∧
      t.tagRefused 7 10 = true ∧ (t.en.tags.find? fun n => n.home == 7 && n.key == 11) = none) := by
  refine ⟨runsM _, by decide, ⟨by decide +kernel, by decide +kernel⟩, by decide +kernel, ?_, ?_, by decide +kernel, ?_, by decide +kernel,
    by decide +kernel, by decide +kernel, by decide +kernel, by decide +kernel, by decide +kernel⟩
  · exact ⟨by rfl, by rfl, by rfl, by decide +kernel, by decide +kernel, by decide +kernel, .inr ⟨by rfl, by rfl⟩, by rfl, by rfl, by rfl, by rfl, by rfl, by rfl⟩
  · exact ⟨by rfl, by rfl, by rfl, by decide +kernel, by decide +kernel, by decide +kernel, .inr ⟨by rfl, by rfl⟩, by rfl, by rfl, by rfl, by rfl, by rfl, by rfl⟩
  · simp [awaits]

/-- A command of slot 0 on counter 0. -/
def cmd0 : Command :=
  { slot := 0, tl := 0, num := 1, loader := false, ctx := 0, cove := 0, gen := 0, op := 0xB8, family := .copy, flags := 0, block := List.replicate 64 0, view := [],
    barrier := none, state := .failed, status := 2, progress := 0, subtracted := 0, partials := [], roundStart := 0, faultWait := none,
    flags5 := 0, engine := 0, row := none }

/-- R170: TLRD reads the completed count, and with .w the issued one. -/
theorem test_tlrd : after (exec (.tlrd { rOf .i8 (.g 3) (.tl 0) (.g 0) (.g 0) with mods := { noMods with w := true } })
    (runAs { bareS with tl := (Vector.replicate 8 ⟨0, 0⟩).set 0 ⟨5, 4⟩ } bareF)) (gOf 3) = some 5 := by decide +kernel

/-- Counter 0 stands at 1: waits for 1 that are over, with and without a failed command, and for 2, which is not. -/
theorem witness_FencesTimelinesAndTime :
    let sl := { bareS with tl := (Vector.replicate 8 ⟨0, 0⟩).set 0 ⟨2, 1⟩ }
    let f := withR (gs [(4, 1), (5, 2)])
    let s := runAs sl f
    let e := { s with en.commands := [(3, cmd0)] }
    Runs s 0 (slotAs sl f) f .always ∧ ((f.r.readG (.g 4)).toNat ≤ ((slotAs sl f).tl.get 0).done ∧ s.failedUpTo 0 0 1 = none) ∧
    ((slotAs sl f).tl.get 0).done < (f.r.readG (.g 5)).toNat ∧ e.failedUpTo 0 0 1 = some (1, 2) ∧
    s.lowerDone 0 f.r.stamp.toNat (slotAs sl f).pl.rank = true := by
  refine ⟨runsAs _ _, ?_⟩
  decide +kernel

/-- A slot of a stamped group whose member 8 stands at a lower stamp. -/
theorem witness_LowerStampsWait :
    let img : Image := bareImage 0
    let a : Actor := { bareActor 0 with stamped := some 1 }
    let sl := { bareS with pl.actor := a, stamp := 1 }
    let f := { bareF with r.stamp := 1 }
    let s := { runAs sl f with slots := (runAs sl f).slots.put 8 { sl with stamp := 0, firing := none } }
    img.actors.length = 1 ∧ Runs s 0 (slotAs sl f) f .always ∧ s.lowerDone 0 f.r.stamp.toNat (slotAs sl f).pl.rank = false := by
  refine ⟨by rfl, ⟨by rfl, by rfl⟩, by decide +kernel⟩

/-- Barrier 0 is not live, 1 counts and stands at 0, 2 counts and stands at 5, 4095 is a group barrier of size 2 whose epoch is 3. -/
theorem witness_BarriersAndEvents :
    let r := gs [(4, 4095), (5, 4096), (6, 255), (7, 256), (8, 0x7FFFFFFFFFFF), (9, 3), (10, 2)]
    let f := withR r
    let b : Barrier := { live := true, err := false, epoch := 3, count := 0, size := 0, status := 0 }
    let s := { run f with en.barriers := [(1, b), (2, { b with count := 5 }), (4095, { b with size := 2 })] }
    let sl := runS f
    Runs s 0 sl f .always ∧ (r.readG (.g 4)).toNat < 4096 ∧ 4096 ≤ (r.readG (.g 5)).toNat ∧
    (barrierSeen s sl f 0).1 = false ∧ (r.readG (.g 8) = ((r.readG (.g 8)).setWidth 48).signExtend 64 ∧ (r.readG (.g 8)).toNat < 2 ^ 48) ∧
    (barrierSeen s sl f 1 = (true, 0) ∧ (s.barrier 1).count = 0 ∧ (s.barrier 1).err = false) ∧
    (barrierSeen s sl f 2 = (true, 0) ∧ (s.barrier 2).count ≠ 0) ∧
    ((barrierSeen s sl f 4095).1 = true ∧ (barrierSeen s sl f 4095).2 ≠ 0 ∧ (s.barrier 4095).passed 2 = true ∧
      (s.barrier 4095).passed 3 = false ∧ (r.readG (.g 9)).toNat < 16384) ∧
    ((r.readG (.g 6)).toNat ≤ 255 ∧ mayBind s 0 sl f ∧ s.commandsEnded f.fenced = true) ∧ 255 < (r.readG (.g 7)).toNat ∧
    (let u := { sl with pl.fallback := some 8 }; f.irr = false ∧ (runAs u f).lowerDone 0 f.r.stamp.toNat u.pl.rank = true ∧ isSurrogate u f = true) := by
  refine ⟨⟨(runs _).1, rfl⟩, by decide +kernel, by decide +kernel, by decide +kernel, by decide +kernel, by decide +kernel,
    by decide +kernel, by decide +kernel, ⟨by decide +kernel, .inr ⟨by rfl, by rfl⟩, by rfl⟩, by decide +kernel, by decide +kernel⟩

/-- Blocks at the end of the carve and one line beyond it, misaligned, valid and not (a reserved byte set); with room for the command at the
commit and without; with a barrier that is none. -/
theorem witness_EngineCommandsAndQueries :
    let r := gs [(3, 4032), (4, 8128), (5, 8192), (6, 4), (7, 1)]
    let f := withR r
    let g := { f with b.deferredOps := List.replicate 16 (.command cmd0) }
    let s := { run f with mm.sram := [(4088, 1)] }
    let sl := runS f
    let raw := (List.range (blockSize 0xB8)).map fun j => s.readLoc f.b (.carve 0 (4032 + j))
    Runs s 0 sl f .always ∧ ((r.readG (.g 4)).toNat % 64 = 0 ∧ (r.readG (.g 4)).toNat + blockSize 0xB8 ≤ sl.pl.lim * 64) ∧
    ((r.readG (.g 3)).toNat % 64 = 0 ∧ (r.readG (.g 3)).toNat + blockSize 0xB8 ≤ sl.pl.lim * 64) ∧
    sl.pl.lim * 64 < (r.readG (.g 5)).toNat + blockSize 0xB8 ∧ (r.readG (.g 6)).toNat % 64 ≠ 0 ∧
    validBlock 0xB8 raw = true ∧ validBlock 0xB8 (raw.set 63 1) = false ∧ f.b.commands ≠ 16 ∧ g.b.commands = 16 ∧
    (mayBind s 0 sl f ∧ s.commandsEnded f.fenced = true ∧ s.outstanding 0 < 64) ∧
    (let t := { s with en.barriers := [(1, { live := true, err := false, epoch := 0, count := 0, size := 2, status := 0 })] }
     ¬ (barrierSeen t sl f 1).2 = 0) ∧
    (eOf 0 true (.g 4)).deferred = true ∧ (eOf 0 false (.g 4)).deferred = false := by
  refine ⟨⟨(runs _).1, rfl⟩, by decide +kernel, by decide +kernel, by decide +kernel, by decide +kernel, by decide +kernel, by decide +kernel, by decide +kernel,
    by decide +kernel, ⟨.inr ⟨by rfl, by rfl⟩, by rfl, by decide +kernel⟩, by decide +kernel, by decide, by decide⟩

/-! ### Residency, modes, surrogates, system registers -/

/-- A region of configuration 1 that nothing waits for. -/
def region0 : Region :=
  { cfg := 1, num := 0, actors := [], cfgn := 0, cur := 0, lf := 0, queue := [], levels := [], levelRan := 0, delta := 0, stepping := false }

/-- Layers 0 and 1 described by the image, 0 RESIDENT and 1 ABSENT; numbers 1023 and 1024; sources in form and not; classes at the
launch's and above. -/
theorem witness_ResidencyAndModes :
    let c := bareCfg 0
    let r := gs [(4, 1023), (5, 1024), (6, 65536), (7, 65535), (8, 1), (9, 7), (10, 8)]
    let f := withR r
    let s := { run f with al.cfgs := [(1, { c with launch.image.layerLines := [⟨0, none⟩, ⟨1, none⟩, ⟨1023, none⟩] })],
                          en.tides := [(0, { Tide.zero with state := .resident })],
                          en.regions := [(65536, region0)] }
    let sl := runS f
    let o := { sl with pl.controls := [(0, 0)] }
    Runs s 0 sl f .always ∧ ((r.readG (.g 4)).toNat ≤ 1023 ∧ 1023 < (r.readG (.g 5)).toNat) ∧
    (describes s sl 0 ∧ describes s sl 1 ∧ describes s sl 1023) ∧ ((entryOf s sl 0).state = .resident ∧ (entryOf s sl 1).state = .absent) ∧
    ((r.readG (.g 6)).toNat % 65536 = 0 ∧ (r.readG (.g 7)).toNat % 65536 ≠ 0) ∧ (0 ≤ sl.pl.launchEcl ∧ sl.pl.launchEcl < (r.readG (.g 8)).toNat) ∧
    (f.handler = false ∧ o.pl.controls ≠ [] ∧ (r.readG (.g 9)).toNat ≤ 7 ∧ 7 < (r.readG (.g 10)).toNat) ∧ sl.pl.controls = [] ∧
    ((s.region (sl.pl.cfg * 65536 + 0)).isSome = true ∧ s.region (sl.pl.cfg * 65536 + 1) = none) := by
  refine ⟨⟨(runs _).1, rfl⟩, by decide +kernel, ⟨⟨_, by rfl, ⟨0, none⟩, by decide, by rfl⟩, ⟨_, by rfl, ⟨1, none⟩, by decide, by rfl⟩,
    ⟨_, by rfl, ⟨1023, none⟩, by decide, by rfl⟩⟩, by decide +kernel, by decide +kernel, by decide +kernel, by decide +kernel, by decide +kernel,
    by decide +kernel⟩

/-- A surrogate firing and one that is none; clean and poisoned; flags 31 and 32. -/
theorem witness_SurrogatesAndChecks :
    let u := { bareS with pl.fallback := some 8 }
    let r := gs [(4, 31), (5, 32)]
    let p := { r with sys.chki := 1 }
    Runs (runAs u (withR r)) 0 (slotAs u (withR r)) (withR r) .always ∧ isSurrogate (slotAs u (withR r)) (withR r) = true ∧ named (.v 1) r ∧
    Runs (run (withR r)) 0 (runS (withR r)) (withR r) .always ∧ isSurrogate (runS (withR r)) (withR r) = false ∧
    r.sys.chki.getLsbD 0 = false ∧ p.sys.chki.getLsbD 0 = true ∧ (r.readG (.g 4)).toNat < 32 ∧ 32 ≤ (r.readG (.g 5)).toNat := by
  refine ⟨runsAs _ _, by rfl, named_v 1 _, runs _, by rfl, by decide +kernel⟩

/-- R374: MFSR of INST reads the instance word; a read-only register traps 0x0A and a reserved bit 0x03, both held for Jetty policy. -/
theorem test_mfsr_inst : after (exec (.mfsr (yOf 0 (.g 3) 4)) (runAs { bareS with pl.instWord := 0x1234 } bareF)) (gOf 3) = some 0x1234 := by
  decide +kernel
theorem test_mtsr_traps : after (exec (.mtsr (yOf 0 (.g 4) 4)) (run bareF)) pcOf = none ∧
    after (exec (.mtsr (yOf 0 (.g 0) 0x011)) (run bareF)) pcOf = some 1 := by decide +kernel

/-- For each writable register a legal value, and for each kind of trap one that meets it. -/
theorem witness_SystemRegisters :
    let r := gs [(1, 0x400), (2, 0x7F800000), (3, 1), (4, 64), (5, 1), (6, 9), (7, 31), (8, 0x4000), (9, 0x1C00), (10, 0x7F800001), (11, 65)]
    let v := fun n : Fin 64 => r.readG (.g n)
    let sl := runS (withR r)
    Runs (run (withR r)) 0 sl (withR r) .always ∧
    (v 1 &&& ~~~0x3FFF = 0 ∧ (v 1).toNat / 1024 % 8 ≠ 0 ∧ (v 1).toNat / 1024 % 8 ≠ 7) ∧ (v 2).toNat ≤ 0x7F800000 ∧
    (v 3 &&& ~~~0xFFFF0003 = 0) ∧ (v 4 &&& ~~~0x0FFFFFFFFFFF007F = 0 ∧ (v 4).toNat % 128 ≤ 64) ∧
    (v 5 &&& ~~~0x3FFF9 = 0 ∧ (v 5).getLsbD 0 = true ∧ inRun sl (((v 5).toNat / 8 % 2 ^ 15 : Nat) : Int) = true) ∧
    (v 6 &&& ~~~0x3FFF9 = 0 ∧ (v 6).getLsbD 0 = true ∧ inRun sl (((v 6).toNat / 8 % 2 ^ 15 : Nat) : Int) = false) ∧
    (v 7).toNat < 32 ∧ ((0x000, (0x3FFF : Dword)) ∈ sysBits ∧ v 8 &&& ~~~0x3FFF ≠ 0) ∧ (v 9).toNat / 1024 % 8 = 7 ∧
    0x7F800000 < (v 10).toNat ∧ 64 < (v 11).toNat % 128 ∧
    ((0x003, (0xFFFFFFFFFFFFFFFF : Dword)) ∈ sysBits ∧ 0x003 ∉ mtsrWrites ∧ v 1 &&& ~~~0xFFFFFFFFFFFFFFFF = 0) := by
  refine ⟨runs _, ?_⟩
  decide +kernel

/-- R378: XLAT of page 0 gives its frame, writable and cacheable. -/
theorem test_xlat : after (exec (.xlat (rOf .i8 (.g 3) (.g 4) (.g 0) (.g 0))) (runM (withR (gs [(4, 4)])))) (gOf 3) =
    some 0x0030000001230004 := by decide +kernel

/-- Levels at the launch's, above it and out of range; groups 255 and 256; the three outcomes of a translation; a context other than 0, and in
context 0 the two passes of TLBI; a slot that DSTEP finds and one that it does not. -/
theorem witness_SystemInstructions :
    let r := gs [(4, 5), (5, 6), (6, 16), (7, 255), (8, 256), (9, 0x1000000000000000), (10, 131072), (11, 64), (12, 0x10000)]
    let f := withR r
    let s := runM f
    let sl := runS f
    let v := fun n : Fin 64 => (r.readG (.g n)).toNat
    Runs s 0 sl f .always ∧ (v 4 ≤ sl.pl.launchLvl ∧ v 4 < 16) ∧ (sl.pl.launchLvl < v 5 ∧ v 5 < 16) ∧ 16 ≤ v 6 ∧
    (s.dv.jetty.restarting = none ∧ v 7 ≤ 255 ∧ 255 < v 8) ∧
    (let t := { s with dv.jetty.restarting := some 0 }; t.dv.jetty.restarting.isSome = true ∧ t.current = some (0, sl, f)) ∧
    (2 ^ 60 ≤ v 9 ∧ s.translateLeaf 0 (v 10) false = .error .noMap ∧ (s.translateLeaf 0 (v 11) false).isOk = true) ∧
    (({ sl with pl.ctx := 1 } : Slot).pl.ctx ≠ 0 ∧ sl.pl.ctx = 0 ∧ sl.firing = some f ∧ f.begun = false ∧ ({ f with begun := true } : Firing).begun = true) ∧
    (r.readG (.g 12) &&& 0xF00000000000FFC0 = 0 ∧ v 12 % 64 ≤ 44 ∧ v 12 / 2 ^ 16 % 2 ^ 44 % 2 ^ (v 12 % 64) = 0) ∧ mayBind s 0 sl f ∧
    (s.stepTarget sl 0 = .ok 0 ∧ (s.stepTarget sl 1).isOk = false) := by
  refine ⟨runsM _, by decide +kernel, by decide +kernel, by decide +kernel, by decide +kernel, ⟨by decide +kernel, (runsM _).1⟩, by decide +kernel,
    ⟨by decide +kernel, by decide +kernel, by rfl, by decide +kernel, by decide +kernel⟩, by decide +kernel, .inr ⟨by rfl, by rfl⟩, by decide +kernel⟩

/-! ### The matrix engine -/

/-- R269: MTSW with W writes the status word and gives the old one; a word with a reserved bit traps. -/
theorem test_mtsw : after (exec (.mtsw { rOf .i8 (.g 3) (.a 0) (.g 4) (.g 0) with mods := { noMods with w := true } }) (run (withR (gs [(4, 0x1007F)]))))
    (fun sl f => (gOf 3 sl f, (f.r.acc.get 0).tsw)) = some (0, 0x1007F) := by decide +kernel
theorem test_mtsw_reserved : after (exec (.mtsw { rOf .i8 (.g 3) (.a 0) (.g 4) (.g 0) with mods := { noMods with w := true } })
    (run (withR (gs [(4, 128)])))) pcOf = none := by decide +kernel

theorem quiet_bare (l : List (Fin 64 × Dword)) (h : (gs l).sys = bareF.r.sys) : quiet (gs l) := by
  unfold quiet enables; rw [h]; decide +kernel

/-- MMA of two k-steps in BF16 from v1 and v2; MMAG of one row; MMT of 64 and of 65 k-steps; the counts that trap. -/
theorem witness_MatrixMultiplication :
    let d : Dword := 1 <<< 38
    let r := gs [(4, d), (5, 64), (6, 65), (7, 131072), (8, 131073), (9, 33 <<< 38)]
    let f := withR r
    let s := run f
    let sl := runS f
    let x := xOf .bf16 .bf16 0 .set (.v 1) (.v 2) 2
    let y := xOf .bf16 .bf16 0 .set (.g 4) (.v 2) 0x43
    Runs s 0 sl f .always ∧ quiet r ∧ unarmed 0 false r ∧ paired x ∧ (begins x.a (lengthA 2 16) r ∧ begins x.b (lengthB 2 16) r) ∧
    (begins (.v 63) 1 r ∧ ¬ (vnum r (.v 63)).val + 2 ≤ 64) ∧
    (d.toNat / 2 ^ 38 = 1 ∧ 1 ≤ 512 / 16 ∧ begins y.b (lengthB 1 16) r ∧ Reg.ofSpec y.kidx.toNat = some (.v 3) ∧ named (.v 3) r ∧
      (∀ i, i < 64 → (d.toNat % 2 ^ 22 + elemBits r (.v 3) 32 i * (d.toNat / 2 ^ 22 % 2 ^ 16)) % 2 = 0 ∧
        d.toNat % 2 ^ 22 + elemBits r (.v 3) 32 i * (d.toNat / 2 ^ 22 % 2 ^ 16) + 1 * 16 / 8 ≤ sl.pl.lim * 64)) ∧
    Reg.ofSpec 5 = some (.g 5) ∧ ((r.readG (.g 5)).toNat ≤ (f.grind + 1) * 64 ∧ (f.grind + 1) * 64 < (r.readG (.g 6)).toNat) ∧
    ((r.readG (.g 7)).toNat ≤ 131072 ∧ 131072 < (r.readG (.g 8)).toNat ∧ r.readG (.g 0) = 0) ∧
    512 / 16 < (r.readG (.g 9)).toNat / 2 ^ 38 % 256 := by
  refine ⟨runs _, quiet_bare _ (by rfl), ?_, ?_, ?_, ?_, ?_, by decide, by decide +kernel, by decide +kernel, by decide +kernel⟩
  · intro m hm
    rcases hm with rfl | ⟨h, _⟩
    · rfl
    · cases h
  · exact .inr ⟨rfl, rfl, rfl, .inr (.inl ⟨rfl, rfl⟩)⟩
  · exact ⟨⟨named_v 1 _, by decide +kernel⟩, ⟨named_v 2 _, by decide +kernel⟩⟩
  · exact ⟨⟨named_v 63 _, by decide +kernel⟩, by decide +kernel⟩
  · exact ⟨by decide +kernel, by decide, ⟨named_v 2 _, by decide +kernel⟩, by decide, named_v 3 _, by decide +kernel⟩

/-- R258: MSTA lays an accumulator's rows and its status out in 65 lines of the carve. -/
def tileStore : MFields := mOf .bf16 (.a 0) (.g 0) (.g 0) 0 .tile

theorem witness_tileAt (write : Bool) : tileAt (run bareF) 0 (runS bareF) bareF tileStore write
    (fun e => (List.range 2).map fun t => .carve 0 (2 * e + t)) ((List.range 64).map fun t => .carve 0 (4096 + t)) := by
  refine ⟨?_, ?_, ?_, by simp⟩
  · cases write <;> decide +kernel
  · intro e; simp [tileStore, mOf, Ty.bytes, Ty.bits]
  · cases write <;> decide +kernel

/-- An accumulator whose first column sum is wrong. -/
def brokenAcc : Acc := { Acc.zero.resum with chkRow := Acc.zero.resum.chkRow.set 0 (Acc.zero.resum.chkRow[0] + 1) }
theorem broken_agrees : brokenAcc.agrees = false := by
  unfold Acc.agrees
  rw [decide_eq_false_iff_not]
  rintro ⟨h, _⟩
  have h0 := congrArg (fun v : Vector Lane 32 => v[0]) h
  simp [brokenAcc, Acc.resum] at h0

/-- Row numbers 63 and 64, element numbers 2047 and 2048, status words and masks at their ends, an accumulator whose checksums agree and one
whose do not; a digit and an exponent form of MSPLT; tiles that fit the footprint. -/
theorem witness_Accumulators :
    let r := gs [(1, 63), (2, 64), (3, 2047), (4, 2048), (5, 0xFFFF007F), (6, 0x100000000), (7, 128), (8, 1023), (9, 1024), (10, 9), (11, 255)]
    let v := fun n : Fin 64 => (r.readG (.g n)).toNat
    Runs (run (withR r)) 0 (runS (withR r)) (withR r) .always ∧ quiet r ∧ (v 1 < 64 ∧ 64 ≤ v 2) ∧ (v 3 ≤ 2047 ∧ 2047 < v 4) ∧
    (v 5 < 2 ^ 32 ∧ v 5 % 2 ^ 16 < 128 ∧ 2 ^ 32 ≤ v 6 ∧ 128 ≤ v 7 % 2 ^ 16) ∧ (v 8 < 1024 ∧ 1024 ≤ v 9) ∧
    (Acc.zero.resum.agrees = true ∧ brokenAcc.agrees = false) ∧ (named (.v 1) r ∧ two (.v 1) (.v 2) r ∧ three (.v 1) (.v 2) (.v 3) r) ∧
    (v 7 % 128 = 0 ∧ v 7 / 128 < 2) ∧ (v 10 < 256 ∧ 1 ≤ v 10 % 16 ∧ v 10 % 16 ≤ 9) ∧ tileType .bf16 ∧
    (bareF.r.ea tileStore % 64 = 0 ∧ footLimit (runS bareF) = 8192) := by
  refine ⟨runs _, quiet_bare _ (by rfl), by decide +kernel, by decide +kernel, by decide +kernel, by decide +kernel, ⟨by simp [Acc.agrees, Acc.resum], broken_agrees⟩,
    ⟨named_v 1 _, ⟨named_v 1 _, named_v 2 _⟩, named_v 1 _, named_v 2 _, named_v 3 _⟩, by decide +kernel, by decide +kernel, .inr (.inl rfl),
    by decide +kernel⟩

/-! ### Arbitration, and firings as events -/

/-- The part with a slot 0 that runs no firing, its core free. -/
def freeS (sl : Slot) : State := { bare with tiles := [], slots := [(0, { sl with firing := none })] }
/-- The part with a slot 0 whose firing is parked, its core free. -/
def parkedS (sl : Slot) (f : Firing) : State := { bare with tiles := [], slots := [(0, { sl with firing := some f })] }

/-- R293: a ready slot starts a firing; the register g5 of the slot before is not carried over. -/
theorem test_firingStart : after (exec (.firingStart 0) (freeS bareS)) (fun sl f => (pcOf sl f, gOf 5 sl f)) = some (0, 0) := by decide +kernel

/-- A ready slot on a free tile: selected by priority, at a 64th start by step 1, and on a retiring tile not at all. -/
theorem witness_Arbitration :
    let s := freeS bareS
    let u := { s with tiles := [(0, { s.tile 0 with starts := 63 })] }
    let v := { s with tiles := [(0, { s.tile 0 with retiring := true })] }
    s.select 0 = some (0, false) ∧ (s.tile 0).retiring = false ∧ s.readySlots 0 ≠ [] ∧ u.select 0 = some (0, true) ∧
    ((u.tile 0).starts + 1) % 64 = 0 ∧ (∃ j l t, readyAs u 0 j l false t) ∧ (v.tile 0).retiring = true ∧
    (let w := { parkedS bareS { bareF with parked := some (.sleep 0) } with tiles := [(0, { s.tile 0 with retiring := true })] }
     w.select 0 = some (0, false)) := by
  refine ⟨by decide +kernel, by decide +kernel, by decide +kernel, by decide +kernel, by decide +kernel, ⟨0, 5, 0, ?_⟩, by decide +kernel,
    by decide +kernel⟩
  unfold readyAs
  decide +kernel

/-- What each row of this statement asks, at its ends: a firing to start, one to resume, a handler firing, a fallback's, one that gives way, turns
of a stamped group, a length of 2^32 reached and passed, a draw window of 2,700 cycles, and a wait that ends at this clock. -/
theorem witness_FiringsStart :
    let s := freeS bareS
    let p := parkedS bareS { bareF with parked := some (.sleep 0) }
    let h := freeS { bareS with due.handler := true }
    let b := freeS { bareS with due.fallback := some (0, 0, 0), pl.surrogate := some 8 }
    ((s.tile 0).running = none ∧ (s.noteReady 0).select 0 = some (0, false) ∧
      ((s.noteReady 0).slot 0).map (fun sl => (sl.firing, sl.due.traps, sl.layersHeld, sl.due.check)) = some (none, [], true, false)) ∧
    ((p.noteReady 0).select 0 = some (0, false) ∧ ((p.noteReady 0).slot 0).map (·.firing.isSome) = some true) ∧
    ((h.placed 0).isSome = true ∧ (h.slot 0).map (fun sl => (sl.due.handler, sl.due.stopped, sl.due.fault, sl.due.frozen)) = some (true, false, none, false)) ∧
    ((b.noteReady 0).select 0 = some (0, false) ∧ ((b.noteReady 0).slot 0).map (·.due.fallback.isSome) = some true) := by
  decide +kernel

/-- The MMT word of the encoding table (12), whose count stands in g6. -/
def mmtWord : Dword := 0x72AA804050600000

theorem witness_FiringsStartAndEnd :
    let hi := { bareS with sys := { bareS.sys with prioLvl := 6 }, firing := none }
    let w := run { bareF with count := 64 }
    let g := { w with slots := w.slots.put 1 hi }
    let gi := { g with slots := (run { bareF with count := 64, irr := true }).slots.put 1 hi }
    let c := parkedS bareS { bareF with parked := some (.commitTurn .fend) }
    let q := freeS { bareS with due.skip := true }
    let r := gs [(4, 0), (5, 64), (6, 65)]
    let m := { run (withR r) with store := [(0, mmtWord)] }
    ((g.noteReady 0).givesWay 0 = some 0 ∧ ((g.noteReady 0).slot 0).map (fun sl => sl.firing.map (·.irr)) = some (some false)) ∧
    ((gi.noteReady 0).givesWay 0 = some 0 ∧ ((gi.noteReady 0).slot 0).map (fun sl => sl.firing.map (·.irr)) = some (some true)) ∧
    ((c.slot 0).map (fun sl => (sl.firing.map (·.parked), sl.due.frozen, sl.pl.fallback)) = some (some (some (.commitTurn .fend)), false, none) ∧
      (c.onTiles 0).isSome = true ∧ c.lowerDone 0 0 bareS.pl.rank = true) ∧
    ((q.placed 0).map (fun sl => (sl.firing, sl.due.skip)) = some (none, true) ∧ q.lowerDone 0 (q.nextStart 0 bareS).1.toNat bareS.pl.rank = true) ∧
    (({ bareF with ran := 2 ^ 32 } : Firing).ran ≤ bareS.pl.actor.len ∧ bareS.pl.actor.len < 2 ^ 32 + 1) ∧
    (((freeS bareS).tile 0).windowStart + 2700 ≤ ({ freeS bareS with clock := 2700 } : State).clock ∧ bareS.windowOp = none ∧
      ({ bareS with firing := none, pl.actor.power := 0, drawOp := some 0x80 } : Slot).windowOp = some 0x80) ∧
    ((m.tile 0).running = some 0 ∧ Reg.ofSpec 6 = some (.g 6) ∧ (r.readG (.g 6)).toNat ≤ 131072 ∧ (bareF.grind + 1) * 64 < (r.readG (.g 6)).toNat) ∧
    (let z := { freeS bareS with slots := [(0, { bareS with firing := none, due.wfi := some (some 5) })], clock := 5 }
     (z.slot 0).map (·.due.wfi) = some (some (some 5)) ∧ 5 ≤ z.clock) := by
  decide +kernel

theorem witness_MmtAtThePc : ({ run bareF with store := [(0, mmtWord)] } : State).wordAt 0 =
    some (.mmt (xOf .bf16 .bf16 2 .set (.g 4) (.g 5) 6)) := by rfl

/-! ### Arcs, cuts, modes, atomics and engines as events -/

/-- The piped slot at rest, with its two arcs. -/
def pipeS : State := { freeS pipedS with arcs := [(1, arc1), (2, arc2)] }

/-- An arc from package 5, one to it, one with a parked token, one whose window is full; and a path that is down. -/
theorem witness_ArcsMove :
    let peer := { arc1 with cross := some 5 }
    let out := { arc1 with consumer := none, cross := some 5 }
    let park := { arc1 with parked := [(List.replicate 64 1, false)] }
    let full := { arc1 with wp := 4, wpSeen := 4 }
    let s := { pipeS with arcs := [(1, peer), (2, out), (3, park), (4, full)] }
    (s.arc 1 = some peer ∧ simple peer ∧ deliveredTo s peer 0 0 ∧ peer.producer = none ∧ s.pathDown 5 = false ∧ peer.parked = [] ∧
      cntSub peer.published peer.rp < peer.window ∧ (List.replicate 64 (0 : Byte)).length = peer.size ∧ peer.closed = false ∧
      s.mm.sram.wf = true ∧ (∀ sl, s.slot 0 = some sl → sl.pl.ctx = peer.tag)) ∧
    (peer.leaves = false ∧ peer.cross.any s.pathDown = false) ∧
    (out.leaves = true ∧ cntReached 1 out.rpMirror = true ∧ cntReached out.wp 1 = true) ∧
    (deliveredTo s park 0 0 ∧ park.parked ≠ [] ∧ cntSub park.wp park.rp < park.window) ∧ full.window ≤ cntSub full.wp full.rp ∧
    (let t := { s with dv.paths := [{ pkg := 5, downSince := some 0, timedOut := false, heldWrites := [] }] }
     peer.cross.any t.pathDown = true) := by
  refine ⟨⟨by rfl, ⟨by rfl, by rfl⟩, ⟨by rfl, by rfl⟩, by rfl, by rfl, by rfl, by decide +kernel, by decide, by rfl, by rfl, ?_⟩, by decide +kernel,
    by decide +kernel, ⟨⟨by rfl, by rfl⟩, by decide, by decide +kernel⟩, by decide +kernel, by decide +kernel⟩
  intro sl h
  cases h
  rfl

/-- Entries whose token is consumed: for the slot, for a region, a marker where no cut is taken; cuts that are complete, one alive and one dead; a
merge without space and one whose turn has not come at D3. -/
theorem witness_TokensEntriesAndCuts :
    let e := fun x => { arc1 with wp := 0, wpSeen := 0, entries := [(0, x)] }
    let s := { pipeS with arcs := [(1, e (.user 3))], en.regions := [(65536, region0)] }
    let c := fun d => { bareCfg 0 with cuts := [{ num := 7, saved := [0], arcsDone := [], dead := d }] }
    let t := fun d => { freeS bareS with al.cfgs := [(1, c d)], arcs := [] }
    let m := { arc1 with inputs := [3], turn := 0 }
    (entryReady s (e (.user 3)) 0 0 0 (.user 3) [] ∧ entryReady s (e (.mode 0 1 0)) 0 0 0 (.mode 0 1 0) [] ∧
      entryReady s (e (.marker 7 false)) 0 0 0 (.marker 7 false) []) ∧
    (s.region (regionKey (e (.user 3)).cfg 0) = some region0 ∧ region0.queue = [] ∧ s.emptySet region0 1 = false) ∧
    (s.ctx 0).snapEn = false ∧ arc1.merge = none ∧ s.entryDue arc1 = none ∧
    ((c false).cuts.find? ((t false).cutDone 1) = some { num := 7, saved := [0], arcsDone := [], dead := false } ∧
      (c true).cuts.find? ((t true).cutDone 1) = some { num := 7, saved := [0], arcsDone := [], dead := true }) ∧
    (m.consumer = some (0, 0) ∧ pipeS.arcSpace { m with blocked := true } = 0 ∧ (pipeS.mergeWaiting m).contains m.turn = false) := by
  refine ⟨⟨⟨by rfl, by rfl, by decide +kernel, by rfl, by rfl, by decide +kernel⟩, ⟨by rfl, by rfl, by decide +kernel, by rfl, by rfl, by decide +kernel⟩,
    ⟨by rfl, by rfl, by decide +kernel, by rfl, by rfl, by decide +kernel⟩⟩, by decide +kernel, by decide +kernel, by decide +kernel, by decide +kernel,
    by decide +kernel, by decide +kernel⟩

/-- A region of the one actor, empty and at rest, with a mode token; the same under D3; drain clocks at 27,000,000 cycles and one less, waits of 4,096
and one less; an odd generation; a level change of packet 9 of queue 0. -/
theorem witness_ModeChanges :
    let m : ModeToken := { rset := 1, issuer := 0, ran := 0, age := 0 }
    let r := { region0 with actors := [0], queue := [m] }
    let s := { freeS bareS with en.regions := [(65536, r)] }
    let d3 := { freeS { bareS with detl := 3 } with en.regions := [(65536, r)] }
    let odd := { freeS { bareS with rateGen := Vector.replicate 8 1 } with en.regions := [(65536, r)] }
    let lv := { r with queue := [], levels := [(2, 0, 9)], levelRan := 27000000 }
    (s.region 65536 = some r ∧ servable s r m [] ∧ r.levels = [] ∧ r.drain = true ∧ region0.drain = false) ∧
    (d3.regionLevel r = 3 ∧ d3.quiescent r = true ∧ d3.evenSet r 1 = true ∧ d3.regionSets r = [] ∧ r.stepping = false) ∧
    (noneWanted s 1 ∧ (s.issuerSlot 1 0).map (·.1) = some 0 ∧ (s.slot 0).map (·.due.exited) = some false) ∧
    ((27000000 ≤ ({ m with ran := 27000000 } : ModeToken).ran) ∧ ({ m with ran := 26999999 } : ModeToken).ran < 27000000) ∧
    (4096 ≤ ({ m with age := 4096 } : ModeToken).age ∧ ({ m with age := 4095 } : ModeToken).age < 4096 ∧ odd.evenSet r 1 = false) ∧
    (let t := { s with en.regions := [(65536, lv)] }
     t.regionsWaiting 0 9 = [(65536, lv)] ∧ 27000000 ≤ lv.levelRan ∧ ({ lv with levelRan := 26999999 } : Region).levelRan < 27000000) := by
  refine ⟨⟨by rfl, ⟨by rfl, by decide +kernel, by decide +kernel, by decide +kernel, by decide +kernel, by decide +kernel, by decide +kernel⟩, by rfl,
    by rfl, by rfl⟩, by decide +kernel, ⟨?_, by decide +kernel, by decide +kernel⟩, by decide +kernel, by decide +kernel, by decide +kernel⟩
  intro c h z hz
  cases h
  cases hz

/-- An atomic add of 1 at PA 64 that waits on its way, of this package and of package 5. -/
def req0 : AtomicReq :=
  { tag := 9, op := 0x98, ty := 4, va := 64, pa := 64, b := 1, c := 0, rm := .rne, sat := false, sr := 0, order := 0, dst := 3, site := 0, subj := 0,
    arrived := false, result := none }
def awt0 : AtomicReq := { req0 with op := 0xA6, arrived := true }
def remotePa : Nat := 0x8050000000040

/-- R164: a peer's ADD at its home here adds to the four bytes, and is answered. -/
theorem test_peer_add :
    (match exec (.atomicAtHome (.peer 5 0 9 0 0 0 0x98 4 64 7 0 .rne false 0)) State.reset with
     | .next t => t.mm.mem.bytes 64 4
     | _ => []) = [7, 0, 0, 0] := by decide +kernel

/-- Requests that their homes take; ages of 1,000,000 ns and one more; a condition that holds and one that does not; a request under way since 540,000
cycles and one less; and one given up 2,700,000 cycles ago and one more. -/
theorem witness_AtomicsAtTheirHomes :
    let f := { bareF with request := some req0, parked := some (.atomic 0 false) }
    let s := run f
    let p := peerRequest 9 0x98 4 64 1 0 .rne false 0
    let w : PeerWait := { id := 3, pkg := 5, slot := 0, cove := 0, gen := 0, q := awt0 }
    let far := { req0 with pa := remotePa }
    let l : LateRequest := { slot := 8, cove := 0, gen := 0, key := tagKey 0 8 9, since := 0, q := far }
    let u := { s with en.late := [l], en.peerWaits := [w] }
    (arrives s 0 (runS f) f req0 ∧ s.mm.mem.wf = true ∧ s.mm.splices = [] ∧ (runS f).detl = 0 ∧ performable req0) ∧
    (s.peerTakes 5 64 0 0 = true ∧ s.peerTakes 5 64 0 1 = false ∧ s.tagRefused (atomicHome 64) (tagKey 5 0 9) = false ∧ performable p ∧
      s.mm.poison.contains (64 / 64) = false ∧ p.type.isInt = true) ∧
    (awaits .i32 0 0 (valueOf .i32 0) ∧ ¬ awaits .i32 0 0 (valueOf .i32 1)) ∧
    (awt0.op = 0xA6 ∧ awt0.arrived = true ∧ awt0.result = none ∧ s.atomicPoison awt0 = false ∧ 0 < peerWaitBase) ∧
    ((u.en.peerWaits.find? fun x => x.id == 3) = some w ∧ u.peerTakes 5 64 0 0 = true) ∧
    (s.isRemote remotePa = true ∧ s.pathDown 5 = false ∧ 0 + 540000 ≤ ({ s with clock := 540000 } : State).clock ∧
      ({ s with clock := 539999 } : State).clock < 0 + 540000) ∧
    (u.inFlight 8 = none ∧ (u.en.late.find? fun l => l.slot == 8 && !(u.isRemote l.q.pa && u.pathDown (paPkg l.q.pa))) = some l ∧
      u.slot 8 = none ∧ u.homeTakes remotePa 0 0 = true ∧ u.atomicPoison far = false ∧ performable far ∧ l.since + 2700000 = 2700000) := by
  refine ⟨⟨⟨by rfl, by rfl, by rfl, by rfl, by rfl, by rfl, by rfl, by rfl⟩, by rfl, by rfl, by rfl, by unfold performable; decide +kernel⟩,
    ⟨by rfl, by rfl, by rfl, by unfold performable; decide +kernel, by rfl, by rfl⟩, ⟨by unfold awaits; decide +kernel, by unfold awaits; decide +kernel⟩, by decide +kernel, by decide +kernel, by decide +kernel,
    ⟨by rfl, by decide +kernel, by rfl, by rfl, by rfl, by unfold performable; decide +kernel, by rfl⟩⟩

/-- A block with some bytes set. -/
def blockOf (l : List (Nat × Byte)) : List Byte := (List.range 64).map fun i => ((l.find? fun x => x.1 == i).elim 0 (·.2))

/-- Context 0 translates page 0 to PA 0x1230000 in the TLB of a unit. -/
def mapFor (u : Nat) (s : State) : State :=
  { s with mm.tlb := [{ unit := u, ctx := 0, tag := 0, gen := (s.ctx 0).gen, vpg := 0, level := 4, leaf := 0x000000000123000F }] }

/-- A copy of 100 bytes from local 0 of the tile to VA 16, begun. -/
def copy0 : Command := { cmd0 with block := blockOf [(8, 16), (16, 100), (56, 1), (60, 1)], state := .running, status := 0 }
/-- A sum over 2 ranks of two I32 values at VA 0 to VA 64, in group 0 with epoch 1. -/
def coll0 : Command :=
  { cmd0 with op := 0xC2, family := .coll, block := blockOf [(8, 64), (16, 2), (27, 4), (28, 1), (32, 1)], state := .running, status := 0 }

/-- R177: the first piece of a copy to VA 16 is 48 bytes, up to the line's end. -/
theorem test_copy_piece :
    (match exec (.enginePiecePerformed 3 1) { mapFor copy0.unit (freeS bareS) with mm.sram := [(0, 9)], en.commands := [(3, copy0)] } with
     | .next t => ((t.command 3).map (·.progress), t.mm.mem.byte 0x1230010)
     | _ => (none, 0)) = (some 48, 9) := by decide +kernel

/-- An order log whose source holds one record: an atomic of launch 1 at site 0. -/
def log0 : OrderLog :=
  { base := 0, units := 0, wp := 0, drop := 0, ovf := false, div := false, reported := false, seqs := [], records := [], hasSource := true,
    source := [{ kind := 1, lnch := 1, site := 0, seq := 0, subj := 0 }], partners := [], pairs := [(1, 1)] }

/-- The forced turn of an atomic: the source log's next record of its site is the atomic's. -/
theorem witness_ForcedTurn :
    let s := { run bareF with al.ctxs := [(0, { Ctx.zero with log := some log0 })] }
    (s.forced 2 0 1 1 req0.site fun x => x == req0.subj) = .turn := by
  decide +kernel

/-- A copy with two pieces left, none left, and one whose source is not mapped; loader streams with and without space; a collective of two ranks whose
input has come, and one whose time of 1 µs (2,700 cycles) has passed; members, probes and epochs on both sides of the group's. -/
theorem witness_EngineWorkAndCollectives :
    let s := { mapFor copy0.unit (freeS bareS) with en.commands := [(3, copy0)] }
    let src := { copy0 with block := blockOf [(8, 16), (16, 100), (56, 1)] }
    let n := min (64 - (copy0.dst + copy0.progress) % 2 ^ 64 % 64) (copy0.len - copy0.progress)
    let g : Group := { en := true, ctx := 0, epoch := 1, mbr := 3, recovery := none }
    let t := { mapFor coll0.unit (freeS bareS) with en.commands := [(3, coll0)], en.groups := [(0, g)] }
    (engaged s 3 copy0 ∧ s.mm.mem.wf = true ∧ s.mm.splices = [] ∧ copy0.barrier = none ∧ copy0.progress < copy0.len ∧ n = 48 ∧
      s.engineLocs copy0 copy0.srcSpace (addr64 (copy0.src + copy0.progress)) n false = .ok ((List.range 48).map fun i => .carve 0 i) ∧
      s.engineLocs copy0 copy0.dstSpace (addr64 (copy0.dst + copy0.progress)) n true = .ok ((List.range 48).map fun i => .glob (0x1230010 + i) 0) ∧
      (∀ i, i < 48 → s.homeTakes (0x1230010 + i) copy0.cove copy0.gen = true)) ∧
    ((freeS bareS).engineLocs src src.srcSpace (addr64 src.src) 48 false).isOk = false ∧
    ({ copy0 with progress := 100 } : Command).len ≤ ({ copy0 with progress := 100 } : Command).progress ∧
    (t.commandLive coll0 = true ∧ t.collAllowed coll0 = true ∧ coll0.progress < 2 * ((t.ring coll0).n - 1) ∧
      [(5 : Dword)].length = ((t.ring coll0).chunk ((t.ring coll0).inputChunk (coll0.progress + 1))).2 ∧ (t.collInput coll0 [5]).isOk = true) ∧
    (coll0.roundStart + field coll0.block 32 4 * 2700 ≤ 2700 ∧ (t.group 0).recovery = none ∧ (t.group 0).en = true ∧
      0 < (t.group 0).epoch ∧ (t.group 0).epoch ≤ 1 ∧ (t.group 0).epoch < 2) ∧
    (({ g with recovery := some (1, true, 5) } : Group).recovery = some (1, true, 5) ∧ t.collAllowed { coll0 with ctx := 1 } = false) := by
  refine ⟨⟨⟨by rfl, by rfl, by rfl⟩, by rfl, by rfl, by rfl, ?_⟩, ?_⟩ <;> decide +kernel

/-- A reduction step among three ranks whose chunk is not the last: its own elements are read. -/
theorem witness_ReductionStep :
    let g : Group := { en := true, ctx := 0, epoch := 1, mbr := 7, recovery := none }
    let t := { mapFor coll0.unit (freeS bareS) with en.commands := [(3, coll0)], en.groups := [(0, g)] }
    let r := t.ring coll0
    let ch := r.chunk (r.inputChunk (coll0.progress + 1))
    coll0.progress + 1 < r.n ∧ coll0.progress + 2 ≠ r.n ∧ r.ty.isInt = true ∧ r.op = 0 ∧
    (t.collRead coll0 (field coll0.block 0 8) ch.1 ch.2 r.ty.bytes).isOk = true := by
  decide +kernel

/-- A loader stream into port 0 with a token to take, and one out of port 0 whose token waits for it. -/
theorem witness_LoaderStreams :
    let c : Command := { cmd0 with num := 0, loader := true, op := 0xBF, family := .stream, block := blockOf [(24, 2), (40, 64)] ++ List.replicate 192 0,
                                   state := .running, status := 0 }
    let d := { c with tl := 16, block := blockOf [(24, 2), (40, 64), (47, 1)] ++ List.replicate 192 0 }
    let out := { arc2 with consumer := none, parked := [(List.replicate 64 1, false)] }
    let s := { mapFor c.unit pipeS with arcs := [(1, arc1), (2, out)], en.commands := [(3, c), (4, d)] }
    (s.command 3 = some c ∧ s.commandLive c = true ∧ s.streamArc c = some (1, arc1) ∧ c.progress < field c.block 24 8 ∧ field c.block 47 1 = 0 ∧
      s.arcSpace arc1 ≠ 0 ∧ s.arcSpace { arc1 with blocked := true } = 0 ∧ (s.sourceBytes c [0]).isOk = true) ∧
    (s.streamArc d = some (2, out) ∧ field d.block 47 1 ≠ 0 ∧ (s.sinkBytes d false [0] (List.replicate 64 1)).isOk = true) := by
  decide +kernel

/-! ### Residency, page faults, invalidations, migrations and kills as events -/

/-- The image of configuration 1 describes layer 5 of 64 bytes, which stands at offset 0 of the weight region of slot 0. -/
def layered (st : TideState) (res : Bool) : State :=
  let sl := { bareS with layers := [{ layer := 5, off := 0, len := 64, resident := res, fault := false }] }
  { mapFor floodUnit (freeS sl) with
      en.tides := [(5, { Tide.zero with state := st, nextSrc := 65536 })],
      al.cfgs := [(1, { bareCfg 0 with launch.image.layerLines := [⟨5, none⟩] })] }

/-- R321: the flood of the layer's 64 bytes completes. -/
theorem test_flood_complete :
    (match exec (.floodComplete 0 5) (layered .flooding false) with
     | .next t => ((t.tide 5).state, (t.tide 5).gen)
     | _ => (.absent, 0)) = (.resident, 1) := by decide +kernel

/-- A flood that is served, one that may fail with status 1 and with 255, an ebb with and without a request that waits, and a layer in use. -/
theorem witness_FloodsAndEbbs :
    let s := layered .flooding false
    let e := layered .ebbing false
    let p := { e with en.tides := [(5, { e.tide 5 with pfl := true })] }
    let u := { s with slots := [(0, { bareS with layers := [{ layer := 5, off := 0, len := 64, resident := true, fault := false }], firing := some bareF })] }
    s.served 0 5 = true ∧ (s.writeSlices 0 5 (sourceOf s 0 5) (s.tide (tideKey 0 5)).seen (s.slicesDue 0 5)).isOk = true ∧
    (s.mm.sram.wf = true ∧ (s.slicesDue 0 5).length = 1 ∧ (s.slicesDue 0 5).all (fun z => z.2.2.len == 64) = true ∧
      (s.at floodUnit).globalLocs [] 0 (0 + (s.cfg 1).elim 0 fun c => c.launch.image.sliceOff 0 5) 64 false =
        .ok ((List.range 64).map fun i => .glob (0x1230000 + i) 0)) ∧
    e.served 0 5 = false ∧ (s.tide (tideKey 0 5)).state = .flooding ∧ (e.tide (tideKey 0 5)).state = .ebbing ∧ e.layerInUse 0 5 = false ∧
    (e.tide (tideKey 0 5)).pfl = false ∧ ((p.tide (tideKey 0 5)).pfl = true ∧ (p.tide (tideKey 0 5)).nextSrc ≠ 0) ∧ u.layerInUse 0 5 = true := by
  decide +kernel

/-- A fault of slot 0's parked firing that waits for its record, one that waits for its answer, and one of a command; a ring with room and one that is
full (64 records); a page request to the host; the BARs open and not; cached host translations in use and not. -/
theorem witness_PageFaults :
    let p : PageFault := { id := 4, va := 0x20000, reason := 1, who := .tile 0, ctx := 0, write := false, time := 0, token := none }
    let f := { bareF with parked := some (.page 4) }
    let s := { parkedS bareS f with mm.faults := [p] }
    let t := { s with mm.faults := [{ p with token := some 4 }] }
    let c := { s with mm.faults := [{ p with token := some 4, who := .command 3 }],
                      en.commands := [(3, { copy0 with faultWait := some 4 })] }
    let h := { s with mm.faults := [{ p with reason := 0 }], mm.ats := [(0x100000000, 7)] }
    (s.mm.faults.find? (fun p => p.token.isNone && p.reason != 0) = some p ∧ s.mm.mem.wf = true ∧ s.mm.splices = [] ∧ s.mm.fltLog = 0 ∧
      cntSub s.mm.fltTail s.mm.fltHead < 64 ∧ (let z := { s with mm.fltTail := 64 }; 64 ≤ cntSub z.mm.fltTail z.mm.fltHead)) ∧
    (∀ q ∈ t.mm.faults, q.token ≠ none ∨ q.reason = 0) ∧
    (t.barOpen = true ∧ faultNamed t 4 { p with token := some 4 } ∧ (t.slot 0).map (fun sl => (sl.due.fault, sl.firing.map (·.parked))) =
      some (none, some (some (.page 4)))) ∧
    (pageAsked h 4 { p with reason := 0 } ∧ paHost (0x40000000 * 2 ^ 4 * 65536) = true) ∧
    (faultNamed c 4 { p with token := some 4, who := .command 3 } ∧ (c.command 3).map (fun x => (x.faultWait, x.ended, x.loader)) = some (some 4, false, false)) ∧
    (s.mm.faults.find? (fun p => p.token == some 9) = none ∧ State.reset.barOpen = false) ∧
    ((∀ n, n ∈ [7] ↔ ∃ e ∈ h.mm.ats, inBusRange 0x1000000000000 16 e ∧ e.2 = n) ∧ h.hostRequests [7] = false) ∧
    (let b := { h with slots := [(0, { bareS with firing := some { bareF with b.xlated := [(0, 7)] } })] }; b.hostRequests [7] = true) := by
  refine ⟨by decide +kernel, by decide +kernel, ⟨by decide +kernel, by rfl, by decide +kernel⟩, ⟨by rfl, by decide +kernel⟩, ⟨by rfl, by decide +kernel⟩,
    by decide +kernel, ⟨?_, by decide +kernel⟩, by decide +kernel⟩
  intro n
  constructor
  · intro h
    have h7 : n = 7 := by simpa using h
    subst h7
    exact ⟨(0x100000000, 7), List.mem_singleton.2 rfl, Or.inl (by decide), rfl⟩
  · rintro ⟨e, he, _, h⟩
    have hh : e = (0x100000000, 7) := List.mem_singleton.1 he
    subst hh
    exact List.mem_singleton.2 h.symm

/-- Tables at PA 0x10000 to 0x40000 that map page 0 of context 0 to PA 0x1230000 (20 R354). -/
def tabled : State :=
  { freeS bareS with
      mm.mem := [(0x10000, 1), (0x10002, 2), (0x20000, 1), (0x20002, 3), (0x30000, 1), (0x30002, 4), (0x40000, 15), (0x40002, 0x23), (0x40003, 1)],
      al.ctxs := [(0, { Ctx.zero with rootEn := true, root := 2 })] }

/-- A free port and a busy one; an invalidation with an access open and with none; a page with a leaf, one without, one that has just moved; frames that
a page may move to and not; a migration whose copy is due. -/
theorem witness_InvalidationsAndMigrations :
    let i : Invalidation := { id := 6, ctx := 0, vpg := 0, log := 44, port := some 0 }
    let port := fun va pa => { MmuPort.zero with va := va, pa := pa }
    let s := { tabled with mm.mmu := #v[port 0 0x1240000, { port 0 0 with busy := true, op := 2, fromFrame := 0x123, toFrame := 0x124, copied := 1024 }], mm.invals := [i],
                             mm.splices := [(0x123, 0x124)] }
    let c := { s with mm.mmu := #v[port 0 0, { port 0 0 with busy := true, op := 2, fromFrame := 0x123, toFrame := 0x124, copied := 1023 }] }
    let o := { s with slots := [(0, { bareS with firing := some { bareF with b.xlated := [(0, 7)] } })] }
    (commanded s 0 1 1 ∧ commanded s 0 0x2C01 1 ∧ ¬ bits (0x2D01 : Dword) 13 8 ≤ 44 ∧ commanded s 0 2 2) ∧
    (s.barOpen = true ∧ (s.mmuPort 1).busy = true ∧ State.reset.barOpen = false) ∧
    (s.mm.invals.find? (fun x => x.id == i.id) = some i ∧ s.accessOpen i = false ∧ o.accessOpen i = true) ∧
    (s.leafOf 0 0 = some (0x40000, 0x123000F) ∧ s.leafOf 0 65536 = none ∧ bits (0x123000F : Dword) 51 16 = 0x123 ∧
      moveAllowed 0x123 0x124 = true ∧ moveAllowed 0x123 0x80500000000 = false) ∧
    (let z := { s with mm.mmu := #v[port 0 0, MmuPort.zero] }; z.pageSettling 0 0 = false) ∧ s.pageSettling 0 0 = true ∧
    (s.mm.mem.wf = true ∧ (s.mmuPort 1).op = 2 ∧ s.mm.invals.any (fun i => i.port == some 1) = false ∧ 0x40000 % 8 = 0 ∧
      0x40000 / 65536 ≠ 0x123 ∧ 0x40000 / 65536 ≠ 0x124) ∧
    (copies s 1 ∧ (s.mmuPort 1).copied = 1024 ∧ s.leafOf (s.mmuPort 1).ctx ((s.mmuPort 1).vpg * 65536) = some (0x40000, 0x123000F) ∧
      s.mm.splices = [(0x123, 0x124)]) ∧
    (copies c 1 ∧ (c.mmuPort 1).copied < 1024 ∧ (c.mmuPort 1).fromFrame * 1024 + 1023 ≠ (c.mmuPort 1).toFrame * 1024 + 1023) ∧ ¬ copies c 0 := by
  refine ⟨⟨⟨by rfl, by decide, by rfl, by decide +kernel, by decide +kernel, by decide +kernel⟩, ⟨by rfl, by decide, by rfl, by decide +kernel, by decide +kernel, by decide +kernel⟩,
    by decide +kernel, ⟨by rfl, by decide, by rfl, by decide +kernel, by decide +kernel, by decide +kernel⟩⟩, by decide +kernel, by decide +kernel, by decide +kernel, by decide +kernel,
    by decide +kernel, by decide +kernel, ⟨by unfold copies; decide +kernel, by decide +kernel, by decide +kernel, by decide +kernel⟩,
    ⟨by unfold copies; decide +kernel, by decide +kernel, by decide +kernel⟩, by unfold copies; decide +kernel⟩

/-- A kill of cove 3 that homes have still to acknowledge and one that all have; home numbers 233 and 234. -/
theorem witness_Kills :
    let k : Kill := { cove := 3, gen := 1, acked := [0], packets := [], flrs := [] }
    let s := { freeS bareS with mm.kills := [k], al.ctxs := [(1, { Ctx.zero with tag := 3, kip := true })] }
    let t := { s with mm.kills := [{ k with acked := List.range 234 }] }
    (s.mm.kills.find? (fun x => x.cove == 3) = some k ∧ (233 : Nat) < 234 ∧ k.acked.contains 233 = false ∧ (∀ p ∈ s.dv.paths, p.heldWrites = [])) ∧
    (s.mm.kills.find? (fun x => x.cove == 4) = none ∧ (234 : Nat) ≤ 234) ∧
    (t.mm.kills.find? (fun x => x.cove == 3) = some { k with acked := List.range 234 } ∧ (List.range 234).length = 234 ∧ t.dv.jetty.restarting = none ∧
      k.acked.length < 234) ∧
    ((∀ c ∈ t.al.cfgs, (t.coveCtxs 3).contains c.2.launch.ctx = true → c.2.state = .ended) ∧
      (∀ l ∈ t.al.launches, (t.coveCtxs 3).contains l.ctx = false)) ∧
    (let z := { s with mm.kills := [] }; (∀ x ∈ z.mm.kills, x.cove ≠ 3) ∧ 1 ∈ z.coveCtxs 3) := by
  decide +kernel


/-! ### Queues and packets -/

/-- A running queue of context 0 that is served. -/
def queue0 : Queue := { Queue.zero with state := 1, rsize := 16, nextNum := 1 }

/-- A packet with some bytes set, numbered 0, not dispatched. -/
def packet0 (l : List (Nat × Byte)) : Packet :=
  { num := 0, unit := 0, bytes := blockOf l, dispatched := false, finished := none, since := 0, tried := none }

/-- The part with that packet alone at the head of queue 0, where the front end and memory of context 0 are at hand. -/
def queued (p : Packet) : State :=
  let s := mapFor deviceUnit (freeS bareS)
  { s with fe.queues := [(0, { queue0 with packets := [p] })], fe.slice := (0, 0) }

/-- R335: a packet of LEN 1 in place of 0 is malformed. -/
theorem test_packet_len : (packet0 [(0, 9)]).malformed = false ∧ (packet0 [(0, 9), (1, 1)]).malformed = true := by decide +kernel

/-- R335: WRSIG writes its 8 bytes in one step. -/
theorem test_wrsig :
    (match exec (.wrsig 0) (queued (packet0 [(0, 4), (16, 64), (24, 7), (32, 8)])) with
     | .next t => (t.mm.mem.byte 0x1230040, (t.ctx 0).events.length)
     | _ => (0, 0)) = (7, 1) := by decide +kernel

/-- A disabled queue with a block in form and out of it, queues in each state, errors 6 and 2, a read of the ring that succeeds and one that fails, slices
that run on and end; tails newer, stale and beyond the ring, with the aperture open and gated, the capture queue empty, with one write, and full. -/
theorem witness_QueuesAndTails :
    let off := { queue0 with state := 0 }
    let err := fun (e : Dword) => { queue0 with state := 2, err := e, tail := 2 }
    let s := { queued (packet0 []) with fe.queues := [(0, off), (1, { off with rbase := 1 }), (2, err 6), (3, err 2), (4, { queue0 with state := 3 }),
      (5, { queue0 with ctx := 3 }), (63, queue0)] }
    let v : Dword := 0x1FC000010
    let g := { s with fe.gated := true }
    let w := { queued (packet0 []) with mm.mem := [(0x1230000, 1), (0x1230004, 1)] }
    ((s.queue 0).state = 0 ∧ (s.queue 0).valid = true ∧ (s.queue 1).state = 0 ∧ (s.queue 1).valid = false) ∧
    ((s.queue 63).state = 1 ∧ (s.queue 2).state = 2 ∧ (s.queue 4).state = 3) ∧
    (bits (s.queue 2).err 7 0 = 6 ∧ bits (s.queue 3).err 7 0 ≠ 6 ∧ (s.readUnits (s.queue 2) (s.queue 2).head 1).isOk = true ∧
      ((s.readUnits { s.queue 2 with rbase := 65536 } 0 1).isOk = false)) ∧
    ((∀ p ∈ (s.queue 4).packets, p.dispatched = false) ∧ (s.queue 4).replayOpen = [] ∧
      (∃ p ∈ ({ s.queue 4 with packets := [{ packet0 [] with dispatched := true }] } : Queue).packets, p.dispatched = true)) ∧
    (let t := { s with fe.slice := (63, 0), clock := 27000 }
     ¬ ((t.queue t.fe.slice.1).state = 1 ∧ t.clock < t.fe.slice.2 + 27000) ∧ t.nextQueue t.fe.slice.1 = some 5 ∧
       ({ t with fe.queues := [] } : State).nextQueue 63 = none) ∧
    ((queued (packet0 [])).queue 0).state = 1 ∧
    (s.fe.gated = false ∧ bits v 31 26 = 63 ∧ (s.queue 63).ctx = 0 ∧ newerTail (s.queue 63) v ∧
      (s.queue 63).rsize < (bits (v + 1) 25 0 + 2 ^ 26 - (s.queue 63).head % 2 ^ 26) % 2 ^ 26 ∧ cntSub (bits (0xFC000010 : Dword) 63 32) (s.queue 63).seq = 0 ∧
      2 ^ 31 ≤ cntSub (bits (0x80000000FC000010 : Dword) 63 32) (s.queue 63).seq) ∧
    (g.fe.gated = true ∧ g.fe.capture = [] ∧ g.fe.capOvf = false ∧
      64 ≤ ({ g with fe.capture := List.replicate 64 (0, 0, 8, v) } : State).fe.capture.length) ∧
    ((exec (.tailWrite 0 0 8 v) { g with fe.gated := false, fe.capture := [] } matches .next _) ∧
      (∀ x ∈ ({ s with fe.queues := [(0, off)] } : State).fe.queues, x.2.state ≠ 1)) ∧
    (∃ bs x, w.fe.queues = [(0, x)] ∧ x.state = 1 ∧ w.ctxRead x.ctx x.tshad 8 = .ok bs ∧ bits (BitVec.ofNat 64 (ofBytes bs)) 31 26 = 0 ∧
      newerTail x (BitVec.ofNat 64 (ofBytes bs))) := by
  refine ⟨by decide +kernel, by decide +kernel, by decide +kernel, ⟨by decide +kernel, by decide +kernel, _, List.mem_singleton.2 rfl, by rfl⟩, by decide +kernel, by decide +kernel,
    by unfold newerTail; decide +kernel, by decide +kernel, ⟨by rfl, by decide +kernel⟩, [1, 0, 0, 0, 1, 0, 0, 0], _, by rfl, by rfl, by decide +kernel, by decide +kernel, ?_⟩
  unfold newerTail
  decide +kernel

/-- A ring with a FENCE and one with an unassigned type; completions with and without a record and a vector; WRSIG within and beyond the mapped page; a WAIT
for each of its four conditions, tried in this slice and not, with and without a timeout of 1 µs that is over; a FENCE alone and behind a WAIT; a
FLOODH of a described layer and of another; KILL of the context and of a launch that is none. -/
theorem witness_PacketsAndCompletions :
    let r := { queued (packet0 []) with fe.queues := [(0, { queue0 with tail := 1 })], mm.mem := [(0x1230000, 9)] }
    let x := { r with mm.mem := [(0x1230000, 0x40)] }
    let fin := fun p : Packet => { p with finished := some 0 }
    let irq := queued (fin (packet0 [(1, 0x20)]))
    let rcd := queued (fin (packet0 [(8, 16)]))
    let sig := queued (packet0 [(0, 4), (16, 64), (24, 7), (32, 8)])
    let far := queued (packet0 [(0, 4), (18, 1), (32, 8)])
    let wt := fun c : Byte => { packet0 [(0, 5), (24, 1), (32, 255), (40, c), (48, 1)] with tried := some 7 }
    let now := fun p : Packet => { p with tried := some 0, since := 1 }
    let fen := queued (packet0 [(0, 9)])
    let flood := fun l : Byte => { queued (packet0 [(0, 0xA), (16, l), (26, 1)]) with
      al.cfgs := [(1, { bareCfg 0 with launch.image.layerLines := [⟨5, none⟩] })] }
    let kill := { queued (packet0 ((List.range 8).map (fun i => (24 + i, 255)) ++ [(0, 0xB)])) with al.ctxs := [(0, { Ctx.zero with tag := 3 })] }
    (mayFetch r 0 1 ∧ (r.readUnits (r.queue 0) 0 1).isOk = true ∧
      (r.readUnits (r.queue 0) 0 1).map (fun bs => (field bs 1 1 % 16 + 1, ({ packet0 [] with num := 1, bytes := bs } : Packet).malformed)) matches .ok (1, false)) ∧
    (mayFetch x 0 1 ∧ (x.readUnits (x.queue 0) 0 1).map (fun bs => (field bs 1 1 % 16 + 1, ({ packet0 [] with num := 1, bytes := bs } : Packet).malformed)) matches
      .ok (1, true)) ∧
    (irq.packet 0 0 = some (fin (packet0 [(1, 0x20)])) ∧ (irq.queue 0).replay = none ∧ (irq.queue 0).replayOpen = [] ∧ (fin (packet0 [(1, 0x20)])).cva = 0 ∧
      (fin (packet0 [(1, 0x20)])).irq = true ∧ (fin (packet0 [])).irq = false) ∧
    (rcd.packet 0 0 = some (fin (packet0 [(8, 16)])) ∧ (fin (packet0 [(8, 16)])).cva = 16 ∧ (rcd.ctxWrite 0 16 (List.replicate 16 0)).isOk = true) ∧
    (headIs sig 0 0x04 (packet0 [(0, 4), (16, 64), (24, 7), (32, 8)]) ∧
      (sig.ctxWrite 0 64 (toBytes 8 7)).map (fun t => (t.al.ctxs == sig.al.ctxs, t.fe == sig.fe)) matches .ok (true, true)) ∧
    (headIs far 0 0x04 (packet0 [(0, 4), (18, 1), (32, 8)]) ∧ (far.ctxWrite 0 65536 (toBytes 8 0)).isOk = false) ∧
    (∀ c ∈ [0, 1, 2, 3], headIs (queued (wt c)) 0 0x05 (wt c) ∧ (wt c).tried ≠ some (queued (wt c)).fe.slice.2 ∧ (wt c).f 41 1 = 0) ∧
    ((queued (wt 0)).ctxRead 0 0 8 matches .ok [0, 0, 0, 0, 0, 0, 0, 0]) ∧
    (headIs (queued (now (wt 0))) 0 0x05 (now (wt 0)) ∧ (now (wt 0)).tried = some (queued (now (wt 0))).fe.slice.2 ∧
      (now (wt 0)).f 48 8 = 1 ∧ (now (wt 0)).since - 1 + 1 * 1000 ≤ ({ queued (now (wt 0)) with clock := 2700 } : State).ns) ∧
    (headIs fen 0 0x09 (packet0 [(0, 9)]) ∧ (fen.queue 0).packets.head? = some (packet0 [(0, 9)])) ∧
    (let b := { fen with fe.queues := [(0, { queue0 with packets := [{ wt 0 with num := 5, dispatched := true }, packet0 [(0, 9)]] })] }
     headIs b 0 0x09 (packet0 [(0, 9)]) ∧ (wt 0).type ≠ 0x09) ∧
    (headIs (flood 5) 0 0x0A (packet0 [(0, 0xA), (16, 5), (26, 1)]) ∧ ((flood 5).tide (tideKey 0 5)).state = .absent ∧
      (∃ c ∈ (flood 5).al.cfgs, c.2.launch.ctx = 0 ∧ c.2.state ≠ .ended ∧ ∃ l ∈ c.2.launch.image.layerLines, l.layer = 5)) ∧
    (headIs (flood 6) 0 0x0A (packet0 [(0, 0xA), (16, 6), (26, 1)]) ∧
      ∀ c ∈ (flood 6).al.cfgs, ∀ l ∈ c.2.launch.image.layerLines, l.layer ≠ 6) ∧
    (headIs kill 0 0x0B (packet0 ((List.range 8).map (fun i => (24 + i, 255)) ++ [(0, 0xB)])) ∧ (kill.ctx 0).tag ≠ 0 ∧ kill.mm.kills = []) ∧
    (let k := queued (packet0 [(0, 0xB), (24, 9)])
     headIs k 0 0x0B (packet0 [(0, 0xB), (24, 9)]) ∧ (∀ c ∈ k.al.cfgs, c.2.launch.ordinal ≠ 9) ∧ k.al.launches = []) := by
  unfold mayFetch headIs
  refine ⟨by decide +kernel, by decide +kernel, by decide +kernel, by decide +kernel, by decide +kernel, by decide +kernel, ?_, by decide +kernel, by decide +kernel, by decide +kernel,
    by decide +kernel, ?_, by decide +kernel, by decide +kernel, by decide +kernel⟩
  · decide +kernel
  · decide +kernel

/-! ### Launches, deltas and replay lists -/

/-- An image that the loader accepts: the one actor, with an entry in each rate set. -/
def good : Image := { bareImage 0 with actors := [{ bareActor 0 with entry := (List.range 8).map fun i => (16 * i, 0) }] }

/-- Bytes of an image with a section of kind 1, whose 48 bytes are 0, and one of kind 5 with one word. -/
def imageBody : List Byte := toBytes 4 1 ++ toBytes 8 48 ++ List.replicate 52 0 ++ toBytes 4 5 ++ toBytes 8 8 ++ List.replicate 12 0
/-- Its SHA-256, by FIPS 180-4. -/
def imageDigest : BitVec 256 := 0x5cbb433f40b86c0e4ef348c7a604881655bf8839426798229dee78e5c01ea529
def imageBytes : List Byte :=
  [0x4F, 0x4C, 0x55, 0x46] ++ toBytes 2 1 ++ toBytes 2 2 ++ toBytes 8 152 ++ digestBytes imageDigest ++ List.replicate 16 0 ++ imageBody
def section1 : List Byte := List.replicate 48 0
def section5 : List Byte := List.replicate 8 0
def imageParts : List (Nat × List Byte) := [(1, section1), (5, section5)]

/-- What those bytes are, where their sections say `im`. -/
def imageRead (im : Image) : Image :=
  { im with hash := sha256 imageBody, signature := none, bsig := 0, actors := withRuns im.actors [0] }

/-- FIPS 180-4: the digest of "abc". -/
theorem test_sha256 : sha256 [0x61, 0x62, 0x63] = 0xba7816bf8f01cfea414140de5dae2223b00361a396177a9cb410ff61f20015ad := by decide +kernel

theorem image_sections : sectionsFrom imageBytes 152 2 64 =
    some [{ kind := 1, off := 64, data := section1 }, { kind := 5, off := 128, data := section5 }] := by decide +kernel

/-- R95, R61: the bytes give the sections' content, with the word of section 5 as the actor's run. -/
theorem test_image_bytes (im : Image) (h : Config.imageContent imageParts = some im) : imageOf imageBytes = some (imageRead im) := by
  have h1 : field imageBytes 8 8 = 152 ∧ field imageBytes 6 2 = 2 := by decide +kernel
  have h2 : headerOk imageBytes = true ∧ (imageBytes.take 152).drop 64 = imageBody := by decide +kernel
  have h3 : sha256 imageBody = BitVec.ofNat 256 (ofBytes ((imageBytes.drop 16).take 32).reverse) := by decide +kernel
  have h4 : codeWords section5 = [0] ∧ field section1 0 2 = 0 := by decide +kernel
  have h5 : Config.imageContent [(1, section1), (5, section5)] = some im := h
  simp [imageOf, h1, h2, image_sections, ← h3, h4, h5, sectionData, imageRead, Option.elim]

/-- The part with a packet at the head of queue 0 and the bytes of that image at VA 0 of context 0. -/
def imaged (p : Packet) : State :=
  { queued p with mm.mem := Memory.putAll [] 0x1230000 imageBytes, al.ctxs := [(0, { Ctx.zero with rootEn := true })] }

/-- What a state reads where those bytes stand. -/
theorem image_read {s : State} {im : Image} (h1 : s.ctxRead 0 0 64 = .ok (imageBytes.take 64)) (h2 : s.ctxReadLong 0 0 3 152 = .ok imageBytes)
    (h : Config.imageContent imageParts = some im) : s.readImage 0 0 = .ok (some (imageRead im)) := by
  have h3 : field (imageBytes.take 64) 8 8 = 152 := by decide +kernel
  simp only [State.readImage, h1, bind, Except.bind, pure, Except.pure, h3]
  simp only [show ¬ (152 < 64) by decide, if_false, show 152 / 64 + 1 = 3 by decide, h2, test_image_bytes im h]

/-- R335: LAUNCH and SLAUNCH of that image: its bytes are read, and a content that the loader accepts pends where one that it rejects has status 1. -/
theorem witness_Launches :
    let p := packet0 [(0, 1)]
    let s := imaged p
    let f := imaged (packet0 [(0, 2), (18, 1)])
    headIs s 0 0x01 p ∧ headIs f 0 0x02 (packet0 [(0, 2), (18, 1)]) ∧
    (∀ im, Config.imageContent imageParts = some im → s.readImage (ctxOf s 0) (p.f 16 8) = .ok (some (imageRead im))) ∧
    (∀ b, s.refuseLaunch 0 p (imageRead good) 5 0 b = none) ∧ s.refuseLaunch 0 p (imageRead (bareImage 0)) 5 0 false = some 1 ∧
    (queued p).readImage 0 0 = .ok none ∧ (f.readImage 0 65536).isOk = false := by
  unfold headIs
  refine ⟨by decide +kernel, by decide +kernel, ?_, by decide +kernel, by decide +kernel, by rfl, by decide +kernel⟩
  intro im h
  have h1 : (imaged (packet0 [(0, 1)])).ctxRead 0 0 64 = .ok (imageBytes.take 64) := by decide +kernel
  have h2 : (imaged (packet0 [(0, 1)])).ctxReadLong 0 0 3 152 = .ok imageBytes := by decide +kernel
  exact image_read h1 h2 h

/-- A DETSET to level 1 with no region; a source log whose header is marked, and one whose records are not in order. -/
theorem witness_Detset :
    let p := packet0 [(0, 6), (24, 1), (28, 1)]
    let d := packet0 [(0, 6), (24, 1), (28, 2), (32, 64), (40, 1)]
    let s := queued d
    let m := { s with mm.mem := [(0x1230058, 1)] }
    let o := { s with mm.mem := [(0x1230080, 1)] }
    headIs (queued p) 0 0x06 p ∧ p.f 28 1 ≤ 1 ∧ (queued p).en.regions = [] ∧ ((queued p).slot 0).map (·.pl.region) = some none ∧
    (queued p).cloneSet 0 = none ∧ headIs s 0 0x06 d ∧
    ((m.ctxRead 0 64 64).map (fun h => field h 24 1 % 2) matches .ok 1) ∧ ((m.readRecords 0 128 1).isOk = true) ∧
    ((o.readRecords 0 128 1).map (fun rs => canonical none rs) matches .ok false) := by
  unfold headIs
  decide +kernel

/-- A DELTA to an image with other entries, and one to an image that the loader rejects; one at each stage, and one whose run has ended. -/
theorem witness_Deltas :
    let p := packet0 [(0, 3), (24, 1)]
    let s := imaged p
    let d : Delta := { queue := 0, packet := 0, cfg := 1, image := good, stage := 0 }
    let y := { p with dispatched := true }
    let u := { queued y with fe.deltas := [d] }
    let v := { u with fe.deltas := [{ d with stage := 1 }] }
    let e := { u with al.cfgs := [(1, { bareCfg 0 with state := .ended })] }
    headIs s 0 0x03 p ∧ s.fe.deltas = [] ∧
    (∀ im, Config.imageContent imageParts = some im → s.readImage (ctxOf s 0) (p.f 16 8) = .ok (some (imageRead im))) ∧
    s.al.cfgs.find? (fun c => c.2.launch.ctx == 0 && c.2.launch.ordinal == 1 && decide (c.2.state ≠ .ended)) = some (1, bareCfg 0) ∧
    deltaTaken s 0 p 1 (bareCfg 0) (imageRead good) ∧ ¬ deltaTaken s 0 p 1 (bareCfg 0) (imageRead (bareImage 0)) ∧
    (deltaUnderWay u 0 d (bareCfg 0) ∧ (bareCfg 0).state = .placed ∧
      (u.touched 1 (bareCfg 0) good).all (fun x => x.2.1.firing.isNone && x.2.1.detl == 0) = true ∧ (u.touched 1 (bareCfg 0) good).length = 1) ∧
    (deltaUnderWay v 0 { d with stage := 1 } (bareCfg 0) ∧ v.packet 0 0 = some y) ∧
    deltaUnderWay e 0 d { bareCfg 0 with state := .ended } := by
  refine ⟨by unfold headIs; decide +kernel, by rfl, ?_, by rfl, ?_, ?_, ⟨?_, by rfl, by decide +kernel, by decide +kernel⟩, ⟨?_, by rfl⟩, ?_⟩
  · intro im h
    have h1 : (imaged (packet0 [(0, 3), (24, 1)])).ctxRead 0 0 64 = .ok (imageBytes.take 64) := by decide +kernel
    have h2 : (imaged (packet0 [(0, 3), (24, 1)])).ctxReadLong 0 0 3 152 = .ok imageBytes := by decide +kernel
    exact image_read h1 h2 h
  · unfold deltaTaken; decide +kernel
  · unfold deltaTaken; decide +kernel
  all_goals unfold deltaUnderWay; decide +kernel

/-- A replay whose only node is a WRSIG, and one whose node is malformed; a PATCH of a list, and one that would need a third generation. -/
theorem witness_ReplaysAndPatches :
    let p := packet0 [(0, 7), (24, 1)]
    let g : ReplayGen := { gen := 0, patched := [] }
    let s := { queued p with mm.mem := [(0x1230000, 4), (0x1230010, 64), (0x1230020, 8)] }
    let n : Packet := { packet0 [(0, 4), (16, 64), (32, 8)] with num := 1 }
    let a := packet0 [(0, 8), (24, 16), (28, 1), (32, 7)]
    let t := { queued a with fe.lists := [(0, [{ g with gen := 1 }, g])],
                             fe.queues := [(0, { queue0 with packets := [a] }), (1, { queue0 with replay := some (0, 0, 1) })] }
    (headIs s 0 0x07 p ∧ (s.queue 0).replay = none ∧ p.f 24 4 = 1 ∧ (s.gens 0 0).head? = some g) ∧
    (s.nodeBytes 0 0 0 1 g = .ok n.bytes ∧ field n.bytes 1 1 % 16 + 1 = 1 ∧ n.malformed = false ∧ n.type = 0x04 ∧ n.bar = false ∧
      (∀ y ∈ (s.queue 0).packets, y.num ≠ n.num) ∧ (s.ctxWrite 0 64 (toBytes 8 0)).isOk = true) ∧
    ((queued p).nodeBytes 0 0 0 1 g = .ok (List.replicate 64 0) ∧ ({ n with bytes := List.replicate 64 0 } : Packet).malformed = true) ∧
    (headIs (queued a) 0 0x08 a ∧ ((queued a).dropGens 0 0).gens 0 0 = [g]) ∧
    (headIs t 0 0x08 a ∧ (t.dropGens 0 0).gens 0 0 = [{ g with gen := 1 }, g]) := by
  unfold headIs
  decide +kernel

/-! ### Admission, swap-outs and clones -/

/-- The part with pending launches alone. -/
def pending (ls : List Launch) : State := { freeS bareS with slots := [], al.cfgs := [], al.launches := ls }

/-- A launch whose two actors stand at the corners of a rectangle of 9 by 8 pages. -/
def wide : Launch :=
  { bareLaunch 0 with
      ordinal := 2,
      image.lines := [{ actor := 0, row := 0, col := 0, slot := 0, word := [0], fallbackOf := none },
                      { actor := 0, row := 23, col := 24, slot := 0, word := [0], fallbackOf := none }] }

/-- R303: a configuration of page 8 in the way of that launch moves to page 0. -/
def inTheWay : State :=
  let sl := { bareS with firing := none }
  { freeS bareS with slots := [(8 * gridTile 8 0 0 0, sl)], al.cfgs := [(1, { bareCfg 0 with x0 := 8, slots := [8 * gridTile 8 0 0 0] })], al.launches := [wide] }

/-- A launch that fits at the first page, one behind a launch of a higher level, none at all; a launch that waits for a move, a move that is done. -/
theorem witness_Admission :
    let s := pending [bareLaunch 0]
    let u := pending [bareLaunch 0, { bareLaunch 0 with ordinal := 2, queue := 1, lvl := 6 }]
    let m := { freeS bareS with al.cfgs := [(1, { bareCfg 0 with state := .moving, moveTo := some (3, 2) })] }
    (admits s ∧ s.considered = [bareLaunch 0] ∧ s.fit (bareLaunch 0) [] true = some (0, 0) ∧ s.admitHeld (bareLaunch 0) = false ∧ (bareLaunch 0).detl = 0 ∧
      (((bareLaunch 0).image.planned false).map fun p => p.key 0 0).Nodup ∧ ((bareLaunch 0).image.planned false).length = 1) ∧
    (u.considered.map (·.ordinal) = [2, 1] ∧ admits (pending []) ∧ (pending []).considered = []) ∧
    (inTheWay.stuckLaunch.isSome = true ∧ inTheWay.allocBusy = false ∧ inTheWay.dv.jetty.restarting = none ∧
      inTheWay.movesFit wide [(1, 0 * 16 + 0)] = true ∧ (inTheWay.cfg 1).map (·.state) = some .placed ∧ s.stuckLaunch = none) ∧
    ((m.cfg 1).map (fun c => (c.state, c.moveTo)) = some (.moving, some (3, 2)) ∧ (m.al.cfgs.map (·.1)).Nodup ∧
      m.al.cfgs.any (fun d => decide (d.2.state = .moving) && m.cfgBusy d.1) = false ∧ (m.cfgSlots 1).map (·.1) = [0] ∧ m.cfg 2 = none) := by
  unfold admits
  refine ⟨?_, ?_, ?_, ?_⟩ <;> decide +kernel

/-- The bare slot of a clonable actor, with a clone in slot 8 that leaves from stamp 4 on. -/
def cloneS : Slot := { bareS with pl.actor := { bareActor 0 with clonable := true }, firing := none }
def cloned (st : Dword) : State :=
  let set : CloneSet := { original := 0, copies := [8], splits := [], leaving := [(8, 4)], hot := 0, cold := 0, wanted := false, next := 0 }
  { freeS bareS with slots := [(0, { cloneS with stamp := st }), (8, cloneS)], al.cfgs := [(1, { bareCfg 0 with cloneSets := [set] })] }

/-- A configuration that has stopped; a level-10 run past its deadline, hard and not; windows of 270,000 cycles with every copy busy for 90 % and an
arc under back-pressure for 25 %, with a copy busy for 40 %, and with one busy for less; a clone whose last stamp has committed and has not. -/
theorem witness_SwapOutsDeadlinesClones :
    let sw := { freeS bareS with al.cfgs := [(1, { bareCfg 0 with state := .stopping })] }
    let dl := fun h => { bareCfg 0 with launch.lvl := 10, launch.deadline := 1, launch.hard := h, dlDone := false }
    let d := fun h => { queued { packet0 [] with dispatched := true } with al.cfgs := [(1, dl h)], clock := 2700 }
    let w := fun (busy back : Nat) => ({ since := 0, busy := [(0, busy)], back := [(1, back)] } : Window)
    let on := cloned 4
    ((sw.cfg 1).map (fun c => (c.state, c.cloneSets)) = some (.stopping, []) ∧ sw.cfgBusy 1 = false ∧ sw.cfg 2 = none) ∧
    ((d true).cfg 1 = some (dl true) ∧ (d false).cfg 1 = some (dl false) ∧ (dl true).launch.deadline < (d true).ns ∧ (d true).en.regions = [] ∧
      (dl true).launch.late = false ∧ ((d true).packet 0 0).map (·.finished) = some none) ∧
    (bottleneck (w 243000 67500) [0] 270000 ∧ ¬ bottleneck (w 242999 67500) [0] 270000 ∧ ¬ bottleneck (w 243000 67499) [0] 270000 ∧
      quietWindow (w 107999 0) [0] 270000 ∧ ¬ quietWindow (w 108000 0) [0] 270000 ∧ (269999 : Nat) < (w 0 0).since + 270000) ∧
    ((on.cloneSet 8).map (fun c => (c.original, on.cloneDone c 8)) = some (0, true) ∧ (on.slot 8).isSome = true ∧
      (on.slot 0).map (·.due.level) = some none ∧ (on.slots.map (·.1)).Nodup) ∧
    (((cloned 3).cloneSet 8).map (fun c => (cloned 3).cloneDone c 8) = some false ∧ on.cloneSet 16 = none) := by
  unfold bottleneck quietWindow
  refine ⟨?_, ?_, ?_, ?_, ?_⟩ <;> decide +kernel

/-- The bare slot of a clonable actor, with a window of it that has ended and a clone set with these counts. -/
def ended (hotNow coldNow : Bool) (hot cold : Nat) (copies : List Nat) (detl : Nat) : State :=
  { freeS { cloneS with detl } with
      al.rben := true, al.windows := [(0, { since := 0, busy := [], back := [], ended := [(hotNow, coldNow)] })],
      al.cfgs := [(1, { bareCfg 0 with cloneSets := [{ original := 0, copies, splits := [], leaving := [], hot, cold, wanted := false, next := 0 }] })] }

/-- A hot window after one, with a spot for a clone and with four copies, and the fourth cold one; a D2 run with no record, with one that makes a clone and one
that ends one; a clone asked for by the host in each level, and in a region that drains. -/
theorem witness_RebalancerWindows :
    let s := ended true false 1 0 [] 0
    let sl := { cloneS with detl := 0 }
    let q := ended false true 0 3 [8] 0
    let rec' := fun (x : Dword) => { kind := 3, lnch := 1, site := 0, seq := 0, subj := x }
    let two := fun (x : List LogRecord) (cs : List Nat) =>
      { ended false false 0 0 cs 2 with al.windows := [], al.ctxs := [(0, { Ctx.zero with log := some { log0 with source := x } })] }
    (s.placed 0 = some sl ∧ sl.pl.actor.clonable = true ∧ sl.due.exited = false ∧ ((s.cloneSet 0).all fun c => c.original == 0) = true ∧
      ((q.cloneSet 0).all fun c => c.original == 0) = true ∧ (s.regionOf sl).any Region.drain = false ∧ sl.pl.surrogate = none) ∧
    ((s.cloneCounts 0 sl).hot = 1 ∧ (s.cloneSpot { s.cloneCounts 0 sl with hot := 2 } sl).isSome = true ∧
      ((ended true false 1 0 [8, 16, 24, 32] 0).cloneCounts 0 sl).copies.length = 4) ∧
    ((q.cloneCounts 0 sl).cold = 3 ∧ (q.cloneCounts 0 sl).active ≠ []) ∧
    (((two [] []).ctx 0).log.isSome = true ∧ ((two [] []).ctx 0).log.map (fun g => g.siteRecords 3 1 0) = some [] ∧
      ((two [rec' 0x3000000000000000] []).ctx 0).log.map (fun g => g.siteRecords 3 1 0) = some [rec' 0x3000000000000000] ∧
      (two [rec' 0x3000000000000000] []).recordTarget { cloneS with detl := 2 } 0x3000000000000000 = some 0 ∧
      (0x3000000000000000 : Dword).getLsbD 60 = true ∧
      (two [rec' 0] [8]).recordTarget { cloneS with detl := 2 } 0 = some 0 ∧ (0 : Dword).getLsbD 60 = false) ∧
    ((ended false false 0 0 [] 3).placed 0 = some { cloneS with detl := 3 } ∧ s.dv.jetty.restarting = none ∧
      ({ region0 with levels := [(0, 0, 0)] } : Region).drain = true) := by
  refine ⟨?_, ?_, ?_, ?_, ?_⟩ <;> decide +kernel

/-! ### The Jetty controller, errors, links and groups -/

/-- A vector of booleans or numbers with one entry set. -/
def eight {α : Type} (z : α) (i : Fin 8) (x : α) : Vector α 8 := (Vector.replicate 8 z).set i x

/-- Records of a BRK and of an alignment trap held for policy; kicks before WMIN, at WMAX and one cycle past it; a restart whose next slot passes and one
whose does not; JFWSEL words with GO, without, and with a reserved bit; a window write that ends at the window's end; a context with a cut, and
with none. -/
theorem witness_JettyController :
    let held := fun c : Dword => freeS { bareS with due.policy := some (Vector.replicate 8 c) }
    let s := freeS bareS
    let kick := fun (k : Bool) (n : Nat) => { s with dv.jetty.kicked := k, clock := n }
    let down := fun n : Nat => { s with dv.jetty.restarting := some 0, dv.jetty.next := n }
    let sv : Save := { part := 0, inst := 0, copy := 0, slot := { bareS with firing := none }, bytes := [], bad := [] }
    let cut := { s with al.cfgs := [(1, { bareCfg 0 with vld := true, saves := [sv] })] }
    ((held 0x15).slot 0).map (fun sl => sl.due.policy.map fun r => bits r[0] 7 0) = some (some 0x15) ∧
    ((held 9).slot 0).map (fun sl => sl.due.policy.map fun r => bits r[0] 7 0) = some (some 9) ∧ (held 9).cfg 1 = some (bareCfg 0) ∧
    ((held 9).dv.jetty.restarting = none ∧ (down 0).dv.jetty.restarting ≠ none ∧ (s.slot 0).map (·.due.policy) = some none) ∧
    (s.jettyRuns = true ∧ (down 0).jettyRuns = false ∧ (kick true 269999).clock < 0 + 10 * 27000 ∧ 0 + 10 * 27000 ≤ (kick true 270000).clock ∧
      (kick true 27000000).clock ≤ 0 + 1000 * 27000 ∧ 0 + 1000 * 27000 < (kick true 27000001).clock) ∧
    ((down 0).fwPasses 0 = true ∧ (down 1).fwPasses 1 = false) ∧
    (s.barOpen = true ∧ (0x88 : Dword) &&& 0xFFFFFFFFFFF8FF33 = 0 ∧ (0x88 : Dword).getLsbD 7 = true ∧ (0x70048 : Dword) &&& 0xFFFFFFFFFFF8FF33 = 0 ∧
      (0x70048 : Dword).getLsbD 7 = false ∧ (1 : Dword) &&& 0xFFFFFFFFFFF8FF33 ≠ 0 ∧ State.reset.barOpen = false) ∧
    (65535 + [(1 : Byte)].length ≤ 65536 ∧ 65536 < 65535 + [(1 : Byte), 1].length ∧ s.dv.jetty.act ≤ 1) ∧
    (s.ctxCfgs 0 = [1] ∧ s.ctxCfgs 1 = [] ∧ (bareCfg 0).state = .placed ∧ (bareCfg 0).vld = false) ∧
    (cut.ctxCfgs 0 = [1] ∧ (cut.cfg 1).map (fun c => (c.vld, c.slots)) = some (true, [0]) ∧ (cut.slots.map (·.1)).Nodup ∧
      (cut.slots.filter fun ks => ks.2.pl.cfg == 1).length = 1 ∧
      ((cut.cfg 1).bind fun c => c.saves.find? fun v => v.part == c.last % 2 && v.copy == 0 && v.inst == bareS.pl.inst).isSome = true) := by
  decide +kernel

/-- An error at a site. -/
def err0 : ErrorSite := { site := 4, die := 0, unit := 0, slot := 0, cove := 0, addr := 0, coves := [] }

/-- R410: KIND 10 goes with site 1 alone, and sites 2, 8 and above 9 are reserved. -/
theorem test_inject_ok : injectOk 0x18000000 = true ∧ injectOk 0x38000000 = false ∧ injectOk 0x20000000 = false ∧ injectOk 0xA0000000 = false := by
  decide +kernel

/-- Sites 0, 1, 12 and 13; a firing before and after it became irrevocable; a word of the run, a line of the carve at its ends; a configuration with a cut and
RBK and without; an entry of a cove on a tile, of an engine, of a flood and in a TLB; a transfer's failures 0, 8 and 9. -/
theorem witness_Errors :
    let s := parkedS bareS bareF
    let i := parkedS bareS { bareF with irr := true }
    let rb := { s with al.cfgs := [(1, { bareCfg 0 with vld := true })], al.ctxs := [(0, { Ctx.zero with snapRbk := true })] }
    let tag := freeS { bareS with pl.tag := 3 }
    let eng := { s with en.commands := [(3, { copy0 with cove := 3 }), (4, { copy0 with cove := 4, family := .stream }), (5, { coll0 with cove := 5 })],
                        en.tides := [(5, { Tide.zero with state := .flooding })], al.ctxs := [(0, { Ctx.zero with tag := 6 })],
                        mm.tlb := [{ unit := 7, ctx := 0, tag := 7, gen := 0, vpg := 0, level := 4, leaf := 0 }] }
    (s.barOpen = true ∧ State.reset.barOpen = false ∧ bits (0 : Dword) 63 52 = 0 ∧ injectOk 0x10000000 = true ∧ injectOk 0x20000000 = false) ∧
    ((s.slot 0).map (fun sl => sl.firing.map (·.irr)) = some (some false) ∧ (i.slot 0).map (fun sl => sl.firing.map (·.irr)) = some (some true)) ∧
    ((s.slot (0 * 8)).map (fun sl => (sl.pl.runBase, sl.pl.runLen)) = some (0, 1) ∧ (∀ j, 1 ≤ j → j < 8 → s.slot (0 * 8 + j) = none)) ∧
    ((s.slot 0).map (fun sl => (sl.pl.wtb * 64, sl.pl.spb * 64)) = some (0, 4096) ∧ (4095 : Nat) < 4096) ∧
    ((s.cfg 1).map (·.vld) = some false ∧ (rb.cfg 1).map (fun c => (c.vld, decide (c.state ≠ .ended))) = some (true, true) ∧ (rb.ctx 0).snapRbk = true) ∧
    ((s.ctx 0).log = none ∧ (∀ sl, (freeS bareS).slot 0 = some sl → sl.firing = none) ∧ ((s.slot 0).map fun sl => decide (sl.pl.spb * 64 ≤ 4096)) = some true ∧
      ({ s with al.ctxs := [(0, { Ctx.zero with log := some log0 })] } : State).ctx 0 = { Ctx.zero with log := some log0 } ∧ nth s.dv.dieState 7 0 = 0) ∧
    (entryIn tag { err0 with site := 9, slot := 1 } 3 ∧ entryIn eng { err0 with site := 9, slot := 3 } 4 ∧ entryIn eng { err0 with site := 9, slot := 5 } 6 ∧
      entryIn eng { err0 with site := 9, slot := 6 } 3 ∧ entryIn eng { err0 with site := 9, slot := 7 } 5 ∧ entryIn eng { err0 with site := 9, unit := 7, slot := 1 } 7 ∧
      entryIn eng { err0 with site := 9, slot := 2, cove := 8, coves := [9] } 9 ∧
      entryIn { eng with mm.dirty := [(9, 64, 0)] } { err0 with site := 9, slot := 2, unit := eng.homeSlice 1 } 9) := by
  refine ⟨by decide +kernel, by decide +kernel, ⟨by decide +kernel, ?_⟩, by decide +kernel, by decide +kernel, ?_, ?_⟩
  · intro j h1 h2
    have : j = 1 ∨ j = 2 ∨ j = 3 ∨ j = 4 ∨ j = 5 ∨ j = 6 ∨ j = 7 := by omega
    rcases this with rfl | rfl | rfl | rfl | rfl | rfl | rfl <;> rfl
  · refine ⟨by decide +kernel, ?_, by decide +kernel, by decide +kernel, by decide +kernel⟩
    intro sl h
    cases h
    rfl
  · refine ⟨.inl ⟨by decide, 0, { bareS with pl.tag := 3, firing := none }, by decide, by rfl, by rfl⟩,
      .inr (.inr (.inr (.inl ⟨by rfl, (4, { copy0 with cove := 4, family := .stream }), .tail _ (.head _), by rfl, by rfl, by rfl, by rfl⟩))),
      .inr (.inr (.inr (.inr (.inl ⟨by rfl, (5, { Tide.zero with state := .flooding }), .head _, .inl (by rfl), by rfl⟩)))),
      .inr (.inr (.inr (.inr (.inr (.inl ⟨.inl (by rfl), (3, { copy0 with cove := 3 }), .head _, by rfl, by rfl, by rfl, by decide, by rfl⟩))))),
      .inr (.inr (.inr (.inr (.inr (.inr (.inl ⟨.inl (by rfl), (5, { coll0 with cove := 5 }), .tail _ (.tail _ (.head _)), by rfl, by rfl, by rfl, by rfl⟩)))))),
      .inr (.inr (.inr (.inr (.inr (.inr (.inr ⟨_, .head _, by rfl, .inl ⟨by rfl, by rfl⟩⟩)))))),
      .inr (.inl ⟨.inl (by rfl), .inr (.head _)⟩),
      .inr (.inr (.inl ⟨by rfl, .inl ⟨(9, 64, 0), .head _, by rfl, by rfl⟩⟩))⟩

/-- A tile with three failures and one with two; a retiring one at rest and with a firing, with spares and with none left; dies that serve, drain to a reset
and to a hold, and are held. -/
theorem witness_Retirement :
    let bad := fun n : Nat => { parkedS bareS { bareF with irr := true } with tiles := [(0, { Tile.zero with failures := List.replicate n 0 })] }
    let out := fun n : Nat => { freeS bareS with tiles := [(0, { Tile.zero with retiring := true, spare := n })] }
    let die := fun (st : Nat) (h : Bool) => { freeS bareS with dv.dieState := eight 0 7 st, dv.dieHold := eight false 7 h }
    ((0 : Nat) < 1152 ∧ ((bad 3).tile 0).retiring = false ∧ 3 ≤ ((bad 3).tile 0).failures.length ∧ ((bad 2).tile 0).failures.length < 3) ∧
    (((out 3).tile 0).retiring = true ∧ ((out 3).slot 0).map (·.firing) = some none ∧ (out 3).sparesUsed (0 / 144) < 4 ∧ 4 ≤ (out 4).sparesUsed (0 / 144)) ∧
    ((∃ i u, i < 8 ∧ (bad 3).slot (0 * 8 + i) = some u ∧ u.firing ≠ none)) ∧
    ((die 0 false).barOpen = true ∧ nth (die 0 false).dv.dieState 7 0 = 0 ∧ nth (die 1 false).dv.dieState 7 0 ≠ 0) ∧
    ((die 3 true).dieStatus 7 = 3 ∧ (die 2 false).dieStatus 7 = 2 ∧ (die 0 false).dieStatus 7 ≠ 3) ∧
    ((die 1 false).dieEmpty 7 = true ∧ (die 1 false).atomicsAt 7 = false ∧ nth (die 1 false).dv.dieState 6 0 = 0 ∧ (6 : Nat) = if 7 % 2 = 0 then 7 + 1 else 7 - 1) := by
  refine ⟨by decide +kernel, by decide +kernel, ⟨0, { bareS with firing := some { bareF with irr := true } }, by decide, by rfl, by decide⟩, by decide +kernel, by decide +kernel, by decide +kernel⟩

/-- Link 11 down and up, whole and narrowed, 10 s before and after; a path that is down with a held write, alone and in a group; group 255 with two members
and with one, and enabled; peers whose generation the home holds and does not. -/
theorem witness_LinksPathsGroups :
    let l := fun x : Link => (Vector.replicate 12 Link.zero).set 11 x
    let s := { freeS bareS with dv.pkgLock := true, dv.pkg := 1 }
    let up : Link := { up := true, peer := 5, lanes := 8, retraining := false, triedAt := 0 }
    let u := { s with dv.links := l up }
    let r := { s with dv.links := l { up with retraining := true } }
    let p : Path := { pkg := 5, downSince := some 0, timedOut := false, heldWrites := [(3, 1, 64, 9)] }
    let d := fun n : Nat => { s with dv.paths := [p], al.cfgs := [], clock := n }
    let g : Group := { en := true, ctx := 0, epoch := 1, mbr := 0x22, recovery := none }
    let grp := fun x : Group => { s with en.groups := [(255, x)] }
    (s.dv.pkgLock = true ∧ (s.link 11).up = false ∧ (5 : Nat) ≠ s.dv.pkg ∧ (∀ q ∈ s.dv.paths, q.heldWrites = [])) ∧
    ((u.link 11).up = true ∧ (8 : Nat) ≤ (u.link 11).lanes ∧ (u.link 11).retraining = false ∧ (r.link 11).retraining = true ∧ (u.link 11).lanes < 16 ∧
      (u.link 11).triedAt + 27000000000 ≤ ({ u with clock := 27000000000 } : State).clock ∧ ({ u with clock := 26999999999 } : State).clock < (u.link 11).triedAt + 27000000000) ∧
    (∃ q ∈ u.dv.links.toList, q.up = true ∧ q.retraining = false ∧ q.peer = 5) ∧
    ((d 27000000).dv.paths = [p] ∧ p.downSince = some 0 ∧ 0 + 27000000 ≤ (d 27000000).clock ∧ (d 26999999).clock < 0 + 27000000 ∧ (d 0).al.cfgs = [] ∧
      (d 0).en.groups = [] ∧ (d 0).mm.mem.wf = true ∧ (g.en = true ∧ g.members.contains 5 = true ∧ g.recovery = none)) ∧
    (s.barOpen = true ∧ ((grp { g with en := false }).group 255).en = false ∧ (0x8000003F00000000 : Dword) &&& 0x7FFFFFC000000000 = 0 ∧
      2 ≤ g.members.length ∧ ({ g with mbr := 2 } : Group).members.length < 2 ∧ g.members.contains 1 = true ∧ (0x4000000000000000 : Dword) &&& 0x7FFFFFC000000000 ≠ 0) ∧
    (((grp g).group 255).en = true ∧ ((grp g).group 255).mbr.extractLsb' (64 * 3) 64 ≠ 1) ∧
    (s.pathDown 5 = false ∧ (d 0).pathDown 5 = true ∧ 0xFFFFFFFFFF + [(7 : Byte)].length ≤ 2 ^ 40 ∧ s.peerTakes 5 0xFFFFFFFFFF 0 0 = true ∧
      s.peerTakes 5 0xFFFFFFFFFF 0 1 = false) := by
  refine ⟨by decide +kernel, by decide +kernel, ⟨{ up := true, peer := 5, lanes := 8, retraining := false, triedAt := 0 }, by decide, by rfl, by rfl, by rfl⟩, by decide +kernel, by decide +kernel,
    by decide +kernel, by decide +kernel⟩
/-! ### The clauses added for forms that the statements above did not say -/

/-- R209: flags that nothing enables are raised, and one that TE enables traps with its element. -/
theorem witness_VectorFlags :
    let l := flagList 64 (fun e => e != 0) fun e => if e = 3 then 16 else 0
    ((gs []).raise l).isOk = true ∧ ({ gs [] with sys.fcsr := 0x600 } : Regs).raise l = .error (.trap { code := 0x0B, fl := 16, elem := 3 }) ∧
    ((gs []).raise ((0, 1) :: l)).isOk = true := by decide +kernel

/-- A surrogate's firing that has opened its check and been rejected and not, with its fallback in slot 8; at its end and at EXIT (R329). -/
theorem witness_SurrogateVerdicts :
    let f := fun bad => { bareF with surK := true, surReject := bad }
    let u := { bareS with pl.fallback := some 8, detl := 0 }
    let s := fun bad => { runAs u (f bad) with slots := [(0, slotAs u (f bad)), (8, { bareS with firing := none, pl.surrogate := some 0 })] }
    (∀ bad, Runs (s bad) 0 (slotAs u (f bad)) (f bad) .always ∧ isSurrogate (slotAs u (f bad)) (f bad) = true ∧
      (s bad).commandsEnded (f bad).started = true ∧ (s bad).outstanding 0 + (f bad).b.commands ≤ 64 ∧
      (s bad).lowerDone 0 (f bad).r.stamp.toNat u.pl.rank = true ∧ (f bad).r.sys.chki.getLsbD 0 = false) ∧
    (∀ bad, (s bad).endChecks (slotAs u (f bad)) ((f bad).executed 0x0C) = .ok () ∧ (s bad).endChecks (slotAs u (f bad)) ((f bad).executed 0xDF) = .ok ()) ∧
    verdict (f false) = true ∧ verdict (f true) = false ∧ (s true).slot 0 = some (slotAs u (f true)) ∧ ((s true).slot 8).isSome = true := by
  refine ⟨?_, ?_, by decide +kernel, by decide +kernel, by rfl, by decide +kernel⟩
  · intro bad
    cases bad <;> exact ⟨⟨by rfl, rfl⟩, by rfl, by rfl, by decide +kernel, by decide +kernel, by decide +kernel⟩
  · intro bad
    cases bad <;> exact ⟨by rfl, by rfl⟩

/-- An access that runs into the next page, which is mapped, read-only for a store, and not mapped; one at the end of the translated space; a translation at
hand; and the overflow area of SPOV at its last byte and one past it. -/
theorem witness_AccessesAcrossPages :
    let s := runM bareF
    let t := { s with mm.tlb := { unit := 0, ctx := 0, tag := 0, gen := (s.ctx 0).gen, vpg := 2 ^ 44 - 1, level := 4, leaf := 0xF } :: s.mm.tlb }
    let sl := runS bareF
    let lim := sl.pl.lim * 64
    ((65536 : Nat) < 65534 % 65536 + 4 ∧ (65534 / 65536 + 1) * 65536 < 2 ^ 60 ∧ (s.translate 0 65534 false).map (·.pa) = .ok 0x123FFFE ∧
      (s.translate 0 65536 false).map (·.pa) = .ok 0x1240000 ∧ (s.translate 0 65534 true).map (·.pa) = .ok 0x123FFFE ∧
      s.translate 0 65536 true = .error .readOnly) ∧
    ((2 ^ 60 - 2) % 65536 + 4 > 65536 ∧ 2 ^ 60 ≤ ((2 ^ 60 - 2) / 65536 + 1) * 65536 ∧ (t.translate 0 (2 ^ 60 - 2) false).isOk = true) ∧
    Tab.find ([(0, 9)] : Tab Nat) (65532 / 65536) = some 9 ∧
    (lim ≤ lim + 65535 ∧ lim + 65535 < 2 ^ 22 ∧ lim + 65535 - lim + 1 ≤ (1 : Dword).toNat % 128 * 65536 ∧
      (1 : Dword).toNat % 128 * 65536 < lim + 65536 - lim + 1) := by
  decide +kernel

/-- A piece that goes beyond the token, at a general and a vector register; a port that is not declared and a handler firing. -/
theorem witness_TokenErrors :
    let s := runP bareF
    let sl := slotAs pipedS bareF
    let h := { bareF with handler := true }
    hasInput s sl bareF 0 arc1 ∧ arc1.size < 64 + 4 ∧ arc1.size ≤ (1 : Nat) * 256 ∧ sizeIn sl 1 = none ∧ sizeOut sl 1 = none ∧ h.handler = true ∧
    Runs (runP h) 0 (slotAs pipedS h) h .always ∧ sizeOut sl 0 = some 64 ∧ (0 : Nat) < 64 ∧ (64 : Nat) ≤ 256 := by
  exact ⟨⟨by rfl, by rfl, by rfl⟩, by decide, by decide, by rfl, by rfl, by rfl, runsP _, by rfl, by decide, by decide⟩

/-- MMAG of BF16 with 32 k-steps whose group of B begins at v63. -/
theorem witness_MatrixGroupPastTheEnd :
    let d := (32 : Nat) * 2 ^ 38
    d < 2 ^ 46 ∧ 1 ≤ d / 2 ^ 38 ∧ d / 2 ^ 38 ≤ 512 / Ty.bf16.bits ∧ 64 < (63 : Fin 64).val + lengthB (d / 2 ^ 38) Ty.bf16.bits := by decide +kernel

/-- Two parked tokens, one poisoned, and a window with space for them; a swapped-out configuration. -/
theorem witness_ParkedTokens :
    let x := { arc1 with parked := [(List.replicate 64 1, false), (List.replicate 64 2, true)] }
    let s := { pipeS with arcs := [(1, x)] }
    s.arc 1 = some x ∧ deliveredTo s x 0 0 ∧ s.cloneSet 0 = none ∧ x.merge = none ∧ (∀ b ∈ x.parked, b.1.length = x.size) ∧ x.window ∣ 2 ^ 32 ∧
    min x.parked.length (s.windowRoom x - cntSub x.wp x.rp) = 2 ∧
    (let z := { s with al.cfgs := [(1, { bareCfg 0 with state := .swapped })] }; (z.cfg 1).map (·.state) = some .swapped) := by
  exact ⟨by rfl, ⟨by rfl, by rfl⟩, by rfl, by rfl, by decide, by decide, by decide +kernel, by rfl⟩

/-- A remote atomic that was given up after it arrived and before; one that its D2 log holds for its turn; and a write event that a tag's synchronisation
names. -/
theorem witness_LostAtomics :
    let far := { req0 with pa := remotePa }
    let l : LateRequest := { slot := 0, cove := 0, gen := 0, key := tagKey 0 0 9, since := 0, q := far }
    let r := fun (x : Dword) => { kind := 1, lnch := 1, site := 0, seq := 0, subj := x }
    let two := { freeS { bareS with detl := 2 } with
      en.late := [l], al.ctxs := [(0, { Ctx.zero with log := some { log0 with source := [r 5, r 0] } })] }
    ((two.inFlight 0) = none ∧ (two.en.late.find? fun l => l.slot == 0 && !(two.isRemote l.q.pa && two.pathDown (paPkg l.q.pa))) = some l ∧
      (two.slot 0).isSome = true ∧ two.homeTakes remotePa 0 0 = true ∧ two.tagRefused (atomicHome remotePa) (tagKey 0 0 9) = false ∧
      two.atomicPoison far = false ∧ far.op ≠ 0xA6 ∧ two.clock ≤ 0 + 2700000 ∧ two.forced 2 0 1 1 far.site (fun x => x == far.subj) = .hold) ∧
    (let w := (freeS bareS).writeEvent { tag := 0, gen := 0, unit := 1 } (fun _ => false) [(64, 5)]
     (w.mm.order.events.map (·.num)).any (fun n => ({ own := [n] } : TagSync).own.contains n) = true) ∧
    (({ far with arrived := true } : AtomicReq).arrived = true ∧ far.arrived = false) := by
  decide +kernel

/-- A piece that the holding buffer keeps; a COLL with its first round sent and not yet, of a group that takes it and not; an input that waits; epochs on both
sides of the wrap. -/
theorem witness_HeldPiecesAndRounds :
    let h : HeldPiece := { seq := 0, pos := 0, src := 0, bytes := List.replicate 48 7, psn := false }
    let c := { copy0 with held := [h] }
    let g : Group := { en := true, ctx := 0, epoch := 1, mbr := 3, recovery := none }
    let on := { coll0 with partials := [(collBegun, 0)] }
    let t := fun c : Command => { mapFor c.unit (freeS bareS) with en.commands := [(3, c)], en.groups := [(0, g)] }
    (c.held.find? (fun h => h.pos == c.progress && h.src == addr64 (c.src + c.progress) && h.bytes.length == 48) = some h ∧ copy0.held = []) ∧
    (roundsOn on ∧ ¬ roundsOn coll0 ∧ (t on).commandLive on = true ∧ (t on).collAllowed on = true ∧ (t on).collAllowed { on with ctx := 1 } = false) ∧
    (coll0.partials.find collBegun = none ∧ 1 < ((t coll0).ring coll0).n ∧ (t coll0).pathDown (nextMember (t coll0) coll0) = false ∧
      (let ch := ((t coll0).ring coll0).chunk ((((t coll0).ring coll0).rank + ((t coll0).ring coll0).n - 1) % ((t coll0).ring coll0).n)
       ((t coll0).collRead coll0 (field coll0.block 0 8) ch.1 ch.2 ((t coll0).ring coll0).ty.bytes).isOk = true)) ∧
    (newer 1 0xFFFFFFFF ∧ ¬ newer 0xFFFFFFFF 1 ∧ ¬ newer 1 1) := by
  unfold roundsOn newer
  decide +kernel

/-- A load at a page that is not mapped, in a revocable and an irrevocable firing and after FAIL; the slot whose fault is answered, in a handler firing and not;
and a request through a cached host translation. -/
theorem witness_FaultsOfAFiring :
    let r := gs [(4, 0x20000)]
    let f := withR r
    let g := { f with irr := true }
    let p : PageFault := { id := 4, va := 0x20000, reason := 1, who := .tile 0, ctx := 0, write := false, time := 0, token := some 4 }
    let s := fun h => { freeS { bareS with due := { bareS.due with fault := some 4, handler := h } } with mm.faults := [p] }
    Runs (runM f) 0 (runS f) f .always ∧ Runs (runM g) 0 (runS g) g .always ∧ f.failedFault = false ∧ f.irr = false ∧
    ((runM f).accessLocs 0 (runS f) f .global (r.ea (mOf .i32 (.g 3) (.g 4) (.g 0) 0)) 4 false) = .error (.page 0x20000 1 false) ∧
    ((runM g).accessLocs 0 (runS g) g .global (r.ea (mOf .i32 (.g 3) (.g 4) (.g 0) 0)) 4 false) = .error (.page 0x20000 1 false) ∧
    (∀ h, (s h).barOpen = true ∧ faultNamed (s h) 4 p ∧ ((s h).slot 0).map (fun sl => (sl.due.fault, sl.due.handler)) = some (some 4, h)) := by
  refine ⟨runsM _, runsM _, by rfl, by rfl, by decide +kernel, by decide +kernel, ?_⟩
  intro h
  cases h <;> exact ⟨by rfl, by rfl, by rfl⟩

/-- A cove with a dirty line and a pin, a slot, a command and a translation; and a swapped-out configuration that shares an arc with package 5. -/
theorem witness_KillsEnd :
    let sv : Save := { part := 2, inst := 0, copy := 0, slot := { bareS with firing := none }, bytes := [], bad := [] }
    let s := { pipeS with mm.kills := [], mm.dirty := [(3, 64, 9)], mm.pins := [(0, 0, 4)], al.ctxs := [(0, { Ctx.zero with tag := 3 })],
                          arcs := [(1, { arc1 with cross := some 5 })], en.commands := [(3, { copy0 with cove := 3 })],
                          al.cfgs := [(1, { bareCfg 0 with state := .swapped, saves := [sv] })] }
    (∀ x ∈ s.mm.kills, x.cove ≠ 3) ∧ (s.slot 0).map (fun u => (s.coveCtxs 3).contains u.pl.ctx) = some true ∧
    (s.command 3).map (fun c => (s.coveCtxs 3).contains c.ctx) = some true ∧ s.mm.mem.wf = true ∧
    ((s.cfg 1).map (·.saves) = some [sv] ∧ sv.part = 2 ∧ (s.coveCtxs 3).contains sv.slot.pl.ctx = true ∧ s.sharesWith sv.slot.pl.ctx 5 = true) ∧
    (∀ d ∈ s.mm.dirty, ∀ e ∈ s.mm.dirty, d.1 = 3 → e.1 = 3 → d.2.1 = e.2.1 → d = e) := by
  decide +kernel

/-- A function-level reset under way; a capture queue that has overflowed; a reconcile pass with a shadow that cannot be read; a WRSIG and a FENCE whose path is
down; completion records that the host's table does not take. -/
theorem witness_FrontEndWaits :
    let s := queued (packet0 [])
    let rec' := { packet0 [(10, 2)] with finished := some 0 }
    let down := fun p : Packet => { queued p with
      dv.paths := [{ pkg := 5, downSince := some 0, timedOut := false, heldWrites := [(0, 0, 64, 9)] }],
      mm.tlb := [{ unit := deviceUnit, ctx := 0, tag := 0, gen := 0, vpg := 3, level := 4, leaf := 0x000805000000000F }] }
    let w := packet0 [(0, 4), (18, 3), (32, 8)]
    let fen := packet0 [(0, 9)]
    ({ s with dv.host.flr := true } : State).dv.host.flr = true ∧ s.dv.host.flr = false ∧
    (let g := { s with fe.gated := true, fe.capOvf := true, fe.capture := [(0, 0, 8, 1), (0, 0, 8, 2)] }; g.fe.gated = true ∧ g.fe.capOvf = true) ∧
    ((s.fe.queues.map (·.1)).Nodup ∧ (s.ctxRead 0 65536 8).isOk = false) ∧
    (headIs (down w) 0 0x04 w ∧ (down w).waitsForPath 0 (w.f 16 8) = true ∧ (queued w).waitsForPath 0 (w.f 16 8) = false) ∧
    (headIs (down fen) 0 0x09 fen ∧ (down fen).holdsFor 0 = true ∧ (queued fen).holdsFor 0 = false) ∧
    (rec'.cva ≠ 0 ∧ rec'.cva % 16 = 0 ∧ rec'.refused = false ∧ rec'.asked = none ∧ ((queued rec').ctxWrite 0 rec'.cva (List.replicate 16 0)).isOk = false) := by
  unfold headIs
  decide +kernel

/-- A signature that does not verify, and one where the fuses are past 0; a DELTA in a context under a kill, and one whose configuration is swapped out; a
REPLAY behind another one's last node. -/
theorem witness_LaunchesAndListsRefused :
    let s := queued (packet0 [])
    let d : Delta := { queue := 0, packet := 0, cfg := 1, image := good, stage := 1 }
    let y := { packet0 [(0, 3), (24, 1)] with dispatched := true }
    let sv : Save := { part := 2, inst := 0, copy := 0, slot := { bareS with firing := none, detl := 0 }, bytes := [], bad := [] }
    let sw := { queued y with fe.deltas := [d], slots := [], al.cfgs := [(1, { bareCfg 0 with state := .swapped, saves := [sv] })] }
    let k := { queued y with fe.deltas := [d], al.ctxs := [(0, { Ctx.zero with kip := true })] }
    let p := packet0 [(0, 7), (24, 1)]
    let q := { queued p with fe.queues := [(0, { queue0 with packets := [p], replay := some (9, 0, 1) })] }
    ((s.ctx 0).kip = false ∧ ({ good with signature := some false } : Image).signature = some false ∧
      ({ good with signature := some true } : Image).signature.isSome = true ∧ ({ s with dv.lh.fuses := 64 } : State).dv.lh.fuses ≠ 0) ∧
    (deltaUnderWay sw 0 d { bareCfg 0 with state := .swapped, saves := [sv] } ∧ sw.packet 0 0 = some y ∧ sv.slot.detl ≠ 3) ∧
    (deltaUnderWay k 0 d (bareCfg 0) ∧ (bareCfg 0).state = .placed ∧ (k.ctx (bareCfg 0).launch.ctx).kip = true) ∧
    (headIs q 0 0x07 p ∧ (q.queue 0).replay = some (9, 0, 1) ∧ (9 : Nat) ≠ p.num) := by
  unfold deltaUnderWay headIs
  decide +kernel

/-- A rollback that waits for the first cut, one of two slots, and one of a swapped-out configuration. -/
theorem witness_Rollbacks :
    let sv := fun (part inst : Nat) => ({ part, inst, copy := 0, slot := { bareS with firing := none }, bytes := [], bad := [] } : Save)
    let due := { bareCfg 0 with inpr := 1, cuts := [{ num := 1, saved := [], arcsDone := [], dead := false }], rollbackDue := true }
    let sl := fun i : Nat => { bareS with firing := none, pl.inst := i }
    let two := { freeS bareS with slots := [(0, sl 0), (8, sl 1)], al.cfgs := [(1, { bareCfg 0 with vld := true, slots := [0, 8], saves := [sv 0 0, sv 0 1] })] }
    let sw := { freeS bareS with slots := [], al.cfgs := [(1, { bareCfg 0 with state := .swapped, vld := true, saves := [sv 2 0, sv 0 0] })] }
    (due.state ≠ .ended ∧ due.vld = false ∧ due.rollbackDue = true ∧ due.cutting = true) ∧
    ((two.slots.map (·.1)).Nodup ∧ (two.slot 8).map (·.pl.inst) = some 1 ∧ (two.cfg 1).map (fun c => (c.slots, c.last)) = some ([0, 8], 0) ∧
      [sv 0 0, sv 0 1].find? (fun v => v.part == 0 % 2 && v.copy == 0 && v.inst == 1) = some (sv 0 1)) ∧
    ((sw.cfg 1).map (fun c => (c.state, c.vld)) = some (.swapped, true) ∧ (sv 2 0).part = 2 ∧
      [sv 2 0, sv 0 0].find? (fun v => v.part == 0 % 2 && v.copy == 0 && v.inst == 0) = some (sv 0 0)) ∧
    ({ bareCfg 0 with rollbackDue := false } : Configuration).rollbackDue = false := by
  decide +kernel

/-- Tokens that a path keeps back; a signing under way when a sensor trips, and no controller to tell of it. -/
theorem witness_HeldMessages :
    let p : Path := { pkg := 5, downSince := some 0, timedOut := false, heldWrites := [], held := [.peerTokens 5 1 [] false] }
    let s := { freeS bareS with dv.paths := [p] }
    s.pathDown 5 = true ∧ p ∈ s.dv.paths ∧ p.pkg = 5 ∧ Emission.peerTokens 5 1 [] false ∈ p.held ∧
    (({ s with dv.lh.signing := some (1, []) } : State).dv.lh.signing.isSome = true ∧ s.jettyRuns = true ∧
      ({ s with dv.jetty.restarting := some 0 } : State).jettyRuns = false) := by
  decide +kernel

/-- BAR4 at its least and its greatest size; each stage of the boot with power, and a reset held; the slots from which it boots. -/
theorem witness_BootStages :
    let s := { State.reset with dv.host.power := true, dv.host.perst := false }
    let at' := fun n => { s with dv.lh.stage := n }
    let same := { s with dv.firmware := #v[Firmware.factory, Firmware.factory] }
    (({ freeS bareS with dv.host.bar4Log := 30 } : State).dv.host.bar4Log = 30 ∧ (40 : Nat) ≤ 40 ∧ (freeS bareS).barOpen = true) ∧
    (s.bootHeld = false ∧ ({ s with dv.host.perst := true } : State).bootHeld = true ∧ s.dv.lh.stage = 0 ∧ (at' 1).dv.lh.stage = 1 ∧
      (at' 2).dv.lh.stage = 2 ∧ (at' 2).bootHeld = false ∧ s.dv.jetty.restarting = none) ∧
    (bootsFrom s 0 ∧ bootsFrom same 0 ∧ bootsFrom { s with dv.firmware := #v[Firmware.factory, { Firmware.factory with svn := 1 }] } 1) ∧
    (s.dv.lh.accepts s.dv.lh.image = true ∧ ({ s with dv.lh.image := Firmware.zero } : State).dv.lh.accepts Firmware.zero = false) := by
  unfold bootsFrom
  decide +kernel

/-- An injection armed for the next operation of tile 0, of one bit and of two; an atomic that was performed ahead of its turn. -/
theorem witness_ArmedInjections :
    let u := fun w : Dword => { run bareF with dv.errInj := w }
    let f := { bareF with ahead := [(0, req0)] }
    ((u 0x8000000010000000).armedAt 1 0 = true ∧ (u 0x8000000010000000).opStruck 0 = false) ∧ (u 0x8000000014000000).opStruck 0 = true ∧
    (f.ahead.find? fun x => x.1 == f.pc) = some (0, req0) ∧ Running (run f) 0 (runS f) f := by
  exact ⟨by decide +kernel, by decide +kernel, by rfl, running _⟩

/-- A byte that a marked read has met, and one whose newest write a read has before it. -/
theorem witness_MetBytes :
    let w := (freeS bareS).writeEvent { tag := 0, gen := 0, unit := 1 } (fun _ => false) [(64, 5)]
    let n := (w.newest 64).getD 0
    let v : View := { hb := [], floor := [], met := [], metAt := [(64, n)] }
    w.newest 64 = some n ∧ (64 : Nat) ∈ [64, 65] ∧ (64, n) ∈ v.metAt := by
  decide +kernel

/-- R27: a merged port whose consumer's line comes first: producers of one token each have the solution 2, 1, 1. -/
theorem test_merge_balances :
    let l := fun a => { actor := a, row := 0, col := a, slot := 0, word := [0], fallbackOf := none }
    let e := fun p => { prodInst := p, prodPort := 0, consInst := 0, consPort := 0, window := 4, delay := 0, initTokens := [], park := 0, cross := none }
    let a := { bareActor 0 with inSize := (Vector.replicate 16 none).set 0 (some 64), outSize := (Vector.replicate 16 none).set 0 (some 64),
                                rates := [(0, 1), (16, 1)], period := Vector.replicate 8 1 }
    let im := { bareImage 0 with actors := [a], lines := [l 0, { l 0 with col := 1 }, { l 0 with col := 2 }], edges := [e 1, e 2] }
    im.unbalanced im.repetitions = none ∧ im.repetitions.find 0 = some 2 ∧ im.repetitions.find 1 = some 1 := by decide +kernel

/-- R161: the type code 15 of a cache operation is trap 0x03 of its fields; of a load it is no type. -/
theorem test_pref_type : decode 0x8CF0000000000000 = .error .fields ∧ decode 0x80F0000000000000 = .error .types := by
  refine ⟨?_, ?_⟩ <;> rfl


/-! ### The Lighthouse, the host, the step and the whole machine -/

/-- LHPOL actions 0, 1 and 2; the seed erased, a signing under way; measurements 1 and 5; a run that is selected and none; a signing of each kind; IDE
streams 4 and 5, before and after authentication. -/
theorem witness_LighthouseAnswers :
    let s := freeS bareS
    let run : RunRecord := { ctx := 0, ordinal := 0, hash := 0, bsig := 1, lowest := 0, changed := false, part := false }
    (({ s with dv.lh.glta := 0 } : State).sensorAction .glitch = 0 ∧ s.sensorAction .clock = 1 ∧ 2 ≤ ({ s with dv.lh.tmpa := 2 } : State).sensorAction .temperature) ∧
    (s.dv.lh.erased = false ∧ s.dv.lh.signing = none ∧ ({ s with dv.lh.erased := true } : State).dv.lh.erased = true ∧
      ({ s with dv.lh.signing := some (1, []) } : State).dv.lh.signing = some (1, []) ∧ ({ s with dv.lh.signing := some (2, []) } : State).dv.lh.signing = some (2, [])) ∧
    (s.dv.lh.meas.toList[1 - 1]? = some 0 ∧ s.dv.lh.meas.toList[5 - 1]? = some 0) ∧
    (s.selectedManifest = [] ∧ ({ s with al.history := [run] } : State).selectedManifest ≠ []) ∧
    ((4 : Nat) ≤ 4 ∧ (4 : Nat) < 5 ∧ s.dv.host.authed = false ∧ ({ s with dv.host.authed := true } : State).dv.host.authed = true) := by
  refine ⟨by decide +kernel, by decide +kernel, by decide +kernel, ⟨by rfl, by decide +kernel⟩, by decide +kernel⟩

/-- Contexts 63 and 64, halted and not; the last byte of HBM, clean and poisoned; a frozen part, offsets out of form; register words with legal bits, with a
reserved bit and out of range; PKGID open and locked; queue 63 disabled and running. -/
theorem witness_HostAccess :
    let s := freeS bareS
    let h := { s with al.ctxs := [(63, { Ctx.zero with halted := true })] }
    let p := { s with mm.poison := [0x3FFFFFFFF] }
    let last := 0xFFFFFFFFFF
    (s.barOpen = true ∧ (63 : Nat) < 64 ∧ (s.ctx 63).halted = false ∧ (h.ctx 63).halted = true ∧ State.reset.barOpen = false) ∧
    (last + [(7 : Byte)].length ≤ 2 ^ 40 ∧ s.mm.splices = [] ∧ s.mm.mem.wf = true ∧ s.homeTakes last 0 0 = true ∧
      s.mm.poison.contains (last / 64) = false ∧ p.mm.poison.contains (last / 64) = true) ∧
    (({ s with dv.lh.frozen := true } : State).dv.lh.frozen = true ∧ 4 % 8 ≠ 0 ∧ State.reset.dv.lh.stage ≠ 3) ∧
    ((0x10101 : Dword) &&& 0xFFFFFFFFFFF0FEFE = 0 ∧ bits (0x10101 : Dword) 19 16 ≠ 0 ∧ (2 : Dword) &&& 0xFFFFFFFFFFF0FEFE ≠ 0 ∧ bits (1 : Dword) 19 16 = 0) ∧
    (s.dv.pkgLock = false ∧ (0x1FF : Dword) &&& 0xFFFFFFFFFFFFFE00 = 0 ∧ (0x200 : Dword) &&& 0xFFFFFFFFFFFFFE00 ≠ 0 ∧
      ({ s with dv.pkgLock := true } : State).dv.pkgLock = true ∧ (0xFFFF : Dword) &&& 0xFFFFFFFFFFFF0000 = 0) ∧
    (s.dv.jetty.lock = false ∧ (0x100020001 : Dword) &&& 0xFFFFFFFE00000000 = 0 ∧ 2 ≤ bits (0x100020001 : Dword) 31 16 ∧
      bits (0x100020001 : Dword) 15 0 < bits (0x100020001 : Dword) 31 16 ∧ bits (0x10000 : Dword) 31 16 < 2 ∧
      bits (0x20002 : Dword) 31 16 ≤ bits (0x20002 : Dword) 15 0) ∧
    ((s.queue 63).state = 0 ∧ (let q := { s with fe.queues := [(63, queue0)] }; (q.queue 63).state ≠ 0)) := by
  decide +kernel

/-- The part with power and without, in its fundamental reset and out of it; a boot with the factory slot, with the second slot newer, and with none; a VF with a
cove and with none; links at 128 GT/s, at reduced width, and out of form. -/
theorem witness_PowerAndBoot :
    let s := { State.reset with dv.host.power := true, dv.host.perst := false }
    let none' := { s with dv.firmware := #v[Firmware.zero, Firmware.zero] }
    let two := { s with dv.firmware := #v[Firmware.factory, { Firmware.factory with svn := 1 }] }
    let c := { s with al.ctxs := [(1, { Ctx.zero with tag := 3 })] }
    (s.dv.host.power = true ∧ s.dv.host.perst = false ∧ s.dv.lh.frozen = false ∧ s.dv.lh.stage ≤ 2 ∧ (freeS bareS).dv.lh.stage = 3) ∧
    (({ s with dv.host.power := false } : State).dv.host.power = false ∧ ({ s with dv.host.perst := true } : State).dv.host.perst = true) ∧
    (({ s with dv.host.railsBroken := true, agenda := [.railsBreak] } : State).agenda = [.railsBreak] ∧ s.dv.host.railsBroken = false ∧
      s.dv.lh.accepts s.dv.lh.image = true ∧ s.dv.lh.accepts Firmware.zero = false) ∧
    (none'.fwPasses 0 = false ∧ none'.fwPasses 1 = false) ∧ (s.fwPasses 0 = true ∧ s.fwPasses (1 - 0) = false) ∧
    (two.fwPasses 1 = true ∧ (two.fw (1 - 1)).svn < (two.fw 1).svn) ∧
    (let e := { s with dv.firmware := #v[Firmware.factory, Firmware.factory] }; e.fwPasses 0 = true ∧ (e.fw 0).svn = (e.fw 1).svn) ∧
    ((c.ctx 1).tag ≠ 0 ∧ (c.ctx 63).tag = 0 ∧ s.dv.jetty.restarting = none ∧ (∃ x ∈ c.al.ctxs, x.2.tag ≠ 0)) := by
  decide +kernel

/-- The part whose next move is that of tile 0's core, with a word at the pc of its firing. -/
def atWord (w : Dword) : State := { run bareF with agenda := [.core 0], store := [(0, w)] }

/-- R62, R63, R66: a step runs the word at the pc, and traps 0x01 on one that no row has. -/
theorem test_step_runs : after (step (State.reset.withFetchWord 64 0x2700300000500000)) (gOf 3) = some 5 := by decide +kernel
theorem test_step_traps : (match step (State.reset.withFetchWord 64 0) with
    | .next t => (t.slot 0).bind fun (sl : Slot) => sl.due.policy.map fun r => bits r[0] 7 0
    | _ => none) = some 0x01 := by decide +kernel

/-- An ADD at the pc, a word that does not decode, and an index outside the run. -/
theorem witness_AStepRunsTheWordAtThePc :
    let u := { run bareF with store := [(0, 0x1040304050000000)] }
    fetches (atWord 0x1040304050000000) 0 { atWord 0x1040304050000000 with agenda := [], focus := 0 } 0 (runS bareF) bareF ∧
    (decode (u.fetch 0 bareF.pc)).isOk = true ∧ (decode (({ u with store := [] } : State).fetch 0 bareF.pc)).isOk = false ∧
    (atWord 0).dv.errInj.getLsbD 63 = false ∧ inRun (runS bareF) (1 : Nat) = false := by
  refine ⟨⟨⟨[], by rfl, by rfl⟩, by decide +kernel, ?_, by decide +kernel, by decide +kernel, by decide +kernel⟩, by decide +kernel, by decide +kernel, by decide +kernel, by decide +kernel⟩
  exact running bareF

/-- An ADD under a guard that is false, and the part with no firing. -/
theorem witness_GuardsSkip :
    let i := Instr.add { rOf .i32 (.g 3) (.g 4) (.g 5) (.g 0) with guard := .cond false 0 }
    ∃ op o, i.parts = some (op, o) ∧ Running (run bareF) 0 (runS bareF) bareF ∧ bareF.grind = 0 ∧ bareF.begun = false ∧
      (run bareF).guardHolds (runS bareF) bareF (operandGuard o) = false ∧ State.reset.current = none := by
  exact ⟨_, _, rfl, running _, by rfl, by rfl, by decide +kernel, by rfl⟩

/-- An ADD under no guard. -/
theorem witness_RegisterInstructionsChangeRegistersOnly :
    let i := Instr.add (rOf .i32 (.g 3) (.g 4) (.g 5) (.g 0))
    ∃ op o, i.parts = some (op, o) ∧ 0x10 ≤ op ∧ op ≤ 0x6F ∧ Runs (run bareF) 0 (runS bareF) bareF (operandGuard o) :=
  ⟨_, _, rfl, by decide, by decide, runs _⟩

/-- A word that decodes, a well-formed instruction of an encoded row and one of an event row. -/
theorem witness_Words :
    (decode 0x1040304050000000).isOk = true ∧ (Instr.add (rOf .i32 (.g 3) (.g 4) (.g 5) (.g 0))).wellFormed = true ∧
    (encode (Instr.add (rOf .i32 (.g 3) (.g 4) (.g 5) (.g 0)))).isSome = true ∧ (Instr.add (rOf .i32 (.g 3) (.g 4) (.g 5) (.g 0))).parts.isSome = true ∧
    (Instr.powerLoss).wellFormed = true := by decide +kernel

/-- A memory in form, bytes written below, at and above an address, and a write that is ordered before the reader's. -/
theorem witness_MemoryWrites :
    let m : Memory := [(64, 1), (66, 2)]
    let s := { freeS bareS with mm.mem := m }
    let w := s.writeEvent { tag := 0, gen := 0, unit := 1 } (fun _ => false) [(64, 5)]
    let v : View := { hb := w.allEvents, floor := [], met := [] }
    m.wf = true ∧ s.mm.mem.wf = true ∧ (∀ x ∈ ([(65, 3)] : List (Nat × Byte)), x.1 ≠ 64) ∧ s.mm.order.lag = [] ∧
    (w.newest 64).isSome = true ∧ ((w.newest 64).all fun n => v.hb.contains n) = true := by
  decide +kernel

/-- The state after reset goes on, with its memories in form. -/
theorem witness_StepsKeepMemoriesInForm : inForm State.reset ∧ (match step State.reset with | .next _ => true | _ => false) = true := by
  unfold inForm
  decide +kernel

/-- A legal TOLR, groups 255 and levels at the launch's, TLBI's second pass, a slot that DSTEP finds, a firing past its length, a die that serves and a
read of HBM. -/
theorem witness_NamedFormsComplete :
    let f := withR (gs [(4, 0x7F800000), (5, 255), (6, 5)])
    let o := { bareF with ran := 2 ^ 32 + 1 }
    Runs (run f) 0 (runS f) f .always ∧ (f.r.readG (.g 4)).toNat ≤ 0x7F800000 ∧ (f.r.readG (.g 5)).toNat ≤ 255 ∧
    (f.r.readG (.g 6)).toNat ≤ (runS f).pl.launchLvl ∧ (run f).dv.jetty.restarting = none ∧
    (runS f).pl.ctx = 0 ∧ mayBind (run f) 0 (runS f) f ∧ (run f).stepTarget (runS f) 0 = .ok 0 ∧
    (((parkedS bareS o).slot 0).map (fun sl => (sl.firing, sl.due.frozen)) = some (some o, false) ∧ bareS.pl.actor.len < o.ran) ∧
    ((freeS bareS).barOpen = true ∧ (7 : Nat) < 8 ∧ nth (freeS bareS).dv.dieState 7 0 = 0 ∧ (0xFFFFFFFFFF : Nat) + 1 ≤ 2 ^ 40) := by
  refine ⟨runs _, by decide +kernel, by decide +kernel, by decide +kernel, by rfl, by rfl, .inr ⟨by rfl, by rfl⟩, by decide +kernel, ⟨by rfl, by decide +kernel⟩, by decide +kernel⟩

end Sys2Proof.Tests
end

/-! SUPPORT. Host accesses, power, resets and boot (00 R5; 21 R383, R384; 22 R387; 23 R398; 26 R426 to R433): tables and memories, a write
event of the host, halts of a context, registers and BAR4, power and the fundamental reset, the boot, and what a kill leaves of the
rest of the package. -/

namespace Sys2Proof.Proofs

open Sys2Proof.Machine Sys2Proof.Safety Sys2Proof.Laws

/-! ### Tables and memories -/

theorem find_map_keyed {α β : Type} (t : Tab α) (f : Nat × α → Nat × β) (hf : ∀ x, (f x).1 = x.1) (n : Nat) :
    Tab.find (t.map f) n = (t.find n).map fun v => (f (n, v)).2 := by
  induction t with
  | nil => rfl
  | cons x t ih =>
    obtain ⟨k, v⟩ := x
    have hk : f (k, v) = (k, (f (k, v)).2) := Prod.ext (hf _) rfl
    rw [List.map_cons, hk]
    by_cases h : k = n
    · subst h; simp [Tab.find]
    · simp [Tab.find, h, ih]

theorem find_filter_key {α : Type} (t : Tab α) (p : Nat → Bool) (n : Nat) :
    Tab.find (t.filter fun c => p c.1) n = if p n then t.find n else none := by
  induction t with
  | nil => simp [Tab.find]
  | cons x t ih =>
    obtain ⟨k, v⟩ := x
    by_cases hk : k = n
    · subst hk; by_cases hp : p k <;> simp [hp, ih, Tab.find]
    · by_cases hp : p k <;> simp [hp, ih, Tab.find, hk]

theorem mem_of_find {α : Type} {t : Tab α} {n : Nat} {v : α} (h : t.find n = some v) : (n, v) ∈ t := by
  induction t with
  | nil => cases h
  | cons x t ih =>
    obtain ⟨k, w⟩ := x
    by_cases hk : k = n
    · simp only [Tab.find, hk, if_true, Option.some.injEq] at h
      simp [hk, h]
    · simp only [Tab.find, hk, if_false] at h
      exact List.mem_cons_of_mem _ (ih h)

theorem find_none_of_lt {α : Type} {t : Tab α} {n : Nat} (h : ∀ k ∈ t.map (·.1), n < k) : t.find n = none := by
  cases hf : t.find n with
  | none => rfl
  | some v => exact absurd (h n (List.mem_map.2 ⟨_, mem_of_find hf, rfl⟩)) (lt_irrefl n)

theorem find_del_same {α : Type} {t : Tab α} (h : (t.map (·.1)).Pairwise (· < ·)) (n : Nat) : (t.del n).find n = none := by
  induction t with
  | nil => rfl
  | cons x t ih =>
    obtain ⟨k, v⟩ := x
    obtain ⟨hk, ht⟩ := List.pairwise_cons.1 h
    by_cases hn : k = n
    · subst hn; simpa [Tab.del] using find_none_of_lt hk
    · simp [Tab.del, Tab.find, hn, ih ht]

theorem byte_put_same {m : Memory} (h : m.wf = true) (a : Nat) (b : Byte) : (m.put a b).byte a = b := by
  unfold Memory.put Memory.byte
  split
  · rename_i hb
    rw [find_del_same ((wf_iff m).1 h).1, hb]; rfl
  · rw [find_put]; rfl

theorem byte_put_other (m : Memory) {a x : Nat} (b : Byte) (h : x ≠ a) : (m.put a b).byte x = m.byte x := by
  unfold Memory.put Memory.byte
  split
  · rw [find_del_other m h]
  · rw [find_put_other m b h]

/-- Single bytes written one after another. -/
def writeEach (m : Memory) (ws : List (Nat × Byte)) : Memory := ws.foldl (fun m w => m.put w.1 w.2) m

theorem byte_writeEach_other (m : Memory) {ws : List (Nat × Byte)} {a : Nat} (h : ∀ w ∈ ws, w.1 ≠ a) :
    (writeEach m ws).byte a = m.byte a := by
  induction ws generalizing m with
  | nil => rfl
  | cons w ws ih =>
    obtain ⟨hw, hws⟩ := List.forall_mem_cons.1 h
    calc (writeEach (m.put w.1 w.2) ws).byte a = (m.put w.1 w.2).byte a := ih _ hws
      _ = m.byte a := byte_put_other m w.2 hw.symm

/-- Consecutive bytes as single writes. -/
def placedFrom (off n : Nat) (bytes : List Byte) : List (Nat × Byte) := (bytes.zipIdx n).map fun b => (off + b.2, b.1)

theorem placedFrom_cons (off n : Nat) (b : Byte) (bytes : List Byte) :
    placedFrom off n (b :: bytes) = (off + n, b) :: placedFrom off (n + 1) bytes := rfl

theorem mem_placedFrom {off n : Nat} {bytes : List Byte} {w : Nat × Byte} (h : w ∈ placedFrom off n bytes) :
    ∃ i, i < bytes.length ∧ w.1 = off + (n + i) := by
  induction bytes generalizing n with
  | nil => cases h
  | cons b bytes ih =>
    rw [placedFrom_cons, List.mem_cons] at h
    rcases h with rfl | h
    · exact ⟨0, by simp, rfl⟩
    · obtain ⟨i, hi, hw⟩ := ih h
      exact ⟨i + 1, by simpa using hi, by rw [hw]; omega⟩

theorem byte_writeEach_placedFrom {m : Memory} (h : m.wf = true) (off n : Nat) {bytes : List Byte} {i : Nat} {b : Byte}
    (hb : bytes[i]? = some b) : (writeEach m (placedFrom off n bytes)).byte (off + (n + i)) = b := by
  induction bytes generalizing m n i with
  | nil => cases hb
  | cons c bytes ih =>
    rw [placedFrom_cons]
    cases i with
    | zero =>
      have hc : c = b := by simpa using hb
      have hlater : ∀ w ∈ placedFrom off (n + 1) bytes, w.1 ≠ off + n := fun w hw => by
        obtain ⟨j, -, hj⟩ := mem_placedFrom hw
        omega
      calc (writeEach (m.put (off + n) c) (placedFrom off (n + 1) bytes)).byte (off + n)
          = (m.put (off + n) c).byte (off + n) := byte_writeEach_other _ hlater
        _ = b := (byte_put_same h _ _).trans hc
    | succ i =>
      have hi : bytes[i]? = some b := by simpa using hb
      have := ih (wf_put h (off + n) c) (n + 1) hi
      rwa [show n + 1 + i = n + (i + 1) by omega] at this

/-! ### A write event of the host -/

theorem writeEvent_newest (s : State) (w : Writer) (ws : List (Nat × Byte)) :
    (s.writeEvent w (fun _ => false) ws).mm.mem = writeEach s.mm.mem ws := by
  unfold State.writeEvent
  split
  · rename_i h
    rw [List.isEmpty_iff.1 h]; rfl
  · exact writeBytes_newest _ _ ws _

theorem mirrored_nil (ws : List (Nat × Byte)) : mirrored [] ws = ws := by
  simp [mirrored]

theorem writeGlobal_mem {s : State} {w : Writer} {ws : List (Nat × Byte)} (taint : Bool) (hsp : s.mm.splices = [])
    (h : ∀ x ∈ ws, s.homeTakes x.1 w.tag w.gen = true) : (s.writeGlobal w taint ws).mm.mem = writeEach s.mm.mem ws := by
  have hok : mirrored s.mm.splices (ws.filter fun x => s.homeTakes x.1 w.tag w.gen) = ws := by
    rw [hsp, mirrored_nil, List.filter_eq_self.2 h]
  unfold State.writeGlobal State.writeBelow
  dsimp only
  rw [hok]
  split
  · exact writeEvent_newest s w ws
  · exact writeEvent_newest s w ws

theorem writeEvent_slots (s : State) (w : Writer) (p : Old → Bool) (ws : List (Nat × Byte)) : (s.writeEvent w p ws).slots = s.slots := by
  rw [writeEvent_frame]

theorem writeGlobal_slots (s : State) (w : Writer) (taint : Bool) (ws : List (Nat × Byte)) :
    (s.writeGlobal w taint ws).slots = s.slots := by
  unfold State.writeGlobal State.writeBelow
  dsimp only
  split <;> exact writeEvent_slots ..

/-! ### Halts and releases of a context (21 R383, R384) -/

theorem freeze_frame (s : State) (k : Nat) : s.freeze k = { s with slots := (s.freeze k).slots, tiles := (s.freeze k).tiles } := by
  unfold State.freeze
  dsimp only
  split
  · rw [park_frame]; rfl
  · rfl

/-- The placement of a slot, and whether it is frozen. -/
def frozenAt (s : State) (k : Nat) : Option (Placement × Bool) := (s.slot k).map fun sl => (sl.pl, sl.due.frozen)

theorem park_frozenAt (s : State) (k : Nat) (w : Wait) (j : Nat) : frozenAt (s.park k w) j = frozenAt s j := by
  unfold frozenAt
  by_cases hj : j = k
  · subst hj
    unfold State.park
    dsimp only
    split <;> simp [setTile_slot, updSlot_slot, Function.comp_def]
  · rw [park_slot_other s w hj]

theorem freeze_frozenAt (s : State) (k j : Nat) :
    frozenAt (s.freeze k) j = (frozenAt s j).map fun x => (x.1, x.2 || j == k) := by
  have hupd : frozenAt (s.updSlot k fun sl => { sl with due.frozen := true }) j = (frozenAt s j).map fun x => (x.1, x.2 || j == k) := by
    unfold frozenAt
    by_cases hj : j = k
    · subst hj; simp [updSlot_slot, Function.comp_def]
    · simp [updSlot_slot_other s _ hj, beq_eq_false_iff_ne.2 hj, Function.comp_def]
  unfold State.freeze
  dsimp only
  split
  · rw [park_frozenAt, hupd]
  · exact hupd

theorem freezeAll_frozenAt (l : List (Nat × Slot)) (s : State) (j : Nat) :
    frozenAt (l.foldl (fun s ks => s.freeze ks.1) s) j = (frozenAt s j).map fun x => (x.1, x.2 || l.any fun ks => j == ks.1) := by
  induction l generalizing s with
  | nil => simp
  | cons x l ih =>
    rw [List.foldl_cons, ih, freeze_frozenAt]
    simp [Bool.or_assoc, Function.comp_def]

theorem freezeAll_frame (l : List (Nat × Slot)) (s : State) :
    l.foldl (fun s ks => s.freeze ks.1) s =
      { s with slots := (l.foldl (fun s ks => s.freeze ks.1) s).slots, tiles := (l.foldl (fun s ks => s.freeze ks.1) s).tiles } := by
  induction l generalizing s with
  | nil => rfl
  | cons x l ih =>
    rw [List.foldl_cons, ih, freeze_frame]

theorem haltCtx_mm (s : State) (ctx : Nat) : (s.haltCtx ctx none).mm = s.mm := by
  show (List.foldl _ s _).mm = s.mm
  rw [freezeAll_frame]

theorem haltCtx_ctx (s : State) (ctx : Nat) :
    ((s.haltCtx ctx none).ctx ctx).halted = true ∧ ((s.haltCtx ctx none).ctx ctx).haltDone = false := by
  unfold State.haltCtx
  dsimp only
  simp [State.ctx, State.later]

/-- Every slot of a halted context is frozen. -/
theorem haltCtx_frozen {s : State} {ctx k : Nat} {sl : Slot} (h : (s.haltCtx ctx none).slot k = some sl) (hc : sl.pl.ctx = ctx) :
    sl.due.frozen = true := by
  have hall : frozenAt (s.haltCtx ctx none) k = _ := freezeAll_frozenAt _ s k
  cases hs : s.slot k with
  | none => simp [frozenAt, h, hs] at hall
  | some old =>
    simp only [frozenAt, h, hs, Option.map_some, Option.some.injEq, Prod.mk.injEq] at hall
    obtain ⟨hpl, hfr⟩ := hall
    rw [hfr, Bool.or_eq_true, List.any_eq_true]
    exact .inr ⟨(k, old), by simpa [← hpl, hc] using mem_of_find hs, by simp⟩

theorem releaseCtx_ctx (s : State) (ctx : Nat) :
    ((s.releaseCtx ctx).ctx ctx).halted = false ∧ ((s.releaseCtx ctx).ctx ctx).haltDone = false := by
  simp [State.releaseCtx]

/-- No slot of a released context is frozen. -/
theorem releaseCtx_free {s : State} {ctx k : Nat} {sl : Slot} (h : (s.releaseCtx ctx).slot k = some sl) (hc : sl.pl.ctx = ctx) :
    sl.due.frozen = false := by
  change Tab.find (s.slots.map _) k = some sl at h
  rw [find_map_keyed _ _ (fun x => by split <;> rfl)] at h
  obtain ⟨old, -, rfl⟩ := Option.map_eq_some_iff.1 h
  dsimp only at hc ⊢
  split at hc
  · rename_i hold; rw [if_pos hold]
  · exact absurd hc ‹_›

theorem writeDbgctl_halts (s : State) (n : Nat) : s.writeDbgctl n 1 = if (s.ctx n).halted then s else s.haltCtx n none := by
  simp [State.writeDbgctl, bits]

theorem writeDbgctl_releases (s : State) (n : Nat) : s.writeDbgctl n 0 = if (s.ctx n).halted then s.releaseCtx n else s := by
  simp [State.writeDbgctl, bits]

theorem debugHalt_open {s : State} {ctx : Nat} (ho : s.barOpen = true) (hc : ctx < 64) :
    exec (.debugHalt ctx) s = .next (if (s.ctx ctx).halted then s else s.haltCtx ctx none) := by
  change execDebugHalt ctx s = _
  rw [execDebugHalt, if_pos ⟨ho, hc⟩, writeDbgctl_halts]

theorem debugRelease_open {s : State} {ctx : Nat} (ho : s.barOpen = true) (hc : ctx < 64) :
    exec (.debugRelease ctx) s = .next (if (s.ctx ctx).halted then s.releaseCtx ctx else s) := by
  change execDebugRelease ctx s = _
  rw [execDebugRelease, if_pos ⟨ho, hc⟩, writeDbgctl_releases]

/-! ### Fields of a dword -/

/-- The dword with ones at the bits [hi:lo]. -/
def fieldMask (hi lo : Nat) : Dword := (BitVec.allOnes (hi + 1 - lo)).setWidth 64 <<< lo

theorem getLsbD_fieldMask (hi lo i : Nat) : (fieldMask hi lo).getLsbD i = decide (i < 64 ∧ lo ≤ i ∧ i ≤ hi) := by
  rw [Bool.eq_iff_iff, fieldMask, BitVec.getLsbD_shiftLeft, BitVec.getLsbD_setWidth, BitVec.getLsbD_allOnes]
  simp only [Bool.and_eq_true, Bool.not_eq_true', decide_eq_true_eq, decide_eq_false_iff_not]
  omega

theorem testBit_bits (v : Dword) (hi lo i : Nat) : (bits v hi lo).testBit i = (decide (i < hi + 1 - lo) && v.getLsbD (lo + i)) := by
  simp [bits, Nat.testBit_mod_two_pow, Nat.testBit_div_two_pow, BitVec.testBit_toNat, Nat.add_comm]

/-- A field is 0 where the dword has no bit in common with its mask. -/
theorem bits_eq_zero_iff {v : Dword} {hi lo : Nat} (h : hi < 64) : bits v hi lo = 0 ↔ v &&& fieldMask hi lo = 0 := by
  constructor <;> intro hz
  · refine BitVec.eq_of_getLsbD_eq fun i _ => ?_
    by_cases hin : lo ≤ i ∧ i ≤ hi
    · have hb := testBit_bits v hi lo (i - lo)
      rw [hz, Nat.zero_testBit, show lo + (i - lo) = i by omega, decide_eq_true (by omega), Bool.true_and] at hb
      simp [BitVec.getLsbD_and, ← hb]
    · rw [BitVec.getLsbD_and, getLsbD_fieldMask, decide_eq_false (by omega), Bool.and_false]
      exact BitVec.getLsbD_zero.symm
  · refine Nat.eq_of_testBit_eq fun i => ?_
    rw [testBit_bits, Nat.zero_testBit]
    by_cases hin : i < hi + 1 - lo
    · have hb := congrArg (fun x : Dword => x.getLsbD (lo + i)) hz
      simp only [BitVec.getLsbD_and, getLsbD_fieldMask] at hb
      rw [decide_eq_true (p := lo + i < 64 ∧ _) (by omega), Bool.and_true] at hb
      rw [hb, decide_eq_true hin, Bool.true_and]
      exact BitVec.getLsbD_zero
    · rw [decide_eq_false hin, Bool.false_and]

theorem and_or_eq_zero (v a b : Dword) : v &&& (a ||| b) = 0 ↔ v &&& a = 0 ∧ v &&& b = 0 := by
  rw [BitVec.and_or_distrib_left]
  exact BitVec.or_eq_zero_iff

theorem admctl_reserved (v : Dword) :
    v &&& 0xFFFFFFFFFFF0FEFE = 0 ↔ bits v 63 20 = 0 ∧ bits v 15 9 = 0 ∧ bits v 7 1 = 0 := by
  rw [show (0xFFFFFFFFFFF0FEFE : Dword) = fieldMask 63 20 ||| (fieldMask 15 9 ||| fieldMask 7 1) by decide,
    and_or_eq_zero, and_or_eq_zero, bits_eq_zero_iff (by decide), bits_eq_zero_iff (by decide), bits_eq_zero_iff (by decide)]

theorem pkgid_reserved (v : Dword) : v &&& 0xFFFFFFFFFFFFFE00 = 0 ↔ bits v 63 9 = 0 := by
  rw [bits_eq_zero_iff (by decide)]; rfl

theorem ctxdraw_reserved (v : Dword) : v &&& 0xFFFFFFFFFFFF0000 = 0 ↔ bits v 63 16 = 0 := by
  rw [bits_eq_zero_iff (by decide)]; rfl

theorem jwdcfg_reserved (v : Dword) : v &&& 0xFFFFFFFE00000000 = 0 ↔ bits v 63 33 = 0 := by
  rw [bits_eq_zero_iff (by decide)]; rfl

theorem bit_getLsbD (v : Dword) (i : Nat) : bit (v.getLsbD i) = v.toNat / 2 ^ i % 2 := by
  rw [BitVec.getLsbD, Nat.testBit_eq_decide_div_mod_eq, bit]
  rcases Nat.mod_two_eq_zero_or_one (v.toNat / 2 ^ i) with h | h <;> simp [h]

/-- The fields of a dword whose reserved bits are 0 make it up. -/
theorem dword_of_toNat {v : Dword} {n : Nat} (h : n = v.toNat) : BitVec.ofNat 64 n = v := by
  simp [h]

/-! ### Register writes (00 R5) -/

theorem registerWrite_bar0 {s : State} (ho : s.barOpen = true) {off : Nat} (v : Dword) (h8 : off % 8 = 0) :
    exec (.registerWrite 0 off v) s = .next (s.writeBar0 off v) := by
  change execRegisterWrite 0 off v s = _
  simp [execRegisterWrite, ho, h8]

theorem registerWrite_bar2 {s : State} (ho : s.barOpen = true) {off : Nat} (v : Dword) (h8 : off % 8 = 0) :
    exec (.registerWrite 2 off v) s = .next (s.writeBar2 off v) := by
  change execRegisterWrite 2 off v s = _
  simp [execRegisterWrite, ho, h8]

theorem ignoreWrite_ignored (s : State) (bar2 : Bool) (off : Nat) : ignored s (s.ignoreWrite bar2 off) :=
  ⟨rfl, rfl, rfl, rfl, rfl, rfl⟩

theorem writeBar0_pkgid (s : State) (v : Dword) : s.writeBar0 0x108 v = s.writePkgid v := rfl
theorem writeBar0_admctl (s : State) (v : Dword) : s.writeBar0 0x100000 v = s.writeAdmctl v := rfl
theorem writeBar0_jwdcfg (s : State) (v : Dword) : s.writeBar0 0x110000 v = s.writeJwdcfg v := rfl
theorem writeBar0_ctxdraw (s : State) {n : Nat} (v : Dword) (hn : n < 64) :
    s.writeBar0 (0x100100 + 8 * n) v = s.writeCtxdraw n v := by
  rw [State.writeBar0, if_neg (by omega), if_neg (by omega), if_neg (by omega), if_pos (by omega),
    show (0x100100 + 8 * n - 0x100100) / 8 = n by omega]

theorem writeBar2_qsb (s : State) {q w : Nat} (v : Dword) (hq : q < 64) (hw : w < 32) :
    s.writeBar2 (0x10000 + 256 * q + 8 * w) v = s.writeQsb q w v := by
  rw [State.writeBar2, if_pos (by omega), show (0x10000 + 256 * q + 8 * w - 0x10000) / 256 = q by omega,
    show (0x10000 + 256 * q + 8 * w) % 256 / 8 = w by omega]

theorem readBar0_admctl {s : State} (ho : s.barOpen = true) :
    s.readBar0 0x100000 = BitVec.ofNat 64 (s.al.bypl % 16 * 65536 + bit s.al.recl * 256 + bit s.al.rben) := by
  simp [State.readBar0, ho]

theorem readBar0_pkgid {s : State} (ho : s.barOpen = true) :
    s.readBar0 0x108 = BitVec.ofNat 64 (bit s.dv.pkgLock * 256 + s.dv.pkg % 256) := by
  simp [State.readBar0, ho]

theorem readBar0_jwdcfg {s : State} (ho : s.barOpen = true) :
    s.readBar0 0x110000 = BitVec.ofNat 64 (bit s.dv.jetty.lock * 2 ^ 32 + s.dv.jetty.wmax % 65536 * 65536 + s.dv.jetty.wmin % 65536) := by
  simp [State.readBar0, ho]

theorem readBar0_ctxdraw {s : State} (ho : s.barOpen = true) {n : Nat} (hn : n < 64) :
    s.readBar0 (0x100100 + 8 * n) = BitVec.ofNat 64 ((s.ctx n).cap % 65536) := by
  unfold State.readBar0
  dsimp only
  rw [if_neg (by omega), if_neg (by simp [ho]), if_neg (by omega), if_neg (by omega), if_neg (by omega), if_pos (by omega),
    show (0x100100 + 8 * n - 0x100100) / 8 = n by omega]

theorem readBar2_rbase {s : State} (ho : s.barOpen = true) {q : Nat} (hq : q < 64) :
    s.readBar2 (0x10000 + 256 * q) = BitVec.ofNat 64 (s.queue q).rbase := by
  have hf : s.dv.lh.frozen = false := by simpa [State.barOpen] using (Bool.and_eq_true_iff.1 ho).2
  unfold State.readBar2
  rw [if_neg (by simp [hf]), if_pos (by omega), show (0x10000 + 256 * q - 0x10000) / 256 = q by omega,
    show (0x10000 + 256 * q) % 256 / 8 = 0 by omega]
  rfl

/-! ### ADMCTL, PKGID, CTXDRAW, JWDCFG and the queue state blocks -/

theorem admctl_taken {s : State} {v : Dword} (ho : s.barOpen = true) (hr : v &&& 0xFFFFFFFFFFF0FEFE = 0) (hb : bits v 19 16 ≠ 0) :
    happens (.registerWrite 0 0x100000 v) s fun t =>
      t.al.bypl = bits v 19 16 ∧ t.al.recl = v.getLsbD 8 ∧ t.al.rben = v.getLsbD 0 ∧ t.readBar0 0x100000 = v ∧ t.mm = s.mm := by
  obtain ⟨h1, h2, h3⟩ := (admctl_reserved v).1 hr
  refine ⟨_, registerWrite_bar0 ho v rfl, ?_⟩
  have hw : s.writeBar0 0x100000 v =
      { s with al.bypl := bits v 19 16, al.recl := v.getLsbD 8, al.rben := v.getLsbD 0 }.later .admission := by
    rw [writeBar0_admctl, State.writeAdmctl, if_neg (by simp [h1, h2, h3, hb])]
  rw [hw]
  refine ⟨rfl, rfl, rfl, ?_, rfl⟩
  rw [readBar0_admctl (by exact ho)]
  apply dword_of_toNat
  simp only [later_al, bit_getLsbD]
  simp only [bits] at h1 h2 h3 ⊢
  omega

theorem admctl_ignored {s : State} {v : Dword} (ho : s.barOpen = true) (h : v &&& 0xFFFFFFFFFFF0FEFE ≠ 0 ∨ bits v 19 16 = 0) :
    happens (.registerWrite 0 0x100000 v) s (ignored s) := by
  refine ⟨_, registerWrite_bar0 ho v rfl, ?_⟩
  rw [ne_eq, admctl_reserved] at h
  rw [writeBar0_admctl, State.writeAdmctl, if_pos (by tauto)]
  exact ignoreWrite_ignored s _ _

theorem pkgid_taken {s : State} {v : Dword} (ho : s.barOpen = true) (hl : s.dv.pkgLock = false) (hr : v &&& 0xFFFFFFFFFFFFFE00 = 0) :
    happens (.registerWrite 0 0x108 v) s fun t => t.dv.pkg = bits v 7 0 ∧ t.dv.pkgLock = v.getLsbD 8 ∧ t.readBar0 0x108 = v := by
  have h := (pkgid_reserved v).1 hr
  refine ⟨_, registerWrite_bar0 ho v rfl, ?_⟩
  rw [writeBar0_pkgid, State.writePkgid, if_neg (not_not.2 h), if_neg (by simp [hl])]
  refine ⟨rfl, rfl, ?_⟩
  rw [readBar0_pkgid (by exact ho)]
  apply dword_of_toNat
  simp only [bit_getLsbD]
  simp only [bits] at h ⊢
  omega

theorem pkgid_ignored {s : State} {v : Dword} (ho : s.barOpen = true) (hr : v &&& 0xFFFFFFFFFFFFFE00 ≠ 0) :
    happens (.registerWrite 0 0x108 v) s (ignored s) := by
  refine ⟨_, registerWrite_bar0 ho v rfl, ?_⟩
  rw [writeBar0_pkgid, State.writePkgid, if_pos (mt (pkgid_reserved v).2 hr)]
  exact ignoreWrite_ignored s _ _

theorem pkgid_locked {s : State} {v : Dword} (ho : s.barOpen = true) (hl : s.dv.pkgLock = true) (hr : v &&& 0xFFFFFFFFFFFFFE00 = 0) :
    idles (.registerWrite 0 0x108 v) s := by
  rw [idles, registerWrite_bar0 ho v rfl, writeBar0_pkgid, State.writePkgid, if_neg (not_not.2 ((pkgid_reserved v).1 hr)), if_pos hl]

theorem ctxdraw_taken {s : State} {n : Nat} {v : Dword} (ho : s.barOpen = true) (hn : n < 64) (hr : v &&& 0xFFFFFFFFFFFF0000 = 0) :
    happens (.registerWrite 0 (0x100100 + 8 * n) v) s fun t => (t.ctx n).cap = bits v 15 0 ∧ t.readBar0 (0x100100 + 8 * n) = v := by
  have h := (ctxdraw_reserved v).1 hr
  refine ⟨_, registerWrite_bar0 ho v (by omega), ?_⟩
  have hcap : ((s.writeBar0 (0x100100 + 8 * n) v).ctx n).cap = bits v 15 0 := by
    rw [writeBar0_ctxdraw s v hn, State.writeCtxdraw, if_neg (not_not.2 h)]
    exact congrArg Ctx.cap (setCtx_ctx s n _)
  refine ⟨hcap, ?_⟩
  rw [readBar0_ctxdraw ?_ hn, hcap]
  · apply dword_of_toNat
    simp only [bits] at h ⊢
    omega
  · rw [writeBar0_ctxdraw s v hn, State.writeCtxdraw, if_neg (not_not.2 h)]
    exact ho

theorem jwdcfg_taken {s : State} {v : Dword} (ho : s.barOpen = true) (hl : s.dv.jetty.lock = false) (hr : v &&& 0xFFFFFFFE00000000 = 0)
    (h2 : 2 ≤ bits v 31 16) (hlt : bits v 15 0 < bits v 31 16) :
    happens (.registerWrite 0 0x110000 v) s fun t =>
      t.dv.jetty = { s.dv.jetty with wmin := bits v 15 0, wmax := bits v 31 16, lock := v.getLsbD 32 } ∧ t.readBar0 0x110000 = v := by
  have h := (jwdcfg_reserved v).1 hr
  refine ⟨_, registerWrite_bar0 ho v rfl, ?_⟩
  rw [writeBar0_jwdcfg, State.writeJwdcfg, if_neg (by omega), if_neg (by simp [hl])]
  refine ⟨rfl, ?_⟩
  rw [readBar0_jwdcfg (by exact ho)]
  apply dword_of_toNat
  simp only [bit_getLsbD]
  simp only [bits] at h ⊢
  omega

theorem jwdcfg_ignored {s : State} {v : Dword} (ho : s.barOpen = true)
    (h : v &&& 0xFFFFFFFE00000000 ≠ 0 ∨ bits v 31 16 < 2 ∨ bits v 31 16 ≤ bits v 15 0) :
    happens (.registerWrite 0 0x110000 v) s (ignored s) := by
  refine ⟨_, registerWrite_bar0 ho v rfl, ?_⟩
  rw [ne_eq, jwdcfg_reserved] at h
  rw [writeBar0_jwdcfg, State.writeJwdcfg, if_pos h]
  exact ignoreWrite_ignored s _ _

theorem rbase_taken {s : State} {q : Nat} (v : Dword) (ho : s.barOpen = true) (hq : q < 64) (hs : (s.queue q).state = 0) :
    happens (.registerWrite 2 (0x10000 + 256 * q) v) s fun t =>
      (t.queue q).rbase = v.toNat ∧ t.readBar2 (0x10000 + 256 * q) = v := by
  refine ⟨_, registerWrite_bar2 ho v (by omega), ?_⟩
  have hw : s.writeBar2 (0x10000 + 256 * q) v = s.setQueue q { s.queue q with rbase := v.toNat } := by
    rw [show 0x10000 + 256 * q = 0x10000 + 256 * q + 8 * 0 by rfl, writeBar2_qsb s v hq (by decide), State.writeQsb]
    simp [hs, Queue.writeDword]
  rw [hw]
  beta_reduce
  rw [readBar2_rbase (by exact ho) hq, setQueue_queue]
  exact ⟨rfl, dword_of_toNat rfl⟩

theorem qsb_ignored {s : State} {q w : Nat} (v : Dword) (ho : s.barOpen = true) (hq : q < 64) (hw : w < 32) (hs : (s.queue q).state ≠ 0) :
    happens (.registerWrite 2 (0x10000 + 256 * q + 8 * w) v) s fun t => ignored s t ∧ t.dv.rsvBar = true := by
  refine ⟨_, registerWrite_bar2 ho v (by omega), ?_⟩
  rw [writeBar2_qsb s v hq hw, State.writeQsb, if_pos hs]
  exact ⟨ignoreWrite_ignored s _ _, rfl⟩

theorem registerWrite_idles {s : State} {bar off : Nat} (v : Dword) (h : s.barOpen = false ∨ off % 8 ≠ 0 ∨ (bar ≠ 0 ∧ bar ≠ 2)) :
    idles (.registerWrite bar off v) s := by
  change execRegisterWrite bar off v s = _
  unfold execRegisterWrite
  split
  · rfl
  · rename_i hg
    obtain ⟨h0, h2⟩ : bar ≠ 0 ∧ bar ≠ 2 := by
      rcases h with h | h | h
      · simp [h] at hg
      · exact absurd (.inr h) hg
      · exact h
    rw [if_neg h0, if_neg h2]

/-! ### BAR4 -/

theorem bar4Open_iff (s : State) (off n : Nat) :
    s.bar4Open off n = true ↔ s.barOpen = true ∧ off + n ≤ 2 ^ s.dv.host.bar4Log := by
  simp [State.bar4Open]

theorem bar4_closed {s : State} {off : Nat} {bytes : List Byte} (h : s.barOpen = false ∨ 2 ^ s.dv.host.bar4Log < off + bytes.length) :
    idles (.hostBar4Write off bytes) s ∧ idles (.hostBar4Read off bytes.length) s := by
  have hc : ¬ s.bar4Open off bytes.length = true := by
    rw [bar4Open_iff]
    rintro ⟨ho, hl⟩
    rcases h with h | h
    · simp [h] at ho
    · omega
  constructor
  · change execHostBar4Write off bytes s = _
    rw [execHostBar4Write, if_neg hc]
  · change execHostBar4Read off bytes.length s = _
    rw [execHostBar4Read, if_neg hc]

theorem bar4_written {s : State} {off : Nat} {bytes : List Byte} (ho : s.barOpen = true) (hl : off + bytes.length ≤ 2 ^ s.dv.host.bar4Log)
    (hsp : s.mm.splices = []) (hwf : s.mm.mem.wf = true) (hh : ∀ i, i < bytes.length → s.homeTakes (off + i) 0 0 = true) :
    happens (.hostBar4Write off bytes) s fun t => t.slots = s.slots ∧ (∀ i b, bytes[i]? = some b → t.mm.mem.byte (off + i) = b) ∧
      ∀ a, (a < off ∨ off + bytes.length ≤ a) → t.mm.mem.byte a = s.mm.mem.byte a := by
  have hmem : (s.writeGlobal { tag := 0, gen := 0, unit := hostUnit } false (placedFrom off 0 bytes)).mm.mem =
      writeEach s.mm.mem (placedFrom off 0 bytes) := by
    refine writeGlobal_mem false hsp fun x hx => ?_
    obtain ⟨i, hi, hx⟩ := mem_placedFrom hx
    rw [hx, Nat.zero_add]
    exact hh i hi
  refine ⟨s.writeGlobal { tag := 0, gen := 0, unit := hostUnit } false (placedFrom off 0 bytes), ?_, writeGlobal_slots .., ?_, ?_⟩
  · change execHostBar4Write off bytes s = _
    rw [execHostBar4Write, if_pos ((bar4Open_iff ..).2 ⟨ho, hl⟩)]
    rfl
  · intro i b hb
    rw [hmem]
    simpa using byte_writeEach_placedFrom hwf off 0 hb
  · intro a ha
    rw [hmem]
    refine byte_writeEach_other _ fun w hw => ?_
    obtain ⟨i, hi, hw⟩ := mem_placedFrom hw
    omega

theorem bar4Read_answers {s : State} {off len : Nat} (ho : s.barOpen = true) (hl : off + len ≤ 2 ^ s.dv.host.bar4Log) :
    answers (.hostBar4Read off len) s
      (if (List.range len).any (fun i => s.mm.poison.contains ((off + i) / 64)) then "BAR4 data EP" else "BAR4 data")
      ((List.range len).map fun i => s.mm.mem.byte (off + i)) := by
  change execHostBar4Read off len s = _
  rw [execHostBar4Read, if_pos ((bar4Open_iff ..).2 ⟨ho, hl⟩)]
  rfl

theorem bar4_read_clean {s : State} {off len : Nat} (ho : s.barOpen = true) (hl : off + len ≤ 2 ^ s.dv.host.bar4Log)
    (h : ∀ i, i < len → s.mm.poison.contains ((off + i) / 64) = false) :
    answers (.hostBar4Read off len) s "BAR4 data" ((List.range len).map fun i => s.mm.mem.byte (off + i)) := by
  have hp : (List.range len).any (fun i => s.mm.poison.contains ((off + i) / 64)) = false :=
    List.any_eq_false.2 fun i hi => by simp [h i (List.mem_range.1 hi), -List.contains_eq_mem]
  simpa [hp, -List.contains_eq_mem] using bar4Read_answers ho hl

theorem bar4_read_poisoned {s : State} {off len : Nat} (ho : s.barOpen = true) (hl : off + len ≤ 2 ^ s.dv.host.bar4Log)
    (h : ∃ i, i < len ∧ s.mm.poison.contains ((off + i) / 64) = true) :
    answers (.hostBar4Read off len) s "BAR4 data EP" ((List.range len).map fun i => s.mm.mem.byte (off + i)) := by
  obtain ⟨i, hi, hb⟩ := h
  have hp : (List.range len).any (fun i => s.mm.poison.contains ((off + i) / 64)) = true :=
    List.any_eq_true.2 ⟨i, List.mem_range.2 hi, hb⟩
  simpa only [hp, if_true] using bar4Read_answers ho hl

theorem bar4Atomic_unsupported {s : State} {off : Nat} (ho : s.barOpen = true) (hl : off < 2 ^ s.dv.host.bar4Log) :
    s.bar4Atomic off = { s with outbox := .reply "BAR4 Unsupported Request" [] :: s.outbox } := by
  rw [State.bar4Atomic, if_pos ((bar4Open_iff ..).2 ⟨ho, hl⟩)]
  rfl

/-! ### Memory without the part's own HBM -/

theorem byte_withoutLocal (m : Memory) (a : Nat) :
    Memory.byte (m.filter fun c => !paLocal c.1) a = if paLocal a then 0 else m.byte a := by
  unfold Memory.byte
  rw [find_filter_key m fun a => !paLocal a]
  cases paLocal a <;> rfl

/-! ### Power, the fundamental reset and the rails (26 R430 to R432) -/

theorem inReset_cleared (s : State) : cleared s.inReset := ⟨rfl, rfl, rfl, rfl, rfl, rfl, rfl, rfl, rfl, rfl, rfl, rfl⟩

/-- What a locked LHPOL keeps is no part of what stands at every fundamental reset. -/
theorem afterReset_keeps (l : Lighthouse) :
    l.afterReset.stage = 0 ∧ l.afterReset.frozen = l.frozen ∧ l.afterReset.alrm = l.alrm ∧ l.afterReset.erased = l.erased ∧
      l.afterReset.seed = l.seed ∧ l.afterReset.pub = l.pub := by
  unfold Lighthouse.afterReset
  dsimp only
  split <;> exact ⟨rfl, rfl, rfl, rfl, rfl, rfl⟩

theorem publicKey_congr {l m : Lighthouse} (he : l.erased = m.erased) (hs : l.seed = m.seed) (hp : l.pub = m.pub) :
    l.publicKey = m.publicKey := by
  rw [Lighthouse.publicKey, Lighthouse.publicKey, he, hs, hp]

theorem fundamental_cleared (s : State) : cleared s.fundamental := by
  obtain ⟨h1, h2, h3, h4, h5, h6, h7, h8, h9, -, h11, h12⟩ := inReset_cleared s
  exact ⟨h1, h2, h3, h4, h5, h6, h7, h8, h9, (afterReset_keeps s.dv.lh).1, h11, h12⟩

theorem powerUp_effect (s : State) :
    (s.dv.host.power = false → happens .powerUp s fun t => t.dv.host.power = true ∧ t.dv.host.perst = true ∧ t.slots = s.slots) ∧
    (s.dv.host.power = true → idles .powerUp s) := by
  constructor <;> intro hp
  · refine ⟨{ s with dv.host.power := true, dv.host.perst := true }, ?_, rfl, rfl, rfl⟩
    change execPowerUp s = _
    rw [execPowerUp, if_neg (by simp [hp])]
  · change execPowerUp s = _
    rw [execPowerUp, if_pos hp]

theorem powerLoss_clears (s : State) :
    happens .powerLoss s fun t => cleared t ∧ t.dv.host.power = false ∧ t.dv.host.railsBroken = false ∧ t.fe.capture = [] ∧ t.dv.jetty.lock = false ∧
      t.dv.crash.rsts = 0 ∧ t.mm.sram = [] ∧ (s.mm.mem.wf = true → ∀ a, paLocal a = true → t.mm.mem.byte a = 0) ∧
      t.dv.lh.fuses = s.dv.lh.fuses ∧ t.dv.lh.erased = s.dv.lh.erased ∧ t.dv.lh.seed = s.dv.lh.seed ∧ t.dv.lh.publicKey = s.dv.lh.publicKey := by
  refine ⟨_, rfl, inReset_cleared s, rfl, rfl, rfl, rfl, rfl, rfl, fun _ a ha => ?_, rfl, rfl, rfl, publicKey_congr rfl rfl rfl⟩
  exact (byte_withoutLocal s.mm.mem a).trans (if_pos ha)

theorem perstAssert_resets {s : State} (hp : s.dv.host.power = true) :
    happens .perstAssert s fun t => cleared t ∧ t.dv.host.perst = true ∧ t.dv.host.power = true ∧
      t.fe.capture = s.fe.capture ∧ t.dv.crash = s.dv.crash ∧ t.dv.lh.frozen = s.dv.lh.frozen ∧ t.dv.lh.alrm = s.dv.lh.alrm ∧
      t.dv.lh.erased = s.dv.lh.erased ∧ t.dv.lh.seed = s.dv.lh.seed ∧ t.dv.lh.publicKey = s.dv.lh.publicKey := by
  obtain ⟨-, hfrozen, halrm, herased, hseed, hpub⟩ := afterReset_keeps s.dv.lh
  refine ⟨s.fundamental, ?_, fundamental_cleared s, rfl, hp, rfl, rfl, hfrozen, halrm, herased, hseed, publicKey_congr herased hseed hpub⟩
  change execPerstAssert s = _
  rw [execPerstAssert, if_pos hp]

theorem perstAssert_idles {s : State} (hp : s.dv.host.power = false) : idles .perstAssert s := by
  change execPerstAssert s = _
  rw [execPerstAssert, if_neg (by simp [hp])]

theorem perstDeassert_starts {s : State} (hp : s.dv.host.power = true) (hr : s.dv.host.perst = true) (hb : s.dv.host.railsBroken = false) :
    happens .perstDeassert s fun t => t.dv.host.perst = false ∧ t.clock = 0 ∧ t.dv.lh.stage = 0 := by
  refine ⟨{ s with dv.host.perst := false, clock := 0, dv.lh.stage := 0 }.later .bootStage, ?_, rfl, rfl, rfl⟩
  change execPerstDeassert s = _
  rw [execPerstDeassert, if_pos (by simp [hp, hr, hb])]

theorem perstDeassert_idles {s : State} (h : s.dv.host.power = false ∨ s.dv.host.perst = false ∨ s.dv.host.railsBroken = true) :
    idles .perstDeassert s := by
  change execPerstDeassert s = _
  rw [execPerstDeassert, if_neg]
  rintro ⟨hp, hr, hb⟩
  rcases h with h | h | h <;> simp [h] at hp hr hb

theorem railsBreak_holds (s : State) : s.railsBreak.dv.host.railsBroken = true ∧ s.railsBreak.dv.host.perst = true := by
  unfold State.railsBreak
  split <;> exact ⟨rfl, rfl⟩

theorem step_railsBreak {s : State} (h : s.agenda = [.railsBreak]) :
    ∃ t, step s = .next t ∧ t.dv.host.railsBroken = true ∧ t.dv.host.perst = true ∧ t.still = true := by
  obtain ⟨hbroken, hperst⟩ := railsBreak_holds { s with agenda := [] }
  refine ⟨State.railsBreak { s with agenda := [] }, ?_, hbroken, hperst, by simp [State.still, hperst]⟩
  rw [step, State.nextStep, h]
  rfl

/-! ### The host link (26 R426) -/

theorem hostLink_trains {s : State} {rate width : Nat} (hp : s.dv.host.power = true) (hr : rate = 128 ∨ rate = 64 ∨ rate = 32)
    (hw : width = 16 ∨ width = 8 ∨ width = 4) :
    happens (.hostLinkTraining rate width) s fun t => t.dv.host.rate = rate ∧ t.dv.host.width = width ∧ t.mm = s.mm ∧
      ((rate < 128 ∨ width < 16) → s.dv.lh.frozen = false → told s t "host link at reduced bandwidth" rate width) ∧
      (rate = 128 → width = 16 → t.outbox = s.outbox) := by
  have hx : exec (.hostLinkTraining rate width) s = .next (if (rate < 128 ∨ width < 16) ∧ !s.dv.lh.frozen then
      State.report { s with dv.host.rate := rate, dv.host.width := width } "host link at reduced bandwidth" rate width
      else { s with dv.host.rate := rate, dv.host.width := width }) := by
    change execHostLinkTraining rate width s = _
    rw [execHostLinkTraining, if_pos ⟨hp, hr, hw⟩]
  by_cases h : (rate < 128 ∨ width < 16) ∧ (!s.dv.lh.frozen) = true
  · rw [if_pos h] at hx
    exact ⟨_, hx, rfl, rfl, rfl, fun _ _ => rfl, fun h1 h2 => by omega⟩
  · rw [if_neg h] at hx
    exact ⟨_, hx, rfl, rfl, rfl, fun h1 h2 => absurd ⟨h1, by simp [h2]⟩ h, fun _ _ => rfl⟩

theorem hostLink_idles {s : State} {rate width : Nat}
    (h : s.dv.host.power = false ∨ (rate ≠ 128 ∧ rate ≠ 64 ∧ rate ≠ 32) ∨ (width ≠ 16 ∧ width ≠ 8 ∧ width ≠ 4)) :
    idles (.hostLinkTraining rate width) s := by
  change execHostLinkTraining rate width s = _
  rw [execHostLinkTraining, if_neg]
  rintro ⟨hp, hr, hw⟩
  rcases h with h | h | h
  · simp [h] at hp
  · omega
  · omega

/-! ### The boot, stage by stage (22 R387, 26 R433) -/

theorem bootSlot_zero {s : State} (h0 : s.fwPasses 0 = true) (h : s.fwPasses 1 = false ∨ ¬ (s.fw 0).svn < (s.fw 1).svn) :
    s.bootSlot = some 0 := by
  unfold State.bootSlot
  rw [h0]
  cases h1 : s.fwPasses 1 with
  | false => rfl
  | true => simp [h.resolve_left (by simp [h1])]

theorem bootSlot_one {s : State} (h1 : s.fwPasses 1 = true) (h : s.fwPasses 0 = false ∨ (s.fw 0).svn < (s.fw 1).svn) :
    s.bootSlot = some 1 := by
  unfold State.bootSlot
  rw [h1]
  cases h0 : s.fwPasses 0 with
  | false => rfl
  | true => simp [h.resolve_left (by simp [h0])]

/-- The choice of the boot slot that the statement describes is the model's (23 R412). -/
theorem bootSlot_of_bootsFrom {s : State} {n : Nat} (h : bootsFrom s n) : s.bootSlot = some n := by
  obtain ⟨hn, hpass, hother⟩ := h
  obtain rfl | rfl : n = 0 ∨ n = 1 := by omega
  · rcases hother with hfail | hsvn | ⟨-, hsvn⟩
    · exact bootSlot_zero hpass (.inl hfail)
    · exact bootSlot_zero hpass (.inr (Nat.lt_asymm hsvn))
    · exact bootSlot_zero hpass (.inr hsvn.not_lt)
  · rcases hother with hfail | hsvn | ⟨hne, -⟩
    · exact bootSlot_one hpass (.inl hfail)
    · exact bootSlot_one hpass (.inr hsvn)
    · cases hne

theorem bootSlot_none {s : State} (h0 : s.fwPasses 0 = false) (h1 : s.fwPasses 1 = false) : s.bootSlot = none := by
  rw [State.bootSlot, h0, h1]

theorem bootStep_held {s : State} (h : s.bootHeld = true) : s.bootStep = s := by rw [State.bootStep, if_pos h]

theorem bootStep_lighthouse {s : State} (h : s.bootHeld = false) (h0 : s.dv.lh.stage = 0) : s.bootStep = s.bootLighthouse := by
  rw [State.bootStep, if_neg (by simp [h]), h0]; rfl

theorem bootStep_firmware {s : State} (h : s.bootHeld = false) (h1 : s.dv.lh.stage = 1) : s.bootStep = s.bootFirmware := by
  rw [State.bootStep, if_neg (by simp [h]), h1]; rfl

theorem bootStep_later {s : State} (h2 : 2 ≤ s.dv.lh.stage) : s.bootStep = s := by
  unfold State.bootStep
  split
  · rfl
  · split
    · omega
    · omega
    · rfl

theorem bootLighthouse_refused {s : State} (h : s.dv.lh.accepts s.dv.lh.image = false) : s.bootLighthouse.dv.lh.stage = 0xF := by
  simp [State.bootLighthouse, h]

theorem bootLighthouse_accepted {s : State} (h : s.dv.lh.accepts s.dv.lh.image = true) : s.bootLighthouse.dv.lh.stage = 1 := by
  simp [State.bootLighthouse, h]

theorem bootFirmware_stops {s : State} (h0 : s.fwPasses 0 = false) (h1 : s.fwPasses 1 = false) :
    s.bootFirmware = { s with dv.lh.stage := 0xF } := by
  rw [State.bootFirmware, bootSlot_none h0 h1]

theorem bootFirmware_runs {s : State} {n : Nat} (h : bootsFrom s n) :
    s.bootFirmware = { s with dv.lh.stage := 2, dv.lh.meas := s.dv.lh.meas.set 2 (s.fw n).digest, dv.jetty.act := n, dv.jetty.next := n,
                              dv.jetty.lastKick := s.clock, dv.jetty.kicked := false } := by
  rw [State.bootFirmware, bootSlot_of_bootsFrom h]

theorem bootStep_measures {s : State} (h : s.bootHeld = false) (h0 : s.dv.lh.stage = 0) :
    s.bootStep = { s with dv.lh.meas := s.bootMeasurements, dv.lh.stage := if s.dv.lh.accepts s.dv.lh.image then 1 else 0xF } ∧
      s.bootMeasurements.toList[1]? = some s.dv.lh.image.digest ∧
      s.bootMeasurements.toList[3]? = some (sha256 (Config.fuseBytes Config.vendorKeyHash s.dv.lh.fuses.val s.spareMap)) :=
  ⟨bootStep_lighthouse h h0, rfl, rfl⟩

theorem bootStep_selects {s : State} {n : Nat} (h : s.bootHeld = false) (h1 : s.dv.lh.stage = 1) (hn : bootsFrom s n) :
    s.bootStep.dv.lh.stage = 2 ∧ s.bootStep.dv.jetty.act = n ∧ s.bootStep.dv.jetty.next = n ∧
      s.bootStep.dv.lh.meas.toList[2]? = some (s.fw n).digest := by
  rw [bootStep_firmware h h1, bootFirmware_runs hn]
  refine ⟨rfl, rfl, rfl, ?_⟩
  simp

/-! ### The boot as one row -/

theorem bootReady_exec (s : State) :
    exec .bootReady s =
      if s.bootStep.bootStep.bootHeld ∨ s.bootStep.bootStep.dv.lh.stage ≠ 2 ∨ s.bootStep.bootStep.dv.jetty.restarting.isSome then
        .next s.bootStep.bootStep
      else .next (s.bootStep.bootStep.bootJetty.report "ready" s.bootStep.bootStep.dv.jetty.act 0) := rfl

theorem bootReady_idles {s : State} (h : s.dv.host.power = false ∨ s.dv.host.perst = true ∨ s.dv.lh.frozen = true ∨ 2 < s.dv.lh.stage) :
    idles .bootReady s := by
  have hstop : s.bootStep = s ∧ (s.bootHeld = true ∨ s.dv.lh.stage ≠ 2) := by
    by_cases hh : s.bootHeld = true
    · exact ⟨bootStep_held hh, .inl hh⟩
    · have hlate : 2 < s.dv.lh.stage := by
        rcases h with h | h | h | h
        · simp [State.bootHeld, h] at hh
        · simp [State.bootHeld, h] at hh
        · simp [State.bootHeld, h] at hh
        · exact h
      exact ⟨bootStep_later hlate.le, .inr (by omega)⟩
  obtain ⟨hs, hstop⟩ := hstop
  rw [idles, bootReady_exec, hs, hs, if_pos (by tauto)]

/-- A boot that stands at STAGE 0xF after its stages has stopped there. -/
theorem bootReady_stopped {s : State} (h : s.bootStep.bootStep.dv.lh.stage = 0xF) (hm : s.bootStep.bootStep.mm = s.mm) :
    happens .bootReady s fun t => t.dv.lh.stage = 0xF ∧ t.mm = s.mm :=
  ⟨_, by rw [bootReady_exec, if_pos (.inr (.inl (by rw [h]; decide)))], h, hm⟩

theorem bootReady_fails {s : State} (hh : s.bootHeld = false)
    (h : (s.dv.lh.stage = 0 ∧ s.dv.lh.accepts s.dv.lh.image = false) ∨
      ((s.dv.lh.stage = 0 ∨ s.dv.lh.stage = 1) ∧ s.fwPasses 0 = false ∧ s.fwPasses 1 = false)) :
    happens .bootReady s fun t => t.dv.lh.stage = 0xF ∧ t.mm = s.mm := by
  have hrefused (h0 : s.dv.lh.stage = 0) (ha : s.dv.lh.accepts s.dv.lh.image = false) :
      happens .bootReady s fun t => t.dv.lh.stage = 0xF ∧ t.mm = s.mm := by
    have hs : s.bootStep.bootStep = s.bootLighthouse := by
      rw [bootStep_lighthouse hh h0, bootStep_later (by rw [bootLighthouse_refused ha]; decide)]
    exact bootReady_stopped (by rw [hs, bootLighthouse_refused ha]) (by rw [hs]; rfl)
  rcases h with ⟨h0, ha⟩ | ⟨h0 | h1, hf0, hf1⟩
  · exact hrefused h0 ha
  · cases ha : s.dv.lh.accepts s.dv.lh.image with
    | false => exact hrefused h0 ha
    | true =>
      have hs : s.bootStep.bootStep = { s.bootLighthouse with dv.lh.stage := 0xF } := by
        rw [bootStep_lighthouse hh h0, bootStep_firmware (s := s.bootLighthouse) hh (bootLighthouse_accepted ha),
          bootFirmware_stops (s := s.bootLighthouse) hf0 hf1]
      exact bootReady_stopped (by rw [hs]) (by rw [hs]; rfl)
  · have hs : s.bootStep.bootStep = { s with dv.lh.stage := 0xF } := by
      rw [bootStep_firmware hh h1, bootFirmware_stops hf0 hf1]
      exact bootStep_later (show 2 ≤ 15 by decide)
    exact bootReady_stopped (by rw [hs]) (by rw [hs])

/-! ### The Jetty firmware's part -/

/-- A tile that failed the self-test is to be retired: three failures now. -/
def failTile (s : State) (t : Nat) : State :=
  (s.setTile t { s.tile t with failures := [s.clock, s.clock, s.clock] }).later (.tileRetirement t)

theorem bootJetty_eq (s : State) :
    s.bootJetty = { (s.dv.testFailed.foldl failTile s.zeroMemory) with dv.testFailed := [], dv.lh.stage := 3 } := rfl

theorem failTiles_frame (l : List Nat) (s : State) :
    l.foldl failTile s = { s with tiles := (l.foldl failTile s).tiles, agenda := (l.foldl failTile s).agenda } := by
  induction l generalizing s with
  | nil => rfl
  | cons x l ih => rw [List.foldl_cons, ih]; rfl

theorem failTiles_tile {l : List Nat} {s : State} {x : Nat}
    (h : x ∈ l ∨ ((s.tile x).failures = [s.clock, s.clock, s.clock] ∧ .due (.tileRetirement x) ∈ s.agenda)) :
    ((l.foldl failTile s).tile x).failures = [s.clock, s.clock, s.clock] ∧ .due (.tileRetirement x) ∈ (l.foldl failTile s).agenda := by
  induction l generalizing s with
  | nil => simpa using h
  | cons y l ih =>
    refine ih (s := failTile s y) ?_
    by_cases hx : x = y
    · subst hx
      exact .inr ⟨congrArg Tile.failures (setTile_tile s x _), by simp [failTile]⟩
    · rcases h with h | ⟨hf, ha⟩
      · exact .inl (by simpa [hx] using h)
      · refine .inr ⟨?_, by simp [failTile, ha]⟩
        exact (congrArg Tile.failures (setTile_tile_other s _ hx)).trans hf

theorem bootJetty_frame (s : State) :
    s.bootJetty = { s.zeroMemory with dv.testFailed := [], dv.lh.stage := 3, tiles := s.bootJetty.tiles, agenda := s.bootJetty.agenda } := by
  rw [bootJetty_eq, failTiles_frame]

theorem bootJetty_retires {s : State} {x : Nat} (h : x ∈ s.dv.testFailed) :
    (s.bootJetty.tile x).failures = [s.clock, s.clock, s.clock] ∧ .due (.tileRetirement x) ∈ s.bootJetty.agenda :=
  failTiles_tile (s := s.zeroMemory) (.inl h)

theorem bootJetty_byte (s : State) (a : Nat) : s.bootJetty.mm.mem.byte a = if paLocal a then 0 else s.mm.mem.byte a := by
  rw [bootJetty_frame]
  exact byte_withoutLocal s.mm.mem a

/-- At STAGE 2 of the boot, what the stages before have left is memory, the tiles' self-test, the time and the messages as they were. -/
def bootedTo (s u : State) (n : Nat) : Prop :=
  u.bootHeld = false ∧ u.dv.lh.stage = 2 ∧ u.dv.jetty.restarting = s.dv.jetty.restarting ∧ u.dv.jetty.act = n ∧ u.mm = s.mm ∧
    u.dv.testFailed = s.dv.testFailed ∧ u.clock = s.clock ∧ u.outbox = s.outbox

theorem bootSteps_reach {s : State} {n : Nat} (hh : s.bootHeld = false)
    (h : (s.dv.lh.stage = 0 ∧ s.dv.lh.accepts s.dv.lh.image = true ∧ bootsFrom s n) ∨ (s.dv.lh.stage = 1 ∧ bootsFrom s n) ∨
      (s.dv.lh.stage = 2 ∧ s.dv.jetty.act = n)) : bootedTo s s.bootStep.bootStep n := by
  rcases h with ⟨h0, ha, hn⟩ | ⟨h1, hn⟩ | ⟨h2, hn⟩
  · rw [bootStep_lighthouse hh h0, bootStep_firmware (s := s.bootLighthouse) hh (bootLighthouse_accepted ha),
      bootFirmware_runs (s := s.bootLighthouse) hn]
    exact ⟨hh, rfl, rfl, rfl, rfl, rfl, rfl, rfl⟩
  · rw [bootStep_firmware hh h1, bootFirmware_runs hn, bootStep_later (Nat.le_refl 2)]
    exact ⟨hh, rfl, rfl, rfl, rfl, rfl, rfl, rfl⟩
  · rw [bootStep_later h2.ge, bootStep_later h2.ge]
    exact ⟨hh, h2, rfl, hn, rfl, rfl, rfl, rfl⟩

theorem bootReady_boots {s : State} {n : Nat} (hh : s.bootHeld = false) (hr : s.dv.jetty.restarting = none)
    (h : (s.dv.lh.stage = 0 ∧ s.dv.lh.accepts s.dv.lh.image = true ∧ bootsFrom s n) ∨ (s.dv.lh.stage = 1 ∧ bootsFrom s n) ∨
      (s.dv.lh.stage = 2 ∧ s.dv.jetty.act = n)) :
    happens .bootReady s fun t => t.dv.lh.stage = 3 ∧ t.dv.jetty.act = n ∧ t.mm.sram = [] ∧
      (s.mm.mem.wf = true → ∀ a, paLocal a = true → t.mm.mem.byte a = 0) ∧ (∀ a, paLocal a = false → t.mm.mem.byte a = s.mm.mem.byte a) ∧
      (∀ x ∈ s.dv.testFailed, (t.tile x).failures = [s.clock, s.clock, s.clock] ∧ .due (.tileRetirement x) ∈ t.agenda) ∧
      told s t "ready" n 0 := by
  obtain ⟨hheld, hstage, hrestart, hact, hmm, htest, hclock, hout⟩ := bootSteps_reach hh h
  rw [happens, bootReady_exec]
  generalize s.bootStep.bootStep = u at *
  refine ⟨_, if_neg (by simp [hheld, hstage, hrestart, hr]), ?_, ?_, ?_, fun _ a ha => ?_, fun a ha => ?_, fun x hx => ?_, ?_⟩
  · rfl
  · exact (congrArg (fun t : State => t.dv.jetty.act) (bootJetty_frame u)).trans hact
  · exact congrArg (fun t : State => t.mm.sram) (bootJetty_frame u)
  · exact (bootJetty_byte u a).trans (if_pos ha)
  · exact (bootJetty_byte u a).trans (by rw [if_neg (by simp [ha]), hmm])
  · rw [← hclock]
    exact bootJetty_retires (htest ▸ hx)
  · show _ :: _ :: u.bootJetty.outbox = _
    rw [hact, bootJetty_frame, ← hout]
    rfl

/-! ### What a kill leaves of the rest of the package (20 R365) -/

/-- From `s` to `t` time, the Jetty core and the crash region stand, no kill ends, and a queue that is dropped stays so. -/
structure Outlasts (s t : State) : Prop where
  clock : t.clock = s.clock
  jetty : t.dv.jetty = s.dv.jetty
  crash : t.dv.crash = s.dv.crash
  kills : ∀ c, underKill s c → underKill t c
  queues : ∀ q, dropped s q → dropped t q

theorem Outlasts.refl (s : State) : Outlasts s s := ⟨rfl, rfl, rfl, fun _ h => h, fun _ h => h⟩

theorem Outlasts.trans {s t u : State} (h : Outlasts s t) (g : Outlasts t u) : Outlasts s u :=
  ⟨g.clock.trans h.clock, g.jetty.trans h.jetty, g.crash.trans h.crash, fun c hc => g.kills c (h.kills c hc),
    fun q hq => g.queues q (h.queues q hq)⟩

/-- The usual case: the kills and the queues are as they were. -/
theorem Outlasts.of_eq {s t : State} (hc : t.clock = s.clock) (hj : t.dv.jetty = s.dv.jetty) (hr : t.dv.crash = s.dv.crash)
    (hk : t.mm.kills = s.mm.kills) (hq : t.fe.queues = s.fe.queues) : Outlasts s t :=
  ⟨hc, hj, hr, fun c h => by simpa only [underKill, hk] using h, fun q h => by simpa only [dropped, State.queue, hq] using h⟩

theorem outlasts_foldl {α : Type} (f : State → α → State) (h : ∀ s x, Outlasts s (f s x)) (l : List α) (s : State) :
    Outlasts s (l.foldl f s) := by
  induction l generalizing s with
  | nil => exact .refl s
  | cons x l ih => exact (h s x).trans (ih _)

theorem outlasts_setCtx (s : State) (n : Nat) (x : Ctx) : Outlasts s (s.setCtx n x) := .of_eq rfl rfl rfl rfl rfl

theorem outlasts_later (s : State) (d : DueRow) : Outlasts s (s.later d) := .of_eq rfl rfl rfl rfl rfl

theorem outlasts_endFetching (s : State) (q : Nat) : Outlasts s (s.endFetching q) := by
  unfold State.endFetching
  dsimp only
  split
  · rename_i hrun
    refine ⟨rfl, rfl, rfl, fun _ h => h, fun p hp => ?_⟩
    have hne : p ≠ q := by
      rintro rfl
      rw [hp.1] at hrun
      simp at hrun
    have hsame : ((s.setQueue q { s.queue q with state := 3 }).later (.queueStopComplete q)).queue p = s.queue p :=
      setQueue_queue_other s _ hne
    rwa [dropped, hsame]
  · exact .refl s

theorem outlasts_dropFiring (s : State) (k : Nat) : Outlasts s (s.dropFiring k) := by
  unfold State.dropFiring
  extract_lets wait s1 t
  split <;> exact .of_eq rfl rfl rfl rfl rfl

theorem outlasts_endSlot (s : State) (k : Nat) : Outlasts s (s.endSlot k) :=
  (outlasts_dropFiring s k).trans (.of_eq rfl rfl rfl rfl rfl)

theorem outlasts_updHeld (s : State) (k : Nat) (g : Slot → Slot) : Outlasts s (s.updHeld k g) := by
  unfold State.updHeld
  split <;> exact .of_eq rfl rfl rfl rfl rfl

theorem outlasts_onBarrier (s : State) (ctx n : Nat) (g : Barrier → Option Barrier) : Outlasts s (s.onBarrier ctx n g) := by
  have herror : Outlasts s (s.barrierError ctx n) := .of_eq rfl rfl rfl rfl rfl
  unfold State.onBarrier
  extract_lets b
  split
  · split
    · exact .of_eq rfl rfl rfl rfl rfl
    · exact herror
  · exact herror

theorem outlasts_settleBarrier (s : State) (c : Command) (total : Nat) (failed : Option Nat) :
    Outlasts s (s.settleBarrier c total failed) := by
  unfold State.settleBarrier
  split
  · exact .refl s
  · exact outlasts_onBarrier ..

theorem outlasts_checkRunEnd (s : State) (cfg : Nat) : Outlasts s (s.checkRunEnd cfg) := by
  unfold State.checkRunEnd
  split
  · exact .of_eq rfl rfl rfl rfl rfl
  · exact .refl s

theorem outlasts_endCommand (s : State) (id : Nat) (st : CmdState) (status : Nat) : Outlasts s (s.endCommand id st status) := by
  unfold State.endCommand
  split
  · exact .refl s
  · rename_i c _
    split
    · exact .refl s
    · extract_lets s1 s2 s3 s4
      have h2 : Outlasts s s2 :=
        ((Outlasts.of_eq rfl rfl rfl rfl rfl : Outlasts s s1).trans (outlasts_settleBarrier ..)).trans (outlasts_updHeld ..)
      have h3 : Outlasts s2 s3 := by
        simp only [s3]; split
        · exact outlasts_updHeld ..
        · exact .refl s2
      have h4 : Outlasts s3 s4 := by
        simp only [s4]; split
        · exact .of_eq rfl rfl rfl rfl rfl
        · exact .refl s3
      refine (h2.trans h3).trans (h4.trans ?_)
      cases s4.slot c.slot with
      | none => exact .refl s4
      | some sl => exact outlasts_checkRunEnd ..

theorem outlasts_cancelCommands (s : State) (p : Command → Bool) : Outlasts s (s.cancelCommands p) := by
  refine outlasts_foldl _ (fun s c => ?_) _ s
  split
  · exact .refl s
  · split
    · exact .of_eq rfl rfl rfl rfl rfl
    · exact outlasts_endCommand ..

theorem outlasts_cancelWork (s : State) (cove : Nat) (ctxs : List Nat) : Outlasts s (s.cancelWork cove ctxs) :=
  (outlasts_cancelCommands s _).trans (.of_eq rfl rfl rfl rfl rfl)

theorem outlasts_toPeer (s : State) (pkg : Nat) (e : Emission) : Outlasts s (s.toPeer pkg e) := by
  unfold State.toPeer
  split <;> exact .of_eq rfl rfl rfl rfl rfl

theorem outlasts_addKill (s : State) (x : Kill) :
    Outlasts s { s with mm.kills := s.mm.kills ++ [x] } ∧ underKill { s with mm.kills := s.mm.kills ++ [x] } x.cove :=
  ⟨⟨rfl, rfl, rfl, fun _ ⟨y, hy, hc⟩ => ⟨y, List.mem_append_left _ hy, hc⟩, fun _ h => h⟩,
    x, List.mem_append_right _ (List.mem_singleton_self x), rfl⟩

/-- A kill that starts, or is joined, is under way, and the rest outlasts it. -/
theorem startKill_outlasts (s : State) (cove : Nat) (packets : List (Nat × Nat)) :
    Outlasts s (s.startKill cove packets) ∧ underKill (s.startKill cove packets) cove := by
  unfold State.startKill
  split
  · rename_i hany
    obtain ⟨x, hx, hc⟩ := List.any_eq_true.1 hany
    have hkeep : ∀ c, underKill s c → underKill { s with mm.kills := s.mm.kills.map fun x =>
        if x.cove = cove then { x with packets := x.packets ++ packets } else x } c := by
      rintro c ⟨x, hx, rfl⟩
      refine ⟨_, List.mem_map.2 ⟨x, hx, rfl⟩, ?_⟩
      split <;> rfl
    exact ⟨⟨rfl, rfl, rfl, hkeep, fun _ h => h⟩, hkeep cove ⟨x, hx, by simpa using hc⟩⟩
  · extract_lets ctxs gen s1 s2 s3 s4 under mm4 s5 s6
    generalize List.range homeCount = homes
    have h4 : Outlasts s s4 :=
      (((outlasts_foldl _ (fun s c => outlasts_setCtx s c _) _ s : Outlasts s s1).trans
        (outlasts_foldl _ (fun s (q : Nat × Queue) => outlasts_endFetching s q.1) _ s1 : Outlasts s1 s2)).trans
        (outlasts_foldl _ (fun s (ks : Nat × Slot) => outlasts_endSlot s ks.1) _ s2 : Outlasts s2 s3)).trans (outlasts_cancelWork s3 cove ctxs)
    obtain ⟨h5, hnew⟩ : Outlasts s4 s5 ∧ underKill s5 cove := outlasts_addKill s4 _
    have hend : Outlasts s5 (homes.foldl (fun (s : State) (h : Nat) => s.later (.homeGenerationUpdate h cove)) s6) :=
      (outlasts_foldl _ (fun s c => outlasts_foldl _ (fun _ _ => outlasts_toPeer ..) _ s) _ s5 : Outlasts s5 s6).trans
        (outlasts_foldl _ (fun s h => outlasts_later s (.homeGenerationUpdate h cove)) _ s6)
    exact ⟨(h4.trans h5).trans hend, hend.kills cove hnew⟩

theorem startKills_underKill {l : List Nat} {c : Nat} (h : c ∈ l) (s : State) :
    underKill (l.foldl (fun (s : State) (c : Nat) => s.startKill c []) s) c := by
  induction l generalizing s with
  | nil => cases h
  | cons x l ih =>
    rcases List.mem_cons.1 h with rfl | h
    · exact (outlasts_foldl _ (fun s c => (startKill_outlasts s c []).1) l _).kills c (startKill_outlasts s c []).2
    · exact ih h _

/-! ### Function-level resets (26 R432) -/

theorem dropQueues_queue (s : State) (mine : Nat → Bool) (q : Nat) :
    (s.dropQueues mine).queue q =
      if mine (s.queue q).ctx then
        { s.queue q with state := 0, packets := [], replay := none, replayOpen := [], faultWait := none }
      else s.queue q := by
  unfold State.dropQueues State.queue
  rw [find_map_keyed _ _ fun x => by split <;> rfl]
  cases s.fe.queues.find q with
  | none => exact (ite_self Queue.zero).symm
  | some x => simp only [Option.map_some, Option.getD_some]; split <;> rfl

theorem dropQueues_dropped {s : State} {mine : Nat → Bool} {q : Nat} (h : mine (s.queue q).ctx = true) : dropped (s.dropQueues mine) q := by
  rw [dropped, dropQueues_queue, if_pos h]
  exact ⟨rfl, rfl⟩

theorem outlasts_dropQueues (s : State) (mine : Nat → Bool) : Outlasts s (s.dropQueues mine) := by
  refine ⟨rfl, rfl, rfl, fun _ h => h, fun q hq => ?_⟩
  rw [dropped, dropQueues_queue]
  split
  · exact ⟨rfl, rfl⟩
  · exact hq

theorem vfFlr_exec {s : State} {vf : Nat} (h1 : 1 ≤ vf) (h64 : vf < 64) :
    exec (.vfFlr vf) s =
      if (s.ctx vf).tag = 0 then .next ((s.dropQueues fun c => c == vf).emit (.notice "FLR complete" vf 0))
      else
        let s2 := (s.dropQueues fun c => c == vf).startKill (s.ctx vf).tag []
        .next { s2 with mm.kills := s2.mm.kills.map fun (x : Kill) =>
          if x.cove = (s.ctx vf).tag then { x with flrs := x.flrs ++ [vf] } else x } := by
  change execVfFlr vf s = _
  rw [execVfFlr, if_neg (by omega)]

theorem vfFlr_idles {s : State} {vf : Nat} (h : vf = 0 ∨ 64 ≤ vf) : idles (.vfFlr vf) s := by
  change execVfFlr vf s = _
  rw [execVfFlr, if_pos h]

theorem vfFlr_noCove {s : State} {vf : Nat} (h1 : 1 ≤ vf) (h64 : vf < 64) (ht : (s.ctx vf).tag = 0) :
    happens (.vfFlr vf) s fun t => t.outbox = .notice "FLR complete" vf 0 :: s.outbox ∧ ∀ q, (s.queue q).ctx = vf → dropped t q :=
  ⟨_, (vfFlr_exec h1 h64).trans (if_pos ht), rfl, fun _ hq => dropQueues_dropped (mine := fun c => c == vf) (by simp [hq])⟩

theorem vfFlr_kills {s : State} {vf : Nat} (h1 : 1 ≤ vf) (h64 : vf < 64) (ht : (s.ctx vf).tag ≠ 0) :
    happens (.vfFlr vf) s fun t => (∀ q, (s.queue q).ctx = vf → dropped t q) ∧
      ∃ x ∈ t.mm.kills, x.cove = (s.ctx vf).tag ∧ vf ∈ x.flrs := by
  obtain ⟨hout, y, hy, hc⟩ := startKill_outlasts (s.dropQueues fun c => c == vf) (s.ctx vf).tag []
  refine ⟨_, (vfFlr_exec h1 h64).trans (if_neg ht), fun q hq => ?_, _, List.mem_map.2 ⟨y, hy, rfl⟩, ?_⟩
  · exact hout.queues q (dropQueues_dropped (mine := fun c => c == vf) (by simp [hq]))
  · rw [if_pos hc]
    exact ⟨hc, by simp⟩

/-- The coves of the package, as the reset of function 0 kills them. -/
def coves (s : State) : List Nat := ((s.al.ctxs.map fun c => c.2.tag).filter (· != 0)).eraseDups

theorem mem_coves {s : State} {c : Nat × Ctx} (h : c ∈ s.al.ctxs) (ht : c.2.tag ≠ 0) : c.2.tag ∈ coves s :=
  List.mem_eraseDups.2 (List.mem_filter.2 ⟨List.mem_map.2 ⟨c, h, rfl⟩, by simpa using ht⟩)

theorem coves_nil {s : State} (h : ∀ c ∈ s.al.ctxs, c.2.tag = 0) : coves s = [] := by
  have : (s.al.ctxs.map fun c => c.2.tag).filter (· != 0) = [] := by
    simpa [List.filter_eq_nil_iff] using fun _ n c hc ht => ht ▸ h (n, c) hc
  rw [coves, this]
  rfl

/-- The kills of all coves start. -/
def killAll (s : State) : State := (coves s).foldl (fun (s : State) (c : Nat) => s.startKill c []) s

theorem outlasts_killAll (s : State) : Outlasts s (killAll s) := outlasts_foldl _ (fun s c => (startKill_outlasts s c []).1) _ s

/-- Then every queue is dropped and what the capture queue holds is discarded. -/
def flrDropped (s : State) : State :=
  (killAll s).fe.capture.foldl (fun (s : State) _ => s.discard) ((killAll s).dropQueues fun _ => true)

theorem outlasts_discard (s : State) : Outlasts s s.discard := .of_eq rfl rfl rfl rfl rfl

theorem outlasts_discards {α : Type} (s : State) (l : List α) : Outlasts s (l.foldl (fun (s : State) _ => s.discard) s) :=
  outlasts_foldl _ (fun s _ => outlasts_discard s) l s

theorem outlasts_flrDropped (s : State) : Outlasts s (flrDropped s) :=
  ((outlasts_killAll s).trans (outlasts_dropQueues ..)).trans (outlasts_discards ..)

theorem flrDropped_dropped (s : State) (q : Nat) : dropped (flrDropped s) q :=
  (outlasts_discards ((killAll s).dropQueues fun _ => true) _).queues q (dropQueues_dropped rfl)

theorem flrDropped_underKill {s : State} {c : Nat × Ctx} (h : c ∈ s.al.ctxs) (ht : c.2.tag ≠ 0) : underKill (flrDropped s) c.2.tag :=
  ((outlasts_dropQueues ..).trans (outlasts_discards ..)).kills _ (startKills_underKill (mem_coves h ht) s)

theorem discards_outbox {α : Type} (l : List α) (s : State) : (l.foldl (fun (s : State) _ => s.discard) s).outbox = s.outbox := by
  induction l generalizing s with
  | nil => rfl
  | cons x l ih => rw [List.foldl_cons, ih]; rfl

theorem flrDropped_outbox {s : State} (h : coves s = []) : (flrDropped s).outbox = s.outbox := by
  rw [flrDropped, discards_outbox, killAll, h]
  rfl

/-- A restart of the Jetty core changes its own state, the crash header and what is due. -/
theorem restartJetty_frame (s : State) (cause : Nat) :
    s.restartJetty cause = { s with dv.jetty := (s.restartJetty cause).dv.jetty, dv.crash := (s.restartJetty cause).dv.crash,
                                    agenda := (s.restartJetty cause).agenda } := by
  unfold State.restartJetty
  split <;> rfl

theorem restartJetty_mm (s : State) (cause : Nat) : (s.restartJetty cause).mm = s.mm := by rw [restartJetty_frame]
theorem restartJetty_fe (s : State) (cause : Nat) : (s.restartJetty cause).fe = s.fe := by rw [restartJetty_frame]
theorem restartJetty_outbox (s : State) (cause : Nat) : (s.restartJetty cause).outbox = s.outbox := by rw [restartJetty_frame]

theorem restartJetty_restarts {s : State} (h : s.dv.jetty.restarting = none) (cause : Nat) : restarts s (s.restartJetty cause) cause := by
  rw [State.restartJetty, if_neg (by simp [h])]
  exact ⟨rfl, rfl, rfl⟩

/-- RSVWR and the capture queue are cleared, and the kills of some coves join the reset of function 0. -/
def flrCleared (s : State) (cs : List Nat) : State :=
  { s with dv.rsvLast := 0, dv.rsvBar := false, dv.rsvCnt := 0, fe.capture := [],
           mm.kills := s.mm.kills.map fun (x : Kill) => if cs.contains x.cove then { x with flrs := x.flrs ++ [0] } else x,
           dv.host.flr := !cs.isEmpty }

theorem flrCleared_dropped {s : State} {q : Nat} (cs : List Nat) (h : dropped s q) : dropped (flrCleared s cs) q := h

theorem flrCleared_restarts {s t : State} {cause : Nat} (cs : List Nat) (h : restarts s t cause) : restarts s (flrCleared t cs) cause := h

theorem flrCleared_underKill {s : State} {c : Nat} (cs : List Nat) (h : underKill s c) : underKill (flrCleared s cs) c := by
  obtain ⟨x, hx, hc⟩ := h
  refine ⟨_, List.mem_map.2 ⟨x, hx, rfl⟩, ?_⟩
  split <;> exact hc

/-- The effect of PF_FLR but for its notice. -/
def flrDone (s : State) : State := flrCleared ((flrDropped s).restartJetty 0) (coves s)

theorem flrDone_dropped (s : State) (q : Nat) : dropped (flrDone s) q := by
  refine flrCleared_dropped _ ?_
  rw [dropped, State.queue, restartJetty_fe]
  exact flrDropped_dropped s q

theorem flrDone_restarts {s : State} (h : s.dv.jetty.restarting = none) : restarts s (flrDone s) 0 := by
  have ho := outlasts_flrDropped s
  have hr : restarts (flrDropped s) ((flrDropped s).restartJetty 0) 0 := restartJetty_restarts (by rw [ho.jetty, h]) 0
  rw [restarts, ho.clock, ho.crash] at hr
  exact flrCleared_restarts _ hr

theorem flrDone_underKill {s : State} {c : Nat × Ctx} (h : c ∈ s.al.ctxs) (ht : c.2.tag ≠ 0) : underKill (flrDone s) c.2.tag := by
  refine flrCleared_underKill _ ?_
  rw [underKill, restartJetty_mm]
  exact flrDropped_underKill h ht

theorem flrDone_outbox {s : State} (h : coves s = []) : (flrDone s).outbox = s.outbox :=
  (restartJetty_outbox (flrDropped s) 0).trans (flrDropped_outbox h)

/-- The state that PF_FLR leaves: with no cove to kill the reset is complete at once. -/
def flrAnswered (s : State) : State := if (coves s).isEmpty then (flrDone s).emit (.notice "FLR complete" 0 0) else flrDone s

theorem pfFlr_exec (s : State) : exec .pfFlr s = .next (flrAnswered s) := rfl

theorem flrAnswered_frame (s : State) : flrAnswered s = { flrDone s with outbox := (flrAnswered s).outbox } := by
  unfold flrAnswered
  split <;> rfl

theorem flrAnswered_outbox {s : State} (h : ∀ c ∈ s.al.ctxs, c.2.tag = 0) :
    (flrAnswered s).outbox = .notice "FLR complete" 0 0 :: s.outbox := by
  have hnone := coves_nil h
  rw [flrAnswered, if_pos (List.isEmpty_iff.2 hnone), emit_outbox, flrDone_outbox hnone]

theorem pfFlr_resets (s : State) :
    happens .pfFlr s fun t => (∀ q, dropped t q) ∧ t.dv.rsvCnt = 0 ∧ (s.dv.jetty.restarting = none → restarts s t 0) ∧
      t.fe.capture = [] ∧ ((∀ c ∈ s.al.ctxs, c.2.tag = 0) → t.outbox = .notice "FLR complete" 0 0 :: s.outbox) ∧
      ∀ c ∈ s.al.ctxs, c.2.tag ≠ 0 → underKill t c.2.tag := by
  have hdropped := flrDone_dropped s
  have hcount : (flrDone s).dv.rsvCnt = 0 := rfl
  have hrestarts := @flrDone_restarts s
  have hcapture : (flrDone s).fe.capture = [] := rfl
  have hkills := @flrDone_underKill s
  have hframe := flrAnswered_frame s
  generalize flrDone s = u at *
  refine ⟨_, pfFlr_exec s, fun q => ?_, ?_, fun h => ?_, ?_, flrAnswered_outbox, fun c h ht => ?_⟩ <;> rw [hframe]
  · exact hdropped q
  · exact hcount
  · exact hrestarts h
  · exact hcapture
  · exact hkills h ht

/-! ### Host accesses, power, resets and boot together -/

theorem debugHalt_effect {s : State} {ctx : Nat} (ho : s.barOpen = true) (hc : ctx < 64) :
    ((s.ctx ctx).halted = false → happens (.debugHalt ctx) s fun t => (t.ctx ctx).halted = true ∧ (t.ctx ctx).haltDone = false ∧
      t.mm = s.mm ∧ ∀ k sl, t.slot k = some sl → sl.pl.ctx = ctx → sl.due.frozen = true) ∧
    ((s.ctx ctx).halted = true → idles (.debugHalt ctx) s) := by
  refine ⟨fun h => ⟨_, debugHalt_open ho hc, ?_⟩, fun h => ?_⟩
  · rw [if_neg (by simp [h])]
    obtain ⟨hhalted, hdone⟩ := haltCtx_ctx s ctx
    exact ⟨hhalted, hdone, haltCtx_mm s ctx, fun _ _ => haltCtx_frozen⟩
  · rw [idles, debugHalt_open ho hc, if_pos h]

theorem debugRelease_effect {s : State} {ctx : Nat} (ho : s.barOpen = true) (hc : ctx < 64) :
    ((s.ctx ctx).halted = true → happens (.debugRelease ctx) s fun t => (t.ctx ctx).halted = false ∧ (t.ctx ctx).haltDone = false ∧
      t.mm = s.mm ∧ ∀ k sl, t.slot k = some sl → sl.pl.ctx = ctx → sl.due.frozen = false) ∧
    ((s.ctx ctx).halted = false → idles (.debugRelease ctx) s) := by
  refine ⟨fun h => ⟨_, debugRelease_open ho hc, ?_⟩, fun h => ?_⟩
  · rw [if_pos h]
    obtain ⟨hfree, hdone⟩ := releaseCtx_ctx s ctx
    exact ⟨hfree, hdone, rfl, fun _ _ => releaseCtx_free⟩
  · rw [idles, debugRelease_open ho hc, if_neg (by simp [h])]

theorem debug_closed {s : State} {ctx : Nat} (h : s.barOpen = false ∨ 64 ≤ ctx) : idles (.debugHalt ctx) s ∧ idles (.debugRelease ctx) s := by
  have hclosed : ¬ (s.barOpen = true ∧ ctx < 64) := by
    rintro ⟨ho, hc⟩
    rcases h with h | h
    · simp [h] at ho
    · omega
  constructor
  · change execDebugHalt ctx s = _
    rw [execDebugHalt, if_neg hclosed]
  · change execDebugRelease ctx s = _
    rw [execDebugRelease, if_neg hclosed]

theorem haltStopped_effect (s : State) (ctx : Nat) :
    ((s.ctx ctx).halted = true → happens (.haltStopped ctx) s fun t => (t.ctx ctx).haltDone = true ∧ (t.ctx ctx).halted = true ∧
      t.slots = s.slots) ∧
    ((s.ctx ctx).halted = false → idles (.haltStopped ctx) s) := by
  constructor <;> intro h
  · refine ⟨s.setCtx ctx { s.ctx ctx with haltDone := true }, ?_, by simp [h]⟩
    change execHaltStopped ctx s = _
    rw [execHaltStopped, if_pos h]
  · change execHaltStopped ctx s = _
    rw [execHaltStopped, if_neg (by simp [h])]

theorem sizeBar4_effect (s : State) (n : Nat) :
    (30 ≤ n → n ≤ 40 → s.sizeBar4 n = { s with dv.host.bar4Log := n }) ∧ ((n < 30 ∨ 40 < n) → s.sizeBar4 n = s) := by
  refine ⟨fun h1 h2 => ?_, fun h => ?_⟩
  · rw [State.sizeBar4, if_pos ⟨h1, h2⟩]
  · rw [State.sizeBar4, if_neg (by omega)]

/-- Settles O50: one lemma for each row and each case of it; the invariant along a kill is `Outlasts`. -/
theorem hostAccessPowerAndBoot : Obligations.HostAccessPowerAndBoot := by
  unfold Obligations.HostAccessPowerAndBoot
  refine ⟨⟨fun s ctx ho hc => ?_, fun s ctx => debug_closed, haltStopped_effect, fun s off bytes ho hl _ => bar4_written ho hl,
    fun s off len ho hl => ⟨bar4_read_clean ho hl, bar4_read_poisoned ho hl⟩, fun s off bytes => bar4_closed, fun s n off => ?_,
    fun s bar off v => registerWrite_idles v, fun s v ho => ⟨admctl_taken ho, admctl_ignored ho⟩,
    fun s v ho hl => ⟨pkgid_taken ho hl, pkgid_ignored ho⟩, fun s v => pkgid_locked, fun s n v => ctxdraw_taken,
    fun s v ho hl => ⟨jwdcfg_taken ho hl, jwdcfg_ignored ho⟩, fun s q v => rbase_taken v, fun s q w v => qsb_ignored v⟩,
    powerUp_effect, powerLoss_clears, fun s => ⟨perstAssert_resets, perstAssert_idles⟩,
    fun s => ⟨perstDeassert_starts, perstDeassert_idles⟩, fun s => step_railsBreak, fun s => bootStep_held, fun s hh => ?_,
    fun s => bootReady_fails, fun s n => bootReady_boots, fun s => bootReady_idles, pfFlr_resets,
    fun s vf h1 h64 => ⟨vfFlr_noCove h1 h64, vfFlr_kills h1 h64⟩, fun s vf => vfFlr_idles, fun s rate width => hostLink_trains,
    fun s rate width => hostLink_idles⟩
  · obtain ⟨hhalt, hhalted⟩ := debugHalt_effect ho hc
    obtain ⟨hrelease, hreleased⟩ := debugRelease_effect ho hc
    exact ⟨hhalt, hhalted, hrelease, hreleased⟩
  · obtain ⟨hin, hout⟩ := sizeBar4_effect s n
    exact ⟨hin, hout, bar4Atomic_unsupported⟩
  · refine ⟨bootStep_measures hh, fun h1 hf0 hf1 => ?_, fun n => bootStep_selects hh, fun h2 => bootStep_later h2.ge⟩
    rw [bootStep_firmware hh h1, bootFirmware_stops hf0 hf1]

end Sys2Proof.Proofs

/-! SUPPORT. Every step keeps both memories in canonical form (20 R352; 02 R30): one lemma for each operation of the model. -/

namespace Sys2Proof.Safety

open Sys2Proof.Machine Sys2Proof.Laws

set_option Elab.async false

/-! ### Outcomes and answers in form -/

/-- A state that an outcome goes on to is in form. -/
def formKept : Host.Outcome State Fault Refusal → Prop
  | .next s => inForm s
  | .fault _ => True
  | .refused _ => True

/-- A state that a computation gives is in form; `p` takes it out of the answer. -/
def formGiven {ε α : Type} (p : α → State) : Except ε α → Prop
  | .ok a => inForm (p a)
  | .error _ => True

/-- A state that may be given is in form. -/
def formSome : Option State → Prop
  | some s => inForm s
  | none => True

theorem formKept_next {s : State} (h : inForm s) : formKept (.next s) := h

theorem formKept.out {s : State} {o : Host.Outcome State Fault Refusal} (h : formKept o) (e : o = .next s) : inForm s := by
  subst e; exact h

theorem formGiven.out {ε α : Type} {p : α → State} {x : Except ε α} {a : α} (h : formGiven p x) (e : x = .ok a) : inForm (p a) := by
  subst e; exact h

theorem formSome.out {s : State} {o : Option State} (h : formSome o) (e : o = some s) : inForm s := by
  subst e; exact h

theorem formGiven.bind {ε α β : Type} {p : α → State} {q : β → State} {x : Except ε α} {f : α → Except ε β} (h : formGiven p x)
    (hf : ∀ a, inForm (p a) → formGiven q (f a)) : formGiven q (x >>= f) := by
  cases x with
  | error e => exact trivial
  | ok a => exact hf a h

theorem formGiven.mapOk {ε α β : Type} {p : α → State} {q : β → State} {x : Except ε α} {f : α → β} (h : formGiven p x)
    (hf : ∀ a, inForm (p a) → inForm (q (f a))) : formGiven q (x.map f) := by
  cases x with
  | error e => exact trivial
  | ok a => exact hf a h

/-- An answer that follows one without a state. -/
theorem formGiven.after {ε α β : Type} {q : β → State} {x : Except ε α} {f : α → Except ε β} (hf : ∀ a, formGiven q (f a)) :
    formGiven q (x >>= f) := by
  cases x with
  | error e => exact trivial
  | ok a => exact hf a

theorem formGiven.map {ε α β : Type} {q : β → State} {x : Except ε α} {f : α → β} (hf : ∀ a, inForm (q (f a))) : formGiven q (x.map f) := by
  cases x with
  | error e => exact trivial
  | ok a => exact hf a

theorem formSome.getD {s : State} {o : Option State} (h : formSome o) (hs : inForm s) : inForm (o.getD s) := by
  cases o with
  | none => exact hs
  | some t => exact h

/-- An answer behind a check that may refuse. -/
theorem formGiven.guard {ε α β : Type} {q : β → State} {c : Prop} [Decidable c] {e : ε} {f : α → Except ε β} {x : Except ε β} (h : formGiven q x) :
    formGiven q (if c then throw e >>= f else x) := by
  split
  · exact trivial
  · exact h

theorem formSome.map {α : Type} {o : Option α} {f : α → State} (hf : ∀ a, inForm (f a)) : formSome (o.map f) := by
  cases o with
  | none => exact trivial
  | some a => exact hf a

/-- An outcome that goes on from another. -/
theorem formKept.andThen {o : Host.Outcome State Fault Refusal} {f : State → State} (h : formKept o) (hf : ∀ s, inForm s → inForm (f s)) :
    formKept (match (generalizing := false) o with | .next s => .next (f s) | o => o) := by
  cases o with
  | next s => exact hf s h
  | fault _ => exact trivial
  | refused _ => exact trivial

/-! ### Changes that leave both memories, and changes in turn -/

/-- An update of other fields. -/
theorem inForm.keep {s t : State} (h : inForm s) (hm : t.mm.mem = s.mm.mem := by exact rfl) (hs : t.mm.sram = s.mm.sram := by exact rfl) :
    inForm t := by
  unfold inForm
  rw [hm, hs]
  exact h

theorem inForm.foldl {α : Type} {s : State} {l : List α} {g : State → α → State} (h : inForm s) (hg : ∀ s x, inForm s → inForm (g s x)) :
    inForm (l.foldl g s) := by
  induction l generalizing s with
  | nil => exact h
  | cons x l ih => exact ih (hg s x h)

theorem inForm.elim {α : Type} {s : State} {o : Option α} {f : α → State} (h : inForm s) (hf : ∀ x, inForm (f x)) : inForm (o.elim s f) := by
  cases o with
  | none => exact h
  | some x => exact hf x

theorem inForm.ite {c : Prop} [Decidable c] {s t : State} (hs : inForm s) (ht : inForm t) : inForm (if c then s else t) := by
  split
  · exact hs
  · exact ht

/-! ### The memory model -/

theorem inForm.writeEvent {s : State} {w : Writer} {p : Old → Bool} {ws : List (Nat × Byte)} (h : inForm s) : inForm (s.writeEvent w p ws) := by
  obtain ⟨hmem, hsram⟩ := h
  refine ⟨writeEvent_wf hmem w p ws, ?_⟩
  rw [writeEvent_frame]
  exact hsram

theorem inForm.forget {s : State} (h : inForm s) : inForm s.forget := by
  unfold State.forget
  extract_lets +onlyGivenNames o olds events
  exact h.keep

/-! ### Accessors, carves and accesses -/

theorem inForm.setTile {s : State} {t : Nat} {x : Tile} (h : inForm s) : inForm (s.setTile t x) := h.keep

theorem inForm.setSlot {s : State} {k : Nat} {x : Slot} (h : inForm s) : inForm (s.setSlot k x) := h.keep

theorem inForm.updSlot {s : State} {k : Nat} {f : Slot → Slot} (h : inForm s) : inForm (s.updSlot k f) := h.keep

theorem inForm.setArc {s : State} {n : Nat} {x : Arc} (h : inForm s) : inForm (s.setArc n x) := h.keep

theorem inForm.updArc {s : State} {n : Nat} {f : Arc → Arc} (h : inForm s) : inForm (s.updArc n f) := h.keep

theorem inForm.setCtx {s : State} {n : Nat} {x : Machine.Ctx} (h : inForm s) : inForm (s.setCtx n x) := h.keep

theorem inForm.updCfg {s : State} {n : Nat} {f : Configuration → Configuration} (h : inForm s) : inForm (s.updCfg n f) := h.keep

theorem inForm.setQueue {s : State} {q : Nat} {x : Queue} (h : inForm s) : inForm (s.setQueue q x) := h.keep

theorem inForm.setBarrier {s : State} {k : Nat} {x : Barrier} (h : inForm s) : inForm (s.setBarrier k x) := h.keep

theorem inForm.setTide {s : State} {k : Nat} {x : Tide} (h : inForm s) : inForm (s.setTide k x) := h.keep

theorem inForm.setGroup {s : State} {g : Nat} {x : Machine.Group} (h : inForm s) : inForm (s.setGroup g x) := h.keep

theorem inForm.setCommand {s : State} {n : Nat} {x : Machine.Command} (h : inForm s) : inForm (s.setCommand n x) := h.keep

theorem inForm.setRegion {s : State} {n : Nat} {x : Region} (h : inForm s) : inForm (s.setRegion n x) := h.keep

theorem inForm.emit {s : State} {e : Emission} (h : inForm s) : inForm (s.emit e) := h.keep

theorem inForm.soon {s : State} {d : DueRow} (h : inForm s) : inForm (s.soon d) := h.keep

theorem inForm.later {s : State} {d : DueRow} (h : inForm s) : inForm (s.later d) := h.keep

theorem inForm.noteSram {s : State} {keys : List Nat} (h : inForm s) : inForm (s.noteSram keys) := by
  unfold State.noteSram
  split
  · extract_lets +onlyGivenNames line
    split
    · exact h.keep
    · exact h
  · exact h

theorem inForm.noteTags {s : State} {k : Nat} (h : inForm s) : inForm (s.noteTags k) := by
  unfold State.noteTags
  split
  · exact h.keep
  · exact h

/-! ### Writes at the homes, events and the order log -/

theorem inForm.writeBelow {s : State} {w : Machine.Writer} {below : Old → Bool} {taint : Bool} {ws : List (Nat × Byte)} (h : inForm s) :
    inForm (s.writeBelow w below taint ws) := by
  unfold State.writeBelow
  extract_lets +onlyGivenNames ok top s0 _ _ s1
  have hs0 : inForm s0 := h.writeEvent
  have hs1 : inForm s1 := hs0.keep
  split
  · exact hs1.emit
  · exact hs1

theorem inForm.writeGlobal {s : State} {w : Machine.Writer} {taint : Bool} {ws : List (Nat × Byte)} (h : inForm s) :
    inForm (s.writeGlobal w taint ws) :=
  h.writeBelow

theorem inForm.deviceEvent {s : State} {ws : List (Nat × Byte)} (h : inForm s) : inForm (s.deviceEvent ws) := h.writeEvent

theorem inForm.writeDevice {s : State} {pa : Nat} {bs : List Byte} (h : inForm s) : inForm (s.writeDevice pa bs) := h.deviceEvent

/-- Tile SRAM written byte by byte. -/
theorem inForm.putSram {α : Type} {s t : State} {l : List α} {a : α → Nat} {b : α → Byte} (h : inForm s)
    (hs : t.mm.sram = l.foldl (fun m w => m.put (a w) (b w)) s.mm.sram) (hm : t.mm.mem = s.mm.mem := by exact rfl) : inForm t := by
  obtain ⟨hmem, hsram⟩ := h
  refine ⟨hm ▸ hmem, ?_⟩
  rw [hs]
  exact wf_foldl hsram l _ fun _ _ h => wf_put h _ _

/-- Global memory written byte by byte. -/
theorem inForm.putMem {α : Type} {s t : State} {l : List α} {a : α → Nat} {b : Memory → α → Byte} (h : inForm s)
    (hm : t.mm.mem = l.foldl (fun m w => m.put (a w) (b m w)) s.mm.mem) (hs : t.mm.sram = s.mm.sram := by exact rfl) : inForm t := by
  obtain ⟨hmem, hsram⟩ := h
  refine ⟨?_, hs ▸ hsram⟩
  rw [hm]
  exact wf_foldl hmem l _ fun _ _ h => wf_put h _ _

/-- Bytes of tile SRAM dropped. -/
theorem inForm.filterSram {s t : State} {p : Host.Cell → Bool} (h : inForm s) (hs : t.mm.sram = s.mm.sram.filter p)
    (hm : t.mm.mem = s.mm.mem := by exact rfl) : inForm t := by
  obtain ⟨hmem, hsram⟩ := h
  refine ⟨hm ▸ hmem, ?_⟩
  rw [hs]
  exact wf_filter hsram p

/-- Bytes of global memory dropped, and all of tile SRAM. -/
theorem inForm.filterMem {s t : State} {p : Host.Cell → Bool} (h : inForm s) (hm : t.mm.mem = s.mm.mem.filter p)
    (hs : t.mm.sram = [] := by exact rfl) : inForm t := by
  obtain ⟨hmem, -⟩ := h
  unfold inForm
  rw [hm, hs]
  exact ⟨wf_filter hmem p, rfl⟩

theorem inForm.writeCarve {s : State} {taint : Bool} {ws : List (Nat × Byte)} (h : inForm s) : inForm (s.writeCarve taint ws) := by
  unfold State.writeCarve
  extract_lets +onlyGivenNames _ s1
  have hs1 : inForm s1 := h.putSram rfl
  exact hs1.noteSram

theorem inForm.toPeer {s : State} {pkg : Nat} {e : Emission} (h : inForm s) : inForm (s.toPeer pkg e) := by
  unfold State.toPeer
  split
  · exact h.keep
  · exact h.emit

theorem inForm.postEvent {s : State} {ctx num : Nat} {payload : Dword} (h : inForm s) : inForm (s.postEvent ctx num payload) := by
  unfold State.postEvent
  extract_lets +onlyGivenNames c
  exact h.setCtx.emit.emit

theorem inForm.postRecord {s : State} {ctx : Nat} {r : Vector Dword 8} (h : inForm s) : inForm (s.postRecord ctx r) := h.emit.emit

theorem inForm.report {s : State} {what : String} {a b : Nat} (h : inForm s) : inForm (s.report what a b) := h.emit.emit

theorem inForm.logWrite {s : State} {ctx va : Nat} {bs : List Byte} (h : inForm s) : formSome (s.logWrite ctx va bs) := by
  unfold State.logWrite
  split
  · exact trivial
  · exact h.deviceEvent

theorem inForm.logFailed {s : State} {ctx va : Nat} {l : OrderLog} {dropped : Bool} (h : inForm s) : inForm (s.logFailed ctx va l dropped) := by
  unfold State.logFailed
  extract_lets +onlyGivenNames s1 l1
  have hs1 : inForm s1 := by
    unfold s1
    split
    · exact h
    · exact h.report
  exact hs1.setCtx

theorem inForm.logHeader {s : State} {ctx off n v : Nat} (h : inForm s) : inForm (s.logHeader ctx off n v) := by
  unfold State.logHeader
  split
  · exact h
  · split
    · rename_i s1 e
      have hs1 : inForm s1 := h.logWrite.out e
      exact hs1
    · exact h.logFailed

theorem inForm.logHeaders {s : State} {ctx : Nat} (h : inForm s) : inForm (s.logHeaders ctx) := by
  unfold State.logHeaders
  split
  · exact h
  · exact h.logHeader.logHeader.logHeader

theorem inForm.logRecord {s : State} {ctx kind lnch site : Nat} {subj : Dword} (h : inForm s) : inForm (s.logRecord ctx kind lnch site subj) := by
  unfold State.logRecord
  split
  · exact h
  · extract_lets +onlyGivenNames key seq r l1
    split
    · exact h.setCtx.logHeaders
    · extract_lets +onlyGivenNames va
      split
      · rename_i s1 e
        have hs1 : inForm s1 := h.logWrite.out e
        exact hs1.setCtx.logHeaders
      · exact h.logFailed.logHeaders

theorem inForm.endLog {s : State} {ctx : Nat} (h : inForm s) : inForm (s.endLog ctx) := by
  unfold State.endLog
  split
  · exact h.setCtx
  · exact h

theorem inForm.performed {s : State} {ctx kind lnch site : Nat} (h : inForm s) : inForm (s.performed ctx kind lnch site) := by
  unfold State.performed
  split
  · exact h
  · split
    · exact h
    · exact h.setCtx

theorem inForm.noteRuns {s : State} {ctx : Nat} {p : Nat → Bool} {f : RunRecord → RunRecord} (h : inForm s) : inForm (s.noteRuns ctx p f) := h.keep

theorem inForm.holdLevel {s : State} {ctx level : Nat} (h : inForm s) : inForm (s.holdLevel ctx level) := by
  unfold State.holdLevel
  split
  · exact h
  · exact h.setCtx.logHeaders

theorem inForm.dropContext {s : State} {ctx : Nat} (h : inForm s) : inForm (s.dropContext ctx) := by
  unfold State.dropContext
  extract_lets +onlyGivenNames inCtx lowCfg ran s1
  have hs1 : inForm s1 := h.noteRuns
  exact hs1.keep

theorem inForm.diverge {s : State} {ctx : Nat} (h : inForm s) : inForm (s.diverge ctx) := by
  unfold State.diverge
  extract_lets +onlyGivenNames c stopped s1 held
  have hs1 : inForm s1 := h.setCtx.dropContext
  exact (hs1.foldl fun _ _ h => h.later).logHeaders

/-! ### Arcs, deferred operations and the commit -/

theorem inForm.writeTokens {s : State} {x : Arc} {k : Nat} {toks : List (List Byte)} (h : inForm s) : inForm (s.writeTokens x k toks) := by
  unfold State.writeTokens
  extract_lets +onlyGivenNames ws
  split
  · exact h
  · extract_lets +onlyGivenNames _ s1
    have hs1 : inForm s1 := h.putSram rfl
    exact hs1.noteSram.noteTags

theorem inForm.foreignTokens {s : State} {x : Arc} {n : Nat} (h : inForm s) : inForm (s.foreignTokens x n) := by
  unfold State.foreignTokens
  split
  · extract_lets +onlyGivenNames t
    exact h.setTile.report
  · exact h

theorem inForm.publish {s : State} {n : Nat} {toks : List (List Byte)} {taint : Bool} (h : inForm s) : inForm (s.publish n toks taint) := by
  unfold State.publish
  split
  · exact h
  · split
    · exact h
    · split
      · exact h.setArc
      · split
        · exact h.setArc.toPeer
        · split
          · exact h.foreignTokens
          · extract_lets +onlyGivenNames x
            split
            · exact h.setArc
            · split
              · exact h.setArc
              · split
                · exact h.setArc.later
                · extract_lets +onlyGivenNames nums x1
                  exact h.writeTokens.setArc.later

theorem inForm.carryOn {s : State} {n : Nat} {set : List Nat} (h : inForm s) : inForm (s.carryOn n set) := by
  unfold State.carryOn
  split
  · exact h
  · exact h.updArc

theorem inForm.publishEntries {s : State} {n : Nat} {es : List Machine.Entry} (h : inForm s) : inForm (s.publishEntries n es) := by
  unfold State.publishEntries
  split
  · exact h
  · split
    · exact h
    · split
      · exact h.setArc.toPeer
      · split
        · exact h
        · exact h.setArc.later

theorem inForm.consume {s : State} {n c : Nat} (h : inForm s) : inForm (s.consume n c) := by
  unfold State.consume
  split
  · exact h
  · extract_lets +onlyGivenNames rp gone s1 s2 s3
    have hs1 : inForm s1 := h.setArc
    have hs2 : inForm s2 := by
      unfold s2
      split
      · exact hs1.later
      · exact hs1
    have hs3 : inForm s3 := by
      unfold s3
      split
      · exact hs2.later
      · split
        · exact hs2.later
        · exact hs2
    split
    · exact hs3.soon
    · exact hs3

theorem inForm.offerTurns {s : State} {g : Option (Nat × Nat × Nat)} (h : inForm s) : inForm (s.offerTurns g) := by
  unfold State.offerTurns
  split
  · exact h
  · refine h.foldl fun s x h => ?_
    split
    · split
      · exact h.later
      · split
        · exact h.later
        · exact h
    · exact h

theorem inForm.dropFiring {s : State} {k : Nat} (h : inForm s) : inForm (s.dropFiring k) := by
  unfold State.dropFiring
  extract_lets +onlyGivenNames wait s1 t
  have hs1 : inForm s1 := h.updSlot
  split
  · exact hs1.setTile
  · exact hs1

theorem inForm.voidConflicts {s : State} {k stamp rank : Nat} {lines : List Nat} (h : inForm s) : inForm (s.voidConflicts k stamp rank lines) := by
  unfold State.voidConflicts
  split
  · exact h
  · refine h.foldl fun s x h => ?_
    split
    · split
      · exact h.dropFiring
      · exact h
    · exact h

theorem inForm.tellGroup {s : State} {k stamp rank : Nat} {mine : List Nat} (h : inForm s) : inForm (s.tellGroup k stamp rank mine) := by
  unfold State.tellGroup
  extract_lets +onlyGivenNames s1
  have hs1 : inForm s1 := h.updSlot
  split
  · exact hs1
  · extract_lets +onlyGivenNames tell
    exact hs1.keep

theorem inForm.relayArc {s : State} {old : Machine.State} {n : Nat} {lanes : Tab Nat} (h : inForm s) : inForm (State.relayArc old s n lanes) := by
  unfold State.relayArc
  split
  · exact h
  · extract_lets +onlyGivenNames toks y keep wp
    exact h.writeTokens.setArc

theorem inForm.relay {s : State} {old : Machine.State} {k : Nat} {lanes : Arc → Tab Nat} (h : inForm s) : inForm (State.relay old s k lanes) := by
  unfold State.relay
  refine h.foldl fun s x h => ?_
  split
  · exact h.relayArc
  · exact h

theorem inForm.barrierError {s : State} {ctx n : Nat} (h : inForm s) : inForm (s.barrierError ctx n) := by
  unfold State.barrierError
  extract_lets +onlyGivenNames c
  exact h.setCtx.report

theorem inForm.onBarrier {s : State} {ctx n : Nat} {f : Barrier → Option Barrier} (h : inForm s) : inForm (s.onBarrier ctx n f) := by
  unfold State.onBarrier
  extract_lets +onlyGivenNames b
  split
  · split
    · exact h.setBarrier
    · exact h.barrierError
  · exact h.barrierError

theorem inForm.barrierOp {s : State} {ctx : Nat} {seen : List Nat} {x : DeferredOp} (h : inForm s) : inForm (s.barrierOp ctx seen x) := by
  unfold State.barrierOp
  split
  · split
    · exact h.barrierError
    · exact h.setBarrier
  · exact h.onBarrier
  · exact h.onBarrier
  · exact h.onBarrier
  · exact h.onBarrier
  · exact h

theorem inForm.updHeld {s : State} {k : Nat} {f : Slot → Slot} (h : inForm s) : inForm (s.updHeld k f) := by
  unfold State.updHeld
  split
  · exact h.updSlot
  · exact h.updCfg

theorem inForm.settleTimeline {s : State} {k tl : Nat} (h : inForm s) : inForm (s.settleTimeline k tl) := by
  unfold State.settleTimeline
  extract_lets +onlyGivenNames op
  exact h.updHeld

theorem inForm.startCommand {s : State} {k : Nat} {c : Machine.Command} (h : inForm s) : inForm (s.startCommand k c) := by
  unfold State.startCommand
  split
  · exact h
  · extract_lets +onlyGivenNames num s1 id
    have hs1 : inForm s1 := h.updSlot
    exact hs1.keep.setCommand.later.later

theorem inForm.settleBarrier {s : State} {c : Machine.Command} {total : Nat} {failed : Option Nat} (h : inForm s) :
    inForm (s.settleBarrier c total failed) := by
  unfold State.settleBarrier
  split
  · exact h
  · exact h.onBarrier

theorem inForm.checkRunEnd {s : State} {cfg : Nat} (h : inForm s) : inForm (s.checkRunEnd cfg) := by
  unfold State.checkRunEnd
  split
  · exact h.later
  · exact h

theorem inForm.endCommand {s : State} {id : Nat} {st : CmdState} {status : Nat} (h : inForm s) : inForm (s.endCommand id st status) := by
  unfold State.endCommand
  split
  · exact h
  · split
    · exact h
    · extract_lets +onlyGivenNames s1 s2 s3 s4
      have hs1 : inForm s1 := h.setCommand
      have hs2 : inForm s2 := hs1.settleBarrier.settleTimeline
      have hs3 : inForm s3 := by
        unfold s3
        split
        · exact hs2.updHeld
        · exact hs2
      have hs4 : inForm s4 := by
        unfold s4
        split
        · exact hs3.report
        · exact hs3
      exact inForm.elim hs4 fun _ => hs4.checkRunEnd

theorem inForm.cancelCommands {s : State} {p : Machine.Command → Bool} (h : inForm s) : inForm (s.cancelCommands p) := by
  unfold State.cancelCommands
  refine h.foldl fun s x h => ?_
  split
  · exact h
  · split
    · exact h.setCommand
    · exact h.endCommand

theorem inForm.cancel {s : State} {k op tl num : Nat} (h : inForm s) : inForm (s.cancel k op tl num) := by
  unfold State.cancel
  split
  · exact h.endCommand
  · exact h

theorem inForm.layerBits {s : State} {ctx layer : Nat} {res flt : Bool} (h : inForm s) : inForm (s.layerBits ctx layer res flt) := by
  unfold State.layerBits
  extract_lets +onlyGivenNames set
  exact h.keep

theorem inForm.startFlood {s : State} {ctx layer src ecl : Nat} {t : Tide} (h : inForm s) : inForm (s.startFlood ctx layer src ecl t) := by
  unfold State.startFlood
  extract_lets +onlyGivenNames key
  split
  · extract_lets +onlyGivenNames s1
    have hs1 : inForm s1 := h.layerBits
    exact hs1.setTide
  · extract_lets +onlyGivenNames s1
    have hs1 : inForm s1 := h.layerBits
    exact hs1.keep.setTide.later

theorem inForm.floodRequest {s : State} {ctx layer src ecl : Nat} {seen : List Nat} (h : inForm s) :
    inForm (s.floodRequest ctx layer src ecl seen) := by
  unfold State.floodRequest
  extract_lets +onlyGivenNames key t
  split
  · exact h.startFlood
  · exact h.startFlood
  · exact h.setTide
  · exact h
  · split <;> exact h.setTide

theorem inForm.ebbRequest {s : State} {ctx layer : Nat} (h : inForm s) : inForm (s.ebbRequest ctx layer) := by
  unfold State.ebbRequest
  extract_lets +onlyGivenNames key t
  split
  · exact h
  · exact h
  · exact h.layerBits.setTide.later
  · exact h.layerBits.setTide.later
  · exact h.layerBits.setTide

theorem inForm.advance {s : State} {k tl v : Nat} (h : inForm s) : inForm (s.advance k tl v) := h.updSlot

theorem inForm.writeBack {s : State} {line : Nat} (h : inForm s) : inForm (s.writeBack line) := h.keep

theorem inForm.otherOp {s : State} {k ctx ecl : Nat} {x : DeferredOp} (h : inForm s) : inForm (s.otherOp k ctx ecl x) := by
  unfold State.otherOp
  split
  · exact h.advance
  · exact h.startCommand
  · exact h.cancel
  · exact h.floodRequest
  · exact h.ebbRequest
  · exact h.writeBack
  · exact h.writeBack
  · exact h

theorem inForm.deferred {s : State} {k ctx ecl : Nat} {ops : List DeferredOp} (h : inForm s) : inForm (s.deferred k ctx ecl ops) := by
  unfold State.deferred
  extract_lets +onlyGivenNames seen
  exact (h.foldl fun _ _ h => h.barrierOp).foldl fun _ _ h => h.otherOp

theorem inForm.writeSection {s : State} {cfg : Nat} (h : inForm s) : inForm (s.writeSection cfg) := by
  unfold State.writeSection
  split
  · split
    · exact h.writeDevice
    · exact h
  · exact h

theorem inForm.tileMarker {s : State} {n cut : Nat} (h : inForm s) : inForm (s.tileMarker n cut) := h.publishEntries

theorem inForm.saveCut {s : State} {k cut : Nat} {own : List Nat} (h : inForm s) : inForm (s.saveCut k cut own) := by
  unfold State.saveCut
  split
  · exact h
  · split
    · exact h
    · extract_lets +onlyGivenNames fresh c run ins rec' early both copies g c1 c2 _ s1 s2 s3 s4 s5 ends s6
      have hs1 : inForm s1 := h.keep.writeSection
      have hs2 : inForm s2 := hs1.updSlot
      have hs3 : inForm s3 := hs2.foldl fun _ _ h => h.updArc
      have hs4 : inForm s4 := by
        unfold s4
        refine hs3.foldl fun s x h => ?_
        split
        · split
          · exact h
          · exact h.tileMarker
        · exact h
      have hs5 : inForm s5 := by
        unfold s5
        refine hs4.foldl fun s x h => ?_
        extract_lets +onlyGivenNames t
        have ht : inForm t := by
          unfold t
          split
          · exact h
          · exact h.later
        split
        · exact ht.later
        · exact ht
      have hs6 : inForm s6 := by
        unfold s6
        split
        · exact hs5.report
        · exact hs5
      exact hs6.later

theorem inForm.postWrites {s : State} {b : Buffers} (h : inForm s) : inForm (s.postWrites b) := by
  unfold State.postWrites
  extract_lets +onlyGivenNames pas post
  have hpost : ∀ s l, inForm s → inForm (post s l) := by
    intro _ _ h
    unfold post
    split
    · exact h
    · exact h.emit
  exact hpost _ _ (hpost _ _ h)

theorem inForm.commitStores {s : State} {k : Nat} {sl : Slot} {f : Firing} (h : inForm s) : inForm (s.commitStores k sl f) := by
  unfold State.commitStores
  extract_lets +onlyGivenNames before w _ below s1 mine s2
  have hs1 : inForm s1 := h.writeBelow.postWrites
  have hs2 : inForm s2 := hs1.updSlot
  exact hs2.writeCarve.voidConflicts.tellGroup

theorem inForm.commitArcs {s : State} {own : Slot} {f : Firing} {seen : List Nat} {tok : Nat → Nat → Nat → List Byte} (h : inForm s) :
    inForm (s.commitArcs own f seen tok) := by
  unfold State.commitArcs
  extract_lets +onlyGivenNames s1
  have hs1 : inForm s1 := by
    unfold s1
    refine h.foldl fun s x h => ?_
    split
    · exact h.carryOn.publish.publishEntries
    · exact h
  refine hs1.foldl fun s x h => ?_
  split
  · exact h.consume
  · exact h

theorem inForm.commitSlot {s : State} {k : Nat} {f : Firing} (h : inForm s) : inForm (s.commitSlot k f) := by
  unfold State.commitSlot
  split
  · exact h
  · extract_lets +onlyGivenNames s1
    have hs1 : inForm s1 := h.updSlot.updSlot
    exact hs1.deferred

theorem inForm.commitCount {s : State} {k : Nat} (h : inForm s) : inForm (s.commitCount k) := h.updSlot

theorem inForm.intervalCheck {s : State} {k : Nat} (h : inForm s) : inForm (s.intervalCheck k) := h.updSlot

theorem inForm.releaseFallback {s : State} {k : Nat} (h : inForm s) : inForm (s.releaseFallback k) := by
  unfold State.releaseFallback
  split
  · split
    · extract_lets +onlyGivenNames s1 st s2
      have hs1 : inForm s1 := by
        unfold s1
        refine h.foldl fun s x h => ?_
        split
        · exact h.updArc
        · exact h
      have hs2 : inForm s2 := hs1.updSlot
      split
      · extract_lets +onlyGivenNames all
        exact hs2.keep
      · exact hs2
    · exact h
  · exact h

theorem inForm.offerReleases {s : State} {k : Nat} (h : inForm s) : inForm (s.offerReleases k) := h.foldl fun _ _ h => h.later

theorem inForm.commit {s : State} {k : Nat} (h : inForm s) : inForm (s.commit k) := by
  unfold State.commit
  split
  · exact h
  · split
    · exact h
    · extract_lets +onlyGivenNames o own g s1 s2 s3 s4 s5 s6
      have hs1 : inForm s1 := h.commitStores
      have hs2 : inForm s2 := hs1.commitArcs
      have hs3 : inForm s3 := hs2.commitSlot
      have hs4 : inForm s4 := hs3.commitCount.dropFiring
      have hs5 : inForm s5 := hs4.intervalCheck.releaseFallback
      have hs6 : inForm s6 := by
        unfold s6
        split
        · exact hs5.saveCut
        · exact hs5
      exact hs6.keep.offerTurns.offerReleases

theorem inForm.commitEmpty {s : State} {k : Nat} {f : Firing} (h : inForm s) : inForm (s.commitEmpty k f) := by
  unfold State.commitEmpty
  split
  · exact h
  · extract_lets +onlyGivenNames o own g s1
    have hs1 : inForm s1 := h.commitArcs
    exact hs1.commitCount.updSlot.intervalCheck.releaseFallback.offerTurns.offerReleases

/-! ### What every instruction shares -/

theorem inForm.putFiring {s : State} {k : Nat} {sl : Slot} {f : Firing} (h : inForm s) : inForm (s.putFiring k sl f) := h.setSlot

theorem inForm.toPolicy {s : State} {k : Nat} {r : Vector Dword 8} (h : inForm s) : inForm (s.toPolicy k r) := h.updSlot.soon

theorem inForm.redeliver {s : State} {k : Nat} {sl : Slot} {f : Firing} (h : inForm s) : inForm (s.redeliver k sl f) := by
  unfold State.redeliver
  split
  · exact h
  · split
    · exact h
    · refine inForm.updSlot (inForm.updSlot (h.foldl fun s p h => ?_))
      split
      · split
        · exact h.writeTokens.setArc
        · exact h
      · exact h

theorem inForm.trapFrom {s : State} {k : Nat} {sl : Slot} {f : Firing} {idx : Nat} {t : TrapInfo} (h : inForm s) :
    inForm (s.trapFrom k sl f idx t) := by
  unfold State.trapFrom
  extract_lets +onlyGivenNames r s1
  have hs1 : inForm s1 := h.dropFiring
  split
  · exact hs1.toPolicy
  · split
    · extract_lets +onlyGivenNames s2
      have hs2 : inForm s2 := hs1.postRecord
      exact hs2.keep.redeliver
    · split
      · exact hs1.updSlot.soon
      · exact hs1.toPolicy

theorem inForm.takeTrap {s : State} {k : Nat} {t : TrapInfo} (h : inForm s) : inForm (s.takeTrap k t) := by
  unfold State.takeTrap
  split
  · exact h
  · split
    · exact h
    · exact h.trapFrom

theorem inForm.trapBeforeStart {s : State} {k : Nat} {sl : Slot} {t : TrapInfo} (h : inForm s) : inForm (s.trapBeforeStart k sl t) := h.trapFrom

theorem inForm.park {s : State} {k : Nat} {w : Wait} (h : inForm s) : inForm (s.park k w) := by
  unfold State.park
  extract_lets +onlyGivenNames s1 t
  have hs1 : inForm s1 := h.updSlot
  split
  · exact hs1.setTile
  · exact hs1

theorem inForm.newFault {s : State} {va reason : Nat} {who : Requester} {ctx : Nat} {write : Bool} (h : inForm s) :
    inForm (s.newFault va reason who ctx write) := by
  unfold State.newFault
  extract_lets +onlyGivenNames p _ s1
  have hs1 : inForm s1 := h.keep
  split
  · exact hs1.emit
  · exact hs1.later

theorem inForm.pageFault {s : State} {k va reason : Nat} {write : Bool} (h : inForm s) : inForm (s.pageFault k va reason write) := by
  unfold State.pageFault
  split
  · exact h
  · split
    · exact h
    · split
      · exact h.takeTrap
      · extract_lets +onlyGivenNames id s1
        have hs1 : inForm s1 := h.newFault
        split
        · exact hs1.park
        · exact hs1.dropFiring.updSlot

theorem inForm.stopWith {s : State} {k : Nat} {x : Stop} (h : inForm s) : inForm (s.stopWith k x) := by
  unfold State.stopWith
  split
  · exact h.takeTrap
  · exact h.pageFault
  · exact h.park

theorem inForm.runInst {s : State} {i : Instr} {body : State → Nat → Slot → Firing → Except Stop State} (h : inForm s)
    (hb : ∀ k sl f, formGiven id (body s k sl f)) : formKept (runInst i s body) := by
  unfold Machine.runInst
  split
  · exact trivial
  · split
    · exact trivial
    · split
      · split
        · rename_i e
          exact inForm.keep ((hb _ _ _).out e)
        · exact h.stopWith
      · exact h.putFiring

theorem inForm.runSlot {s : State} {i : Instr} {body : Machine.State → Nat → Slot → Firing → Except Stop (Slot × Firing)} (h : inForm s) :
    formKept (runSlot i s body) :=
  h.runInst fun _ _ _ => formGiven.map fun _ => h.putFiring

theorem inForm.runFiring {s : State} {i : Instr} {body : Machine.State → Nat → Slot → Firing → Except Stop Firing} (h : inForm s) :
    formKept (runFiring i s body) :=
  h.runInst fun _ _ _ => formGiven.map fun _ => h.putFiring

theorem inForm.runRegs {s : State} {i : Instr} {body : Regs → Except Stop Regs} (h : inForm s) :
    formKept (runRegs i s body) :=
  h.runInst fun _ _ _ => formGiven.map fun _ => h.putFiring

theorem inForm.finishPacket {s : State} {q n status : Nat} (h : inForm s) : inForm (s.finishPacket q n status) := by
  unfold State.finishPacket
  extract_lets +onlyGivenNames x ps
  exact h.setQueue.later

theorem inForm.unload {s : State} {cfg : Nat} (h : inForm s) : inForm (s.unload cfg) := by
  unfold State.unload
  extract_lets +onlyGivenNames mine free s1
  have hfree : ∀ t ks, inForm t → inForm (free t ks) := by
    intro _ _ h
    unfold free
    extract_lets +onlyGivenNames x
    split
    · exact h.setTile
    · exact h
  have hs1 : inForm s1 := h.foldl fun _ _ h => hfree _ _ h
  exact hs1.keep

theorem inForm.dropRegions {s : State} {cfg : Nat} (h : inForm s) : inForm (s.dropRegions cfg) := by
  unfold State.dropRegions
  extract_lets +onlyGivenNames waits _ s1
  have hs1 : inForm s1 := h.keep
  refine hs1.foldl fun s x h => ?_
  split
  · exact h.finishPacket
  · exact h

theorem inForm.endRun {s : State} {cfg status : Nat} (h : inForm s) : inForm (s.endRun cfg status) := by
  unfold State.endRun
  split
  · exact h
  · extract_lets +onlyGivenNames mine s1 _ _ s2 s3
    have hs1 : inForm s1 := h.cancelCommands.unload
    have hs2 : inForm s2 := hs1.keep.dropRegions
    have hs3 : inForm s3 := hs2.updCfg
    exact hs3.finishPacket.later

theorem inForm.markExited {s : State} {k : Nat} (h : inForm s) : inForm (s.markExited k) := h.dropFiring.updSlot

theorem inForm.closeArc {s : State} {n : Nat} (h : inForm s) : inForm (s.closeArc n) := by
  unfold State.closeArc
  split
  · exact h
  · split
    · exact h
    · extract_lets +onlyGivenNames lost s1
      have hs1 : inForm s1 := h.setArc
      split
      · exact hs1.toPeer
      · exact hs1

theorem inForm.exitSlot {s : State} {k : Nat} (h : inForm s) : inForm (s.exitSlot k) := by
  unfold State.exitSlot
  split
  · exact h
  · extract_lets +onlyGivenNames g st s1 s2
    have hs1 : inForm s1 := h.foldl fun _ _ h => h.markExited.updSlot
    have hs2 : inForm s2 := by
      unfold s2
      refine hs1.foldl fun s x h => ?_
      split
      · exact h.foldl fun _ _ h => h.closeArc
      · exact h
    exact hs2.updCfg.checkRunEnd

theorem inForm.afterEnd {s : State} {k : Nat} {x : EndKind} (h : inForm s) : inForm (s.afterEnd k x) := by
  unfold State.afterEnd
  split
  · exact h
  · exact h.exitSlot
  · exact h.updSlot

theorem inForm.finish {s : State} {k : Nat} {e : EndKind} (h : inForm s) : inForm (s.finish k e) := h.commit.afterEnd

theorem inForm.decideVerdict {s : State} {k : Nat} {sl : Slot} {f : Firing} {e : EndKind} (h : inForm s) :
    formGiven id (s.decideVerdict k sl f e) := by
  unfold State.decideVerdict
  extract_lets +onlyGivenNames lnch rej subj decide' div
  have hdecide' : ∀ s, inForm s → inForm (decide' s) := by
    intro _ h
    unfold decide'
    extract_lets +onlyGivenNames s1
    have hs1 : inForm s1 := by
      unfold s1
      split
      · exact h
      · exact h.logRecord
    split
    · exact hs1.dropFiring.redeliver
    · exact hs1.finish
  have hdiv : ∀ s, inForm s → inForm (div s) := fun _ h => h.diverge.takeTrap
  split
  · exact hdecide' _ h
  · exact trivial
  · exact hdiv _ h
  · split
    · exact hdecide' _ h.performed
    · exact hdiv _ h

theorem inForm.endFiring {s : State} {k : Nat} {sl : Slot} {f : Firing} {e : EndKind} (h : inForm s) : formGiven id (s.endFiring k sl f e) := by
  unfold State.endFiring
  refine formGiven.after fun _ => ?_
  dsimp only
  refine .guard (.guard (.guard (.guard ?_)))
  split
  · exact h.putFiring.decideVerdict
  · exact h.putFiring.finish

theorem inForm.commitHandler {s : State} {k : Nat} {sl : Slot} {f : Firing} (h : inForm s) :
    inForm (s.commitHandler k sl f) :=
  h.commitStores.commitSlot.dropFiring

theorem inForm.trapReturn {s : State} {k : Nat} {sl : Slot} {f : Firing} {how : Return} (h : inForm s) : inForm (s.trapReturn k sl f how) := by
  unfold State.trapReturn
  extract_lets +onlyGivenNames r s1
  have hs1 : inForm s1 := h.commitHandler.updSlot
  split
  · exact hs1
  · split
    · exact hs1.commitEmpty
    · exact hs1.updSlot
  · exact hs1.toPolicy

/-! ### Clone sets -/

theorem inForm.setCloneSet {s : State} {cfg : Nat} {x : CloneSet} (h : inForm s) : inForm (s.setCloneSet cfg x) := h.updCfg

theorem inForm.noteRouted {s : State} {k stamp : Nat} (h : inForm s) : inForm (s.noteRouted k stamp) := by
  unfold State.noteRouted
  split
  · exact h.setCloneSet
  · exact h

theorem inForm.logClone {s : State} {k clones st : Nat} {add : Bool} (h : inForm s) : inForm (s.logClone k clones st add) := by
  unfold State.logClone
  split
  · exact h
  · split
    · exact h.logRecord
    · exact h

theorem inForm.resplit {s : State} {cfg : Nat} {c : CloneSet} (h : inForm s) : inForm (s.resplit cfg c) := by
  unfold State.resplit
  extract_lets +onlyGivenNames first
  exact h.setCloneSet.relay

theorem inForm.removeCloneAt {s : State} {c : CloneSet} {st : Nat} (h : inForm s) : inForm (s.removeCloneAt c st) := by
  unfold State.removeCloneAt
  split
  · exact h
  · extract_lets +onlyGivenNames c1 cfg
    exact h.resplit.logClone.later

theorem inForm.forceRemoval {s : State} {c : CloneSet} {st : Nat} (h : inForm s) : inForm (s.forceRemoval c st) := by
  unfold State.forceRemoval
  split
  · exact h
  · extract_lets +onlyGivenNames lnch
    split
    · exact h
    · exact h.performed
    · exact h.diverge.report

theorem inForm.removeClones {s : State} {c : CloneSet} (h : inForm s) : inForm (s.removeClones c) := by
  unfold State.removeClones
  refine h.foldl fun s x h => ?_
  split
  · exact h.forceRemoval.removeCloneAt
  · exact h

theorem inForm.reroute {s : State} {c : CloneSet} (h : inForm s) : inForm (s.reroute c) := h.setCloneSet

theorem inForm.retireClones {s : State} {c : CloneSet} (h : inForm s) : inForm (s.retireClones c) := h.reroute.removeClones

theorem inForm.execCloneRelease {s : State} {k : Nat} (h : inForm s) : formKept (execCloneRelease k s) := by
  unfold Machine.execCloneRelease
  split
  · split
    · exact h
    · extract_lets +onlyGivenNames copies c1 s0 s1 t s2 s3 idle
      have hs0 : inForm s0 := h.setCloneSet
      have hs1 : inForm s1 := by
        unfold s1
        refine inForm.updSlot ?_
        split
        · exact hs0.relay
        · exact hs0
      have hs2 : inForm s2 := by
        unfold s2
        split
        · exact hs1.setTile
        · exact hs1
      have hs3 : inForm s3 := hs2.keep
      refine inForm.later ?_
      split
      · exact hs3.dropFiring
      · exact hs3
  · exact h

/-! ### Matrix instructions -/

theorem inForm.execMmt {s : State} {x : XFields} (h : inForm s) : formKept (execMmt x s) := h.runFiring

/-! ### Atomics of a firing -/

theorem inForm.noteTag {s : State} {home key : Nat} {r : Option Dword} {sync : TagSync} (h : inForm s) : inForm (s.noteTag home key r sync) := h.keep

theorem inForm.tagAnswer {s : State} {home key : Nat} (h : inForm s) : inForm (s.tagAnswer home key).2 := by
  unfold State.tagAnswer
  split
  · split <;> exact h
  · exact h.noteTag

theorem inForm.atomicWrite {s : State} {w : Machine.Writer} {q : AtomicReq} {v : Option Nat} (h : inForm s) : inForm (s.atomicWrite w q v) := by
  unfold State.atomicWrite
  split
  · extract_lets +onlyGivenNames handed
    exact h.writeGlobal
  · exact h

theorem inForm.rerelease {s : State} {y : TagSync} {whole : Bool} (h : inForm s) : inForm (s.rerelease y whole) := by
  unfold State.rerelease
  extract_lets +onlyGivenNames handed set
  exact h.keep

theorem inForm.setRequest {s : State} {k : Nat} {f : AtomicReq → AtomicReq} (h : inForm s) : inForm (s.setRequest k f) := h.updSlot

theorem inForm.performAtHome {s : State} {k : Nat} {sl : Slot} {f : Firing} {q : AtomicReq} (h : inForm s) : inForm (s.performAtHome k sl f q) := by
  unfold State.performAtHome
  extract_lets +onlyGivenNames old
  split
  · exact h.setRequest.park
  · extract_lets +onlyGivenNames w s1 own s2 s3
    have hs1 : inForm s1 := h.atomicWrite
    have hs2 : inForm s2 := by
      unfold s2
      split
      · exact hs1.voidConflicts.tellGroup
      · exact hs1
    have hs3 : inForm s3 := by
      unfold s3
      split
      · exact hs2.noteTag
      · exact hs2
    exact hs3.setRequest

theorem inForm.offerHeld {s : State} {ctx : Nat} (h : inForm s) : inForm (s.offerHeld ctx) := h.foldl fun _ _ h => h.later

theorem inForm.arrival {s : State} {k : Nat} (h : inForm s) : inForm (s.arrival k) := by
  unfold State.arrival
  split
  · exact h
  · split
    · exact h
    · split
      · exact h
      · extract_lets +onlyGivenNames ctx lnch
        split
        · exact h
        · extract_lets +onlyGivenNames perform
          have hperform : ∀ s, inForm s → inForm (perform s) := by
            intro _ h
            unfold perform
            refine inForm.performAtHome ?_
            split
            · exact h
            · exact h.logRecord
          split
          · exact h.takeTrap
          · split
            · exact h.noteTag
            · split
              · exact hperform _ h
              · exact hperform _ h.performed.offerHeld
              · split
                · exact h
                · exact h.park
              · exact h.diverge.takeTrap

theorem inForm.finishAtomic {s : State} {k : Nat} (h : inForm s) : inForm (s.finishAtomic k) := by
  unfold State.finishAtomic
  split
  · exact h
  · split
    · exact h
    · split
      · exact h
      · split
        · exact h
        · extract_lets +onlyGivenNames f
          split
          · extract_lets +onlyGivenNames r1
            exact h.putFiring
          · exact h.putFiring.stopWith

theorem inForm.issueAtomic {s : State} {k : Nat} {sl : Slot} {f : Firing} {q : AtomicReq} (h : inForm s) : inForm (s.issueAtomic k sl f q) := by
  unfold State.issueAtomic
  extract_lets +onlyGivenNames f1
  split
  · extract_lets +onlyGivenNames s1
    have hs1 : inForm s1 := h.putFiring
    exact hs1.park.later
  · exact h.putFiring.arrival.finishAtomic

theorem inForm.runAtomic {s : State} {i : Instr} {op : Nat} {x : AtomFields} (h : inForm s) : formKept (runAtomic i op x s) := by
  unfold Machine.runAtomic
  refine h.runInst fun k sl f => ?_
  split
  · split
    · exact h.finishAtomic
    · exact trivial
  · refine formGiven.after fun x => ?_
    refine formGiven.after fun x => ?_
    extract_lets +onlyGivenNames _
    split
    · exact formGiven.after fun _ => h.issueAtomic
    · exact h.issueAtomic

theorem inForm.askTag {s : State} {k : Nat} {sl : Slot} {f : Firing} {x : AtomFields} (h : inForm s) : formGiven (·.1) (s.askTag k sl f x) := by
  unfold State.askTag
  extract_lets +onlyGivenNames va
  refine .guard ?_
  split
  · exact trivial
  · refine .guard ?_
    extract_lets +onlyGivenNames key a y done g s1
    have ha : inForm a.2 := by
      unfold a
      split
      · exact h
      · exact h.tagAnswer
    have hs1 : inForm s1 := by
      unfold s1
      split
      · exact ha.rerelease
      · exact ha
    split <;> exact hs1

/-! ### Synchronization -/

theorem inForm.orderedFence {s : State} {scope : Nat} {f : Firing} (h : inForm s) : inForm (s.orderedFence scope f).1 := by
  unfold State.orderedFence
  extract_lets +onlyGivenNames d upTo
  exact h.keep

theorem inForm.fence {s : State} {kind scope : Nat} {f : Firing} (h : inForm s) : inForm (s.fence kind scope f).1 := by
  unfold State.fence
  extract_lets +onlyGivenNames f1 f2
  split
  · exact h.orderedFence
  · exact h

theorem inForm.execFence {s : State} {x : YFields} (h : inForm s) : formKept (execFence x s) := by
  unfold Machine.execFence
  refine h.runInst fun k sl f => ?_
  extract_lets +onlyGivenNames r
  exact h.fence.putFiring

theorem inForm.execEvsig {s : State} {x : RFields} (h : inForm s) : formKept (execEvsig x s) := by
  unfold Machine.execEvsig
  refine h.runInst fun k sl f => ?_
  extract_lets +onlyGivenNames n _
  split
  · refine formGiven.after fun x => ?_
    refine formGiven.after fun x => ?_
    extract_lets +onlyGivenNames _
    split
    · exact formGiven.after fun _ => h.putFiring.postEvent
    · exact h.putFiring.postEvent
  · refine formGiven.after fun x => ?_
    extract_lets +onlyGivenNames _
    split
    · exact formGiven.after fun _ => h.putFiring.postEvent
    · exact h.putFiring.postEvent

/-! ### Engine instructions -/

theorem inForm.issueCommand {s : State} {k : Nat} {sl : Slot} {f : Firing} {i : Instr} {op : Nat} {x : EFields} (h : inForm s) :
    formGiven id (s.issueCommand k sl f i op x) := by
  unfold State.issueCommand
  refine .after fun blk => .after fun bar => ?_
  dsimp only
  split
  · exact .guard h.putFiring
  · exact .after fun g => .guard (.guard h.putFiring.startCommand)

theorem inForm.runCommand {s : State} {i : Instr} {op : Nat} {x : EFields} (h : inForm s) :
    formKept (runCommand i op x s) :=
  h.runInst fun _ _ _ => h.issueCommand

theorem inForm.runQuery {s : State} {i : Instr} {op : Nat} {x : EFields} (h : inForm s) : formKept (runQuery i op x s) := h.runFiring

theorem inForm.runCancel {s : State} {i : Instr} {op : Nat} {x : EFields} (h : inForm s) : formKept (runCancel i op x s) := by
  unfold Machine.runCancel
  refine h.runInst fun k sl f => ?_
  extract_lets +onlyGivenNames n
  split
  · exact h.putFiring
  · exact formGiven.after fun _ => h.putFiring.cancel

/-! ### System instructions -/

theorem inForm.beginInvalidation {s : State} {ctx vpg log : Nat} {port : Option Nat} (h : inForm s) :
    inForm (s.beginInvalidation ctx vpg log port) := by
  unfold State.beginInvalidation
  extract_lets +onlyGivenNames i
  exact h.keep.later

theorem inForm.tlbi {s : State} {k : Nat} {sl : Slot} {f : Firing} {v : Dword} (h : inForm s) : formGiven id (s.tlbi k sl f v) := by
  unfold State.tlbi
  split
  · exact trivial
  · split
    · exact h.putFiring
    · extract_lets +onlyGivenNames vpg log
      split
      · exact trivial
      · exact h.beginInvalidation.park

theorem inForm.freeze {s : State} {k : Nat} (h : inForm s) : inForm (s.freeze k) := by
  unfold State.freeze
  extract_lets +onlyGivenNames s1 t
  have hs1 : inForm s1 := h.updSlot
  split
  · exact hs1.park
  · exact hs1

theorem inForm.haltCtx {s : State} {ctx : Nat} {monitor : Option Nat} (h : inForm s) : inForm (s.haltCtx ctx monitor) := by
  unfold State.haltCtx
  extract_lets +onlyGivenNames mine s1 s2
  have hs1 : inForm s1 := h.foldl fun _ _ h => h.freeze
  have hs2 : inForm s2 := by
    unfold s2
    split
    · exact hs1.updSlot
    · exact hs1
  exact hs2.setCtx.later

theorem inForm.releaseCtx {s : State} {ctx : Nat} (h : inForm s) : inForm (s.releaseCtx ctx) := by
  unfold State.releaseCtx
  extract_lets +onlyGivenNames free s1
  have hs1 : inForm s1 := h.keep
  exact hs1.setCtx

theorem inForm.sret {s : State} {k : Nat} {sl : Slot} {f : Firing} {how : Return} (h : inForm s) : formGiven id (s.sret k sl f how) := by
  unfold State.sret
  extract_lets +onlyGivenNames _
  split
  · exact formGiven.after fun _ => formGiven.after fun _ => h.trapReturn
  · exact formGiven.after fun _ => h.trapReturn

theorem inForm.exitFiring {s : State} {k : Nat} {sl : Slot} {f : Firing} (h : inForm s) : formGiven id (s.exitFiring k sl f) := by
  unfold State.exitFiring
  split
  · extract_lets +onlyGivenNames _
    split
    · exact formGiven.after fun _ => formGiven.after fun _ => h.commitHandler.exitSlot
    · exact formGiven.after fun _ => h.commitHandler.exitSlot
  · exact h.endFiring

theorem inForm.execDstep {s : State} {x : YFields} (h : inForm s) : formKept (execDstep x s) := by
  unfold Machine.execDstep
  refine h.runInst fun k sl f => ?_
  refine formGiven.after fun x => ?_
  refine formGiven.after fun x => ?_
  extract_lets +onlyGivenNames s1 dst
  have hs1 : inForm s1 := h.putFiring
  exact hs1.keep

theorem inForm.execWfi {s : State} {x : YFields} (h : inForm s) : formKept (execWfi x s) := by
  unfold Machine.execWfi
  refine h.runInst fun k sl f => ?_
  split
  · exact trivial
  · exact h.endFiring

theorem inForm.execCmpt {s : State} {x : YFields} (h : inForm s) : formKept (execCmpt x s) := by
  unfold Machine.execCmpt
  refine h.runInst fun k sl f => ?_
  extract_lets +onlyGivenNames bsig
  exact trivial

/-! ### Rows of firings -/

theorem inForm.selected {s : State} {k : Nat} {start : Bool} (h : inForm s) : inForm (s.selected k start) := by
  unfold State.selected
  split
  · exact h
  · extract_lets +onlyGivenNames t s1
    have hs1 : inForm s1 := h.setTile
    exact hs1.updCfg.setSlot

theorem inForm.noteReady {s : State} {tile : Nat} (h : inForm s) : inForm (s.noteReady tile) := by
  unfold State.noteReady
  refine h.foldl fun s x h => ?_
  extract_lets +onlyGivenNames k
  split
  · extract_lets +onlyGivenNames r since
    split
    · exact h
    · exact h.setSlot
  · exact h

theorem inForm.enter {s : State} {k : Nat} {sl : Slot} {f : Firing} (h : inForm s) : inForm (s.enter k sl f) := by
  unfold State.enter
  extract_lets +onlyGivenNames s1
  have hs1 : inForm s1 := h.keep.setSlot
  exact hs1.setTile

theorem inForm.startFiring {s : State} {k : Nat} {starved : Bool} (h : inForm s) : inForm (s.startFiring k starved) := by
  unfold State.startFiring
  extract_lets +onlyGivenNames s0
  have hs0 : inForm s0 := h.selected
  split
  · exact h
  · split
    · exact hs0.setSlot.trapBeforeStart
    · extract_lets +onlyGivenNames _ sl1 _ f
      exact hs0.enter.noteRouted

theorem inForm.resumeFiring {s : State} {k : Nat} (h : inForm s) : inForm (s.resumeFiring k) := by
  unfold State.resumeFiring
  extract_lets +onlyGivenNames s0
  have hs0 : inForm s0 := h.selected
  split
  · exact h
  · extract_lets +onlyGivenNames s1
    have hs1 : inForm s1 := hs0.setSlot
    exact hs1.setTile

theorem inForm.dispatch {s : State} {k : Nat} {starved : Bool} (h : inForm s) : inForm (s.dispatch k starved) := by
  unfold State.dispatch
  split
  · exact h.resumeFiring
  · exact h.startFiring

theorem inForm.execFiringStart {s : State} {tile : Nat} (h : inForm s) : formKept (execFiringStart tile s) := by
  unfold Machine.execFiringStart
  extract_lets +onlyGivenNames s1
  have hs1 : inForm s1 := h.noteReady
  split
  · split
    · exact hs1.startFiring
    · exact h
  · exact h

theorem inForm.execParkedFiringResume {s : State} {tile : Nat} (h : inForm s) : formKept (execParkedFiringResume tile s) := by
  unfold Machine.execParkedFiringResume
  extract_lets +onlyGivenNames s1
  have hs1 : inForm s1 := h.noteReady
  split
  · split
    · exact hs1.resumeFiring
    · exact h
  · exact h

theorem inForm.giveWay {s : State} {k : Nat} (h : inForm s) : inForm (s.giveWay k) := by
  unfold State.giveWay
  split
  · split
    · exact h.park
    · exact h.dropFiring.updSlot
  · exact h

theorem inForm.execPreEmption {s : State} {tile : Nat} (h : inForm s) : formKept (execPreEmption tile s) := by
  unfold Machine.execPreEmption
  extract_lets +onlyGivenNames s0
  have hs0 : inForm s0 := h.noteReady
  split
  · extract_lets +onlyGivenNames s1
    have hs1 : inForm s1 := hs0.giveWay
    split
    · exact hs1.dispatch
    · exact hs1
  · exact h

theorem inForm.execHandlerFiringStart {s : State} {k : Nat} (h : inForm s) : formKept (execHandlerFiringStart k s) := by
  unfold Machine.execHandlerFiringStart
  split
  · exact h
  · extract_lets +onlyGivenNames free
    split
    · exact h
    · extract_lets +onlyGivenNames f _ sl1 active
      have hactive : ∀ s, inForm s → inForm (active s) := fun _ h => h.updCfg
      split
      · exact hactive _ h.keep.setSlot
      · split
        · exact hactive _ h.enter
        · exact h

theorem inForm.execFallbackFiring {s : State} {k : Nat} (h : inForm s) : formKept (execFallbackFiring k s) := by
  unfold Machine.execFallbackFiring
  extract_lets +onlyGivenNames s1
  have hs1 : inForm s1 := h.noteReady
  split
  · split
    · exact hs1.startFiring
    · exact h
  · exact h

theorem inForm.execStampedCommit {s : State} {k : Nat} (h : inForm s) : formKept (execStampedCommit k s) := by
  unfold Machine.execStampedCommit
  split
  · exact h
  · split
    · split
      · split
        · extract_lets +onlyGivenNames f1
          split
          · split
            · rename_i s1 e
              have hs1 : inForm s1 := h.putFiring.decideVerdict.out e
              exact hs1
            · exact h.stopWith
          · exact h.putFiring.finish
        · exact h
      · exact h
    · split
      · exact h.setSlot.commitEmpty
      · exact h

theorem inForm.execFiringOverrun {s : State} {k : Nat} (h : inForm s) : formKept (execFiringOverrun k s) := by
  unfold Machine.execFiringOverrun
  split
  · split
    · split
      · exact h.takeTrap
      · exact h
    · exact h
  · exact h

theorem inForm.drawFault {s : State} {k : Nat} (h : inForm s) : inForm (s.drawFault k) := by
  unfold State.drawFault
  split
  · exact h
  · extract_lets +onlyGivenNames clean
    have hclean : inForm clean := h.setSlot
    split
    · split
      · extract_lets +onlyGivenNames t
        split
        · exact hclean.takeTrap
        · exact hclean.updSlot
      · exact hclean
    · exact hclean

theorem inForm.execDrawWindowEnd {s : State} {tile : Nat} (h : inForm s) : formKept (execDrawWindowEnd tile s) := by
  unfold Machine.execDrawWindowEnd
  extract_lets +onlyGivenNames t
  split
  · exact h
  · extract_lets +onlyGivenNames s1
    have hs1 : inForm s1 := h.setTile
    exact hs1.foldl fun _ _ h => h.drawFault

theorem inForm.execGrinderChunk {s : State} {k : Nat} (h : inForm s) : formKept (execGrinderChunk k s) := by
  unfold Machine.execGrinderChunk
  split
  · split
    · exact inForm.execMmt (h.keep) |>.andThen fun _ h => h.keep
    · exact h
  · exact h

theorem inForm.execWfiWake {s : State} {k : Nat} (h : inForm s) : formKept (execWfiWake k s) := by
  unfold Machine.execWfiWake
  split
  · split
    · split
      · exact h.setSlot
      · exact h
    · exact h
  · exact h

/-! ### Rows of arcs and regions -/

theorem inForm.noteCut {s : State} {cfg cut : Nat} {f : CutRun → CutRun} (h : inForm s) : inForm (s.noteCut cfg cut f) := by
  unfold State.noteCut
  split
  · extract_lets +onlyGivenNames fresh c1 c2 _ s1 s2
    have hs1 : inForm s1 := h.keep.writeSection
    have hs2 : inForm s2 := by
      unfold s2
      split
      · exact hs1.report
      · exact hs1
    exact hs2.later
  · exact h

theorem inForm.endRecording {s : State} {n : Nat} {x : Arc} {cut q : Nat} (h : inForm s) : inForm (s.endRecording n x cut q) := by
  unfold State.endRecording
  extract_lets +onlyGivenNames toks mine s1 keep s2 full
  have hs1 : inForm s1 := h.updArc
  have hs2 : inForm s2 := hs1.updCfg
  split
  · exact hs2.updCfg.noteCut.report
  · exact hs2.noteCut

theorem inForm.recordedMarker {s : State} {n : Nat} {x : Arc} {cut q : Nat} (h : inForm s) : inForm (s.recordedMarker n x cut q) := by
  unfold State.recordedMarker
  split
  · exact h.endRecording
  · split
    · exact h
    · exact h.noteCut

theorem inForm.forwardEntries {s : State} {m n fuel : Nat} (h : inForm s) : inForm (s.forwardEntries m n fuel) := by
  induction fuel generalizing s with
  | zero => exact h
  | succ fuel ih =>
    unfold State.forwardEntries
    split
    · split
      · split
        · exact h
        · split
          · split
            · exact ih h.setArc
            · split
              · exact ih h.setArc.recordedMarker
              · exact h
          · exact ih h.setArc
          · exact ih h.setArc.carryOn.publishEntries.updArc
      · exact h
    · exact h

theorem inForm.mergeMarkers {s : State} {m : Nat} (h : inForm s) : inForm (s.mergeMarkers m) := by
  unfold State.mergeMarkers
  split
  · exact h
  · extract_lets +onlyGivenNames al
    split
    · split
      · extract_lets +onlyGivenNames cut
        exact (h.foldl fun _ _ h => h.updArc).publishEntries
      · exact h
    · exact h

theorem inForm.mergeTake {s : State} {m : Nat} {x : Arc} {i : Nat} (h : inForm s) : inForm (s.mergeTake m x i) := by
  unfold State.mergeTake
  split
  · split
    · extract_lets +onlyGivenNames d3 s1 s2 s3 s4
      have hs1 : inForm s1 := h.setArc
      have hs2 : inForm s2 := hs1.updArc
      have hs3 : inForm s3 := by
        unfold s3
        split
        · exact hs2
        · exact hs2.later
      have hs4 : inForm s4 := by
        unfold s4
        split
        · exact hs3.later
        · exact hs3
      exact hs4.carryOn.publish.forwardEntries.mergeMarkers
    · exact h
  · exact h

theorem inForm.mergeChoice {s : State} {m : Nat} {x : Arc} {pref : Option Nat} (h : inForm s) : formSome (s.mergeChoice m x pref) := by
  unfold State.mergeChoice
  split
  · exact trivial
  · extract_lets +onlyGivenNames w ctx lnch site next free
    have hfree : ∀ s, inForm s → formSome (free s) := by
      intro s h
      refine formSome.map fun i => inForm.mergeTake ?_
      split
      · exact h
      · exact h.logRecord
    split
    · exact trivial
    · split
      · split
        · exact h.mergeTake
        · exact trivial
      · extract_lets +onlyGivenNames say
        split
        · exact h.performed.logRecord.mergeTake
        · split
          · exact hfree _ h.diverge.report
          · split
            · exact hfree _ h
            · exact trivial

theorem inForm.mergeRun {s : State} {m : Nat} {pref : Option Nat} {fuel : Nat} (h : inForm s) : inForm (s.mergeRun m pref fuel) := by
  induction fuel generalizing s with
  | zero => exact h
  | succ fuel ih =>
    unfold State.mergeRun
    split
    · exact h
    · split
      · rename_i e
        exact ih (h.mergeChoice.out e)
      · exact h

theorem inForm.takeCarried {s : State} {n : Nat} {x : Carried} (h : inForm s) : inForm (s.takeCarried n x) := by
  unfold State.takeCarried
  split
  · split
    · split
      · exact h.foreignTokens
      · exact h.carryOn.publish
    · exact h
  · exact h.publishEntries
  · exact h.publishEntries
  · exact h.publishEntries
  · exact h

theorem inForm.peerClosed {s : State} {n : Nat} {x : Arc} {l : List Carried} (h : inForm s) : inForm (s.peerClosed n x l) := by
  unfold State.peerClosed
  split
  · exact h.setArc
  · exact h

theorem inForm.carry {s : State} {n : Nat} {l : List Carried} (h : inForm s) : inForm (s.carry n l) := by
  unfold State.carry
  split
  · exact h
  · extract_lets +onlyGivenNames room
    split
    · exact h.peerClosed
    · split
      · exact h
      · exact h.foldl fun _ _ h => h.takeCarried

theorem inForm.execWpArrival {s : State} {n : Nat} {carried : List Carried} (h : inForm s) : formKept (execWpArrival n carried s) := by
  unfold Machine.execWpArrival
  extract_lets +onlyGivenNames s
  have hs : inForm s := h.carry
  split
  · exact hs
  · split
    · split
      · exact hs.setArc.mergeRun
      · exact hs
    · exact hs.setArc.mergeRun

theorem inForm.execRpMirrorUpdate {s : State} {n : Nat} {peerRp : Option Nat} (h : inForm s) : formKept (execRpMirrorUpdate n peerRp s) := by
  unfold Machine.execRpMirrorUpdate
  split
  · exact h
  · split
    · exact h
    · split
      · split
        · exact h.setArc
        · exact h
      · exact h
      · extract_lets +onlyGivenNames s1
        have hs1 : inForm s1 := h.setArc
        split
        · exact hs1.emit
        · exact hs1

theorem inForm.execParkedTokenDelivery {s : State} {n : Nat} (h : inForm s) : formKept (execParkedTokenDelivery n s) := by
  unfold Machine.execParkedTokenDelivery
  split
  · exact h
  · split
    · exact h
    · extract_lets +onlyGivenNames go
      split
      · exact h
      · extract_lets +onlyGivenNames bad x0 x1
        split
        · exact h.setArc.later
        · exact h.writeTokens.setArc.later

theorem inForm.drainOver {s : State} {key : Nat} (h : inForm s) : inForm (s.drainOver key) := by
  unfold State.drainOver
  split
  · split
    · exact h
    · extract_lets +onlyGivenNames todo
      exact h.foldl fun _ _ h => h.setCloneSet.later
  · exact h

theorem inForm.takeDrains {s : State} {r : Region} (h : inForm s) : inForm (s.takeDrains r) := h.keep

theorem inForm.modeFault {s : State} {key : Nat} {r : Region} {t : ModeToken} {cause : Nat} (h : inForm s) : inForm (s.modeFault key r t cause) := by
  unfold State.modeFault
  extract_lets +onlyGivenNames s0 s1 info
  have hs0 : inForm s0 := h.setRegion
  have hs1 : inForm s1 := by
    unfold s1
    refine inForm.drainOver ?_
    split
    · exact hs0.takeDrains
    · exact hs0
  split
  · split
    · exact hs1.postRecord
    · exact hs1.setSlot
  · extract_lets +onlyGivenNames give s2
    have hs2 : inForm s2 := hs1.updCfg
    split
    · exact hs2.report
    · exact hs2

theorem inForm.serveRegion {s : State} {key fuel : Nat} (h : inForm s) : inForm (s.serveRegion key fuel) := by
  induction fuel generalizing s with
  | zero => exact h
  | succ fuel ih =>
    unfold State.serveRegion
    split
    · split
      · split
        · exact ih h.modeFault
        · exact h
      · exact h
    · exact h

theorem inForm.deliverMode {s : State} {cfg num rset issuer : Nat} (h : inForm s) : inForm (s.deliverMode cfg num rset issuer) := by
  unfold State.deliverMode
  extract_lets +onlyGivenNames key
  split
  · exact h.setRegion.serveRegion
  · exact h

theorem inForm.deliverMarker {s : State} {n k p : Nat} {x : Arc} {cut q : Nat} (h : inForm s) : inForm (s.deliverMarker n k p x cut q) := by
  unfold State.deliverMarker
  split
  · exact h
  · split
    · exact h
    · split
      · exact h.recordedMarker
      · split
        · exact h
        · extract_lets +onlyGivenNames marked _ s1 s2
          have hs1 : inForm s1 := h.setSlot
          have hs2 : inForm s2 := hs1.updArc
          split
          · exact hs2.saveCut
          · exact hs2

theorem inForm.deliverEntry {s : State} {n k p : Nat} {x : Arc} {q : Nat} {xx6 : Machine.Entry} (h : inForm s) :
    inForm (s.deliverEntry n k p x q xx6) := by
  unfold State.deliverEntry
  split
  · exact h.updSlot
  · exact h.deliverMode
  · exact h.later
  · exact h.deliverMarker

theorem inForm.execControlEntryDelivery {s : State} {n : Nat} (h : inForm s) : formKept (execControlEntryDelivery n s) := by
  unfold Machine.execControlEntryDelivery
  split
  · exact h
  · split
    · exact h.forwardEntries.mergeMarkers.later
    · split
      · extract_lets +onlyGivenNames counted x1 s0 s1 s2 s2'
        have hs0 : inForm s0 := h.setArc.updSlot
        have hs1 : inForm s1 := hs0.deliverEntry
        have hs2 : inForm s2 := by
          unfold s2
          split
          · exact hs1.later
          · exact hs1
        have hs2' : inForm s2' := by
          unfold s2'
          split
          · exact hs2.later
          · exact hs2
        split
        · exact hs2'
        · exact hs2'.soon
      · exact h

theorem inForm.execCutComplete {s : State} {cfg : Nat} (h : inForm s) : formKept (execCutComplete cfg s) := by
  unfold Machine.execCutComplete
  split
  · split
    · extract_lets +onlyGivenNames rest c1 c2 _ s1
      have hs1 : inForm s1 := h.keep.writeSection
      split
      · exact hs1.later
      · exact hs1
    · exact h
  · exact h

theorem inForm.dropRegionClones {s : State} {r : Region} (h : inForm s) : inForm (s.dropRegionClones r) := h.foldl fun _ _ h => h.retireClones

theorem inForm.switchLevel {s : State} {r : Region} {new cfgn : Nat} (h : inForm s) : inForm (s.switchLevel r new cfgn) := by
  unfold State.switchLevel
  split
  · exact h
  · extract_lets +onlyGivenNames old subj mine s1 restart s2 s3
    have hs1 : inForm s1 := h.foldl fun _ _ h => h.updSlot
    have hs2 : inForm s2 := hs1.keep
    have hs3 : inForm s3 := hs2.noteRuns
    exact hs3.holdLevel.logRecord

theorem inForm.placeDrains {s : State} {key : Nat} {r : Region} (h : inForm s) : inForm (s.placeDrains key r) := by
  unfold State.placeDrains
  extract_lets +onlyGivenNames on
  exact (h.setRegion.foldl fun _ _ h => h.publishEntries).later

theorem inForm.switchRegion {s : State} {key : Nat} {r : Region} (h : inForm s) : inForm (s.switchRegion key r) := by
  unfold State.switchRegion
  extract_lets +onlyGivenNames set s1 cfgn s2 s3
  have hs1 : inForm s1 := by
    unfold s1
    clear_value set
    split
    · exact h.foldl fun _ _ h => h.updSlot
    · exact h
  have hs2 : inForm s2 := hs1.setRegion
  have hs3 : inForm s3 := by
    unfold s3
    split
    · extract_lets +onlyGivenNames t
      have ht : inForm t := hs2.switchLevel
      split
      · exact ht.finishPacket
      · exact ht
    · exact hs2
  exact hs3.serveRegion.drainOver

theorem inForm.execQuiescentPoint {s : State} {key : Nat} (h : inForm s) : formKept (execQuiescentPoint key s) := by
  unfold Machine.execQuiescentPoint
  split
  · exact h
  · split
    · exact h
    · split
      · split
        · exact h.dropRegionClones.later
        · exact h
      · split
        · exact h
        · split
          · exact h.placeDrains
          · split
            · exact h
            · exact h.switchRegion

theorem inForm.execDrainTimeout {s : State} {key : Nat} (h : inForm s) : formKept (execDrainTimeout key s) := by
  unfold Machine.execDrainTimeout
  split
  · split
    · split
      · exact h.modeFault.serveRegion
      · exact h
    · exact h
  · exact h

theorem inForm.execGenerationWaitTimeout {s : State} {key : Nat} (h : inForm s) : formKept (execGenerationWaitTimeout key s) := by
  unfold Machine.execGenerationWaitTimeout
  split
  · split
    · split
      · exact h.modeFault.serveRegion
      · exact h
    · exact h
  · exact h

theorem inForm.execLevelChangeTimeout {s : State} {key : Nat} (h : inForm s) : formKept (execLevelChangeTimeout key s) := by
  unfold Machine.execLevelChangeTimeout
  split
  · split
    · split
      · exact h
      · extract_lets +onlyGivenNames quit s1 l s2
        have hquit : ∀ s x, inForm s → inForm (quit s x) := by
          intro _ _ h
          unfold quit
          extract_lets +onlyGivenNames others _ s1
          have hs1 : inForm s1 := h.setRegion
          refine inForm.drainOver ?_
          split
          · exact hs1.takeDrains
          · exact hs1
        have hs1 : inForm s1 := h.foldl fun _ _ h => hquit _ _ h
        have hs2 : inForm s2 := inForm.elim hs1 fun _ => hs1.noteRuns
        exact hs2.report.finishPacket
    · exact h
  · exact h

/-! ### Rows of atomics -/

theorem inForm.peerStore {s : State} {pkg : Nat} {atomic taint : Bool} {ws : List (Nat × Byte)} (h : inForm s) :
    inForm (s.peerStore pkg atomic taint ws) := by
  unfold State.peerStore
  extract_lets +onlyGivenNames ok w s1
  have hs1 : inForm s1 := h.writeEvent
  exact hs1.keep

theorem inForm.performPeer {s : State} {pkg slot : Nat} {q : AtomicReq} (h : inForm s) : inForm (s.performPeer pkg slot q) := by
  unfold State.performPeer
  extract_lets +onlyGivenNames old ws
  exact h.peerStore.noteTag.emit

theorem inForm.peerAtomic {s : State} {pkg slot age cove gen : Nat} {q : AtomicReq} (h : inForm s) :
    inForm (s.peerAtomic pkg slot age cove gen q) := by
  unfold State.peerAtomic
  extract_lets +onlyGivenNames key
  split
  · exact h
  · split
    · exact h.noteTag
    · split
      · exact h.emit
      · split
        · extract_lets +onlyGivenNames w
          exact h.keep.emit
        · exact h.performPeer

theorem inForm.peerWaitMet {s : State} {id : Nat} (h : inForm s) : inForm (s.peerWaitMet id) := by
  unfold State.peerWaitMet
  split
  · split
    · exact h.keep
    · split
      · exact h.keep.performPeer
      · exact h
  · exact h

theorem inForm.performLate {s : State} {l : LateRequest} (h : inForm s) : inForm (s.performLate l) := by
  unfold State.performLate
  extract_lets +onlyGivenNames old reads s1 own
  have hs1 : inForm s1 := h.atomicWrite
  split
  · exact hs1.noteTag
  · exact hs1

theorem inForm.lateArrival {s : State} {l : LateRequest} (h : inForm s) : inForm (s.lateArrival l) := by
  unfold State.lateArrival
  extract_lets +onlyGivenNames _ s1 home
  have hs1 : inForm s1 := h.keep
  split
  · exact hs1
  · split
    · exact hs1.noteTag
    · split
      · exact hs1.performLate
      · extract_lets +onlyGivenNames ctx lnch go
        have hgo : ∀ s, inForm s → inForm (go s) := by
          intro _ h
          unfold go
          refine inForm.performLate ?_
          split
          · exact h
          · exact h.logRecord
        split
        · exact hgo _ hs1
        · exact hgo _ hs1.performed.offerHeld
        · exact h
        · exact hgo _ hs1.diverge

theorem inForm.execAtomicAtHome {s : State} {r : HomeRequest} (h : inForm s) : formKept (execAtomicAtHome r s) := by
  unfold Machine.execAtomicAtHome
  extract_lets +onlyGivenNames down
  split
  · split
    · split
      · exact h
      · exact h.arrival
    · split
      · exact h.lateArrival
      · exact h.arrival
  · exact h.peerAtomic
  · extract_lets +onlyGivenNames a
    exact h.tagAnswer.emit

theorem inForm.execHeldAtomicRelease {s : State} {k : Nat} (h : inForm s) : formKept (execHeldAtomicRelease k s) := by
  unfold Machine.execHeldAtomicRelease
  split
  · exact h.arrival
  · exact h

theorem inForm.execAwtConditionMet {s : State} {k : Nat} (h : inForm s) : formKept (execAwtConditionMet k s) := by
  unfold Machine.execAwtConditionMet
  split
  · exact h.peerWaitMet
  · split
    · exact h
    · split
      · split
        · split
          · exact h.takeTrap
          · split
            · exact h.performAtHome
            · exact h
        · exact h
      · exact h

theorem inForm.execRemoteAtomicTimeout {s : State} {k : Nat} (h : inForm s) : formKept (execRemoteAtomicTimeout k s) := by
  unfold Machine.execRemoteAtomicTimeout
  split
  · exact h
  · split
    · exact h
    · split
      · extract_lets +onlyGivenNames down since late
        split
        · extract_lets +onlyGivenNames s1
          have hs1 : inForm s1 := h.takeTrap
          split
          · exact hs1.rerelease
          · extract_lets +onlyGivenNames l
            exact hs1.keep.later
        · exact h
      · exact h

/-! ### Rows of engines and collectives -/

theorem inForm.engineWrite {s : State} {c : Machine.Command} {taint release : Bool} {direct : List Nat} {ws : List (Loc × Byte)} (h : inForm s) :
    inForm (s.engineWrite c taint release direct ws) := by
  unfold State.engineWrite
  extract_lets +onlyGivenNames glob spill carve w s1 sp keys
  have hs1 : inForm s1 := h.writeGlobal.writeCarve
  refine hs1.noteSram.foldl fun s x h => ?_
  split
  · exact h.updSlot
  · exact h

theorem inForm.engineStoreAs {s : State} {c : Machine.Command} {release : Bool} {space a : Nat} {r : List Byte × Bool} (h : inForm s) :
    formGiven id (s.engineStoreAs c release space a r) := formGiven.map fun _ => h.engineWrite

theorem inForm.engineStore {s : State} {c : Machine.Command} {space a : Nat} {r : List Byte × Bool} (h : inForm s) :
    formGiven id (s.engineStore c space a r) :=
  h.engineStoreAs

theorem inForm.engineMove {s : State} {c : Machine.Command} {ss a ds b n : Nat} (h : inForm s) :
    formGiven id (s.engineMove c ss a ds b n) := formGiven.after fun _ => h.engineStore

theorem inForm.rowIndex {s : State} {id : Nat} {c : Machine.Command} {i : Nat} (h : inForm s) : formGiven (·.2) (s.rowIndex id c i) := by
  unfold State.rowIndex
  split
  · exact h
  · refine formGiven.map fun x => ?_
    split
    · exact h.setCommand
    · exact h

theorem inForm.rowTarget {s : State} {id : Nat} {c : Machine.Command} {i : Nat} (h : inForm s) : formGiven (·.2) (s.rowTarget id c i) := by
  unfold State.rowTarget
  split
  · exact h
  · exact formGiven.map fun _ => h.setCommand

theorem inForm.copyPlan {s : State} {id : Nat} {c : Command} (h : inForm s) : formGiven (·.2) (s.copyPlan id c) := by
  unfold State.copyPlan
  extract_lets +onlyGivenNames len i off left sstr dstr step
  split
  · exact h
  · refine h.rowIndex.bind fun x hx => ?_
    split
    · exact h
    · exact hx
  · exact h.rowTarget.bind fun _ h => h
  · exact h
  · exact h
  · exact h

theorem inForm.copyPiece {s : State} {id : Nat} {c : Command} (h : inForm s) : formGiven (·.2) (s.copyPiece id c) := by
  unfold State.copyPiece
  refine h.copyPlan.bind fun p hp => ?_
  split
  · exact hp.engineMove.bind fun _ h => h
  · exact hp
  · exact h.engineStore.bind fun _ h => h
  · exact .after fun _ => h.setCommand

theorem inForm.pinAll {s : State} {c : Machine.Command} (h : inForm s) : formGiven id (s.pinAll c) := by
  unfold State.pinAll
  refine formGiven.after fun x => ?_
  extract_lets +onlyGivenNames die fresh _ _
  split
  · exact formGiven.after fun _ => h.keep
  · exact h.keep

theorem inForm.unpinAll {s : State} {c : Machine.Command} (h : inForm s) : formGiven id (s.unpinAll c) := by
  unfold State.unpinAll
  refine formGiven.after fun x => ?_
  extract_lets +onlyGivenNames die
  exact h.keep

theorem inForm.copyTail {s : State} {c : Command} (h : inForm s) : formGiven id (s.copyTail c) := by
  unfold State.copyTail
  split
  · dsimp only
    split
    · exact .after fun _ => h
    · exact h
  · exact .guard h.engineStoreAs
  · exact .guard h.engineStore
  · split
    · exact h.unpinAll
    · exact h.pinAll
  · exact h

theorem inForm.moveAll {s : State} {c : Command} {ss a ds b fuel n : Nat} (h : inForm s) : formGiven id (s.moveAll c ss a ds b fuel n) := by
  induction fuel generalizing s a b n with
  | zero => exact h
  | succ fuel ih =>
    unfold State.moveAll
    split
    · exact h
    · exact h.engineMove.bind fun _ h => ih h

theorem inForm.streamPiece {s : State} {c : Machine.Command} (h : inForm s) : formGiven id (s.streamPiece c) := by
  unfold State.streamPiece
  extract_lets +onlyGivenNames i esz
  refine formGiven.after fun x => ?_
  extract_lets +onlyGivenNames region space
  split <;> exact h.moveAll

theorem inForm.advanceCommand {s : State} {id p : Nat} (h : inForm s) : inForm (s.advanceCommand id p) := by
  unfold State.advanceCommand
  split
  · exact h
  · extract_lets +onlyGivenNames w s1
    have hs1 : inForm s1 := h.setCommand
    split
    · split
      · exact hs1.onBarrier
      · exact hs1
    · exact hs1

theorem inForm.subtractPiece {s : State} {id n : Nat} (h : inForm s) : inForm (s.subtractPiece id n) := by
  unfold State.subtractPiece
  split
  · exact h
  · extract_lets +onlyGivenNames s1
    have hs1 : inForm s1 := h.setCommand
    split
    · exact hs1.onBarrier
    · exact hs1

theorem inForm.failColls {s : State} {g : Nat} (h : inForm s) : inForm (s.failColls g) := by
  unfold State.failColls
  refine h.foldl fun s x h => ?_
  split
  · exact h.endCommand
  · exact h

theorem inForm.startRecovery {s : State} {g : Nat} (h : inForm s) : inForm (s.startRecovery g) := by
  unfold State.startRecovery
  extract_lets +onlyGivenNames x
  split
  · exact h
  · extract_lets +onlyGivenNames s1
    have hs1 : inForm s1 := h.setGroup.failColls
    refine hs1.foldl fun s x h => ?_
    split
    · exact h
    · exact h.emit

theorem inForm.stopCommand {s : State} {id : Nat} {c : Machine.Command} {x : EngineStop} (h : inForm s) : inForm (s.stopCommand id c x) := by
  unfold State.stopCommand
  split
  · extract_lets +onlyGivenNames s1
    have hs1 : inForm s1 := h.endCommand
    split
    · exact hs1.startRecovery
    · exact hs1
  · exact h.setCommand.newFault

theorem inForm.commandPiece {s : State} {id : Nat} {c : Machine.Command} (h : inForm s) : formSome (s.commandPiece id c) := by
  unfold State.commandPiece
  split
  · split
    · split
      · rename_i n s1 e
        have hs1 : inForm s1 := h.copyPiece.out e
        exact hs1.advanceCommand
      · exact h.stopCommand
    · exact trivial
  · split
    · split
      · rename_i s1 e
        have hs1 : inForm s1 := h.streamPiece.out e
        exact hs1.advanceCommand
      · exact h.stopCommand
    · exact trivial
  · exact trivial

theorem inForm.commandPieces {s : State} {id goal fuel : Nat} (h : inForm s) : inForm (s.commandPieces id goal fuel) := by
  induction fuel generalizing s with
  | zero => exact h
  | succ fuel ih =>
    unfold State.commandPieces
    split
    · exact h
    · split
      · split
        · rename_i e
          exact ih (h.commandPiece.out e)
        · exact h
      · exact h

theorem inForm.readAhead {s : State} {id : Nat} (h : inForm s) : inForm (s.readAhead id) := by
  unfold State.readAhead
  split
  · exact h
  · extract_lets +onlyGivenNames r bytes
    split
    · exact h
    · split
      · extract_lets +onlyGivenNames s1
        have hs1 : inForm s1 := h.keep
        exact hs1.setCommand
      · exact h

theorem inForm.collWrite {s : State} {c : Command} {first w : Nat} {l : List Nat} (h : inForm s) : formGiven id (s.collWrite c first w l) := by
  induction l generalizing s first with
  | nil => exact h
  | cons v l ih => exact h.engineStore.bind fun _ h => ih h

theorem inForm.collInput {s : State} {c0 : Machine.Command} {data : List Dword} (h : inForm s) : formGiven (·.1) (s.collInput c0 data) := by
  unfold State.collInput
  extract_lets +onlyGivenNames r w round ch inp c
  split
  · refine formGiven.after fun x => ?_
    extract_lets +onlyGivenNames z vals fl c c1
    split
    · exact h.collWrite.bind fun _ h => h
    · exact h
  · exact h.collWrite.bind fun _ h => h

theorem inForm.collSend {s : State} {id : Nat} {c : Machine.Command} {round : Nat} {own : List Nat} (h : inForm s) :
    inForm (s.collSend id c round own) := by
  unfold State.collSend
  extract_lets +onlyGivenNames r ch data peer
  exact h.toPeer

theorem inForm.collStart {s : State} {id : Nat} {c : Machine.Command} (h : inForm s) : inForm (s.collStart id c) := by
  unfold State.collStart
  split
  · exact h
  · split
    · exact h.endCommand
    · extract_lets +onlyGivenNames r ch
      split
      · exact h.stopCommand
      · extract_lets +onlyGivenNames c1
        split
        · split
          · exact h.stopCommand
          · rename_i s1 e
            have hs1 : inForm s1 := h.collWrite.out e
            exact hs1.setCommand.endCommand
        · exact h.setCommand.collSend

theorem inForm.awaitCuts {s : State} {ctx : Nat} (h : inForm s) : inForm (s.awaitCuts ctx) := h.keep

theorem inForm.takeMembership {s : State} {g e : Nat} {mbr : BitVec 256} (h : inForm s) : inForm (s.takeMembership g e mbr) := by
  unfold State.takeMembership
  extract_lets +onlyGivenNames x gone s1 s2 s3
  have hs1 : inForm s1 := h.setGroup
  have hs2 : inForm s2 := by
    unfold s2
    split
    · exact hs1.emit
    · exact hs1
  have hs3 : inForm s3 := hs2.report.emit
  exact hs3.awaitCuts.later

theorem inForm.writePieces {s : State} {c : Command} {taint : Bool} {l : List (Nat × List Loc)} {bs : List Byte} (h : inForm s) :
    inForm (s.writePieces c taint l bs) := by
  induction l generalizing s bs with
  | nil => exact h
  | cons p l ih => exact ih h.engineWrite

theorem inForm.sinkBytes {s : State} {c : Machine.Command} {taint : Bool} {els : List Nat} {bs : List Byte} (h : inForm s) :
    formGiven id (s.sinkBytes c taint els bs) := formGiven.map fun _ => h.writePieces

theorem inForm.streamToken {s : State} {id : Nat} {c : Machine.Command} {n : Nat} {x : Arc} (h : inForm s) : inForm (s.streamToken id c n x) := by
  unfold State.streamToken
  extract_lets +onlyGivenNames count els c1 c2
  split
  · split
    · exact h
    · split
      · exact h.setCommand.publish
      · exact h.stopCommand
  · split
    · exact h
    · split
      · rename_i s1 e
        have hs1 : inForm s1 := h.sinkBytes.out e
        exact hs1.setCommand.setArc
      · exact h.stopCommand

theorem inForm.takeRound {s : State} {cmd : Nat} {c : Machine.Command} {data : List Dword} (h : inForm s) : inForm (s.takeRound cmd c data) := by
  unfold State.takeRound
  extract_lets +onlyGivenNames r
  split
  · rename_i s1 c1 e
    have hs1 : inForm s1 := h.collInput.out e
    extract_lets +onlyGivenNames done s2
    have hs2 : inForm s2 := hs1.setCommand.subtractPiece
    split
    · exact hs2.collSend
    · exact hs2.later
  · extract_lets +onlyGivenNames c1
    exact h.setCommand.stopCommand

theorem inForm.collGo {s : State} {cmd : Nat} {c : Machine.Command} (h : inForm s) : inForm (s.collGo cmd c) := by
  unfold State.collGo
  split
  · extract_lets +onlyGivenNames c1
    split
    · exact h.setCommand.takeRound
    · exact h.setCommand
  · exact h.collStart

theorem inForm.execEnginePiecePerformed {s : State} {cmd bytes : Nat} (h : inForm s) : formKept (execEnginePiecePerformed cmd bytes s) := by
  unfold Machine.execEnginePiecePerformed
  split
  · split
    · exact h
    · split
      · exact h.collGo
      · split
        · exact h
        · extract_lets +onlyGivenNames left
          exact h.commandPieces
  · exact h

theorem inForm.execEngineCommandEnd {s : State} {cmd : Nat} (h : inForm s) : formKept (execEngineCommandEnd cmd s) := by
  unfold Machine.execEngineCommandEnd
  split
  · split
    · exact h
    · split
      · split
        · exact h
        · split
          · rename_i s1 e
            have hs1 : inForm s1 := h.copyTail.out e
            exact hs1.endCommand
          · exact h.stopCommand
      · split
        · exact h
        · exact h.endCommand
      · split
        · exact h.endCommand
        · exact h
  · exact h

theorem inForm.execStreamTokenPublish {s : State} {stream : Nat} (h : inForm s) : formKept (execStreamTokenPublish stream s) := by
  unfold Machine.execStreamTokenPublish
  split
  · split
    · split
      · exact h.streamToken.checkRunEnd
      · exact h
    · exact h
  · exact h

theorem inForm.execCollRoundInput {s : State} {cmd : Nat} {data : List Dword} (h : inForm s) : formKept (execCollRoundInput cmd data s) := by
  unfold Machine.execCollRoundInput
  split
  · split
    · exact h
    · split
      · exact h.setCommand
      · split
        · exact h.takeRound
        · exact h
  · exact h

theorem inForm.execRoundTimeout {s : State} {cmd : Nat} (h : inForm s) : formKept (execRoundTimeout cmd s) := by
  unfold Machine.execRoundTimeout
  split
  · split
    · exact h.endCommand.startRecovery
    · exact h
  · exact h

theorem inForm.execMembershipProbe {s : State} {group epoch starter : Nat} (h : inForm s) : formKept (execMembershipProbe group epoch starter s) := by
  unfold Machine.execMembershipProbe
  extract_lets +onlyGivenNames x
  split
  · exact h
  · split
    · exact h.emit
    · extract_lets +onlyGivenNames mine rec1
      exact h.setGroup.failColls.emit

theorem inForm.execProbeDeadline {s : State} {group : Nat} {answered : BitVec 256} (h : inForm s) :
    formKept (execProbeDeadline group answered s) := by
  unfold Machine.execProbeDeadline
  extract_lets +onlyGivenNames x
  split
  · split
    · exact h
    · extract_lets +onlyGivenNames mbr new s1
      have hs1 : inForm s1 := by
        unfold s1
        refine h.foldl fun s x h => ?_
        split
        · exact h
        · exact h.emit
      exact hs1.takeMembership
  · exact h

theorem inForm.execNewMembership {s : State} {group epoch : Nat} {mbr : BitVec 256} (h : inForm s) :
    formKept (execNewMembership group epoch mbr s) := by
  unfold Machine.execNewMembership
  extract_lets +onlyGivenNames x
  split
  · exact h
  · split
    · exact h.takeMembership
    · extract_lets +onlyGivenNames out
      exact h.setGroup.failColls

/-! ### Rows of tides -/

theorem inForm.writeSlice {s : State} {ctx va k dst : Nat} {seen : List Nat} {n : Nat} (h : inForm s) :
    formGiven id (s.writeSlice ctx va k dst seen n) := by
  induction n generalizing s va dst with
  | zero => exact h
  | succ n ih => exact .after fun _ => ih h.writeCarve

theorem inForm.writeSlices {s : State} {ctx layer src : Nat} {seen : List Nat} {l : List (Nat × Slot × LayerPos)} (h : inForm s) :
    formGiven id (s.writeSlices ctx layer src seen l) := by
  induction l generalizing s with
  | nil => exact h
  | cons x l ih => exact h.writeSlice.bind fun _ h => ih h

theorem inForm.failLayer {s : State} {ctx layer status : Nat} (h : inForm s) : inForm (s.failLayer ctx layer status) := by
  unfold State.failLayer
  extract_lets +onlyGivenNames key
  exact h.layerBits.setTide

theorem inForm.floodFault {s : State} {ctx layer va reason : Nat} {write : Bool} (h : inForm s) :
    inForm (s.floodFault ctx layer va reason write) := by
  unfold State.floodFault
  extract_lets +onlyGivenNames key
  exact h.setTide.newFault

theorem inForm.execFloodComplete {s : State} {ctx layer : Nat} (h : inForm s) : formKept (execFloodComplete ctx layer s) := by
  unfold Machine.execFloodComplete
  extract_lets +onlyGivenNames key
  split
  · exact h
  · extract_lets +onlyGivenNames again src seen
    split
    · rename_i s1 e
      have hs1 : inForm s1 := h.writeSlices.out e
      extract_lets +onlyGivenNames t gen
      exact hs1.layerBits.setTide
    · split
      · exact h.floodFault
      · exact h.failLayer

theorem inForm.execFloodFail {s : State} {ctx layer status : Nat} (h : inForm s) : formKept (execFloodFail ctx layer status s) := by
  unfold Machine.execFloodFail
  extract_lets +onlyGivenNames t
  split
  · exact h.failLayer
  · exact h

theorem inForm.execEbbComplete {s : State} {ctx layer : Nat} (h : inForm s) : formKept (execEbbComplete ctx layer s) := by
  unfold Machine.execEbbComplete
  extract_lets +onlyGivenNames key t
  split
  · exact h
  · extract_lets +onlyGivenNames t1
    split
    · exact h.startFlood
    · exact h.setTide

/-! ### Rows of faults, invalidations and kills -/

theorem inForm.ignoreWrite {s : State} {bar2 : Bool} {off : Nat} (h : inForm s) : inForm (s.ignoreWrite bar2 off) := h.keep

theorem inForm.execFaultRecordPost {s : State} (h : inForm s) : formKept (execFaultRecordPost s) := by
  unfold Machine.execFaultRecordPost
  split
  · exact h
  · split
    · exact h
    · extract_lets +onlyGivenNames a s1 posted
      have hs1 : inForm s1 := h.writeDevice.emit
      exact hs1.keep

theorem inForm.answerTile {s : State} {k : Nat} {p : PageFault} {ok : Bool} (h : inForm s) : inForm (s.answerTile k p ok) := by
  unfold State.answerTile
  split
  · exact h
  · extract_lets +onlyGivenNames failed
    split
    · extract_lets +onlyGivenNames s1
      have hs1 : inForm s1 := h.updSlot
      split
      · split
        · exact hs1.soon
        · exact hs1.toPolicy
      · split
        · exact hs1
        · exact hs1.updSlot
    · split
      · split
        · exact h.setSlot
        · exact h
      · exact h

theorem inForm.answerCommand {s : State} {id : Nat} {p : PageFault} {ok : Bool} (h : inForm s) : inForm (s.answerCommand id p ok) := by
  unfold State.answerCommand
  split
  · exact h
  · split
    · exact h
    · extract_lets +onlyGivenNames s1
      have hs1 : inForm s1 := h.setCommand
      split
      · split
        · exact hs1.later
        · exact hs1.later.later
      · split
        · exact hs1.setCommand.report
        · exact hs1.endCommand

theorem inForm.stopQueue {s : State} {q unit status : Nat} (h : inForm s) : inForm (s.stopQueue q unit status) := by
  unfold State.stopQueue
  extract_lets +onlyGivenNames x
  exact h.setQueue

theorem inForm.noteLaunch {s : State} {q : Nat} (h : inForm s) : inForm (s.noteLaunch q) := by
  unfold State.noteLaunch
  extract_lets +onlyGivenNames x
  split <;> exact h.setQueue

theorem inForm.dropLaunch {s : State} {l : Launch} {status : Nat} (h : inForm s) : inForm (s.dropLaunch l status) := by
  unfold State.dropLaunch
  extract_lets +onlyGivenNames _ s1
  have hs1 : inForm s1 := h.keep.noteLaunch
  exact hs1.finishPacket.later

theorem inForm.settleFault {s : State} {p : PageFault} {ok : Bool} (h : inForm s) : inForm (s.settleFault p ok) := by
  unfold State.settleFault
  extract_lets +onlyGivenNames _ s1
  have hs1 : inForm s1 := h.keep
  split
  · exact hs1.answerTile
  · exact hs1.answerCommand
  · extract_lets +onlyGivenNames key t
    split
    · exact hs1
    · split
      · exact hs1.setTide.later
      · exact hs1.failLayer
  · extract_lets +onlyGivenNames x
    split
    · exact hs1
    · split
      · exact hs1.setQueue
      · exact hs1.stopQueue
  · extract_lets +onlyGivenNames x
    split
    · exact hs1
    · extract_lets +onlyGivenNames heard s2
      have hs2 : inForm s2 := hs1.setQueue
      split
      · exact hs2
      · exact hs2.finishPacket
  · split
    · exact hs1
    · split
      · exact hs1
      · split
        · extract_lets +onlyGivenNames go
          exact hs1.keep.later
        · exact hs1.dropLaunch

theorem inForm.answerFault {s : State} {token : Nat} {ok : Bool} (h : inForm s) : inForm (s.answerFault token ok) := by
  unfold State.answerFault
  split
  · exact h.ignoreWrite
  · exact h.settleFault

theorem inForm.execFaultServed {s : State} {token : Nat} (h : inForm s) : formKept (execFaultServed token s) := by
  unfold Machine.execFaultServed
  split
  · exact h.answerFault
  · exact h

theorem inForm.execFaultFail {s : State} {token : Nat} (h : inForm s) : formKept (execFaultFail token s) := by
  unfold Machine.execFaultFail
  split
  · exact h.answerFault
  · exact h

theorem inForm.cacheAts {s : State} {p : PageFault} {frame : Nat} (h : inForm s) : inForm (s.cacheAts p frame) := by
  unfold State.cacheAts
  split
  · split
    · exact h.keep
    · exact h
  · exact h

theorem inForm.execPageRequestResponse {s : State} {id : Nat} {frame : Option Nat} (h : inForm s) :
    formKept (execPageRequestResponse id frame s) := by
  unfold Machine.execPageRequestResponse
  split
  · exact h
  · split
    · split
      · exact h.cacheAts.settleFault
      · exact h
    · exact h.settleFault

theorem inForm.completeAts {s : State} (h : inForm s) : inForm s.completeAts := by
  unfold State.completeAts
  extract_lets +onlyGivenNames done
  exact h.keep.foldl fun _ _ h => h.emit

theorem inForm.execAtsInvalidation {s : State} {pa log : Nat} (h : inForm s) : formKept (execAtsInvalidation pa log s) := by
  unfold Machine.execAtsInvalidation
  extract_lets +onlyGivenNames hit
  exact h.keep.completeAts

theorem inForm.setPort {s : State} {p : Nat} {x : MmuPort} (h : inForm s) : inForm (s.setPort p x) := h.keep

theorem inForm.beginMigration {s : State} {p ctx vpg g : Nat} {x : MmuPort} (h : inForm s) : inForm (s.beginMigration p ctx vpg g x) := by
  unfold State.beginMigration
  split
  · exact h.setPort
  · split
    · exact h.setPort
    · extract_lets +onlyGivenNames f
      split
      · exact h.setPort
      · extract_lets +onlyGivenNames s1
        have hs1 : inForm s1 := h.setPort
        exact hs1.keep

theorem inForm.mmuCommand {s : State} {p : Nat} {v : Dword} (h : inForm s) : inForm (s.mmuCommand p v) := by
  unfold State.mmuCommand
  extract_lets +onlyGivenNames x op log
  split
  · exact h.ignoreWrite
  · extract_lets +onlyGivenNames vpg x1
    split
    · exact h.setPort.beginInvalidation
    · exact h.beginMigration

theorem inForm.execMmuInvalidate {s : State} {port : Nat} {value : Dword} (h : inForm s) : formKept (execMmuInvalidate port value s) := by
  unfold Machine.execMmuInvalidate
  split
  · exact h.mmuCommand
  · exact h

theorem inForm.execMmuMigrate {s : State} {port : Nat} {value : Dword} (h : inForm s) : formKept (execMmuMigrate port value s) := by
  unfold Machine.execMmuMigrate
  split
  · exact h.mmuCommand
  · exact h

theorem inForm.endPort {s : State} {p : Nat} (h : inForm s) : inForm (s.endPort p) := by
  unfold State.endPort
  extract_lets +onlyGivenNames x s1
  have hs1 : inForm s1 := h.setPort
  split
  · extract_lets +onlyGivenNames key rest
    exact hs1.keep
  · exact hs1

theorem inForm.execInvalidationComplete {s : State} {id : Nat} (h : inForm s) : formKept (execInvalidationComplete id s) := by
  unfold Machine.execInvalidationComplete
  split
  · exact h
  · split
    · exact h
    · extract_lets +onlyGivenNames _ _ s1
      have hs1 : inForm s1 := h.keep
      split
      · exact hs1.endPort
      · exact hs1

theorem inForm.copyLine {s : State} {a b : Nat} (h : inForm s) : inForm (s.copyLine a b) := by
  unfold State.copyLine
  generalize List.range 64 = l
  exact h.putMem rfl

theorem inForm.copyNext {s : State} {port : Nat} (h : inForm s) : inForm (s.copyNext port) := by
  unfold State.copyNext
  extract_lets +onlyGivenNames x
  split
  · exact h.copyLine.setPort
  · exact h

theorem inForm.execMigrationCopyComplete {s : State} {port : Nat} (h : inForm s) : formKept (execMigrationCopyComplete port s) := by
  unfold Machine.execMigrationCopyComplete
  extract_lets +onlyGivenNames x
  split
  · split
    · extract_lets +onlyGivenNames leaf
      exact h.writeDevice.beginInvalidation
    · exact h.beginInvalidation
  · exact h

theorem inForm.execSettleWindowEnd {s : State} {ctx vpg : Nat} (h : inForm s) : formKept (execSettleWindowEnd ctx vpg s) := h.keep

theorem inForm.endFetching {s : State} {q : Nat} (h : inForm s) : inForm (s.endFetching q) := by
  unfold State.endFetching
  extract_lets +onlyGivenNames x
  split
  · exact h.setQueue.later
  · exact h

theorem inForm.endSlot {s : State} {k : Nat} (h : inForm s) : inForm (s.endSlot k) := h.dropFiring.updSlot

theorem inForm.dropDirty {s : State} {cove : Nat} (h : inForm s) : inForm (s.dropDirty cove) := h.putMem rfl

theorem inForm.cancelWork {s : State} {cove : Nat} {ctxs : List Nat} (h : inForm s) : inForm (s.cancelWork cove ctxs) := by
  unfold State.cancelWork
  extract_lets +onlyGivenNames s1 stop
  have hs1 : inForm s1 := h.cancelCommands.dropDirty
  exact hs1.keep

theorem inForm.openCommit {s : State} {k : Nat} (h : inForm s) : inForm (s.openCommit k) := by
  unfold State.openCommit
  split
  · exact h
  · extract_lets +onlyGivenNames _ s1
    have hs1 : inForm s1 := h.keep
    exact hs1.writeGlobal

theorem inForm.startKill {s : State} {cove : Nat} {packets : List (Nat × Nat)} (h : inForm s) : inForm (s.startKill cove packets) := by
  unfold State.startKill
  split
  · exact h.keep
  · extract_lets +onlyGivenNames ctxs gen s1 s2 s3 s4 under _ s5 s6
    have hs1 : inForm s1 := h.foldl fun _ _ h => h.setCtx
    have hs2 : inForm s2 := hs1.foldl fun _ _ h => h.endFetching
    have hs3 : inForm s3 := hs2.foldl fun _ _ h => h.endSlot
    have hs4 : inForm s4 := hs3.cancelWork
    have hs5 : inForm s5 := hs4.keep
    have hs6 : inForm s6 := hs5.foldl fun _ _ h => h.foldl fun _ _ h => h.toPeer
    exact hs6.foldl fun _ _ h => h.later

theorem inForm.discardHeld {s : State} {drop : Path → Nat × Nat × Nat × Byte → Bool} (h : inForm s) : inForm (s.discardHeld drop) :=
  h.putMem rfl

theorem inForm.dropHeld {s : State} {home cove gen : Nat} (h : inForm s) : inForm (s.dropHeld home cove gen) := h.discardHeld

theorem inForm.execHomeGenerationUpdate {s : State} {home cove : Nat} (h : inForm s) : formKept (execHomeGenerationUpdate home cove s) := by
  unfold Machine.execHomeGenerationUpdate
  split
  · exact h
  · split
    · exact h
    · extract_lets +onlyGivenNames mark s0 _ s1
      have hs0 : inForm s0 := h.dropHeld
      have hs1 : inForm s1 := hs0.keep
      split
      · exact hs1.later
      · exact hs1

theorem inForm.execKillComplete {s : State} {cove : Nat} (h : inForm s) : formKept (execKillComplete cove s) := by
  unfold Machine.execKillComplete
  split
  · exact h
  · split
    · exact h
    · extract_lets +onlyGivenNames ctxs s1 s2 s3 s4 rest waits s5
      have hs1 : inForm s1 := h.foldl fun _ _ h => h.setCtx.endLog
      have hs2 : inForm s2 := hs1.foldl fun _ _ h => h.endRun
      have hs3 : inForm s3 := hs2.foldl fun _ _ h => h.dropLaunch
      have hs4 : inForm s4 := hs3.foldl fun _ _ h => h.finishPacket
      have hs5 : inForm s5 := hs4.foldl fun _ _ h => h.emit
      exact hs5.keep

theorem inForm.execPeerKillMessage {s : State} {pkg cove ctx gen : Nat} (h : inForm s) : formKept (execPeerKillMessage pkg cove ctx gen s) := by
  unfold Machine.execPeerKillMessage
  extract_lets +onlyGivenNames homes hit t mark saved
  exact h.keep

/-! ### Placement -/

theorem inForm.writeRun {s : State} {tile base : Nat} {code : List Dword} (h : inForm s) : inForm (s.writeRun tile base code) := by
  unfold State.writeRun
  extract_lets +onlyGivenNames s1
  have hs1 : inForm s1 := h.keep
  split
  · exact hs1.keep
  · exact hs1

theorem inForm.giveSection {s : State} {cfg : Nat} {ps : List Planned} {l : Launch} (h : inForm s) : inForm (s.giveSection cfg ps l) := by
  unfold State.giveSection
  extract_lets +onlyGivenNames c part need
  split
  · exact h
  · split
    · exact h.setCtx.updCfg.writeSection
    · exact h.report

theorem inForm.declareLayers {s : State} {l : Launch} {cfg : Nat} (h : inForm s) : inForm (s.declareLayers l cfg) := by
  unfold State.declareLayers
  refine h.foldl fun s x h => ?_
  extract_lets +onlyGivenNames key t
  split
  · refine inForm.setTide ?_
    split
    · exact h.layerBits
    · exact h
  · exact h.setTide

theorem inForm.fillLayers {s : State} {ctx : Nat} {layers : List Nat} (h : inForm s) : inForm (s.fillLayers ctx layers) := by
  unfold State.fillLayers
  refine h.foldl fun s x h => ?_
  extract_lets +onlyGivenNames key t
  split
  · exact h.later
  · exact h.setTide.later
  · exact h.layerBits
  · exact h

theorem inForm.clearCarve {s : State} {k : Nat} (h : inForm s) : inForm (s.clearCarve k) := h.filterSram rfl

theorem inForm.build {s : State} {l : Launch} {cfg x0 y0 : Nat} (h : inForm s) : inForm (s.build l cfg x0 y0) := by
  unfold State.build
  extract_lets +onlyGivenNames im ps b slot s1 arc s2 s3 start s4
  have hslot : ∀ s p, inForm s → inForm (slot s p) := by
    intro _ _ h
    unfold slot
    extract_lets +onlyGivenNames sl
    exact h.clearCarve.setSlot.writeRun
  have hs1 : inForm s1 := h.keep.foldl fun _ _ h => hslot _ _ h
  have harc : ∀ s a, inForm s → inForm (arc s a) := by
    intro _ _ h
    unfold arc
    extract_lets +onlyGivenNames s1
    have hs1 : inForm s1 := h.setArc
    split
    · split
      · exact hs1
      · exact hs1.writeTokens
    · exact hs1
  have hs2 : inForm s2 := hs1.foldl fun _ _ h => harc _ _ h
  have hs3 : inForm s3 := hs2.foldl fun _ _ h => h.setRegion
  have hstart : ∀ s c, inForm s → inForm (start s c) := fun _ _ h => h.keep.setCommand.later
  have hs4 : inForm s4 := hs3.foldl fun _ _ h => hstart _ _ h
  refine hs4.foldl fun s x h => ?_
  split
  · exact h
  · exact h.later

theorem inForm.place {s : State} {l : Launch} {x0 y0 : Nat} (h : inForm s) : inForm (s.place l x0 y0) := by
  unfold State.place
  extract_lets +onlyGivenNames ps cfg c _ s1 s2 s3
  have hs1 : inForm s1 := h.keep
  have hs2 : inForm s2 := hs1.declareLayers.build.fillLayers
  have hs3 : inForm s3 := hs2.noteRuns
  exact hs3.holdLevel.giveSection.checkRunEnd

theorem inForm.rekey {s : State} {ren : List (Nat × Nat)} (h : inForm s) : inForm (s.rekey ren) := by
  unfold State.rekey
  extract_lets +onlyGivenNames r arc cmd flt cln cfg windows event
  exact h.keep

theorem inForm.fillCarve {s : State} {k : Nat} {bs : Tab Byte} {bad : List Nat} (h : inForm s) : inForm (s.fillCarve k bs bad) :=
  h.putSram rfl

theorem inForm.freeCore {s : State} {k : Nat} (h : inForm s) : inForm (s.freeCore k) := by
  unfold State.freeCore
  extract_lets +onlyGivenNames t
  split
  · exact h.setTile
  · exact h

theorem inForm.seat {s : State} {k : Nat} {sl : Slot} (h : inForm s) : inForm (s.seat k sl) := by
  unfold State.seat
  extract_lets +onlyGivenNames halted _ _ sl1
  exact h.setSlot.writeRun

theorem inForm.deliverParked {s : State} {cfg : Nat} (h : inForm s) : inForm (s.deliverParked cfg) := by
  unfold State.deliverParked
  refine h.foldl fun s x h => ?_
  split
  · extract_lets +onlyGivenNames s1
    have hs1 : inForm s1 := by
      unfold s1
      split
      · exact h
      · exact h.later
    split
    · exact hs1
    · exact hs1.later
  · exact h

theorem inForm.stopFirings {s : State} {cfg : Nat} (h : inForm s) : inForm (s.stopFirings cfg) := by
  unfold State.stopFirings
  refine h.foldl fun s x h => ?_
  split
  · split
    · exact h.dropFiring.updSlot
    · exact h.dropFiring
  · exact h

theorem inForm.beginStop {s : State} {cfg : Nat} {st : CfgState} (h : inForm s) : inForm (s.beginStop cfg st) := by
  unfold State.beginStop
  extract_lets +onlyGivenNames s1
  have hs1 : inForm s1 := h.updCfg.stopFirings
  split
  · refine hs1.foldl fun s x h => ?_
    split
    · exact h.retireClones
    · exact h
  · exact hs1

theorem inForm.releaseLayers {s : State} {cfg ctx : Nat} {layers : List Nat} (h : inForm s) : inForm (s.releaseLayers cfg ctx layers) := by
  unfold State.releaseLayers
  extract_lets +onlyGivenNames res s1
  have hs1 : inForm s1 := h.updCfg
  refine hs1.foldl fun s x h => ?_
  extract_lets +onlyGivenNames t others
  split
  · exact h
  · exact h.setTide

theorem inForm.swapOut {s : State} {cfg : Nat} (h : inForm s) : inForm (s.swapOut cfg) := by
  unfold State.swapOut
  split
  · exact h
  · extract_lets +onlyGivenNames mine ren layers save s1 s2 s3 s4 _ back
    have hs1 : inForm s1 := h.updCfg
    have hs2 : inForm s2 := hs1.foldl fun _ _ h => h.freeCore.clearCarve
    have hs3 : inForm s3 := hs2.keep
    have hs4 : inForm s4 := hs3.rekey.releaseLayers.updCfg
    exact hs4.keep.writeSection.later

theorem inForm.placeBack {s : State} {l : Launch} {cfg x0 y0 : Nat} (h : inForm s) : inForm (s.placeBack l cfg x0 y0) := by
  unfold State.placeBack
  split
  · exact h
  · extract_lets +onlyGivenNames mine keyOf slotOf ren put s1 s2 layers ecl gone s3 wake s4 s5 s6
    have hput : ∀ s v, inForm s → inForm (put s v) := by
      intro _ _ h
      unfold put
      extract_lets +onlyGivenNames k
      exact h.clearCarve.fillCarve.seat
    have hs1 : inForm s1 := h.rekey.foldl fun _ _ h => hput _ _ h
    have hs2 : inForm s2 := hs1.updCfg
    have hs3 : inForm s3 := hs2.foldl fun _ _ h => h.floodRequest
    have hwake : ∀ s c, inForm s → inForm (wake s c) := by
      intro _ _ h
      unfold wake
      split
      · split
        · exact h.later
        · exact h.later.later
      · exact h
    have hs4 : inForm s4 := hs3.fillLayers
    have hs5 : inForm s5 := ((hs4.foldl fun _ _ h => hwake _ _ h).deliverParked).writeSection
    have hs6 : inForm s6 := by
      unfold s6
      split
      · exact hs5
      · exact hs5.later
    split
    · exact hs6.updCfg.report
    · exact hs6

theorem inForm.relocate {s : State} (h : inForm s) : inForm s.relocate := by
  unfold State.relocate
  extract_lets +onlyGivenNames moving jobs ren kept s1 s2 s3
  have hs1 : inForm s1 := h.foldl fun _ _ h => h.freeCore.clearCarve
  have hs2 : inForm s2 := hs1.keep.rekey
  have hs3 : inForm s3 := hs2.foldl fun _ _ h => h.fillCarve.seat
  exact hs3.foldl fun _ _ h => h.updCfg

/-! ### Admission -/

theorem inForm.updLaunch {s : State} {key : Nat} {f : Launch → Launch} (h : inForm s) : inForm (s.updLaunch key f) := h.keep

theorem inForm.writeData {s : State} {l : Launch} {ds : List (Nat × List Byte)} (h : inForm s) : inForm (s.writeData l ds) := by
  induction ds generalizing s with
  | nil => exact h.updLaunch
  | cons d ds ih =>
    unfold State.writeData
    split
    · exact ih h.writeGlobal.updLaunch
    · exact h.updLaunch.newFault
    · exact h.dropLaunch

theorem inForm.loadAll {s : State} (h : inForm s) : inForm s.loadAll := by
  unfold State.loadAll
  refine h.foldl fun s x h => ?_
  split
  · exact h
  · exact h.writeData

theorem inForm.markLate {s : State} {l : Launch} (h : inForm s) : inForm (s.markLate l) := h.updLaunch.report.later

theorem inForm.logAdmission {s : State} {l : Launch} (h : inForm s) : inForm (s.logAdmission l).1 := by
  unfold State.logAdmission
  split
  · exact h
  · extract_lets +onlyGivenNames subj
    split
    · exact h.diverge.report.logRecord
    · exact h.performed.logRecord
    · exact h.logRecord

theorem inForm.admitOne {s : State} {l : Launch} {o : Nat × Nat} (h : inForm s) : inForm (s.admitOne l o) := by
  unfold State.admitOne
  extract_lets +onlyGivenNames _ r s1
  have hs1 : inForm s1 := by
    unfold s1
    split
    · exact h.keep.logAdmission.placeBack
    · exact h.keep.logAdmission.place
  exact hs1.noteLaunch.later

theorem inForm.bypassed {s : State} {ls : List Launch} (h : inForm s) : inForm (s.bypassed ls) := h.foldl fun _ _ h => h.updLaunch.noteLaunch

theorem inForm.execCompaction {s : State} {moves : List (Nat × Nat)} (h : inForm s) : formKept (execCompaction moves s) := by
  unfold Machine.execCompaction
  split
  · exact h
  · split
    · exact h
    · exact h.foldl fun _ _ h => h.updCfg.beginStop.later

theorem inForm.execMoveComplete {s : State} {cfg : Nat} (h : inForm s) : formKept (execMoveComplete cfg s) := by
  unfold Machine.execMoveComplete
  split
  · split
    · exact h
    · extract_lets +onlyGivenNames s1
      have hs1 : inForm s1 := by
        unfold s1
        split
        · exact h.relocate
        · exact h
      exact hs1.updCfg.deliverParked.later
  · exact h

theorem inForm.beginSwapOuts {s : State} {l : List Nat} (h : inForm s) : inForm (s.beginSwapOuts l) := h.foldl fun _ _ h => h.beginStop.later

theorem inForm.execSwapOut {s : State} {cfg : Nat} (h : inForm s) : formKept (execSwapOut cfg s) := by
  unfold Machine.execSwapOut
  split
  · split
    · exact h
    · exact h.swapOut
  · exact h

theorem inForm.clearPagesOf {s : State} {pages : List Nat} (h : inForm s) : inForm (s.clearPagesOf pages) := by
  unfold State.clearPagesOf
  refine h.foldl fun s x h => ?_
  split
  · exact h.removeClones
  · exact h

theorem inForm.clearFor {s : State} {l : Launch} {o : Nat × Nat} (h : inForm s) : inForm (s.clearFor l o) := by
  unfold State.clearFor
  extract_lets +onlyGivenNames pages mine near
  exact h.clearPagesOf

theorem inForm.makeRoom {s : State} {first : Bool} {l : Launch} (h : inForm s) : formSome (s.makeRoom first l) := by
  unfold State.makeRoom
  split
  · exact h.clearFor
  · split
    · split
      · exact h.clearPagesOf
      · exact h.later
    · extract_lets +onlyGivenNames forced idle out
      split
      · exact trivial
      · split
        · exact h.beginSwapOuts
        · exact .map fun _ => h.clearFor

theorem inForm.consider {s : State} {first : Bool} {unfit ls : List Launch} (h : inForm s) : inForm (s.consider first unfit ls) := by
  induction ls generalizing s first unfit with
  | nil => exact h
  | cons l rest ih =>
    unfold State.consider
    extract_lets +onlyGivenNames low blocks
    split
    · split
      · exact h.markLate
      · split
        · exact h.bypassed.admitOne
        · split
          · exact h
          · exact ih h
    · extract_lets +onlyGivenNames s1 unfit1
      have hs1 : inForm s1 := h.makeRoom.getD h
      split
      · exact hs1
      · exact ih hs1

theorem inForm.execAdmission {s : State} (h : inForm s) : formKept (execAdmission s) := by
  unfold Machine.execAdmission
  split
  · exact h
  · dsimp only
    split
    · exact h.loadAll.keep
    · exact h.loadAll.keep.consider

theorem inForm.execDeadlineExpiry {s : State} {cfg : Nat} (h : inForm s) : formKept (execDeadlineExpiry cfg s) := by
  unfold Machine.execDeadlineExpiry
  split
  · extract_lets +onlyGivenNames l
    split
    · exact h
    · split
      · exact h.endRun
      · exact h.updCfg.report
  · exact h

theorem inForm.addClone {s : State} {set : CloneSet} {sl : Slot} {k st : Nat} (h : inForm s) : inForm (s.addClone set sl k st) := by
  unfold State.addClone
  extract_lets +onlyGivenNames o wt bad run _ _ _ new s1 c1
  have hs1 : inForm s1 := h.clearCarve.fillCarve.setSlot.writeRun
  exact hs1.resplit.logClone

theorem inForm.loggedClone {s : State} {k : Nat} {sl : Slot} {set : CloneSet} (h : inForm s) : inForm (s.loggedClone k sl set) := by
  unfold State.loggedClone
  extract_lets +onlyGivenNames lnch site gone
  have hgone : inForm gone := h.diverge.report
  split
  · exact h
  · extract_lets +onlyGivenNames st next
    have hnext : inForm next := h.performed
    split
    · exact hgone
    · split
      · exact h
      · split
        · split
          · exact hnext.addClone
          · exact hgone
        · exact hnext.removeCloneAt

theorem inForm.growSet {s : State} {set : CloneSet} {sl : Slot} (h : inForm s) : inForm (s.growSet set sl) := by
  unfold State.growSet
  split
  · split
    · exact h.addClone
    · exact h
  · exact h

theorem inForm.endWindow {s : State} {k : Nat} {sl : Slot} {act hotNow coldNow : Bool} (h : inForm s) :
    inForm (s.endWindow k sl act hotNow coldNow) := by
  unfold State.endWindow
  extract_lets +onlyGivenNames set hot cold set1 s1
  have hs1 : inForm s1 := h.setCloneSet
  split
  · exact hs1
  · split
    · exact hs1.growSet
    · split
      · exact hs1.removeCloneAt
      · exact hs1

theorem inForm.rebalance {s : State} {k : Nat} (h : inForm s) : inForm (s.rebalance k) := by
  unfold State.rebalance
  split
  · exact h
  · split
    · split
      · extract_lets +onlyGivenNames _ s1
        have hs1 : inForm s1 := h.keep
        exact hs1.endWindow
      · split
        · exact h.loggedClone
        · exact h
    · split
      · exact h.loggedClone
      · exact h

theorem inForm.hostClone {s : State} {k : Nat} (h : inForm s) : inForm (s.hostClone k) := by
  unfold State.hostClone
  split
  · exact h
  · extract_lets +onlyGivenNames set
    split
    · exact h.report
    · split
      · exact h.setCloneSet
      · split
        · exact h.growSet
        · exact h

theorem inForm.execRebalancerWindow {s : State} {k : Nat} {host : Bool} (h : inForm s) : formKept (execRebalancerWindow k host s) := by
  unfold Machine.execRebalancerWindow
  split
  · exact h.rebalance
  · split
    · exact h
    · exact h.hostClone

/-! ### Rows of queues -/

theorem inForm.ctxWrite {s : State} {ctx va : Nat} {bs : List Byte} (h : inForm s) :
    formGiven id (s.ctxWrite ctx va bs) := formGiven.map fun _ => h.writeGlobal

theorem inForm.updPacket {s : State} {q n : Nat} {f : Packet → Packet} (h : inForm s) : inForm (s.updPacket q n f) := by
  unfold State.updPacket
  extract_lets +onlyGivenNames x
  exact h.setQueue

theorem inForm.dispatched {s : State} {q n : Nat} (h : inForm s) : inForm (s.dispatched q n) := h.updPacket

theorem inForm.finishNow {s : State} {q n status : Nat} (h : inForm s) : inForm (s.finishNow q n status) := h.dispatched.finishPacket

theorem inForm.operandFault {s : State} {q : Nat} {p : Packet} {x : Stop} (h : inForm s) : inForm (s.operandFault q p x) := by
  unfold State.operandFault
  split
  · split
    · exact h.updPacket.newFault
    · exact h.newFault.finishNow
  · exact h.finishNow

theorem inForm.dropGens {s : State} {ctx list : Nat} (h : inForm s) : inForm (s.dropGens ctx list) := by
  unfold State.dropGens
  extract_lets +onlyGivenNames key
  split
  · exact h.keep
  · exact h

theorem inForm.checkReplay {s : State} {q : Nat} (h : inForm s) : inForm (s.checkReplay q) := by
  unfold State.checkReplay
  extract_lets +onlyGivenNames x
  split
  · split
    · extract_lets +onlyGivenNames list
      exact h.setQueue.dropGens.finishNow
    · exact h
  · exact h

theorem inForm.checkFence {s : State} {q : Nat} (h : inForm s) : inForm (s.checkFence q) := by
  unfold State.checkFence
  split
  · split
    · exact h.finishPacket
    · exact h
  · exact h

theorem inForm.execPacketCompletion {s : State} {q n : Nat} (h : inForm s) : formKept (execPacketCompletion q n s) := by
  unfold Machine.execPacketCompletion
  split
  · exact h
  · split
    · exact h
    · extract_lets +onlyGivenNames x rec' lost wrote
      have hlost : inForm lost := h.report
      have hwrote : formGiven id wrote := by
        unfold wrote
        split
        · exact h
        · split
          · exact hlost
          · exact h.ctxWrite
      clear_value wrote
      split
      · split
        · exact h
        · exact h.updPacket.newFault
      · extract_lets +onlyGivenNames s1 s2 node s3 s4
        have hs1 : inForm s1 := by
          unfold s1
          split
          · exact hwrote
          · exact hlost.newFault
          · exact hlost
        have hs2 : inForm s2 := by
          unfold s2
          split
          · exact hs1.emit
          · exact hs1
        have hs4 : inForm s4 := hs2.setQueue.checkReplay.checkFence
        split
        · exact hs4.later
        · exact hs4

theorem inForm.enableQueue {s : State} {q : Nat} (h : inForm s) : inForm (s.enableQueue q) := by
  unfold State.enableQueue
  extract_lets +onlyGivenNames x
  split
  · exact h
  · split
    · exact h.setQueue
    · exact h.ignoreWrite

theorem inForm.execQueueEnable {s : State} {q : Nat} (h : inForm s) : formKept (execQueueEnable q s) := by
  unfold Machine.execQueueEnable
  split
  · exact h.enableQueue
  · exact h

theorem inForm.execQueueStop {s : State} {q : Nat} (h : inForm s) : formKept (execQueueStop q s) := by
  unfold Machine.execQueueStop
  split
  · exact h.endFetching
  · exact h

theorem inForm.execQueueStopComplete {s : State} {q : Nat} (h : inForm s) : formKept (execQueueStopComplete q s) := by
  unfold Machine.execQueueStopComplete
  extract_lets +onlyGivenNames x
  split
  · exact h.setQueue
  · exact h

theorem inForm.discard {s : State} (h : inForm s) : inForm s.discard := h.keep

theorem inForm.applyTail {s : State} {q : Nat} {v : Dword} {count : Bool} (h : inForm s) : inForm (s.applyTail q v count) := by
  unfold State.applyTail
  extract_lets +onlyGivenNames x seq tail d
  split
  · split
    · exact h.discard
    · exact h
  · split
    · exact h.stopQueue
    · exact h.setQueue

theorem inForm.tailWrite {s : State} {fn off size : Nat} {v : Dword} (h : inForm s) : inForm (s.tailWrite fn off size v) := by
  unfold State.tailWrite
  extract_lets +onlyGivenNames q x
  split
  · exact h.discard
  · exact h.applyTail

theorem inForm.execTailWrite {s : State} {fn off size : Nat} {value : Dword} (h : inForm s) : formKept (execTailWrite fn off size value s) := by
  unfold Machine.execTailWrite
  split
  · split
    · exact h.keep.later
    · exact h.keep
  · exact h.tailWrite

theorem inForm.reconcile {s : State} (h : inForm s) : inForm s.reconcile := by
  unfold State.reconcile
  refine h.foldl fun s x h => ?_
  split
  · exact h
  · split
    · extract_lets +onlyGivenNames v
      split
      · exact h.applyTail
      · exact h
    · exact h.newFault
    · exact h

theorem inForm.execReconcilePass {s : State} (h : inForm s) : formKept (execReconcilePass s) := h.reconcile

theorem inForm.execCaptureQueueDrain {s : State} (h : inForm s) : formKept (execCaptureQueueDrain s) := by
  unfold Machine.execCaptureQueueDrain
  split
  · exact h
  · extract_lets +onlyGivenNames _ s1 s2
    have hs1 : inForm s1 := h.keep
    have hs2 : inForm s2 := hs1.foldl fun _ _ h => h.tailWrite
    split
    · exact hs2.reconcile
    · exact hs2

theorem inForm.execSliceExpiry {s : State} (h : inForm s) : formKept (execSliceExpiry s) := by
  unfold Machine.execSliceExpiry
  split
  · exact h
  · split <;> exact h.keep

theorem inForm.fetchFault {s : State} {q : Nat} {x : Queue} {u : Nat} {xx4 : Stop} (h : inForm s) : inForm (s.fetchFault q x u xx4) := by
  unfold State.fetchFault
  split
  · exact h.setQueue.newFault
  · exact h.stopQueue

theorem inForm.resumeQueue {s : State} {q : Nat} (h : inForm s) : inForm (s.resumeQueue q) := by
  unfold State.resumeQueue
  extract_lets +onlyGivenNames x
  split
  · exact h.setQueue
  · exact h

theorem inForm.execQueueResume {s : State} {q : Nat} (h : inForm s) : formKept (execQueueResume q s) := by
  unfold Machine.execQueueResume
  split
  · exact h.resumeQueue
  · exact h

theorem inForm.execPacketFetch {s : State} {q : Nat} (h : inForm s) : formKept (execPacketFetch q s) := by
  unfold Machine.execPacketFetch
  extract_lets +onlyGivenNames x avail
  split
  · exact h
  · split
    · exact h.fetchFault
    · extract_lets +onlyGivenNames n
      split
      · exact h
      · split
        · exact h.fetchFault
        · extract_lets +onlyGivenNames p s1
          have hs1 : inForm s1 := h.setQueue
          split
          · exact hs1.stopQueue.finishNow
          · exact hs1

theorem inForm.reportRates {s : State} {im : Image} (h : inForm s) : inForm (s.reportRates im) := by
  unfold State.reportRates
  split
  · exact h.report
  · exact h

theorem inForm.pairLaunch {s : State} {ctx ordinal detl : Nat} (h : inForm s) : inForm (s.pairLaunch ctx ordinal detl) := by
  unfold State.pairLaunch
  extract_lets +onlyGivenNames c
  split
  · split
    · exact h.setCtx
    · exact h
  · exact h

theorem inForm.launchImage {s : State} {q : Nat} {p : Packet} {slaunch : Bool} {im : Image} (h : inForm s) :
    inForm (s.launchImage q p slaunch im) := by
  unfold State.launchImage
  extract_lets +onlyGivenNames ctx fl own lvl ecl detl
  split
  · exact h.reportRates.finishNow
  · extract_lets +onlyGivenNames c d l s1 run known _ s2
    have hs1 : inForm s1 := h.setCtx
    have hs2 : inForm s2 := hs1.keep
    exact hs2.pairLaunch.noteLaunch.dispatched.later

theorem inForm.launchPacket {s : State} {q : Nat} {p : Packet} {slaunch : Bool} (h : inForm s) : inForm (s.launchPacket q p slaunch) := by
  unfold State.launchPacket
  split
  · exact h.operandFault
  · exact h.finishNow
  · exact h.launchImage

theorem inForm.execLaunch {s : State} {q : Nat} (h : inForm s) : formKept (execLaunch q s) := by
  unfold Machine.execLaunch
  split
  · exact h.launchPacket
  · exact h

theorem inForm.execSlaunch {s : State} {q : Nat} (h : inForm s) : formKept (execSlaunch q s) := by
  unfold Machine.execSlaunch
  split
  · exact h.launchPacket
  · exact h

theorem inForm.wrsigPacket {s : State} {q : Nat} {p : Packet} (h : inForm s) : inForm (s.wrsigPacket q p) := by
  unfold State.wrsigPacket
  extract_lets +onlyGivenNames ctx
  split
  · exact h
  · split
    · rename_i s1 e
      have hs1 : inForm s1 := h.ctxWrite.out e
      exact hs1.postEvent.finishNow
    · exact h.operandFault

theorem inForm.execWrsig {s : State} {q : Nat} (h : inForm s) : formKept (execWrsig q s) := by
  unfold Machine.execWrsig
  split
  · exact h.wrsigPacket
  · exact h

theorem inForm.waitPacket {s : State} {q : Nat} {p : Packet} (h : inForm s) : inForm (s.waitPacket q p) := by
  unfold State.waitPacket
  split
  · exact h.operandFault
  · split
    · exact h.finishNow
    · exact h.updPacket

theorem inForm.execWait {s : State} {q : Nat} (h : inForm s) : formKept (execWait q s) := by
  unfold Machine.execWait
  split
  · split
    · exact h
    · exact h.waitPacket
  · exact h

theorem inForm.execWaitTimeout {s : State} {q : Nat} (h : inForm s) : formKept (execWaitTimeout q s) := by
  unfold Machine.execWaitTimeout
  split
  · split
    · exact h.finishNow
    · exact h
  · exact h

theorem inForm.fencePacket {s : State} {q : Nat} {p : Packet} (h : inForm s) : inForm (s.fencePacket q p) := h.dispatched.checkFence

theorem inForm.execFencePacket {s : State} {q : Nat} (h : inForm s) : formKept (execFencePacket q s) := by
  unfold Machine.execFencePacket
  split
  · exact h.fencePacket
  · exact h

theorem inForm.floodhPacket {s : State} {q : Nat} {p : Packet} (h : inForm s) : inForm (s.floodhPacket q p) := by
  unfold State.floodhPacket
  extract_lets +onlyGivenNames ctx layer described
  split
  · exact h.floodRequest.finishNow
  · exact h.finishNow

theorem inForm.execFloodh {s : State} {q : Nat} (h : inForm s) : formKept (execFloodh q s) := by
  unfold Machine.execFloodh
  split
  · exact h.floodhPacket
  · exact h

theorem inForm.killPacket {s : State} {q : Nat} {p : Packet} (h : inForm s) : inForm (s.killPacket q p) := by
  unfold State.killPacket
  extract_lets +onlyGivenNames ctx n s1
  have hs1 : inForm s1 := h.dispatched
  split
  · split
    · exact hs1.finishPacket
    · exact hs1.startKill
  · split
    · exact hs1.endRun.finishPacket
    · split
      · exact hs1.dropLaunch.finishPacket
      · exact hs1.finishPacket

theorem inForm.execKill {s : State} {q : Nat} (h : inForm s) : formKept (execKill q s) := by
  unfold Machine.execKill
  split
  · exact h.killPacket
  · exact h

theorem inForm.levelLone {s : State} {level : Nat} {ks : Nat × Slot} (h : inForm s) : inForm (s.levelLone level ks) := by
  unfold State.levelLone
  split
  · split
    · extract_lets +onlyGivenNames s1
      have hs1 : inForm s1 := h.updSlot
      split
      · exact hs1.removeClones
      · exact hs1
    · exact h.updSlot
  · exact h.updSlot

theorem inForm.changeLone {s : State} {ctx level : Nat} (h : inForm s) : inForm (s.changeLone ctx level) := by
  unfold State.changeLone
  extract_lets +onlyGivenNames lone s1 held restart away ran cfgs
  have hs1 : inForm s1 := h.foldl fun _ _ h => h.levelLone
  exact hs1.keep.noteRuns

theorem inForm.changeLevel {s : State} {ctx level q n : Nat} (h : inForm s) : inForm (s.changeLevel ctx level q n) := by
  unfold State.changeLevel
  extract_lets +onlyGivenNames mine s1 s2
  have hs1 : inForm s1 := h.foldl fun _ _ h => h.setRegion.later
  have hs2 : inForm s2 := hs1.changeLone.logHeaders
  split
  · exact hs2.holdLevel.finishPacket
  · exact hs2

theorem inForm.detsetPacket {s : State} {q : Nat} {p : Packet} (h : inForm s) : inForm (s.detsetPacket q p) := by
  unfold State.detsetPacket
  extract_lets +onlyGivenNames ctx level src merges
  clear_value src
  split
  · exact h.operandFault
  · exact h.finishNow
  · split
    · exact h.finishNow
    · exact h.setCtx.dispatched.changeLevel

theorem inForm.execDetset {s : State} {q : Nat} (h : inForm s) : formKept (execDetset q s) := by
  unfold Machine.execDetset
  split
  · exact h.detsetPacket
  · exact h

theorem inForm.applyDelta {s : State} {k : Nat} {sl : Slot} {a : Actor} (h : inForm s) : inForm (s.applyDelta k sl a) := by
  unfold State.applyDelta
  extract_lets +onlyGivenNames run new
  exact h.setSlot.writeRun.fillLayers

theorem inForm.haltTouched {s : State} {keys : List Nat} (h : inForm s) : inForm (s.haltTouched keys) := by
  unfold State.haltTouched
  refine h.foldl fun s x h => ?_
  split
  · split
    · exact h
    · extract_lets +onlyGivenNames handed t
      have ht : inForm t := by
        unfold t
        split
        · exact h.dropFiring
        · exact h
      exact ht.updSlot
  · exact h

theorem inForm.acceptDelta {s : State} {q : Nat} {p : Packet} {cfg : Nat} {new : Image} {todo : List (Nat × Slot × Actor)} (h : inForm s) :
    inForm (s.acceptDelta q p cfg new todo) := by
  unfold State.acceptDelta
  extract_lets +onlyGivenNames saved s1 d
  have hs1 : inForm s1 := by
    unfold s1
    refine h.foldl fun s x h => ?_
    split
    · exact h.setRegion
    · exact h
  exact hs1.keep.dispatched

theorem inForm.deltaPacket {s : State} {q : Nat} {p : Packet} (h : inForm s) : inForm (s.deltaPacket q p) := by
  unfold State.deltaPacket
  extract_lets +onlyGivenNames ctx
  split
  · exact h.operandFault
  · exact h.finishNow
  · split
    · extract_lets +onlyGivenNames todo
      split
      · exact h.finishNow
      · exact h.acceptDelta
    · exact h.finishNow

theorem inForm.endDelta {s : State} {d : Delta} {todo : List (Nat × Slot × Actor)} (h : inForm s) : inForm (s.endDelta d todo) := by
  unfold State.endDelta
  extract_lets +onlyGivenNames strict s1 resumed due _ s2 s3
  have hs1 : inForm s1 := by
    unfold s1
    refine h.foldl fun s x h => ?_
    split
    · split
      · exact h.setRegion.later
      · exact h.setRegion
    · exact h
  have hs2 : inForm s2 := hs1.keep
  have hs3 : inForm s3 := hs2.updCfg
  exact hs3.keep.finishPacket

theorem inForm.stepDelta {s : State} {d : Delta} (h : inForm s) : inForm (s.stepDelta d) := by
  unfold State.stepDelta
  extract_lets +onlyGivenNames drop
  have hdrop : ∀ s, inForm s → inForm (drop s) := fun _ h => h.keep
  split
  · exact (hdrop _ h).finishPacket
  · extract_lets +onlyGivenNames todo
    split
    · exact (hdrop _ h).finishPacket
    · split
      · exact h.updCfg.endDelta
      · exact h
    · exact h
    · exact h
    · split
      · exact h
      · split
        · split
          · exact h
          · extract_lets +onlyGivenNames tiles s1
            have hs1 : inForm s1 := h.haltTouched
            split
            · exact hs1
            · extract_lets +onlyGivenNames s2
              have hs2 : inForm s2 := hs1.foldl fun _ _ h => h.updSlot
              exact hs2.keep
        · exact (h.foldl fun _ _ h => inForm.elim h fun _ => h.applyDelta).endDelta

theorem inForm.execDelta {s : State} {q : Nat} (h : inForm s) : formKept (execDelta q s) := by
  unfold Machine.execDelta
  split
  · extract_lets +onlyGivenNames s1
    have hs1 : inForm s1 := by
      unfold s1
      split
      · exact h
      · exact h.stepDelta
    split
    · split
      · exact h.deltaPacket
      · exact hs1
    · exact hs1
  · split
    · exact h.deltaPacket
    · exact h

theorem inForm.patchPacket {s : State} {q : Nat} {p : Packet} (h : inForm s) : inForm (s.patchPacket q p) := by
  unfold State.patchPacket
  extract_lets +onlyGivenNames ctx list s0
  have hs0 : inForm s0 := h.dropGens
  split
  · split
    · exact h
    · extract_lets +onlyGivenNames base bs new _ s1
      have hs1 : inForm s1 := hs0.keep
      exact hs1.dropGens.finishNow
  · exact h

theorem inForm.execPatch {s : State} {q : Nat} (h : inForm s) : formKept (execPatch q s) := by
  unfold Machine.execPatch
  split
  · exact h.patchPacket
  · exact h

theorem inForm.dispatchAny {s : State} {q : Nat} {p : Packet} (h : inForm s) : inForm (s.dispatchAny q p) := by
  unfold State.dispatchAny
  split
  · exact h
  · split
    · exact h.launchPacket
    · exact h.launchPacket
    · exact h.deltaPacket
    · exact h.wrsigPacket
    · exact h.waitPacket
    · exact h.detsetPacket
    · exact h.fencePacket
    · exact h.floodhPacket
    · exact h.killPacket

theorem inForm.failReplay {s : State} {q : Nat} {p : Packet} {status : Nat} (h : inForm s) : inForm (s.failReplay q p status) := by
  unfold State.failReplay
  extract_lets +onlyGivenNames x s1
  have hs1 : inForm s1 := h.setQueue.dropGens
  refine inForm.finishNow ?_
  split
  · exact hs1.stopQueue
  · exact hs1

theorem inForm.replayPacket {s : State} {q : Nat} {p : Packet} (h : inForm s) : inForm (s.replayPacket q p) := by
  unfold State.replayPacket
  extract_lets +onlyGivenNames x va nodes node g
  split
  · exact h
  · split
    · split
      · exact h.updPacket.newFault
      · exact h.newFault.failReplay
    · exact h.failReplay
    · extract_lets +onlyGivenNames n
      split
      · exact h.failReplay
      · extract_lets +onlyGivenNames before rest
        split
        · exact h
        · extract_lets +onlyGivenNames mark s2
          have hs2 : inForm s2 := h.setQueue
          exact hs2.dispatchAny

theorem inForm.execReplay {s : State} {q : Nat} (h : inForm s) : formKept (execReplay q s) := by
  unfold Machine.execReplay
  split
  · exact h.replayPacket
  · exact h

/-! ### Rows of the Jetty controller -/

theorem inForm.crashTrap {s : State} {r : Vector Dword 8} (h : inForm s) : inForm (s.crashTrap r) := h.keep

theorem inForm.execJettyPolicyTrap {s : State} {k : Nat} (h : inForm s) : formKept (execJettyPolicyTrap k s) := by
  unfold Machine.execJettyPolicyTrap
  split
  · exact h
  · split
    · exact h
    · split
      · exact h
      · extract_lets +onlyGivenNames s1 _ s2
        have hs1 : inForm s1 := h.postRecord.crashTrap
        have hs2 : inForm s2 := hs1.setSlot
        split
        · exact hs2.haltCtx
        · exact hs2.endRun

theorem inForm.restartJetty {s : State} {cause : Nat} (h : inForm s) : inForm (s.restartJetty cause) := by
  unfold State.restartJetty
  split
  · exact h
  · exact h.keep.later

theorem inForm.execWatchdogKick {s : State} (h : inForm s) : formKept (execWatchdogKick s) := by
  unfold Machine.execWatchdogKick
  extract_lets +onlyGivenNames j
  split
  · exact h
  · split
    · exact h.restartJetty
    · split
      · exact h.restartJetty
      · exact h.keep

theorem inForm.execWatchdogExpiry {s : State} (h : inForm s) : formKept (execWatchdogExpiry s) := by
  unfold Machine.execWatchdogExpiry
  split
  · exact h.restartJetty
  · exact h

theorem inForm.firmwareKick {s : State} (h : inForm s) : formKept (firmwareKick s) := by
  unfold Machine.firmwareKick
  extract_lets +onlyGivenNames j
  split
  · exact h.execWatchdogKick
  · exact h

theorem inForm.execFirmwareException {s : State} {record : List Byte} (h : inForm s) : formKept (execFirmwareException record s) := by
  unfold Machine.execFirmwareException
  split
  · extract_lets +onlyGivenNames c
    exact h.keep.restartJetty
  · exact h

theorem inForm.repeatKills {s : State} (h : inForm s) : inForm s.repeatKills := by
  unfold State.repeatKills
  refine h.foldl fun s x h => ?_
  split
  · exact h.later
  · refine h.foldl fun s x h => ?_
    split
    · exact h
    · exact h.later

theorem inForm.execJettyRestartComplete {s : State} (h : inForm s) : formKept (execJettyRestartComplete s) := by
  unfold Machine.execJettyRestartComplete
  dsimp only
  split
  · exact h
  · exact h.keep.repeatKills.later.foldl fun _ _ h => h.later

theorem inForm.writeJfwsel {s : State} {v : Dword} (h : inForm s) : inForm (s.writeJfwsel v) := by
  unfold State.writeJfwsel
  dsimp only
  split
  · exact h.ignoreWrite
  · split
    · exact h.keep.restartJetty
    · exact h.keep

theorem inForm.execJfwselGo {s : State} {value : Dword} (h : inForm s) : formKept (execJfwselGo value s) := by
  unfold Machine.execJfwselGo
  split
  · exact h.writeJfwsel
  · exact h

theorem inForm.execFirmwareWindowWrite {s : State} {off : Nat} {bytes : List Byte} (h : inForm s) :
    formKept (execFirmwareWindowWrite off bytes s) := by
  unfold Machine.execFirmwareWindowWrite
  extract_lets +onlyGivenNames n
  split
  · exact h.keep
  · exact h

/-! ### Rows of recovery -/

theorem inForm.logError {s : State} {e : ErrorSite} {unc : Bool} {act : ErrorAct} (h : inForm s) : inForm (s.logError e unc act) := h.keep

theorem inForm.restoreCarve {s : State} {k : Nat} {v : Save} (h : inForm s) : inForm (s.restoreCarve k v) :=
  inForm.fillCarve (h.filterSram rfl)

theorem inForm.rewindStream {s : State} {k tl size tok : Nat} (h : inForm s) : inForm (s.rewindStream k tl size tok) := by
  unfold State.rewindStream
  split
  · extract_lets +onlyGivenNames per at'
    exact h.setCommand.later
  · exact h

theorem inForm.restoreArc {s : State} {n : Nat} {v : Arc} {cut : Nat} (h : inForm s) : inForm (s.restoreArc n v cut) := by
  unfold State.restoreArc
  split
  · exact h
  · extract_lets +onlyGivenNames y toks s1 s2 s3
    have hs1 : inForm s1 := h.setArc
    have hs2 : inForm s2 := by
      unfold s2
      split
      · split
        · exact hs1.setArc
        · extract_lets +onlyGivenNames room now bad
          exact hs1.writeTokens.setArc
      · exact hs1
    have hs3 : inForm s3 := by
      unfold s3
      split
      · exact hs2.later
      · exact hs2
    split
    · split
      · exact hs3.rewindStream
      · exact hs3
    · exact hs3.rewindStream
    · exact hs3

theorem inForm.endAll {s : State} {cfg : Nat} {c : Configuration} (h : inForm s) : inForm (s.endAll cfg c) := by
  unfold State.endAll
  extract_lets +onlyGivenNames mine s1 s2
  have hs1 : inForm s1 := h.foldl fun _ _ h => h.dropFiring
  have hs2 : inForm s2 := hs1.cancelCommands
  exact hs2.keep.updCfg

theorem inForm.forgetCommands {s : State} {k : Nat} {v : Slot} (h : inForm s) : inForm (s.forgetCommands k v) := by
  unfold State.forgetCommands
  extract_lets +onlyGivenNames issued _ s1
  have hs1 : inForm s1 := h.keep
  exact hs1.foldl fun _ _ h => h.settleTimeline

theorem inForm.restoreSlot {s : State} {k : Nat} {v : Save} {last : Nat} (h : inForm s) :
    inForm (s.restoreSlot k v last) :=
  h.updSlot.restoreCarve.forgetCommands

theorem inForm.restoreRegions {s : State} {cfg : Nat} (h : inForm s) : inForm (s.restoreRegions cfg) := by
  unfold State.restoreRegions
  refine h.foldl fun s x h => ?_
  split
  · extract_lets +onlyGivenNames cur
    exact h.takeDrains.setRegion
  · exact h

theorem inForm.rollbackPlaced {s : State} {cfg : Nat} {c : Configuration} (h : inForm s) : inForm (s.rollbackPlaced cfg c) := by
  unfold State.rollbackPlaced
  extract_lets +onlyGivenNames part s1 s2 s3 left s4
  have hs1 : inForm s1 := h.endAll
  have hs2 : inForm s2 := by
    unfold s2
    refine hs1.foldl fun s x h => ?_
    split
    · exact h.restoreSlot
    · exact h
  have hs3 : inForm s3 := by
    unfold s3
    refine hs2.foldl fun s x h => ?_
    split
    · exact h
    · split
      · exact h.restoreArc
      · exact h.setArc
  have hs4 : inForm s4 := hs3.updCfg.restoreRegions
  exact hs4.deliverParked

theorem inForm.rollbackSwapped {s : State} {cfg : Nat} {c : Configuration} (h : inForm s) : inForm (s.rollbackSwapped cfg c) := by
  unfold State.rollbackSwapped
  extract_lets +onlyGivenNames part s1 put s1a s2 s3
  have hs1 : inForm s1 := h.endAll
  have hs1a : inForm s1a := hs1.updCfg
  have hs2 : inForm s2 := hs1a.foldl fun _ _ h => h.forgetCommands
  have hs3 : inForm s3 := by
    unfold s3
    refine hs2.foldl fun s x h => ?_
    split
    · exact h
    · split
      · exact h.restoreArc
      · exact h.setArc
  exact hs3.updCfg.restoreRegions

theorem inForm.rollbackFor {s : State} {asked : Option Nat} {cfg : Nat} (h : inForm s) : inForm (s.rollbackFor asked cfg) := by
  unfold State.rollbackFor
  split
  · exact h
  · split
    · exact h
    · split
      · split
        · exact h
        · exact h.updCfg.report
      · extract_lets +onlyGivenNames joined s0 s1 s2 s3
        have hs0 : inForm s0 := by
          unfold s0
          split
          · exact h.report
          · exact h
        have hs1 : inForm s1 := by
          unfold s1
          split
          · exact hs0.rollbackSwapped
          · exact hs0.rollbackPlaced
        have hs2 : inForm s2 := hs1.foldl fun _ _ h => h.toPeer
        have hs3 : inForm s3 := hs2.updCfg.writeSection
        split
        · exact hs3
        · exact hs3.report

theorem inForm.rollback {s : State} {cfg : Nat} (h : inForm s) : inForm (s.rollback cfg) := h.rollbackFor

theorem inForm.awaitedRollback {s : State} {cfg : Nat} (h : inForm s) : inForm (s.awaitedRollback cfg) := by
  unfold State.awaitedRollback
  split
  · exact h.rollback
  · exact h

theorem inForm.peerRollback {s : State} {pkg cfg cut : Nat} (h : inForm s) : inForm (s.peerRollback pkg cfg cut) := by
  unfold State.peerRollback
  extract_lets +onlyGivenNames joined
  split
  · exact h.rollbackFor
  · exact h

theorem inForm.execRollbackRequest {s : State} {ctx : Nat} (h : inForm s) : formKept (execRollbackRequest ctx s) := by
  unfold Machine.execRollbackRequest
  split
  · split
    · exact h.setCtx
    · exact h
  · extract_lets +onlyGivenNames _ s1
    have hs1 : inForm s1 := by
      unfold s1
      split
      · exact h.setCtx
      · exact h
    exact hs1.foldl fun _ _ h => h.rollback

theorem inForm.recoverCfg {s : State} {cfg : Nat} (h : inForm s) : inForm (s.recoverCfg cfg).1 := by
  unfold State.recoverCfg
  split
  · exact h
  · split
    · exact h.rollback
    · exact h.startKill

theorem inForm.tileFailure {s : State} {tile : Nat} (h : inForm s) : inForm (s.tileFailure tile) := by
  unfold State.tileFailure
  extract_lets +onlyGivenNames t recent s1
  have hs1 : inForm s1 := h.setTile
  split
  · exact hs1.later
  · exact hs1

theorem inForm.voidRetry {s : State} {k : Nat} (h : inForm s) : inForm (s.voidRetry k) := by
  unfold State.voidRetry
  split
  · extract_lets +onlyGivenNames s1
    have hs1 : inForm s1 := h.dropFiring
    split
    · exact hs1.updSlot.soon
    · split
      · exact hs1.soon
      · exact hs1
  · exact h

theorem inForm.firingError {s : State} {k : Nat} {e : ErrorSite} (h : inForm s) : inForm (s.firingError k e) := by
  unfold State.firingError
  split
  · split
    · exact h.startKill.logError.tileFailure
    · exact h.voidRetry.logError.tileFailure
  · exact h.logError.tileFailure

theorem inForm.execSilentError {s : State} {k site : Nat} (h : inForm s) : formKept (execSilentError k site s) := by
  unfold Machine.execSilentError
  split
  · extract_lets +onlyGivenNames tag
    exact h.firingError
  · exact h

theorem inForm.execCorrectedError {s : State} {e : ErrorSite} (h : inForm s) : formKept (execCorrectedError e s) := by
  unfold Machine.execCorrectedError
  split
  · exact h.logError
  · exact h

theorem inForm.refetch {s : State} {tile idx : Nat} (h : inForm s) : inForm (s.refetch tile idx) := by
  unfold State.refetch
  refine h.foldl fun s x h => ?_
  split
  · split
    · exact h.keep
    · exact h
  · exact h

theorem inForm.poisonToken {s : State} {k : Nat} {sl : Slot} {a : Nat} (h : inForm s) : inForm (s.poisonToken k sl a) := by
  unfold State.poisonToken
  refine h.foldl fun s x h => ?_
  split
  · split
    · split
      · exact h.setArc
      · exact h
    · exact h
  · exact h

theorem inForm.poisonTile {s : State} {k a : Nat} (h : inForm s) : inForm (s.poisonTile k a) := by
  unfold State.poisonTile
  split
  · exact h
  · split
    · exact h.poisonToken
    · split
      · exact h.keep
      · exact h.setSlot

theorem inForm.loseWeights {s : State} {k a : Nat} (h : inForm s) : inForm (s.loseWeights k a) := by
  unfold State.loseWeights
  split
  · exact h
  · extract_lets +onlyGivenNames _ s1
    have hs1 : inForm s1 := h.keep
    split
    · split
      · exact hs1
      · exact hs1.failLayer
    · exact hs1

theorem inForm.clearPages {s : State} {move : Bool} {pages : List Nat} (h : inForm s) : inForm (s.clearPages move pages) := by
  unfold State.clearPages
  extract_lets +onlyGivenNames mine s1
  have hs1 : inForm s1 := h.clearPagesOf
  refine hs1.foldl fun s x h => ?_
  split
  · exact h.updCfg.beginStop.later
  · split
    · exact h.updCfg.beginSwapOuts
    · exact h

theorem inForm.drainDie {s : State} {d : Nat} {hold : Bool} (h : inForm s) : inForm (s.drainDie d hold) := by
  unfold State.drainDie
  split
  · exact h.keep.clearPages
  · exact h

theorem inForm.drainDomain {s : State} {e : ErrorSite} (h : inForm s) : inForm (s.drainDomain e) := by
  unfold State.drainDomain
  extract_lets +onlyGivenNames _ forget
  split
  · exact h.drainDie
  · exact h.drainDie
  · exact h.drainDie
  · exact h.drainDie
  · exact h.drainDie
  · exact h.keep
  · extract_lets +onlyGivenNames l
    split
    · exact h.keep
    · exact h
  · exact h.keep
  · exact h.keep

theorem inForm.tagLost {s : State} {e : ErrorSite} (h : inForm s) : inForm (s.tagLost e) := by
  unfold State.tagLost
  extract_lets +onlyGivenNames l s1
  have hs1 : inForm s1 := h.foldl fun _ _ h => h.startKill
  refine inForm.logError ?_
  split
  · exact hs1.drainDomain
  · exact hs1

theorem inForm.linkLost {s : State} {n : Nat} (h : inForm s) : inForm (s.linkLost n) := by
  unfold State.linkLost
  extract_lets +onlyGivenNames l
  split
  · exact h
  · extract_lets +onlyGivenNames links _ s1
    have hs1 : inForm s1 := h.keep
    split
    · exact hs1
    · extract_lets +onlyGivenNames rest
      exact hs1.keep

theorem inForm.deviceError {s : State} {e : ErrorSite} (h : inForm s) : inForm (s.deviceError e) := by
  unfold State.deviceError
  extract_lets +onlyGivenNames _ s
  have hs : inForm s := h.keep
  split
  · exact hs.stopQueue
  · split
    · split
      · exact hs.setCtx.logHeaders
      · exact hs
    · exact hs

theorem inForm.execUncorrectableError {s : State} {e : ErrorSite} (h : inForm s) : formKept (execUncorrectableError e s) := by
  unfold Machine.execUncorrectableError
  extract_lets +onlyGivenNames recover
  have hrecover : ∀ s, inForm s → inForm (recover s) := by
    intro _ h
    unfold recover
    extract_lets +onlyGivenNames r
    exact h.recoverCfg.logError
  split
  · exact h.firingError
  · exact h.firingError
  · exact h.firingError
  · exact h.refetch.logError.tileFailure
  · exact h.poisonTile.logError.tileFailure
  · exact h.loseWeights.logError.tileFailure
  · exact h.keep.logError
  · exact (hrecover _ h).tileFailure
  · exact h.tagLost
  · exact hrecover _ h
  · exact h.linkLost.logError
  · exact h.deviceError.logError
  · exact h

theorem inForm.execDieCrcFailure {s : State} {e : ErrorSite} {tries : Nat} (h : inForm s) : formKept (execDieCrcFailure e tries s) := by
  unfold Machine.execDieCrcFailure
  extract_lets +onlyGivenNames e10
  split
  · exact h
  · split
    · exact h.logError
    · exact h.execUncorrectableError

theorem inForm.blockTile {s : State} {tile : Nat} {b : Bool} (h : inForm s) : inForm (s.blockTile tile b) := h.keep

theorem inForm.execTileRetirement {s : State} {tile : Nat} (h : inForm s) : formKept (execTileRetirement tile s) := by
  unfold Machine.execTileRetirement
  extract_lets +onlyGivenNames t
  split
  · exact h
  · extract_lets +onlyGivenNames s1 s2
    have hs1 : inForm s1 := h.setTile.blockTile
    have hs2 : inForm s2 := by
      unfold s2
      refine hs1.foldl fun s x h => ?_
      split
      · split
        · exact h.dropFiring.updSlot
        · exact h
      · exact h
    exact hs2.later

theorem inForm.wakeTile {s : State} {tile : Nat} (h : inForm s) : inForm (s.wakeTile tile) := by
  unfold State.wakeTile
  refine h.foldl fun s x h => ?_
  split
  · exact h.later
  · exact h

theorem inForm.reloadRuns {s : State} {tile : Nat} (h : inForm s) : inForm (s.reloadRuns tile) := by
  unfold State.reloadRuns
  refine h.foldl fun s x h => ?_
  split
  · exact h.writeRun
  · exact h

theorem inForm.execRetirementComplete {s : State} {tile : Nat} (h : inForm s) : formKept (execRetirementComplete tile s) := by
  unfold Machine.execRetirementComplete
  extract_lets +onlyGivenNames t
  split
  · exact h
  · split
    · extract_lets +onlyGivenNames s1 e
      have hs1 : inForm s1 := h.setTile.blockTile
      exact hs1.reloadRuns.logError.wakeTile
    · split
      · exact h
      · exact h.keep.clearPages

theorem inForm.writeErrinj {s : State} {v : Dword} (h : inForm s) : inForm (s.writeErrinj v) := by
  unfold State.writeErrinj
  split
  · exact h.keep
  · exact h.ignoreWrite

theorem inForm.writeErradr {s : State} {v : Dword} (h : inForm s) : inForm (s.writeErradr v) := by
  unfold State.writeErradr
  split
  · exact h.keep
  · exact h.ignoreWrite

theorem inForm.execErrorInject {s : State} {inj adr : Dword} (h : inForm s) : formKept (execErrorInject inj adr s) := by
  unfold Machine.execErrorInject
  split
  · exact h.writeErradr.writeErrinj
  · exact h

theorem inForm.makeError {s : State} {k cove : Nat} (h : inForm s) : inForm (s.makeError k cove) := by
  unfold State.makeError
  extract_lets +onlyGivenNames e _ s1
  have hs1 : inForm s1 := h.keep
  split <;> exact hs1.soon

theorem inForm.inject {s : State} {old : Machine.State} (h : inForm s) : inForm (State.inject old s) := by
  unfold State.inject
  split
  · split
    · exact h.makeError
    · exact h
  · exact h

theorem inForm.dieHandover {s : State} {d : Nat} (h : inForm s) : inForm (s.dieHandover d) := by
  unfold State.dieHandover
  extract_lets +onlyGivenNames other
  split
  · exact h
  · extract_lets +onlyGivenNames _ s1
    have hs1 : inForm s1 := h.keep
    split
    · exact hs1
    · exact hs1.keep

theorem inForm.execDieDrainResetReturn {s : State} {die : Nat} (h : inForm s) : formKept (execDieDrainResetReturn die s) := by
  unfold Machine.execDieDrainResetReturn
  split
  · exact h.drainDie
  · exact h

theorem inForm.execDieDrainHold {s : State} {die : Nat} (h : inForm s) : formKept (execDieDrainHold die s) := by
  unfold Machine.execDieDrainHold
  split
  · exact h.drainDie
  · exact h

theorem inForm.dieServes {s : State} {d : Nat} (h : inForm s) : inForm (s.dieServes d) := h.keep.later

theorem inForm.execDieReturn {s : State} {die : Nat} (h : inForm s) : formKept (execDieReturn die s) := by
  unfold Machine.execDieReturn
  split
  · exact h.dieServes
  · exact h

theorem inForm.execDieResetComplete {s : State} {die : Nat} {failed : List Nat} {dieFailed : Bool} (h : inForm s) :
    formKept (execDieResetComplete die failed dieFailed s) := by
  unfold Machine.execDieResetComplete
  split
  · exact h
  · extract_lets +onlyGivenNames _ fresh
    have hfresh : inForm fresh := h.keep
    split
    · exact hfresh.keep
    · extract_lets +onlyGivenNames mark
      have hmark : ∀ s t, inForm s → inForm (mark s t) := by
        intro _ _ h
        unfold mark
        split
        · exact h.setTile.later
        · exact h
      exact hfresh.dieServes.foldl fun _ _ h => hmark _ _ h

/-! ### Rows of links -/

theorem inForm.setLink {s : State} {n : Nat} {l : Link} (h : inForm s) : inForm (s.setLink n l) := h.keep

theorem inForm.remirror {s : State} {pkg : Nat} (h : inForm s) : inForm (s.remirror pkg) := h.foldl fun _ _ h => h.later

theorem inForm.pathUp {s : State} {pkg : Nat} (h : inForm s) : inForm (s.pathUp pkg) := by
  unfold State.pathUp
  split
  · extract_lets +onlyGivenNames s1 held _ s2
    have hs1 : inForm s1 := h.foldl fun _ _ h => h.emit.dropHeld
    have hs2 : inForm s2 := hs1.keep
    exact (hs2.foldl fun _ _ h => h.emit).remirror
  · exact h

theorem inForm.execLinkTraining {s : State} {link peer : Nat} {peerLocked : Bool} (h : inForm s) :
    formKept (execLinkTraining link peer peerLocked s) := by
  unfold Machine.execLinkTraining
  split
  · exact h
  · split
    · exact h.report
    · exact h.setLink.pathUp

theorem inForm.execLinkRetrain {s : State} {link lanes : Nat} (h : inForm s) : formKept (execLinkRetrain link lanes s) := by
  unfold Machine.execLinkRetrain
  extract_lets +onlyGivenNames l
  split
  · exact h.setLink
  · exact h

theorem inForm.execLinkRetrainComplete {s : State} {link lanes : Nat} (h : inForm s) : formKept (execLinkRetrainComplete link lanes s) := by
  unfold Machine.execLinkRetrainComplete
  extract_lets +onlyGivenNames l
  split
  · split
    · exact h.linkLost
    · split
      · exact h.setLink
      · exact h
  · exact h

theorem inForm.execLinkWidthRetry {s : State} {link : Nat} (h : inForm s) : formKept (execLinkWidthRetry link s) := by
  unfold Machine.execLinkWidthRetry
  extract_lets +onlyGivenNames l
  split
  · exact h.setLink
  · exact h

theorem inForm.execPathDownTimeout {s : State} {pkg : Nat} (h : inForm s) : formKept (execPathDownTimeout pkg s) := by
  unfold Machine.execPathDownTimeout
  split
  · exact h
  · extract_lets +onlyGivenNames mark hit s0 _ _ s1 s2
    have hs0 : inForm s0 := h.discardHeld
    have hs1 : inForm s1 := hs0.keep
    have hs2 : inForm s2 := hs1.foldl fun _ _ h => h.recoverCfg
    exact hs2.foldl fun _ _ h => h.startRecovery

theorem inForm.execPathRestored {s : State} {pkg : Nat} (h : inForm s) : formKept (execPathRestored pkg s) := by
  unfold Machine.execPathRestored
  split
  · exact h.pathUp
  · exact h

/-- The function is opened as a function: applied to an address, the kernel would count the address down to the window's base. -/
theorem inForm.writeCollgrp {s : State} {off : Nat} {v : Dword} (h : inForm s) : inForm (s.writeCollgrp off v) := by
  obtain ⟨f, hf⟩ : ∃ f, f = @State.writeCollgrp := ⟨_, rfl⟩
  rw [← hf]
  delta State.writeCollgrp at hf
  subst hf
  beta_reduce
  extract_lets n w g r
  generalize r = o
  cases o with
  | none => exact h.ignoreWrite
  | some x => exact h.setGroup

theorem inForm.execCollgrpWrite {s : State} {off : Nat} {value : Dword} (h : inForm s) : formKept (execCollgrpWrite off value s) := by
  unfold Machine.execCollgrpWrite
  split
  · exact h.writeCollgrp
  · exact h

theorem inForm.execPeerWrite {s : State} {pkg cove gen pa : Nat} {bytes : List Byte} (h : inForm s) :
    formKept (execPeerWrite pkg cove gen pa bytes s) := by
  unfold Machine.execPeerWrite
  extract_lets +onlyGivenNames ws
  split
  · exact h
  · exact h.peerStore

/-! ### Rows of the Lighthouse -/

theorem inForm.execSensorTrip {s : State} {sensor : Sensor} (h : inForm s) : formKept (execSensorTrip sensor s) := by
  unfold Machine.execSensorTrip
  dsimp only
  split
  · split
    · exact h.keep
    · exact h.keep.report
  · exact h.keep
  · split
    · exact h.keep.emit
    · exact h.keep

theorem inForm.answer {s : State} {what : String} {bs : List Byte} (h : inForm s) : formKept (s.answer what bs) := h.emit

theorem inForm.beginSigning {s : State} {kind : Nat} {bs : List Byte} (h : inForm s) : formKept (s.beginSigning kind bs) := by
  unfold State.beginSigning
  split
  · exact h.answer
  · split
    · exact h.answer
    · exact h.keep

theorem inForm.execGetMeasurements {s : State} {index : Nat} {signed : Bool} (h : inForm s) : formKept (execGetMeasurements index signed s) := by
  unfold Machine.execGetMeasurements
  split
  · split
    · exact h.answer
    · split
      · exact h.answer
      · exact h.beginSigning
  · split
    · extract_lets +onlyGivenNames d
      split
      · exact h.beginSigning
      · exact h.answer
    · exact h.answer

theorem inForm.execSigningComplete {s : State} (h : inForm s) : formKept (execSigningComplete s) := by
  unfold Machine.execSigningComplete
  split
  · exact h
  · exact h.keep.answer

theorem inForm.execIdeKmRequest {s : State} {stream : Nat} {key : BitVec 256} (h : inForm s) : formKept (execIdeKmRequest stream key s) := by
  unfold Machine.execIdeKmRequest
  split
  · exact h.keep.answer
  · exact h.answer

theorem inForm.execPldmMonitorRequest {s : State} (h : inForm s) : formKept (execPldmMonitorRequest s) := by
  unfold Machine.execPldmMonitorRequest
  extract_lets +onlyGivenNames links
  exact h.answer

/-! ### Register writes of the host -/

theorem inForm.writePkgid {s : State} {v : Dword} (h : inForm s) : inForm (s.writePkgid v) := by
  unfold State.writePkgid
  split
  · exact h.ignoreWrite
  · split
    · exact h
    · exact h.keep

theorem inForm.writeRsvwr {s : State} {v : Dword} (h : inForm s) : inForm (s.writeRsvwr v) := by
  unfold State.writeRsvwr
  split
  · exact h.ignoreWrite
  · exact h

theorem inForm.writeAdmctl {s : State} {v : Dword} (h : inForm s) : inForm (s.writeAdmctl v) := by
  unfold State.writeAdmctl
  split
  · exact h.ignoreWrite
  · exact h.keep.later

theorem inForm.writeCtxdraw {s : State} {n : Nat} {v : Dword} (h : inForm s) : inForm (s.writeCtxdraw n v) := by
  unfold State.writeCtxdraw
  split
  · exact h.ignoreWrite
  · exact h.setCtx.later

theorem inForm.writeJwdcfg {s : State} {v : Dword} (h : inForm s) : inForm (s.writeJwdcfg v) := by
  unfold State.writeJwdcfg
  extract_lets +onlyGivenNames wmin wmax
  split
  · exact h.ignoreWrite
  · split
    · exact h
    · exact h.keep

theorem inForm.writeCtxroot {s : State} {n : Nat} {v : Dword} (h : inForm s) : inForm (s.writeCtxroot n v) := by
  unfold State.writeCtxroot
  extract_lets +onlyGivenNames c en root
  split
  · exact h.ignoreWrite
  · extract_lets +onlyGivenNames s1
    have hs1 : inForm s1 := by
      unfold s1
      split
      · exact h.endLog
      · exact h
    exact hs1.setCtx

theorem inForm.writeCtxcove {s : State} {n : Nat} {v : Dword} (h : inForm s) : inForm (s.writeCtxcove n v) := by
  unfold State.writeCtxcove
  extract_lets +onlyGivenNames c tag
  split
  · exact h.ignoreWrite
  · split
    · exact h
    · exact h.setCtx

theorem inForm.writeMmu {s : State} {p w : Nat} {v : Dword} (h : inForm s) : inForm (s.writeMmu p w v) := by
  unfold State.writeMmu
  extract_lets +onlyGivenNames x
  split
  · split
    · exact h.ignoreWrite
    · exact h.setPort
  · split
    · exact h.ignoreWrite
    · exact h.setPort
  · exact h.mmuCommand
  · exact h

theorem inForm.writeFault {s : State} {w : Nat} {v : Dword} (h : inForm s) : inForm (s.writeFault w v) := by
  unfold State.writeFault
  split
  · split
    · exact h.ignoreWrite
    · exact h.keep
  · exact h.keep.later
  · split
    · exact h.ignoreWrite
    · exact h.answerFault

theorem inForm.writeDbgctl {s : State} {n : Nat} {v : Dword} (h : inForm s) : inForm (s.writeDbgctl n v) := by
  unfold State.writeDbgctl
  split
  · exact h.ignoreWrite
  · split
    · split
      · exact h
      · exact h.haltCtx
    · split
      · exact h.releaseCtx
      · exact h

theorem inForm.writeDbgsel {s : State} {v : Dword} (h : inForm s) : inForm (s.writeDbgsel v) := by
  unfold State.writeDbgsel
  split
  · exact h.ignoreWrite
  · exact h.keep

theorem inForm.writeLhsts {s : State} {v : Dword} (h : inForm s) : inForm (s.writeLhsts v) := by
  unfold State.writeLhsts
  split
  · exact h.ignoreWrite
  · exact h

theorem inForm.writeLhpol {s : State} {v : Dword} (h : inForm s) : inForm (s.writeLhpol v) := by
  unfold State.writeLhpol
  extract_lets +onlyGivenNames l
  split
  · exact h.ignoreWrite
  · extract_lets +onlyGivenNames l1
    exact h.keep

theorem inForm.writeSnapcfg {s : State} {n : Nat} {v : Dword} (h : inForm s) : inForm (s.writeSnapcfg n v) := by
  unfold State.writeSnapcfg
  split
  · exact h.ignoreWrite
  · exact h.setCtx

theorem inForm.writeSnapctl {s : State} {n : Nat} {v : Dword} (h : inForm s) : inForm (s.writeSnapctl n v) := by
  unfold State.writeSnapctl
  split
  · exact h.ignoreWrite
  · extract_lets +onlyGivenNames _ s1
    have hs1 : inForm s1 := h.setCtx
    split
    · exact hs1.later
    · exact hs1

theorem inForm.writeDiectl {s : State} {d : Nat} {v : Dword} (h : inForm s) : inForm (s.writeDiectl d v) := by
  unfold State.writeDiectl
  split
  · exact h.ignoreWrite
  · split
    · exact h.drainDie
    · exact h.drainDie
    · split
      · exact h.dieServes
      · exact h
    · exact h

theorem inForm.writeBar0 {s : State} {off : Nat} {v : Dword} (h : inForm s) : inForm (s.writeBar0 off v) :=
  .ite h.writeRsvwr <| .ite h.writePkgid <| .ite h.writeAdmctl <| .ite h.writeCtxdraw <| .ite h.writeJwdcfg <|
  .ite (.ite h.writeCtxroot h.writeCtxcove) <| .ite h.writeMmu <| .ite h.writeFault <| .ite h.writeDbgctl <| .ite h.writeDbgsel <|
  .ite h.writeLhsts <| .ite h.writeLhpol <| .ite h.keep <| .ite (.ite h.writeSnapcfg h.writeSnapctl) <| .ite h.writeErrinj <|
  .ite h.writeErradr <| .ite h.writeJfwsel <| .ite h.writeDiectl <| .ite h.writeCollgrp h

theorem inForm.writeQsb {s : State} {q w : Nat} {v : Dword} (h : inForm s) : inForm (s.writeQsb q w v) := by
  unfold State.writeQsb
  extract_lets +onlyGivenNames x
  split
  · exact h.ignoreWrite
  · exact h.setQueue

theorem inForm.writeQctl {s : State} {q : Nat} {v : Dword} (h : inForm s) : inForm (s.writeQctl q v) := by
  unfold State.writeQctl
  split
  · exact h.ignoreWrite
  · split
    · exact h.enableQueue
    · exact h.endFetching
    · exact h.resumeQueue
    · exact h

theorem inForm.writeNqstat {s : State} {v : Dword} (h : inForm s) : inForm (s.writeNqstat v) := by
  unfold State.writeNqstat
  split
  · exact h.ignoreWrite
  · exact h.keep

theorem inForm.writeBar2 {s : State} {off : Nat} {v : Dword} (h : inForm s) : inForm (s.writeBar2 off v) := by
  unfold State.writeBar2
  split
  · exact h.writeQsb
  · split
    · exact h.writeQctl
    · split
      · exact h.writeNqstat
      · exact h

theorem inForm.execRegisterWrite {s : State} {bar off : Nat} {value : Dword} (h : inForm s) : formKept (execRegisterWrite bar off value s) := by
  unfold Machine.execRegisterWrite
  split
  · exact h
  · split
    · exact h.writeBar0
    · split
      · exact h.writeBar2
      · exact h

/-! ### Rows of the host -/

theorem inForm.execDebugHalt {s : State} {ctx : Nat} (h : inForm s) : formKept (execDebugHalt ctx s) := by
  unfold Machine.execDebugHalt
  split
  · exact h.writeDbgctl
  · exact h

theorem inForm.execDebugRelease {s : State} {ctx : Nat} (h : inForm s) : formKept (execDebugRelease ctx s) := by
  unfold Machine.execDebugRelease
  split
  · exact h.writeDbgctl
  · exact h

theorem inForm.execHaltStopped {s : State} {ctx : Nat} (h : inForm s) : formKept (execHaltStopped ctx s) := by
  unfold Machine.execHaltStopped
  split
  · exact h.setCtx
  · exact h

theorem inForm.sizeBar4 {s : State} {log : Nat} (h : inForm s) : inForm (s.sizeBar4 log) := by
  unfold State.sizeBar4
  split
  · exact h.keep
  · exact h

theorem inForm.bar4Atomic {s : State} {off : Nat} (h : inForm s) : inForm (s.bar4Atomic off) := by
  unfold State.bar4Atomic
  split
  · exact h.emit
  · exact h

theorem inForm.execHostBar4Write {s : State} {off : Nat} {bytes : List Byte} (h : inForm s) : formKept (execHostBar4Write off bytes s) := by
  unfold Machine.execHostBar4Write
  split
  · exact h.writeGlobal
  · exact h

theorem inForm.execHostBar4Read {s : State} {off len : Nat} (h : inForm s) : formKept (execHostBar4Read off len s) := by
  unfold Machine.execHostBar4Read
  split
  · extract_lets +onlyGivenNames bad
    exact h.emit
  · exact h

theorem inForm.execHostLinkTraining {s : State} {rate width : Nat} (h : inForm s) : formKept (execHostLinkTraining rate width s) := by
  unfold Machine.execHostLinkTraining
  dsimp only
  split
  · split
    · exact h.keep.report
    · exact h.keep
  · exact h

theorem inForm.inReset {s : State} (h : inForm s) : inForm s.inReset := by
  unfold State.inReset
  extract_lets +onlyGivenNames src
  exact h.keep

theorem inForm.fundamental {s : State} (h : inForm s) : inForm s.fundamental := by
  unfold State.fundamental
  extract_lets +onlyGivenNames src
  have hsrc : inForm src := h.inReset
  exact hsrc.keep

theorem inForm.execPerstAssert {s : State} (h : inForm s) : formKept (execPerstAssert s) := by
  unfold Machine.execPerstAssert
  split
  · exact h.fundamental
  · exact h

theorem inForm.railsBreak {s : State} (h : inForm s) : inForm s.railsBreak := by
  unfold State.railsBreak
  split
  · extract_lets +onlyGivenNames src
    have hsrc : inForm src := h.fundamental
    exact hsrc.keep
  · exact h.keep

theorem inForm.execPowerUp {s : State} (h : inForm s) : formKept (execPowerUp s) := by
  unfold Machine.execPowerUp
  split
  · exact h
  · exact h.keep

theorem inForm.execPerstDeassert {s : State} (h : inForm s) : formKept (execPerstDeassert s) := by
  unfold Machine.execPerstDeassert
  split
  · exact h.keep.later
  · exact h

theorem inForm.zeroMemory {s : State} (h : inForm s) : inForm s.zeroMemory := h.filterMem rfl

theorem inForm.bootLighthouse {s : State} (h : inForm s) : inForm s.bootLighthouse := h.keep

theorem inForm.bootFirmware {s : State} (h : inForm s) : inForm s.bootFirmware := by
  unfold State.bootFirmware
  split <;> exact h.keep

theorem inForm.bootStep {s : State} (h : inForm s) : inForm s.bootStep := by
  unfold State.bootStep
  split
  · exact h
  · split
    · exact h.bootLighthouse
    · exact h.bootFirmware
    · exact h

theorem inForm.bootStage {s : State} (h : inForm s) : formKept (bootStage s) := by
  unfold Machine.bootStage
  split
  · exact h.bootStep.later
  · exact h.bootStep

theorem inForm.bootJetty {s : State} (h : inForm s) : inForm s.bootJetty := by
  unfold State.bootJetty
  extract_lets +onlyGivenNames fail src
  have hfail : ∀ s t, inForm s → inForm (fail s t) := fun _ _ h => h.setTile.later
  have hsrc : inForm src := h.zeroMemory.foldl fun _ _ h => hfail _ _ h
  exact hsrc.keep

theorem inForm.execBootReady {s : State} (h : inForm s) : formKept (execBootReady s) := by
  unfold Machine.execBootReady
  extract_lets +onlyGivenNames s1
  have hs1 : inForm s1 := h.bootStep.bootStep
  split
  · exact hs1
  · exact hs1.bootJetty.report

theorem inForm.dropQueues {s : State} {mine : Nat → Bool} (h : inForm s) : inForm (s.dropQueues mine) := h.keep

theorem inForm.execPfFlr {s : State} (h : inForm s) : formKept (execPfFlr s) := by
  unfold Machine.execPfFlr
  extract_lets +onlyGivenNames coves s1 s2
  have hs1 : inForm s1 := h.foldl fun _ _ h => h.startKill
  have hs2 : inForm s2 := inForm.restartJetty (hs1.dropQueues.foldl fun _ _ h => h.discard)
  dsimp only
  split
  · exact hs2.keep.emit
  · exact hs2.keep

theorem inForm.execVfFlr {s : State} {vf : Nat} (h : inForm s) : formKept (execVfFlr vf s) := by
  unfold Machine.execVfFlr
  split
  · exact h
  · extract_lets +onlyGivenNames tag s1
    have hs1 : inForm s1 := h.dropQueues
    split
    · exact hs1.emit
    · extract_lets +onlyGivenNames s2
      have hs2 : inForm s2 := hs1.startKill
      exact hs2.keep

/-! ### Rows that fall due -/

theorem inForm.cutReached {s : State} {cfg : Nat} (h : inForm s) : formKept (s.cutReached cfg) := by
  unfold State.cutReached
  split
  · exact h.execCutComplete
  · split
    · exact h.foldl fun _ _ h => h.toPeer
    · exact h

theorem inForm.runDue {s : State} {d : DueRow} (h : inForm s) : formKept (runDue d s) := by
  unfold Machine.runDue
  cases d with
  | handlerFiringStart _ => exact h.execHandlerFiringStart
  | jettyPolicyTrap _ => exact h.execJettyPolicyTrap
  | fallbackFiring _ => exact h.execFallbackFiring
  | stampedCommit _ => exact h.execStampedCommit
  | wpArrival _ => exact h.execWpArrival
  | rpMirrorUpdate _ => exact h.execRpMirrorUpdate
  | controlEntryDelivery _ => exact h.execControlEntryDelivery
  | parkedTokenDelivery _ => exact h.execParkedTokenDelivery
  | cutComplete _ => exact h.cutReached
  | quiescentPoint _ => exact h.execQuiescentPoint
  | atomicAtHome _ => exact h.execAtomicAtHome
  | heldAtomicRelease _ => exact h.execHeldAtomicRelease
  | awtConditionMet _ => exact h.execAwtConditionMet
  | enginePiecePerformed _ _ => exact h.execEnginePiecePerformed
  | engineCommandEnd _ => exact h.execEngineCommandEnd
  | streamTokenPublish _ => exact h.execStreamTokenPublish
  | floodComplete _ _ => exact h.execFloodComplete
  | floodFail _ _ _ => exact h.execFloodFail
  | ebbComplete _ _ => exact h.execEbbComplete
  | faultRecordPost => exact h.execFaultRecordPost
  | invalidationComplete _ => exact h.execInvalidationComplete
  | migrationCopyComplete _ => exact h.execMigrationCopyComplete
  | homeGenerationUpdate _ _ => exact h.execHomeGenerationUpdate
  | killComplete _ => exact h.execKillComplete
  | packetCompletion _ _ => exact h.execPacketCompletion
  | queueStopComplete _ => exact h.execQueueStopComplete
  | reconcilePass => exact h.execReconcilePass
  | captureQueueDrain => exact h.execCaptureQueueDrain
  | admission => exact h.execAdmission
  | runEnd _ => exact .ite h.endRun h
  | compaction _ => exact h.execCompaction
  | moveComplete _ => exact h.execMoveComplete
  | swapOut _ => exact h.execSwapOut
  | cloneRelease _ => exact h.execCloneRelease
  | rebalancerWindow _ => exact h.execRebalancerWindow
  | wfiWake _ => exact h.execWfiWake
  | jettyRestartComplete => exact h.execJettyRestartComplete
  | tileRetirement _ => exact h.execTileRetirement
  | retirementComplete _ => exact h.execRetirementComplete
  | rollbackRequest _ => exact h.execRollbackRequest
  | haltStopped _ => exact h.execHaltStopped
  | membershipProbe _ _ _ => exact h.execMembershipProbe
  | silentError _ _ => exact h.execSilentError
  | correctedError _ => exact h.execCorrectedError
  | uncorrectableError _ => exact h.execUncorrectableError
  | cfgRollback _ => exact h.awaitedRollback
  | dieHandover _ => exact h.dieHandover
  | bootStage => exact h.bootStage
  | copyLine _ => exact h.copyNext

/-! ### Control instructions -/

theorem inForm.execFend {s : State} {x : RFields} (h : inForm s) : formKept (execFend x s) := by
  unfold Machine.execFend
  refine h.runInst fun k sl f => ?_
  split
  · exact trivial
  · exact h.endFiring

/-! ### Every instruction and row -/

theorem inForm.exec {s : State} {i : Instr} (h : inForm s) : formKept (exec i s) := by
  unfold Machine.exec
  cases i with
  | nop _ | cset _ | cclr _ | clog _ | add _ | sub _ | mul _ | mulh _ | div _ | rem _ | and _ | or _ | xor _ | andn _ | shl _ | shr _
  | sar _ | rot _ | min _ | max _ | cmp _ | sel _ | clz _ | popc _ | bext _ | bins _ | adds _ | addi _ | andi _ | ori _ | xori _ | shli _
  | shri _ | sari _ | cmpi _ | lil _ | fadd _ | fsub _ | fmul _ | fdiv _ | fsqrt _ | ffma _ | fmin _ | fmax _ | fcmp _ | fclass _ | fcvt _
  | fsgn _ | fmvi _ | frnd _ | fscl _ | fflg _ | vadd _ | vsub _ | vmul _ | vfma _ | vdiv _ | vsqrt _ | vrcp _ | vrsq _ | vmin _ | vmax _
  | vabs _ | vneg _ | vand _ | vor _ | vxor _ | vshl _ | vshr _ | vsar _ | vcmp _ | vsel _ | vcvt _ | vexp2 _ | vlog2 _ | vscl _ | vclass _
  | vadds _ | vsubs _ | vmulh _ | vdot _ | vaddi _ | vmuli _ | vbcst _ | vext _ | vins _ | vidx _ | vred _ | vscan _ | vperm _ | vshuf _
  | vcmpr _ | vexpn _ | vpcnt _ | plog _ | vqnt _ | vdqt _ | vsort _ | vseg _ | vmov _ | mzero _ | msplt _ | mtsw _ | mtst _ | mpert _
  | mchk _ | mfrv _ => exact h.runRegs
  | bra _ | brc _ | brn _ | jmp _ | call _ | ret _ | loop _ | mma _ | mmag _ | mrec _ | mlda _ | mscl _ | mjoin _ | mtov _ | ld _ | ldaq _
  | vld _ | vlds _ | vgth _ | wld _ | pref _ | cinv _ | cwb _ | ldnt _ | recv _ | peek _ | emit _ | emits _ | arcq _ | skip _ | mark _
  | ctok _ | tlwait _ | tlrd _ | tladv _ | barinit _ | baradd _ | barsub _ | barwait _ | barrd _ | barfree _ | gbara _ | gbarw _ | time _
  | stmp _ | flood _ | ebb _ | tidew _ | tideq _ | evcl _ | mode _ | modeq _ | sbeg _ | sres _ | sfall _ | chkerr _ | flgt _ | mfsr _
  | mtsr _ | syscOrd _ | syscEpoch _ | syscPinq _ | xlat _ | prio _ | ordl _ | ordlDrop _ | ordlStat _ => exact h.runFiring
  | fend _ => exact h.execFend
  | fabt _ | trap _ | brk _ => exact h.runInst fun _ _ _ => trivial
  | mmt _ => exact h.execMmt
  | msta _ | st _ | strl _ | vst _ | vsts _ | vsct _ | wst _ => exact h.runSlot
  | aadd _ | amin _ | amax _ | aand _ | aor _ | axor _ | aswp _ | acas _ | aincb _ | adecb _ | afadd _ | afmin _ | afmax _ | ared _ | awt _ => exact h.runAtomic
  | arty _ => exact h.runInst fun _ _ _ => h.askTag.mapOk fun _ h => h.putFiring
  | fence _ => exact h.execFence
  | sleep _ => exact h.runInst fun _ _ _ => h.putFiring.park
  | evsig _ => exact h.execEvsig
  | cpy _ | cpyt _ | cpyxGather _ | cpyxScatter _ | cpys _ | cpyb _ | strm _ | coll _ | fill _ | csum _ | xferPin _ | xferUnpin _
  | xferCopyPin _ => exact h.runCommand
  | cpyq _ | strmq _ | collq _ => exact h.runQuery
  | cpyk _ | strmk _ | collk _ => exact h.runCancel
  | sret _ | sretSkip _ | sretEsc _ => exact h.runInst fun _ _ _ => h.sret
  | tlbi _ => exact h.runInst fun _ _ _ => h.tlbi
  | halt _ => exact h.runInst fun _ _ _ => formGiven.after fun _ => h.putFiring.haltCtx
  | haltRel _ => exact h.runInst fun _ _ _ => formGiven.after fun _ => h.putFiring.releaseCtx
  | dstep _ => exact h.execDstep
  | wfi _ => exact h.execWfi
  | exit _ => exact h.runInst fun _ _ _ => h.exitFiring
  | cmpt _ => exact h.execCmpt
  | firingStart _ => exact h.execFiringStart
  | parkedFiringResume _ => exact h.execParkedFiringResume
  | preEmption _ => exact h.execPreEmption
  | handlerFiringStart _ => exact h.execHandlerFiringStart
  | fallbackFiring _ => exact h.execFallbackFiring
  | stampedCommit _ => exact h.execStampedCommit
  | firingOverrun _ => exact h.execFiringOverrun
  | drawWindowEnd _ => exact h.execDrawWindowEnd
  | grinderChunk _ => exact h.execGrinderChunk
  | wpArrival _ _ => exact h.execWpArrival
  | rpMirrorUpdate _ _ => exact h.execRpMirrorUpdate
  | controlEntryDelivery _ => exact h.execControlEntryDelivery
  | cutComplete _ => exact h.execCutComplete
  | quiescentPoint _ => exact h.execQuiescentPoint
  | drainTimeout _ => exact h.execDrainTimeout
  | generationWaitTimeout _ => exact h.execGenerationWaitTimeout
  | parkedTokenDelivery _ => exact h.execParkedTokenDelivery
  | atomicAtHome _ => exact h.execAtomicAtHome
  | heldAtomicRelease _ => exact h.execHeldAtomicRelease
  | awtConditionMet _ => exact h.execAwtConditionMet
  | remoteAtomicTimeout _ => exact h.execRemoteAtomicTimeout
  | enginePiecePerformed _ _ => exact h.execEnginePiecePerformed
  | engineCommandEnd _ => exact h.execEngineCommandEnd
  | streamTokenPublish _ => exact h.execStreamTokenPublish
  | collRoundInput _ _ => exact h.execCollRoundInput
  | roundTimeout _ => exact h.execRoundTimeout
  | membershipProbe _ _ _ => exact h.execMembershipProbe
  | probeDeadline _ _ => exact h.execProbeDeadline
  | newMembership _ _ _ => exact h.execNewMembership
  | floodComplete _ _ => exact h.execFloodComplete
  | floodFail _ _ _ => exact h.execFloodFail
  | ebbComplete _ _ => exact h.execEbbComplete
  | faultRecordPost => exact h.execFaultRecordPost
  | faultServed _ => exact h.execFaultServed
  | faultFail _ => exact h.execFaultFail
  | atsInvalidation _ _ => exact h.execAtsInvalidation
  | mmuInvalidate _ _ => exact h.execMmuInvalidate
  | mmuMigrate _ _ => exact h.execMmuMigrate
  | invalidationComplete _ => exact h.execInvalidationComplete
  | settleWindowEnd _ _ => exact h.execSettleWindowEnd
  | homeGenerationUpdate _ _ => exact h.execHomeGenerationUpdate
  | killComplete _ => exact h.execKillComplete
  | peerKillMessage _ _ _ _ => exact h.execPeerKillMessage
  | tailWrite _ _ _ _ => exact h.execTailWrite
  | reconcilePass => exact h.execReconcilePass
  | captureQueueDrain => exact h.execCaptureQueueDrain
  | packetFetch _ => exact h.execPacketFetch
  | sliceExpiry => exact h.execSliceExpiry
  | packetCompletion _ _ => exact h.execPacketCompletion
  | waitTimeout _ => exact h.execWaitTimeout
  | launch _ => exact h.execLaunch
  | slaunch _ => exact h.execSlaunch
  | delta _ => exact h.execDelta
  | wrsig _ => exact h.execWrsig
  | wait _ => exact h.execWait
  | detset _ => exact h.execDetset
  | replay _ => exact h.execReplay
  | patch _ => exact h.execPatch
  | fencePacket _ => exact h.execFencePacket
  | floodh _ => exact h.execFloodh
  | kill _ => exact h.execKill
  | queueEnable _ => exact h.execQueueEnable
  | queueStop _ => exact h.execQueueStop
  | queueResume _ => exact h.execQueueResume
  | queueStopComplete _ => exact h.execQueueStopComplete
  | admission => exact h.execAdmission
  | compaction _ => exact h.execCompaction
  | moveComplete _ => exact h.execMoveComplete
  | swapOut _ => exact h.execSwapOut
  | deadlineExpiry _ => exact h.execDeadlineExpiry
  | rebalancerWindow _ _ => exact h.execRebalancerWindow
  | cloneRelease _ => exact h.execCloneRelease
  | wfiWake _ => exact h.execWfiWake
  | jettyPolicyTrap _ => exact h.execJettyPolicyTrap
  | watchdogKick => exact h.execWatchdogKick
  | watchdogExpiry => exact h.execWatchdogExpiry
  | firmwareException _ => exact h.execFirmwareException
  | jettyRestartComplete => exact h.execJettyRestartComplete
  | jfwselGo _ => exact h.execJfwselGo
  | firmwareWindowWrite _ _ => exact h.execFirmwareWindowWrite
  | rollbackRequest _ => exact h.execRollbackRequest
  | dieDrainResetReturn _ => exact h.execDieDrainResetReturn
  | dieDrainHold _ => exact h.execDieDrainHold
  | dieReturn _ => exact h.execDieReturn
  | dieResetComplete _ _ _ => exact h.execDieResetComplete
  | errorInject _ _ => exact h.execErrorInject
  | silentError _ _ => exact h.execSilentError
  | correctedError _ => exact h.execCorrectedError
  | uncorrectableError _ => exact h.execUncorrectableError
  | dieCrcFailure _ _ => exact h.execDieCrcFailure
  | tileRetirement _ => exact h.execTileRetirement
  | linkTraining _ _ _ => exact h.execLinkTraining
  | linkRetrain _ _ => exact h.execLinkRetrain
  | linkWidthRetry _ => exact h.execLinkWidthRetry
  | pathDownTimeout _ => exact h.execPathDownTimeout
  | pathRestored _ => exact h.execPathRestored
  | collgrpWrite _ _ => exact h.execCollgrpWrite
  | sensorTrip _ => exact h.execSensorTrip
  | getVersion | getCapabilities | negotiateAlgorithms | getDigests | getCertificate | mctpControlMessage => exact h.answer
  | challenge _ => exact h.beginSigning
  | getMeasurements _ _ => exact h.execGetMeasurements
  | pldmMonitorRequest => exact h.execPldmMonitorRequest
  | debugHalt _ => exact h.execDebugHalt
  | debugRelease _ => exact h.execDebugRelease
  | haltStopped _ => exact h.execHaltStopped
  | hostBar4Write _ _ => exact h.execHostBar4Write
  | hostBar4Read _ _ => exact h.execHostBar4Read
  | registerWrite _ _ _ => exact h.execRegisterWrite
  | powerUp => exact h.execPowerUp
  | powerLoss => exact h.inReset.filterMem rfl
  | perstAssert => exact h.execPerstAssert
  | perstDeassert => exact h.execPerstDeassert
  | bootReady => exact h.execBootReady
  | pfFlr => exact h.execPfFlr
  | vfFlr _ => exact h.execVfFlr
  | linkRetrainComplete _ _ => exact h.execLinkRetrainComplete
  | peerWrite _ _ _ _ _ => exact h.execPeerWrite
  | hostLinkTraining _ _ => exact h.execHostLinkTraining
  | pageRequestResponse _ _ => exact h.execPageRequestResponse
  | ideKmRequest _ _ => exact h.execIdeKmRequest
  | signingComplete => exact h.execSigningComplete
  | retirementComplete _ => exact h.execRetirementComplete
  | levelChangeTimeout _ => exact h.execLevelChangeTimeout
  | migrationCopyComplete _ => exact h.execMigrationCopyComplete

/-! ### A step of the package -/

theorem inForm.inOrder {s : State} {k : Nat} {sl : Slot} {f : Firing} (h : inForm s) : inForm (s.inOrder k sl f) := by
  unfold State.inOrder
  split
  · exact h.putFiring
  · exact h

theorem inForm.runAt {s : State} {k : Nat} {sl : Slot} {f : Firing} (h : inForm s) : formKept (s.runAt k sl f) := by
  unfold State.runAt
  split
  · exact h.takeTrap
  · extract_lets +onlyGivenNames w
    split
    · exact h.takeTrap
    · exact h.inOrder.exec

theorem inForm.runStruck {s : State} {k : Nat} {run : State → Host.Outcome State Fault Refusal} (h : inForm s) (hr : formKept (run s)) :
    formKept (s.runStruck k run) := by
  unfold State.runStruck
  split
  · exact h.makeError
  · split
    · rename_i u e
      have hu : inForm u := hr.out e
      split
      · exact hu.makeError
      · split
        · exact hu.keep
        · exact hu
    · exact hr

theorem formKept.withInjection {s : State} {x : Host.Outcome State Fault Refusal} (h : formKept x) : formKept (withInjection s x) :=
  h.andThen fun _ h => h.inject

theorem inForm.runCurrent {s : State} (h : inForm s) :
    formKept ((s.current).elim (.next s) fun c => s.runAt c.1 c.2.1 c.2.2) := by
  cases s.current with
  | none => exact h
  | some c => exact h.runAt

theorem inForm.coreHere {s : State} (h : inForm s) : formKept s.coreHere := by
  unfold State.coreHere
  split
  · extract_lets +onlyGivenNames s1
    have hs1 : inForm s1 := h.noteReady
    split
    · exact hs1.dispatch
    · exact h
  · split
    · exact h.execFiringOverrun
    · split
      · exact h.execPreEmption
      · exact h.runStruck h.runCurrent

theorem inForm.coreStep {s : State} {tile : Nat} (h : inForm s) : formKept (s.coreStep tile) := by
  unfold State.coreStep
  extract_lets +onlyGivenNames s1
  have hs1 : inForm s1 := h.keep
  exact hs1.coreHere.withInjection

theorem inForm.performAhead {s : State} {n : Nat} (h : inForm s) : inForm (s.performAhead n) := by
  unfold State.performAhead
  split
  · exact h
  · split
    · exact h
    · split
      · exact h
      · extract_lets +onlyGivenNames bytes free
        split
        · exact h
        · split
          · exact h
          · split
            · exact h
            · extract_lets +onlyGivenNames q tag s1
              have hs1 : inForm s1 := h.putFiring.arrival
              split
              · split
                · split
                  · exact hs1.putFiring
                  · exact h
                · exact h
              · exact h

theorem inForm.writeMonitor {s : State} {m dst v : Nat} (h : inForm s) : inForm (s.writeMonitor m dst v) := h.updSlot

theorem inForm.refreeze {s : State} {t : Nat} {was : Option Nat} (h : inForm s) : inForm (s.refreeze t was) := by
  unfold State.refreeze
  extract_lets +onlyGivenNames s1 x s2 y
  have hs1 : inForm s1 := h.updSlot
  have hs2 : inForm s2 := by
    unfold s2
    split
    · exact hs1.park
    · exact hs1
  exact hs2.setTile

theorem inForm.single {s : State} {m t dst : Nat} (h : inForm s) : formKept (s.single m t dst) := by
  unfold State.single
  split
  · exact h
  · split
    · exact h.writeMonitor
    · rename_i sl _ _
      extract_lets +onlyGivenNames was _ open' waits ready
      have hopen : inForm open' := h.setSlot
      have hready : formSome ready := by
        unfold ready
        split
        · split
          · exact trivial
          · exact hopen.resumeFiring
        · split
          · exact hopen.startFiring
          · exact trivial
      clear_value ready
      split
      · exact h.writeMonitor
      · rename_i s1
        extract_lets +onlyGivenNames s2 out
        have hs2 : inForm s2 := (hready.out rfl).keep
        have hout : formKept out := by
          unfold out
          split
          · split
            · exact (hs2.runStruck hs2.runCurrent).withInjection
            · exact hs2
          · exact hs2
        clear_value out
        split
        · rename_i s3
          extract_lets +onlyGivenNames v
          have hs3 : inForm { s3 with focus := s.focus } := (hout.out rfl).keep
          exact hs3.refreeze.writeMonitor
        · exact hout

theorem inForm.passTime {s : State} {n : Nat} (h : inForm s) : inForm (s.passTime n) := by
  unfold State.passTime
  extract_lets +onlyGivenNames s1 run age _ _ s2 s3
  have hs1 : inForm s1 := h.foldl fun _ _ h => h.noteReady
  have hs2 : inForm s2 := hs1.keep
  have hs3 : inForm s3 := by
    unfold s3
    split
    · exact hs2
    · exact hs2.forget
  split
  · exact hs3.later
  · exact hs3

theorem inForm.fillTlb {s : State} {unit ctx va : Nat} (h : inForm s) : inForm (s.fillTlb unit ctx va) := by
  unfold State.fillTlb
  extract_lets +onlyGivenNames c
  split
  · split
    · exact h.keep
    · exact h
  · exact h

theorem inForm.settled {s : State} (h : inForm s) : inForm s.settled := by
  unfold State.settled
  split
  · exact h
  · exact h.keep

theorem inForm.outside {s : State} {pa : Nat} {bs : List Byte} (h : inForm s) : inForm (s.outside pa bs) := by
  unfold State.outside
  extract_lets +onlyGivenNames ws
  split
  · exact h.writeGlobal
  · split
    · exact h.peerStore
    · exact h

theorem formKept.passedOver {x : Host.Outcome State Fault Refusal} (h : formKept x) : formKept (passedOver x) :=
  h.andThen fun _ h => inForm.settled h

theorem inForm.move {s : State} {m : Move} (h : inForm s) : formKept (s.move m) := by
  unfold State.move
  split
  · exact h
  · cases m with
    | run i =>
      dsimp only
      split
      · exact h
      · exact h.exec.withInjection.passedOver
    | due d => exact h.runDue.withInjection.passedOver
    | core t => exact h.coreStep.passedOver
    | single a b c => exact h.single.passedOver
    | pass n => exact h.passTime
    | lag l => exact h.keep
    | under l => exact h.keep
    | outside pa bs => exact h.outside
    | railsBreak => exact h.railsBreak
    | tlbFill u c va => exact h.fillTlb
    | tlbDrop u c va => exact h.keep
    | ahead t n =>
      have hs1 : inForm { s with focus := t } := h.keep
      exact hs1.performAhead.settled.keep
    | writeBack l => exact h.writeBack
    | openCommit k => exact h.openCommit
    | readAhead c => exact h.readAhead.settled
    | bar4Size n => exact h.sizeBar4
    | bar4Atomic off => exact h.bar4Atomic
    | selfTest l => exact .ite h h.keep
    | peerRollback p c n => exact h.peerRollback
    | pinQuota c n => exact .ite h h.setCtx

theorem inForm.admissionOnIdle {s : State} (h : inForm s) : formKept (admissionOnIdle s) := by
  unfold Machine.admissionOnIdle
  split
  · exact h
  · exact h.execAdmission

theorem inForm.coreMove {s : State} {t : Nat} (h : inForm s) : formKept (s.coreMove t) := by
  unfold State.coreMove
  split
  · rename_i s1 e
    split
    · exact h
    · exact h.coreStep.out e
  · exact h.coreStep

/-! ### Rows that may be due -/

/-- A row that keeps a state in form. -/
def keepsForm (r : State → Host.Outcome State Fault Refusal) : Prop := ∀ s, inForm s → formKept (r s)

/-- Rows that each keep a state in form. -/
def keepForm (l : List (State → Host.Outcome State Fault Refusal)) : Prop := ∀ r ∈ l, keepsForm r

theorem keepForm_nil : keepForm [] := List.forall_mem_nil _

theorem keepForm.cons {r : State → Host.Outcome State Fault Refusal} {l : List (State → Host.Outcome State Fault Refusal)}
    (hl : keepForm l) (hr : keepsForm r) : keepForm (r :: l) :=
  List.forall_mem_cons.2 ⟨hr, hl⟩

theorem keepForm.append {l l' : List (State → Host.Outcome State Fault Refusal)} (h : keepForm l) (h' : keepForm l') : keepForm (l ++ l') :=
  List.forall_mem_append.2 ⟨h, h'⟩

theorem keepForm.ite {c : Prop} [Decidable c] {l l' : List (State → Host.Outcome State Fault Refusal)} (h : keepForm l) (h' : keepForm l') :
    keepForm (if c then l else l') := by
  split
  · exact h
  · exact h'

theorem keepForm_map {α : Type} {l : List α} {f : α → State → Host.Outcome State Fault Refusal} (h : ∀ a, keepsForm (f a)) :
    keepForm (l.map f) :=
  List.forall_mem_map.2 fun a _ => h a

theorem keepForm_flatMap {α : Type} {l : List α} {f : α → List (State → Host.Outcome State Fault Refusal)} (h : ∀ a, keepForm (f a)) :
    keepForm (l.flatMap f) := fun r hr => by
  obtain ⟨a, -, ha⟩ := List.mem_flatMap.1 hr
  exact h a r ha

theorem formSome_firstChange {s : State} {l : List (State → Host.Outcome State Fault Refusal)} {o : Host.Outcome State Fault Refusal}
    (h : inForm s) (hl : keepForm l) (e : firstChange s l = some o) : formKept o := by
  induction l with
  | nil => cases e
  | cons r l ih =>
    obtain ⟨hr, hl⟩ := List.forall_mem_cons.1 hl
    have hrs := hr s h
    unfold firstChange at e
    split at e
    · split at e
      · exact ih hl e
      · rename_i s1 e1 _
        cases e
        exact hrs.out e1
    · cases e
      exact hrs

theorem keepForm_arcRows (s : State) : keepForm s.arcRows :=
  keepForm_flatMap fun _ =>
    (keepForm_nil.cons (fun _ h => h.execParkedTokenDelivery) |>.cons (fun _ h => h.execWpArrival)
        |>.cons fun _ h => h.execControlEntryDelivery).append
      (keepForm_nil.ite (keepForm_nil.cons fun _ h => h.execRpMirrorUpdate))

theorem keepForm_slotRows (s : State) : keepForm s.slotRows :=
  keepForm_flatMap fun _ =>
    ((keepForm_nil.cons (fun _ h => h.execFiringOverrun) |>.cons (fun _ h => h.execWfiWake) |>.cons (fun _ h => h.execFallbackFiring)
          |>.cons (fun _ h => h.execJettyPolicyTrap) |>.cons (fun _ h => h.execHandlerFiringStart)
          |>.cons fun _ h => h.execStampedCommit).append
        ((keepForm_nil.cons (fun _ h => h.execRemoteAtomicTimeout) |>.cons (fun _ h => h.execAwtConditionMet)
            |>.cons (fun _ h => h.execHeldAtomicRelease) |>.cons fun _ h => h.execAtomicAtHome).ite keepForm_nil)).append
      ((keepForm_nil.cons fun _ h => h.execRebalancerWindow).ite keepForm_nil)

theorem keepForm_requestRows (s : State) : keepForm s.requestRows :=
  (keepForm_map fun _ _ h => h.execAtomicAtHome).append (keepForm_map fun _ _ h => h.execAwtConditionMet)

theorem keepForm_cfgRows (s : State) (c : Nat × Configuration) :
    keepForm (if c.2.state = .ended then [] else
      [execMoveComplete c.1, execSwapOut c.1, execDeadlineExpiry c.1, runDue (.runEnd c.1), runDue (.cfgRollback c.1)]
        ++ (c.2.cloneSets.flatMap fun x => x.leaving.map fun l => execCloneRelease l.1)
        ++ (if (s.joined c.1).isEmpty then [execCutComplete c.1] else [])) :=
  keepForm_nil.ite <|
    ((keepForm_nil.cons (fun _ h => h.runDue) |>.cons (fun _ h => h.runDue) |>.cons (fun _ h => h.execDeadlineExpiry)
        |>.cons (fun _ h => h.execSwapOut) |>.cons fun _ h => h.execMoveComplete).append
      (keepForm_flatMap fun _ => keepForm_map fun _ _ h => h.execCloneRelease)).append
      ((keepForm_nil.cons fun _ h => h.execCutComplete).ite keepForm_nil)

theorem keepForm_unitRows (s : State) : keepForm s.unitRows :=
  ((((keepForm_flatMap fun _ => keepForm_nil.cons (fun _ h => h.execRetirementComplete) |>.cons fun _ h => h.execDrawWindowEnd).append
      (keepForm_flatMap fun _ => keepForm_nil.ite
        (keepForm_nil.cons (fun _ h => h.execRoundTimeout) |>.cons (fun _ h => h.execStreamTokenPublish)
          |>.cons (fun _ h => h.execEngineCommandEnd) |>.cons fun _ h => h.execEnginePiecePerformed))).append
      (keepForm_flatMap fun _ => keepForm_nil.cons (fun _ h => h.execEbbComplete) |>.cons fun _ h => h.execFloodComplete)).append
      (keepForm_flatMap fun _ => keepForm_nil.cons (fun _ h => h.execLevelChangeTimeout) |>.cons (fun _ h => h.execGenerationWaitTimeout)
        |>.cons (fun _ h => h.execDrainTimeout) |>.cons fun _ h => h.execQuiescentPoint)).append
    (keepForm_flatMap (keepForm_cfgRows s))

theorem keepForm_deviceRows (s : State) : keepForm s.deviceRows :=
  (((((((keepForm_nil.cons (fun _ h => formKept_next h.completeAts) |>.cons (fun _ h => h.execBootReady) |>.cons (fun _ h => h.bootStage)
      |>.cons (fun _ h => h.admissionOnIdle) |>.cons (fun _ h => h.firmwareKick) |>.cons (fun _ h => h.execWatchdogExpiry)
      |>.cons (fun _ h => h.execSigningComplete) |>.cons (fun _ h => h.execMigrationCopyComplete)
      |>.cons (fun _ h => h.execMigrationCopyComplete) |>.cons (fun _ h => h.runDue) |>.cons (fun _ h => h.runDue)
      |>.cons fun _ h => h.execFaultRecordPost).append
    (keepForm_map fun _ _ h => h.runDue)).append
    (keepForm_map fun _ _ h => h.execTileRetirement)).append
    (keepForm_map fun _ _ h => h.execInvalidationComplete)).append
    (keepForm_map fun _ _ h => h.execSettleWindowEnd)).append
    (keepForm_map fun _ _ h => h.execKillComplete)).append
    (keepForm_map fun _ _ h => h.execPathDownTimeout)).append
    (keepForm_map fun _ _ h => h.execLinkWidthRetry)

theorem keepForm_frontRows (s : State) : keepForm s.frontRows :=
  (((keepForm_flatMap fun _ => (keepForm_map fun _ _ h => h.execPacketCompletion).append
      (keepForm_nil.cons (fun _ h => formKept_next h.checkFence) |>.cons fun _ h => h.execQueueStopComplete)).append
    (keepForm_map fun _ _ h => h.execDelta)).append
    (keepForm_nil.ite (keepForm_nil.cons fun _ h => h.execCaptureQueueDrain))).append
    (.ite (keepForm_nil.cons (fun _ h => h.execPacketFetch) |>.cons (fun _ h => h.execKill) |>.cons (fun _ h => h.execFloodh)
      |>.cons (fun _ h => h.execFencePacket) |>.cons (fun _ h => h.execPatch) |>.cons (fun _ h => h.execReplay)
      |>.cons (fun _ h => h.execDetset) |>.cons (fun _ h => h.execWait) |>.cons (fun _ h => h.execWaitTimeout)
      |>.cons (fun _ h => h.execWrsig) |>.cons (fun _ h => h.execDelta) |>.cons (fun _ h => h.execSlaunch)
      |>.cons (fun _ h => h.execLaunch) |>.cons fun _ h => h.execSliceExpiry) keepForm_nil)

theorem keepForm_dueRows (s : State) :
    keepForm (s.arcRows ++ s.slotRows ++ s.requestRows ++ s.unitRows ++ s.deviceRows ++ s.frontRows) :=
  (((((keepForm_arcRows s).append (keepForm_slotRows s)).append (keepForm_requestRows s)).append (keepForm_unitRows s)).append
    (keepForm_deviceRows s)).append (keepForm_frontRows s)

theorem inForm.ownMove {s : State} (h : inForm s) : formKept s.ownMove := by
  unfold State.ownMove
  split
  · exact h.passTime
  · split
    · rename_i o e
      exact formSome_firstChange h (keepForm_dueRows s) e
    · have hcores : keepForm (s.tilesInTurn.map fun t (s : State) => s.coreMove t) := keepForm_map fun _ _ h => h.coreMove
      split
      · rename_i s1 e
        have hs1 : inForm s1 := formSome_firstChange h hcores e
        exact .ite hs1.passTime hs1
      · rename_i o _ e
        exact formSome_firstChange h hcores e
      · exact h.passTime

theorem inForm.nextStep {s : State} (h : inForm s) : formKept s.nextStep := by
  unfold State.nextStep
  split
  · exact h.keep.move
  · exact h.ownMove

end Sys2Proof.Safety

namespace Sys2Proof.Proofs

open Sys2Proof.Machine Sys2Proof.Safety

/-- Settles O60: no operation writes either memory but byte by byte through its canonical form. -/
theorem stepsKeepMemoriesInForm : Obligations.StepsKeepMemoriesInForm :=
  fun _ _ h e => h.nextStep.out e

end Sys2Proof.Proofs

/-! SUPPORT. The stores of a commit (02 R30): bytes written one after another, and what the rest of the commit of stores leaves. -/

namespace Sys2Proof.Proofs

open Sys2Proof.Machine Sys2Proof.Safety Sys2Proof.Laws

/-! ### Bytes in rising order -/

theorem find_cons {α : Type} (n : Nat) (v : α) (t : Tab α) (a : Nat) :
    Tab.find ((n, v) :: t) a = if n = a then some v else t.find a := rfl

theorem byte_writeEach_rising {m : Memory} (h : m.wf = true) {ws : Tab Byte} (hws : (ws.map (·.1)).Pairwise (· < ·)) (a : Nat) :
    (writeEach m ws).byte a = (Tab.find ws a).getD (m.byte a) := by
  induction ws generalizing m with
  | nil => rfl
  | cons w ws ih =>
    obtain ⟨n, b⟩ := w
    obtain ⟨hn, hws⟩ := List.pairwise_cons.1 hws
    calc (writeEach (m.put n b) ws).byte a = (Tab.find ws a).getD ((m.put n b).byte a) := ih (wf_put h n b) hws
      _ = ((Tab.find ((n, b) :: ws) a).getD (m.byte a)) := by
        rw [find_cons]
        by_cases hna : n = a
        · subst hna
          have hnone : Tab.find ws n = none := find_none_of_lt hn
          rw [hnone, if_pos rfl]
          exact byte_put_same h n b
        · rw [if_neg hna, byte_put_other m b (Ne.symm hna)]

/-! ### What the commit of stores leaves in global memory -/

theorem postWrites_mem (s : State) (b : Buffers) : (s.postWrites b).mm.mem = s.mm.mem := by
  unfold State.postWrites
  extract_lets pas post
  have hpost : ∀ t l, (post t l).mm.mem = t.mm.mem := fun t l => by
    unfold post
    split <;> rfl
  rw [hpost, hpost]

theorem noteSram_mem (s : State) (keys : List Nat) : (s.noteSram keys).mm.mem = s.mm.mem := by
  unfold State.noteSram
  split
  · dsimp only
    split <;> rfl
  · rfl

theorem writeCarve_mem (s : State) (taint : Bool) (ws : List (Nat × Byte)) : (s.writeCarve taint ws).mm.mem = s.mm.mem :=
  noteSram_mem _ _

theorem dropFiring_mem (s : State) (k : Nat) : (s.dropFiring k).mm.mem = s.mm.mem := by
  unfold State.dropFiring
  extract_lets wait s1 t
  split <;> rfl

theorem foldl_mem {α : Type} {g : State → α → State} (hg : ∀ s x, (g s x).mm.mem = s.mm.mem) (l : List α) (s : State) :
    (l.foldl g s).mm.mem = s.mm.mem := by
  induction l generalizing s with
  | nil => rfl
  | cons x l ih => exact (ih _).trans (hg s x)

theorem voidConflicts_mem (s : State) (k stamp rank : Nat) (lines : List Nat) : (s.voidConflicts k stamp rank lines).mm.mem = s.mm.mem := by
  unfold State.voidConflicts
  split
  · rfl
  · refine foldl_mem (fun t ms => ?_) _ s
    split
    · split
      · exact dropFiring_mem t _
      · rfl
    · rfl

theorem tellGroup_mem (s : State) (k stamp rank : Nat) (mine : List Nat) : (s.tellGroup k stamp rank mine).mm.mem = s.mm.mem := by
  unfold State.tellGroup
  dsimp only
  split <;> rfl

/-- Stores that every home takes and that nothing splices are written one after another. -/
theorem commitStores_mem {s : State} {k : Nat} {sl : Slot} {f : Firing} (hsp : s.mm.splices = []) (hunder : s.mm.order.under = [])
    (h : ∀ w ∈ f.b.gbuf, s.homeTakes w.1 sl.pl.tag sl.pl.gen = true) :
    (s.commitStores k sl f).mm.mem = writeEach s.mm.mem f.b.gbuf := by
  unfold State.commitStores
  extract_lets +onlyGivenNames before w _ below s1 mine s2
  have hbelow : below = fun _ => false := by
    unfold below
    rw [hunder]
    rfl
  calc _ = s1.mm.mem := by rw [tellGroup_mem, voidConflicts_mem, writeCarve_mem]; rfl
    _ = (s.writeGlobal w f.tainted f.b.gbuf).mm.mem := by unfold s1; rw [postWrites_mem, hbelow]; rfl
    _ = writeEach s.mm.mem f.b.gbuf := writeGlobal_mem f.tainted hsp h

/-- Settles O16: the buffer holds each byte once, and the rest of the commit writes no global memory. -/
theorem commitPublishesStores : Obligations.CommitPublishesStores := by
  intro s k sl f hwf hrising hsp hunder htakes a
  rw [commitStores_mem hsp hunder htakes]
  exact byte_writeEach_rising hwf hrising a

end Sys2Proof.Proofs

/-! SUPPORT. Firings start, resume, give way, end and wake (02 R29, R31, R139; 12 R261; 16 R293 to R297, R306; 21 R371, R381). -/

namespace Sys2Proof.Proofs

open Sys2Proof.Machine Sys2Proof.Safety Sys2Proof.Laws

/-! ### What the arbiter notes -/

/-- A slot but for the time since which it is ready. -/
def unready (sl : Slot) : Slot := { sl with due.readySince := none }

/-- Two states whose slots differ in the time since which they are ready only, and whose configurations have the same clones. -/
def SameSlots (s t : State) : Prop :=
  (∀ k, (t.slot k).map unready = (s.slot k).map unready) ∧ ∀ n, (t.cfg n).map (·.cloneSets) = (s.cfg n).map (·.cloneSets)

theorem SameSlots.refl (s : State) : SameSlots s s := ⟨fun _ => rfl, fun _ => rfl⟩

theorem SameSlots.trans {s t u : State} (h : SameSlots s t) (g : SameSlots t u) : SameSlots s u :=
  ⟨fun k => (g.1 k).trans (h.1 k), fun n => (g.2 n).trans (h.2 n)⟩

/-- A slot that is ready since another time, and configurations that are active since another time. -/
theorem SameSlots.of_setSlot {s t : State} {k : Nat} {sl x : Slot} (hk : s.slot k = some sl) (hs : t.slots = s.slots.put k x)
    (hx : unready x = unready sl) (hc : ∀ n, (t.cfg n).map (·.cloneSets) = (s.cfg n).map (·.cloneSets)) : SameSlots s t := by
  refine ⟨fun j => ?_, hc⟩
  unfold State.slot at *
  rw [hs]
  by_cases hj : j = k
  · subst hj
    rw [find_put, hk, Option.map_some, Option.map_some, hx]
  · rw [find_put_other _ _ hj]

/-- A state that has other slots only, the same but for the time since which they are ready. -/
def Noted (s t : State) : Prop := t = { s with slots := t.slots } ∧ SameSlots s t

theorem Noted.refl (s : State) : Noted s s := ⟨rfl, .refl s⟩

theorem Noted.trans {s t u : State} (h : Noted s t) (g : Noted t u) : Noted s u := by
  obtain ⟨hst, hs⟩ := h
  obtain ⟨htu, ht⟩ := g
  exact ⟨by rw [htu, hst], hs.trans ht⟩

theorem foldl_rel {α : Type} {R : State → State → Prop} (refl : ∀ s, R s s) (trans : ∀ {s t u}, R s t → R t u → R s u)
    {g : State → α → State} (hg : ∀ s x, R s (g s x)) (l : List α) (s : State) : R s (l.foldl g s) := by
  induction l generalizing s with
  | nil => exact refl s
  | cons x l ih => exact trans (hg s x) (ih (g s x))

theorem noteReady_noted (s : State) (tile : Nat) : Noted s (s.noteReady tile) := by
  refine foldl_rel Noted.refl Noted.trans (fun s i => ?_) _ s
  extract_lets k
  split
  · rename_i sl hk
    extract_lets r since
    split
    · exact .refl s
    · exact ⟨rfl, .of_setSlot hk rfl rfl fun _ => rfl⟩
  · exact .refl s

theorem noteReady_tile (s : State) (tile t : Nat) : (s.noteReady tile).tile t = s.tile t := by rw [(noteReady_noted s tile).1]; rfl
theorem noteReady_mm (s : State) (tile : Nat) : (s.noteReady tile).mm = s.mm := by rw [(noteReady_noted s tile).1]
theorem noteReady_arcs (s : State) (tile : Nat) : (s.noteReady tile).arcs = s.arcs := by rw [(noteReady_noted s tile).1]

/-! ### Which slots count for a firing that starts -/

theorem SameSlots.cloneSet {s t : State} (h : SameSlots s t) (k : Nat) : t.cloneSet k = s.cloneSet k := by
  have hcfg : (t.slot k).map (·.pl.cfg) = (s.slot k).map (·.pl.cfg) := by
    have hk := congrArg (Option.map fun sl : Slot => sl.pl.cfg) (h.1 k)
    rwa [Option.map_map, Option.map_map] at hk
  have hsets : ∀ u : State, u.cloneSet k = (((u.slot k).map (·.pl.cfg)).bind fun n => (u.cfg n).map (·.cloneSets)).bind
      fun l => l.find? fun x => !x.copies.isEmpty && (x.original == k || x.copies.contains k) := fun u => by
    unfold State.cloneSet
    cases u.slot k with
    | none => rfl
    | some sl => cases hc : u.cfg sl.pl.cfg <;> simp [hc]
  rw [hsets, hsets, hcfg]
  simp only [h.2]

theorem SameSlots.anchor {s t : State} (h : SameSlots s t) (k : Nat) : t.anchor k = s.anchor k := by
  have hk := h.1 k
  unfold State.anchor
  rw [h.cloneSet k]
  cases s.cloneSet k with
  | some c => rfl
  | none =>
    cases hs : s.slot k <;> cases ht : t.slot k <;> rw [hs, ht] at hk
    · cases hk
    · cases hk
    · rename_i x y
      have hxy : unready y = unready x := Option.some.inj hk
      have hf : y.due.fallback = x.due.fallback := congrArg (·.due.fallback) hxy
      have hp : y.pl = x.pl := congrArg (·.pl) hxy
      simp only [hf, hp]

theorem startBits_of_same {s t : State} (h : SameSlots s t) {k : Nat} {x y : Slot} (hxy : unready y = unready x) :
    startBits t k y = startBits s k x := by
  have hf : y.due.fallback = x.due.fallback := congrArg (·.due.fallback) hxy
  have hc : y.c = x.c := congrArg (·.c) hxy
  have ha := congrArg (Option.map (·.c)) (h.1 (s.anchor k))
  rw [Option.map_map, Option.map_map] at ha
  unfold startBits
  rw [hf, h.anchor k]
  cases hs : s.slot (s.anchor k) <;> cases ht : t.slot (s.anchor k) <;> simp_all [unready]

/-! ### A firing begins -/

theorem newFiring_c {s : State} {k : Nat} {sl : Slot} (h : s.slot k = some sl) (pc : Nat) (handler : Bool) :
    (s.newFiring k sl pc handler).r.c = startBits s k sl := by
  unfold State.newFiring State.condSlot startBits
  rw [h]
  dsimp only
  split
  · rfl
  · rw [h]; rfl

theorem zeroRegs_startRegs (sl : Slot) (c : BitVec 32) (stamp : Dword) : zeroRegs { startRegs sl with stamp := stamp, c := c } := by
  refine ⟨fun n => ?_, fun n => ?_, fun n => ?_, fun n e => ?_⟩ <;> simp [startRegs, Vector.get, Acc.zero]

theorem enter_slot (s : State) (k : Nat) (sl : Slot) (f : Firing) :
    (s.enter k sl f).slot k = some { sl with firing := some f, spill := [], spillId := s.nextId } := setSlot_slot _ _ _

theorem enter_tile (s : State) (k : Nat) (sl : Slot) (f : Firing) :
    (s.enter k sl f).tile (tileOf k) = { s.tile (tileOf k) with running := some (k % 8) } := setTile_tile _ _ _

/-- The firing that the model makes has begun. -/
theorem begunFiring_newFiring {s : State} {k : Nat} {sl sl' : Slot} (h : s.slot k = some sl) (pc n : Nat) (handler starved : Bool) :
    let f := { s.newFiring k sl pc handler with starved := starved }
    begunFiring sl (startBits s k sl) pc { sl' with firing := some f, spill := [], spillId := n } f :=
  ⟨rfl, rfl, rfl, zeroRegs_startRegs sl _ _, newFiring_c h pc handler, rfl, rfl, rfl, rfl, rfl⟩

/-! ### The arbiter selects -/

theorem tileOf_slot {i : Nat} (tile : Nat) (h : i < 8) : tileOf (tile * 8 + i) = tile := by unfold tileOf; omega

theorem slot_mod {i : Nat} (tile : Nat) (h : i < 8) : (tile * 8 + i) % 8 = i := by omega

theorem slot_tileOf (k : Nat) : tileOf k * 8 + k % 8 = k := by unfold tileOf; omega

/-- A slot that is selected: its tile counts the start, and it is ready no more. -/
theorem selected_effect {s : State} {k : Nat} {sl : Slot} (h : s.slot k = some sl) (start : Bool) :
    (s.selected k start).slot k = some (unready sl) ∧ SameSlots s (s.selected k start) ∧
      ((s.selected k start).tile (tileOf k)).starts = (s.tile (tileOf k)).starts + bit start ∧
      (s.selected k start).mm = s.mm ∧ (s.selected k start).arcs = s.arcs := by
  unfold State.selected
  rw [h]
  dsimp only
  refine ⟨setSlot_slot _ _ _, .of_setSlot h rfl rfl fun n => ?_, ?_, rfl, rfl⟩
  · simp only [State.cfg, setSlot_al, updCfg_al, setTile_al, find_upd]
    split
    · rename_i hn
      rw [Option.map_map]
      subst hn
      rfl
    · rfl
  · exact congrArg Tile.starts (setTile_tile _ _ _)

theorem startTrap_none {s : State} {sl : Slot} (h : noTrapDue sl) : s.startTrap sl = none := by
  obtain ⟨htraps, hheld, hcheck⟩ := h
  unfold State.startTrap
  rw [htraps]
  dsimp only
  rw [if_pos hheld, if_neg]
  rintro ⟨hc, hk⟩
  rw [hcheck hc] at hk
  cases hk

theorem noteRouted_frame (s : State) (k stamp : Nat) : s.noteRouted k stamp = { s with al := (s.noteRouted k stamp).al } := by
  unfold State.noteRouted
  split <;> rfl

/-- The firing that a selected slot starts. -/
def startedFiring (s : State) (k : Nat) (sl : Slot) (starved : Bool) : Firing :=
  { s.newFiring k sl (s.entryPoint k sl) false with starved := starved }

theorem startFiring_eq {s : State} {k : Nat} {sl : Slot} (h : s.slot k = some sl) (hn : noTrapDue sl) (starved : Bool) :
    let s0 := s.selected k true
    let f := startedFiring s0 k (unready sl) starved
    s.startFiring k starved = (s0.enter k { unready sl with due.check := false } f).noteRouted k f.r.stamp.toNat := by
  obtain ⟨hslot, -⟩ := selected_effect h true
  have htrap : (s.selected k true).startTrap (unready sl) = none := startTrap_none hn
  unfold State.startFiring
  simp only [hslot, htrap]
  rfl

/-- A slot that starts a firing: its tile runs it and counts the start, and the firing has begun. -/
theorem startFiring_starts {s : State} {k : Nat} {sl : Slot} (h : s.slot k = some sl) (hn : noTrapDue sl) (starved : Bool) :
    let t := s.startFiring k starved
    let f := startedFiring (s.selected k true) k (unready sl) starved
    (t.tile (tileOf k)).running = some (k % 8) ∧ (t.tile (tileOf k)).starts = (s.tile (tileOf k)).starts + 1 ∧ t.mm = s.mm ∧
      t.arcs = s.arcs ∧ ∃ u, t.slot k = some u ∧ begunFiring sl (startBits s k sl) f.pc u f := by
  obtain ⟨hslot, hsame, hstarts, hmm, harcs⟩ := selected_effect h true
  have hbits : startBits (s.selected k true) k (unready sl) = startBits s k sl := startBits_of_same hsame rfl
  dsimp only
  rw [startFiring_eq h hn starved, noteRouted_frame]
  refine ⟨congrArg Tile.running (enter_tile _ k _ _), (congrArg Tile.starts (enter_tile _ k _ _)).trans hstarts, hmm, harcs, _,
    enter_slot _ k _ _, ?_⟩
  rw [← hbits]
  exact begunFiring_newFiring hslot _ _ false starved

/-- Without clones a slot takes stamp and phase from itself. -/
theorem source_noClones {s : State} {k : Nat} {sl : Slot} (h : s.slot k = some sl) (hc : s.cloneSet k = none) : s.source k sl = sl := by
  unfold State.source State.anchor
  rw [hc]
  split
  · rfl
  · rename_i hf
    rw [h]
    dsimp only
    rw [if_neg hf, h]
    rfl

theorem nextStart_noClones {s : State} {k : Nat} {sl : Slot} (h : s.slot k = some sl) (hc : s.cloneSet k = none) :
    s.nextStart k sl = (sl.stamp, sl.phase % sl.period) := by
  unfold State.nextStart State.firingsAhead
  rw [source_noClones h hc, hc]
  simp

theorem cloneSet_none {s : State} {k : Nat} {sl : Slot} (h : s.slot k = some sl) (hc : ∀ c, s.cfg sl.pl.cfg = some c → c.cloneSets = []) :
    s.cloneSet k = none := by
  unfold State.cloneSet
  rw [h, Option.bind_some]
  cases hcfg : s.cfg sl.pl.cfg with
  | none => rfl
  | some c => rw [Option.bind_some, hc c hcfg]; rfl

theorem startedFiring_noClones {s : State} {k : Nat} {sl : Slot} (h : s.slot k = some sl) (hc : s.cloneSet k = none) (starved : Bool) :
    let f := startedFiring (s.selected k true) k (unready sl) starved
    f.r.stamp = sl.stamp ∧ f.pc = sl.pl.runBase + (sl.pl.actor.entry.find (sl.rset * 16 + sl.phase % sl.period)).getD 0 := by
  obtain ⟨hslot, hsame, -⟩ := selected_effect h true
  have hc0 : (s.selected k true).cloneSet k = none := (hsame.cloneSet k).trans hc
  have hnext := nextStart_noClones hslot hc0
  refine ⟨congrArg Prod.fst hnext, ?_⟩
  show (s.selected k true).entryPoint k (unready sl) = _
  unfold State.entryPoint
  rw [source_noClones hslot hc0, hnext]
  rfl

/-! ### The rows that start a firing -/

theorem firingStart_starts {s : State} {tile i : Nat} {st : Bool} {sl : Slot} (hi : i < 8) (hrun : (s.tile tile).running = none)
    (hsel : (s.noteReady tile).select tile = some (i, st)) (hslot : (s.noteReady tile).slot (tile * 8 + i) = some sl)
    (hfir : sl.firing = none) (hn : noTrapDue sl) :
    happens (.firingStart tile) s fun t => (t.tile tile).running = some i ∧ (t.tile tile).starts = (s.tile tile).starts + 1 ∧
      t.mm = s.mm ∧ t.arcs = s.arcs ∧ ∃ u f, t.slot (tile * 8 + i) = some u ∧
        begunFiring sl (startBits s (tile * 8 + i) sl) f.pc u f ∧ f.starved = st ∧ f.handler = false ∧
        ((∀ c, s.cfg sl.pl.cfg = some c → c.cloneSets = []) → f.r.stamp = sl.stamp ∧
          f.pc = sl.pl.runBase + (sl.pl.actor.entry.find (sl.rset * 16 + sl.phase % sl.period)).getD 0) := by
  have hsame := (noteReady_noted s tile).2
  obtain ⟨hrunning, hstarts, hmm, harcs, u, hu, hbegun⟩ := startFiring_starts hslot hn st
  rw [tileOf_slot tile hi] at hrunning hstarts
  rw [slot_mod tile hi] at hrunning
  rw [startBits_of_same hsame rfl] at hbegun
  refine ⟨(s.noteReady tile).startFiring (tile * 8 + i) st, ?_, hrunning, hstarts.trans (by rw [noteReady_tile]), hmm.trans (noteReady_mm s tile),
    harcs.trans (noteReady_arcs s tile), u, _, hu, hbegun, rfl, rfl, fun hc => ?_⟩
  · show execFiringStart tile s = _
    simp [execFiringStart, noteReady_tile, hrun, hsel, hslot, hfir]
  · have hcfg : (s.noteReady tile).cfg sl.pl.cfg = s.cfg sl.pl.cfg := by rw [(noteReady_noted s tile).1]; rfl
    exact startedFiring_noClones hslot (cloneSet_none hslot (hcfg ▸ hc)) st

/-- A slot whose firing resumes: its tile runs it, and the firing waits no more. -/
theorem resumeFiring_resumes {s : State} {k : Nat} {sl : Slot} {f : Firing} (h : s.slot k = some sl) (hf : sl.firing = some f) :
    let t := s.resumeFiring k
    (t.tile (tileOf k)).running = some (k % 8) ∧ (t.tile (tileOf k)).starts = (s.tile (tileOf k)).starts ∧ t.mm = s.mm ∧ t.arcs = s.arcs ∧
      ∃ u, t.slot k = some u ∧ u.firing = some { f with parked := none } := by
  obtain ⟨hslot, -, hstarts, hmm, harcs⟩ := selected_effect h false
  simp only [State.resumeFiring, hslot, setTile_tile]
  exact ⟨trivial, hstarts, hmm, harcs, _, setSlot_slot _ _ _, congrArg (Option.map _) hf⟩

theorem parkedFiringResume_resumes {s : State} {tile i : Nat} {st : Bool} {sl : Slot} {f : Firing} (hi : i < 8)
    (hrun : (s.tile tile).running = none) (hsel : (s.noteReady tile).select tile = some (i, st))
    (hslot : (s.noteReady tile).slot (tile * 8 + i) = some sl) (hfir : sl.firing = some f) :
    happens (.parkedFiringResume tile) s fun t => (t.tile tile).running = some i ∧ (t.tile tile).starts = (s.tile tile).starts ∧
      t.mm = s.mm ∧ t.arcs = s.arcs ∧ ∃ u, t.slot (tile * 8 + i) = some u ∧ u.firing = some { f with parked := none } := by
  obtain ⟨hrunning, hstarts, hmm, harcs, hu⟩ := resumeFiring_resumes hslot hfir
  rw [tileOf_slot tile hi] at hrunning hstarts
  rw [slot_mod tile hi] at hrunning
  refine ⟨(s.noteReady tile).resumeFiring (tile * 8 + i), ?_, hrunning, hstarts.trans (by rw [noteReady_tile]), hmm.trans (noteReady_mm s tile),
    harcs.trans (noteReady_arcs s tile), hu⟩
  show execParkedFiringResume tile s = _
  simp [execParkedFiringResume, noteReady_tile, hrun, hsel, hslot, hfir]

theorem handlerFiringStart_starts {s : State} {k : Nat} {sl : Slot} (hslot : s.slot k = some sl) (hrun : (s.tile (tileOf k)).running = none)
    (hret : (s.tile (tileOf k)).retiring = false) (hp : (s.placed k).isSome = true) (hh : sl.due.handler = true)
    (hst : sl.due.stopped = false) (hfir : sl.firing = none) (hfault : sl.due.fault = none) (hfr : sl.due.frozen = false) :
    happens (.handlerFiringStart k) s fun t => (t.tile (tileOf k)).running = some (k % 8) ∧ t.mm = s.mm ∧ t.arcs = s.arcs ∧
      ∃ u f, t.slot k = some u ∧ begunFiring sl (startBits s k sl) (bits sl.sys.trapv 17 3) u f ∧ f.handler = true ∧ u.due.handler = false := by
  have hexec : exec (.handlerFiringStart k) s = .next ((s.enter k { sl with due.handler := false }
      (s.newFiring k sl (bits sl.sys.trapv 17 3) true)).updCfg sl.pl.cfg fun c => { c with lastActive :=
        (s.enter k { sl with due.handler := false } (s.newFiring k sl (bits sl.sys.trapv 17 3) true)).clock }) := by
    show execHandlerFiringStart k s = _
    obtain ⟨pl, hpl⟩ := Option.isSome_iff_exists.1 hp
    simp [execHandlerFiringStart, hslot, hrun, hret, hpl, hh, hst, hfir, hfault, hfr]
  exact ⟨_, hexec, congrArg Tile.running (enter_tile _ _ _ _), rfl, rfl, _, _, enter_slot _ _ _ _,
    begunFiring_newFiring hslot _ _ true false, rfl, rfl⟩

theorem fallbackFiring_starts {s : State} {k : Nat} {sl : Slot} {st : Bool} (hrun : (s.tile (tileOf k)).running = none)
    (hsel : (s.noteReady (tileOf k)).select (tileOf k) = some (k % 8, st)) (hslot : (s.noteReady (tileOf k)).slot k = some sl)
    (hfb : sl.due.fallback.isSome = true) (hfir : sl.firing = none) (hn : noTrapDue sl) :
    happens (.fallbackFiring k) s fun t => (t.tile (tileOf k)).running = some (k % 8) ∧
      (t.tile (tileOf k)).starts = (s.tile (tileOf k)).starts + 1 ∧ t.mm = s.mm ∧
      ∃ u f, t.slot k = some u ∧ begunFiring sl (startBits s k sl) f.pc u f ∧ f.handler = false ∧
        (s.cloneSet k = none → f.r.stamp = sl.stamp) := by
  have hsame := (noteReady_noted s (tileOf k)).2
  obtain ⟨hrunning, hstarts, hmm, -, u, hu, hbegun⟩ := startFiring_starts hslot hn st
  rw [startBits_of_same hsame rfl] at hbegun
  refine ⟨(s.noteReady (tileOf k)).startFiring k st, ?_, hrunning, hstarts.trans (by rw [noteReady_tile]), hmm.trans (noteReady_mm s _),
    u, _, hu, hbegun, rfl, fun hc => ?_⟩
  · show execFallbackFiring k s = _
    simp [execFallbackFiring, noteReady_tile, hrun, hsel, hslot, hfir, hfb]
  · exact (startedFiring_noClones hslot ((hsame.cloneSet k).trans hc) st).1

/-! ### A firing gives way -/

theorem givesWay_firing {s : State} {tile k : Nat} (h : s.givesWay tile = some k) : ∃ i, k = tile * 8 + i ∧ (s.tile tile).running = some i := by
  unfold State.givesWay at h
  split at h
  · cases h
  · rename_i i hi
    split at h
    · split at h
      · split at h
        · exact ⟨i, (Option.some.inj h).symm, hi⟩
        · cases h
      · cases h
    · cases h

theorem dropFiring_slot {s : State} {k : Nat} {sl : Slot} (h : s.slot k = some sl) :
    ∃ u, (s.dropFiring k).slot k = some u ∧ u.firing = none ∧ u.due.voids = sl.due.voids := by
  unfold State.dropFiring
  extract_lets wait s1 t
  have hs1 : ∃ u, s1.slot k = some u ∧ u.firing = none ∧ u.due.voids = sl.due.voids := by
    unfold s1
    rw [updSlot_slot, h]
    exact ⟨_, rfl, rfl, rfl⟩
  split
  · exact hs1
  · exact hs1

/-- A firing that is irrevocable is parked where it stands. -/
theorem giveWay_parks {s : State} {k : Nat} {sl : Slot} {f : Firing} (hslot : s.slot k = some sl) (hf : sl.firing = some f)
    (hirr : f.irr = true) : (s.giveWay k).slot k = some { sl with firing := some { f with parked := some .preempted } } := by
  have hpark := park_slot .preempted hslot hf
  rw [show Wait.inside .preempted = false from rfl, Bool.or_false] at hpark
  simpa [State.giveWay, hslot, hf, hirr] using hpark

/-- A firing that is revocable is voided. -/
theorem giveWay_voids {s : State} {k : Nat} {sl : Slot} {f : Firing} (hslot : s.slot k = some sl) (hf : sl.firing = some f)
    (hirr : f.irr = false) : ((s.giveWay k).slot k).map (fun u => (u.firing, u.due.voids)) = some (none, sl.due.voids + 1) := by
  obtain ⟨u, hu, hfir, hvoids⟩ := dropFiring_slot hslot
  simp [State.giveWay, hslot, hf, hirr, updSlot_slot, hu, hfir, hvoids]

theorem preEmption_dispatches {s : State} {tile k : Nat} (h : (s.noteReady tile).givesWay tile = some k) :
    happens (.preEmption tile) s fun t => match ((s.noteReady tile).giveWay k).select tile with
      | some (i, st) => t = ((s.noteReady tile).giveWay k).dispatch (tile * 8 + i) st
      | none => t = (s.noteReady tile).giveWay k := by
  show ∃ t, execPreEmption tile s = .next t ∧ _
  simp only [execPreEmption, h]
  cases ((s.noteReady tile).giveWay k).select tile with
  | none => exact ⟨_, rfl, rfl⟩
  | some x => exact ⟨_, rfl, rfl⟩

/-! ### Commits in their turn, overruns and waits -/

theorem stampedCommit_finishes {s : State} {k : Nat} {sl : Slot} {f : Firing} {e : EndKind} (hslot : s.slot k = some sl)
    (hf : sl.firing = some f) (hp : f.parked = some (.commitTurn e)) (hfr : sl.due.frozen = false) (hsur : isSurrogate sl f = false)
    (hon : (s.onTiles k).isSome = true) (hl : s.lowerDone k f.r.stamp.toNat sl.pl.rank = true) :
    happens (.stampedCommit k) s fun t => t = (s.putFiring k sl { f with parked := none }).finish k e := by
  refine ⟨_, ?_, rfl⟩
  show execStampedCommit k s = _
  simp [execStampedCommit, hslot, hf, hp, hfr, hon, hl, hsur]

theorem stampedCommit_waits {s : State} {k : Nat} {sl : Slot} {f : Firing} {e : EndKind} (hslot : s.slot k = some sl)
    (hf : sl.firing = some f) (hp : f.parked = some (.commitTurn e)) (hl : s.lowerDone k f.r.stamp.toNat sl.pl.rank = false) :
    idles (.stampedCommit k) s := by
  show execStampedCommit k s = _
  simp [execStampedCommit, hslot, hf, hp, hl]

theorem slot_of_placed {s : State} {k : Nat} {sl : Slot} (h : s.placed k = some sl) : s.slot k = some sl := by
  unfold State.placed at h
  split at h
  · rename_i hs
    split at h
    · rw [hs, h]
    · cases h
  · cases h

theorem stampedCommit_skips {s : State} {k : Nat} {sl : Slot} (hp : s.placed k = some sl) (hf : sl.firing = none)
    (hskip : sl.due.skip = true) (hl : s.lowerDone k (s.nextStart k sl).1.toNat sl.pl.rank = true) :
    exec (.stampedCommit k) s = .next ((s.setSlot k { sl with due.skip := false }).commitEmpty k (s.newFiring k sl 0 false)) := by
  show execStampedCommit k s = _
  simp [execStampedCommit, slot_of_placed hp, hp, hf, hskip, hl]

theorem firingOverrun_traps {s : State} {k : Nat} {sl : Slot} {f : Firing} (hslot : s.slot k = some sl) (hf : sl.firing = some f)
    (hfr : sl.due.frozen = false) (hlen : sl.pl.actor.len < f.ran) : exec (.firingOverrun k) s =
      traps s k { code := 0x11, decl := BitVec.ofNat 64 sl.pl.actor.len, act := BitVec.ofNat 64 f.ran } := by
  show execFiringOverrun k s = _
  simp [execFiringOverrun, hslot, hf, hfr, hlen, traps]

theorem firingOverrun_idles {s : State} {k : Nat} {sl : Slot} {f : Firing} (hslot : s.slot k = some sl) (hf : sl.firing = some f)
    (hlen : f.ran ≤ sl.pl.actor.len) : idles (.firingOverrun k) s := by
  show execFiringOverrun k s = _
  simp [execFiringOverrun, hslot, hf, hlen]

theorem wfiWake_wakes {s : State} {k : Nat} {sl : Slot} {till : Nat} (hslot : s.slot k = some sl) (hw : sl.due.wfi = some (some till))
    (ht : till ≤ s.clock) : happens (.wfiWake k) s fun t => t = s.setSlot k { sl with due.wfi := none } := by
  refine ⟨_, ?_, rfl⟩
  show execWfiWake k s = _
  simp [execWfiWake, hslot, hw, ht]

theorem wfiWake_idles {s : State} {k : Nat} {sl : Slot} {till : Nat} (hslot : s.slot k = some sl) (hw : sl.due.wfi = some (some till))
    (ht : s.clock < till) : idles (.wfiWake k) s := by
  show execWfiWake k s = _
  simp [execWfiWake, hslot, hw, ht]

/-! ### A draw window ends -/

/-- A slot whose window's end starts no trap of a firing at once: nothing was drawn, or within its power, or no firing is there. -/
def drawsQuietly (sl : Slot) : Prop := sl.windowOp = none ∨ sl.pl.actor.power ≠ 0 ∨ sl.firing = none

/-- The trap of an operation drawn without power. -/
def drawTraps (sl : Slot) : List TrapInfo :=
  if sl.pl.actor.power = 0 then sl.windowOp.toList.map fun op => { code := 0x10, act := BitVec.ofNat 64 op } else []

/-- A slot after its draw window. -/
def drawn (sl : Slot) : Slot :=
  { sl with drawOp := none, firing := sl.firing.map fun f => { f with firstOp := none }, due.traps := sl.due.traps ++ drawTraps sl }

theorem drawn_windowOp (sl : Slot) : (drawn sl).windowOp = none := by
  cases h : sl.firing <;> simp [Slot.windowOp, drawn, h]

theorem drawTraps_nil {sl : Slot} (h : sl.windowOp = none ∨ sl.pl.actor.power ≠ 0) : drawTraps sl = [] := by
  unfold drawTraps
  rcases h with h | h <;> simp [h]

theorem drawFault_effect {s : State} {k : Nat} (h : ∀ sl, s.slot k = some sl → drawsQuietly sl) :
    s.drawFault k = { s with slots := (s.drawFault k).slots } ∧ (s.drawFault k).slot k = (s.slot k).map drawn ∧
      ∀ j, j ≠ k → (s.drawFault k).slot j = s.slot j := by
  unfold State.drawFault
  cases hs : s.slot k with
  | none => exact ⟨rfl, hs, fun _ _ => rfl⟩
  | some sl =>
    have hclean : drawTraps sl = [] → (s.setSlot k { sl with drawOp := none, firing := sl.firing.map fun f => { f with firstOp := none } }).slot k =
        some (drawn sl) := fun ht => by
      rw [setSlot_slot]
      simp [drawn, ht]
    dsimp only
    cases hop : sl.windowOp with
    | none => exact ⟨rfl, hclean (drawTraps_nil (.inl hop)), fun j hj => setSlot_slot_other s _ hj⟩
    | some op =>
      dsimp only
      split
      · rename_i hpow
        have hfir : sl.firing = none := by
          obtain hw | hw | hw := h sl hs
          · rw [hop] at hw; cases hw
          · exact absurd hpow hw
          · exact hw
        rw [hfir]
        refine ⟨rfl, ?_, fun j hj => ?_⟩
        · rw [if_neg (by simp), updSlot_slot, setSlot_slot]
          simp [drawn, drawTraps, hop, hpow, hfir]
        · rw [if_neg (by simp), updSlot_slot_other _ _ hj, setSlot_slot_other s _ hj]
      · rename_i hpow
        exact ⟨rfl, hclean (drawTraps_nil (.inr hpow)), fun j hj => setSlot_slot_other s _ hj⟩

theorem drawFaults_effect {tile : Nat} {l : List Nat} (hl : l.Nodup) {s : State}
    (h : ∀ i ∈ l, ∀ sl, s.slot (tile * 8 + i) = some sl → drawsQuietly sl) :
    let t := l.foldl (fun s i => s.drawFault (tile * 8 + i)) s
    t = { s with slots := t.slots } ∧ ∀ i ∈ l, t.slot (tile * 8 + i) = (s.slot (tile * 8 + i)).map drawn := by
  suffices hall : ∀ t, t = l.foldl (fun s i => s.drawFault (tile * 8 + i)) s → t = { s with slots := t.slots } ∧
      (∀ i ∈ l, t.slot (tile * 8 + i) = (s.slot (tile * 8 + i)).map drawn) ∧
      ∀ i, i ∉ l → t.slot (tile * 8 + i) = s.slot (tile * 8 + i) from ⟨(hall _ rfl).1, (hall _ rfl).2.1⟩
  rintro t rfl
  induction l generalizing s with
  | nil => exact ⟨rfl, fun _ hi => (List.not_mem_nil hi).elim, fun _ _ => rfl⟩
  | cons n l ih =>
    obtain ⟨hn, hl⟩ := List.nodup_cons.1 hl
    obtain ⟨hfirst, hrest⟩ := List.forall_mem_cons.1 h
    obtain ⟨hframe, hsame, hother⟩ := drawFault_effect hfirst
    have hne : ∀ i, i ≠ n → (s.drawFault (tile * 8 + n)).slot (tile * 8 + i) = s.slot (tile * 8 + i) := fun i hi => hother _ (by omega)
    have hni : ∀ i ∈ l, i ≠ n := fun i hi e => hn (e ▸ hi)
    obtain ⟨ihframe, ihin, ihout⟩ := ih hl fun i hi sl hs => hrest i hi sl ((hne i (hni i hi)).symm.trans hs)
    refine ⟨?_, fun i hi => ?_, fun i hi => ?_⟩
    · rw [List.foldl_cons, ihframe, hframe]
    · rw [List.foldl_cons]
      obtain rfl | hi := List.mem_cons.1 hi
      · rw [ihout i hn, hsame]
      · rw [ihin i hi, hne i (hni i hi)]
    · rw [List.mem_cons, not_or] at hi
      rw [List.foldl_cons, ihout i hi.2, hne i hi.1]

/-- The end of a draw window: the next one starts, and each slot has drawn. -/
theorem drawWindowEnd_draws {s : State} {tile : Nat} (hw : (s.tile tile).windowStart + 2700 ≤ s.clock)
    (h : ∀ i, i < 8 → ∀ sl, s.slot (tile * 8 + i) = some sl → drawsQuietly sl) :
    happens (.drawWindowEnd tile) s fun t => (t.tile tile).windowStart = s.clock / 2700 * 2700 ∧ t.mm = s.mm ∧
      ∀ i sl, i < 8 → s.slot (tile * 8 + i) = some sl → t.slot (tile * 8 + i) = some (drawn sl) := by
  let s1 := s.setTile tile { s.tile tile with windowStart := s.clock / drawWindow * drawWindow }
  obtain ⟨hframe, hslots⟩ := drawFaults_effect (tile := tile) List.nodup_range (s := s1) fun i hi => h i (List.mem_range.1 hi)
  have hexec : execDrawWindowEnd tile s = .next ((List.range 8).foldl (fun s i => s.drawFault (tile * 8 + i)) s1) :=
    if_neg (Nat.not_lt.2 hw)
  refine ⟨_, hexec, ?_, ?_, fun i sl hi hsl => ?_⟩
  · rw [hframe]
    exact congrArg Tile.windowStart (setTile_tile s tile _)
  · rw [hframe]
    rfl
  · rw [hslots i (List.mem_range.2 hi)]
    exact congrArg (Option.map drawn) hsl

theorem drawWindowEnd_clears {s : State} {tile : Nat} (hw : (s.tile tile).windowStart + 2700 ≤ s.clock)
    (h : ∀ i sl, i < 8 → s.slot (tile * 8 + i) = some sl → sl.windowOp = none ∨ sl.pl.actor.power ≠ 0) :
    happens (.drawWindowEnd tile) s fun t => (t.tile tile).windowStart = s.clock / 2700 * 2700 ∧ t.mm = s.mm ∧
      ∀ i sl, i < 8 → s.slot (tile * 8 + i) = some sl → ∃ u, t.slot (tile * 8 + i) = some u ∧ u.windowOp = none ∧ u.due = sl.due := by
  obtain ⟨t, hexec, hstart, hmm, hslots⟩ := drawWindowEnd_draws hw fun i hi sl hs => (h i sl hi hs).imp_right .inl
  refine ⟨t, hexec, hstart, hmm, fun i sl hi hs => ⟨_, hslots i sl hi hs, drawn_windowOp sl, ?_⟩⟩
  simp [drawn, drawTraps_nil (h i sl hi hs)]

theorem drawWindowEnd_traps {s : State} {tile i op : Nat} {sl : Slot} (hi : i < 8) (hw : (s.tile tile).windowStart + 2700 ≤ s.clock)
    (hs : s.slot (tile * 8 + i) = some sl) (hfir : sl.firing = none) (hpow : sl.pl.actor.power = 0) (hop : sl.windowOp = some op)
    (hother : ∀ j u, j < 8 → j ≠ i → s.slot (tile * 8 + j) = some u → u.windowOp = none) :
    happens (.drawWindowEnd tile) s fun t => ∃ u, t.slot (tile * 8 + i) = some u ∧
      u.due.traps = sl.due.traps ++ [{ code := 0x10, act := BitVec.ofNat 64 op }] := by
  obtain ⟨t, hexec, -, -, hslots⟩ := drawWindowEnd_draws hw fun j hj u hu => by
    by_cases hji : j = i
    · subst hji
      rw [hs] at hu
      cases hu
      exact .inr (.inr hfir)
    · exact .inl (hother j u hj hji hu)
  refine ⟨t, hexec, drawn sl, hslots i sl hi hs, ?_⟩
  simp [drawn, drawTraps, hop, hpow]

/-! ### A chunk of an MMT -/

theorem grinderChunk_exec {s : State} {k : Nat} {x : XFields} (hrun : (s.tile (tileOf k)).running = some (k % 8))
    (hw : s.wordAt k = some (.mmt x)) :
    exec (.grinderChunk k) s = match exec (.mmt x) { s with focus := tileOf k } with
      | .next t => .next { t with focus := s.focus }
      | o => o := by
  show execGrinderChunk k s = _
  simp only [execGrinderChunk, hrun, hw, if_true]
  rfl

/-- Who runs on the tile in focus is the slot that its tile says. -/
theorem running_of_current {s : State} {k : Nat} {sl : Slot} {f : Firing} (h : s.current = some (k, sl, f)) :
    ∃ i, (s.tile s.focus).running = some i ∧ k = s.focus * 8 + i := by
  unfold State.current at h
  split at h
  · cases h
  · rename_i i hi
    split at h
    · cases h
    · split at h
      · cases h
      · cases h
        exact ⟨i, hi, rfl⟩

/-- A panel multiplication with more than the next chunk to do goes on to the chunk after it. -/
theorem mmt_chunk {s : State} {k : Nat} {sl : Slot} {f : Firing} {x : XFields} {kr : Reg} (hk : Reg.ofSpec x.kidx.toNat = some kr)
    (hty : x.tyA ≠ .e2m1) (hn : (f.r.readG kr).toNat ≤ 131072) (ha : (f.r.readG x.a).toNat % 64 = 0) (hb : (f.r.readG x.b).toNat % 64 = 0)
    (hla : (f.r.readG x.a).toNat + 8 * (f.r.readG kr).toNat * x.tyA.bits ≤ sl.pl.lim * 64)
    (hlb : (f.r.readG x.b).toNat + 4 * (f.r.readG kr).toNat * x.tyA.bits ≤ sl.pl.lim * 64) (hmore : (f.grind + 1) * 64 < (f.r.readG kr).toNat) :
    s.mmt k sl f x = .ok { f with pc := f.pc - 1, grind := f.grind + 1 } := by
  have hkr : (Reg.ofSpec x.kidx.toNat).getD (.g 0) = kr := by rw [hk]; rfl
  have he : (x.tyA == .e2m1) = false := beq_false_of_ne hty
  have hrange : ¬ ((f.r.readG kr).toNat = 0 ∨ 131072 < (f.r.readG kr).toNat) := by omega
  have hpa : checkPanel (sl.pl.lim * 64) (f.r.readG x.a).toNat (8 * (f.r.readG kr).toNat * x.tyA.bits + 0) = .ok () := if_pos ⟨ha, hla⟩
  have hpb : checkPanel (sl.pl.lim * 64) (f.r.readG x.b).toNat (4 * (f.r.readG kr).toNat * x.tyA.bits + 0) = .ok () := if_pos ⟨hb, hlb⟩
  unfold State.mmt
  simp only [hkr, he, if_neg hrange, Bool.false_eq_true, if_false, hpa, hpb, if_pos hmore]
  rfl

theorem grinderChunk_goesOn {s : State} {k : Nat} {sl : Slot} {f : Firing} {x : XFields} {kr : Reg}
    (hr : Runs { s with focus := tileOf k } k sl f x.guard) (hw : s.wordAt k = some (.mmt x)) (hk : Reg.ofSpec x.kidx.toNat = some kr)
    (hty : x.tyA ≠ .e2m1) (hn : (f.r.readG kr).toNat ≤ 131072) (ha : (f.r.readG x.a).toNat % 64 = 0) (hb : (f.r.readG x.b).toNat % 64 = 0)
    (hla : (f.r.readG x.a).toNat + 8 * (f.r.readG kr).toNat * x.tyA.bits ≤ sl.pl.lim * 64)
    (hlb : (f.r.readG x.b).toNat + 4 * (f.r.readG kr).toNat * x.tyA.bits ≤ sl.pl.lim * 64) (hmore : (f.grind + 1) * 64 < (f.r.readG kr).toNat) :
    happens (.grinderChunk k) s fun t => t.focus = s.focus ∧ t.mm = s.mm ∧ t.slots = s.slots.put k { sl with
      firing := some { f.executed 0x72 with pc := f.pc, grind := f.grind + 1 } } := by
  obtain ⟨i, hi, hki⟩ := running_of_current hr.1
  have hmod : k % 8 = i := by
    have := slot_tileOf k
    dsimp only at hki
    omega
  have hchunk := mmt_chunk (s := { s with focus := tileOf k }) (k := k) (f := f.executed 0x72) hk hty hn ha hb hla hlb hmore
  have hmmt : exec (.mmt x) { s with focus := tileOf k } =
      did { s with focus := tileOf k } k sl { f.executed 0x72 with pc := f.pc, grind := f.grind + 1 } := by
    show execMmt x _ = _
    rw [execMmt, runFiring_runs hr rfl rfl, hchunk]
    rfl
  have hexec := grinderChunk_exec (hmod ▸ hi) hw
  rw [hmmt] at hexec
  exact ⟨_, hexec, rfl, rfl, rfl⟩

/-- Settles O33, clause by clause: the arbiter's notes change no more of a slot than since when it is ready, so what a firing begins
with is what the slot held; a tile's draw window ends slot by slot. -/
theorem firingsStartAndEnd : Obligations.FiringsStartAndEnd := by
  refine ⟨⟨fun s tile i st sl hi hrun hsel hslot hfir hn => firingStart_starts hi hrun hsel hslot hfir hn,
      fun s tile i st sl f hi hrun hsel hslot hfir => parkedFiringResume_resumes hi hrun hsel hslot hfir,
      fun s k sl hslot hrun hret hp hh hst hfir hfault hfr => handlerFiringStart_starts hslot hrun hret hp hh hst hfir hfault hfr,
      fun s k sl st hrun hsel hslot hfb hfir hn => fallbackFiring_starts hrun hsel hslot hfb hfir hn⟩,
    fun s tile k sl f hg hslot hf => ⟨giveWay_parks hslot hf, giveWay_voids hslot hf, preEmption_dispatches hg⟩,
    fun s k sl f e hslot hf hp hfr hsur hon => ⟨stampedCommit_finishes hslot hf hp hfr hsur hon, stampedCommit_waits hslot hf hp⟩,
    fun s k sl hp hf hskip hl => stampedCommit_skips hp hf hskip hl,
    fun s k sl f hslot hf hfr => ⟨firingOverrun_traps hslot hf hfr, firingOverrun_idles hslot hf⟩,
    fun s tile hw h => drawWindowEnd_clears hw h,
    fun s tile i sl op hi hw hs hfir hpow hop hother => drawWindowEnd_traps hi hw hs hfir hpow hop hother,
    fun s k x hrun hw => grinderChunk_exec hrun hw, ?_,
    fun s k sl till hslot hw => ⟨wfiWake_wakes hslot hw, wfiWake_idles hslot hw⟩⟩
  intro s k sl f x kr hr hw hk hty n pa pb hn ha hb hla hlb hmore
  exact grinderChunk_goesOn hr hw hk hty hn ha hb hla hlb hmore

end Sys2Proof.Proofs

/-! SUPPORT. Tokens, control entries and cuts (02 R24, R25, R40, R43; 06 R106, R116, R118; 09 R185; 23 R403, R404, R407). -/

namespace Sys2Proof.Proofs

open Sys2Proof.Machine Sys2Proof.Safety Sys2Proof.Laws

/-! ### Tokens written into a window -/

/-- A byte that some write names, and that every write of its address agrees on, is there after them. -/
theorem byte_writeEach_of_mem {m : Memory} (h : m.wf = true) {ws : List (Nat × Byte)} {a : Nat} {b : Byte} (hab : (a, b) ∈ ws)
    (hall : ∀ w ∈ ws, w.1 = a → w.2 = b) : (writeEach m ws).byte a = b := by
  induction ws generalizing m with
  | nil => cases hab
  | cons w ws ih =>
    obtain ⟨hw, hws⟩ := List.forall_mem_cons.1 hall
    by_cases hin : ∃ v ∈ ws, v.1 = a
    · obtain ⟨v, hv, hva⟩ := hin
      have hvb : v = (a, b) := Prod.ext hva (hws v hv hva)
      exact ih (wf_put h w.1 w.2) (hvb ▸ hv) hws
    · have hother : ∀ v ∈ ws, v.1 ≠ a := fun v hv hva => hin ⟨v, hv, hva⟩
      obtain rfl | hab := List.mem_cons.1 hab
      · exact (byte_writeEach_other _ hother).trans (byte_put_same h a b)
      · exact absurd rfl (hother _ hab)

/-- The bytes that tokens put into a window, from the arc's wp on. -/
def tokenWrites (s : State) (x : Arc) (k : Nat) (toks : List (List Byte)) : List (Nat × Byte) :=
  (toks.zipIdx).flatMap fun ti => (ti.1.zipIdx).map fun bj => (s.tokKey x k (cnt (x.wp + ti.2)) bj.2, bj.1)

theorem mem_tokenWrites {s : State} {x : Arc} {k : Nat} {toks : List (List Byte)} {w : Nat × Byte} :
    w ∈ tokenWrites s x k toks ↔ ∃ (i j : Nat) (tok : List Byte) (b : Byte),
      toks[i]? = some tok ∧ tok[j]? = some b ∧ w = (s.tokKey x k (cnt (x.wp + i)) j, b) := by
  simp only [tokenWrites, List.mem_flatMap, List.mem_map, Prod.exists, List.mem_zipIdx_iff_getElem?]
  constructor
  · rintro ⟨tok, i, hi, b, j, hj, rfl⟩
    exact ⟨i, j, tok, b, hi, hj, rfl⟩
  · rintro ⟨i, j, tok, b, hi, hj, rfl⟩
    exact ⟨tok, i, hi, b, j, hj, rfl⟩

theorem noteSram_frame (s : State) (keys : List Nat) : s.noteSram keys = { s with dv.hit := (s.noteSram keys).dv.hit } := by
  unfold State.noteSram
  split
  · dsimp only
    split <;> rfl
  · rfl

theorem noteTags_frame (s : State) (k : Nat) : s.noteTags k = { s with dv.hit := (s.noteTags k).dv.hit } := by
  unfold State.noteTags
  split <;> rfl

theorem writeTokens_frame (s : State) (x : Arc) (k : Nat) (toks : List (List Byte)) :
    s.writeTokens x k toks =
      { s with mm.sram := writeEach s.mm.sram (tokenWrites s x k toks), dv.hit := (s.writeTokens x k toks).dv.hit } := by
  unfold State.writeTokens
  extract_lets ws s1
  split
  · rename_i h
    have hws : tokenWrites s x k toks = [] := List.isEmpty_iff.1 h
    rw [hws]
    rfl
  · rw [noteTags_frame, noteSram_frame]
    rfl

theorem writeTokens_mem (s : State) (x : Arc) (k : Nat) (toks : List (List Byte)) : (s.writeTokens x k toks).mm.mem = s.mm.mem :=
  congrArg (·.mm.mem) (writeTokens_frame s x k toks)

theorem tokKey_noClones {s : State} {k : Nat} (h : s.cloneSet k = none) (x : Arc) (n j : Nat) : s.tokKey x k n j = x.tokKey k n j := by
  unfold State.tokKey State.tokPlace
  rw [h]

/-- The bytes of the tokens of a window lie apart. -/
theorem tokKey_inj {x : Arc} {k n n' j j' : Nat} (hj : j < x.size) (hj' : j' < x.size) (h : x.tokKey k n j = x.tokKey k n' j') :
    n % x.window = n' % x.window ∧ j = j' := by
  unfold Arc.tokKey carveKey at h
  have hsum : n % x.window * x.size + j = n' % x.window * x.size + j' := by omega
  have hdiv := congrArg (· / x.size) hsum
  have hmod := congrArg (· % x.size) hsum
  have hpos : 0 < x.size := by omega
  simpa [Nat.add_comm _ j, Nat.add_comm _ j', Nat.add_mul_div_right _ _ hpos, Nat.div_eq_of_lt hj, Nat.div_eq_of_lt hj',
    Nat.mod_eq_of_lt hj, Nat.mod_eq_of_lt hj'] using And.intro hdiv hmod

/-- Tokens whose numbers differ in the window are all there, byte for byte. -/
theorem writeTokens_byte {s : State} {x : Arc} {k : Nat} {toks : List (List Byte)} (hwf : s.mm.sram.wf = true) (hc : s.cloneSet k = none)
    (hsize : ∀ t ∈ toks, t.length = x.size)
    (hinj : ∀ i i', i < toks.length → i' < toks.length → cnt (x.wp + i) % x.window = cnt (x.wp + i') % x.window → i = i')
    {i j : Nat} {tok : List Byte} {b : Byte} (hi : toks[i]? = some tok) (hj : tok[j]? = some b) :
    (s.writeTokens x k toks).mm.sram.byte (x.tokKey k (cnt (x.wp + i)) j) = b := by
  have hlt : ∀ {i j : Nat} {tok : List Byte} {b : Byte}, toks[i]? = some tok → tok[j]? = some b → i < toks.length ∧ j < x.size := by
    intro i j tok b hi hj
    exact ⟨(List.getElem?_eq_some_iff.1 hi).1, hsize tok (List.mem_of_getElem? hi) ▸ (List.getElem?_eq_some_iff.1 hj).1⟩
  rw [writeTokens_frame]
  refine byte_writeEach_of_mem hwf (mem_tokenWrites.2 ⟨i, j, tok, b, hi, hj, by rw [tokKey_noClones hc]⟩) fun w hw hkey => ?_
  obtain ⟨i', j', tok', b', hi', hj', rfl⟩ := mem_tokenWrites.1 hw
  rw [tokKey_noClones hc] at hkey
  obtain ⟨hn, rfl⟩ := tokKey_inj (hlt hi' hj').2 (hlt hi hj).2 hkey
  obtain rfl := hinj i' i (hlt hi' hj').1 (hlt hi hj).1 hn
  rw [hi] at hi'
  obtain rfl := Option.some.inj hi'
  rw [hj] at hj'
  exact (Option.some.inj hj').symm

/-- Numbers of tokens that follow one another differ in a window that holds them all. -/
theorem tokenPlaces_differ {wp w n : Nat} (hn : n ≤ w) (h : w ∣ 2 ^ 32 ∨ wp + n ≤ 2 ^ 32) {i i' : Nat} (hi : i < n) (hi' : i' < n)
    (e : cnt (wp + i) % w = cnt (wp + i') % w) : i = i' := by
  have hcnt : ∀ j, j < n → cnt (wp + j) % w = (wp + j) % w := fun j hj => by
    unfold cnt
    rcases h with h | h
    · exact Nat.mod_mod_of_dvd _ h
    · rw [show (wp + j) % 4294967296 = wp + j from Nat.mod_eq_of_lt (by omega)]
  rw [hcnt i hi, hcnt i' hi'] at e
  have hmod : i ≡ i' [MOD w] := Nat.ModEq.add_left_cancel' wp e
  exact hmod.eq_of_lt_of_lt (by omega) (by omega)

/-! ### Arrivals -/

theorem mergeTokens_simple (s : State) {x : Arc} (h : simple x) : s.mergeTokens x = 0 := by
  unfold State.mergeTokens
  rw [h.2]
  rfl

/-- WP_ARRIVAL at an arc that is no merge, with what it brought: the fill is brought up to wp. -/
theorem wpArrival_simple {s t : State} {n : Nat} {l : List Carried} {x : Arc} (hc : s.carry n l = t) (hx : t.arc n = some x) (h : simple x) :
    exec (.wpArrival n l) s = .next (t.setArc n { x with wpSeen := x.wp }) := by
  show execWpArrival n l s = _
  have hm := h.1
  simp only [execWpArrival, hc, hx, hm, mergeTokens_simple _ h]
  rfl

theorem carry_nothing {s : State} {n : Nat} {x : Arc} (h : s.arc n = some x) : s.carry n [] = s := by
  unfold State.carry
  simp [h, State.peerClosed]

/-- One token that finds room on an arc from another package. -/
theorem carry_token {s : State} {n k p pkg tag : Nat} {x : Arc} {bs : List Byte} {taint : Bool} (hx : s.arc n = some x) (hs : simple x)
    (hcon : x.consumer = some (k, p)) (hprod : x.producer = none) (hcross : x.cross = some pkg) (hup : s.pathDown pkg = false)
    (hroom : cntSub x.published x.rp < s.windowRoom x) (hlen : bs.length = x.size) :
    s.carry n [.token tag bs taint] = s.takeCarried n (.token tag bs taint) := by
  have hin := hs.2
  have htokens : carriedTokens [.token tag bs taint] = 1 := rfl
  unfold State.carry
  simp [hx, Arc.leaves, Arc.arrives, hcon, hprod, hcross, hin, hup, htokens, carriedFit, hlen]
  omega

theorem windowRoom_noClones {s : State} {x : Arc} {k p : Nat} (hcon : x.consumer = some (k, p)) (hc : s.cloneSet k = none) :
    s.windowRoom x = x.window := by
  unfold State.windowRoom
  rw [hcon, Option.bind_some, hc]
  simp

theorem wpArrival_fills {s : State} {n : Nat} {x : Arc} (hx : s.arc n = some x) (hs : simple x) :
    happens (.wpArrival n []) s fun t => t = s.setArc n { x with wpSeen := x.wp } :=
  ⟨_, wpArrival_simple (carry_nothing hx) hx hs, rfl⟩

theorem carryOn_frame (s : State) (n : Nat) (set : List Nat) : s.carryOn n set = { s with arcs := (s.carryOn n set).arcs } := by
  unfold State.carryOn
  split <;> rfl

theorem carryOn_arc {s : State} {n : Nat} {x : Arc} (h : s.arc n = some x) (set : List Nat) :
    ∃ c, (s.carryOn n set).arc n = some { x with carry := c } := by
  unfold State.carryOn
  split
  · exact ⟨x.carry, h⟩
  · refine ⟨(x.published, set) :: x.carry, ?_⟩
    unfold State.arc at *
    rw [updArc_arcs, find_upd, if_pos rfl, h]
    rfl

/-- The arc after one token has come into its window. -/
def tokenCome (x : Arc) (bs : List Byte) (taint : Bool) : Arc :=
  { x.record [bs] taint with wp := cnt (x.wp + 1), poisoned := if taint then x.poisoned ++ [cnt x.wp] else x.poisoned }

theorem publish_window {s : State} {n k p : Nat} {x : Arc} {bs : List Byte} {taint : Bool} (hx : s.arc n = some x) (hm : x.merge = none)
    (hd : deliveredTo s x k p) (hpark : x.parked = []) (hcl : x.closed = false) (hctx : ∀ sl, s.slot k = some sl → sl.pl.ctx = x.tag) :
    s.publish n [bs] taint =
      ((s.writeTokens (x.record [bs] taint) k [bs]).setArc n (tokenCome x bs taint)).later (.wpArrival n) := by
  obtain ⟨hcon, hp⟩ := hd
  obtain ⟨sl, hsl⟩ := Option.isSome_iff_exists.1 hp
  have hown : ((s.slot k).any fun sl => sl.pl.ctx != x.tag) = false := by
    cases h : s.slot k with
    | none => rfl
    | some u => simp [hctx u h]
  unfold State.publish
  simp [hx, hcl, Arc.leaves, hcon, hown, Arc.record, hsl, hpark, hm, tokenCome]

theorem wpArrival_token {s : State} {n k p pkg : Nat} {x : Arc} {bs : List Byte} {taint : Bool} (hwf : s.mm.sram.wf = true)
    (hx : s.arc n = some x) (hs : simple x) (hd : deliveredTo s x k p) (hprod : x.producer = none) (hcross : x.cross = some pkg)
    (hc : s.cloneSet k = none) (hup : s.pathDown pkg = false) (hpark : x.parked = []) (hroom : cntSub x.published x.rp < x.window)
    (hlen : bs.length = x.size) (hcl : x.closed = false) (hctx : ∀ sl, s.slot k = some sl → sl.pl.ctx = x.tag) :
    happens (.wpArrival n [.token x.tag bs taint]) s fun t => (∃ y, t.arc n = some y ∧ y.wp = cnt (x.wp + 1) ∧ y.wpSeen = y.wp ∧ y.rp = x.rp ∧
        (taint = true → y.poisoned = x.poisoned ++ [cnt x.wp]) ∧ (taint = false → y.poisoned = x.poisoned)) ∧
      (∀ j (h : j < bs.length), t.mm.sram.byte (x.tokKey k (cnt x.wp) j) = bs[j]) ∧ t.mm.mem = s.mm.mem := by
  obtain ⟨hcon, hp⟩ := hd
  let s1 := s.carryOn n (s.eventsOf (peerUnit (x.cross.getD 0)))
  have hframe : s1 = { s with arcs := s1.arcs } := carryOn_frame s n _
  obtain ⟨c, hx1⟩ := carryOn_arc hx (s.eventsOf (peerUnit (x.cross.getD 0)))
  let x1 : Arc := { x with carry := c }
  have hown : ((s.arcCtx x).any fun i => i != x.tag) = false := by
    unfold State.arcCtx
    rw [hcon, Option.bind_some]
    cases h : s.slot k with
    | none => rfl
    | some u => simp [hctx u h]
  have hpub : s1.publish n [bs] taint =
      ((s1.writeTokens (x1.record [bs] taint) k [bs]).setArc n (tokenCome x1 bs taint)).later (.wpArrival n) :=
    publish_window hx1 hs.1 ⟨hcon, by rw [hframe]; exact hp⟩ hpark hcl (by rw [hframe]; exact hctx)
  have hcarry : s.carry n [.token x.tag bs taint] = s1.publish n [bs] taint := by
    rw [carry_token hx hs hcon hprod hcross hup (windowRoom_noClones hcon hc ▸ hroom) hlen]
    simp only [State.takeCarried, hx, hown]
    rfl
  refine ⟨_, wpArrival_simple (hcarry.trans hpub) (setArc_arc _ _ _) hs, ⟨_, setArc_arc _ _ _, rfl, rfl, rfl, ?_, ?_⟩, fun j hj => ?_, ?_⟩
  · rintro rfl
    rfl
  · rintro rfl
    rfl
  · have hbytes := writeTokens_byte (s := s1) (x := x1.record [bs] taint) (k := k) (toks := [bs]) (i := 0) (j := j) (b := bs[j])
      (by rw [hframe]; exact hwf) (by rw [hframe]; exact hc) (List.forall_mem_singleton.2 hlen) (by simp) rfl (List.getElem?_eq_getElem hj)
    exact hbytes
  · rw [setArc_mm, later_mm, setArc_mm, writeTokens_frame, hframe]

theorem wpArrival_foreign {s : State} {n k p pkg tag : Nat} {x : Arc} {bs : List Byte} {taint : Bool} {sl : Slot} (hx : s.arc n = some x)
    (hs : simple x) (hcon : x.consumer = some (k, p)) (hprod : x.producer = none) (hcross : x.cross = some pkg) (hup : s.pathDown pkg = false)
    (hroom : cntSub x.published x.rp < s.windowRoom x) (hlen : bs.length = x.size) (hsl : s.slot k = some sl) (htag : sl.pl.ctx ≠ tag) :
    happens (.wpArrival n [.token tag bs taint]) s fun t => t.arc n = some { x with wpSeen := x.wp } ∧ t.mm = s.mm ∧
      (t.tile (tileOf k)).protEvents = (s.tile (tileOf k)).protEvents + 1 := by
  have hcarry : s.carry n [.token tag bs taint] = s.foreignTokens { x with tag := tag } 1 := by
    rw [carry_token hx hs hcon hprod hcross hup hroom hlen]
    simp [State.takeCarried, hx, State.arcCtx, hcon, hsl, htag]
  have hforeign : s.foreignTokens { x with tag := tag } 1 =
      (s.setTile (tileOf k) { s.tile (tileOf k) with protEvents := (s.tile (tileOf k)).protEvents + 1 }).report "protection event" tag 1 := by
    unfold State.foreignTokens
    simp only [hcon]
  refine ⟨_, wpArrival_simple (hcarry.trans hforeign) hx hs, setArc_arc _ _ _, rfl, ?_⟩
  exact congrArg Tile.protEvents (setTile_tile s (tileOf k) _)

/-! ### The producer's copy of rp -/

theorem rpMirrorUpdate_own {s : State} {n : Nat} {x : Arc} (hx : s.arc n = some x) (hl : x.leaves = false)
    (hup : x.cross.any s.pathDown = false) :
    happens (.rpMirrorUpdate n none) s fun t => t.arc n = some { x with rpMirror := x.rp } ∧ t.mm = s.mm := by
  unfold happens
  simp only [show exec (.rpMirrorUpdate n none) s = execRpMirrorUpdate n none s from rfl, execRpMirrorUpdate, hx, hup, hl, Bool.false_eq_true,
    if_false]
  refine ⟨_, rfl, ?_⟩
  split
  · exact ⟨setArc_arc _ _ _, rfl⟩
  · exact ⟨setArc_arc _ _ _, rfl⟩

theorem rpMirrorUpdate_peer {s : State} {n r : Nat} {x : Arc} (hx : s.arc n = some x) (hl : x.leaves = true)
    (hup : x.cross.any s.pathDown = false) (hr : cntReached r x.rpMirror = true) (hw : cntReached x.wp r = true) :
    happens (.rpMirrorUpdate n (some r)) s fun t => t.mm = s.mm ∧
      t.arc n = some { x with rp := cnt r, rpMirror := cnt r, entries := x.entries.filter fun e => !cntReached r e.1 } := by
  refine ⟨s.setArc n { x with rp := cnt r, rpMirror := cnt r, entries := x.entries.filter fun e => !cntReached r e.1 }, ?_, rfl,
    setArc_arc _ _ _⟩
  show execRpMirrorUpdate n (some r) s = _
  simp [execRpMirrorUpdate, hx, hl, hup, hr, hw]

theorem rpMirrorUpdate_idles {s : State} {n : Nat} {x : Arc} {v : Option Nat} (hx : s.arc n = some x)
    (hdown : x.cross.any s.pathDown = true) : idles (.rpMirrorUpdate n v) s := by
  show execRpMirrorUpdate n v s = _
  simp only [execRpMirrorUpdate, hx, hdown, if_true]

/-! ### Parked tokens -/

/-- The numbers of the poisoned ones among tokens from wp on. -/
def poisonedFrom (wp : Nat) (l : List (List Byte × Bool)) : List Nat :=
  ((List.range l.length).filter fun i => (l[i]?).any (·.2)).map fun i => cnt (wp + i)

theorem mem_poisonedFrom {wp i : Nat} {l : List (List Byte × Bool)} {b : List Byte × Bool} (hi : l[i]? = some b) (hb : b.2 = true) :
    cnt (wp + i) ∈ poisonedFrom wp l := by
  refine List.mem_map_of_mem (f := fun i => cnt (wp + i)) (List.mem_filter.2 ⟨List.mem_range.2 (List.getElem?_eq_some_iff.1 hi).1, ?_⟩)
  rw [hi]
  exact hb

theorem placed_consumer {s : State} {x : Arc} {k p : Nat} (hd : deliveredTo s x k p) :
    (x.consumer.bind fun c => (s.placed c.1).map fun _ => c.1) = some k := by
  obtain ⟨hcon, hp⟩ := hd
  obtain ⟨sl, hsl⟩ := Option.isSome_iff_exists.1 hp
  rw [hcon, Option.bind_some, hsl]
  rfl

/-- The tokens of the spill ring that find room. -/
def going (s : State) (x : Arc) : List (List Byte × Bool) := x.parked.take (s.windowRoom x - cntSub x.wp x.rp)

theorem length_going (s : State) (x : Arc) : (going s x).length = min x.parked.length (s.windowRoom x - cntSub x.wp x.rp) := by
  rw [going, List.length_take, Nat.min_comm]

theorem going_eq_take (s : State) (x : Arc) : going s x = x.parked.take (going s x).length := by
  rw [length_going, going]
  rcases Nat.le_total x.parked.length (s.windowRoom x - cntSub x.wp x.rp) with h | h
  · rw [Nat.min_eq_left h, List.take_of_length_le h, List.take_length]
  · rw [Nat.min_eq_right h]

/-- The arc after its tokens that find room have left the spill ring for a merge. -/
def toMerge (s : State) (x : Arc) : Arc :=
  { x with parked := x.parked.drop (going s x).length, wp := cnt (x.wp + (going s x).length), waiting := x.waiting ++ going s x }

/-- The arc after its tokens that find room have left the spill ring for the window. -/
def toWindow (s : State) (x : Arc) : Arc :=
  { x with parked := x.parked.drop (going s x).length, wp := cnt (x.wp + (going s x).length),
           poisoned := x.poisoned ++ poisonedFrom x.wp (going s x) }

theorem parkedTokenDelivery_delivers {s : State} {n k p : Nat} {x : Arc} (hx : s.arc n = some x) (hd : deliveredTo s x k p)
    (hgo : (going s x).isEmpty = false) :
    (x.merge.isSome = true → exec (.parkedTokenDelivery n) s = .next ((s.setArc n (toMerge s x)).later (.wpArrival n))) ∧
    (x.merge.isSome = false → exec (.parkedTokenDelivery n) s =
      .next (((s.writeTokens x k ((going s x).map (·.1))).setArc n (toWindow s x)).later (.wpArrival n))) := by
  have hk := placed_consumer hd
  have hgoing : x.parked.take (s.windowRoom x - cntSub x.wp x.rp) = going s x := rfl
  have hexec : exec (.parkedTokenDelivery n) s = execParkedTokenDelivery n s := rfl
  refine ⟨fun hm => ?_, fun hm => ?_⟩
  · simp only [hexec, execParkedTokenDelivery, hx, hk, hgoing, hgo, hm, Bool.false_eq_true, if_true, if_false, toMerge]
  · simp only [hexec, execParkedTokenDelivery, hx, hk, hgoing, hgo, hm, Bool.false_eq_true, if_false, toWindow, poisonedFrom]

theorem arc_setArc_later (s : State) (n : Nat) (x : Arc) (d : DueRow) : ((s.setArc n x).later d).arc n = some x := by
  simp only [State.arc, later_arcs, setArc_arcs, find_put]

theorem toMerge_wp (s : State) (x : Arc) : (toMerge s x).wp = cnt (x.wp + (going s x).length) := by rw [toMerge]

theorem toMerge_rp (s : State) (x : Arc) : (toMerge s x).rp = x.rp := by rw [toMerge]

theorem toWindow_wp (s : State) (x : Arc) : (toWindow s x).wp = cnt (x.wp + (going s x).length) := by rw [toWindow]

theorem toWindow_rp (s : State) (x : Arc) : (toWindow s x).rp = x.rp := by rw [toWindow]

theorem toWindow_poisoned (s : State) (x : Arc) : (toWindow s x).poisoned = x.poisoned ++ poisonedFrom x.wp (going s x) := by rw [toWindow]

theorem parkedTokenDelivery_moves {s : State} {n k p : Nat} {x : Arc} (hwf : s.mm.sram.wf = true) (hx : s.arc n = some x)
    (hd : deliveredTo s x k p) (hpark : x.parked ≠ []) (hroom : cntSub x.wp x.rp < s.windowRoom x) :
    let go := min x.parked.length (s.windowRoom x - cntSub x.wp x.rp)
    happens (.parkedTokenDelivery n) s fun t => t.mm.mem = s.mm.mem ∧ ∃ y, t.arc n = some y ∧ y.parked = x.parked.drop go ∧
      y.wp = cnt (x.wp + go) ∧ y.rp = x.rp ∧
      (x.merge.isSome = true → y.waiting = x.waiting ++ x.parked.take go) ∧
      (x.merge = none → s.cloneSet k = none → (∀ b ∈ x.parked, b.1.length = x.size) → (x.window ∣ 2 ^ 32 ∨ x.wp + go ≤ 2 ^ 32) →
        ∀ i b, i < go → x.parked[i]? = some b → (b.2 = true → cnt (x.wp + i) ∈ y.poisoned) ∧
          ∀ j (h : j < b.1.length), t.mm.sram.byte (x.tokKey k (cnt (x.wp + i)) j) = b.1[j]) := by
  have hlen := length_going s x
  have htake := going_eq_take s x
  have hpos : 0 < x.parked.length := List.length_pos_of_ne_nil hpark
  have hne : (going s x).isEmpty = false := by
    rw [List.isEmpty_eq_false_iff_exists_mem]
    exact List.exists_mem_of_length_pos (by omega)
  obtain ⟨hmerge, hwindow⟩ := parkedTokenDelivery_delivers hx hd hne
  dsimp only
  rw [← hlen]
  cases hm : x.merge with
  | some m =>
    refine ⟨_, hmerge (by rw [hm]; rfl), rfl, toMerge s x, arc_setArc_later _ _ _ _, rfl, toMerge_wp s x, toMerge_rp s x, fun _ => congrArg (x.waiting ++ ·) htake, fun h => ?_⟩
    cases h
  | none =>
    refine ⟨_, hwindow (by rw [hm]; rfl), ?_, toWindow s x, arc_setArc_later _ _ _ _, rfl, toWindow_wp s x, toWindow_rp s x, fun h => ?_, fun _ hc hsize hw i b hi hb => ⟨fun hbad => ?_, fun j hj => ?_⟩⟩
    · rw [later_mm, setArc_mm, writeTokens_mem]
    · cases h
    · have hgi : (going s x)[i]? = some b := by rw [htake, List.getElem?_take_of_lt hi, hb]
      rw [toWindow_poisoned]
      exact List.mem_append_right _ (mem_poisonedFrom hgi hbad)
    · have hgi : ((going s x).map (·.1))[i]? = some b.1 := by
        rw [List.getElem?_map, htake, List.getElem?_take_of_lt hi, hb]
        rfl
      have hwide : (going s x).length ≤ x.window :=
        hlen.le.trans ((Nat.min_le_right _ _).trans ((Nat.sub_le _ _).trans (windowRoom_noClones hd.1 hc).le))
      have hfit : ∀ t ∈ (going s x).map (·.1), t.length = x.size := List.forall_mem_map.2 fun c hcm => hsize c (List.mem_of_mem_take hcm)
      rw [later_mm, setArc_mm]
      refine writeTokens_byte hwf hc hfit (fun i i' hi hi' e => ?_) hgi (List.getElem?_eq_getElem hj)
      rw [List.length_map] at hi hi'
      exact tokenPlaces_differ hwide hw hi hi' e

theorem parkedTokenDelivery_idles {s : State} {n k p : Nat} {x : Arc} (hx : s.arc n = some x) (hd : deliveredTo s x k p)
    (hfull : s.windowRoom x ≤ cntSub x.wp x.rp) : idles (.parkedTokenDelivery n) s := by
  have hk := placed_consumer hd
  have hgo : x.parked.take (s.windowRoom x - cntSub x.wp x.rp) = [] := by rw [Nat.sub_eq_zero_of_le hfull, List.take_zero]
  show execParkedTokenDelivery n s = _
  simp only [execParkedTokenDelivery, hx, hk, hgo, List.isEmpty_nil, if_true]

/-! ### Control entries -/

/-- Does an entry count among those with an origin? -/
def countedEntry : Entry → Bool
  | .marker _ _ => false
  | .drain _ => false
  | _ => true

/-- The arc after its first entry has been delivered. -/
def entryGone (x : Arc) (e : Entry) (rest : List (Nat × Entry)) : Arc :=
  { x with entries := rest, origins := if countedEntry e then x.origins.drop 1 else x.origins }

/-- The state in which an entry is delivered: the arc has lost it, and the slot has seen what came with it. -/
def entrySeen (s : State) (n : Nat) (x : Arc) (k q : Nat) (e : Entry) (rest : List (Nat × Entry)) : State :=
  (s.setArc n (entryGone x e rest)).updSlot k fun sl => { sl with seen := joinEvents sl.seen (x.carried q) }

theorem entryDue_ready {s : State} {x : Arc} {k p q : Nat} {e : Entry} {rest : List (Nat × Entry)} (h : entryReady s x k p q e rest) :
    s.entryDue x = some (k, p, q, e) := by
  obtain ⟨hcon, hent, hrp, hheld, hm, hidle⟩ := h
  unfold State.entryDue
  simp [hcon, hent, hrp, hheld, hm, hidle]

/-- A state that has more on its agenda only. -/
def Scheduled (s t : State) : Prop := t = { s with agenda := t.agenda }

theorem Scheduled.refl (s : State) : Scheduled s s := rfl

theorem Scheduled.later {s t : State} (h : Scheduled s t) (d : DueRow) : Scheduled s (t.later d) := by
  unfold Scheduled State.later at *
  rw [h]

theorem Scheduled.soon {s t : State} (h : Scheduled s t) (d : DueRow) : Scheduled s (t.soon d) := by
  unfold Scheduled State.soon at *
  rw [h]

theorem Scheduled.ite {s t u : State} {c : Prop} [Decidable c] (ht : Scheduled s t) (hu : Scheduled s u) : Scheduled s (if c then t else u) := by
  split
  · exact ht
  · exact hu

/-- An entry is delivered; what else may be due goes on the agenda. -/
theorem controlEntryDelivery_delivers {s : State} {n : Nat} {x : Arc} {k p q : Nat} {e : Entry} {rest : List (Nat × Entry)}
    (hx : s.arc n = some x) (h : entryReady s x k p q e rest) :
    ∃ t, exec (.controlEntryDelivery n) s = .next t ∧ Scheduled ((entrySeen s n x k q e rest).deliverEntry n k p (entryGone x e rest) q e) t := by
  have hdue := entryDue_ready h
  obtain ⟨-, hent, -, -, hm, -⟩ := h
  show ∃ t, execControlEntryDelivery n s = .next t ∧ _
  unfold execControlEntryDelivery
  rw [hx]
  dsimp only
  split
  · rename_i hsome
    rw [hm] at hsome
    cases hsome
  · rw [hdue, hent]
    refine ⟨_, rfl, .ite (.ite (.later ?_ _) ?_) (.soon (.ite (.later ?_ _) ?_) _)⟩
    all_goals
      cases e with
      | user j => exact (Scheduled.refl _).later _
      | mode num set issuer => exact .refl _
      | drain num => exact .refl _
      | marker cut al => exact .refl _

theorem entrySeen_slot {s : State} {n : Nat} {x : Arc} {k q : Nat} {e : Entry} {rest : List (Nat × Entry)} {sl : Slot} (h : s.slot k = some sl) :
    (entrySeen s n x k q e rest).slot k = some { sl with seen := joinEvents sl.seen (x.carried q) } := by
  unfold entrySeen
  rw [updSlot_slot]
  exact congrArg (Option.map _) h

theorem entrySeen_slot_other {s : State} {n : Nat} {x : Arc} {k q j : Nat} {e : Entry} {rest : List (Nat × Entry)} (h : j ≠ k) :
    (entrySeen s n x k q e rest).slot j = s.slot j := updSlot_slot_other _ _ h

theorem entrySeen_arc (s : State) (n : Nat) (x : Arc) (k q : Nat) (e : Entry) (rest : List (Nat × Entry)) :
    (entrySeen s n x k q e rest).arc n = some (entryGone x e rest) := setArc_arc _ _ _

theorem controlEntryDelivery_user {s : State} {n : Nat} {x : Arc} {k p q : Nat} {j : Fin 32} {rest : List (Nat × Entry)} {sl : Slot}
    (hx : s.arc n = some x) (h : entryReady s x k p q (.user j) rest) (hsl : s.slot k = some sl) :
    happens (.controlEntryDelivery n) s fun t => t.arc n = some { x with entries := rest, origins := x.origins.drop 1 } ∧ t.mm = s.mm ∧
      ∃ u, t.slot k = some u ∧ u.c = sl.c ||| BitVec.ofNat 32 (2 ^ j.val) ∧ u.firing = sl.firing ∧ u.sys = sl.sys := by
  obtain ⟨t, hexec, ht⟩ := controlEntryDelivery_delivers hx h
  have hslot := entrySeen_slot (n := n) (x := x) (q := q) (e := .user j) (rest := rest) hsl
  have hu : ∃ u, ((entrySeen s n x k q (.user j) rest).deliverEntry n k p (entryGone x (.user j) rest) q (.user j)).slot k = some u ∧
      u.c = sl.c ||| BitVec.ofNat 32 (2 ^ j.val) ∧ u.firing = sl.firing ∧ u.sys = sl.sys := by
    unfold State.deliverEntry
    rw [updSlot_slot, hslot]
    exact ⟨_, rfl, rfl, rfl, rfl⟩
  rw [ht] at hexec
  exact ⟨_, hexec, entrySeen_arc s n x k q (.user j) rest, rfl, hu⟩

theorem controlEntryDelivery_marker {s : State} {n : Nat} {x : Arc} {k p q cut : Nat} {al : Bool} {rest : List (Nat × Entry)} {sl : Slot}
    (hx : s.arc n = some x) (h : entryReady s x k p q (.marker cut al) rest) (hsl : s.slot k = some sl)
    (hoff : (s.ctx sl.pl.ctx).snapEn = false) :
    happens (.controlEntryDelivery n) s fun t => t.arc n = some { x with entries := rest } ∧ t.mm = s.mm ∧
      t.slot k = some { sl with seen := joinEvents sl.seen (x.carried q) } ∧ ∀ j, j ≠ k → t.slot j = s.slot j := by
  obtain ⟨t, hexec, ht⟩ := controlEntryDelivery_delivers hx h
  have hslot := entrySeen_slot (n := n) (x := x) (q := q) (e := .marker cut al) (rest := rest) hsl
  have hkeep : (entrySeen s n x k q (.marker cut al) rest).deliverEntry n k p (entryGone x (.marker cut al) rest) q (.marker cut al) =
      entrySeen s n x k q (.marker cut al) rest := by
    unfold State.deliverEntry State.deliverMarker
    rw [hslot]
    exact if_pos (by show (!(s.ctx sl.pl.ctx).snapEn) = true; rw [hoff]; rfl)
  rw [ht, hkeep] at hexec
  exact ⟨_, hexec, entrySeen_arc s n x k q (.marker cut al) rest, rfl, hslot, fun j hj => entrySeen_slot_other hj⟩

/-- Whether a rate set is empty for a region depends on where its actors are placed only. -/
theorem emptySet_congr {s t : State} {r r' : Region} (hslots : t.slots.map (·.2.pl) = s.slots.map (·.2.pl)) (hcfg : r'.cfg = r.cfg)
    (hact : r'.actors = r.actors) (set : Nat) : t.emptySet r' set = s.emptySet r set := by
  have hany : ∀ (u : State) (r : Region), u.emptySet r set =
      (u.slots.map (·.2.pl)).any fun pl => pl.cfg == r.cfg && r.actors.contains pl.actor.num && nth pl.actor.period set 0 == 0 := by
    intro u r
    rw [State.emptySet, State.regionSlots, List.any_filter, List.any_map]
    rfl
  rw [hany, hany, hslots, hcfg, hact]

theorem map_upd {α β : Type} (t : Tab α) (k : Nat) {g : α → α} {f : α → β} (h : ∀ a, f (g a) = f a) :
    (t.upd k g).map (fun c => f c.2) = t.map fun c => f c.2 := by
  induction t with
  | nil => rfl
  | cons c t ih =>
    obtain ⟨n, v⟩ := c
    by_cases hn : n = k <;> simp_all [Tab.upd]

theorem controlEntryDelivery_mode {s : State} {n : Nat} {x : Arc} {k p q num set issuer : Nat} {rest : List (Nat × Entry)} {r : Region}
    (hx : s.arc n = some x) (h : entryReady s x k p q (.mode num set issuer) rest) (hr : s.region (regionKey x.cfg num) = some r)
    (hq : r.queue = []) (hempty : s.emptySet r set = false) :
    happens (.controlEntryDelivery n) s fun t => t.arc n = some { x with entries := rest, origins := x.origins.drop 1 } ∧ t.mm = s.mm ∧
      t.region (regionKey x.cfg num) = some { r with queue := [{ rset := set, issuer := issuer, ran := 0, age := 0 }] } := by
  obtain ⟨t, hexec, ht⟩ := controlEntryDelivery_delivers hx h
  let s0 := entrySeen s n x k q (.mode num set issuer) rest
  let key := regionKey x.cfg num
  let r' : Region := { r with queue := [{ rset := set, issuer := issuer, ran := 0, age := 0 }] }
  have hpl : (s0.setRegion key r').slots.map (·.2.pl) = s.slots.map (·.2.pl) :=
    map_upd s.slots k (g := fun sl => { sl with seen := joinEvents sl.seen (x.carried q) }) (f := (·.pl)) fun _ => rfl
  have hempty' : (s0.setRegion key r').emptySet r' set = false :=
    (emptySet_congr hpl rfl rfl set).trans hempty
  have hreg : (s0.setRegion key r').region key = some r' := find_put _ _ _
  have hserve : (s0.setRegion key r').serveRegion key 1 = s0.setRegion key r' := by
    unfold State.serveRegion
    rw [hreg]
    exact if_neg (by rw [hempty']; exact Bool.false_ne_true)
  have hmode : s0.deliverEntry n k p (entryGone x (.mode num set issuer) rest) q (.mode num set issuer) = s0.setRegion key r' := by
    have hr0 : s0.region key = some r := hr
    show s0.deliverMode x.cfg num set issuer = _
    unfold State.deliverMode
    simp only [show s0.region (regionKey x.cfg num) = some r from hr0, hq]
    exact hserve
  rw [ht, hmode] at hexec
  exact ⟨_, hexec, entrySeen_arc s n x k q (.mode num set issuer) rest, rfl, hreg⟩

theorem controlEntryDelivery_idles {s : State} {n : Nat} {x : Arc} (hx : s.arc n = some x) (hm : x.merge = none) (hdue : s.entryDue x = none) :
    idles (.controlEntryDelivery n) s := by
  show execControlEntryDelivery n s = _
  simp only [execControlEntryDelivery, hx, hm, hdue]

/-! ### Cuts -/

theorem cutDone_swapped {s : State} {cfg : Nat} {c : Configuration} (hc : s.cfg cfg = some c) (hs : c.state = .swapped) (r : CutRun) :
    s.cutDone cfg r = false := by
  unfold State.cutDone
  simp [hc, hs]

theorem cutComplete_idles {s : State} {cfg : Nat} {c : Configuration} (hc : s.cfg cfg = some c) (hs : c.state = .swapped) :
    idles (.cutComplete cfg) s := by
  have hnone : (c.cuts.find? fun r => s.cutDone cfg r) = none := List.find?_eq_none.2 fun r _ => by
    rw [cutDone_swapped hc hs]
    exact Bool.false_ne_true
  show execCutComplete cfg s = _
  simp only [execCutComplete, hc, hnone]

theorem writeSection_frame (s : State) (cfg : Nat) :
    s.writeSection cfg = { s with mm.mem := (s.writeSection cfg).mm.mem, mm.order := (s.writeSection cfg).mm.order } := by
  unfold State.writeSection
  split
  · split
    · unfold State.writeDevice State.deviceEvent
      exact writeEvent_frame _ _ _ _
    · rfl
  · rfl

/-- A configuration after a cut of it is complete. -/
def cutEnded (c : Configuration) (r : CutRun) : Configuration :=
  let c1 := { c with cuts := c.cuts.filter fun y => y.num != r.num, inpr := if c.inpr = r.num then 0 else c.inpr }
  if r.dead then c1 else { c1 with last := r.num, vld := true }

theorem cutComplete_ends {s : State} {cfg : Nat} {c : Configuration} {r : CutRun} (hc : s.cfg cfg = some c)
    (hr : c.cuts.find? (s.cutDone cfg) = some r) :
    happens (.cutComplete cfg) s fun t => t.slots = s.slots ∧ t.cfg cfg = some (cutEnded c r) := by
  have hr' : (c.cuts.find? fun r => s.cutDone cfg r) = some r := hr
  have hput : ({ s with al.cfgs := s.al.cfgs.put cfg (cutEnded c r) } : State).cfg cfg = some (cutEnded c r) := find_put _ _ _
  let s1 := ({ s with al.cfgs := s.al.cfgs.put cfg (cutEnded c r) } : State).writeSection cfg
  have hexec : exec (.cutComplete cfg) s = .next (if (cutEnded c r).rollbackDue then s1.later (.cfgRollback cfg) else s1) := by
    show execCutComplete cfg s = _
    simp only [execCutComplete, hc, hr']
    rfl
  have hs1 : s1.slots = s.slots ∧ s1.cfg cfg = some (cutEnded c r) := by
    unfold s1
    rw [writeSection_frame]
    exact ⟨rfl, hput⟩
  refine ⟨_, hexec, ?_⟩
  split
  · exact hs1
  · exact hs1

/-! ### Merges -/

theorem mergeChoice_rules {s : State} {m : Nat} {x : Arc} {k p : Nat} {sl : Slot} {pref : Option Nat} (hcon : x.consumer = some (k, p))
    (hsl : s.slot k = some sl) :
    (s.arcSpace x = 0 → s.mergeChoice m x pref = none) ∧
    (sl.detl = 3 → (s.mergeWaiting x).contains x.turn = false → s.mergeChoice m x pref = none) ∧
    (sl.detl = 3 → ∀ t, s.mergeChoice m x pref = some t → t = s.mergeTake m x x.turn) := by
  have hk : (x.consumer.bind fun c => (s.slot c.1).map fun sl => (c.1, c.2, sl)) = some (k, p, sl) := by
    rw [hcon, Option.bind_some, hsl]
    rfl
  unfold State.mergeChoice
  simp only [hk]
  refine ⟨fun hfull => if_pos (.inl hfull), fun h3 hturn => ?_, fun h3 t ht => ?_⟩
  · split
    · rfl
    · rw [hturn]
      rfl
  · split at ht
    · cases ht
    · split at ht
      · exact (Option.some.inj ht).symm
      · cases ht

/-- Settles O34, clause by clause: the tokens of one delivery lie apart in the window, so each byte is there after all are written; an
entry's delivery puts nothing but rows on the agenda beside it. -/
theorem tokensEntriesAndCuts : Obligations.TokensEntriesAndCuts := by
  refine ⟨⟨fun s n x hx hs => wpArrival_fills hx hs,
      fun s n x k p pkg bs taint hwf hx hs hd hprod hcross hc hup hpark hroom hlen hcl hctx =>
        wpArrival_token hwf hx hs hd hprod hcross hc hup hpark hroom hlen hcl hctx,
      fun s n x k p pkg tag bs taint sl hx hs hcon hprod hcross hup hroom hlen hsl htag =>
        wpArrival_foreign hx hs hcon hprod hcross hup hroom hlen hsl htag,
      fun s n x hx hl hup => rpMirrorUpdate_own hx hl hup,
      fun s n x r hx hl hup hr hw => rpMirrorUpdate_peer hx hl hup hr hw,
      fun s n x v hx hdown => rpMirrorUpdate_idles hx hdown,
      fun s n x k p hwf hx hd hpark hroom => parkedTokenDelivery_moves hwf hx hd hpark hroom,
      fun s n x k p hx hd hfull => parkedTokenDelivery_idles hx hd hfull⟩,
    fun s n x k p q j rest sl hx h hsl => controlEntryDelivery_user hx h hsl,
    fun s n x k p q num set issuer rest r hx h hr hq hempty => controlEntryDelivery_mode hx h hr hq hempty,
    fun s n x k p q cut al rest sl hx h hsl hoff => controlEntryDelivery_marker hx h hsl hoff,
    fun s n x hx hm hdue => controlEntryDelivery_idles hx hm hdue,
    fun s cfg c hc hs => cutComplete_idles hc hs,
    fun s cfg c r hc hr hdead => ?_, fun s cfg c r hc hr hdead => ?_,
    fun s m x k p sl pref hcon hsl => mergeChoice_rules hcon hsl⟩
  · obtain ⟨t, hexec, hslots, hcfg⟩ := cutComplete_ends hc hr
    exact ⟨t, hexec, hslots, _, hcfg, by simp [cutEnded, hdead], by simp [cutEnded, hdead], by simp [cutEnded, hdead]⟩
  · obtain ⟨t, hexec, -, hcfg⟩ := cutComplete_ends hc hr
    exact ⟨t, hexec, _, hcfg, by simp [cutEnded, hdead], by simp [cutEnded, hdead], by simp [cutEnded, hdead]⟩

end Sys2Proof.Proofs

/-! SUPPORT. Quiescent points and the timeouts of mode and level changes (02 R37, R38; 09 R194, R197). -/

namespace Sys2Proof.Proofs

open Sys2Proof.Machine Sys2Proof.Safety Sys2Proof.Laws

/-! ### The end of a drain -/

/-- A state with another agenda, other launches and configurations only. -/
def AgendaAlloc (s t : State) : Prop := t = { s with agenda := t.agenda, al := t.al }

theorem AgendaAlloc.refl (s : State) : AgendaAlloc s s := rfl

theorem AgendaAlloc.trans {s t u : State} (h : AgendaAlloc s t) (g : AgendaAlloc t u) : AgendaAlloc s u := by
  unfold AgendaAlloc at *
  rw [g, h]

theorem drainOver_agendaAlloc (s : State) (key : Nat) : AgendaAlloc s (s.drainOver key) := by
  unfold State.drainOver
  split
  · split
    · exact .refl s
    · refine foldl_rel AgendaAlloc.refl AgendaAlloc.trans (fun s x => ?_) _ s
      rfl
  · exact .refl s

/-- Where no clone was asked for, nothing is left to do when a region does not drain any more. -/
theorem drainOver_noneWanted {s : State} {key : Nat} {r : Region} (hr : s.region key = some r) (h : noneWanted s r.cfg) :
    s.drainOver key = s := by
  unfold State.drainOver
  rw [hr]
  dsimp only
  split
  · rfl
  · have htodo : ((s.cfg r.cfg).elim [] fun c => c.cloneSets.filter fun x =>
        x.wanted && (s.slot x.original).any fun sl => r.actors.contains sl.pl.actor.num) = [] := by
      cases hc : s.cfg r.cfg with
      | none => rfl
      | some c =>
        refine List.filter_eq_nil_iff.2 fun z hz => ?_
        rw [h c hc z hz, Bool.false_and]
        exact Bool.false_ne_true
    rw [htodo]
    rfl

theorem serveRegion_empty {s : State} {key : Nat} {r : Region} (hr : s.region key = some r) (hq : r.queue = []) (fuel : Nat) :
    s.serveRegion key fuel = s := by
  cases fuel with
  | zero => rfl
  | succ fuel =>
    unfold State.serveRegion
    simp only [hr, hq]

/-! ### The switch -/

/-- A slot under another rate set, at its first phase. -/
def switched (n : Nat) (sl : Slot) : Slot := { sl with rset := n, phase := 0 }

/-- The slots of a list under another rate set: those that the list names, once or more often. -/
theorem switchSlots_effect (n : Nat) (l : List (Nat × Slot)) (s : State) :
    let t := l.foldl (fun (s : State) (ks : Nat × Slot) => s.updSlot ks.1 (switched n)) s
    t = { s with slots := t.slots } ∧ (∀ k, k ∈ l.map (·.1) → t.slots.find k = (s.slots.find k).map (switched n)) ∧
      ∀ k, k ∉ l.map (·.1) → t.slots.find k = s.slots.find k := by
  dsimp only
  induction l generalizing s with
  | nil => exact ⟨rfl, fun _ h => absurd h List.not_mem_nil, fun _ _ => rfl⟩
  | cons x l ih =>
    obtain ⟨hframe, hin, hout⟩ := ih (s.updSlot x.1 (switched n))
    have hself : (s.updSlot x.1 (switched n)).slots.find x.1 = (s.slots.find x.1).map (switched n) := by
      rw [updSlot_slots, find_upd, if_pos rfl]
    have hother : ∀ k, k ≠ x.1 → (s.updSlot x.1 (switched n)).slots.find k = s.slots.find k := fun k hk => by
      rw [updSlot_slots, find_upd, if_neg hk]
    rw [List.foldl_cons, List.map_cons]
    refine ⟨by rw [hframe]; rfl, fun k hk => ?_, fun k hk => ?_⟩
    · by_cases hkl : k ∈ l.map (·.1)
      · rw [hin k hkl]
        by_cases hkx : k = x.1
        · rw [hkx, hself, Option.map_map]
          rfl
        · rw [hother k hkx]
      · obtain rfl | hk := List.mem_cons.1 hk
        · rw [hout _ hkl, hself]
        · exact absurd hk hkl
    · rw [List.mem_cons, not_or] at hk
      rw [hout k hk.2, hother k hk.1]

/-- A region at its quiescent point takes the set that its only mode token names. -/
theorem switchRegion_effect {s : State} {key : Nat} {r : Region} {m : ModeToken} (hq : r.queue = [m]) (hl : r.levels = []) :
    let t := s.switchRegion key r
    t.mm = s.mm ∧ t.region key = some
        { r with cfgn := (r.cfgn + 1) % 2 ^ 32, cur := m.rset, queue := [], levelRan := 0, delta := 0, stepping := false } ∧
      t.slots = ((s.regionSlots r).foldl (fun (s : State) (ks : Nat × Slot) => s.updSlot ks.1 (switched m.rset)) s).slots := by
  let s1 := (s.regionSlots r).foldl (fun (s : State) (ks : Nat × Slot) => s.updSlot ks.1 (switched m.rset)) s
  let r1 : Region := { r with cfgn := (r.cfgn + 1) % 2 ^ 32, cur := m.rset, queue := [], levels := [], levelRan := 0, delta := 0, stepping := false }
  have hr1 : r1 = { r with cfgn := (r.cfgn + 1) % 2 ^ 32, cur := m.rset, queue := [], levelRan := 0, delta := 0, stepping := false } := by
    unfold r1
    rw [← hl]
  have hframe := (switchSlots_effect m.rset (s.regionSlots r) s).1
  have hswitch : s.switchRegion key r = (s1.setRegion key r1).drainOver key := by
    have hserve := serveRegion_empty (setRegion_region s1 key r1) rfl 1
    rw [← hserve]
    unfold State.switchRegion
    rw [hq, hl]
    rfl
  have hdrain : (s1.setRegion key r1).drainOver key = _ := drainOver_agendaAlloc _ _
  dsimp only
  rw [hswitch, hdrain, ← hr1]
  refine ⟨?_, setRegion_region s1 key r1, rfl⟩
  show s1.mm = s.mm
  unfold s1
  rw [hframe]

theorem quiescentPoint_switches {s : State} {key : Nat} {r : Region} {m : ModeToken} (hr : s.region key = some r) (h : servable s r m [])
    (hl : r.levels = []) :
    happens (.quiescentPoint key) s fun t => t.mm = s.mm ∧ t.region key = some
        { r with cfgn := (r.cfgn + 1) % 2 ^ 32, cur := m.rset, queue := [], levelRan := 0, delta := 0, stepping := false } ∧
      (∀ k sl, s.slots.find k = some sl → (k, sl) ∈ s.regionSlots r → t.slots.find k = some { sl with rset := m.rset, phase := 0 }) ∧
      (∀ k, (∀ sl, (k, sl) ∉ s.regionSlots r) → t.slots.find k = s.slots.find k) := by
  obtain ⟨hq, hquiet, heven, hsets, hdelta, hd3, hout⟩ := h
  obtain ⟨hmm, hreg, hslots⟩ := switchRegion_effect (s := s) (key := key) hq hl
  obtain ⟨-, hin, hnot⟩ := switchSlots_effect m.rset (s.regionSlots r) s
  refine ⟨s.switchRegion key r, ?_, hmm, hreg, fun k sl hk hmem => ?_, fun k hk => ?_⟩
  · show execQuiescentPoint key s = _
    have hstep : ¬ (s.regionLevel r = 3 ∧ r.stepping = false) := fun ⟨h3, hf⟩ => by rw [hd3 h3] at hf; cases hf
    have hdrains : ¬ (r.stepping = true ∧ s.drainsOut r = true) := fun ⟨hs, hf⟩ => by rw [hout hs] at hf; cases hf
    simp [execQuiescentPoint, hr, Region.drain, Region.dst, hq, hquiet, heven, hsets, hdelta, hstep, hdrains]
  · rw [hslots, hin k (List.mem_map_of_mem hmem), hk]
    rfl
  · rw [hslots, hnot k fun hmem => ?_]
    obtain ⟨x, hx, rfl⟩ := List.mem_map.1 hmem
    exact hk x.2 hx

theorem quiescentPoint_idles {s : State} {key : Nat} {r : Region} (hr : s.region key = some r) (h : s.quiescent r = false ∨ r.drain = false) :
    idles (.quiescentPoint key) s := by
  show execQuiescentPoint key s = _
  rcases h with h | h <;> simp [execQuiescentPoint, hr, h]

/-! ### Drain tokens -/

/-- A state with another agenda, other arcs and other messages on their way only. -/
def AgendaArcs (s t : State) : Prop := t = { s with agenda := t.agenda, arcs := t.arcs, outbox := t.outbox, dv := t.dv }

theorem AgendaArcs.refl (s : State) : AgendaArcs s s := rfl

theorem AgendaArcs.trans {s t u : State} (h : AgendaArcs s t) (g : AgendaArcs t u) : AgendaArcs s u := by
  unfold AgendaArcs at *
  rw [g, h]

theorem publishEntries_agendaArcs (s : State) (n : Nat) (es : List Entry) : AgendaArcs s (s.publishEntries n es) := by
  unfold State.publishEntries
  split
  · exact .refl s
  · split
    · exact .refl s
    · split
      · unfold State.toPeer
        split
        · rfl
        · rfl
      · split
        · exact .refl s
        · rfl

theorem quiescentPoint_placesDrains {s : State} {key : Nat} {r : Region} {m : ModeToken} (hr : s.region key = some r) (hq : r.queue = [m])
    (hquiet : s.quiescent r = true) (heven : s.evenSet r m.rset = true) (hsets : s.regionSets r = []) (hdelta : r.delta ≠ 1)
    (h3 : s.regionLevel r = 3) (hstep : r.stepping = false) :
    happens (.quiescentPoint key) s fun t => t.region key = some { r with stepping := true } ∧ t.slots = s.slots ∧ t.mm = s.mm := by
  refine ⟨s.placeDrains key r, ?_, ?_⟩
  · show execQuiescentPoint key s = _
    simp [execQuiescentPoint, hr, Region.drain, Region.dst, hq, hquiet, heven, hsets, hdelta, h3, hstep]
  · let s1 := s.setRegion key { r with stepping := true }
    let t := ((s.arcs.filter fun x => s.insideRegion r x.2).map (·.1)).foldl (fun (s : State) (n : Nat) => s.publishEntries n [.drain r.num]) s1
    have ht : AgendaArcs s1 t := foldl_rel AgendaArcs.refl AgendaArcs.trans (fun s n => publishEntries_agendaArcs s n _) _ s1
    have hframe : s.placeDrains key r = t.later (.quiescentPoint key) := rfl
    rw [hframe, ht]
    exact ⟨setRegion_region s key _, rfl, rfl⟩

/-! ### Mode faults -/

/-- A mode fault of an issuer that has not exited: the token goes, and the issuer's next firing takes the trap. -/
theorem modeFault_issuer {s : State} {key k cause : Nat} {r : Region} {m : ModeToken} {sl : Slot} (hw : noneWanted s r.cfg)
    (hiss : s.issuerSlot r.cfg m.issuer = some (k, sl)) (hex : sl.due.exited = false) :
    let t := s.modeFault key r m cause
    t.region key = some { r with queue := r.queue.drop 1, lf := cause, stepping := false } ∧ t.mm = s.mm ∧
      t.slot k = some { sl with due.traps := sl.due.traps ++ [modeTrap r m cause] } := by
  let r0 : Region := { r with queue := r.queue.drop 1, lf := cause, stepping := false }
  have hs1 : ∃ a, (if r.stepping then (s.setRegion key r0).takeDrains r else s.setRegion key r0).drainOver key =
      ({ s with arcs := a } : State).setRegion key r0 := by
    split
    · exact ⟨_, drainOver_noneWanted (r := r0) (setRegion_region s key r0) hw⟩
    · exact ⟨_, drainOver_noneWanted (r := r0) (setRegion_region s key r0) hw⟩
  obtain ⟨a, ha⟩ := hs1
  have hiss1 : (({ s with arcs := a } : State).setRegion key r0).issuerSlot r.cfg m.issuer = some (k, sl) := hiss
  have hfault : s.modeFault key r m cause =
      (({ s with arcs := a } : State).setRegion key r0).setSlot k { sl with due.traps := sl.due.traps ++ [modeTrap r m cause] } := by
    unfold State.modeFault
    extract_lets s0 s1 info
    rw [show s1 = _ from ha, hiss1]
    exact if_neg (by rw [hex]; exact Bool.false_ne_true)
  dsimp only
  rw [hfault]
  exact ⟨setRegion_region _ key r0, rfl, setSlot_slot _ _ _⟩

/-- The only mode token of a region faults, and the region goes on under its old set. -/
theorem modeFault_last {s : State} {key k cause : Nat} {r : Region} {m : ModeToken} {sl : Slot} (hw : noneWanted s r.cfg) (hq : r.queue = [m])
    (hiss : s.issuerSlot r.cfg m.issuer = some (k, sl)) (hex : sl.due.exited = false) :
    let t := (s.modeFault key r m cause).serveRegion key r.queue.length
    t.region key = some { r with queue := [], lf := cause, stepping := false } ∧ t.mm = s.mm ∧
      t.slot k = some { sl with due.traps := sl.due.traps ++ [modeTrap r m cause] } := by
  obtain ⟨hreg, hmm, hslot⟩ := modeFault_issuer (key := key) (cause := cause) hw hiss hex
  rw [hq, List.drop_one, List.tail_cons] at hreg
  dsimp only
  rw [serveRegion_empty hreg rfl]
  exact ⟨hreg, hmm, hslot⟩

theorem drainTimeout_faults {s : State} {key k : Nat} {r : Region} {m : ModeToken} {sl : Slot} (hr : s.region key = some r)
    (hw : noneWanted s r.cfg) (hq : r.queue = [m]) (hran : 27000000 ≤ m.ran) (hiss : s.issuerSlot r.cfg m.issuer = some (k, sl))
    (hex : sl.due.exited = false) :
    happens (.drainTimeout key) s fun t => t.region key = some { r with queue := [], lf := 1, stepping := false } ∧ t.mm = s.mm ∧
      t.slot k = some { sl with due.traps := sl.due.traps ++ [modeTrap r m 1] } := by
  refine ⟨(s.modeFault key r m 1).serveRegion key r.queue.length, ?_, modeFault_last hw hq hiss hex⟩
  show execDrainTimeout key s = _
  simp only [execDrainTimeout, hr, hq, drainBound, if_pos hran]

theorem drainTimeout_idles {s : State} {key : Nat} {r : Region} {m : ModeToken} {rest : List ModeToken} (hr : s.region key = some r)
    (hq : r.queue = m :: rest) (hran : m.ran < 27000000) : idles (.drainTimeout key) s := by
  show execDrainTimeout key s = _
  simp only [execDrainTimeout, hr, hq, drainBound, if_neg (Nat.not_le.2 hran)]

theorem generationWaitTimeout_faults {s : State} {key k : Nat} {r : Region} {m : ModeToken} {sl : Slot} (hr : s.region key = some r)
    (hw : noneWanted s r.cfg) (hq : r.queue = [m]) (hage : 4096 ≤ m.age) (hodd : s.evenSet r m.rset = false)
    (hiss : s.issuerSlot r.cfg m.issuer = some (k, sl)) (hex : sl.due.exited = false) :
    happens (.generationWaitTimeout key) s fun t => t.region key = some { r with queue := [], lf := 3, stepping := false } ∧ t.mm = s.mm ∧
      t.slot k = some { sl with due.traps := sl.due.traps ++ [modeTrap r m 3] } := by
  refine ⟨(s.modeFault key r m 3).serveRegion key r.queue.length, ?_, modeFault_last hw hq hiss hex⟩
  show execGenerationWaitTimeout key s = _
  simp [execGenerationWaitTimeout, hr, hq, generationBound, hage, hodd]

theorem generationWaitTimeout_idles {s : State} {key : Nat} {r : Region} {m : ModeToken} {rest : List ModeToken} (hr : s.region key = some r)
    (hq : r.queue = m :: rest) (h : m.age < 4096 ∨ s.evenSet r m.rset = true) : idles (.generationWaitTimeout key) s := by
  have hno : ¬ (4096 ≤ m.age ∧ s.evenSet r m.rset = false) := by
    rintro ⟨hage, hodd⟩
    rcases h with h | h
    · omega
    · rw [hodd] at h
      cases h
  show execGenerationWaitTimeout key s = _
  simp [execGenerationWaitTimeout, hr, hq, generationBound, hno]

/-! ### Level changes that last too long -/

/-- A region without its one level change. -/
def levelLeft (r : Region) : Region :=
  { r with levels := [], levelRan := 0, stepping := r.stepping && (!r.queue.isEmpty || r.delta != 0) }

/-- The history of launches, those of a run marked as in part under a level. -/
def partNoted (s : State) (c : Configuration) : List RunRecord :=
  s.al.history.map fun h => if h.ctx == c.launch.ctx && s.al.cfgs.any (fun d =>
    d.2.launch.ctx == c.launch.ctx && d.2.launch.ordinal == h.ordinal && decide (d.2.state ≠ .ended)) then { h with part := true } else h

theorem mem_partNoted {s : State} {c : Configuration} {n : Nat} (hc : s.cfg n = some c) {h : RunRecord} (hh : h ∈ partNoted s c)
    (hctx : h.ctx = c.launch.ctx) (hord : h.ordinal = c.launch.ordinal) (hlive : c.state ≠ .ended) : h.part = true := by
  obtain ⟨h0, -, rfl⟩ := List.mem_map.1 hh
  split
  · rfl
  · rename_i hno
    rw [if_neg hno] at hctx hord
    refine absurd ?_ hno
    rw [hctx, hord, beq_self_eq_true, Bool.true_and, List.any_eq_true]
    exact ⟨(n, c), mem_of_find hc, by simp [hlive]⟩

/-- The package after the level change of packet `n` of queue `q`, for which one region alone waited, has failed. -/
def levelFailed (s : State) (key : Nat) (r : Region) (c : Configuration) (a : Tab Arc) (q n : Nat) : State :=
  ((({ s with arcs := a, al.history := partNoted s c } : State).setRegion key (levelLeft r)).report "level change timed out in region" r.cfg
    r.num).finishPacket q n 7

theorem levelChangeTimeout_exec {s : State} {key lvl q n : Nat} {r : Region} {c : Configuration} (hr : s.region key = some r)
    (hw : noneWanted s r.cfg) (hl : r.levels = [(lvl, q, n)]) (hc : s.cfg r.cfg = some c) (hran : 27000000 ≤ r.levelRan)
    (hone : s.regionsWaiting q n = [(key, r)]) : ∃ a, exec (.levelChangeTimeout key) s = .next (levelFailed s key r c a q n) := by
  have hothers : (r.levels.filter fun l => l.2 != (q, n)) = [] := by simp [hl]
  have hquit : ∃ a, (if r.stepping && r.queue.isEmpty && r.delta == 0 then (s.setRegion key (levelLeft r)).takeDrains r
      else s.setRegion key (levelLeft r)).drainOver key = ({ s with arcs := a } : State).setRegion key (levelLeft r) := by
    split
    · exact ⟨_, drainOver_noneWanted (r := levelLeft r) (setRegion_region s key _) hw⟩
    · exact ⟨_, drainOver_noneWanted (r := levelLeft r) (setRegion_region s key _) hw⟩
  obtain ⟨a, ha⟩ := hquit
  refine ⟨a, ?_⟩
  show execLevelChangeTimeout key s = _
  unfold execLevelChangeTimeout
  rw [hr]
  dsimp -zeta only
  rw [hl]
  dsimp -zeta only
  rw [if_neg (show ¬ r.levelRan < drainBound from Nat.not_lt.2 hran)]
  extract_lets quit s1 l s2
  have hs1 : s1 = ({ s with arcs := a } : State).setRegion key (levelLeft r) := by
    unfold s1
    rw [hone]
    show quit s (key, r) = _
    unfold quit
    dsimp only
    rw [hothers]
    exact ha
  have hs2 : s2 = s1.noteRuns c.launch.ctx (fun o => s1.al.cfgs.any fun d =>
      d.2.launch.ctx == c.launch.ctx && d.2.launch.ordinal == o && decide (d.2.state ≠ .ended)) fun h => { h with part := true } := by
    unfold s2 l
    rw [hc]
    rfl
  rw [hs2, hs1]
  rfl

theorem levelChangeTimeout_fails {s : State} {key lvl q n : Nat} {r : Region} {c : Configuration} (hr : s.region key = some r)
    (hw : noneWanted s r.cfg) (hl : r.levels = [(lvl, q, n)]) (hc : s.cfg r.cfg = some c) (hran : 27000000 ≤ r.levelRan)
    (hone : s.regionsWaiting q n = [(key, r)]) :
    happens (.levelChangeTimeout key) s fun t => t.slots = s.slots ∧ t.mm = s.mm ∧
      t.region key = some { r with levels := [], levelRan := 0, stepping := r.stepping && (!r.queue.isEmpty || r.delta != 0) } ∧
      (t.queue q).packets = ((s.queue q).packets.map fun p => if p.num = n ∧ p.finished.isNone then { p with finished := some 7 } else p) ∧
      ∀ h ∈ t.al.history, h.ctx = c.launch.ctx → h.ordinal = c.launch.ordinal → c.state ≠ .ended → h.part = true := by
  obtain ⟨a, hexec⟩ := levelChangeTimeout_exec hr hw hl hc hran hone
  refine ⟨_, hexec, rfl, rfl, setRegion_region _ key _, ?_, fun h hh hctx hord hlive => mem_partNoted hc hh hctx hord hlive⟩
  exact congrArg Queue.packets (setQueue_queue _ q _)

theorem levelChangeTimeout_idles {s : State} {key lvl q n : Nat} {r : Region} {rest : List (Nat × Nat × Nat)} (hr : s.region key = some r)
    (hl : r.levels = (lvl, q, n) :: rest) (hran : r.levelRan < 27000000) : idles (.levelChangeTimeout key) s := by
  show execLevelChangeTimeout key s = _
  simp only [execLevelChangeTimeout, hr, hl, drainBound, if_pos hran]

/-- Settles O35, clause by clause: what a region's switch or timeout changes beside the region and its slots is no more than rows on the
agenda, arcs that lose drain tokens, and clones that were asked for. -/
theorem modeChanges : Obligations.ModeChanges :=
  ⟨fun _ _ _ _ hr h hl => quiescentPoint_switches hr h hl,
    fun _ _ _ hr h => quiescentPoint_idles hr h,
    fun _ _ _ _ hr hq hquiet heven hsets hdelta h3 hstep => quiescentPoint_placesDrains hr hq hquiet heven hsets hdelta h3 hstep,
    fun _ _ _ _ _ _ hr hw hq hran hiss _ hex => drainTimeout_faults hr hw hq hran hiss hex,
    fun _ _ _ _ _ hr hq hran => drainTimeout_idles hr hq hran,
    fun _ _ _ _ _ _ hr hw hq hage hodd hiss _ hex => generationWaitTimeout_faults hr hw hq hage hodd hiss hex,
    fun _ _ _ _ _ hr hq h => generationWaitTimeout_idles hr hq h,
    fun _ _ _ _ _ _ _ hr hw hl hc hran hone => levelChangeTimeout_fails hr hw hl hc hran hone,
    fun _ _ _ _ _ _ _ hr hl hran => levelChangeTimeout_idles hr hl hran⟩

end Sys2Proof.Proofs

/-! SUPPORT. General and predicate registers, and the lanes that predicate bits govern (03 R46, R47). -/

namespace Sys2Proof.Proofs

open Sys2Proof.Machine Sys2Proof.Safety Sys2Proof.Laws

theorem get_set {α : Type} {n : Nat} (x : Vector α n) (i j : Fin n) (a : α) : (x.set i a).get j = if j = i then a else x.get j := by
  rw [Vector.get_eq_getElem, Vector.get_eq_getElem, Vector.getElem_set]
  simp only [Fin.ext_iff, eq_comm]

@[simp] theorem gr_zero (r : Regs) : r.gr 0 = 0 := rfl
@[simp] theorem pr_zero (r : Regs) : r.pr 0 = BitVec.allOnes 64 := rfl
@[simp] theorem setG_zero (r : Regs) (v : Dword) : r.setG 0 v = r := rfl
@[simp] theorem setP_zero (r : Regs) (v : Dword) : r.setP 0 v = r := rfl

/-- A file of registers whose register 0 reads `z`, after a write to another one. -/
theorem get_set_hardwired {α : Type} {n : Nat} [NeZero n] (x : Vector α n) (z a : α) {i : Fin n} (hi : i ≠ 0) (j : Fin n) :
    (if j = 0 then z else (x.set i a).get j) = if j = i ∧ i ≠ 0 then a else if j = 0 then z else x.get j := by
  rw [get_set]
  by_cases hj : j = i
  · subst hj
    simp [hi]
  · simp [hj]

theorem gr_setG (r : Regs) (n m : Fin 64) (v : Dword) : (r.setG n v).gr m = if m = n ∧ n ≠ 0 then v else r.gr m := by
  by_cases hn : n = 0
  · rw [if_neg fun h => h.2 hn, hn, setG_zero]
  · rw [Regs.setG, if_neg hn]
    exact get_set_hardwired r.g 0 v hn m

theorem pr_setP (r : Regs) (n m : Fin 16) (v : Dword) : (r.setP n v).pr m = if m = n ∧ n ≠ 0 then v else r.pr m := by
  by_cases hn : n = 0
  · rw [if_neg fun h => h.2 hn, hn, setP_zero]
  · rw [Regs.setP, if_neg hn]
    exact get_set_hardwired r.p (BitVec.allOnes 64) v hn m

theorem get_setV (r : Regs) (n m : Fin 64) (x : VReg) : (r.setV n x).v.get m = if m = n then x else r.v.get m := get_set r.v n m x

/-- The lane that governs an element is the one where the element begins, whatever its width (03 R47). -/
theorem laneOn_eq (p : Dword) (w e : Nat) : laneOn p w e = p.getLsbD (e * w / 32) := by
  unfold laneOn laneOf
  split
  · rename_i hw
    rw [hw, show e * 64 / 32 = 2 * e by omega]
  · rfl

theorem trapInfo_toNat (code : Nat) (v : Dword) : trapInfo code v.toNat = .trap { code := code, info := v } := by
  rw [trapInfo, BitVec.ofNat_toNat, BitVec.setWidth_eq]

/-- Settles O1: a register is read back from the place where it was written, and register 0 has no place. -/
theorem hardwiredRegisters : Obligations.HardwiredRegisters := by
  refine ⟨gr_setG, gr_zero, pr_setP, pr_zero, setG_zero, setP_zero, fun p e => ⟨?_, ?_, ?_, ?_⟩⟩
  all_goals rw [laneOn_eq]; congr 1; omega

end Sys2Proof.Proofs

/-! SUPPORT. System registers as MFSR reads and MTSR writes them (03 R50 to R56; 21 R369, R374). -/

namespace Sys2Proof.Proofs

open Sys2Proof.Machine Sys2Proof.Safety Sys2Proof.Laws

/-! ### MFSR -/

theorem mfsr_reads {s : State} {k : Nat} {sl : Slot} {f : Firing} {x : YFields} (h : Runs s k sl f x.guard) :
    exec (.mfsr x) s = wrote s k sl f 0xD4 (f.r.writeG x.gr (s.sysRead sl f x.sysreg.toNat x.sub.toNat)) := by
  show execMfsr x s = _
  rw [execMfsr, runFiring_runs h rfl rfl]
  rfl

theorem nth_mod {α : Type} {n : Nat} [NeZero n] (v : Vector α n) (i : Nat) (d : α) : nth v (i % n) d = v.get (Fin.ofNat n i) := by
  have hi : i % n < n := Nat.mod_lt _ (NeZero.pos n)
  simp [nth, Vector.get_eq_getElem, hi, Fin.ofNat]

/-! ### MTSR -/

theorem mtsr_writes {s : State} {k n : Nat} {sl : Slot} {f : Firing} {x : YFields} (h : Runs s k sl f x.guard) (hn : x.sysreg.toNat = n) :
    exec (.mtsr x) s = firingOutcome s k sl ((f.executed 0xD5).sysWrite sl n (f.r.readG x.gr) (wordInfo (.mtsr x))) := by
  show execMtsr x s = _
  rw [execMtsr, runFiring_runs h rfl rfl, ← hn]
  rfl

/-- What R374 lists of each register is what the model's functions of its number give. -/
theorem sysMask_of_mem : ∀ y ∈ sysBits, y.2 = sysMask y.1 := by decide
theorem readOnly_of_mem : ∀ y ∈ sysBits, y.1 ∉ mtsrWrites → sysWritable y.1 = false := by decide

/-- Only registers that MTSR may write have codes that are invalid. -/
theorem sysInvalid_readOnly {n : Nat} (h : sysWritable n = false) (v : Dword) : sysInvalid n v = false := by
  unfold sysInvalid
  split
  · cases h
  · cases h
  · cases h
  · rfl

section
variable {f : Firing} {sl : Slot} {n : Nat} {v word : Dword}

theorem sysWrite_reserved (h : v &&& ~~~(sysMask n) ≠ 0) : f.sysWrite sl n v word = .error (.trap { code := 0x03, info := word }) :=
  if_pos (.inl h)

theorem sysWrite_invalid (h : sysInvalid n v = true) : f.sysWrite sl n v word = .error (.trap { code := 0x03, info := word }) :=
  if_pos (.inr h)

/-- A legal value of a register meets none of the first checks. -/
theorem not_refused (hb : v &&& ~~~(sysMask n) = 0) (hi : sysInvalid n v = false) :
    ¬ (v &&& ~~~(sysMask n) ≠ 0 ∨ sysInvalid n v = true) := by
  rw [hb, hi]
  simp

theorem sysWrite_readOnly (hb : v &&& ~~~(sysMask n) = 0) (hw : sysWritable n = false) :
    f.sysWrite sl n v word = .error (.trap { code := 0x0A, info := v }) := by
  unfold Firing.sysWrite
  rw [if_neg (not_refused hb (sysInvalid_readOnly hw v)), hw, trapInfo_toNat]
  rfl

theorem sysWrite_fcsr (hb : v &&& ~~~(sysMask 0x000) = 0) (hi : sysInvalid 0x000 v = false) :
    f.sysWrite sl 0x000 v word = .ok { f with r.sys.fcsr := v } := if_neg (not_refused hb hi)

theorem sysWrite_tolr (hb : v &&& ~~~(sysMask 0x001) = 0) (hi : sysInvalid 0x001 v = false) :
    f.sysWrite sl 0x001 v word = .ok { f with r.sys.tolr := v } := if_neg (not_refused hb hi)

theorem sysWrite_chki (hb : v &&& ~~~(sysMask 0x002) = 0) :
    f.sysWrite sl 0x002 v word = .ok { f with r.sys.chki := (v &&& 0xFFFF0000) ||| (f.r.sys.chki &&& ~~~v &&& 3) } :=
  if_neg (not_refused hb rfl)

theorem sysWrite_spov (hb : v &&& ~~~(sysMask 0x008) = 0) (hi : sysInvalid 0x008 v = false) :
    f.sysWrite sl 0x008 v word = .ok { f with r.sys.spov := v } := if_neg (not_refused hb hi)

theorem sysWrite_flga (hb : v &&& ~~~(sysMask 0x011) = 0) :
    f.sysWrite sl 0x011 v word = .ok { f with b.flgaClear := f.b.flgaClear ||| v.setWidth 5 } := if_neg (not_refused hb rfl)

theorem sysWrite_trapv (hb : v &&& ~~~(sysMask 0x010) = 0) (hr : v.getLsbD 0 = true → inRun sl (bits v 17 3) = true) :
    f.sysWrite sl 0x010 v word = .ok { f with r.sys.trapv := v } := by
  unfold Firing.sysWrite
  rw [if_neg (not_refused hb rfl), if_neg (by decide)]
  refine if_neg fun ⟨he, hout⟩ => ?_
  rw [hr he] at hout
  cases hout

theorem sysWrite_trapv_outside (hb : v &&& ~~~(sysMask 0x010) = 0) (he : v.getLsbD 0 = true) (hr : inRun sl (bits v 17 3) = false) :
    f.sysWrite sl 0x010 v word = .error (.trap { code := 0x09, info := v }) := by
  unfold Firing.sysWrite
  rw [if_neg (not_refused hb rfl), if_neg (by decide), ← trapInfo_toNat]
  exact if_pos ⟨he, by rw [hr]; rfl⟩

theorem sysInvalid_fcsr : sysInvalid 0x000 v = true ↔ v.toNat / 1024 % 8 = 0 ∨ v.toNat / 1024 % 8 = 7 := by
  simp [sysInvalid, bits]

theorem sysInvalid_tolr : sysInvalid 0x001 v = true ↔ 0x7F800000 < v.toNat := by simp [sysInvalid]

theorem sysInvalid_spov : sysInvalid 0x008 v = true ↔ 64 < v.toNat % 128 := by simp [sysInvalid, bits]

end

/-- A dword below a power of two has no bits at or above it. -/
theorem and_not_allOnes_of_lt {v : Dword} {n : Nat} (h : v.toNat < 2 ^ n) : v &&& ~~~((BitVec.allOnes n).setWidth 64) = 0 := by
  refine BitVec.eq_of_getLsbD_eq fun i hi => ?_
  by_cases hin : i < n
  · simp [hi, hin]
  · have hv : v.getLsbD i = false := Nat.testBit_lt_two_pow (h.trans_le (Nat.pow_le_pow_right (by decide) (not_lt.1 hin)))
    rw [BitVec.getLsbD_and, hv, Bool.false_and]
    exact BitVec.getLsbD_zero.symm

/-! ### What MFSR and MTSR do -/

/-- Settles O28: MFSR's value is `sysRead`, and MTSR's outcome is that of `sysWrite` for the number of the register. -/
theorem systemRegisters : Obligations.SystemRegisters := by
  refine ⟨fun s k sl f x h => ?_, fun s k sl f x h => ?_⟩
  · refine ⟨_, mfsr_reads h, ?_⟩
    rw [← nth_mod sl.trapi x.sub.toNat 0]
    and_intros
    all_goals intro hn; rw [hn]; rfl
  · dsimp only
    refine ⟨fun hn hb h0 h7 => ?_, fun hn hle => ?_, fun hn hb => ?_, fun hn hb hle => ?_, fun hn hb hr => ?_, fun hn hb he hr => ?_,
      fun hn hlt => ?_, fun m hm hb => ?_, fun hbad => ?_, fun m hm hro hb => ?_⟩
    · rw [mtsr_writes h hn, sysWrite_fcsr hb (Bool.eq_false_iff.2 fun hi => (sysInvalid_fcsr.1 hi).elim h0 h7)]
      rfl
    · have hb : f.r.readG x.gr &&& ~~~(sysMask 0x001) = 0 := and_not_allOnes_of_lt (n := 31) (by omega)
      rw [mtsr_writes h hn, sysWrite_tolr hb (Bool.eq_false_iff.2 fun hi => absurd (sysInvalid_tolr.1 hi) (by omega))]
      rfl
    · rw [mtsr_writes h hn, sysWrite_chki hb]
      rfl
    · rw [mtsr_writes h hn, sysWrite_spov hb (Bool.eq_false_iff.2 fun hi => absurd (sysInvalid_spov.1 hi) (by omega))]
      rfl
    · rw [mtsr_writes h hn, sysWrite_trapv hb hr]
      rfl
    · rw [mtsr_writes h hn, sysWrite_trapv_outside hb he hr]
      rfl
    · have hb : f.r.readG x.gr &&& ~~~(sysMask 0x011) = 0 := and_not_allOnes_of_lt (n := 5) hlt
      rw [mtsr_writes h hn, sysWrite_flga hb]
      rfl
    · rw [show m = sysMask x.sysreg.toNat from sysMask_of_mem _ hm] at hb
      rw [mtsr_writes h rfl, sysWrite_reserved hb]
      rfl
    · have hi : sysInvalid x.sysreg.toNat (f.r.readG x.gr) = true := by
        rcases hbad with ⟨hn, hbad⟩ | ⟨hn, hbad⟩ | ⟨hn, hbad⟩ <;> rw [hn]
        · exact sysInvalid_fcsr.2 hbad
        · exact sysInvalid_tolr.2 hbad
        · exact sysInvalid_spov.2 hbad
      rw [mtsr_writes h rfl, sysWrite_invalid hi]
      rfl
    · rw [show m = sysMask x.sysreg.toNat from sysMask_of_mem _ hm] at hb
      rw [mtsr_writes h rfl, sysWrite_readOnly hb (readOnly_of_mem _ hm hro)]
      rfl

end Sys2Proof.Proofs

/-! SUPPORT. Elements and blocks of vector registers, and the instructions that move them (03 R46, R48; 10 R203; 11 R239 to R241). -/

namespace Sys2Proof.Proofs

open Sys2Proof.Machine Sys2Proof.Safety Sys2Proof.Laws

/-! ### Elements of a vector register (03 R46) -/

/-- Numbers below `2 ^ w` side by side, each `w` bits above the one before. -/
def packed (w : Nat) (f : Nat → Nat) (n : Nat) : Nat := ∑ i ∈ Finset.range n, f i % 2 ^ w * 2 ^ (i * w)

theorem packed_succ (w : Nat) (f : Nat → Nat) (n : Nat) : packed w f (n + 1) = packed w f n + f n % 2 ^ w * 2 ^ (n * w) :=
  Finset.sum_range_succ _ n

theorem packed_lt (w : Nat) (f : Nat → Nat) (n : Nat) : packed w f n < 2 ^ (n * w) := by
  induction n with
  | zero => simp [packed]
  | succ n ih =>
    have hf : f n % 2 ^ w + 1 ≤ 2 ^ w := Nat.mod_lt _ (Nat.two_pow_pos w)
    calc packed w f (n + 1) = packed w f n + f n % 2 ^ w * 2 ^ (n * w) := packed_succ w f n
      _ < 2 ^ (n * w) + f n % 2 ^ w * 2 ^ (n * w) := Nat.add_lt_add_right ih _
      _ = (f n % 2 ^ w + 1) * 2 ^ (n * w) := by ring
      _ ≤ 2 ^ w * 2 ^ (n * w) := Nat.mul_le_mul_right _ hf
      _ = 2 ^ ((n + 1) * w) := by ring

theorem toNat_ofNat_packed (w : Nat) (f : Nat → Nat) {n m : Nat} (h : n * w ≤ m) :
    (BitVec.ofNat m (packed w f n)).toNat = packed w f n := by
  rw [BitVec.toNat_ofNat, Nat.mod_eq_of_lt]
  exact (packed_lt w f n).trans_le (Nat.pow_le_pow_right (by decide) h)

theorem packed_elem (w : Nat) (f : Nat → Nat) {n i : Nat} (h : i < n) : packed w f n / 2 ^ (i * w) % 2 ^ w = f i % 2 ^ w := by
  induction n with
  | zero => cases h
  | succ n ih =>
    rw [packed_succ]
    obtain rfl | hi : i = n ∨ i < n := by omega
    · rw [Nat.add_mul_div_right _ _ (Nat.two_pow_pos _), Nat.div_eq_of_lt (packed_lt w f i), Nat.zero_add, Nat.mod_mod]
    · obtain ⟨m, rfl⟩ := Nat.exists_eq_add_of_lt hi
      rw [show 2 ^ ((i + m + 1) * w) = 2 ^ (m * w) * 2 ^ w * 2 ^ (i * w) by ring, ← mul_assoc, ← mul_assoc,
        Nat.add_mul_div_right _ _ (Nat.two_pow_pos _), Nat.add_mul_mod_self_right, ih hi]

theorem vbuild_eq (w : Nat) (f : Nat → Nat) : vbuild w f = BitVec.ofNat 2048 (packed w f (2048 / w)) := by
  have hfold : ∀ n a, (List.range n).foldr (fun i acc => acc + (f i % 2 ^ w) <<< (i * w)) a = packed w f n + a := by
    intro n
    induction n with
    | zero => intro a; simp [packed]
    | succ n ih =>
      intro a
      rw [List.range_succ, List.foldr_append, ih, packed_succ, List.foldr_cons, List.foldr_nil, Nat.shiftLeft_eq]
      ring
  rw [vbuild, hfold, Nat.add_zero]

/-- What is built of elements has these elements. -/
theorem velem_vbuild {w i : Nat} (f : Nat → Nat) (h : i < 2048 / w) : velem (vbuild w f) w i = f i % 2 ^ w := by
  rw [velem, vbuild_eq, toNat_ofNat_packed w f (Nat.div_mul_le_self 2048 w), Nat.shiftRight_eq_div_pow, packed_elem w f h]

@[simp] theorem velem_mod (x : VReg) (w i : Nat) : velem x w i % 2 ^ w = velem x w i := Nat.mod_mod _ _

/-! ### Elements and blocks written -/

theorem sameBut_setV (r : Regs) (n : Fin 64) (x : VReg) : sameBut (fun m => m = n) r (r.setV n x) :=
  ⟨fun m hm => by rw [get_setV, if_neg hm], rfl, rfl, rfl, rfl, rfl, r.sys.fcsr, rfl⟩

theorem sameBut_putElems (r : Regs) (d : Fin 64) (w : Nat) (on : Nat → Bool) (f : Nat → Nat) :
    sameBut (fun m => m = d) r (r.putElems d w on f) := sameBut_setV r d _

theorem velem_putElems (r : Regs) (d : Fin 64) {w e : Nat} (on : Nat → Bool) (f : Nat → Nat) (h : e < 2048 / w) :
    velem ((r.putElems d w on f).v.get d) w e = if on e then f e % 2 ^ w else velem (r.v.get d) w e := by
  rw [Regs.putElems, get_setV, if_pos rfl, velem_vbuild _ h]
  split
  · rfl
  · exact velem_mod _ w e

theorem partner_ne (d : Fin 64) : d ≠ partner d := by
  unfold partner
  omega

theorem sameBut_putBlocks (r : Regs) (d : Fin 64) (on : Nat → Bool) (el sc : Nat → Nat) :
    sameBut (fun m => m = d ∨ m = partner d) r (r.putBlocks d on el sc) := by
  refine ⟨fun m hm => ?_, rfl, rfl, rfl, rfl, rfl, r.sys.fcsr, rfl⟩
  obtain ⟨hd, hp⟩ := not_or.1 hm
  rw [Regs.putBlocks, get_setV, if_neg hp, get_setV, if_neg hd]

theorem velem_putBlocks (r : Regs) (d : Fin 64) (on : Nat → Bool) (el sc : Nat → Nat) {b e : Nat} (hb : b < 16) (he : e < 32) :
    velem ((r.putBlocks d on el sc).v.get d) 4 (32 * b + e) =
      if on b then el (32 * b + e) % 16 else velem (r.v.get d) 4 (32 * b + e) := by
  rw [Regs.putBlocks, get_setV, if_neg (partner_ne d), get_setV, if_pos rfl, velem_vbuild _ (by omega), show (32 * b + e) / 32 = b by omega]
  split
  · rfl
  · exact velem_mod _ 4 _

theorem velem_putBlocks_scale (r : Regs) (d : Fin 64) (on : Nat → Bool) (el sc : Nat → Nat) {b : Nat} (hb : b < 16) :
    velem ((r.putBlocks d on el sc).v.get (partner d)) 8 b = if on b then sc b % 256 else velem (r.v.get (partner d)) 8 b := by
  rw [Regs.putBlocks, get_setV, if_pos rfl, velem_vbuild _ (by omega)]
  simp only [hb, true_and]
  split
  · rfl
  · exact velem_mod _ 8 _

theorem blockOn_eq (r : Regs) (pm : Fin 16) (b : Nat) : blockOn (r.pmask pm) b = blockEnabled pm r b := by
  simp [blockOn, blockEnabled, Regs.pmask, List.range_succ, Bool.and_assoc]

theorem laneOn_pmask (r : Regs) (pm : Fin 16) (w e : Nat) : laneOn (r.pmask pm) w e = enabledBy pm w r e := laneOn_eq _ w e

/-! ### Vector operands (03 R48) -/

theorem vecNum_of_named {x : Reg} {r : Regs} (h : named x r) : r.vecNum x = .ok (vnum r x) := by
  obtain ⟨n, hn⟩ := h
  rw [vnum, hn]

theorem vec_of_named {x : Reg} {r : Regs} (h : named x r) : r.vec x = .ok (r.v.get (vnum r x)) := by
  rw [Regs.vec, vecNum_of_named h]
  rfl

theorem elemIndex_below {r : Regs} {t : Ty} {x : Reg} (h : (r.readG x).toNat < 2048 / t.bits) :
    r.elemIndex t x = .ok (r.readG x).toNat := if_pos h

theorem elemIndex_beyond {r : Regs} {t : Ty} {x : Reg} (h : 2048 / t.bits ≤ (r.readG x).toNat) :
    r.elemIndex t x = .error (.trap { code := 0x09, info := r.readG x }) := by
  rw [← trapInfo_toNat]
  exact if_neg (Nat.not_lt.2 h)

theorem code_within {r : Regs} {x : Reg} {hi : Nat} (h : (r.readG x).toNat ≤ hi) : r.code x hi = .ok (r.readG x).toNat := if_pos h

theorem code_beyond {r : Regs} {x : Reg} {hi : Nat} (h : hi < (r.readG x).toNat) :
    r.code x hi = .error (.trap { code := 0x09, info := r.readG x }) := by
  rw [← trapInfo_toNat]
  exact if_neg (Nat.not_le.2 h)

/-- An element extended as a loaded value is. -/
theorem widen_velem (t : Ty) (x : VReg) (i : Nat) : widen t (velem x t.bits i) = extended t (BitVec.ofNat t.bits (velem x t.bits i)) := by
  unfold widen extended sext
  split
  · rfl
  · refine BitVec.eq_of_toNat_eq ?_
    rw [BitVec.toNat_setWidth, BitVec.toNat_ofNat, BitVec.toNat_ofNat, velem_mod]

/-! ### Moves of elements (11 R239 to R241) -/

section
variable {i : Instr} {g : Guard} {op : Nat} {o : Operands} {body : Regs → Except Stop Regs} {d : Reg} {pre : Regs → Prop} {w : Nat}
  {on : Regs → Nat → Bool} {pm : Fin 16} {res : Regs → Nat → Nat} (hexec : ∀ s, exec i s = runRegs i s body)
  (hp : i.parts = some (op, o)) (hg : operandGuard o = g)
include hexec hp hg

/-- An instruction whose meaning writes elements of the vector register that it names. -/
theorem writesElems_of_putElems
    (hbody : ∀ r, named d r → pre r → ∃ on' f, body r = .ok (r.putElems (vnum r d) w on' f) ∧
      ∀ e, e < 2048 / w → on' e = on r e ∧ f e = res r e) : writesElems i g op d pre w on res := by
  intro s k sl f h hd hpre
  obtain ⟨on', fe, hb, heq⟩ := hbody f.r hd hpre
  refine ⟨_, by rw [hexec, runRegs_runs h hp hg, hb, regsOutcome_ok], sameBut_putElems _ _ _ _ _, fun e he => ?_⟩
  obtain ⟨hon, hres⟩ := heq e he
  rw [velem_putElems _ _ _ _ he, hon, hres]
  rfl

/-- An instruction whose meaning moves elements under a predicate. -/
theorem writesElems_of_move
    (hbody : ∀ r, named d r → pre r → ∃ f, body r = .ok (r.move (vnum r d) w pm f) ∧ ∀ e, e < 2048 / w → f e = res r e) :
    writesElems i g op d pre w (enabledBy pm w) res :=
  writesElems_of_putElems hexec hp hg fun r hd hpre => by
    obtain ⟨f, hb, hf⟩ := hbody r hd hpre
    exact ⟨_, f, hb, fun e he => ⟨laneOn_pmask r pm w e, hf e he⟩⟩

end

theorem vmov_writesElems (x : RFields) : writesElems (.vmov x) x.guard 0x6F x.d (plain x.ty (named x.a)) x.ty.bits
    (enabledBy x.pm x.ty.bits) fun r e => elemBits r x.a x.ty.bits e := by
  refine writesElems_of_move (fun s => show execVmov x s = _ from rfl) rfl rfl fun r hd ⟨hty, ha⟩ => ?_
  rw [vecNum_of_named hd, vecNum_of_named ha]
  exact ⟨_, if_neg hty, fun _ _ => rfl⟩

theorem vbcst_writesElems (x : RFields) : writesElems (.vbcst x) x.guard 0x5F x.d (plain x.ty fun _ => True) x.ty.bits
    (enabledBy x.pm x.ty.bits) fun r _ => (r.readG x.a).toNat := by
  refine writesElems_of_move (fun s => show execVbcst x s = _ from rfl) rfl rfl fun r hd ⟨hty, _⟩ => ?_
  rw [vecNum_of_named hd]
  exact ⟨_, if_neg hty, fun _ _ => rfl⟩

theorem vidx_writesElems (x : RFields) : writesElems (.vidx x) x.guard 0x62 x.d (fun _ => True) x.ty.bits (enabledBy x.pm x.ty.bits)
    fun r e => (r.readG x.a).toNat + e * (r.readG x.b).toNat := by
  refine writesElems_of_move (fun s => show execVidx x s = _ from rfl) rfl rfl fun r hd _ => ?_
  rw [vecNum_of_named hd]
  exact ⟨_, rfl, fun _ _ => rfl⟩

theorem vins_writesElems (x : RFields) : writesElems (.vins x) x.guard 0x61 x.d (fun r => (r.readG x.b).toNat < 2048 / x.ty.bits)
    x.ty.bits (fun r e => e == (r.readG x.b).toNat && enabledBy x.pm x.ty.bits r e) fun r _ => (r.readG x.a).toNat := by
  refine writesElems_of_putElems (fun s => show execVins x s = _ from rfl) rfl rfl fun r hd hb => ?_
  rw [vecNum_of_named hd, elemIndex_below hb]
  exact ⟨_, _, rfl, fun e _ => ⟨by rw [laneOn_pmask], rfl⟩⟩

theorem vperm_writesElems (x : RFields) : writesElems (.vperm x) x.guard 0x65 x.d (plain x.ty (two x.a x.b)) x.ty.bits
    (enabledBy x.pm x.ty.bits) fun r e => elemBits r x.a x.ty.bits (elemBits r x.b x.ty.bits e % (2048 / x.ty.bits)) := by
  refine writesElems_of_move (fun s => show execVperm x s = _ from rfl) rfl rfl fun r hd ⟨hty, ha, hb⟩ => ?_
  rw [vecNum_of_named hd, vecNum_of_named ha, vec_of_named hb]
  exact ⟨_, if_neg hty, fun _ _ => rfl⟩

theorem selected_eq (r : Regs) (p : Reg) (w e : Nat) : r.selected p w e = (r.readP p).getLsbD (e * w / 32) := laneOn_eq _ w e

theorem picked_eq (r : Regs) (p : Reg) (w : Nat) :
    r.picked p w = (List.range (2048 / w)).filter fun j => (r.readP p).getLsbD (j * w / 32) :=
  List.filter_congr fun j _ => selected_eq r p w j

theorem rankBelow_eq (r : Regs) (p : Reg) (w e : Nat) :
    r.rankBelow p w e = (List.range e).countP fun j => (r.readP p).getLsbD (j * w / 32) := by
  rw [Regs.rankBelow, ← List.countP_eq_length_filter]
  exact List.countP_congr fun j _ => by rw [selected_eq]

theorem vsel_writesElems (x : RFields) : writesElems (.vsel x) x.guard 0x53 x.d (two x.a x.b) x.ty.bits (enabledBy x.pm x.ty.bits)
    fun r e => if (r.readP x.c).getLsbD (e * x.ty.bits / 32) then elemBits r x.a x.ty.bits e else elemBits r x.b x.ty.bits e := by
  refine writesElems_of_move (fun s => show execVsel x s = _ from rfl) rfl rfl fun r hd ⟨ha, hb⟩ => ?_
  rw [vecNum_of_named hd, vec_of_named ha, vec_of_named hb]
  refine ⟨_, rfl, fun e _ => ?_⟩
  rw [selected_eq]
  rfl

theorem vcmpr_writesElems (x : RFields) : writesElems (.vcmpr x) x.guard 0x67 x.d (named x.a) x.ty.bits (enabledBy x.pm x.ty.bits)
    fun r e =>
      let chosen := (List.range (2048 / x.ty.bits)).filter fun j => (r.readP x.b).getLsbD (j * x.ty.bits / 32)
      if e < chosen.length then elemBits r x.a x.ty.bits (chosen.getD e 0) else 0 := by
  refine writesElems_of_move (fun s => show execVcmpr x s = _ from rfl) rfl rfl fun r hd ha => ?_
  rw [vecNum_of_named hd, vec_of_named ha]
  refine ⟨_, rfl, fun e _ => ?_⟩
  dsimp only
  rw [picked_eq]
  split
  · rename_i j hj
    rw [if_pos (List.getElem?_eq_some_iff.1 hj).1, List.getD_eq_getElem?_getD, hj]
    rfl
  · rename_i hnone
    exact (if_neg (Nat.not_lt.2 (List.getElem?_eq_none_iff.1 hnone))).symm

theorem vexpn_writesElems (x : RFields) : writesElems (.vexpn x) x.guard 0x68 x.d (named x.a) x.ty.bits (enabledBy x.pm x.ty.bits)
    fun r e =>
      let sel := fun j => (r.readP x.b).getLsbD (j * x.ty.bits / 32)
      if sel e then elemBits r x.a x.ty.bits ((List.range e).countP sel) else 0 := by
  refine writesElems_of_move (fun s => show execVexpn x s = _ from rfl) rfl rfl fun r hd ha => ?_
  rw [vecNum_of_named hd, vec_of_named ha]
  refine ⟨_, rfl, fun e _ => ?_⟩
  dsimp only
  rw [selected_eq, rankBelow_eq]
  rfl

/-- VSHUF's source of a unit by its parity, and by the half in which it lies (R240). -/
theorem elemBits_byParity (r : Regs) (a b : Reg) (w e i : Nat) :
    velem (r.v.get (if e % 2 == 1 then vnum r b else vnum r a)) w i = elemBits r (if e % 2 = 0 then a else b) w i := by
  rcases Nat.mod_two_eq_zero_or_one e with h | h <;> rw [h] <;> rfl

theorem elemBits_byHalf (r : Regs) (a b : Reg) (w e h i : Nat) :
    velem (r.v.get (if decide (h ≤ e) then vnum r b else vnum r a)) w i = elemBits r (if e < h then a else b) w i := by
  by_cases he : e < h
  · rw [if_pos he, decide_eq_false (Nat.not_le.2 he)]
    rfl
  · rw [if_neg he, decide_eq_true (Nat.not_lt.1 he)]
    rfl

theorem vshuf_writesElems (x : RFields) : writesElems (.vshuf x) x.guard 0x66 x.d
    (plain x.ty fun r => two x.a x.b r ∧ (r.readG x.c).toNat < 4) x.ty.bits (enabledBy x.pm x.ty.bits) fun r e =>
      let m := 2048 / x.ty.bits
      let w := x.ty.bits
      match (r.readG x.c).toNat with
      | 0 => elemBits r (if e % 2 = 0 then x.a else x.b) w (e / 2)
      | 1 => elemBits r (if e % 2 = 0 then x.a else x.b) w (m / 2 + e / 2)
      | 2 => elemBits r (if e < m / 2 then x.a else x.b) w (2 * (e % (m / 2)))
      | _ => elemBits r (if e < m / 2 then x.a else x.b) w (2 * (e % (m / 2)) + 1) := by
  refine writesElems_of_move (fun s => show execVshuf x s = _ from rfl) rfl rfl fun r hd ⟨hty, ⟨ha, hb⟩, hc⟩ => ?_
  rw [code_within (Nat.le_of_lt_succ hc), vecNum_of_named hd, vecNum_of_named ha, vecNum_of_named hb]
  refine ⟨_, if_neg hty, fun e _ => ?_⟩
  obtain hc | hc | hc | hc : (r.readG x.c).toNat = 0 ∨ (r.readG x.c).toNat = 1 ∨ (r.readG x.c).toNat = 2 ∨ (r.readG x.c).toNat = 3 := by
    omega
  all_goals rw [hc]
  · exact elemBits_byParity ..
  · exact elemBits_byParity ..
  · exact elemBits_byHalf ..
  · exact elemBits_byHalf ..

/-! ### Moves of blocks (10 R203; 11 R239, R240) -/

/-- Blocks written with their scales, where the four lanes of a block are enabled. -/
theorem putBlocks_blocks (r : Regs) (d : Fin 64) (pm : Fin 16) {el sc : Nat → Nat} {pick : Nat → (Nat → Nat) × Nat}
    (hel : ∀ b e, e < 32 → el (32 * b + e) % 16 = (pick b).1 e) (hsc : ∀ b, sc b % 256 = (pick b).2) :
    let q := r.putBlocks d (blockOn (r.pmask pm)) el sc
    sameBut (fun n => n = d ∨ n = d + 1) r q ∧
      (∀ b e, b < 16 → e < 32 → velem (q.v.get d) 4 (32 * b + e) =
        if blockEnabled pm r b then (pick b).1 e else velem (r.v.get d) 4 (32 * b + e)) ∧
      ∀ b, b < 16 → velem (q.v.get (d + 1)) 8 b = if blockEnabled pm r b then (pick b).2 else velem (r.v.get (d + 1)) 8 b := by
  refine ⟨sameBut_putBlocks r d _ el sc, fun b e hb he => ?_, fun b hb => ?_⟩
  · rw [velem_putBlocks r d _ el sc hb he, blockOn_eq, hel b e he]
  · rw [← blockOn_eq, ← hsc b]
    exact velem_putBlocks_scale r d _ el sc hb

/-- Blocks moved: each comes with its elements and its scale from where `src` says. -/
theorem moveBlocks_blocks (r : Regs) (d : Fin 64) (pm : Fin 16) (src : Nat → Fin 64 × Nat) :
    let q := r.moveBlocks d pm src
    sameBut (fun n => n = d ∨ n = d + 1) r q ∧
      (∀ b e, b < 16 → e < 32 → velem (q.v.get d) 4 (32 * b + e) =
        if blockEnabled pm r b then velem (r.v.get (src b).1) 4 (32 * (src b).2 + e) else velem (r.v.get d) 4 (32 * b + e)) ∧
      ∀ b, b < 16 → velem (q.v.get (d + 1)) 8 b =
        if blockEnabled pm r b then velem (r.v.get ((src b).1 + 1)) 8 (src b).2 else velem (r.v.get (d + 1)) 8 b := by
  refine putBlocks_blocks r d pm (pick := fun b => (_, _)) (fun b e he => ?_) fun b => velem_mod _ 8 _
  dsimp only
  rw [show (32 * b + e) / 32 = b by omega, show (32 * b + e) % 32 = e by omega]
  exact velem_mod _ 4 _

theorem vmov_blocks {x : RFields} {s : State} {k : Nat} {sl : Slot} {f : Firing} (hty : x.ty = .e2m1) (h : Runs s k sl f x.guard)
    (hd : named x.d f.r) (ha : named x.a f.r) :
    exec (.vmov x) s = wrote s k sl f 0x6F (f.r.moveBlocks (vnum f.r x.d) x.pm fun b => (vnum f.r x.a, b)) := by
  show execVmov x s = _
  rw [execVmov, runRegs_runs h rfl rfl, vecNum_of_named hd, vecNum_of_named ha]
  exact congrArg (regsOutcome s k sl f 0x6F) (if_pos hty)

theorem vbcst_blocks {x : RFields} {s : State} {k : Nat} {sl : Slot} {f : Firing} (hty : x.ty = .e2m1) (h : Runs s k sl f x.guard)
    (hd : named x.d f.r) :
    exec (.vbcst x) s = wrote s k sl f 0x5F (f.r.putBlocks (vnum f.r x.d) (blockOn (f.r.pmask x.pm))
      (fun _ => (f.r.readG x.a).toNat % 16) fun _ => (f.r.readG x.a).toNat / 256 % 256) := by
  show execVbcst x s = _
  rw [execVbcst, runRegs_runs h rfl rfl, vecNum_of_named hd]
  exact congrArg (regsOutcome s k sl f 0x5F) (if_pos hty)

theorem vperm_blocks {x : RFields} {s : State} {k : Nat} {sl : Slot} {f : Firing} (hty : x.ty = .e2m1) (h : Runs s k sl f x.guard)
    (hd : named x.d f.r) (ha : named x.a f.r) (hb : named x.b f.r) :
    exec (.vperm x) s = wrote s k sl f 0x65 (f.r.moveBlocks (vnum f.r x.d) x.pm fun b => (vnum f.r x.a, elemBits f.r x.b 8 b % 16)) := by
  show execVperm x s = _
  rw [execVperm, runRegs_runs h rfl rfl, vecNum_of_named hd, vecNum_of_named ha, vec_of_named hb]
  exact congrArg (regsOutcome s k sl f 0x65) (if_pos hty)

/-! ### Element indices and indirect operands beyond their range -/

theorem vecNum_indirect {r : Regs} {n : Fin 64} (h : (r.gr n).toNat < 64) : r.vecNum (.vi n) = .ok (Fin.ofNat 64 (r.gr n).toNat) :=
  if_pos h

theorem vecNum_beyond {r : Regs} {n : Fin 64} (h : 64 ≤ (r.gr n).toNat) :
    r.vecNum (.vi n) = .error (.trap { code := 0x09, info := r.gr n }) := by
  rw [← trapInfo_toNat]
  exact if_neg (Nat.not_lt.2 h)

section
variable {x : RFields} {s : State} {k : Nat} {sl : Slot} {f : Firing} (h : Runs s k sl f x.guard)
include h

theorem vext_reads (ha : named x.a f.r) (hj : (f.r.readG x.b).toNat < 2048 / x.ty.bits) :
    exec (.vext x) s = wrote s k sl f 0x60
      (f.r.writeG x.d (extended x.ty (BitVec.ofNat x.ty.bits (elemBits f.r x.a x.ty.bits (f.r.readG x.b).toNat)))) := by
  show execVext x s = _
  rw [execVext, runRegs_runs h rfl rfl, vec_of_named ha, elemIndex_below hj, elemBits, ← widen_velem]
  rfl

theorem vext_beyond (ha : named x.a f.r) (hj : 2048 / x.ty.bits ≤ (f.r.readG x.b).toNat) :
    exec (.vext x) s = traps s k { code := 0x09, info := f.r.readG x.b } := by
  show execVext x s = _
  rw [execVext, runRegs_runs h rfl rfl, vec_of_named ha, elemIndex_beyond hj]
  rfl

theorem vins_beyond (hd : named x.d f.r) (hj : 2048 / x.ty.bits ≤ (f.r.readG x.b).toNat) :
    exec (.vins x) s = traps s k { code := 0x09, info := f.r.readG x.b } := by
  show execVins x s = _
  rw [execVins, runRegs_runs h rfl rfl, vecNum_of_named hd, elemIndex_beyond hj]
  rfl

theorem vshuf_beyond (hc : 4 ≤ (f.r.readG x.c).toNat) :
    exec (.vshuf x) s = traps s k { code := 0x09, info := f.r.readG x.c } := by
  show execVshuf x s = _
  rw [execVshuf, runRegs_runs h rfl rfl, code_beyond hc]
  rfl

end

/-- Settles O7, clause by clause: every move is elements or blocks written, and each instruction says from where they come. -/
theorem vectorMovesAndPermutations : Obligations.VectorMovesAndPermutations := by
  refine ⟨fun r n => ⟨vecNum_indirect, vecNum_beyond⟩,
    ⟨vmov_writesElems, vbcst_writesElems, vidx_writesElems, vins_writesElems, vperm_writesElems, vshuf_writesElems, vsel_writesElems,
      vcmpr_writesElems, vexpn_writesElems, fun x s k sl f h ha => ⟨vext_reads h ha, vext_beyond h ha⟩,
      fun x s k sl f h hd => vins_beyond h hd, fun x s k sl f h => vshuf_beyond h⟩,
    fun i x op pick hty hi s k sl f h hd ha hb => ?_⟩
  rcases hi with ⟨rfl, rfl, rfl⟩ | ⟨rfl, rfl, rfl⟩ | ⟨rfl, rfl, rfl⟩
  · exact ⟨_, vmov_blocks hty h hd ha, moveBlocks_blocks f.r _ x.pm _⟩
  · exact ⟨_, vbcst_blocks hty h hd, putBlocks_blocks f.r _ x.pm (fun _ _ _ => Nat.mod_mod _ 16) fun _ => Nat.mod_mod _ 256⟩
  · exact ⟨_, vperm_blocks hty h hd ha (hb rfl), moveBlocks_blocks f.r _ x.pm _⟩

end Sys2Proof.Proofs

/-! SUPPORT. Words and instructions (04 R62, R63): the fields that a word lays out, low end first, and the operands that they give. -/

namespace Sys2Proof.Proofs

/-! ### Fields of a number -/

/-- The number with these fields, each a width and a value, the lowest first. -/
def packFields : List (Nat × Nat) → Nat
  | [] => 0
  | (n, v) :: t => v + 2 ^ n * packFields t

/-- From bit `lo` up, `w` has these fields. -/
def hasFields (w lo : Nat) : List (Nat × Nat) → Prop
  | [] => True
  | (n, v) :: t => fld w lo n = v ∧ hasFields w (lo + n) t

/-- The bits that fields take together. -/
def fieldsWidth (l : List (Nat × Nat)) : Nat := (l.map (·.1)).sum

@[simp] theorem fieldsWidth_nil : fieldsWidth [] = 0 := rfl
@[simp] theorem fieldsWidth_cons (x : Nat × Nat) (l : List (Nat × Nat)) : fieldsWidth (x :: l) = x.1 + fieldsWidth l := rfl

theorem fld_lt (w lo n : Nat) : fld w lo n < 2 ^ n := Nat.mod_lt _ (Nat.two_pow_pos n)

/-- Each value fieldsFit the width of its field. -/
def fieldsFit (l : List (Nat × Nat)) : Prop := ∀ x ∈ l, x.2 < 2 ^ x.1

theorem packFields_lt {l : List (Nat × Nat)} (h : fieldsFit l) : packFields l < 2 ^ fieldsWidth l := by
  induction l with
  | nil => exact Nat.one_pos
  | cons x t ih =>
    obtain ⟨hx, ht⟩ := List.forall_mem_cons.1 h
    have hp : packFields t + 1 ≤ 2 ^ fieldsWidth t := ih ht
    calc packFields (x :: t) = x.2 + 2 ^ x.1 * packFields t := rfl
      _ < 2 ^ x.1 * (packFields t + 1) := by rw [Nat.mul_succ]; omega
      _ ≤ 2 ^ x.1 * 2 ^ fieldsWidth t := Nat.mul_le_mul_left _ hp
      _ = 2 ^ fieldsWidth (x :: t) := (Nat.pow_add ..).symm

/-- What lies from bit `lo` up is the number of the fields exactly when it has them. -/
theorem packFields_iff {l : List (Nat × Nat)} {w lo : Nat} (hw : w < 2 ^ (lo + fieldsWidth l)) (h : fieldsFit l) :
    w / 2 ^ lo = packFields l ↔ hasFields w lo l := by
  induction l generalizing lo with
  | nil => simpa [packFields, hasFields] using Nat.div_eq_of_lt hw
  | cons x t ih =>
    obtain ⟨n, v⟩ := x
    obtain ⟨hv, ht⟩ := List.forall_mem_cons.1 h
    have hi := ih (lo := lo + n) (by rwa [Nat.add_assoc]) ht
    have hq : w / 2 ^ (lo + n) = w / 2 ^ lo / 2 ^ n := by rw [Nat.pow_add, Nat.div_div_eq_div_mul]
    rw [hasFields, ← hi, hq, fld, packFields]
    constructor
    · intro hp
      rw [hp]
      exact ⟨by rw [Nat.add_mul_mod_self_left, Nat.mod_eq_of_lt hv],
        by rw [Nat.add_mul_div_left _ _ (Nat.two_pow_pos n), Nat.div_eq_of_lt hv, Nat.zero_add]⟩
    · rintro ⟨hm, hd⟩
      rw [← hm, ← hd, Nat.mod_add_div]

/-! ### Codes of the small fields -/

theorem tyOfCode_iff {n : Nat} {t : Ty} : Ty.ofCode n = some t ↔ n = t.code := by
  constructor
  · intro h
    unfold Ty.ofCode at h
    split at h <;> cases h <;> rfl
  · rintro rfl
    cases t <;> rfl

theorem rndOfCode_iff {n : Nat} {r : Rnd} : Rnd.ofCode n = some r ↔ n = r.code := by
  constructor
  · intro h
    unfold Rnd.ofCode at h
    split at h <;> cases h <;> rfl
  · rintro rfl
    cases r <;> rfl

theorem accOfCode_iff {n : Nat} {m : AccMode} : AccMode.ofCode n = some m ↔ n = m.code := by
  constructor
  · intro h
    unfold AccMode.ofCode at h
    split at h <;> cases h <;> rfl
  · rintro rfl
    cases m <;> rfl

theorem spaceOfCode_iff {n : Nat} {p : Space} : Space.ofCode n = some p ↔ n = p.code := by
  constructor
  · intro h
    unfold Space.ofCode at h
    split at h <;> cases h <;> rfl
  · rintro rfl
    cases p <;> rfl

theorem orderOfCode_iff {n : Nat} (h : n < 4) {o : Order} : Order.ofCode n = o ↔ n = o.code := by
  interval_cases n <;> cases o <;> decide

theorem finOfNat_iff {m n : Nat} [NeZero n] (h : m < n) {i : Fin n} : Fin.ofNat n m = i ↔ m = i.val := by
  rw [Fin.ext_iff, Fin.val_ofNat, Nat.mod_eq_of_lt h]

theorem bitsOfNat_iff {m n : Nat} (h : m < 2 ^ n) {v : BitVec n} : BitVec.ofNat n m = v ↔ m = v.toNat := by
  rw [← BitVec.toNat_inj, BitVec.toNat_ofNat, Nat.mod_eq_of_lt h]

theorem beqOne_iff {m : Nat} (h : m < 2) {b : Bool} : (m == 1) = b ↔ m = b.toNat := by
  interval_cases m <;> cases b <;> decide

theorem regOfSpec_iff {n : Nat} {r : Reg} : Reg.ofSpec n = some r ↔ n = r.spec := by
  constructor
  · intro h
    unfold Reg.ofSpec at h
    split_ifs at h <;> cases h <;> simp only [Reg.spec, Fin.val_ofNat] <;> omega
  · rintro rfl
    cases r with
    | g i => revert i; decide
    | v i => revert i; decide
    | vi i => revert i; decide
    | a i => revert i; decide
    | p i => revert i; decide
    | tl i => revert i; decide

theorem guardOfCode_iff {n : Nat} {g : Guard} : Guard.ofCode n = some g ↔ n = g.code := by
  constructor
  · intro h
    unfold Guard.ofCode at h
    split_ifs at h with h0 h1
    · cases h; exact h0
    · cases h
      simp only [Guard.code, decide_eq_true_eq, Fin.val_ofNat]
      split_ifs <;> omega
  · rintro rfl
    cases g with
    | always => rfl
    | cond neg sel => revert neg sel; decide

theorem testBit_eq_iff {n i : Nat} {b : Bool} : n.testBit i = b ↔ n / 2 ^ i % 2 = b.toNat := by
  rw [← Nat.toNat_testBit]
  cases n.testBit i <;> cases b <;> decide

theorem modsOfCode_iff {n : Nat} {m : Mods} : Mods.ofCode n = some m ↔ n = m.code := by
  obtain ⟨rnd, sat, na, nb, nc, w⟩ := m
  simp only [Mods.ofCode, Option.map_eq_some_iff, rndOfCode_iff, Mods.mk.injEq, testBit_eq_iff, Mods.code]
  have := sat.toNat_le
  have := na.toNat_le
  have := nb.toNat_le
  have := nc.toNat_le
  have := w.toNat_le
  constructor
  · rintro ⟨r, hr, rfl, hbits⟩
    omega
  · intro h
    exact ⟨rnd, by omega, rfl, by omega⟩

theorem guardCode_lt (g : Guard) : g.code < 2 ^ 8 := by
  cases g with
  | always => decide
  | cond neg sel => revert neg sel; decide

theorem spec_lt (r : Reg) : r.spec < 2 ^ 8 := by cases r <;> simp only [Reg.spec] <;> omega
theorem tyCode_lt (t : Ty) : t.code < 2 ^ 4 := by cases t <;> decide
theorem rndCode_lt (r : Rnd) : r.code < 2 ^ 3 := by cases r <;> decide
theorem orderCode_lt (o : Order) : o.code < 2 ^ 2 := by cases o <;> decide
theorem accCode_lt (m : AccMode) : m.code < 2 ^ 2 := by cases m <;> decide
theorem spaceCode_lt (p : Space) : p.code < 2 ^ 2 := by cases p <;> decide
theorem boolNat_lt (b : Bool) : b.toNat < 2 ^ 1 := b.toNat_lt
theorem modsCode_lt (m : Mods) : m.code < 2 ^ 8 := by
  have := rndCode_lt m.rnd
  have := m.sat.toNat_le
  have := m.na.toNat_le
  have := m.nb.toNat_le
  have := m.nc.toNat_le
  have := m.w.toNat_le
  unfold Mods.code
  omega

/-- Bit 7 and bit 6 of a specifier are clear exactly for a general register (R65). -/
theorem spec_isG (r : Reg) : decide (r.spec < 64) = r.isG := by
  rw [Bool.eq_iff_iff, decide_eq_true_iff]
  cases r <;> simp only [Reg.spec, Reg.isG, Reg.isCls, iff_true, Bool.false_eq_true, iff_false] <;> omega

/-! ### The layouts of the formats (R63) -/

/-- The fields of bits [55:0], reserved ones included, the lowest first. -/
def layout : Operands → List (Nat × Nat)
  | .r x => [(8, x.guard.code), (8, x.mods.code), (4, x.pm.val), (8, x.c.spec), (8, x.b.spec), (8, x.a.spec), (8, x.d.spec), (4, x.ty.code)]
  | .cvt x => [(8, x.guard.code), (8, x.mods.code), (4, x.pm.val), (4, x.src.code), (4, 0), (8, x.b.spec), (8, x.a.spec), (8, x.d.spec),
      (4, x.ty.code)]
  | .atom x => [(8, x.guard.code), (2, 0), (2, x.order.code), (1, x.sat.toNat), (3, x.rnd.code), (4, x.pm.val), (8, x.c.spec), (8, x.b.spec),
      (8, x.a.spec), (8, x.d.spec), (4, x.ty.code)]
  | .i x => [(8, x.guard.code), (8, x.mods.code), (4, x.pm.val), (16, x.imm.toNat), (8, x.a.spec), (8, x.d.spec), (4, x.ty.code)]
  | .l x => [(8, x.guard.code), (40, x.imm.toNat), (8, x.d.spec)]
  | .b x => [(8, x.guard.code), (42, x.disp.toNat), (6, x.sel.val)]
  | .m x => [(8, x.guard.code), (1, x.co.toNat), (1, x.ns.toNat), (2, 0), (2, x.scl.val), (2, x.sp.code), (4, x.pm.val), (8, x.disp.toNat),
      (8, x.index.spec), (8, x.base.spec), (8, x.d.spec), (4, x.ty.code)]
  | .a x => [(8, x.guard.code), (8, x.mods.code), (4, x.pm.val), (8, x.off.toNat), (8, x.count.toNat), (4, 0), (4, x.arc.val), (8, x.d.spec),
      (4, x.ty.code)]
  | .x x => [(8, x.guard.code), (8, x.mods.code), (4, x.pm.val), (8, x.kidx.toNat), (8, x.b.spec), (8, x.a.spec), (2, x.am.code), (2, x.acc.val),
      (4, x.tyB.code), (4, x.tyA.code)]
  | .e x => [(8, x.guard.code), (12, 0), (3, x.flags.toNat), (1, x.bw.toNat), (12, x.bar.toNat), (8, x.len.spec), (8, x.desc.spec),
      (1, x.deferred.toNat), (3, x.tl.val)]
  | .y x => [(8, x.guard.code), (20, 0), (8, x.gr.spec), (12, x.sysreg.toNat), (8, x.sub.toNat)]

/-- The whole word: bits [63:56] are the opcode. -/
def wordFields (op : Nat) (o : Operands) : List (Nat × Nat) := layout o ++ [(8, op)]

theorem layout_width (o : Operands) : fieldsWidth (layout o) = 56 := by cases o <;> rfl

theorem layout_fit (o : Operands) : fieldsFit (layout o) := by
  cases o <;> simp only [fieldsFit, layout, List.forall_mem_cons, guardCode_lt, spec_lt, tyCode_lt, rndCode_lt, orderCode_lt, accCode_lt,
    spaceCode_lt, modsCode_lt, BitVec.isLt, boolNat_lt, Nat.two_pow_pos, true_and] <;> simp

theorem packFields_word (op : Nat) (o : Operands) : packFields (wordFields op o) = op * 2 ^ 56 + operandBits o := by
  cases o <;> simp only [wordFields, layout, operandBits, packFields, List.cons_append, List.nil_append] <;> ring

/-! ### Parsed operands

A word parses to operands exactly when it has their fields: the parser asks each code for its value, and the fields say which it is. -/

theorem fld_fin {w lo k n : Nat} [NeZero n] (h : 2 ^ k = n) (i : Fin n) : fld w lo k = i.val ↔ Fin.ofNat n (fld w lo k) = i :=
  (finOfNat_iff (h ▸ fld_lt w lo k)).symm
theorem fld_bits (w lo : Nat) {n : Nat} (v : BitVec n) : fld w lo n = v.toNat ↔ BitVec.ofNat n (fld w lo n) = v :=
  (bitsOfNat_iff (fld_lt w lo n)).symm
theorem fld_flag (w lo : Nat) (b : Bool) : fld w lo 1 = b.toNat ↔ (fld w lo 1 == 1) = b := (beqOne_iff (fld_lt w lo 1)).symm
theorem fld_order (w lo : Nat) (o : Order) : fld w lo 2 = o.code ↔ Order.ofCode (fld w lo 2) = o := (orderOfCode_iff (fld_lt w lo 2)).symm

theorem parseR_iff {w : Nat} {ty : Ty} {x : RFields} :
    (fld w 52 4 = ty.code ∧ parseR w ty = some x) ↔ x.ty = ty ∧ hasFields w 0 (layout (.r x)) := by
  obtain ⟨g, t, d, a, b, c, pm, m⟩ := x
  simp only [hasFields, layout, Nat.reduceAdd, ← guardOfCode_iff, ← regOfSpec_iff, ← modsOfCode_iff, fld_fin, Nat.reducePow]
  unfold parseR
  split <;> grind

theorem parseCvt_iff {w : Nat} {ty src : Ty} {x : CvtFields} :
    ((fld w 52 4 = ty.code ∧ fld w 20 4 = src.code) ∧ parseCvt w ty src = some x) ↔
      x.ty = ty ∧ x.src = src ∧ hasFields w 0 (layout (.cvt x)) := by
  obtain ⟨g, t, u, d, a, b, pm, m⟩ := x
  simp only [hasFields, layout, Nat.reduceAdd, ← guardOfCode_iff, ← regOfSpec_iff, ← modsOfCode_iff, fld_fin, Nat.reducePow]
  unfold parseCvt
  split <;> grind

theorem parseAtom_iff {w : Nat} {ty : Ty} {x : AtomFields} :
    (fld w 52 4 = ty.code ∧ parseAtom w ty = some x) ↔ x.ty = ty ∧ hasFields w 0 (layout (.atom x)) := by
  obtain ⟨g, t, d, a, b, c, pm, r, sat, o⟩ := x
  simp only [hasFields, layout, Nat.reduceAdd, ← guardOfCode_iff, ← regOfSpec_iff, ← rndOfCode_iff, fld_fin, fld_flag, fld_order, Nat.reducePow]
  unfold parseAtom
  split <;> grind

theorem parseI_iff {w : Nat} {ty : Ty} {x : IFields} :
    (fld w 52 4 = ty.code ∧ parseI w ty = some x) ↔ x.ty = ty ∧ hasFields w 0 (layout (.i x)) := by
  obtain ⟨g, t, d, a, imm, pm, m⟩ := x
  simp only [hasFields, layout, Nat.reduceAdd, ← guardOfCode_iff, ← regOfSpec_iff, ← modsOfCode_iff, fld_bits, fld_fin, Nat.reducePow]
  unfold parseI
  split <;> grind

theorem parseL_iff {w : Nat} {x : LFields} :
    parseL w = some x ↔ hasFields w 0 (layout (.l x)) := by
  obtain ⟨g, d, imm⟩ := x
  simp only [hasFields, layout, Nat.reduceAdd, ← guardOfCode_iff, ← regOfSpec_iff, fld_bits]
  unfold parseL
  split <;> grind

theorem parseB_iff {w : Nat} {x : BFields} :
    parseB w = some x ↔ hasFields w 0 (layout (.b x)) := by
  obtain ⟨g, sel, disp⟩ := x
  simp only [hasFields, layout, Nat.reduceAdd, ← guardOfCode_iff, fld_bits, fld_fin, Nat.reducePow]
  unfold parseB
  split <;> grind

theorem parseM_iff {w : Nat} {ty : Ty} {x : MFields} :
    (fld w 52 4 = ty.code ∧ parseM w ty = some x) ↔ x.ty = ty ∧ hasFields w 0 (layout (.m x)) := by
  obtain ⟨g, t, d, base, index, disp, pm, sp, scl, co, ns⟩ := x
  simp only [hasFields, layout, Nat.reduceAdd, ← guardOfCode_iff, ← regOfSpec_iff, ← spaceOfCode_iff, fld_bits, fld_fin, fld_flag, Nat.reducePow]
  unfold parseM
  split <;> grind

theorem parseA_iff {w : Nat} {ty : Ty} {x : AFields} :
    (fld w 52 4 = ty.code ∧ parseA w ty = some x) ↔ x.ty = ty ∧ hasFields w 0 (layout (.a x)) := by
  obtain ⟨g, t, d, arc, count, off, pm, m⟩ := x
  simp only [hasFields, layout, Nat.reduceAdd, ← guardOfCode_iff, ← regOfSpec_iff, ← modsOfCode_iff, fld_bits, fld_fin, Nat.reducePow]
  unfold parseA
  split <;> grind

theorem parseX_iff {w : Nat} {tyA tyB : Ty} {x : XFields} :
    ((fld w 52 4 = tyA.code ∧ fld w 48 4 = tyB.code) ∧ parseX w tyA tyB = some x) ↔
      x.tyA = tyA ∧ x.tyB = tyB ∧ hasFields w 0 (layout (.x x)) := by
  obtain ⟨g, t, u, acc, am, a, b, kidx, pm, m⟩ := x
  simp only [hasFields, layout, Nat.reduceAdd, ← guardOfCode_iff, ← regOfSpec_iff, ← modsOfCode_iff, ← accOfCode_iff, fld_bits, fld_fin,
    Nat.reducePow]
  unfold parseX
  split <;> grind

theorem parseE_iff {w : Nat} {x : EFields} :
    parseE w = some x ↔ hasFields w 0 (layout (.e x)) := by
  obtain ⟨g, tl, q, desc, len, bar, bw, flags⟩ := x
  simp only [hasFields, layout, Nat.reduceAdd, ← guardOfCode_iff, ← regOfSpec_iff, fld_bits, fld_fin, fld_flag, Nat.reducePow]
  unfold parseE
  split <;> grind

theorem parseY_iff {w : Nat} {x : YFields} :
    parseY w = some x ↔ hasFields w 0 (layout (.y x)) := by
  obtain ⟨g, sub, sysreg, gr⟩ := x
  simp only [hasFields, layout, Nat.reduceAdd, ← guardOfCode_iff, ← regOfSpec_iff, fld_bits]
  unfold parseY
  split <;> grind

/-! ### The steps of R62 -/

/-- The format of operands. -/
def fmtOfOperands : Operands → Fmt
  | .r _ => .r | .cvt _ => .cvt | .atom _ => .atom | .i _ => .i | .l _ => .l | .b _ => .b | .m _ => .m | .a _ => .a | .x _ => .x | .e _ => .e
  | .y _ => .y

/-- Steps 2 to 4 of R62 accept an opcode with operands, which make an instruction. -/
def accepted (op : Nat) (o : Operands) (i : Instr) : Prop :=
  typesOk op o = true ∧ fieldsOk op o = true ∧ immOk op o = true ∧ Instr.ofParts op o = some i

/-- A word has the fields of operands that are accepted. -/
def readAs (op w : Nat) (i : Instr) (o : Operands) : Prop := hasFields w 0 (layout o) ∧ accepted op o i

theorem finish_ok_iff {op : Nat} {oo : Option Operands} {i : Instr} :
    finish op oo = .ok i ↔ ∃ o, oo = some o ∧ fieldsOk op o = true ∧ immOk op o = true ∧ Instr.ofParts op o = some i := by
  cases oo with
  | none => simp [finish]
  | some o =>
    simp only [finish, Option.some.injEq, exists_eq_left']
    split_ifs with hf hm
    · cases Instr.ofParts op o <;> simp [hf, hm]
    · simp [hm]
    · simp [hf]

theorem withTy_ok_iff {op w : Nat} {f : Ty → Option Operands} {i : Instr} :
    withTy op w f = .ok i ↔ ∃ t, fld w 52 4 = t.code ∧ typesAccepted op t .i8 (dIsGeneral w) = true ∧ finish op (f t) = .ok i := by
  simp only [withTy, ← tyOfCode_iff]
  cases Ty.ofCode (fld w 52 4) with
  | none => simp
  | some t => cases h : typesAccepted op t .i8 (dIsGeneral w) <;> simp [h]

theorem withTy2_ok_iff {op w t2 : Nat} {f : Ty → Ty → Option Operands} {i : Instr} :
    withTy2 op w t2 f = .ok i ↔
      ∃ t u, (fld w 52 4 = t.code ∧ t2 = u.code) ∧ typesAccepted op t u (dIsGeneral w) = true ∧ finish op (f t u) = .ok i := by
  simp only [withTy2, ← tyOfCode_iff]
  cases Ty.ofCode (fld w 52 4) with
  | none => simp
  | some t =>
    cases Ty.ofCode t2 with
    | none => simp
    | some u => cases h : typesAccepted op t u (dIsGeneral w) <;> simp [h]

theorem dIsGeneral_word {w : Nat} {d : Reg} (h : fld w 44 8 = d.spec) : dIsGeneral w = d.isG := by rw [dIsGeneral, h, spec_isG]

/-- The word and the operands that it gives agree on whether d is a general register, wherever step 2 of R62 asks for it. -/
theorem typesAccepted_word {op w : Nat} {o : Operands} (hf : fmtOf op = some (fmtOfOperands o)) (h : hasFields w 0 (layout o)) :
    typesAccepted op (operandTys o).1 (operandTys o).2.1 (dIsGeneral w) = typesOk op o := by
  cases o with
  | l _ | b _ | x _ | e _ | y _ => simp only [fmtOfOperands] at hf; simp only [typesOk, operandTys, typesAccepted, hf]
  | r x | cvt x | atom x | i x | m x | a x =>
    simp only [hasFields, layout, Nat.reduceAdd] at h
    have hd : dIsGeneral w = x.d.isG := dIsGeneral_word (by simp only [h])
    rw [hd]
    rfl

section
variable {op w : Nat} {i : Instr} {α : Type} {mk : α → Operands}

/-- A word of a format with one type field decodes to what it has the fields of. -/
theorem withTy_reads {parse : Ty → Option α} (hf : ∀ x, fmtOf op = some (fmtOfOperands (mk x))) (h2 : ∀ x, (operandTys (mk x)).2.1 = .i8)
    (hp : ∀ t x, (fld w 52 4 = t.code ∧ parse t = some x) ↔ (operandTys (mk x)).1 = t ∧ hasFields w 0 (layout (mk x))) :
    withTy op w (fun t => (parse t).map mk) = .ok i ↔ ∃ x, readAs op w i (mk x) := by
  simp only [withTy_ok_iff, finish_ok_iff, Option.map_eq_some_iff]
  constructor
  · rintro ⟨t, ht, hok, o, ⟨x, hx, rfl⟩, hfin⟩
    obtain ⟨rfl, hl⟩ := (hp t x).1 ⟨ht, hx⟩
    exact ⟨x, hl, by rwa [← typesAccepted_word (hf x) hl, h2], hfin⟩
  · rintro ⟨x, hl, hok, hfin⟩
    obtain ⟨ht, hx⟩ := (hp _ x).2 ⟨rfl, hl⟩
    exact ⟨_, ht, by rwa [← typesAccepted_word (hf x) hl, h2] at hok, _, ⟨x, hx, rfl⟩, hfin⟩

/-- A word of a format with two type fields decodes to what it has the fields of. -/
theorem withTy2_reads {t2 : Nat} {parse : Ty → Ty → Option α} (hf : ∀ x, fmtOf op = some (fmtOfOperands (mk x)))
    (hp : ∀ t u x, ((fld w 52 4 = t.code ∧ t2 = u.code) ∧ parse t u = some x) ↔
      (operandTys (mk x)).1 = t ∧ (operandTys (mk x)).2.1 = u ∧ hasFields w 0 (layout (mk x))) :
    withTy2 op w t2 (fun t u => (parse t u).map mk) = .ok i ↔ ∃ x, readAs op w i (mk x) := by
  simp only [withTy2_ok_iff, finish_ok_iff, Option.map_eq_some_iff]
  constructor
  · rintro ⟨t, u, ht, hok, o, ⟨x, hx, rfl⟩, hfin⟩
    obtain ⟨rfl, rfl, hl⟩ := (hp t u x).1 ⟨ht, hx⟩
    exact ⟨x, hl, by rwa [← typesAccepted_word (hf x) hl], hfin⟩
  · rintro ⟨x, hl, hok, hfin⟩
    obtain ⟨ht, hx⟩ := (hp _ _ x).2 ⟨rfl, rfl, hl⟩
    exact ⟨_, _, ht, by rwa [← typesAccepted_word (hf x) hl] at hok, _, ⟨x, hx, rfl⟩, hfin⟩

/-- A word of a format without a type field decodes to what it has the fields of. -/
theorem finish_reads {parse : Option α} (ht : ∀ x, typesOk op (mk x) = true) (hp : ∀ x, parse = some x ↔ hasFields w 0 (layout (mk x))) :
    finish op (parse.map mk) = .ok i ↔ ∃ x, readAs op w i (mk x) := by
  simp only [finish_ok_iff, Option.map_eq_some_iff]
  constructor
  · rintro ⟨o, ⟨x, hx, rfl⟩, hfin⟩
    exact ⟨x, (hp x).1 hx, ht x, hfin⟩
  · rintro ⟨x, hl, -, hfin⟩
    exact ⟨_, ⟨x, (hp x).2 hl, rfl⟩, hfin⟩

end

/-- Some operands of a format have a property. -/
def someOperands (p : Operands → Prop) : Fmt → Prop
  | .r => ∃ x, p (.r x)
  | .cvt => ∃ x, p (.cvt x)
  | .atom => ∃ x, p (.atom x)
  | .i => ∃ x, p (.i x)
  | .l => ∃ x, p (.l x)
  | .b => ∃ x, p (.b x)
  | .m => ∃ x, p (.m x)
  | .a => ∃ x, p (.a x)
  | .x => ∃ x, p (.x x)
  | .e => ∃ x, p (.e x)
  | .y => ∃ x, p (.y x)

theorem someOperands_iff {p : Operands → Prop} {fm : Fmt} : someOperands p fm ↔ ∃ o, fmtOfOperands o = fm ∧ p o := by
  constructor
  · intro h
    cases fm <;> obtain ⟨x, hx⟩ := h <;> exact ⟨_, rfl, hx⟩
  · rintro ⟨o, rfl, h⟩
    cases o <;> exact ⟨_, h⟩

/-- What a word decodes to, by its format (R62, R63). -/
theorem decodeNat_ok_format {w : Nat} {i : Instr} {fm : Fmt} (hf : fmtOf (fld w 56 8) = some fm) :
    decodeNat w = .ok i ↔ someOperands (readAs (fld w 56 8) w i) fm := by
  simp only [decodeNat, hf]
  cases fm with
  | r => exact withTy_reads (mk := .r) (fun _ => hf) (fun _ => rfl) fun _ _ => parseR_iff
  | cvt => exact withTy2_reads (mk := .cvt) (fun _ => hf) fun _ _ _ => parseCvt_iff
  | atom => exact withTy_reads (mk := .atom) (fun _ => hf) (fun _ => rfl) fun _ _ => parseAtom_iff
  | i => exact withTy_reads (mk := .i) (fun _ => hf) (fun _ => rfl) fun _ _ => parseI_iff
  | l => exact finish_reads (mk := .l) (fun _ => by simp [typesOk, typesAccepted, hf]) fun _ => parseL_iff
  | b => exact finish_reads (mk := .b) (fun _ => by simp [typesOk, typesAccepted, hf]) fun _ => parseB_iff
  | m => exact withTy_reads (mk := .m) (fun _ => hf) (fun _ => rfl) fun _ _ => parseM_iff
  | a => exact withTy_reads (mk := .a) (fun _ => hf) (fun _ => rfl) fun _ _ => parseA_iff
  | x => exact withTy2_reads (mk := .x) (fun _ => hf) fun _ _ _ => parseX_iff
  | e => exact finish_reads (mk := .e) (fun _ => by simp [typesOk, typesAccepted, hf]) fun _ => parseE_iff
  | y => exact finish_reads (mk := .y) (fun _ => by simp [typesOk, typesAccepted, hf]) fun _ => parseY_iff

/-- A word decodes to the instruction of its opcode and of the operands that it has the fields of, where the steps of R62 accept them. -/
theorem decodeNat_ok_iff {w : Nat} {i : Instr} :
    decodeNat w = .ok i ↔ ∃ o, fmtOf (fld w 56 8) = some (fmtOfOperands o) ∧ readAs (fld w 56 8) w i o := by
  cases hf : fmtOf (fld w 56 8) with
  | none => simp [decodeNat, hf]
  | some fm => simp [decodeNat_ok_format hf, someOperands_iff, eq_comm]

/-! ### The opcode map (R78, R79) -/

/-- The operands of an instruction are of its opcode's format. -/
theorem parts_fmt {i : Instr} {op : Nat} {o : Operands} (h : i.parts = some (op, o)) : op < 2 ^ 8 ∧ fmtOf op = some (fmtOfOperands o) := by
  cases i <;> cases h <;> exact ⟨by decide, rfl⟩

/-- CPYX has two rows, told apart by its flags (R177), and XFER three (R179). -/
theorem cpyx_flags {x : EFields} (h : fieldsOk 0xBA (.e x) = true) : x.flags = 0 ∨ x.flags = 4 := by
  simp only [fieldsOk, Bool.and_eq_true] at h
  simpa using h.2

theorem xfer_flags {x : EFields} (h : fieldsOk 0xC7 (.e x) = true) : x.flags = 0 ∨ x.flags = 2 ∨ x.flags = 4 := by
  simp only [fieldsOk, Bool.and_eq_true] at h
  simpa [or_assoc] using h.2

theorem parts_ofE {op : Nat} {x : EFields} {i : Instr} (hf : fieldsOk op (.e x) = true) (h : Instr.ofE op x = some i) :
    i.parts = some (op, .e x) ∧ i.variantOk = true := by
  unfold Instr.ofE at h
  split at h
  case h_3 =>
    have hx := cpyx_flags hf
    split_ifs at h with h4 <;> cases h
    · exact ⟨rfl, beq_iff_eq.2 h4⟩
    · exact ⟨rfl, beq_iff_eq.2 (hx.resolve_right h4)⟩
  case h_16 =>
    have hx := xfer_flags hf
    split_ifs at h with h2 h4 <;> cases h
    · exact ⟨rfl, beq_iff_eq.2 h2⟩
    · exact ⟨rfl, beq_iff_eq.2 h4⟩
    · exact ⟨rfl, beq_iff_eq.2 ((hx.resolve_right fun hc => hc.elim h2 h4))⟩
  all_goals cases h <;> exact ⟨rfl, rfl⟩

/-- SYSC, SRET, HALT and ORDL have a row for each value of sub (R372, R376, R377, R383). -/
theorem sub_lt {op : Nat} {x : YFields} (h : fieldsOk op (.y x) = true) (h4 : op ≠ 0xD4) (h5 : op ≠ 0xD5) : x.sub.toNat < subLimit op := by
  simp only [fieldsOk, h4, h5, or_self, if_false, Bool.and_eq_true, decide_eq_true_iff] at h
  exact h.2.2

theorem parts_ofY {op : Nat} {x : YFields} {i : Instr} (hf : fieldsOk op (.y x) = true) (h : Instr.ofY op x = some i) :
    i.parts = some (op, .y x) ∧ i.variantOk = true := by
  unfold Instr.ofY at h
  split at h
  case h_4 | h_5 | h_10 =>
    have hx : x.sub.toNat < 3 := sub_lt hf (by decide) (by decide)
    split_ifs at h with h1 h2 <;> cases h
    · exact ⟨rfl, beq_iff_eq.2 h1⟩
    · exact ⟨rfl, beq_iff_eq.2 h2⟩
    · exact ⟨rfl, beq_iff_eq.2 (by bv_omega)⟩
  case h_7 =>
    have hx : x.sub.toNat < 2 := sub_lt hf (by decide) (by decide)
    split_ifs at h with h1 <;> cases h
    · exact ⟨rfl, beq_iff_eq.2 h1⟩
    · exact ⟨rfl, beq_iff_eq.2 (by bv_omega)⟩
  all_goals cases h <;> exact ⟨rfl, rfl⟩

/-- What is made of an opcode and operands has them, and the variant row that its fields name. -/
theorem parts_ofParts {op : Nat} {o : Operands} {i : Instr} (hf : fieldsOk op o = true) (h : Instr.ofParts op o = some i) :
    i.parts = some (op, o) ∧ i.variantOk = true := by
  cases o with
  | e x => exact parts_ofE hf h
  | y x => exact parts_ofY hf h
  | r _ | cvt _ | atom _ | i _ | l _ | b _ | m _ | a _ | x _ =>
    dsimp only [Instr.ofParts] at h
    delta Instr.ofR Instr.ofCvt Instr.ofAtom Instr.ofI Instr.ofL Instr.ofB Instr.ofM Instr.ofA Instr.ofX at h
    split at h <;> cases h <;> exact ⟨rfl, rfl⟩

/-! ### Words and instructions -/

theorem hasFields_append {w lo : Nat} {l m : List (Nat × Nat)} :
    hasFields w lo (l ++ m) ↔ hasFields w lo l ∧ hasFields w (lo + fieldsWidth l) m := by
  induction l generalizing lo with
  | nil => simp [hasFields]
  | cons x t ih => simp [hasFields, ih, and_assoc, Nat.add_assoc]

theorem word_width (op : Nat) (o : Operands) : fieldsWidth (wordFields op o) = 64 := by cases o <;> rfl

theorem word_fit {op : Nat} (hop : op < 2 ^ 8) (o : Operands) : fieldsFit (wordFields op o) := by
  rw [wordFields, fieldsFit, List.forall_mem_append]
  exact ⟨layout_fit o, by simpa using hop⟩

theorem word_lt {op : Nat} (hop : op < 2 ^ 8) (o : Operands) : op * 2 ^ 56 + operandBits o < 2 ^ 64 := by
  rw [← packFields_word, ← word_width op o]
  exact packFields_lt (word_fit hop o)

/-- A word is the number of an opcode and operands exactly when it has their fields. -/
theorem word_iff {w op : Nat} {o : Operands} (hw : w < 2 ^ 64) (hop : op < 2 ^ 8) :
    w = op * 2 ^ 56 + operandBits o ↔ fld w 56 8 = op ∧ hasFields w 0 (layout o) := by
  have h := packFields_iff (lo := 0) (by rwa [word_width, Nat.zero_add]) (word_fit hop o) (w := w)
  rw [Nat.pow_zero, Nat.div_one, packFields_word, wordFields, hasFields_append, layout_width] at h
  simp only [h, hasFields, Nat.zero_add, and_true]
  exact and_comm

theorem encode_of_parts {i : Instr} {op : Nat} {o : Operands} (h : i.parts = some (op, o)) :
    encode i = some (BitVec.ofNat 64 (op * 2 ^ 56 + operandBits o)) := by
  simp [encode, encodeNat, h]

theorem wellFormed_of_parts {i : Instr} {op : Nat} {o : Operands} (h : i.parts = some (op, o)) :
    i.wellFormed = true ↔ typesOk op o = true ∧ fieldsOk op o = true ∧ immOk op o = true ∧ i.variantOk = true := by
  simp [Instr.wellFormed, h, and_assoc]

/-- A word of an instruction has the instruction's fields, and no other word has. -/
theorem encode_iff {w : Dword} {i : Instr} {op : Nat} {o : Operands} (h : i.parts = some (op, o)) :
    encode i = some w ↔ fld w.toNat 56 8 = op ∧ hasFields w.toNat 0 (layout o) := by
  obtain ⟨hop, -⟩ := parts_fmt h
  rw [encode_of_parts h, Option.some.injEq, bitsOfNat_iff (word_lt hop o), eq_comm, word_iff w.isLt hop]

/-- Decoding and encoding are inverse (R62, R63): a word decodes to a well-formed instruction exactly when it is its word. -/
theorem decode_ok_iff {w : Dword} {i : Instr} : decode w = .ok i ↔ i.wellFormed = true ∧ encode i = some w := by
  rw [decode, decodeNat_ok_iff]
  constructor
  · rintro ⟨o, -, hl, ht, hf, hm, hi⟩
    obtain ⟨hp, hv⟩ := parts_ofParts hf hi
    exact ⟨(wellFormed_of_parts hp).2 ⟨ht, hf, hm, hv⟩, (encode_iff hp).2 ⟨rfl, hl⟩⟩
  · rintro ⟨hw, he⟩
    cases hp : i.parts with
    | none => simp [encode, encodeNat, hp] at he
    | some x =>
      obtain ⟨op, o⟩ := x
      obtain ⟨rfl, hl⟩ := (encode_iff hp).1 he
      obtain ⟨ht, hf, hm, hv⟩ := (wellFormed_of_parts hp).1 hw
      exact ⟨o, (parts_fmt hp).2, hl, ht, hf, hm, Laws.ofParts_parts hp hv⟩

/-- Settles O53: decoding and encoding are inverse. -/
theorem acceptedWordsEncode : Obligations.AcceptedWordsEncode := fun _ _ => decode_ok_iff.1

/-- Settles O54: decoding and encoding are inverse, and every opcode with operands has a number. -/
theorem encodedInstructionsDecode : Obligations.EncodedInstructionsDecode := by
  refine fun i hi => ⟨fun w he => decode_ok_iff.2 ⟨hi, he⟩, fun hp => ?_⟩
  obtain ⟨x, hx⟩ := Option.isSome_iff_exists.1 hp
  rw [encode_of_parts hx]
  rfl

/-! ### Words of the encoding tables (R63 to R68) -/

/-- Settles O52: each word is the encoding of a well-formed instruction; and no format has the opcodes 0x00 and 0xFF. -/
theorem wordsStandForInstructions : Obligations.WordsStandForInstructions := by
  refine ⟨?_, ?_, ?_, ?_, ?_, ?_, ?_, ?_, ?_, ?_, ?_, ?_, ?_, by decide, by decide⟩
  all_goals exact decode_ok_iff.2 ⟨by decide, by decide⟩

end Sys2Proof.Proofs

/-! SUPPORT. An instruction is run as R62 says: its guard, then its meaning, which has its effect or stops without one. -/

namespace Sys2Proof.Proofs
open Sys2Proof.Machine Sys2Proof.Safety

/-- An outcome is that of an instruction run as R62 says, with some meaning. -/
def asInst (i : Instr) (s : State) (o : Host.Outcome State Fault Refusal) : Prop := ∃ body, o = runInst i s body

theorem asInst_runInst (i : Instr) (s : State) (body : State → Nat → Slot → Firing → Except Stop State) : asInst i s (runInst i s body) :=
  ⟨body, rfl⟩

theorem asInst_runRegs (i : Instr) (s : State) (body : Regs → Except Stop Regs) : asInst i s (runRegs i s body) := asInst_runInst i s _

theorem asInst_runFiring (i : Instr) (s : State) (body : State → Nat → Slot → Firing → Except Stop Firing) : asInst i s (runFiring i s body) :=
  asInst_runInst i s _

theorem asInst_runSlot (i : Instr) (s : State) (body : State → Nat → Slot → Firing → Except Stop (Slot × Firing)) :
    asInst i s (runSlot i s body) :=
  asInst_runInst i s _

theorem asInst_runAtomic (i : Instr) (op : Nat) (x : AtomFields) (s : State) : asInst i s (runAtomic i op x s) := asInst_runInst i s _

theorem asInst_runCommand (i : Instr) (op : Nat) (x : EFields) (s : State) : asInst i s (runCommand i op x s) := asInst_runInst i s _

theorem asInst_runQuery (i : Instr) (op : Nat) (x : EFields) (s : State) : asInst i s (runQuery i op x s) := asInst_runFiring i s _

theorem asInst_runCancel (i : Instr) (op : Nat) (x : EFields) (s : State) : asInst i s (runCancel i op x s) := asInst_runInst i s _

/-- Every row that an instruction word encodes is run as R62 says. -/
theorem exec_asInst {i : Instr} {op : Nat} {o : Operands} (h : i.parts = some (op, o)) (s : State) : asInst i s (exec i s) := by
  unfold exec
  cases i with
  | nop _ | cset _ | cclr _ | clog _ | add _ | sub _ | mul _ | mulh _ | div _ | rem _ | and _ | or _ | xor _ | andn _ | shl _ | shr _
  | sar _ | rot _ | min _ | max _ | cmp _ | sel _ | clz _ | popc _ | bext _ | bins _ | adds _ | addi _ | andi _ | ori _ | xori _ | shli _
  | shri _ | sari _ | cmpi _ | lil _ | fadd _ | fsub _ | fmul _ | fdiv _ | fsqrt _ | ffma _ | fmin _ | fmax _ | fcmp _ | fclass _ | fcvt _
  | fsgn _ | fmvi _ | frnd _ | fscl _ | fflg _ | vadd _ | vsub _ | vmul _ | vfma _ | vdiv _ | vsqrt _ | vrcp _ | vrsq _ | vmin _ | vmax _
  | vabs _ | vneg _ | vand _ | vor _ | vxor _ | vshl _ | vshr _ | vsar _ | vcmp _ | vsel _ | vcvt _ | vexp2 _ | vlog2 _ | vscl _ | vclass _
  | vadds _ | vsubs _ | vmulh _ | vdot _ | vaddi _ | vmuli _ | vbcst _ | vext _ | vins _ | vidx _ | vred _ | vscan _ | vperm _ | vshuf _
  | vcmpr _ | vexpn _ | vpcnt _ | plog _ | vqnt _ | vdqt _ | vsort _ | vseg _ | vmov _ | mzero _ | msplt _ | mtsw _ | mtst _ | mpert _
  | mchk _ | mfrv _ => exact asInst_runRegs _ s _
  | bra _ | brc _ | brn _ | jmp _ | call _ | ret _ | loop _ | mma _ | mmag _ | mmt _ | mrec _ | mlda _ | mscl _ | mjoin _ | mtov _ | ld _ | ldaq _
  | vld _ | vlds _ | vgth _ | wld _ | pref _ | cinv _ | cwb _ | ldnt _ | recv _ | peek _ | emit _ | emits _ | arcq _ | skip _ | mark _
  | ctok _ | tlwait _ | tlrd _ | tladv _ | barinit _ | baradd _ | barsub _ | barwait _ | barrd _ | barfree _ | gbara _ | gbarw _ | time _
  | stmp _ | flood _ | ebb _ | tidew _ | tideq _ | evcl _ | mode _ | modeq _ | sbeg _ | sres _ | sfall _ | chkerr _ | flgt _ | mfsr _
  | mtsr _ | syscOrd _ | syscEpoch _ | syscPinq _ | xlat _ | prio _ | ordl _ | ordlDrop _ | ordlStat _ => exact asInst_runFiring _ s _
  | msta _ | st _ | strl _ | vst _ | vsts _ | vsct _ | wst _ => exact asInst_runSlot _ s _
  | aadd _ | amin _ | amax _ | aand _ | aor _ | axor _ | aswp _ | acas _ | aincb _ | adecb _ | afadd _ | afmin _ | afmax _ | ared _ | awt _ =>
    exact asInst_runAtomic _ _ _ s
  | cpy _ | cpyt _ | cpyxGather _ | cpyxScatter _ | cpys _ | cpyb _ | strm _ | coll _ | fill _ | csum _ | xferPin _ | xferUnpin _
  | xferCopyPin _ => exact asInst_runCommand _ _ _ s
  | cpyq _ | strmq _ | collq _ => exact asInst_runQuery _ _ _ s
  | cpyk _ | strmk _ | collk _ => exact asInst_runCancel _ _ _ s
  | fend _ | fabt _ | trap _ | brk _ | arty _ | fence _ | sleep _ | evsig _ | sret _ | sretSkip _ | sretEsc _ | tlbi _ | halt _ | haltRel _
  | dstep _ | wfi _ | exit _ | cmpt _ => exact asInst_runInst _ s _
  | _ => cases h

/-- An instruction of a firing that runs goes on: it has its effect, or stops without one, or only counts. -/
theorem runInst_next {i : Instr} {s : State} {k : Nat} {sl : Slot} {f : Firing} {op : Nat} {o : Operands}
    (body : State → Nat → Slot → Firing → Except Stop State) (h : Running s k sl f) (hp : i.parts = some (op, o)) :
    ∃ t, runInst i s body = .next t := by
  simp only [Running] at h
  simp only [runInst, h, hp]
  split
  · split <;> exact ⟨_, rfl⟩
  · exact ⟨_, rfl⟩

/-- Settles O56: every instruction is run as R62 says, whatever its meaning. -/
theorem guardsSkip : Obligations.GuardsSkip := by
  intro s i op o hp
  obtain ⟨body, he⟩ := exec_asInst hp s
  rw [he]
  exact ⟨fun k sl f h hf hb hg => Laws.runInst_skips h hp hf hb hg, fun k sl f h => runInst_next body h hp, Laws.runInst_noFiring⟩

end Sys2Proof.Proofs

/-! SUPPORT. Where the bytes of an access lie (03 R57, R58; 08 R151; 20 R355). -/

namespace Sys2Proof.Proofs
open Sys2Proof.Machine Sys2Proof.Safety

/-! ### Global accesses -/

section
variable {s : State} {xl : Tab Nat} {ctx ea n : Nat} {w : Bool}

/-- A translation that fails stops the access with what the statement names. -/
theorem xlStop_eq (va : Nat) (w : Bool) (e : XlErr) : xlStop va w e = unreached va w e := by
  cases e <;> rfl

theorem pageAddr_nil (s : State) (ctx va : Nat) (w : Bool) : s.pageAddr [] ctx va w = (s.translate ctx va w).map (·.pa) := rfl

theorem pageAddr_nil_error {va : Nat} {e : XlErr} (h : s.translate ctx va w = .error e) : s.pageAddr [] ctx va w = .error e := by
  rw [pageAddr_nil, h]
  rfl

theorem pageAddr_found {va frame : Nat} (h : xl.find (va / 65536) = some frame) : s.pageAddr xl ctx va w = .ok (frame * 65536 + va % 65536) := by
  rw [State.pageAddr, h]

theorem globalLocs_beyond (h : 2 ^ 60 ≤ ea) : s.globalLocs xl ctx ea n w = .error (outside ea) := by
  rw [State.globalLocs, if_pos h]
  rfl

theorem globalLocs_unreached {e : XlErr} (h : ea < 2 ^ 60) (ht : s.pageAddr xl ctx ea w = .error e) :
    s.globalLocs xl ctx ea n w = .error (unreached ea w e) := by
  rw [State.globalLocs, if_neg (Nat.not_le.2 h), ht, ← xlStop_eq]
  rfl

theorem globalLocs_onePage {pa : Nat} (h : ea < 2 ^ 60) (hn : ea % 65536 + n ≤ 65536) (ht : s.pageAddr xl ctx ea w = .ok pa) :
    s.globalLocs xl ctx ea n w = .ok ((List.range n).map fun i => .glob (pa + i) (ea / 65536)) := by
  rw [State.globalLocs, if_neg (Nat.not_le.2 h), ht]
  simp only [if_pos hn]
  rfl

variable {pa : Nat} (hn : 65536 < ea % 65536 + n) (ht : s.pageAddr xl ctx ea w = .ok pa)
include hn ht

theorem globalLocs_twoPages {pa2 : Nat} (h : (ea / 65536 + 1) * 65536 < 2 ^ 60) (ht2 : s.pageAddr xl ctx ((ea / 65536 + 1) * 65536) w = .ok pa2) :
    s.globalLocs xl ctx ea n w = .ok ((List.range n).map fun i =>
      if ea % 65536 + i < 65536 then .glob (pa + i) (ea / 65536) else .glob (pa2 + (ea % 65536 + i - 65536)) (ea / 65536 + 1)) := by
  have hea : ¬ 2 ^ 60 ≤ ea := by omega
  rw [State.globalLocs, if_neg hea, ht]
  simp only [if_neg (Nat.not_le.2 hn), if_neg (Nat.not_le.2 h), ht2]
  refine congrArg Except.ok (List.map_congr_left fun i _ => ?_)
  have hlt : ea + i < (ea / 65536 + 1) * 65536 ↔ ea % 65536 + i < 65536 := by omega
  have hoff : ea + i - (ea / 65536 + 1) * 65536 = ea % 65536 + i - 65536 := by omega
  rw [Nat.mul_div_cancel _ (by decide), hoff]
  simp only [hlt]

theorem globalLocs_second_unreached {e : XlErr} (h : (ea / 65536 + 1) * 65536 < 2 ^ 60)
    (ht2 : s.pageAddr xl ctx ((ea / 65536 + 1) * 65536) w = .error e) :
    s.globalLocs xl ctx ea n w = .error (unreached ((ea / 65536 + 1) * 65536) w e) := by
  have hea : ¬ 2 ^ 60 ≤ ea := by omega
  rw [State.globalLocs, if_neg hea, ht, ← xlStop_eq]
  simp only [if_neg (Nat.not_le.2 hn), if_neg (Nat.not_le.2 h), ht2]
  rfl

theorem globalLocs_second_beyond (hea : ea < 2 ^ 60) (h : 2 ^ 60 ≤ (ea / 65536 + 1) * 65536) :
    s.globalLocs xl ctx ea n w = .error (outside ea) := by
  rw [State.globalLocs, if_neg (Nat.not_le.2 hea), ht]
  simp only [if_neg (Nat.not_le.2 hn), if_pos h]
  rfl

end

/-! ### Tile accesses -/

section
variable {s : State} {xl : Tab Nat} {k : Nat} {sl : Slot} {spov : Dword} {a n : Nat} {w : Bool}

/-- An access that crosses SPLIM, or begins beyond 4 MiB, reaches nothing. -/
theorem tileLocs_outside (h : (a < sl.pl.lim * 64 ∧ sl.pl.lim * 64 < a + n) ∨ 2 ^ 22 ≤ a) : s.tileLocs xl k sl spov a n w = .error (outside a) := by
  rw [State.tileLocs]
  by_cases ha : 2 ^ 22 ≤ a
  · rw [if_pos ha]
    rfl
  · rw [if_neg ha]
    simp only [if_pos (h.resolve_right ha)]
    rfl

section
variable (h : a + n ≤ sl.pl.lim * 64) (hn : 0 < n) (hl : sl.pl.lim ≤ 65536)
include h hn hl

/-- Below SPLIM only the state region stops a store. -/
theorem tileLocs_below : s.tileLocs xl k sl spov a n w = if w ∧ a < sl.pl.stb * 64 then .error (.trap { code := 0x0A, info := BitVec.ofNat 64 a })
    else .ok ((List.range n).map fun i => .carve k (a + i)) := by
  have h1 : ¬ 2 ^ 22 ≤ a := by omega
  have h2 : ¬ (a < sl.pl.lim * 64 ∧ sl.pl.lim * 64 < a + n) := by omega
  have h3 : ¬ sl.pl.lim * 64 ≤ a := by omega
  rw [State.tileLocs, if_neg h1]
  simp only [if_neg h2, if_neg h3]
  rfl

end

/-- From SPLIM up an access is one of the overflow area, within its size. -/
theorem tileLocs_above (h : sl.pl.lim * 64 ≤ a) (ha : a < 2 ^ 22) :
    s.tileLocs xl k sl spov a n w = if bits spov 6 0 * 65536 < a - sl.pl.lim * 64 + n then .error (.trap { code := 0x18, info := BitVec.ofNat 64 a })
      else s.globalLocs xl sl.pl.ctx (bits spov 59 16 * 65536 + (a - sl.pl.lim * 64)) n w := by
  have h2 : ¬ (a < sl.pl.lim * 64 ∧ sl.pl.lim * 64 < a + n) := by omega
  rw [State.tileLocs, if_neg (Nat.not_le.2 ha)]
  simp only [if_neg h2, if_pos h]
  split <;> rfl

end

/-- SPOV: the size of the overflow area in pages, and its first page (03 R58). -/
theorem bits_spovSize (spov : Dword) : bits spov 6 0 = spov.toNat % 128 := by simp [bits]
theorem bits_spovBase (spov : Dword) : bits spov 59 16 = spov.toNat / 2 ^ 16 % 2 ^ 44 := rfl

/-- Settles O17, clause by clause. -/
theorem whereAnAccessLies : Obligations.WhereAnAccessLies := by
  refine ⟨fun s ctx ea n w pa h hn ht => globalLocs_onePage (xl := []) h hn ht,
    fun s ctx ea n w pa pa2 hn h ht ht2 => globalLocs_twoPages (xl := []) hn ht h ht2,
    fun s ctx ea n w pa e hn h ht ht2 => globalLocs_second_unreached (xl := []) hn ht h (pageAddr_nil_error ht2),
    fun s ctx ea n w pa hea hn h ht => globalLocs_second_beyond (xl := []) hn ht hea h,
    fun s ctx ea n w e h ht => globalLocs_unreached (xl := []) h (pageAddr_nil_error ht),
    fun s xl ctx ea n w frame h hn hf => globalLocs_onePage h hn (pageAddr_found hf),
    fun s xl ctx ea n w h => globalLocs_beyond h,
    fun s xl k sl spov a n w h hn hl hw => ?_, fun s xl k sl spov a n h hn hl ha => ?_, fun s xl k sl spov a n w h ha hs => ?_,
    fun s xl k sl spov a n w h ha hs => ?_, fun s xl k sl spov a n w h => tileLocs_outside h⟩
  · rw [tileLocs_below h hn hl, if_neg fun hc => Nat.not_lt.2 (hw hc.1) hc.2]
  · rw [tileLocs_below h hn hl, if_pos ⟨rfl, ha⟩]
  · rw [tileLocs_above h ha, bits_spovSize, bits_spovBase, if_neg (Nat.not_lt.2 hs)]
  · rw [tileLocs_above h ha, bits_spovSize, if_pos hs]

end Sys2Proof.Proofs

/-! SUPPORT. A step of a tile's core: the word at the pc, and an injection that its instruction meets (04 R62; 06 R96; 23 R410). -/

namespace Sys2Proof.Proofs
open Sys2Proof.Machine Sys2Proof.Safety

/-! ### The word at an index (R62, R96) -/

section
variable {s : State} {k : Nat} {sl : Slot} {f : Firing}

theorem runAt_outside (h : inRun sl f.pc = false) : s.runAt k sl f = .next (s.takeTrap k { code := 0x09, info := BitVec.ofNat 64 f.pc }) := by
  rw [State.runAt, h]
  rfl

theorem runAt_refused (h : inRun sl f.pc = true) {e : DecodeErr} (hd : decode (s.fetch s.focus f.pc) = .error e) :
    s.runAt k sl f = traps s k { code := e.code, info := s.fetch s.focus f.pc } := by
  simp only [State.runAt, h, Bool.not_true, Bool.false_eq_true, if_false, hd]
  rfl

theorem runAt_decoded (h : inRun sl f.pc = true) {i : Instr} (hd : decode (s.fetch s.focus f.pc) = .ok i) :
    s.runAt k sl f = exec i (s.inOrder k sl f) := by
  simp only [State.runAt, h, Bool.not_true, Bool.false_eq_true, if_false, hd]

theorem inOrder_none (h : f.ahead.find? (fun x => x.1 == f.pc) = none) : s.inOrder k sl f = s := by
  rw [State.inOrder, h]

theorem inOrder_ahead {x : Nat × AtomicReq} (h : f.ahead.find? (fun x => x.1 == f.pc) = some x) :
    s.inOrder k sl f = s.putFiring k sl
      { f with request := some x.2, ahead := f.ahead.filter (fun y => y.1 != f.pc),
               ordinals := f.ordinals.put x.2.site ((f.ordinals.find x.2.site).getD 0 + 1) } := by
  rw [State.inOrder, h]

end

/-! ### Injections (23 R410) -/

theorem armedAt_unarmed {s : State} (h : s.dv.errInj.getLsbD 63 = false) (site tile : Nat) : s.armedAt site tile = false := by
  rw [State.armedAt, h]
  rfl

theorem armed_of_armedAt {s : State} {site tile : Nat} (h : s.armedAt site tile = true) : s.dv.errInj.getLsbD 63 = true := by
  cases ha : s.dv.errInj.getLsbD 63 with
  | true => rfl
  | false => rw [armedAt_unarmed ha] at h; exact h

theorem armed_of_opStruck {s : State} {tile : Nat} (h : s.opStruck tile = true) : s.dv.errInj.getLsbD 63 = true :=
  armed_of_armedAt (Bool.and_eq_true_iff.1 h).1

/-- With nothing armed an instruction meets no injection. -/
theorem runStruck_unarmed {s : State} (h : s.dv.errInj.getLsbD 63 = false) (k : Nat) (run : State → Host.Outcome State Fault Refusal) :
    s.runStruck k run = run s := by
  simp only [State.runStruck, State.opStruck, State.storeStruck, armedAt_unarmed h]
  cases run s <;> simp

theorem withInjection_unarmed {s : State} (h : s.dv.errInj.getLsbD 63 = false) (o : Host.Outcome State Fault Refusal) : withInjection s o = o := by
  cases o <;> simp only [withInjection, State.inject, h, Bool.false_eq_true, false_and, if_false]

theorem runStruck_opStruck {s : State} {k : Nat} (h : s.opStruck (tileOf k) = true) (run : State → Host.Outcome State Fault Refusal) :
    s.runStruck k run = .next (s.makeError k (s.slotCove k)) := by
  rw [State.runStruck, if_pos h]

/-- A corrected injection at site 1 is made after the operation. -/
theorem runStruck_corrected {s v : State} {k : Nat} {run : State → Host.Outcome State Fault Refusal} (ha : s.armedAt 1 (tileOf k) = true)
    (ho : s.opStruck (tileOf k) = false) (hr : run s = .next v) (hv : v.dv.errInj = s.dv.errInj) :
    s.runStruck k run = .next (v.makeError k (s.slotCove k)) := by
  rw [State.runStruck, ho, hr]
  exact if_pos (And.intro ha hv)

/-- An injection that is made is no longer armed. -/
theorem makeError_errInj (s : State) (k cove : Nat) : (s.makeError k cove).dv.errInj = s.dv.errInj &&& ~~~(BitVec.ofNat 64 (2 ^ 63)) := by
  unfold State.makeError
  extract_lets e s1
  split <;> rfl

theorem makeError_disarms (s : State) (k cove : Nat) : (s.makeError k cove).dv.errInj.getLsbD 63 = false := by
  rw [makeError_errInj, BitVec.getLsbD_and]
  exact Bool.and_false _

/-- The injection of one step is made once. -/
theorem inject_disarmed {s t : State} (h : t.dv.errInj.getLsbD 63 = false) : State.inject s t = t := by
  rw [State.inject, if_neg]
  rintro ⟨ha, he⟩
  rw [← he, h] at ha
  cases ha

theorem withInjection_makeError (s v : State) (k cove : Nat) : withInjection s (.next (v.makeError k cove)) = .next (v.makeError k cove) := by
  rw [withInjection, inject_disarmed (makeError_disarms v k cove)]

/-! ### A step of the core -/

/-- The next instruction of the firing that runs on the tile in focus. -/
def runCurrent (s : State) : Host.Outcome State Fault Refusal := (s.current).elim (.next s) fun c => s.runAt c.1 c.2.1 c.2.2

theorem runCurrent_running {s : State} {k : Nat} {sl : Slot} {f : Firing} (h : Running s k sl f) : runCurrent s = s.runAt k sl f := by
  rw [runCurrent, show s.current = _ from h]
  rfl

section
variable {s u : State} {t k : Nat} {sl : Slot} {f : Firing} (h : fetches s t u k sl f)
include h

/-- A step that is about to fetch runs the next instruction, with an injection that it meets. -/
theorem step_fetches : step s = passedOver (withInjection u (u.runStruck k runCurrent)) := by
  obtain ⟨⟨rest, hag, rfl⟩, hstill, hrun, hlen, hway, -⟩ := h
  have hcore : State.coreHere { s with agenda := rest, focus := t } = State.runStruck { s with agenda := rest, focus := t } k runCurrent := by
    rw [State.coreHere, show State.current _ = _ from hrun]
    simp only [if_neg (Nat.not_lt.2 hlen), hway]
    rfl
  have hmoves : State.moves { s with agenda := rest } (.core t) = true := by
    simpa [State.moves, State.still] using hstill
  rw [← hcore]
  simp only [step, State.nextStep, hag, State.move, hmoves]
  rfl

theorem fetches_runAt : runCurrent u = u.runAt k sl f ∧ u.focus = t ∧ inRun sl f.pc = true ∧ u.dv = s.dv := by
  obtain ⟨⟨rest, -, rfl⟩, -, hrun, -, -, hin⟩ := h
  exact ⟨runCurrent_running hrun, rfl, hin, rfl⟩

theorem step_unarmed (ha : s.dv.errInj.getLsbD 63 = false) : step s = passedOver (u.runAt k sl f) := by
  obtain ⟨hr, -, -, hdv⟩ := fetches_runAt h
  have hu : u.dv.errInj.getLsbD 63 = false := hdv ▸ ha
  rw [step_fetches h, withInjection_unarmed hu, runStruck_unarmed hu, hr]

theorem step_opStruck (ho : u.opStruck (tileOf k) = true) : step s = passedOver (.next (u.makeError k (u.slotCove k))) := by
  rw [step_fetches h, runStruck_opStruck ho, withInjection_makeError]

theorem step_corrected {v : State} (ha : u.armedAt 1 (tileOf k) = true) (ho : u.opStruck (tileOf k) = false) (hv : u.runAt k sl f = .next v)
    (he : v.dv.errInj = u.dv.errInj) : step s = passedOver (.next (v.makeError k (u.slotCove k))) := by
  obtain ⟨hr, -⟩ := fetches_runAt h
  rw [step_fetches h, runStruck_corrected ha ho (hr.trans hv) he, withInjection_makeError]

end

/-- Settles O55: a step that fetches runs the current firing at its pc, and an injection is made before it or after it. -/
theorem aStepRunsTheWordAtThePc : Obligations.AStepRunsTheWordAtThePc := by
  intro s t u k sl f h
  obtain ⟨-, rfl, hin, -⟩ := fetches_runAt h
  refine ⟨fun ha => ?_, step_opStruck h, fun ha ho i v hd hf hv he => step_corrected h ha ho ?_ he, fun pc hpc => runAt_outside hpc⟩
  · rw [step_unarmed h ha]
    refine ⟨fun i hd => ?_, fun e hd => by rw [runAt_refused hin hd]⟩
    rw [runAt_decoded hin hd]
    exact ⟨fun hn => by rw [inOrder_none hn], fun x hx => by rw [inOrder_ahead hx]⟩
  · rw [runAt_decoded hin hd, inOrder_none (by rw [hf]; rfl), hv]

end Sys2Proof.Proofs

/-! SUPPORT. Control transfers, LOOP, condition bits and the instructions that take a trap of their own (06 R96 to R102, R105; 21 R370,
R382). -/

namespace Sys2Proof.Proofs

open Sys2Proof.Machine Sys2Proof.Safety Sys2Proof.Laws

/-! ### An instruction that runs has the outcome of its meaning (04 R62) -/

/-- The outcome of a meaning that gives the next state. -/
def stateOutcome (s : State) (k : Nat) : Except Stop State → Host.Outcome State Fault Refusal
  | .ok t => leaves t
  | .error st => .next (s.stopWith k st)

section
variable {s : State} {k : Nat} {sl : Slot} {f : Firing} {i : Instr} {g : Guard} {op : Nat} {o : Operands}

theorem exec_runsFiring {body : State → Nat → Slot → Firing → Except Stop Firing} {r : Except Stop Firing} (he : exec i s = runFiring i s body)
    (h : Runs s k sl f g) (hp : i.parts = some (op, o)) (hg : operandGuard o = g) (hr : body s k sl (f.executed op) = r) :
    exec i s = firingOutcome s k sl r := by
  rw [he, runFiring_runs h hp hg, hr]

theorem exec_runsRegs {body : Regs → Except Stop Regs} {r : Regs} (he : exec i s = runRegs i s body) (h : Runs s k sl f g)
    (hp : i.parts = some (op, o)) (hg : operandGuard o = g) (hr : body f.r = .ok r) : exec i s = wrote s k sl f op r := by
  rw [he, runRegs_runs h hp hg, hr, regsOutcome_ok]

theorem exec_runsInst {body : State → Nat → Slot → Firing → Except Stop State} {r : Except Stop State} (he : exec i s = runInst i s body)
    (h : Runs s k sl f g) (hp : i.parts = some (op, o)) (hg : operandGuard o = g) (hr : body s k sl (f.executed op) = r) :
    exec i s = stateOutcome s k r := by
  rw [he, runInst_runs h hp hg, ← hr]
  cases body s k sl (f.executed op) <;> rfl

theorem exec_traps {body : State → Nat → Slot → Firing → Except Stop State} {t : TrapInfo} (he : exec i s = runInst i s body)
    (h : Runs s k sl f g) (hp : i.parts = some (op, o)) (hg : operandGuard o = g)
    (ht : body s k sl (f.executed op) = .error (.trap t)) : exec i s = traps s k t := exec_runsInst he h hp hg ht

end

/-! ### Transfers (06 R96 to R99) -/

theorem inRun_iff {sl : Slot} {t : Int} : inRun sl t = true ↔ (sl.pl.runBase : Int) ≤ t ∧ t < sl.pl.runBase + sl.pl.runLen := decide_eq_true_iff

theorem inRun_nat (sl : Slot) (n : Nat) : inRun sl n = decide (sl.pl.runBase ≤ n ∧ n < sl.pl.runBase + sl.pl.runLen) := by
  rw [Bool.eq_iff_iff, inRun_iff, decide_eq_true_iff]
  omega

section
variable {s : State} {k : Nat} {sl : Slot} {f : Firing} {i : Instr} {op : Nat}

/-- A meaning that goes to a target does there what R96 says. -/
theorem transfers_of_goto {t : Int} {link : Regs → Regs} (h : exec i s = firingOutcome s k sl ((f.executed op).goto sl t link)) :
    transfers i s k sl f op t (link f.r) := by
  constructor
  · intro hin
    rw [h, Firing.goto, if_pos (inRun_iff.2 hin)]
    rfl
  · intro hout
    rw [h, Firing.goto, if_neg (mt inRun_iff.1 hout)]
    rfl

/-- So does one that goes to the index in a register. -/
theorem jumps_of_jump {t : Dword} {link : Regs → Regs} (h : exec i s = firingOutcome s k sl ((f.executed op).jump sl t.toNat link)) :
    jumps i s k sl f op t (link f.r) := by
  have hin : t.toNat < 32768 ∧ inRun sl t.toNat = true ↔
      t.toNat < 32768 ∧ sl.pl.runBase ≤ t.toNat ∧ t.toNat < sl.pl.runBase + sl.pl.runLen := by
    rw [inRun_nat, decide_eq_true_iff]
  constructor
  · intro ht
    rw [h, Firing.jump, if_pos (hin.2 ht)]
    rfl
  · intro ht
    rw [h, Firing.jump, if_neg (mt hin.1 ht), trapInfo_toNat]
    rfl

theorem bra_outcome {x : BFields} (h : Runs s k sl f x.guard) :
    exec (.bra x) s = firingOutcome s k sl ((f.executed 0x02).goto sl (f.pc + x.disp.toInt) id) :=
  exec_runsFiring (show execBra x s = _ from rfl) h rfl rfl rfl

theorem brc_outcome {x : BFields} (h : Runs s k sl f x.guard) :
    exec (.brc x) s = firingOutcome s k sl
      (if s.cond sl f x.sel.val then (f.executed 0x03).goto sl (f.pc + x.disp.toInt) id else .ok (f.executed 0x03)) :=
  exec_runsFiring (show execBrc x s = _ from rfl) h rfl rfl rfl

theorem brn_outcome {x : BFields} (h : Runs s k sl f x.guard) :
    exec (.brn x) s = firingOutcome s k sl
      (if s.cond sl f x.sel.val then .ok (f.executed 0x04) else (f.executed 0x04).goto sl (f.pc + x.disp.toInt) id) :=
  exec_runsFiring (show execBrn x s = _ from rfl) h rfl rfl rfl

theorem jmp_outcome {x : RFields} (h : Runs s k sl f x.guard) :
    exec (.jmp x) s = firingOutcome s k sl ((f.executed 0x05).jump sl (f.r.readG x.a).toNat fun r => r.writeG x.d (link f)) :=
  exec_runsFiring (show execJmp x s = _ from rfl) h rfl rfl rfl

theorem call_outcome {x : BFields} (h : Runs s k sl f x.guard) :
    exec (.call x) s = firingOutcome s k sl ((f.executed 0x06).goto sl (f.pc + x.disp.toInt) fun r => r.setG x.sel (link f)) :=
  exec_runsFiring (show execCall x s = _ from rfl) h rfl rfl rfl

theorem ret_outcome {x : RFields} (h : Runs s k sl f x.guard) :
    exec (.ret x) s = firingOutcome s k sl ((f.executed 0x07).jump sl (f.r.readG x.a).toNat id) :=
  exec_runsFiring (show execRet x s = _ from rfl) h rfl rfl rfl

theorem loop_outcome {x : BFields} (h : Runs s k sl f x.guard) :
    exec (.loop x) s = firingOutcome s k sl
      (if f.r.gr x.sel = 0 then .ok (f.executed 0x08)
      else if f.r.gr x.sel = 1 then .ok { f.executed 0x08 with r := f.r.setG x.sel 0 }
      else (f.executed 0x08).goto sl (f.pc + x.disp.toInt) fun r => r.setG x.sel (f.r.gr x.sel - 1)) :=
  exec_runsFiring (show execLoop x s = _ from rfl) h rfl rfl rfl

/-- LOOP with more than one round to go writes one less and goes to its target (R98). -/
theorem loop_transfers {x : BFields} (h : Runs s k sl f x.guard) (hn : 1 < (f.r.gr x.sel).toNat) :
    transfers (.loop x) s k sl f 0x08 (f.pc + x.disp.toInt) (f.r.setG x.sel (f.r.gr x.sel - 1)) := by
  have h0 : f.r.gr x.sel ≠ 0 := fun e => by simp [e] at hn
  have h1 : f.r.gr x.sel ≠ 1 := fun e => by simp [e] at hn
  have hgo := loop_outcome h
  rw [if_neg h0, if_neg h1] at hgo
  exact transfers_of_goto hgo

end

/-- Settles O11: a branch is a transfer to a displacement or goes on, JMP and RET are transfers to the index in a register. -/
theorem transfersStayInTheRun : Obligations.TransfersStayInTheRun := by
  intro s k sl f
  refine ⟨fun x h => transfers_of_goto (bra_outcome h), fun x h hc => ⟨?_, ?_⟩, fun x h hc => ⟨?_, ?_⟩, fun x h => jumps_of_jump (jmp_outcome h),
    fun x h => transfers_of_goto (call_outcome h), fun x h => jumps_of_jump (ret_outcome h), fun x h hn => loop_transfers h hn, inRun_nat sl,
    runAt_outside⟩
  · have hgo := brc_outcome h
    rw [if_pos hc] at hgo
    exact transfers_of_goto hgo
  · rw [brn_outcome h, if_pos hc]
    rfl
  · have hgo := brn_outcome h
    rw [if_neg (by simp [hc])] at hgo
    exact transfers_of_goto hgo
  · rw [brc_outcome h, if_neg (by simp [hc])]
    rfl

/-- Settles O12: the three cases of `loop_outcome`. -/
theorem loopCountsDown : Obligations.LoopCountsDown := by
  intro s k sl f x h
  refine ⟨fun h0 => ?_, fun h1 => ?_, loop_transfers h⟩
  · rw [loop_outcome h, if_pos h0]
    rfl
  · have h0 : f.r.gr x.sel ≠ 0 := by simp [h1]
    rw [loop_outcome h, if_neg h0, if_pos h1]
    rfl

/-! ### Condition bits (06 R101, R102) -/

theorem withCond_setC (r : Regs) (n : Nat) (b : Bool) : withCond r n b (r.setC n b) := by
  refine ⟨rfl, fun j hj => ?_⟩
  have hbit : (BitVec.ofNat 32 (2 ^ n)).getLsbD j = decide (n = j) := by
    rw [BitVec.getLsbD_ofNat, Nat.testBit_two_pow, decide_eq_true hj, Bool.true_and]
  cases b with
  | true =>
    show (r.c ||| BitVec.ofNat 32 (2 ^ n)).getLsbD j = _
    rw [BitVec.getLsbD_or, hbit]
    by_cases h : j = n
    · simp [h]
    · simp [h, Ne.symm h]
  | false =>
    show (r.c &&& ~~~(BitVec.ofNat 32 (2 ^ n))).getLsbD j = _
    rw [BitVec.getLsbD_and, BitVec.getLsbD_not, hbit]
    by_cases h : j = n
    · simp [h]
    · simp [h, hj, Ne.symm h]

/-- CLOG with a function of two bits, or of a register, writes one bit. -/
theorem clog_setC (r : Regs) (x : IFields) (h : x.imm.toNat / 1024 % 8 ≠ 7) :
    let a := r.c.getLsbD (x.imm.toNat % 32)
    let b := r.c.getLsbD (x.imm.toNat / 32 % 32)
    let op := x.imm.toNat / 1024 % 8
    r.clog x = r.setC (x.imm.toNat % 32)
      (if op = 0 then a && b else if op = 1 then a || b else if op = 2 then a ^^ b else if op = 3 then a && !b else if op = 4 then b
        else if op = 5 then !b else r.readG x.a != 0) := by
  intro a b op
  have hop : op = 0 ∨ op = 1 ∨ op = 2 ∨ op = 3 ∨ op = 4 ∨ op = 5 ∨ op = 6 := by omega
  unfold Regs.clog
  rcases hop with hop | hop | hop | hop | hop | hop | hop
  all_goals
    simp only [show x.imm.toNat / 1024 % 8 = _ from hop, hop]
    rfl

theorem clog_copies (r : Regs) (x : IFields) (h : x.imm.toNat / 1024 % 8 = 7) : r.clog x = r.writeG x.d (r.c.setWidth 64) := by
  unfold Regs.clog
  rw [h]
  rfl

section
variable {s : State} {k : Nat} {sl : Slot} {f : Firing} {x : IFields} (h : Runs s k sl f x.guard)
include h

theorem cset_wrote : exec (.cset x) s = wrote s k sl f 0x09 (f.r.setC (x.imm.toNat % 32) true) :=
  exec_runsRegs (show execCset x s = _ from rfl) h rfl rfl rfl

theorem cclr_wrote : exec (.cclr x) s = wrote s k sl f 0x0A (f.r.setC (x.imm.toNat % 32) false) :=
  exec_runsRegs (show execCclr x s = _ from rfl) h rfl rfl rfl

theorem clog_wrote : exec (.clog x) s = wrote s k sl f 0x0B (f.r.clog x) := exec_runsRegs (show execClog x s = _ from rfl) h rfl rfl rfl

end

/-- Settles O13: each writes at most one condition bit, and each of the others stops with its trap. -/
theorem conditionBitsAndTrapInstructions : Obligations.ConditionBitsAndTrapInstructions := by
  refine ⟨fun s k sl f => ⟨fun x h => exec_runsRegs (show execNop x s = _ from rfl) h rfl rfl rfl,
      fun x h => ⟨⟨_, cset_wrote h, withCond_setC f.r _ true⟩, ⟨_, cclr_wrote h, withCond_setC f.r _ false⟩⟩,
      fun x h => ⟨fun h7 => ?_, fun h7 => ⟨_, clog_wrote h, ?_⟩⟩⟩,
    fun s k sl f => ⟨fun x h => exec_traps (show execFabt x s = _ from rfl) h rfl rfl rfl,
      fun x h => exec_traps (show execTrap x s = _ from rfl) h rfl rfl rfl,
      fun x h => exec_traps (show execBrk x s = _ from rfl) h rfl rfl rfl,
      fun x h => exec_traps (show execCmpt x s = _ from rfl) h rfl rfl rfl⟩⟩
  · rw [clog_wrote h, clog_copies f.r x h7]
  · rw [clog_setC f.r x h7]
    exact withCond_setC f.r _ _

end Sys2Proof.Proofs

/-! SUPPORT. The end of a firing by FEND, EXIT and WFI, and the verdict of a surrogate firing (06 R103; 17 R329; 21 R380, R381; 24 R416). -/

namespace Sys2Proof.Proofs

open Sys2Proof.Machine Sys2Proof.Safety Sys2Proof.Laws

section
variable {s : State} {k : Nat} {sl : Slot} {f : Firing} {e : EndKind}

/-! ### The checks and waits before a commit (06 R103) -/

/-- The checks of a firing pass and it waits for nothing; what a firing of a surrogate adds to it is its verdict. -/
def endsNow (s : State) (k : Nat) (sl : Slot) (f : Firing) : Prop :=
  s.endChecks sl f = .ok () ∧ s.commandsEnded f.started = true ∧ s.outstanding k + f.b.commands ≤ 64 ∧
    s.lowerDone k f.r.stamp.toNat sl.pl.rank = true

/-- No check that CHKI asks for stands in the way of an EXIT (21 R380). -/
def exitsClean (f : Firing) (e : EndKind) : Prop := e = .exit → f.r.sys.chki.getLsbD 0 = false

theorem exitsClean_fend (f : Firing) : exitsClean f .fend := by rintro ⟨⟩
theorem exitsClean_wfi (f : Firing) (ns : Nat) : exitsClean f (.wfi ns) := by rintro ⟨⟩

theorem endFiring_failed {st : Stop} (h : s.endChecks sl f = .error st) : s.endFiring k sl f e = .error st := by
  rw [State.endFiring, h]
  rfl

theorem endFiring_checked (h : s.endChecks sl f = .ok ()) (hc : f.r.sys.chki.getLsbD 0 = true) :
    s.endFiring k sl f .exit = .error (.trap { code := 0x0D, info := f.r.sys.chki }) := by
  rw [State.endFiring, h, hc]
  rfl

theorem endFiring_endsNow (h : endsNow s k sl f) (he : exitsClean f e) :
    s.endFiring k sl f e =
      if isSurrogate sl f then (s.putFiring k sl f).decideVerdict k sl f e else .ok ((s.putFiring k sl f).finish k e) := by
  obtain ⟨hchecks, hcmd, hroom, hturn⟩ := h
  have hexit : ¬ (e = .exit ∧ f.r.sys.chki.getLsbD 0 = true) := fun ⟨hx, hc⟩ => by
    rw [he hx] at hc
    cases hc
  rw [State.endFiring, hchecks, if_neg hexit, hcmd, if_neg (Nat.not_lt.2 hroom), hturn]
  rfl

theorem endFiring_mayEnd (h : mayEnd s k sl f) (he : exitsClean f e) :
    s.endFiring k sl f e = .ok ((s.putFiring k sl f).finish k e) := by
  obtain ⟨hchecks, hcmd, hroom, hturn, hsur⟩ := h
  rw [endFiring_endsNow ⟨hchecks, hcmd, hroom, hturn⟩ he, hsur]
  rfl

/-! ### EXIT (21 R380) -/

theorem handlerEnd_ok (hcmd : s.commandsEnded f.started = true) (hroom : s.outstanding k + f.b.commands ≤ 64)
    (hturn : (f.b.gbuf = [] ∧ f.b.sbuf = []) ∨ s.lowerDone k f.r.stamp.toNat sl.pl.rank = true) : s.handlerEnd k sl f = .ok () := by
  have hwait : ¬ ((!(f.b.gbuf.isEmpty && f.b.sbuf.isEmpty)) = true ∧ (!s.lowerDone k f.r.stamp.toNat sl.pl.rank) = true) := by
    rcases hturn with ⟨hg, hs⟩ | hl
    · simp [hg, hs]
    · simp [hl]
  rw [State.handlerEnd, hcmd, if_neg (Nat.not_lt.2 hroom), if_neg hwait]
  rfl

theorem exitFiring_handler (hh : f.handler = true) (hc : f.r.sys.chki.getLsbD 0 = false) (he : s.handlerEnd k sl f = .ok ()) :
    s.exitFiring k sl f = .ok ((s.commitHandler k sl f).exitSlot k) := by
  rw [State.exitFiring, if_pos hh, hc, he]
  rfl

theorem exitFiring_noHandler (hh : f.handler = false) : s.exitFiring k sl f = s.endFiring k sl f .exit := by
  rw [State.exitFiring, hh]
  rfl

/-- Whatever firing executes it, EXIT traps where an automatic check has found something. -/
theorem exitFiring_checked (h : s.endChecks sl f = .ok ()) (hc : f.r.sys.chki.getLsbD 0 = true) :
    s.exitFiring k sl f = .error (.trap { code := 0x0D, info := f.r.sys.chki }) := by
  cases hh : f.handler with
  | true =>
    rw [State.exitFiring, if_pos hh, hc]
    rfl
  | false => rw [exitFiring_noHandler hh, endFiring_checked h hc]

/-! ### The verdict of a surrogate firing (17 R329) -/

theorem bits_low (v : Dword) (hi : Nat) : bits v hi 0 = v.toNat % 2 ^ (hi + 1) := by
  rw [bits, pow_zero, Nat.div_one, Nat.sub_zero]

theorem accepts_eq (f : Firing) : accepts f = verdict f := by
  unfold accepts verdict
  rw [bits_low]
  rfl

/-- Where no log forces the verdict, it is noted and decides. -/
theorem decideVerdict_free (hd : sl.detl ≠ 2) :
    s.decideVerdict k sl f e = .ok (if verdict f then (noted s k sl f).finish k e else ((noted s k sl f).dropFiring k).redeliver k sl f) := by
  have hfree : ∀ ctx kind lnch site same, s.forced sl.detl ctx kind lnch site same = .free := fun _ _ _ _ _ => if_neg hd
  unfold State.decideVerdict noted
  simp only [hfree, accepts_eq]
  cases verdict f <;> rfl

theorem endFiring_accepted (h : endsNow s k sl f) (he : exitsClean f e) (hsur : isSurrogate sl f = true) (hd : sl.detl ≠ 2)
    (hv : verdict f = true) : s.endFiring k sl f e = .ok ((noted (s.putFiring k sl f) k sl f).finish k e) := by
  rw [endFiring_endsNow h he, if_pos hsur, decideVerdict_free hd, if_pos hv]

theorem endFiring_rejected (h : endsNow s k sl f) (he : exitsClean f e) (hsur : isSurrogate sl f = true) (hd : sl.detl ≠ 2)
    (hv : verdict f = false) : s.endFiring k sl f e = .ok (((noted (s.putFiring k sl f) k sl f).dropFiring k).redeliver k sl f) := by
  rw [endFiring_endsNow h he, if_pos hsur, decideVerdict_free hd, hv]
  rfl

/-! ### A rejected firing (17 R329) -/

theorem dropFiring_registers (h : s.slot k = some sl) :
    ∃ u, (s.dropFiring k).slot k = some u ∧ u.firing = none ∧ u.c = sl.c ∧ u.flga = sl.flga := by
  unfold State.dropFiring
  extract_lets wait s1 t
  have hs1 : ∃ u, s1.slot k = some u ∧ u.firing = none ∧ u.c = sl.c ∧ u.flga = sl.flga := by
    unfold s1
    rw [updSlot_slot, h]
    exact ⟨_, rfl, rfl, rfl, rfl⟩
  split
  · exact hs1
  · exact hs1

theorem dropFiring_slot_other (s : State) {k j : Nat} (h : j ≠ k) : (s.dropFiring k).slot j = s.slot j := by
  unfold State.dropFiring
  extract_lets wait s1 t
  have hs1 : s1.slot j = s.slot j := updSlot_slot_other s _ h
  split
  · exact hs1
  · exact hs1

theorem foldl_keeps {α β : Type} (p : State → β) {g : State → α → State} (hg : ∀ s x, p (g s x) = p s) (l : List α) (s : State) :
    p (l.foldl g s) = p s := by
  induction l generalizing s with
  | nil => rfl
  | cons x l ih => exact (ih _).trans (hg s x)

/-- The slots and the bytes of global memory, which tokens given to a fallback do not change. -/
def slotsAndMemory (s : State) : Tab Slot × Memory := (s.slots, s.mm.mem)

/-- A fallback as a rejected firing leaves it: due under the stamp, the phase and the rate set of the firing. -/
def dueFallback (f : Firing) (u : Slot) : Slot :=
  { u with due.fallback := some (f.r.stamp, f.phase, f.rset), stamp := f.r.stamp, phase := f.phase, rset := f.rset }

theorem slotsAndMemory_setArc (s : State) (n : Nat) (x : Arc) : slotsAndMemory (s.setArc n x) = slotsAndMemory s := rfl

theorem slotsAndMemory_writeTokens (s : State) (x : Arc) (k : Nat) (toks : List (List Byte)) :
    slotsAndMemory (s.writeTokens x k toks) = slotsAndMemory s :=
  Prod.ext (congrArg (·.slots) (writeTokens_frame s x k toks)) (writeTokens_mem s x k toks)

theorem redeliver_fallback {fk : Nat} {fs : Slot} (hfk : sl.pl.fallback = some fk) (hfs : s.slot fk = some fs) :
    ∃ s1, slotsAndMemory s1 = slotsAndMemory s ∧
      s.redeliver k sl f = (s1.updSlot k fun u => { u with due.surWait := true }).updSlot fk (dueFallback f) := by
  unfold State.redeliver
  rw [hfk]
  simp only [hfs]
  refine ⟨_, foldl_keeps slotsAndMemory (fun s p => ?_) _ s, rfl⟩
  split
  · split
    · exact (slotsAndMemory_setArc ..).trans (slotsAndMemory_writeTokens ..)
    · rfl
  · rfl

/-- A rejected firing leaves global memory and the slot's condition bits and flags; the surrogate waits, and its fallback is due. -/
theorem redeliver_rejected {fk : Nat} {own fs : Slot} (hne : fk ≠ k) (hown : s.slot k = some own) (hfk : sl.pl.fallback = some fk)
    (hfs : s.slot fk = some fs) :
    ((s.dropFiring k).redeliver k sl f).mm.mem = s.mm.mem ∧ ((s.dropFiring k).redeliver k sl f).slot fk = some (dueFallback f fs) ∧
      ∃ u, ((s.dropFiring k).redeliver k sl f).slot k = some u ∧ u.firing = none ∧ u.due.surWait = true ∧ u.c = own.c ∧ u.flga = own.flga := by
  obtain ⟨u, hu, hfir, hc, hflga⟩ := dropFiring_registers hown
  have hfs' : (s.dropFiring k).slot fk = some fs := (dropFiring_slot_other s hne).trans hfs
  obtain ⟨s1, hs1, heq⟩ := redeliver_fallback (k := k) (f := f) hfk hfs'
  obtain ⟨hslots, hmem⟩ := Prod.mk.inj hs1
  have hslot : ∀ j, s1.slot j = (s.dropFiring k).slot j := fun j => congrArg (Tab.find · j) hslots
  rw [heq]
  refine ⟨hmem.trans (dropFiring_mem s k), ?_, { u with due.surWait := true }, ?_, hfir, rfl, hc, hflga⟩
  · rw [updSlot_slot, updSlot_slot_other _ _ hne, hslot, hfs']
    rfl
  · rw [updSlot_slot_other _ _ hne.symm, updSlot_slot, hslot, hu]
    rfl

end

/-! ### FEND, EXIT and WFI -/

section
variable {s : State} {k : Nat} {sl : Slot} {f : Firing}

theorem fend_outcome {x : RFields} (h : Runs s k sl f x.guard) (hh : f.handler = false) :
    exec (.fend x) s = stateOutcome s k (s.endFiring k sl (f.executed 0x0C) .fend) := by
  refine exec_runsInst (show execFend x s = _ from rfl) h rfl rfl ?_
  rw [executed_handler, hh]
  rfl

theorem exit_outcome {x : YFields} (h : Runs s k sl f x.guard) :
    exec (.exit x) s = stateOutcome s k (s.exitFiring k sl (f.executed 0xDF)) :=
  exec_runsInst (show execExit x s = _ from rfl) h rfl rfl rfl

theorem exit_outcome_noHandler {x : YFields} (h : Runs s k sl f x.guard) (hh : f.handler = false) :
    exec (.exit x) s = stateOutcome s k (s.endFiring k sl (f.executed 0xDF) .exit) := by
  rw [exit_outcome h, exitFiring_noHandler (f := f.executed 0xDF) hh]

theorem wfi_outcome {x : YFields} (h : Runs s k sl f x.guard) (hh : f.handler = false) :
    exec (.wfi x) s = stateOutcome s k (s.endFiring k sl (f.executed 0xDE) (.wfi (f.r.readG x.gr).toNat)) := by
  refine exec_runsInst (show execWfi x s = _ from rfl) h rfl rfl ?_
  rw [executed_handler, hh]
  rfl

theorem fend_handler {x : RFields} (h : Runs s k sl f x.guard) (hh : f.handler = true) : exec (.fend x) s = traps s k { code := 0x0A } :=
  exec_traps (show execFend x s = _ from rfl) h rfl rfl (if_pos hh)

theorem wfi_handler {x : YFields} (h : Runs s k sl f x.guard) (hh : f.handler = true) : exec (.wfi x) s = traps s k { code := 0x0A } :=
  exec_traps (show execWfi x s = _ from rfl) h rfl rfl (if_pos hh)

end

theorem isSurrogate_noHandler {sl : Slot} {f : Firing} (h : isSurrogate sl f = true) : f.handler = false := by
  rw [isSurrogate, Bool.and_eq_true] at h
  simpa using h.2

/-- Settles O15: each ends its firing through `endFiring`, EXIT of a handler through `commitHandler`, and where the firing is one of a
surrogate its verdict decides. -/
theorem endOfAFiring : Obligations.EndOfAFiring := by
  refine ⟨fun s k sl f => ⟨fun x h => ⟨fun hh hm => ?_, fun hh t ht => ?_, fend_handler h⟩,
      fun x h => ⟨fun hh hm hc => ?_, fun hh hc hcmd hroom hturn => ?_, fun hchecks hc => ?_⟩, fun x h => ⟨fun hh hm => ?_, wfi_handler h⟩⟩,
    fun s k sl f hsur hd => ⟨fun x h hchecks hcmd hroom hturn => ⟨fun hv => ?_, fun hv => ?_⟩,
      fun x h hchecks hcmd hroom hturn hc => ⟨fun hv => ?_, fun hv => ?_⟩⟩⟩
  · rw [fend_outcome h hh, endFiring_mayEnd hm (exitsClean_fend _)]
    rfl
  · rw [fend_outcome h hh, endFiring_failed ht]
    rfl
  · rw [exit_outcome_noHandler h hh, endFiring_mayEnd hm fun _ => hc]
    rfl
  · rw [exit_outcome h, exitFiring_handler (f := f.executed 0xDF) hh hc (handlerEnd_ok hcmd hroom hturn)]
    rfl
  · rw [exit_outcome h, exitFiring_checked hchecks hc]
    rfl
  · rw [wfi_outcome h hh, endFiring_mayEnd hm (exitsClean_wfi _ _)]
    rfl
  · rw [fend_outcome h (isSurrogate_noHandler hsur),
      endFiring_accepted (f := f.executed 0x0C) ⟨hchecks, hcmd, hroom, hturn⟩ (exitsClean_fend _) hsur hd hv]
    rfl
  · have hend : exec (.fend x) s = leaves _ := (fend_outcome h (isSurrogate_noHandler hsur)).trans
      (congrArg _ (endFiring_rejected (f := f.executed 0x0C) ⟨hchecks, hcmd, hroom, hturn⟩ (exitsClean_fend _) hsur hd hv))
    refine ⟨hend, fun fk fs hfk hne hsl hfs h0 => ?_⟩
    rw [show noted (s.putFiring k sl (f.executed 0x0C)) k sl (f.executed 0x0C) = s.putFiring k sl (f.executed 0x0C) from if_pos h0] at hend
    obtain ⟨hmem, hfall, u, hu, hwaits⟩ := redeliver_rejected (f := f.executed 0x0C) hne (putFiring_slot s k sl (f.executed 0x0C)) hfk
      ((putFiring_slot_other s sl _ hne).trans hfs)
    generalize ((s.putFiring k sl (f.executed 0x0C)).dropFiring k).redeliver k sl (f.executed 0x0C) = t at hend hmem hfall hu
    obtain ⟨hfir, hwait, hc, hflga⟩ := hwaits
    exact ⟨{ t with freeCtr := t.freeCtr + 1 }, u, dueFallback f fs, hend, hmem, hu, hfir, hwait, hc, hflga, hfall, rfl, rfl⟩
  · rw [exit_outcome_noHandler h (isSurrogate_noHandler hsur),
      endFiring_accepted (f := f.executed 0xDF) ⟨hchecks, hcmd, hroom, hturn⟩ (fun _ => hc) hsur hd hv]
    rfl
  · rw [exit_outcome_noHandler h (isSurrogate_noHandler hsur),
      endFiring_rejected (f := f.executed 0xDF) ⟨hchecks, hcmd, hroom, hturn⟩ (fun _ => hc) hsur hd hv]
    rfl

end Sys2Proof.Proofs

/-! SUPPORT. RECV, PEEK, EMIT, EMITS, ARCQ, SKIP, MARK and CTOK (06 R107 to R113, R117 to R120). -/

namespace Sys2Proof.Proofs

open Sys2Proof.Machine Sys2Proof.Safety Sys2Proof.Laws

/-! ### Bytes and numbers (00 R1) -/

theorem ofBytes_lt (l : List Byte) : ofBytes l < 256 ^ l.length := by
  induction l with
  | nil => simp [ofBytes]
  | cons b l ih =>
    have hb : b.toNat < 256 := b.isLt
    rw [ofBytes, List.length_cons, pow_succ]
    omega

@[simp] theorem length_toBytes (n v : Nat) : (toBytes n v).length = n := by
  induction n generalizing v with
  | zero => rfl
  | succ n ih => rw [toBytes, List.length_cons, ih]

theorem getElem?_toBytes {n j : Nat} (v : Nat) (h : j < n) : (toBytes n v)[j]? = some (BitVec.ofNat 8 (v >>> (8 * j))) := by
  induction n generalizing v j with
  | zero => cases h
  | succ n ih =>
    cases j with
    | zero => rfl
    | succ j =>
      rw [toBytes, List.getElem?_cons_succ, ih _ (by omega), show v / 256 = v >>> 8 from (Nat.shiftRight_eq_div_pow v 8).symm,
        ← Nat.shiftRight_add]
      congr 3
      omega

/-- A pattern of a type extended as RECV extends it. -/
theorem widen_eq_extended {t : Ty} {v : Nat} (h : v < 2 ^ t.bits) : widen t v = extended t (BitVec.ofNat t.bits v) := by
  unfold widen extended sext
  split
  · rfl
  · refine BitVec.eq_of_toNat_eq ?_
    rw [BitVec.toNat_setWidth, BitVec.toNat_ofNat, BitVec.toNat_ofNat, Nat.mod_eq_of_lt h]

/-- An element's bytes stand for a pattern of its type; E2M1 has none. -/
theorem ofBytes_lt_type {t : Ty} {l : List Byte} (h : l.length = t.bytes) : ofBytes l < 2 ^ t.bits := by
  have hbits : 8 * t.bytes ≤ t.bits := Nat.mul_div_le t.bits 8
  calc ofBytes l < 256 ^ t.bytes := h ▸ ofBytes_lt l
    _ = 2 ^ (8 * t.bytes) := by rw [pow_mul]; rfl
    _ ≤ 2 ^ t.bits := Nat.pow_le_pow_right (by decide) hbits

/-! ### Ports (06 R108, R120) -/

section
variable {s : State} {sl : Slot} {f : Firing} {n i : Nat}

theorem inputArc_declared {a : Arc} (h : hasInput s sl f n a) : s.inputArc sl f n i = .ok a := by
  obtain ⟨hh, hsize, harc⟩ := h
  obtain ⟨size, hsize⟩ := Option.isSome_iff_exists.1 hsize
  rw [State.inputArc, hh, hsize, harc]

theorem inputArc_misused (h : f.handler = true ∨ sizeIn sl n = none) : s.inputArc sl f n i = .error (.trap (misused false n 0 i)) := by
  unfold State.inputArc
  rcases h with h | h
  · rw [h]
    rfl
  · rw [h]
    cases f.handler <;> rfl

theorem outputSize_declared {size : Nat} (hh : f.handler = false) (h : sizeOut sl n = some size) : outputSize sl f n i = .ok size := by
  rw [outputSize, hh, h]

theorem outputSize_misused (h : f.handler = true ∨ sizeOut sl n = none) : outputSize sl f n i = .error (.trap (misused true n 0 i)) := by
  unfold outputSize
  rcases h with h | h
  · rw [h]
    rfl
  · rw [h]
    cases f.handler <;> rfl

theorem outputToken_misused (h : f.handler = true ∨ sizeOut sl n = none) : outputToken sl f n i = .error (.trap (misused true n 0 i)) := by
  rw [outputToken, outputSize_misused h]
  rfl

variable {size : Nat} (hh : f.handler = false) (hsize : sizeOut sl n = some size)
include hh hsize

theorem outputToken_declared (hi : i < rateOut sl f n) : outputToken sl f n i = .ok size := by
  rw [outputToken, outputSize_declared hh hsize]
  exact if_pos hi

theorem outputToken_beyond (hi : rateOut sl f n ≤ i) : outputToken sl f n i = .error (.trap (misused true n (rateOut sl f n) i)) := by
  rw [outputToken, outputSize_declared hh hsize]
  exact if_neg (Nat.not_lt.2 hi)

end

/-! ### RECV and PEEK (06 R108) -/

section
variable {s : State} {k : Nat} {sl : Slot} {f : Firing} {x : AFields} {a : Arc}

theorem tookToken_tk (f : Firing) (a : Arc) (n i : Nat) : (tookToken f a n i).tk = f.tk := by
  unfold tookToken
  split <;> rfl

theorem tookToken_v (f : Firing) (a : Arc) (n i : Nat) : (tookToken f a n i).r.v = f.r.v := by
  unfold tookToken
  split <;> rfl

theorem sizeErrIn_of_tk {t f : Firing} (h : t.tk = f.tk) (r : Regs) (e : Vector (Option Nat) 16) :
    { t with r := r, tk.sizeErrIn := e } = { t with r := r, tk := { f.tk with sizeErrIn := e } } := by rw [h]

theorem putElems_of_v {r q : Regs} (h : r.v = q.v) (d : Fin 64) (w : Nat) (on : Nat → Bool) (g : Nat → Nat) :
    r.putElems d w on g = { r with v := (q.putElems d w on g).v } := by
  simp only [Regs.putElems, Regs.setV, h]

theorem readToken_misused (h : f.handler = true ∨ sizeIn sl x.arc.val = none) :
    s.readToken sl f x = .error (.trap (misused false x.arc.val 0 x.count.toNat)) := by
  rw [State.readToken]
  simp only [inputArc_misused h]
  rfl

theorem readToken_beyond (ha : hasInput s sl f x.arc.val a) (hi : rateIn sl f x.arc.val ≤ x.count.toNat) :
    s.readToken sl f x = .error (.trap (misused false x.arc.val (rateIn sl f x.arc.val) x.count.toNat)) := by
  rw [State.readToken]
  simp only [inputArc_declared ha]
  exact if_pos hi

variable (ha : hasInput s sl f x.arc.val a) (hi : x.count.toNat < rateIn sl f x.arc.val)
include ha hi

/-- The bytes of a register that RECV and PEEK read from a token: those beyond it are 0. -/
def pieceByte (s : State) (a : Arc) (f : Firing) (n i b j : Nat) : Nat := if b + j < a.size then (s.tokenByte a f n i (b + j)).toNat else 0

theorem readToken_piece (hg : x.d.isG = true) (hb : x.off.toNat * x.ty.bytes + x.ty.bytes ≤ a.size) :
    s.readToken sl f x = .ok { tookToken f a x.arc.val x.count.toNat with
      r := (tookToken f a x.arc.val x.count.toNat).r.writeG x.d (extended x.ty (BitVec.ofNat x.ty.bits
        (ofBytes (pieceOf s a f x.arc.val x.count.toNat (x.off.toNat * x.ty.bytes) x.ty.bytes)))) } := by
  have hlen : (pieceOf s a f x.arc.val x.count.toNat (x.off.toNat * x.ty.bytes) x.ty.bytes).length = x.ty.bytes := by simp [pieceOf]
  rw [← widen_eq_extended (ofBytes_lt_type hlen), State.readToken, inputArc_declared ha]
  exact (if_neg (Nat.not_le.2 hi)).trans ((if_pos hg).trans (if_neg (Nat.not_lt.2 hb)))

theorem readToken_sizeError (hg : x.d.isG = true) (hb : a.size < x.off.toNat * x.ty.bytes + x.ty.bytes) :
    s.readToken sl f x = .ok { tookToken f a x.arc.val x.count.toNat with
      r := (tookToken f a x.arc.val x.count.toNat).r.writeG x.d 0
      tk := { f.tk with sizeErrIn := firstError f.tk.sizeErrIn x.arc.val (x.off.toNat * x.ty.bytes) } } := by
  rw [State.readToken, inputArc_declared ha]
  exact (if_neg (Nat.not_le.2 hi)).trans ((if_pos hg).trans ((if_pos hb).trans (congrArg Except.ok (sizeErrIn_of_tk (tookToken_tk ..) _ _))))

theorem readToken_vector (hg : x.d.isG = false) (hd : named x.d f.r) :
    s.readToken sl f x = .ok { tookToken f a x.arc.val x.count.toNat with
      r := { (tookToken f a x.arc.val x.count.toNat).r with
        v := (f.r.putElems (vnum f.r x.d) 8 (byteOn (f.r.pr x.pm) x.ty.bits)
          (pieceByte s a f x.arc.val x.count.toNat (x.off.toNat * 256))).v }
      tk := { f.tk with
        sizeErrIn := if a.size ≤ x.off.toNat * 256 then firstError f.tk.sizeErrIn x.arc.val (x.off.toNat * 256) else f.tk.sizeErrIn } } := by
  rw [State.readToken, inputArc_declared ha]
  refine (if_neg (Nat.not_le.2 hi)).trans ((if_neg (by simp [hg])).trans ?_)
  rw [vecNum_of_named hd]
  show Except.ok { tookToken f a x.arc.val x.count.toNat with
      r := (tookToken f a x.arc.val x.count.toNat).r.putElems (vnum f.r x.d) 8 (byteOn (f.r.pr x.pm) x.ty.bits)
        (pieceByte s a f x.arc.val x.count.toNat (x.off.toNat * 256))
      tk.sizeErrIn := if a.size ≤ x.off.toNat * 256 then firstError f.tk.sizeErrIn x.arc.val (x.off.toNat * 256) else f.tk.sizeErrIn } = _
  rw [sizeErrIn_of_tk (tookToken_tk ..), putElems_of_v (tookToken_v ..)]

end

section
variable {s : State} {k : Nat} {sl : Slot} {f : Firing} {x : AFields} (h : Runs s k sl f x.guard)
include h

theorem peek_outcome : exec (.peek x) s = firingOutcome s k sl (s.readToken sl (f.executed 0x91) x) :=
  exec_runsFiring (show execPeek x s = _ from rfl) h rfl rfl rfl

theorem recv_outcome :
    exec (.recv x) s = firingOutcome s k sl ((s.readToken sl (f.executed 0x90) x).map fun g => received g x.arc.val x.count.toNat) :=
  exec_runsFiring (show execRecv x s = _ from rfl) h rfl rfl rfl

/-- PEEK and RECV read alike; RECV then raises the count of the port. -/
theorem peek_recv_of_ok {g : Nat → Firing} (hr : ∀ op, s.readToken sl (f.executed op) x = .ok (g op)) :
    exec (.peek x) s = did s k sl (g 0x91) ∧ exec (.recv x) s = did s k sl (received (g 0x90) x.arc.val x.count.toNat) := by
  rw [peek_outcome h, recv_outcome h, hr, hr]
  exact ⟨rfl, rfl⟩

theorem recv_peek_of_error {t : TrapInfo} (hr : ∀ op, s.readToken sl (f.executed op) x = .error (.trap t)) :
    exec (.recv x) s = traps s k t ∧ exec (.peek x) s = traps s k t := by
  rw [peek_outcome h, recv_outcome h, hr, hr]
  exact ⟨rfl, rfl⟩

end

theorem velem_pieces (r : Regs) (d : Fin 64) (on : Nat → Bool) (s : State) (a : Arc) (f : Firing) (n i b : Nat) {j : Nat} (hj : j < 256) :
    velem ((r.putElems d 8 on (pieceByte s a f n i b)).v.get d) 8 j = if on j then pieceByte s a f n i b j else velem (r.v.get d) 8 j := by
  have hbyte : pieceByte s a f n i b j % 2 ^ 8 = pieceByte s a f n i b j := by
    refine Nat.mod_eq_of_lt ?_
    unfold pieceByte
    split
    · exact BitVec.isLt _
    · decide
  rw [velem_putElems r d on _ hj, hbyte]

/-! ### Bytes entered into the emission buffer (06 R109) -/

section
variable {α : Type} (key : Nat → Nat) (q : Nat)

theorem find_foldl_put_other {l : List (Nat × α)} (t : Tab α) (h : ∀ z ∈ l, key z.1 ≠ q) :
    (l.foldl (fun (t : Tab α) z => t.put (key z.1) z.2) t).find q = t.find q := by
  induction l generalizing t with
  | nil => rfl
  | cons z l ih =>
    obtain ⟨hz, hl⟩ := List.forall_mem_cons.1 h
    exact (ih _ hl).trans (find_put_other t z.2 hz.symm)

/-- A value that some entry gives a key, and that every entry of the key agrees on. -/
theorem find_foldl_put_of_mem {l : List (Nat × α)} (t : Tab α) {z : Nat × α} (hz : z ∈ l) (hq : key z.1 = q)
    (hall : ∀ w ∈ l, key w.1 = q → w.2 = z.2) : (l.foldl (fun (t : Tab α) z => t.put (key z.1) z.2) t).find q = some z.2 := by
  induction l generalizing t z with
  | nil => cases hz
  | cons w l ih =>
    obtain ⟨hw, hl⟩ := List.forall_mem_cons.1 hall
    rw [List.foldl_cons]
    by_cases hin : ∃ y ∈ l, key y.1 = q
    · obtain ⟨y, hy, hyq⟩ := hin
      have hyz := hl y hy hyq
      rw [← hyz]
      exact ih _ hy hyq fun v hv hvq => (hl v hv hvq).trans hyz.symm
    · have hother : ∀ y ∈ l, key y.1 ≠ q := fun y hy hyq => hin ⟨y, hy, hyq⟩
      rw [find_foldl_put_other key q _ hother]
      obtain rfl | hz := List.mem_cons.1 hz
      · rw [hq, find_put]
      · exact absurd hq (hother _ hz)

end

/-- Bytes from position `b` of an output token on, of those that `on` names. -/
def piecesFrom (b : Nat) (on : Nat → Bool) (bs : List Byte) : List (Nat × Byte) := (bs.zipIdx.filter fun z => on z.2).map fun z => (b + z.2, z.1)

theorem mem_piecesFrom {b : Nat} {on : Nat → Bool} {bs : List Byte} {z : Nat × Byte} :
    z ∈ piecesFrom b on bs ↔ ∃ j, bs[j]? = some z.2 ∧ on j = true ∧ z.1 = b + j := by
  simp only [piecesFrom, List.mem_map, List.mem_filter, Prod.exists, List.mem_zipIdx_iff_getElem?]
  constructor
  · rintro ⟨v, j, ⟨hj, hon⟩, rfl⟩
    exact ⟨j, hj, hon, rfl⟩
  · rintro ⟨j, hj, hon, hz⟩
    exact ⟨z.2, j, ⟨hj, hon⟩, Prod.ext hz.symm rfl⟩

theorem piecesFrom_all (b : Nat) (bs : List Byte) : piecesFrom b (fun _ => true) bs = bs.zipIdx.map fun z => (b + z.2, z.1) := by
  rw [piecesFrom, List.filter_true]

theorem find_emitBytes (f : Firing) (n i b : Nat) (on : Nat → Bool) (bs : List Byte) (q : Nat) :
    (f.emitBytes n i (piecesFrom b on bs)).b.emitted.find q =
      if emitKey n i b ≤ q ∧ q < emitKey n i (b + bs.length) ∧ on (q - emitKey n i b) = true then bs[q - emitKey n i b]?
      else f.b.emitted.find q := by
  have hkey : ∀ j, emitKey n i (b + j) = emitKey n i b + j := fun j => (Nat.add_assoc _ b j).symm
  show ((piecesFrom b on bs).foldl (fun (t : Tab Byte) z => t.put (emitKey n i z.1) z.2) f.b.emitted).find q = _
  rw [hkey]
  split
  · rename_i hq
    obtain ⟨hle, hlt, hon⟩ := hq
    have hj : bs[q - emitKey n i b]? = some (bs[q - emitKey n i b]'(by omega)) := List.getElem?_eq_getElem _
    rw [hj]
    refine find_foldl_put_of_mem (emitKey n i) q _ (z := (b + (q - emitKey n i b), _)) (mem_piecesFrom.2 ⟨_, hj, hon, rfl⟩) ?_ ?_
    · rw [hkey]
      omega
    · intro w hw hwq
      obtain ⟨j, hwj, -, hwb⟩ := mem_piecesFrom.1 hw
      rw [hwb, hkey] at hwq
      obtain rfl : j = q - emitKey n i b := by omega
      exact Option.some.inj (hwj.symm.trans hj)
  · rename_i hq
    refine find_foldl_put_other (emitKey n i) q _ fun z hz hzq => hq ?_
    obtain ⟨j, hzj, hon, hzb⟩ := mem_piecesFrom.1 hz
    have hlen : j < bs.length := (List.getElem?_eq_some_iff.1 hzj).1
    rw [hzb, hkey] at hzq
    obtain rfl : j = q - emitKey n i b := by omega
    exact ⟨by omega, by omega, hon⟩

/-! ### EMIT and EMITS (06 R109, R111) -/

section
variable {sl : Slot} {f : Firing} {x : AFields} {size : Nat}

theorem emitPiece_misused (h : f.handler = true ∨ sizeOut sl x.arc.val = none) :
    f.emitPiece sl x = .error (.trap (misused true x.arc.val 0 x.count.toNat)) := by
  rw [Firing.emitPiece, outputToken_misused h]
  rfl

/-- A piece beyond the token: nothing enters the buffer, and the first of a port is noted. -/
def missedPiece (f : Firing) (n i b : Nat) : Firing :=
  { f with tk := { f.tk with
    sent := f.tk.sent.setIfInBounds n (max (nth f.tk.sent n 0) (i + 1)), sizeErrOut := firstError f.tk.sizeErrOut n b } }

variable (hh : f.handler = false) (hsize : sizeOut sl x.arc.val = some size)
include hh hsize

theorem emitPiece_beyond (hi : rateOut sl f x.arc.val ≤ x.count.toNat) :
    f.emitPiece sl x = .error (.trap (misused true x.arc.val (rateOut sl f x.arc.val) x.count.toNat)) := by
  rw [Firing.emitPiece, outputToken_beyond hh hsize hi]
  rfl

variable (hi : x.count.toNat < rateOut sl f x.arc.val)
include hi

theorem emitPiece_general (hg : x.d.isG = true) (hb : x.off.toNat * x.ty.bytes + x.ty.bytes ≤ size) :
    f.emitPiece sl x = .ok (f.emitBytes x.arc.val x.count.toNat
      (piecesFrom (x.off.toNat * x.ty.bytes) (fun _ => true) (toBytes x.ty.bytes (f.r.readG x.d).toNat))) := by
  rw [Firing.emitPiece, outputToken_declared hh hsize hi, piecesFrom_all]
  exact (if_pos hg).trans (if_neg (Nat.not_lt.2 hb))

theorem emitPiece_general_missed (hg : x.d.isG = true) (hb : size < x.off.toNat * x.ty.bytes + x.ty.bytes) :
    f.emitPiece sl x = .ok (missedPiece f x.arc.val x.count.toNat (x.off.toNat * x.ty.bytes)) := by
  rw [Firing.emitPiece, outputToken_declared hh hsize hi]
  exact (if_pos hg).trans (if_pos hb)

variable (hg : x.d.isG = false) (hd : named x.d f.r)
include hg hd

theorem emitPiece_vector (hb : x.off.toNat * 256 < size) :
    f.emitPiece sl x = .ok (f.emitBytes x.arc.val x.count.toNat (piecesFrom (x.off.toNat * 256)
      (fun j => byteOn (f.r.pr x.pm) x.ty.bits j && decide (x.off.toNat * 256 + j < size)) (vBytes (f.r.v.get (vnum f.r x.d))))) := by
  rw [Firing.emitPiece, outputToken_declared hh hsize hi]
  refine (if_neg (by simp [hg])).trans ?_
  rw [vecNum_of_named hd]
  exact if_neg (Nat.not_le.2 hb)

theorem emitPiece_vector_missed (hb : size ≤ x.off.toNat * 256) :
    f.emitPiece sl x = .ok (missedPiece f x.arc.val x.count.toNat (x.off.toNat * 256)) := by
  rw [Firing.emitPiece, outputToken_declared hh hsize hi]
  refine (if_neg (by simp [hg])).trans ?_
  rw [vecNum_of_named hd]
  exact if_pos hb

end

theorem getElem?_vBytes (v : VReg) {j : Nat} (hj : j < 256) : (vBytes v)[j]? = some (BitVec.ofNat 8 (velem v 8 j)) := by
  rw [vBytes, getElem?_toBytes _ hj, velem, Nat.mul_comm]
  congr 1
  exact BitVec.eq_of_toNat_eq (by simp)

theorem setWidth_shiftRight (v : Dword) (n : Nat) : (v >>> n).setWidth 8 = BitVec.ofNat 8 (v.toNat >>> n) :=
  BitVec.eq_of_toNat_eq (by simp)

/-- The bytes of a general register in the emission buffer. -/
theorem find_emitBytes_register (f : Firing) (n i b len : Nat) (v : Dword) (q : Nat) :
    (f.emitBytes n i (piecesFrom b (fun _ => true) (toBytes len v.toNat))).b.emitted.find q =
      if emitKey n i b ≤ q ∧ q < emitKey n i (b + len) then some ((v >>> (8 * (q - emitKey n i b))).setWidth 8)
      else f.b.emitted.find q := by
  rw [find_emitBytes, length_toBytes]
  by_cases hq : emitKey n i b ≤ q ∧ q < emitKey n i (b + len)
  · have hj : q - emitKey n i b < len := by
      unfold emitKey at hq ⊢
      omega
    rw [if_pos ⟨hq.1, hq.2, rfl⟩, if_pos hq, getElem?_toBytes _ hj, setWidth_shiftRight]
  · rw [if_neg fun hall => hq ⟨hall.1, hall.2.1⟩, if_neg hq]

/-- The enabled bytes of a vector register, as far as the token goes, in the emission buffer. -/
theorem find_emitBytes_vector (f : Firing) (n i b size : Nat) (on : Nat → Bool) (v : VReg) (q : Nat) :
    (f.emitBytes n i (piecesFrom b (fun j => on j && decide (b + j < size)) (vBytes v))).b.emitted.find q =
      if emitKey n i b ≤ q ∧ q < emitKey n i (min (b + 256) size) ∧ on (q - emitKey n i b) = true then
        some (BitVec.ofNat 8 (velem v 8 (q - emitKey n i b)))
      else f.b.emitted.find q := by
  have hiff : emitKey n i b ≤ q ∧ q < emitKey n i (b + (vBytes v).length) ∧
      (on (q - emitKey n i b) && decide (b + (q - emitKey n i b) < size)) = true ↔
      emitKey n i b ≤ q ∧ q < emitKey n i (min (b + 256) size) ∧ on (q - emitKey n i b) = true := by
    rw [vBytes, length_toBytes, Bool.and_eq_true, decide_eq_true_iff]
    unfold emitKey
    constructor
    · rintro ⟨hle, hlt, hon, hin⟩
      exact ⟨hle, by omega, hon⟩
    · rintro ⟨hle, hlt, hon⟩
      exact ⟨hle, by omega, hon, by omega⟩
  rw [find_emitBytes, if_congr hiff rfl rfl]
  by_cases hq : emitKey n i b ≤ q ∧ q < emitKey n i (min (b + 256) size) ∧ on (q - emitKey n i b) = true
  · have hj : q - emitKey n i b < 256 := by
      obtain ⟨hle, hlt, -⟩ := hq
      unfold emitKey at hle hlt ⊢
      omega
    rw [if_pos hq, if_pos hq, getElem?_vBytes v hj]
  · rw [if_neg hq, if_neg hq]

/-- The bytes of a whole token in the emission buffer. -/
theorem find_emitBytes_whole (f : Firing) (n i : Nat) {bs : List Byte} {size : Nat} (h : bs.length = size) (q : Nat) :
    (f.emitBytes n i (piecesFrom 0 (fun _ => true) bs)).b.emitted.find q =
      if emitKey n i 0 ≤ q ∧ q < emitKey n i size then bs[q - emitKey n i 0]? else f.b.emitted.find q := by
  rw [find_emitBytes, Nat.zero_add, h]
  simp only [and_true]

/-- The bytes of a whole token that EMITS reads. -/
def carveBytes (k a size : Nat) : List (List Nat × Loc) := (List.range size).map fun j => ([], Loc.carve k (a + j))

section
variable {s : State} {k : Nat} {sl : Slot} {f : Firing} {x : AFields} {size : Nat}

theorem readLocs_carve (s : State) (f : Firing) (k a size : Nat) :
    s.readLocs f ((List.range size).map fun j => Loc.carve k (a + j)) =
      (bytesAt s f false (carveBytes k a size), s.afterRead f false false (carveBytes k a size)) := by
  rw [State.readLocs, List.map_map]
  rfl

theorem emitWhole_misused (h : f.handler = true ∨ sizeOut sl x.arc.val = none) :
    s.emitWhole k sl f x = .error (.trap (misused true x.arc.val 0 x.count.toNat)) := by
  rw [State.emitWhole, outputToken_misused h]
  rfl

variable (hh : f.handler = false) (hsize : sizeOut sl x.arc.val = some size)
include hh hsize

theorem emitWhole_beyond (hi : rateOut sl f x.arc.val ≤ x.count.toNat) :
    s.emitWhole k sl f x = .error (.trap (misused true x.arc.val (rateOut sl f x.arc.val) x.count.toNat)) := by
  rw [State.emitWhole, outputToken_beyond hh hsize hi]
  rfl

variable (hi : x.count.toNat < rateOut sl f x.arc.val)
include hi

theorem emitWhole_outside (ha : (f.r.readG x.d).toNat % 64 ≠ 0 ∨ sl.pl.lim * 64 < (f.r.readG x.d).toNat + size) :
    s.emitWhole k sl f x = .error (.trap { code := 0x09, info := f.r.readG x.d }) := by
  rw [State.emitWhole, outputToken_declared hh hsize hi, ← trapInfo_toNat]
  exact if_pos ha

theorem emitWhole_token (ha : (f.r.readG x.d).toNat % 64 = 0) (hl : (f.r.readG x.d).toNat + size ≤ sl.pl.lim * 64) :
    s.emitWhole k sl f x = .ok ((s.afterRead f false false (carveBytes k (f.r.readG x.d).toNat size)).emitBytes x.arc.val x.count.toNat
      (piecesFrom 0 (fun _ => true) (bytesAt s f false (carveBytes k (f.r.readG x.d).toNat size)))) := by
  rw [State.emitWhole, outputToken_declared hh hsize hi]
  refine (if_neg (not_or.2 ⟨not_not.2 ha, Nat.not_lt.2 hl⟩)).trans ?_
  rw [readLocs_carve, piecesFrom_all]
  simp only [Nat.zero_add]
  rfl

end

section
variable {s : State} {k : Nat} {sl : Slot} {f : Firing} {x : AFields} (h : Runs s k sl f x.guard)
include h

theorem emit_outcome : exec (.emit x) s = firingOutcome s k sl ((f.executed 0x92).emitPiece sl x) :=
  exec_runsFiring (show execEmit x s = _ from rfl) h rfl rfl rfl

theorem emits_outcome : exec (.emits x) s = firingOutcome s k sl (s.emitWhole k sl (f.executed 0x93) x) :=
  exec_runsFiring (show execEmits x s = _ from rfl) h rfl rfl rfl

theorem emit_emits_of_error {t : TrapInfo} (he : ∀ op, (f.executed op).emitPiece sl x = .error (.trap t))
    (hw : ∀ op, s.emitWhole k sl (f.executed op) x = .error (.trap t)) : exec (.emit x) s = traps s k t ∧ exec (.emits x) s = traps s k t := by
  rw [emit_outcome h, emits_outcome h, he, hw]
  exact ⟨rfl, rfl⟩

end

/-- Bytes that a firing emits after a read, which has changed nothing of what it emits. -/
theorem emitBytes_afterRead (s : State) (f : Firing) (op n i : Nat) (xs : List (List Nat × Loc)) (l : List (Nat × Byte)) :
    (s.afterRead (f.executed op) false false xs).emitBytes n i l = { afterRead s f op false false xs with
      b := { f.b with emitted := (f.emitBytes n i l).b.emitted }
      tk := { f.tk with sent := f.tk.sent.setIfInBounds n (max (nth f.tk.sent n 0) (i + 1)) } } := by
  have hread : s.afterRead (f.executed op) false false xs = afterRead s f op false false xs := rfl
  have hsame : (afterRead s f op false false xs).b = f.b ∧ (afterRead s f op false false xs).tk = f.tk := by
    unfold afterRead
    dsimp only
    split
    · exact ⟨rfl, rfl⟩
    · exact ⟨rfl, rfl⟩
  rw [hread]
  simp only [Firing.emitBytes, raiseTo, hsame.1, hsame.2]

/-- Settles O20, clause by clause: what RECV and PEEK read is a piece of the window, and what EMIT and EMITS write are pieces of the emission
buffer. -/
theorem tokensReceivedAndEmitted : Obligations.TokensReceivedAndEmitted := by
  refine ⟨fun s k sl f x h => ⟨fun a ha => ⟨fun hi hg hb => ?_, fun hi hg hb => ?_, fun hi hg hd => ?_, fun hi => ?_⟩, fun hmis => ?_⟩,
    fun s k sl f x h => ⟨fun size hh hsize hi => ⟨fun hg => ⟨fun hb => ?_, fun hb => ?_⟩, fun hg hd => ⟨fun hb => ?_, fun hb => ?_⟩,
      fun ha hl => ?_, fun ha => ?_⟩, fun size hh hsize hi => ?_, fun hmis => ?_⟩⟩
  · exact peek_recv_of_ok h fun op => readToken_piece (f := f.executed op) ha hi hg hb
  · exact peek_recv_of_ok h fun op => readToken_sizeError (f := f.executed op) ha hi hg hb
  · have hread := peek_recv_of_ok h fun op => readToken_vector (f := f.executed op) ha hi hg hd
    refine ⟨_, hread.1, hread.2, ?_, fun j hj => velem_pieces f.r _ _ s a f _ _ _ hj⟩
    exact (sameBut_putElems f.r _ 8 _ _).1
  · exact recv_peek_of_error h fun op => readToken_beyond (f := f.executed op) ha hi
  · exact recv_peek_of_error h fun op => readToken_misused (f := f.executed op) hmis
  · refine ⟨_, (emit_outcome h).trans (congrArg _ (emitPiece_general (f := f.executed 0x92) hh hsize hi hg hb)), fun q => ?_⟩
    exact find_emitBytes_register ..
  · exact (emit_outcome h).trans (congrArg _ (emitPiece_general_missed (f := f.executed 0x92) hh hsize hi hg hb))
  · refine ⟨_, (emit_outcome h).trans (congrArg _ (emitPiece_vector (f := f.executed 0x92) hh hsize hi hg hd hb)), fun q => ?_⟩
    exact find_emitBytes_vector ..
  · exact (emit_outcome h).trans (congrArg _ (emitPiece_vector_missed (f := f.executed 0x92) hh hsize hi hg hd hb))
  · refine ⟨_, (emits_outcome h).trans (congrArg _ ((emitWhole_token (f := f.executed 0x93) hh hsize hi ha hl).trans
      (congrArg _ (emitBytes_afterRead ..)))), fun q => ?_⟩
    have hlen : (bytesAt s f false (carveBytes k (f.r.readG x.d).toNat size)).length = size := by simp [bytesAt, carveBytes]
    exact find_emitBytes_whole f _ _ hlen q
  · rw [emits_outcome h, emitWhole_outside (f := f.executed 0x93) hh hsize hi ha]
    rfl
  · exact emit_emits_of_error h (fun op => emitPiece_beyond (f := f.executed op) hh hsize hi)
      fun op => emitWhole_beyond (f := f.executed op) hh hsize hi
  · exact emit_emits_of_error h (fun op => emitPiece_misused (f := f.executed op) hmis) fun op => emitWhole_misused (f := f.executed op) hmis

/-! ### ARCQ and SKIP (06 R112, R113) -/

section
variable {s : State} {sl : Slot} {f : Firing} {x : AFields} {a : Arc}

theorem arcQuery_misused (h : f.handler = true ∨ sizeIn sl x.arc.val = none) :
    s.arcQuery sl f x = .error (.trap (misused false x.arc.val 0 x.count.toNat)) := by
  rw [State.arcQuery, inputArc_misused h]
  rfl

/-- The queries of ARCQ other than that of a token's place, with their answers (R112). -/
def arcNumbers (sl : Slot) (f : Firing) (a : Arc) (n : Nat) : List (Nat × Nat) :=
  [(1, cntSub a.wpSeen (f.rp n)), (2, rateIn sl f n), (3, a.size), (4, a.window), (5, nth f.tk.got n 0), (6, f.rp n)]

variable (ha : hasInput s sl f x.arc.val a)
include ha

theorem arcQuery_number {v : Nat} (hv : (x.off.toNat, v) ∈ arcNumbers sl f a x.arc.val) : s.arcQuery sl f x = .ok v := by
  rw [State.arcQuery, inputArc_declared ha]
  simp only [arcNumbers, List.mem_cons, Prod.mk.injEq, List.not_mem_nil, or_false] at hv
  rcases hv with ⟨hq, rfl⟩ | ⟨hq, rfl⟩ | ⟨hq, rfl⟩ | ⟨hq, rfl⟩ | ⟨hq, rfl⟩ | ⟨hq, rfl⟩
  all_goals
    simp only [hq]
    rfl

theorem arcQuery_address (hq : x.off.toNat = 0) (hi : x.count.toNat < rateIn sl f x.arc.val) :
    s.arcQuery sl f x = .ok
      (a.base + (s.tokPlace a (a.consumer.elim 0 (·.1)) (cnt (f.rp x.arc.val + x.count.toNat))).2 % a.window * a.size) := by
  rw [State.arcQuery, inputArc_declared ha]
  simp only [hq]
  exact if_neg (Nat.not_le.2 hi)

theorem arcQuery_beyond (hq : x.off.toNat = 0) (hi : rateIn sl f x.arc.val ≤ x.count.toNat) :
    s.arcQuery sl f x = .error (.trap (misused false x.arc.val (rateIn sl f x.arc.val) x.count.toNat)) := by
  rw [State.arcQuery, inputArc_declared ha]
  simp only [hq]
  exact if_pos hi

end

/-- What the read of a token's place takes over, as ARCQ names it (R119). -/
def queryView (s : State) (sl : Slot) (f : Firing) (x : AFields) : List Nat :=
  if x.off = 0 then ((arcIn sl x.arc.val).bind s.arc).elim [] fun a => a.carried (cnt (f.rp x.arc.val + x.count.toNat)) else []

/-- What SKIP does to a firing. -/
def skipTo (s : State) (sl : Slot) (f : Firing) (x : AFields) : Except Stop Firing := do
  let a ← s.inputArc sl f x.arc.val x.count.toNat
  if rateIn sl f x.arc.val < x.count.toNat then throw (misuse false x.arc.val (rateIn sl f x.arc.val) x.count.toNat)
  return { f with
    tk.got := raiseTo f.tk.got x.arc.val x.count.toNat
    view := f.view.gain (if x.count.toNat = 0 then [] else a.carried (cnt (f.rp x.arc.val + x.count.toNat - 1))) }

theorem skipTo_misused {s : State} {sl : Slot} {f : Firing} {x : AFields} (h : f.handler = true ∨ sizeIn sl x.arc.val = none) :
    skipTo s sl f x = .error (.trap (misused false x.arc.val 0 x.count.toNat)) := by
  rw [skipTo, inputArc_misused h]
  rfl

section
variable {s : State} {k : Nat} {sl : Slot} {f : Firing} {x : AFields} (h : Runs s k sl f x.guard)
include h

theorem arcq_outcome : exec (.arcq x) s = firingOutcome s k sl ((s.arcQuery sl (f.executed 0x94) x).map fun v =>
    { f.executed 0x94 with r := f.r.writeG x.d (BitVec.ofNat 64 v), view := f.view.gain (queryView s sl f x) }) := by
  refine exec_runsFiring (show execArcq x s = _ from rfl) h rfl rfl ?_
  cases s.arcQuery sl (f.executed 0x94) x <;> rfl

theorem arcq_traps {t : TrapInfo} (hv : s.arcQuery sl (f.executed 0x94) x = .error (.trap t)) : exec (.arcq x) s = traps s k t := by
  rw [arcq_outcome h, hv]
  rfl

/-- A query that is not of a token's place takes over nothing. -/
theorem arcq_number {a : Arc} {v : Nat} (ha : hasInput s sl f x.arc.val a) (hv : (x.off.toNat, v) ∈ arcNumbers sl f a x.arc.val) :
    exec (.arcq x) s = wrote s k sl f 0x94 (f.r.writeG x.d (BitVec.ofNat 64 v)) := by
  have hoff : x.off ≠ 0 := fun e => by
    rw [e] at hv
    simp [arcNumbers] at hv
  rw [arcq_outcome h, arcQuery_number (f := f.executed 0x94) ha hv, queryView, if_neg hoff]
  rfl

theorem arcq_tookOver {a : Arc} {v : Nat} (ha : hasInput s sl f x.arc.val a) (hv : s.arcQuery sl (f.executed 0x94) x = .ok v)
    (hq : x.off.toNat = 0) : exec (.arcq x) s = did s k sl
      { tookOver (f.executed 0x94) a x.arc.val x.count.toNat with r := f.r.writeG x.d (BitVec.ofNat 64 v) } := by
  obtain ⟨-, -, harc⟩ := ha
  rw [arcq_outcome h, hv, queryView, if_pos (BitVec.eq_of_toNat_eq hq), harc]
  rfl

theorem skip_outcome : exec (.skip x) s = firingOutcome s k sl (skipTo s sl (f.executed 0x95) x) :=
  exec_runsFiring (show execSkip x s = _ from rfl) h rfl rfl rfl

end

section
variable {s : State} {sl : Slot} {f : Firing} {x : AFields} {a : Arc} (ha : hasInput s sl f x.arc.val a)
include ha

theorem skipTo_within (hi : x.count.toNat ≤ rateIn sl f x.arc.val) :
    skipTo s sl f x = .ok { (if x.count.toNat = 0 then f else tookOver f a x.arc.val (x.count.toNat - 1)) with
      tk := { f.tk with got := f.tk.got.setIfInBounds x.arc.val (max (nth f.tk.got x.arc.val 0) x.count.toNat) } } := by
  rw [skipTo, inputArc_declared ha]
  refine (if_neg (Nat.not_lt.2 hi)).trans ?_
  by_cases h0 : x.count.toNat = 0
  · rw [if_pos h0, if_pos h0]
    rfl
  · rw [if_neg h0, if_neg h0, Nat.add_sub_assoc (Nat.one_le_iff_ne_zero.2 h0)]
    rfl

theorem skipTo_beyond (hi : rateIn sl f x.arc.val < x.count.toNat) :
    skipTo s sl f x = .error (.trap (misused false x.arc.val (rateIn sl f x.arc.val) x.count.toNat)) := by
  rw [skipTo, inputArc_declared ha]
  exact if_pos hi

end

/-! ### MARK and CTOK (06 R117, R118) -/

theorem bits_high (v : Dword) : bits v 63 32 ≠ 0 ↔ 2 ^ 32 ≤ v.toNat := by
  have hv := v.isLt
  unfold bits
  omega

section
variable {s : State} {k : Nat} {sl : Slot} {f : Firing} {x : AFields} (h : Runs s k sl f x.guard)
include h

theorem mark_outcome : exec (.mark x) s = firingOutcome s k sl ((outputSize sl (f.executed 0x96) x.arc.val 0).bind fun _ =>
    if bits (f.r.readG x.d) 63 32 ≠ 0 then .error (trapInfo 0x09 (f.r.readG x.d).toNat)
    else .ok ((f.executed 0x96).place x.arc.val (.marker (f.r.readG x.d).toNat false))) :=
  exec_runsFiring (show execMark x s = _ from rfl) h rfl rfl rfl

theorem ctok_outcome : exec (.ctok x) s = firingOutcome s k sl ((outputSize sl (f.executed 0x97) x.arc.val 0).map fun _ =>
    (f.executed 0x97).place x.arc.val (.user (Fin.ofNat 32 x.count.toNat))) :=
  exec_runsFiring (show execCtok x s = _ from rfl) h rfl rfl rfl

theorem mark_ctok_misused (hmis : f.handler = true ∨ sizeOut sl x.arc.val = none) :
    exec (.mark x) s = traps s k (misused true x.arc.val 0 0) ∧ exec (.ctok x) s = traps s k (misused true x.arc.val 0 0) := by
  have hsize : ∀ op, outputSize sl (f.executed op) x.arc.val 0 = _ := fun op => outputSize_misused (f := f.executed op) hmis
  rw [mark_outcome h, ctok_outcome h, hsize, hsize]
  exact ⟨rfl, rfl⟩

variable (hh : f.handler = false) (hs : (sizeOut sl x.arc.val).isSome = true)
include hh hs

theorem mark_outcome_declared : exec (.mark x) s = firingOutcome s k sl
    (if bits (f.r.readG x.d) 63 32 ≠ 0 then .error (trapInfo 0x09 (f.r.readG x.d).toNat)
    else .ok ((f.executed 0x96).place x.arc.val (.marker (f.r.readG x.d).toNat false))) := by
  obtain ⟨size, hsize⟩ := Option.isSome_iff_exists.1 hs
  rw [mark_outcome h, outputSize_declared (f := f.executed 0x96) hh hsize]
  rfl

theorem ctok_places : exec (.ctok x) s =
    did s k sl ((f.executed 0x97).place x.arc.val (.user (Fin.ofNat 32 x.count.toNat))) := by
  obtain ⟨size, hsize⟩ := Option.isSome_iff_exists.1 hs
  rw [ctok_outcome h, outputSize_declared (f := f.executed 0x97) hh hsize]
  rfl

end

/-- Settles O21: ARCQ writes what `arcQuery` answers, SKIP raises the count as a RECV of the last skipped token does, MARK and CTOK place
entries. -/
theorem arcQueriesAndEntries : Obligations.ArcQueriesAndEntries := by
  intro s k sl f x h
  refine ⟨fun a ha => ?_, fun hh hs => ⟨fun hv => ?_, fun hv => ?_, fun _ => ctok_places h hh hs⟩, fun hmis => ⟨?_, ?_⟩, mark_ctok_misused h⟩
  · have hx : hasInput s sl (f.executed 0x94) x.arc.val a := ha
    have hnum : ∀ q v, (q, v) ∈ arcNumbers sl f a x.arc.val → x.off.toNat = q →
        exec (.arcq x) s = wrote s k sl f 0x94 (f.r.writeG x.d (BitVec.ofNat 64 v)) := fun q v hv hq => arcq_number h ha (hq ▸ hv)
    refine ⟨hnum 1 _ (by simp [arcNumbers]), hnum 2 _ (by simp [arcNumbers]), hnum 3 _ (by simp [arcNumbers]), hnum 4 _ (by simp [arcNumbers]),
      hnum 5 _ (by simp [arcNumbers]), hnum 6 _ (by simp [arcNumbers]),
      fun hq hi => arcq_tookOver h ha (arcQuery_address hx hq hi) hq, fun j m hj => ?_, fun hq hi => arcq_traps h (arcQuery_beyond hx hq hi),
      fun hi => ?_, fun hi => ?_⟩
    · rw [State.tokPlace, hj]
    · exact (skip_outcome h).trans (congrArg _ (skipTo_within (f := f.executed 0x95) ha hi))
    · exact (skip_outcome h).trans (congrArg _ (skipTo_beyond (f := f.executed 0x95) ha hi))
  · rw [mark_outcome_declared h hh hs, if_neg fun hb => Nat.not_le.2 hv ((bits_high _).1 hb)]
    rfl
  · rw [mark_outcome_declared h hh hs, if_pos ((bits_high _).2 hv), trapInfo_toNat]
    rfl
  · exact arcq_traps h (arcQuery_misused (f := f.executed 0x94) hmis)
  · rw [skip_outcome h, skipTo_misused (f := f.executed 0x95) hmis]
    rfl

end Sys2Proof.Proofs

/-! SUPPORT. Bytes of a memory and of global memory after a write event, and what a read of a byte may return (07 R124, R130, R133, R149). -/

namespace Sys2Proof.Proofs

open Sys2Proof.Machine Sys2Proof.Safety Sys2Proof.Laws

/-! ### Memories in canonical form -/

/-- A memory in form lists the bytes that are not 0. -/
theorem mem_memory_iff {m : Memory} (h : m.wf = true) (c : Host.Cell) : c ∈ m ↔ c.2 ≠ 0 ∧ m.byte c.1 = c.2 := by
  obtain ⟨hkeys, hne⟩ := (wf_iff m).1 h
  constructor
  · intro hc
    refine ⟨hne c hc, ?_⟩
    obtain ⟨pre, post, rfl⟩ := List.append_of_mem hc
    have hpre : ∀ z ∈ pre, z.1 ≠ c.1 := fun z hz => by
      rw [List.map_append, List.pairwise_append] at hkeys
      exact ne_of_lt (hkeys.2.2 z.1 (List.mem_map_of_mem hz) c.1 (by simp))
    clear hkeys hne hc h
    induction pre with
    | nil => simp [Memory.byte, Tab.find]
    | cons z pre ih =>
      obtain ⟨hz, hrest⟩ := List.forall_mem_cons.1 hpre
      rw [← ih hrest]
      simp [Memory.byte, Tab.find, hz]
  · rintro ⟨hc, hb⟩
    unfold Memory.byte at hb
    cases hf : Tab.find m c.1 with
    | none => exact absurd (hf ▸ hb).symm hc
    | some v =>
      rw [hf] at hb
      obtain rfl : v = c.2 := hb
      exact mem_of_find hf

theorem memory_ext {m m' : Memory} (h : m.wf = true) (h' : m'.wf = true) (hb : ∀ a, m'.byte a = m.byte a) : m' = m := by
  have hrises : ∀ {m : Memory}, m.wf = true → List.Pairwise (fun x y : Host.Cell => x.1 < y.1) m := fun h =>
    List.pairwise_map.1 ((wf_iff _).1 h).1
  have : Std.Irrefl (fun x y : Host.Cell => x.1 < y.1) := ⟨fun x => lt_irrefl x.1⟩
  have : Std.Asymm (fun x y : Host.Cell => x.1 < y.1) := ⟨fun x y => lt_asymm⟩
  refine List.Pairwise.eq_of_mem_iff (hrises h') (hrises h) fun c => ?_
  rw [mem_memory_iff h, mem_memory_iff h', hb]

theorem byte_putAll_other (m : Memory) {a : Nat} {l : List Byte} {x : Nat} (hx : ¬ (a ≤ x ∧ x < a + l.length)) :
    (m.putAll a l).byte x = m.byte x := by
  induction l generalizing m a with
  | nil => rfl
  | cons b l ih =>
    rw [List.length_cons] at hx
    calc ((m.put a b).putAll (a + 1) l).byte x = (m.put a b).byte x := ih _ (by omega)
      _ = m.byte x := byte_put_other m b (by omega)

theorem bytes_putAll {m : Memory} (h : m.wf = true) (a : Nat) (l : List Byte) : (m.putAll a l).bytes a l.length = l := by
  induction l generalizing m a with
  | nil => rfl
  | cons b l ih =>
    have hfirst : ((m.put a b).putAll (a + 1) l).byte a = b := (byte_putAll_other _ (by omega)).trans (byte_put_same h a b)
    have hrest : (List.range l.length).map (fun i => ((m.put a b).putAll (a + 1) l).byte (a + (i + 1))) = l := by
      simpa only [Memory.bytes, Nat.add_assoc, Nat.add_comm 1] using ih (wf_put h a b) (a + 1)
    simp only [Memory.bytes, Memory.putAll, List.length_cons, List.range_succ_eq_map, List.map_cons, List.map_map]
    exact congrArg₂ _ hfirst hrest

/-! ### What a write event leaves at a byte -/

/-- Of single bytes written one after another the last at an address stands there. -/
theorem byte_writeEach_last {m : Memory} (h : m.wf = true) (pre : List (Nat × Byte)) (a : Nat) (b : Byte) {post : List (Nat × Byte)}
    (hpost : ∀ x ∈ post, x.1 ≠ a) : (writeEach m (pre ++ (a, b) :: post)).byte a = b := by
  have hpre : (writeEach m pre).wf = true := wf_foldl h pre _ fun _ _ hm => wf_put hm _ _
  rw [writeEach, List.foldl_append]
  exact (byte_writeEach_other _ hpost).trans (byte_put_same hpre a b)

/-! ### What a read of a byte returns -/

/-- A read that may not pass over the newest write to a byte returns its value. -/
theorem oldByte_newest {p : Old → Bool} {pa : Nat} (now : Byte) {l : List Old} (h : ∀ o, l.find? (fun o => o.pa == pa) = some o → p o = false) :
    oldByte p pa now l = (now, (l.find? fun o => o.pa == pa).map (·.num)) := by
  induction l with
  | nil => rfl
  | cons o t ih =>
    unfold oldByte
    by_cases ho : o.pa = pa
    · have hp : p o = false := h o (by simp [ho])
      simp [ho, hp]
    · have hfind : (o :: t).find? (fun o => o.pa == pa) = t.find? fun o => o.pa == pa := by simp [ho]
      rw [if_neg ho, hfind]
      exact ih (hfind ▸ h)

theorem lags_of_nil {s : State} (h : s.mm.order.lag = []) (piece : List Nat) (o : Old) : s.lags piece o = false := by
  unfold State.lags
  cases s.event o.num with
  | none => rfl
  | some e => simp [h]

theorem seenByte_of_lag_nil {s : State} (h : s.mm.order.lag = []) (v : View) (co : Bool) (piece : List Nat) (pa : Nat) :
    s.seenByte v co piece pa = (s.mm.mem.byte pa, s.newest pa) :=
  oldByte_newest _ fun o _ => by rw [lags_of_nil h, Bool.false_and]

theorem event_num {s : State} {n : Nat} {e : WriteEvent} (h : s.event n = some e) : e.num = n := by
  simpa using List.find?_some h

theorem mem_together (s : State) (e : WriteEvent) {piece : List Nat} {pa : Nat} (h : pa ∈ piece) : pa ∈ s.together e piece pa := by
  unfold State.together
  split
  · exact h
  · split
    · exact List.mem_filter.2 ⟨h, by simp⟩
    · exact List.mem_singleton_self pa

/-- What a read that passes over a write needs: the write is recorded, and nothing puts it before the read (R130, R133, R135). -/
theorem mayPass_event {s : State} {v : View} {co : Bool} {piece : List Nat} {o : Old} (h : s.mayPass v co piece o = true) :
    ∃ e, s.event o.num = some e ∧ v.bound co (s.together e piece o.pa) e = false := by
  unfold State.mayPass at h
  cases he : s.event o.num with
  | none => rw [he] at h; cases h
  | some e =>
    rw [he, Option.any_some, Bool.and_eq_true] at h
    exact ⟨e, rfl, by simpa using h.2⟩

theorem bound_false {v : View} {co : Bool} {bytes : List Nat} {e : WriteEvent} (h : v.bound co bytes e = false) :
    e.num ∉ v.hb ∧ e.num ∉ v.floor ∧ (co = true → ∀ a ∈ bytes, (a, e.num) ∉ v.metAt) := by
  simp only [View.bound, Bool.or_eq_false_iff] at h
  obtain ⟨⟨⟨hhb, hfloor⟩, hmet⟩, -⟩ := h
  refine ⟨by simpa using hhb, by simpa using hfloor, fun hco a ha hm => ?_⟩
  rw [hco, Bool.true_and, List.any_eq_false] at hmet
  exact hmet _ hm (by simpa using ha)

/-- A write that a read may pass over is not ordered before the read. -/
theorem mayPass_unordered {s : State} {v : View} {co : Bool} {piece : List Nat} {o : Old} (h : s.mayPass v co piece o = true) :
    ∃ e, s.event o.num = some e ∧ e.num ∉ v.hb ∧ e.num ∉ v.floor ∧ (co = true → o.pa ∈ piece → (o.pa, e.num) ∉ v.metAt) := by
  obtain ⟨e, he, hb⟩ := mayPass_event h
  obtain ⟨hhb, hfloor, hmet⟩ := bound_false hb
  exact ⟨e, he, hhb, hfloor, fun hco hpa => hmet hco _ (mem_together s e hpa)⟩

theorem seenByte_of_ordered {s : State} {v : View} {co : Bool} {piece : List Nat} {pa n : Nat} (hn : s.newest pa = some n)
    (h : n ∈ v.hb ∨ n ∈ v.floor ∨ (co = true ∧ pa ∈ piece ∧ (pa, n) ∈ v.metAt)) :
    s.seenByte v co piece pa = (s.mm.mem.byte pa, some n) := by
  rw [← hn]
  refine oldByte_newest _ fun o ho => ?_
  have hpa : o.pa = pa := by simpa using List.find?_some ho
  have hnum : o.num = n := by rw [State.newest, ho] at hn; exact Option.some.inj hn
  cases hpass : s.mayPass v co piece o with
  | false => rw [Bool.and_false]
  | true =>
    obtain ⟨e, he, hhb, hfloor, hmet⟩ := mayPass_unordered hpass
    rw [event_num he, hnum] at hhb hfloor hmet
    rw [hpa] at hmet
    obtain h | h | ⟨hco, hin, hm⟩ := h
    · exact absurd h hhb
    · exact absurd h hfloor
    · exact absurd hm (hmet hco hin)

/-- Settles O59: a memory in form is its bytes; a write event writes its bytes one after another; a read passes over no write that is ordered
before it. -/
theorem memoryWrites : Obligations.MemoryWrites := by
  refine ⟨fun m h => ⟨fun a b => ⟨wf_put h a b, byte_put_same h a b, fun x hx => byte_put_other m b hx⟩,
      fun a l => ⟨wf_putAll h a l, bytes_putAll h a l, fun x hx => byte_putAll_other m hx⟩, fun m' h' hb => memory_ext h h' hb⟩,
    fun s w p ws h => writeEvent_wf h w p ws, fun s w pre a b post h hpost => ?_, fun s w ws a h hws => ?_,
    fun s v co piece pa h => seenByte_of_lag_nil h v co piece pa, fun s v co piece pa n hn h => seenByte_of_ordered hn h⟩
  · rw [writeEvent_newest]
    exact byte_writeEach_last h pre a b hpost
  · rw [writeEvent_newest]
    exact byte_writeEach_other _ hws

end Sys2Proof.Proofs

/-! SUPPORT. FENCE, the timeline instructions, SLEEP, TIME and STMP (07 R129, R134, R135; 08 R169, R170, R173). -/

namespace Sys2Proof.Proofs

open Sys2Proof.Machine Sys2Proof.Safety Sys2Proof.Laws

/-! ### Sets of events (07 R129) -/

theorem mem_addNum {l : List Nat} {n m : Nat} : m ∈ addNum l n ↔ m = n ∨ m ∈ l := by
  induction l with
  | nil => simp [addNum]
  | cons k t ih =>
    unfold addNum
    split
    · simp
    · split
      · next h => simp [h]
      · rw [List.mem_cons, ih, List.mem_cons]
        tauto

theorem mem_joinEvents {a b : List Nat} {m : Nat} : m ∈ joinEvents a b ↔ m ∈ a ∨ m ∈ b := by
  unfold joinEvents
  induction b generalizing a with
  | nil => simp
  | cons n b ih =>
    rw [List.foldl_cons, ih, mem_addNum, List.mem_cons]
    tauto

/-! ### Acquires (07 R134) -/

/-- One step of an acquire: what the event hands on is taken over. -/
def acquireOne (s : State) (tile : Nat) (v : View) (n : Nat) : View :=
  match s.event n with
  | some e => { v.gain (e.given tile) with floor := addNum v.floor n }
  | none => v

theorem acquire_cons (s : State) (tile : Nat) (v : View) (n : Nat) (l : List Nat) :
    s.acquire tile v (n :: l) = s.acquire tile (acquireOne s tile v n) l := rfl

theorem acquireOne_keeps_hb {s : State} {tile : Nat} {v : View} {m : Nat} (n : Nat) (h : m ∈ v.hb) : m ∈ (acquireOne s tile v n).hb := by
  unfold acquireOne
  split
  · exact mem_joinEvents.2 (Or.inl h)
  · exact h

theorem acquire_keeps_hb {s : State} {tile m : Nat} (l : List Nat) {v : View} (h : m ∈ v.hb) : m ∈ (s.acquire tile v l).hb := by
  induction l generalizing v with
  | nil => exact h
  | cons n l ih => exact ih (acquireOne_keeps_hb n h)

/-- An acquire has behind it what the events that it read from hand on. -/
theorem acquire_takes {s : State} {tile n m : Nat} {e : WriteEvent} {l : List Nat} (v : View) (hn : n ∈ l) (he : s.event n = some e)
    (hm : m ∈ e.given tile) : m ∈ (s.acquire tile v l).hb := by
  induction l generalizing v with
  | nil => cases hn
  | cons j l ih =>
    rw [acquire_cons]
    obtain rfl | hn := List.mem_cons.1 hn
    · refine acquire_keeps_hb l ?_
      unfold acquireOne
      rw [he]
      exact mem_joinEvents.2 (Or.inr hm)
    · exact ih _ hn

/-- Of what a firing has behind it an acquire changes the events that happened before and those that no read may pass over. -/
theorem acquire_frame (s : State) (tile : Nat) (v : View) (l : List Nat) :
    s.acquire tile v l = { v with hb := (s.acquire tile v l).hb, floor := (s.acquire tile v l).floor } := by
  induction l generalizing v with
  | nil => rfl
  | cons n l ih =>
    have hone : acquireOne s tile v n = { v with hb := (acquireOne s tile v n).hb, floor := (acquireOne s tile v n).floor } := by
      unfold acquireOne
      split <;> rfl
    rw [acquire_cons, ih, hone]

/-! ### FENCE (07 R135, 08 R169) -/

section
variable (s : State) (kind scope : Nat) (f : Firing)

/-- The acquire and the release part of a fence. -/
def acquiredFor : Firing := if kind = 1 then f else s.acquireFence scope f
def releasedFor : Firing := if kind = 0 then acquiredFor s kind scope f else s.releaseFence scope (acquiredFor s kind scope f)

theorem fence_unordered (h : kind ≠ 3) : s.fence kind scope f = (s, releasedFor s kind scope f) := if_neg h

theorem fence_ordered : s.fence 3 scope f = s.orderedFence scope (releasedFor s 3 scope f) := rfl

/-- The acquire part changes what happened before the firing and what its reads may not pass over. -/
theorem acquiredFor_frame : acquiredFor s kind scope f =
    { f with view := { f.view with hb := (acquiredFor s kind scope f).view.hb, floor := (acquiredFor s kind scope f).view.floor } } := by
  unfold acquiredFor State.acquireFence State.acquireWithin
  split
  · rfl
  · rw [acquire_frame]

theorem acquiredFor_keeps_hb {m : Nat} (h : m ∈ f.view.hb) : m ∈ (acquiredFor s kind scope f).view.hb := by
  unfold acquiredFor
  split
  · exact h
  · exact acquire_keeps_hb _ h

theorem releasedFor_frame : releasedFor s kind scope f =
    { f with view := (releasedFor s kind scope f).view, fenced := (releasedFor s kind scope f).fenced } := by
  unfold releasedFor
  split
  · rw [acquiredFor_frame]
  · rw [acquiredFor_frame]
    rfl

theorem releasedFor_hb : (releasedFor s kind scope f).view.hb = (acquiredFor s kind scope f).view.hb := by
  unfold releasedFor
  split <;> rfl

variable {s kind scope f}

/-- A fence that acquires takes over what the writes of its scope that the firing has met release. -/
theorem releasedFor_acquires (hk : kind ≠ 1) {n m : Nat} {e : WriteEvent} (hn : n ∈ f.view.met) (he : s.event n = some e)
    (hs : inScope scope s.focus e.unit = true) (hm : m ∈ e.given s.focus) : m ∈ (releasedFor s kind scope f).view.hb := by
  rw [releasedFor_hb, acquiredFor, if_neg hk]
  refine acquire_takes _ (List.mem_filter.2 ⟨hn, ?_⟩) he hm
  rw [he]
  exact hs

/-- A fence that releases notes what happens before it. -/
theorem releasedFor_releases (hk : kind ≠ 0) : (releasedFor s kind scope f).fenced = f.started ∧
    ∃ before, (releasedFor s kind scope f).view.rel = (scope, s.focus, before) :: f.view.rel ∧ ∀ m, m ∈ f.view.hb ∨ m ∈ f.view.own → m ∈ before := by
  have hframe := acquiredFor_frame s kind scope f
  have hstarted : (acquiredFor s kind scope f).started = f.started := by rw [hframe]
  have hrel : (acquiredFor s kind scope f).view.rel = f.view.rel := by rw [hframe]
  have hown : (acquiredFor s kind scope f).view.own = f.view.own := by rw [hframe]
  rw [releasedFor, if_neg hk]
  refine ⟨hstarted, _, congrArg _ hrel, fun m hm => mem_joinEvents.2 (Or.inl (mem_joinEvents.2 ?_))⟩
  rw [hown]
  exact hm.imp_left (acquiredFor_keeps_hb s kind scope f)

/-- FENCE.sc takes its place in the order of its domain, and has behind it the last of the domain before it. -/
theorem orderedFence_domain (s : State) (scope : Nat) (f : Firing) :
    (s.orderedFence scope f).1.mm.order.sc.find (domainOf scope s.focus) = some s.mm.order.next ∧
    ∀ n, s.mm.order.sc.find (domainOf scope s.focus) = some n → 0 < n → (scope, s.focus, n) ∈ (s.orderedFence scope f).2.view.sc := by
  refine ⟨find_put _ _ _, fun n hn h0 => ?_⟩
  have hlast : (s.mm.order.sc.find (domainOf scope s.focus)).getD 0 = n := by rw [hn]; rfl
  unfold State.orderedFence
  simp only [hlast, if_neg (Nat.ne_of_gt h0)]
  exact List.mem_cons_self

theorem orderedFence_frame (s : State) (scope : Nat) (f : Firing) : (s.orderedFence scope f).2 =
    { f with view := { f.view with sc := (s.orderedFence scope f).2.view.sc } } := by
  unfold State.orderedFence
  dsimp only
  split <;> rfl

/-- The firing of a fence: that of its acquire and its release part, but for its place in the order of FENCE.sc. -/
theorem fence_firing (s : State) (kind scope : Nat) (f : Firing) : (s.fence kind scope f).2 =
    { releasedFor s kind scope f with view := { (releasedFor s kind scope f).view with sc := (s.fence kind scope f).2.view.sc } } := by
  by_cases hk : kind = 3
  · subst hk
    exact orderedFence_frame s scope _
  · rw [fence_unordered s kind scope f hk]

end

theorem fence_outcome {s : State} {k : Nat} {sl : Slot} {f : Firing} {x : YFields} (h : Runs s k sl f x.guard) :
    exec (.fence x) s = stateOutcome s k (.ok ((s.fence (x.sub.toNat / 4 % 4) (x.sub.toNat % 4) (f.executed 0xA8)).1.putFiring k sl
      (s.fence (x.sub.toNat / 4 % 4) (x.sub.toNat % 4) (f.executed 0xA8)).2)) :=
  exec_runsInst (show execFence x s = _ from rfl) h rfl rfl rfl

theorem sleep_outcome {s : State} {k : Nat} {sl : Slot} {f : Firing} {x : IFields} (h : Runs s k sl f x.guard) :
    exec (.sleep x) s =
      stateOutcome s k (.ok ((s.putFiring k sl (f.executed 0xB4)).park k (.sleep (s.clock + nsCycles x.imm.toNat)))) :=
  exec_runsInst (show execSleep x s = _ from rfl) h rfl rfl rfl

/-! ### Timelines, SLEEP, TIME and STMP (08 R170, R173) -/

section
variable {s : State} {k : Nat} {sl : Slot} {f : Firing} {x : RFields} (h : Runs s k sl f x.guard)
include h

theorem tlwait_outcome {tl : Fin 8} (ha : x.a = .tl tl) : exec (.tlwait x) s = firingOutcome s k sl
    ((s.waitTimeline k sl tl (f.r.readG x.b).toNat).map fun _ => (f.executed 0xA9).gain (s.timelineEvents k tl (f.r.readG x.b).toNat)) :=
  exec_runsFiring (show execTlwait x s = _ from rfl) h rfl rfl (by rw [ha]; rfl)

theorem tlrd_outcome {tl : Fin 8} (ha : x.a = .tl tl) : exec (.tlrd x) s = firingOutcome s k sl (.ok { f.executed 0xAA with
    r := f.r.writeG x.d (BitVec.ofNat 64 (if x.mods.w then (sl.tl.get tl).issued else (sl.tl.get tl).done)) }) :=
  exec_runsFiring (show execTlrd x s = _ from rfl) h rfl rfl (by rw [ha]; rfl)

theorem tladv_outcome {tl : Fin 8} (ha : x.a = .tl tl) :
    exec (.tladv x) s = firingOutcome s k sl (.ok (deferring f 0xAB (.tladv tl (f.r.readG x.b).toNat))) :=
  exec_runsFiring (show execTladv x s = _ from rfl) h rfl rfl (by rw [ha]; rfl)

theorem time_outcome : exec (.time x) s =
    firingOutcome s k sl (.ok { f.executed 0xB5 with r := f.r.writeG x.d (BitVec.ofNat 64 s.ns) }) :=
  exec_runsFiring (show execTime x s = _ from rfl) h rfl rfl rfl

theorem stmp_outcome : exec (.stmp x) s = firingOutcome s k sl
    (if s.lowerDone k f.r.stamp.toNat sl.pl.rank then
      .ok { f.executed 0xB7 with r := f.r.writeG x.d f.r.stamp, view := f.view.gain (s.groupSeen k) }
    else .error (.wait .lowerStamps)) :=
  exec_runsFiring (show execStmp x s = _ from rfl) h rfl rfl rfl

end

section
variable {s : State} {k : Nat} {sl : Slot} {tl : Fin 8} {v : Nat}

theorem waitTimeline_waits (h : (sl.tl.get tl).done < v) : s.waitTimeline k sl tl v = .error (.wait (.timeline tl v)) := if_pos h

theorem waitTimeline_failed (h : v ≤ (sl.tl.get tl).done) {num st : Nat} (hf : s.failedUpTo k tl.val v = some (num, st)) :
    s.waitTimeline k sl tl v = .error (.trap
      { code := statusTrap st, info := BitVec.ofNat 64 num, aux := BitVec.ofNat 64 (st * 256 + tl.val), eng := true }) := by
  rw [State.waitTimeline, if_neg (show ¬ (sl.timeline tl).done < v from Nat.not_lt.2 h), hf]

theorem waitTimeline_goes (h : v ≤ (sl.tl.get tl).done) (hf : s.failedUpTo k tl.val v = none) : s.waitTimeline k sl tl v = .ok () := by
  rw [State.waitTimeline, if_neg (show ¬ (sl.timeline tl).done < v from Nat.not_lt.2 h), hf]

end

/-- Settles O23: a fence acquires, releases and takes its place in its domain's order; TLWAIT waits, traps or goes on, and the others follow
their outcomes. -/
theorem fencesTimelinesAndTime : Obligations.FencesTimelinesAndTime := by
  intro s k sl f
  refine ⟨fun x h => ⟨fence_outcome h, ?_, fun hk => ?_, fun hk n e m hn he hs hm => ?_, fun hk => ?_, fun hk => ?_⟩,
    fun x tl h ha => ⟨fun hv hf => ?_, fun hv => ?_, fun num st hv hf => ?_, tlrd_outcome h ha, tladv_outcome h ha⟩,
    fun x h => sleep_outcome h, fun x h => time_outcome h, fun x h => ⟨fun hl => ?_, fun hl => ?_⟩⟩
  · rw [fence_firing, releasedFor_frame]
  · rw [fence_unordered _ _ _ _ hk]
  · rw [fence_firing]
    exact releasedFor_acquires (f := f.executed 0xA8) hk hn he hs hm
  · rw [fence_firing]
    exact releasedFor_releases (f := f.executed 0xA8) hk
  · rw [hk]
    exact orderedFence_domain s _ _
  · rw [tlwait_outcome h ha, waitTimeline_goes hv hf]
    rfl
  · rw [tlwait_outcome h ha, waitTimeline_waits hv]
    rfl
  · rw [tlwait_outcome h ha, waitTimeline_failed hv hf]
    rfl
  · rw [stmp_outcome h, if_pos hl]
    rfl
  · rw [stmp_outcome h, if_neg (by simp [hl])]
    rfl

end Sys2Proof.Proofs

/-! SUPPORT. Loads, vector loads, loads of remote tiles and cache operations (07 R123, R125, R130, R133; 08 R151, R155 to R158, R160, R161). -/

namespace Sys2Proof.Proofs

open Sys2Proof.Machine Sys2Proof.Safety Sys2Proof.Laws

/-! ### A byte as a firing reads it (07 R125, R130) -/

section
variable {s : State} {f : Firing} {co : Bool} {piece : List Nat} {pa page : Nat}

theorem readSeen_own {v : Byte} (h : f.b.gbuf.find pa = some v) : s.readSeen f co (piece, .glob pa page) = (v, none) := by
  simp only [State.readSeen, h]

theorem readSeen_others (h : f.b.gbuf.find pa = none) : s.readSeen f co (piece, .glob pa page) = s.seenByte f.view co piece pa := by
  simp only [State.readSeen, h]

/-- A byte below the writes passed over is the newest, or stood below one of them. -/
theorem oldByte_cases (p : Old → Bool) (pa : Nat) (now : Byte) (l : List Old) :
    (oldByte p pa now l).1 = now ∨ ∃ o, o ∈ l ∧ o.pa = pa ∧ p o = true ∧ (oldByte p pa now l).1 = o.was := by
  induction l generalizing now with
  | nil => exact .inl rfl
  | cons o t ih =>
    have hlater : ∀ now, (oldByte p pa now t).1 = now ∨ ∃ q, q ∈ o :: t ∧ q.pa = pa ∧ p q = true ∧ (oldByte p pa now t).1 = q.was :=
      fun now => (ih now).imp_right fun ⟨q, hq, hrest⟩ => ⟨q, List.mem_cons_of_mem o hq, hrest⟩
    unfold oldByte
    split
    · next ho =>
      split
      · next hp =>
        obtain h | h := hlater o.was
        · exact .inr ⟨o, List.mem_cons_self, ho, hp, h⟩
        · exact .inr h
      · exact .inl rfl
    · exact hlater now

theorem seenByte_cases (s : State) (v : View) (co : Bool) (piece : List Nat) (pa : Nat) :
    (s.seenByte v co piece pa).1 = s.mm.mem.byte pa ∨
      ∃ o, o ∈ s.mm.order.olds ∧ o.pa = pa ∧ s.mayPass v co piece o = true ∧ (s.seenByte v co piece pa).1 = o.was :=
  (oldByte_cases _ pa _ _).imp_right fun ⟨o, ho, hpa, hp, hwas⟩ => ⟨o, ho, hpa, (Bool.and_eq_true_iff.1 hp).2, hwas⟩

/-- A write that reached the bytes of an access together is passed over at all of them or at none (R123). -/
theorem lags_together {o o' : Old} {e : WriteEvent} (he : s.event o.num = some e) (hg : e.grain = 0) (hn : o'.num = o.num) (hp : piece ≠ []) :
    s.lags piece o' = s.lags piece o := by
  obtain ⟨a, t, rfl⟩ := List.exists_cons_of_ne_nil hp
  simp [State.lags, State.together, hn, he, hg]

theorem readSeen_of_lag_nil (h : s.mm.order.lag = []) (f : Firing) (co : Bool) (x : List Nat × Loc) :
    (s.readSeen f co x).1 = s.readLoc f.b x.2 := by
  obtain ⟨piece, l⟩ := x
  cases l with
  | carve k a => rfl
  | glob pa page =>
    show _ = (f.b.gbuf.find pa).getD (s.mm.mem.byte pa)
    cases hb : f.b.gbuf.find pa with
    | some v => rw [readSeen_own hb]; rfl
    | none => rw [readSeen_others hb, seenByte_of_lag_nil h]; rfl

end

/-! ### The bytes of an access (08 R151) -/

theorem length_rangeMap {ε : Type} {n : Nat} {g : Nat → Loc} {ls : List Loc}
    (h : (Except.ok ((List.range n).map g) : Except ε (List Loc)) = .ok ls) :
    ls.length = n := by
  cases h
  simp

theorem length_globalLocs {s : State} {xl : Tab Nat} {ctx ea n : Nat} {w : Bool} {ls : List Loc} (h : s.globalLocs xl ctx ea n w = .ok ls) :
    ls.length = n := by
  by_cases hea : 2 ^ 60 ≤ ea
  · rw [globalLocs_beyond hea] at h
    cases h
  · rw [State.globalLocs, if_neg hea] at h
    cases hp : s.pageAddr xl ctx ea w with
    | error e => rw [hp] at h; cases h
    | ok pa =>
      simp only [hp] at h
      split at h
      · exact length_rangeMap h
      · split at h
        · cases h
        · cases hp2 : s.pageAddr xl ctx ((ea / 65536 + 1) * 65536) w with
          | error e => simp only [hp2] at h; cases h
          | ok pa2 => simp only [hp2] at h; exact length_rangeMap h

theorem length_tileLocs {s : State} {xl : Tab Nat} {k : Nat} {sl : Slot} {spov : Dword} {a n : Nat} {w : Bool} {ls : List Loc}
    (h : s.tileLocs xl k sl spov a n w = .ok ls) : ls.length = n := by
  rw [State.tileLocs] at h
  split at h
  · cases h
  · simp only at h
    split at h
    · cases h
    · split at h
      · split at h
        · cases h
        · exact length_globalLocs h
      · split at h
        · cases h
        · exact length_rangeMap h

theorem length_remoteLocs {s : State} {sl : Slot} {ea n : Nat} {w : Bool} {ls : List Loc}
    (h : s.remoteLocs sl ea n w = .ok ls) : ls.length = n := by
  unfold State.remoteLocs at h
  cases ht : s.remoteSlot sl ea n with
  | error e => rw [ht] at h; cases h
  | ok t =>
    rw [ht] at h
    simp only [bind, Except.bind] at h
    split at h
    · cases h
    · exact length_rangeMap h

theorem length_accessLocs {s : State} {k : Nat} {sl : Slot} {f : Firing} {sp : Space} {ea n : Nat} {w : Bool} {ls : List Loc}
    (h : s.accessLocs k sl f sp ea n w = .ok ls) : ls.length = n := by
  unfold State.accessLocs at h
  split at h
  · exact length_globalLocs h
  · exact length_tileLocs h

/-- A scalar access is single-copy atomic as a whole, or byte by byte (07 R123). -/
theorem scalar_eq (ls : List Loc) : Loc.scalar ls = scalarBytes ls := by
  have hwhole : wholeAccess (ls.filterMap Loc.pa) = true ↔ ls.filterMap Loc.pa = [] ∨
      ((ls.filterMap Loc.pa).length ∈ [1, 2, 4, 8] ∧ (ls.filterMap Loc.pa).headD 0 % (ls.filterMap Loc.pa).length = 0) := by
    cases ls.filterMap Loc.pa with
    | nil => simp [wholeAccess]
    | cons a t => simp [wholeAccess]
  simp only [Loc.scalar, scalarBytes, hwhole]
  rfl

/-- Where the elements of an access lie does not depend on the instruction's own execution. -/
theorem elemLocs_executed (s : State) (k : Nat) (sl : Slot) (f : Firing) (op : Nat) (sp : Space) (n : Nat) (addr : Nat → Nat) (w : Bool)
    (es : List Nat) : s.elemLocs k sl (f.executed op) sp n addr w es = s.elemLocs k sl f sp n addr w es := by
  induction es with
  | nil => rfl
  | cons e t ih =>
    rw [State.elemLocs, ih]
    rfl

theorem enabled_eq (x : MFields) (m : Nat) (r : Regs) : r.enabled x m = elemsOf x m r :=
  List.filter_congr fun e _ => laneOn_eq (r.pr x.pm) x.ty.bits e

/-! ### The effect of a load (08 R155, R156) -/

/-- The lines that a load enters in the read signature are those of a stamped firing (07 R140). -/
theorem noteRead_frame (s : State) (k : Nat) (f : Firing) (ls : List Loc) :
    ∃ lines, s.noteRead k f ls = { f with readLines := lines } ∧ (s.groupId k = none → lines = f.readLines) := by
  unfold State.noteRead
  split
  · next h => exact ⟨_, rfl, fun hn => by rw [hn] at h; cases h⟩
  · exact ⟨f.readLines, rfl, fun _ => rfl⟩

theorem afterRead_readLines (s : State) (f : Firing) (op : Nat) (co acq : Bool) (xs : List (List Nat × Loc)) :
    (afterRead s f op co acq xs).readLines = f.readLines := by
  unfold afterRead
  dsimp only
  split <;> rfl

theorem afterRead_v (s : State) (f : Firing) (op : Nat) (co acq : Bool) (xs : List (List Nat × Loc)) :
    (afterRead s f op co acq xs).r.v = f.r.v := by
  unfold afterRead
  dsimp only
  split <;> rfl

theorem readOrd_scalar (s : State) (f : Firing) (op : Nat) (co acq : Bool) (ls : List Loc) :
    s.readOrd (f.executed op) co acq (Loc.scalar ls) = (bytesAt s f co (scalarBytes ls), afterRead s f op co acq (scalarBytes ls)) := by
  rw [scalar_eq]
  rfl

/-- The value of a scalar load: the bytes of its type, extended. -/
def loadedValue (s : State) (f : Firing) (x : MFields) (ls : List Loc) : Dword :=
  extended x.ty (BitVec.ofNat x.ty.bits (ofBytes (bytesAt s f x.co (scalarBytes ls))))

section
variable {s : State} {k : Nat} {sl : Slot} {f : Firing} {x : MFields} {ls : List Loc}

theorem widen_read (hl : ls.length = x.ty.bytes) : widen x.ty (ofBytes (bytesAt s f x.co (scalarBytes ls))) = loadedValue s f x ls := by
  refine widen_eq_extended (ofBytes_lt_type ?_)
  rw [← hl, bytesAt, List.length_map, scalarBytes]
  split <;> exact List.length_map _

variable (hl : s.accessLocs k sl f x.sp (f.r.ea x) x.ty.bytes false = .ok ls)
include hl

theorem loadScalar_ok (op : Nat) (signed acq : Bool) : s.loadScalar k sl (f.executed op) x signed acq =
    let g := if signed then s.noteRead k (afterRead s f op x.co acq (scalarBytes ls)) ls else afterRead s f op x.co acq (scalarBytes ls)
    .ok { g with r := g.r.writeG x.d (loadedValue s f x ls) } := by
  rw [← widen_read (length_accessLocs hl), State.loadScalar,
    show s.accessLocs k sl (f.executed op) x.sp ((f.executed op).r.ea x) x.ty.bytes false = .ok ls from hl]
  simp only [readOrd_scalar]
  rfl

/-- An instruction whose outcome is that of a scalar load with a read signature. -/
theorem loads_of_outcome {i : Instr} {op : Nat} {acq : Bool} (h : exec i s = firingOutcome s k sl (s.loadScalar k sl (f.executed op) x true acq)) :
    loads i s k sl f op x acq ls := by
  obtain ⟨lines, hnote, hlines⟩ := noteRead_frame s k (afterRead s f op x.co acq (scalarBytes ls)) ls
  refine ⟨lines, ?_, fun hg => (hlines hg).trans (afterRead_readLines ..)⟩
  rw [h, loadScalar_ok hl, if_pos rfl, hnote]
  rfl

end

theorem loadScalar_error {s : State} {k : Nat} {sl : Slot} {f : Firing} {x : MFields} {st : Stop}
    (h : s.accessLocs k sl f x.sp (f.r.ea x) x.ty.bytes false = .error st) (op : Nat) (signed acq : Bool) :
    s.loadScalar k sl (f.executed op) x signed acq = .error st := by
  rw [State.loadScalar, show s.accessLocs k sl (f.executed op) x.sp ((f.executed op).r.ea x) x.ty.bytes false = .error st from h]
  rfl

/-- The value of an element that a vector load reads. -/
def loadedElem (s : State) (f : Firing) (co : Bool) (ls : List (Nat × List Loc)) (e : Nat) : Option Nat :=
  (ls.find? fun z => z.1 == e).map fun z => ofBytes (bytesAt s f co (elementBytes z.2))

section
variable {i : Instr} {s : State} {k : Nat} {sl : Slot} {f : Firing} {op n : Nat} {co : Bool} {d : Reg} {ls : List (Nat × List Loc)}

theorem loadElems_eq (s : State) (k : Nat) (f : Firing) (op : Nat) (co : Bool) (d : Fin 64) (n : Nat) (ls : List (Nat × List Loc)) :
    s.loadElems k (f.executed op) co d n ls =
      let g := s.noteRead k (afterRead s f op co false (ls.flatMap fun z => elementBytes z.2)) (ls.flatMap fun z => z.2)
      { g with r := g.r.putElems d (8 * n) (fun e => (loadedElem s f co ls e).isSome) fun e => (loadedElem s f co ls e).getD 0 } := rfl

/-- An instruction whose outcome is that of a vector load. -/
theorem loadsElems_of_outcome (h : exec i s = firingOutcome s k sl (.ok (s.loadElems k (f.executed op) co (vnum f.r d) n ls))) :
    loadsElems i s k sl f op co d n ls := by
  obtain ⟨lines, hnote, hlines⟩ :=
    noteRead_frame s k (afterRead s f op co false (ls.flatMap fun z => elementBytes z.2)) (ls.flatMap fun z => z.2)
  rw [loadElems_eq, hnote] at h
  refine ⟨_, lines, h, fun hg => (hlines hg).trans (afterRead_readLines ..), rfl, fun m hm => ?_, fun e he => ?_⟩
  · dsimp only
    rw [Regs.putElems, get_setV, if_neg hm, afterRead_v]
  · dsimp only
    rw [velem_putElems _ _ _ _ he, afterRead_v]
    unfold loadedElem elemBits
    cases ls.find? fun z => z.1 == e <;> rfl

end

/-! ### Loads (08 R155 to R158, R160) -/

section
variable {s : State} {k : Nat} {sl : Slot} {f : Firing} {x : MFields} (h : Runs s k sl f x.guard)
include h

theorem ld_outcome : exec (.ld x) s = firingOutcome s k sl (s.loadScalar k sl (f.executed 0x80) x true false) :=
  exec_runsFiring (show execLd x s = _ from rfl) h rfl rfl rfl

theorem ldnt_outcome : exec (.ldnt x) s = firingOutcome s k sl (s.loadScalar k sl (f.executed 0x8F) x false false) :=
  exec_runsFiring (show execLdnt x s = _ from rfl) h rfl rfl rfl

theorem ldaq_outcome : exec (.ldaq x) s = firingOutcome s k sl
    (if f.r.ea x % x.ty.bytes = 0 then s.loadScalar k sl (f.executed 0x82) x true true else .error (trapInfo 0x09 (f.r.ea x))) :=
  exec_runsFiring (show execLdaq x s = _ from rfl) h rfl rfl (by
    show (aligned (f.r.ea x) x.ty.bytes >>= fun _ => s.loadScalar k sl (f.executed 0x82) x true true) = _
    unfold aligned
    split <;> rfl)

theorem wld_general (hd : x.d.isG = true) {r : Except Stop (List Loc)} (hr : s.remoteLocs sl (f.r.ea x) x.ty.bytes false = r) :
    exec (.wld x) s = firingOutcome s k sl (r.map fun ls => { afterRead s f 0x8A x.co false (scalarBytes ls) with
      r := (afterRead s f 0x8A x.co false (scalarBytes ls)).r.writeG x.d (loadedValue s f x ls) }) :=
  exec_runsFiring (show execWld x s = _ from rfl) h rfl rfl (by
    rw [if_pos hd, show s.remoteLocs sl ((f.executed 0x8A).r.ea x) x.ty.bytes false = r from hr]
    simp only [readOrd_scalar]
    cases r with
    | error st => rfl
    | ok ls =>
      rw [Except.map, ← widen_read (length_remoteLocs hr)]
      rfl)

variable (hd : named x.d f.r)
include hd

theorem vld_outcome {ls : List (Nat × List Loc)}
    (hl : s.elemLocs k sl f x.sp (pieceBytes x.ty) (fun e => addr64 (f.r.ea x + e * pieceBytes x.ty)) false (piecesOf x f.r) = .ok ls) :
    exec (.vld x) s = firingOutcome s k sl (.ok (s.loadElems k (f.executed 0x84) x.co (vnum f.r x.d) (pieceBytes x.ty) ls)) :=
  exec_runsFiring (show execVld x s = _ from rfl) h rfl rfl (by
    rw [executed_r, vecNum_of_named hd]
    simp only [elemLocs_executed]
    show (s.elemLocs k sl f x.sp (pieceBytes x.ty) (fun e => addr64 (f.r.ea x + e * pieceBytes x.ty)) false (piecesOf x f.r) >>= _) = _
    rw [hl]
    rfl)

theorem vlds_outcome {ls : List (Nat × List Loc)}
    (hl : s.elemLocs k sl f x.sp x.ty.bytes (stridedAt x f.r) false (elemsOf x (2048 / x.ty.bits) f.r) = .ok ls) :
    exec (.vlds x) s = firingOutcome s k sl (.ok (s.loadElems k (f.executed 0x86) x.co (vnum f.r x.d) x.ty.bytes ls)) :=
  exec_runsFiring (show execVlds x s = _ from rfl) h rfl rfl (by
    rw [executed_r, vecNum_of_named hd]
    simp only [elemLocs_executed, enabled_eq]
    show (s.elemLocs k sl f x.sp x.ty.bytes (stridedAt x f.r) false (elemsOf x (2048 / x.ty.bits) f.r) >>= _) = _
    rw [hl]
    rfl)

theorem vgth_outcome (hi : (f.r.readG x.index).toNat < 64) {ls : List (Nat × List Loc)}
    (hl : s.elemLocs k sl f x.sp x.ty.bytes (gatheredAt x f.r) false (elemsOf x (min 64 (2048 / x.ty.bits)) f.r) = .ok ls) :
    exec (.vgth x) s = firingOutcome s k sl (.ok (s.loadElems k (f.executed 0x88) x.co (vnum f.r x.d) x.ty.bytes ls)) :=
  exec_runsFiring (show execVgth x s = _ from rfl) h rfl rfl (by
    rw [executed_r, Regs.offsets, vecNum_of_named hd]
    simp only [if_pos hi, elemLocs_executed, enabled_eq]
    show (s.elemLocs k sl f x.sp x.ty.bytes (gatheredAt x f.r) false (elemsOf x (min 64 (2048 / x.ty.bits)) f.r) >>= _) = _
    rw [hl]
    rfl)

theorem wld_vector (hg : x.d.isG = false) {ls : List (Nat × List Loc)}
    (hl : s.remotePieces sl (pieceBytes x.ty) (f.r.ea x) false (piecesOf x f.r) = .ok ls) :
    exec (.wld x) s = firingOutcome s k sl (.ok (s.loadElems k (f.executed 0x8A) x.co (vnum f.r x.d) (pieceBytes x.ty) ls)) :=
  exec_runsFiring (show execWld x s = _ from rfl) h rfl rfl (by
    rw [if_neg (by simp [hg]), executed_r, vecNum_of_named hd]
    show (s.remotePieces sl (pieceBytes x.ty) (f.r.ea x) false (piecesOf x f.r) >>= _) = _
    rw [hl]
    rfl)

end

/-- VGTH names its offset vector by number (08 R158). -/
theorem vgth_beyond {s : State} {k : Nat} {sl : Slot} {f : Firing} {x : MFields} (h : Runs s k sl f x.guard) (hi : 64 ≤ (f.r.readG x.index).toNat) :
    exec (.vgth x) s = traps s k { code := 0x09, info := f.r.readG x.index } :=
  exec_runsFiring (r := .error (.trap { code := 0x09, info := f.r.readG x.index })) (show execVgth x s = _ from rfl) h rfl rfl (by
    rw [executed_r, Regs.offsets, ← trapInfo_toNat]
    simp only [if_neg (Nat.not_lt.2 hi)]
    rfl)

/-! ### Cache operations (08 R161) -/

section
variable {s : State} {k : Nat} {sl : Slot} {f : Firing} {x : MFields} (h : Runs s k sl f x.guard)
include h

theorem pref_outcome : exec (.pref x) s = firingOutcome s k sl ((s.cacheLine sl f x false).map fun _ => f.executed 0x8C) :=
  exec_runsFiring (show execPref x s = _ from rfl) h rfl rfl rfl

theorem cinv_outcome : exec (.cinv x) s = firingOutcome s k sl ((s.cacheLine sl f x false).map fun l => (f.executed 0x8D).deferLine l .cacheInv) :=
  exec_runsFiring (show execCinv x s = _ from rfl) h rfl rfl rfl

theorem cwb_outcome : exec (.cwb x) s = firingOutcome s k sl ((s.cacheLine sl f x false).map fun l => (f.executed 0x8E).deferLine l .cacheWb) :=
  exec_runsFiring (show execCwb x s = _ from rfl) h rfl rfl rfl

end

section
variable {s : State} {sl : Slot} {f : Firing} {x : MFields} {w : Bool}

theorem cacheLine_beyond (h : 2 ^ 60 ≤ f.r.ea x) : s.cacheLine sl f x w = .error (trapInfo 0x09 (f.r.ea x)) := if_pos h

theorem cacheLine_translated {t : Xl} (h : f.r.ea x < 2 ^ 60) (ht : s.translate sl.pl.ctx (f.r.ea x) w = .ok t) :
    s.cacheLine sl f x w = .ok (some (t.pa / 64)) := by
  rw [State.cacheLine]
  simp only [if_neg (Nat.not_le.2 h), ht]

theorem cacheLine_untranslated {e : XlErr} (h : f.r.ea x < 2 ^ 60) (ht : s.translate sl.pl.ctx (f.r.ea x) w = .error e) :
    s.cacheLine sl f x w = .ok none := by
  rw [State.cacheLine]
  simp only [if_neg (Nat.not_le.2 h), ht]

theorem cacheLine_ok (h : f.r.ea x < 2 ^ 60) (s : State) (sl : Slot) (w : Bool) : ∃ l, s.cacheLine sl f x w = .ok l := by
  cases ht : s.translate sl.pl.ctx (f.r.ea x) w with
  | ok t => exact ⟨_, cacheLine_translated h ht⟩
  | error e => exact ⟨_, cacheLine_untranslated h ht⟩

end

/-- Settles O18: a read passes over what it may pass over, the loads are reads of the bytes where their access lies, and the cache operations
defer their line. -/
theorem loadsReadMemory : Obligations.LoadsReadMemory := by
  refine ⟨fun s f co piece pa page => ⟨fun v hv => readSeen_own hv, fun hn => ?_, fun o => mayPass_unordered,
      fun o o' e he hg hn hp => lags_together he hg hn hp, fun hlag x => readSeen_of_lag_nil hlag f co x⟩,
    fun s k sl f x h => ⟨fun ls hl => ⟨loads_of_outcome hl (ld_outcome h), fun ha => loads_of_outcome hl ?_, ?_⟩, fun st hst => ⟨?_, ?_⟩, fun ha => ?_,
      fun hg ls hl => wld_general h hg hl, fun hg st hst => wld_general h hg hst⟩,
    fun s k sl f x h hd => ⟨fun ls hl => loadsElems_of_outcome (vld_outcome h hd hl), fun _ ls hl => loadsElems_of_outcome (vlds_outcome h hd hl),
      fun _ hi ls hl => loadsElems_of_outcome (vgth_outcome h hd hi hl), vgth_beyond h,
      fun hg ls hl => loadsElems_of_outcome (wld_vector h hd hg hl)⟩,
    fun s k sl f x h => ⟨fun hea => ⟨?_, fun t ht => ⟨?_, ?_⟩, fun e he => ⟨?_, ?_⟩⟩, fun hea => ⟨?_, ?_, ?_⟩⟩⟩
  · rw [readSeen_others hn]
    exact seenByte_cases s f.view co piece pa
  · rw [ldaq_outcome h, if_pos ha]
  · rw [ldnt_outcome h, loadScalar_ok hl]
    rfl
  · rw [stopsWith, ld_outcome h, loadScalar_error hst, firingOutcome_error]
  · rw [stopsWith, ldnt_outcome h, loadScalar_error hst, firingOutcome_error]
  · rw [stopsWith, ldaq_outcome h, if_neg ha, firingOutcome_error]
  · obtain ⟨l, hl⟩ := cacheLine_ok hea s sl false
    rw [pref_outcome h, hl]
    rfl
  · rw [cinv_outcome h, cacheLine_translated hea ht]
    rfl
  · rw [cwb_outcome h, cacheLine_translated hea ht]
    rfl
  · rw [cinv_outcome h, cacheLine_untranslated hea he]
    rfl
  · rw [cwb_outcome h, cacheLine_untranslated hea he]
    rfl
  · rw [pref_outcome h, cacheLine_beyond hea]
    rfl
  · rw [cinv_outcome h, cacheLine_beyond hea]
    rfl
  · rw [cwb_outcome h, cacheLine_beyond hea]
    rfl

end Sys2Proof.Proofs

/-! SUPPORT. A loader stream whose arc has no space, when its run is over (07 R146; 08 R180; 16 R304). -/

namespace Sys2Proof.Proofs

open Sys2Proof.Machine Sys2Proof.Safety Sys2Proof.Laws

/-- A stream that reads for an arc without space moves nothing; the row only notes the end of a run that is over. -/
theorem streamTokenPublish_full {s : State} {id n : Nat} {c : Command} {x : Arc} (hc : s.command id = some c) (hlive : s.commandLive c = true)
    (hl : c.loader = true) (hf : c.family = .stream) (hx : s.streamArc c = some (n, x)) (hp : c.progress < field c.block 24 8)
    (hd : field c.block 47 1 = 0) (hspace : s.arcSpace x = 0) : exec (.streamTokenPublish id) s = .next (s.checkRunEnd x.cfg) := by
  have htoken : s.streamToken id c n x = s := by
    unfold State.streamToken
    simp only [if_pos hd, if_pos hspace]
  show execStreamTokenPublish id s = _
  unfold execStreamTokenPublish
  simp only [hc, hx, htoken, if_pos (show s.commandLive c = true ∧ c.loader = true ∧ c.family = .stream ∧ c.progress < field c.block 24 8
    from ⟨hlive, hl, hf, hp⟩)]

/-- A stream of one element that the loader started for a `.sink` at output port 0 of slot 0, in a block whose direction is to read. -/
def readingSink : Command :=
  { slot := 0, tl := 16, num := 0, loader := true, ctx := 0, cove := 0, gen := 0, op := 0xBF, family := .stream, flags := 0,
    block := List.replicate 24 0 ++ 1 :: List.replicate 231 0, view := [], barrier := none, state := .running, status := 0, progress := 0,
    subtracted := 0, partials := [], roundStart := 0, faultWait := none, flags5 := 0, engine := 0, row := none }

/-- The arc of that port: blocked, with no token on it. -/
def blockedArc : Arc := { Arc.blank 1 0 64 1 with producer := some (0, 0), blocked := true }

/-- Configuration 1 with that stream, whose one slot has exited. -/
def exitedRun : State :=
  { State.reset with
      slots := [(0, { bareSlot 0 with pl := { (bareSlot 0).pl with outArc := (Vector.replicate 16 none).set 0 (some 1) } })]
      arcs := [(1, blockedArc)]
      al.cfgs := [(1, { bareCfg 0 with instancesLeft := 0 })]
      en.commands := [(1, readingSink)] }

theorem exitedRun_over : exitedRun.runOver 1 = true := by decide +kernel

theorem exitedRun_checkRunEnd : exitedRun.checkRunEnd blockedArc.cfg = exitedRun.later (.runEnd 1) := if_pos exitedRun_over

/-- Refutes O37: a loader stream that reads for an arc without space does not idle where its run is over, for the row then puts the end of the
run on the agenda. The stream of `exitedRun` stands at an output port: `runOver` does not wait for the streams there, and `Image.streamOk`
does not refuse one whose block reads. -/
theorem not_engineWorkAndCollectives : ¬ Obligations.EngineWorkAndCollectives := by
  intro h
  obtain ⟨⟨-, -, -, hsource, -⟩, -⟩ := h
  have hc : exitedRun.command 1 = some readingSink := rfl
  have hlive : exitedRun.commandLive readingSink = true := by decide +kernel
  have hx : exitedRun.streamArc readingSink = some (1, blockedArc) := by decide +kernel
  have hp : readingSink.progress < field readingSink.block 24 8 := by decide +kernel
  have hd : field readingSink.block 47 1 = 0 := by decide +kernel
  have hidles : exec (.streamTokenPublish 1) exitedRun = .next exitedRun :=
    (hsource exitedRun 1 readingSink 1 blockedArc ([], false) hc hlive rfl rfl hx hp hd).1 rfl
  have hends : exec (.streamTokenPublish 1) exitedRun = .next (exitedRun.later (.runEnd 1)) := by
    rw [streamTokenPublish_full hc hlive rfl rfl hx hp hd rfl, exitedRun_checkRunEnd]
  have hsame : exitedRun = exitedRun.later (.runEnd 1) := Host.Outcome.next.inj (hidles.symm.trans hends)
  have hagenda : exitedRun.agenda = exitedRun.agenda ++ [.due (.runEnd 1)] := congrArg State.agenda hsame
  exact absurd (congrArg List.length hagenda) (by simp)

end Sys2Proof.Proofs

/-! SUPPORT. What an atomic computes and writes at its home (08 R163 to R166). -/

namespace Sys2Proof.Proofs

open Sys2Proof.Machine Sys2Proof.Safety Sys2Proof.Laws

/-! ### Integers of a type (11 R214) -/

theorem bits_le (t : Ty) : t.bits ≤ 64 := by cases t <;> decide

theorem intVal_mod (t : Ty) (n : Nat) : intVal t (n % 2 ^ t.bits) = intVal t n := by
  simp only [intVal, Nat.mod_mod]

/-- The integer that a pattern stands for. -/
theorem intVal_toNat (t : Ty) (p : BitVec t.bits) : intVal t p.toNat = if t.signed then p.toInt else (p.toNat : Int) := by
  have hpow : 2 ^ t.bits = 2 * 2 ^ (t.bits - 1) := by cases t <;> rfl
  have hlt := p.isLt
  unfold intVal
  rw [Nat.mod_eq_of_lt hlt, BitVec.toInt_eq_toNat_cond]
  cases t.signed with
  | false => simp
  | true =>
    simp only [true_and, if_true]
    split
    · rw [if_neg (by omega)]
    · rw [if_pos (by omega)]

/-- The integer in a register. -/
theorem valueOf_eq (t : Ty) (x : Dword) : valueOf t x = intVal t x.toNat := by
  rw [← intVal_mod, ← BitVec.toNat_setWidth, intVal_toNat]
  rfl

theorem setWidth_extended (t : Ty) (p : BitVec t.bits) : (extended t p).setWidth t.bits = p := by
  have hle := bits_le t
  unfold extended
  split
  · refine BitVec.eq_of_getLsbD_eq fun i hi => ?_
    rw [BitVec.getLsbD_setWidth, BitVec.getLsbD_signExtend]
    simp [hi, show i < 64 by omega]
  · rw [BitVec.setWidth_setWidth_of_le _ hle, BitVec.setWidth_eq]

theorem valueOf_extended (t : Ty) (p : BitVec t.bits) : valueOf t (extended t p) = intVal t p.toNat := by
  rw [intVal_toNat, valueOf, setWidth_extended]

/-- An integer delivered to a type is wrapped or clamped. -/
theorem intDeliver_pattern (t : Ty) (sat : Bool) (v : Int) : (intDeliver t sat v).1 = intPattern t sat v := by
  have hpat : ∀ v, intPat t v = (BitVec.ofInt t.bits v).toNat := fun v => (BitVec.toNat_ofInt v).symm
  have hmin : intMin t = least t := by unfold intMin least; push_cast; rfl
  have hmax : intMax t = most t := by unfold intMax most; push_cast; rfl
  unfold intDeliver intPattern clamped
  cases sat with
  | false => exact hpat v
  | true =>
    simp only [if_true, hmin, hmax]
    split
    · exact hpat _
    · split
      · exact hpat _
      · exact hpat v

/-! ### The value that an atomic writes (08 R164, R165) -/

/-- What the home writes over a pattern is what the statement says. -/
theorem written_new (q : AtomicReq) (old : BitVec q.type.bits) (hlo : 0x98 ≤ q.op) (hhi : q.op ≤ 0xA5) : (q.written old.toNat).1 =
    atomicNew q.op q.type q.sat q.rm q.sr old (q.b.setWidth q.type.bits) (q.c.setWidth q.type.bits) := by
  have hb : q.b.toNat % 2 ^ q.type.bits = (q.b.setWidth q.type.bits).toNat := (BitVec.toNat_setWidth ..).symm
  have hc : q.c.toNat % 2 ^ q.type.bits = (q.c.setWidth q.type.bits).toNat := (BitVec.toNat_setWidth ..).symm
  unfold AtomicReq.written atomicNew
  simp only [hb, hc, ← intVal_toNat, ← intDeliver_pattern, ← BitVec.toNat_and, ← BitVec.toNat_or, ← BitVec.toNat_xor, ← BitVec.toNat_eq]
  generalize q.op = op at *
  interval_cases op <;> simp
  all_goals split <;> rfl

end Sys2Proof.Proofs

/-! SUPPORT. What an atomic reads and writes at its home, and what becomes of its request (07 R137; 08 R163 to R167). -/

namespace Sys2Proof.Proofs

open Sys2Proof.Machine Sys2Proof.Safety Sys2Proof.Laws

/-! ### The old value (08 R163, R166) -/

section
variable {s : State} {q : AtomicReq}

theorem spliceHome_nil (hsp : s.mm.splices = []) (pa : Nat) : s.spliceHome pa = pa := by
  unfold State.spliceHome
  rw [hsp]
  rfl

theorem atomicPoison_nil (hsp : s.mm.splices = []) : s.atomicPoison q = s.mm.poison.contains (q.pa / 64) := by
  rw [State.atomicPoison, spliceHome_nil hsp]

theorem atomicOld_eq (hsp : s.mm.splices = []) : s.atomicOld q = (oldOf s q).toNat := by
  unfold State.atomicOld oldOf patternAt
  rw [spliceHome_nil hsp, BitVec.toNat_ofNat, Nat.mod_eq_of_lt (ofBytes_lt_type (by simp [Memory.bytes]))]

theorem extend_atomicOld (hsp : s.mm.splices = []) : q.extend (s.atomicOld q) = extended q.type (oldOf s q) := by
  rw [atomicOld_eq hsp, AtomicReq.extend, widen_eq_extended (oldOf s q).isLt, BitVec.ofNat_toNat, BitVec.setWidth_eq]

theorem met_atomicOld (hsp : s.mm.splices = []) : q.met (s.atomicOld q) = true ↔
    awaits q.type (q.c.toNat % 4) (valueOf q.type (extended q.type (oldOf s q))) (valueOf q.type q.b) := by
  rw [atomicOld_eq hsp, valueOf_extended, valueOf_eq]
  have hc : q.c.toNat % 4 < 4 := Nat.mod_lt _ (by decide)
  unfold AtomicReq.met awaits
  interval_cases q.c.toNat % 4 <;> simp

theorem written_atomicOld (hsp : s.mm.splices = []) (hp : performable q) : (q.written (s.atomicOld q)).1 = newOf s q := by
  obtain ⟨hlo, hhi, -, -⟩ := hp
  rw [atomicOld_eq hsp, written_new q _ hlo hhi]
  rfl

/-- AWT writes nothing. -/
theorem written_awt (hop : q.op = 0xA6) (old : Nat) : (q.written old).1 = none := by
  simp [AtomicReq.written, hop]

end

/-! ### The bytes written (08 R163) -/

/-- The writes of a value at an address, little-endian. -/
def homeWrites (pa n : Nat) (v : Option Nat) : List (Nat × Byte) := v.elim [] fun p => placedFrom pa 0 (toBytes n p)

theorem byte_writeEach_toBytes {m : Memory} (h : m.wf = true) (pa n p a : Nat) : (writeEach m (placedFrom pa 0 (toBytes n p))).byte a =
    if pa ≤ a ∧ a < pa + n then BitVec.ofNat 8 (p / 256 ^ (a - pa)) else m.byte a := by
  split
  · next hin =>
    obtain ⟨i, rfl⟩ := Nat.exists_eq_add_of_le hin.1
    have hbyte := byte_writeEach_placedFrom h pa 0 (getElem?_toBytes p (show i < n by omega))
    rw [Nat.zero_add] at hbyte
    rw [hbyte, Nat.shiftRight_eq_div_pow, pow_mul, Nat.add_sub_cancel_left]
    rfl
  · next hout =>
    refine byte_writeEach_other m fun w hw => ?_
    obtain ⟨i, hi, hwi⟩ := mem_placedFrom hw
    rw [length_toBytes] at hi
    omega

theorem wroteAt_of_mem {s t : State} {pa n : Nat} {v : Option Nat} (hwf : s.mm.mem.wf = true)
    (h : t.mm.mem = writeEach s.mm.mem (homeWrites pa n v)) : wroteAt s t pa n v := by
  intro a
  rw [h]
  cases v with
  | none => rfl
  | some p => exact byte_writeEach_toBytes hwf pa n p a

/-- One home takes all bytes of an aligned location. -/
theorem homeOf_within (t : Ty) {pa i : Nat} (hpa : pa % t.bytes = 0) (hi : i < t.bytes) : homeOf (pa + i) = homeOf pa := by
  have h36 : (pa + i) / 2 ^ 36 = pa / 2 ^ 36 := by
    have hsize : t.bytes = 0 ∨ t.bytes = 1 ∨ t.bytes = 2 ∨ t.bytes = 4 ∨ t.bytes = 8 := by cases t <;> decide
    rcases hsize with h | h | h | h | h <;> rw [h] at hpa hi <;> omega
  have h40 : ∀ a, a / 2 ^ 40 = a / 2 ^ 36 / 2 ^ 4 := fun a => by omega
  have h50 : ∀ a, a / 2 ^ 50 = a / 2 ^ 36 / 2 ^ 14 := fun a => by omega
  simp only [homeOf, paLocal, paHost, paPkg, h40, h50, h36]

theorem atomicWrite_mem {s : State} {w : Writer} {q : AtomicReq} (hsp : s.mm.splices = []) (htakes : s.homeTakes q.pa w.tag w.gen = true)
    (hpa : q.pa % q.type.bytes = 0) (v : Option Nat) :
    (s.atomicWrite w q v).mm.mem = writeEach s.mm.mem (homeWrites q.pa q.type.bytes v) := by
  cases v with
  | none => rfl
  | some p =>
    unfold State.atomicWrite
    dsimp only
    rw [spliceHome_nil hsp]
    refine writeGlobal_mem false hsp fun x hx => ?_
    obtain ⟨i, hi, hxi⟩ := mem_placedFrom (n := 0) hx
    rw [length_toBytes] at hi
    rw [hxi, Nat.zero_add]
    unfold State.homeTakes at htakes ⊢
    rwa [homeOf_within q.type hpa hi]

theorem peerStore_mem {s : State} (hsp : s.mm.splices = []) (pkg : Nat) (atomic taint : Bool) (ws : List (Nat × Byte)) :
    (s.peerStore pkg atomic taint ws).mm.mem = writeEach s.mm.mem ws := by
  unfold State.peerStore
  dsimp only
  rw [hsp, mirrored_nil, writeEvent_newest]

/-! ### The request of a slot -/

theorem requestOf_congr {s t : State} {k : Nat} (h : t.slot k = s.slot k) : requestOf t k = requestOf s k := by
  unfold requestOf firingOf
  rw [h]

theorem requestOf_of_slot {s : State} {k : Nat} {sl : Slot} {f : Firing} {q : AtomicReq} (hs : s.slot k = some sl) (hf : sl.firing = some f)
    (hq : f.request = some q) : requestOf s k = some q := by
  simp [requestOf, firingOf, hs, hf, hq]

theorem requestOf_setRequest (s : State) (k : Nat) (g : AtomicReq → AtomicReq) :
    requestOf (s.setRequest k g) k = (requestOf s k).map g := by
  unfold requestOf firingOf State.setRequest
  rw [updSlot_slot]
  cases s.slot k with
  | none => rfl
  | some sl => cases hf : sl.firing <;> simp [hf]

theorem voidConflicts_slot (s : State) (k stamp rank : Nat) (lines : List Nat) : (s.voidConflicts k stamp rank lines).slot k = s.slot k := by
  unfold State.voidConflicts
  split
  · rfl
  · refine foldl_keeps (fun s => s.slot k) (fun t ms => ?_) _ s
    split
    · split
      · next h => exact dropFiring_slot_other t h.1.symm
      · rfl
    · rfl

theorem tellGroup_requestOf (s : State) (k stamp rank : Nat) (mine : List Nat) : requestOf (s.tellGroup k stamp rank mine) k = requestOf s k := by
  have hwrote : requestOf (s.updSlot k fun u => { u with wrote := s.live (joinEvents u.wrote mine) }) k = requestOf s k := by
    unfold requestOf firingOf
    rw [updSlot_slot]
    cases s.slot k <;> rfl
  unfold State.tellGroup
  extract_lets s1
  split
  · exact hwrote
  · extract_lets tell
    have hkey : ∀ ms, (tell ms).1 = ms.1 := fun ms => by
      unfold tell
      split
      · split <;> rfl
      · rfl
    have hself : ∀ u, tell (k, u) = (k, u) := fun u => by
      unfold tell
      split
      · rw [if_neg (by simp)]
      · rfl
    have hslot : Tab.find (s1.slots.map tell) k = s1.slot k := by
      rw [find_map_keyed _ tell hkey]
      simp only [hself]
      exact Option.map_id'
    exact (requestOf_congr (t := { s1 with slots := s1.slots.map tell }) hslot).trans hwrote

theorem atomicWrite_slots (s : State) (w : Writer) (q : AtomicReq) (v : Option Nat) : (s.atomicWrite w q v).slots = s.slots := by
  cases v with
  | none => rfl
  | some p => exact writeGlobal_slots ..

/-! ### Performed at the home (08 R163, R166) -/

section
variable {s : State} {k : Nat} {sl : Slot} {f : Firing} {q : AtomicReq}

/-- The state of a home that has written for a request and told the group of the firing (07 R140, R142). -/
def homeWrote (s : State) (k : Nat) (sl : Slot) (f : Firing) (q : AtomicReq) : State :=
  let w := q.written (s.atomicOld q)
  let s1 := s.atomicWrite (s.atomicWriter k sl f q) q w.1
  let own := if s1.mm.order.next = s.mm.order.next then [] else [s.mm.order.next]
  if w.1.isSome then (s1.voidConflicts k f.r.stamp.toNat sl.pl.rank [q.pa / 64]).tellGroup k f.r.stamp.toNat sl.pl.rank own else s1

theorem homeWrote_mem : (homeWrote s k sl f q).mm.mem = (s.atomicWrite (s.atomicWriter k sl f q) q (q.written (s.atomicOld q)).1).mm.mem := by
  unfold homeWrote
  extract_lets w s1 own
  split
  · rw [tellGroup_mem, voidConflicts_mem]
  · rfl

theorem homeWrote_requestOf : requestOf (homeWrote s k sl f q) k = requestOf s k := by
  unfold homeWrote
  extract_lets w s1 own
  have hs1 : requestOf s1 k = requestOf s k := requestOf_congr (congrArg (Tab.find · k) (atomicWrite_slots ..))
  split
  · rw [tellGroup_requestOf, requestOf_congr (voidConflicts_slot ..), hs1]
  · exact hs1

/-- An atomic that its home does not hold is performed: what the home has written, the tag that it notes, and the answer. -/
theorem performAtHome_eq (hgo : ¬ (q.op = 0xA6 ∧ q.met (s.atomicOld q) = false)) : ∃ (t : State) (fl : BitVec 5) (own : List Nat),
    s.performAtHome k sl f q = t.setRequest k (fun q' =>
      { q' with arrived := true, result := some (q'.extend (s.atomicOld q), fl), events := s.atomicReads q', own := own }) ∧
    t.slots = (homeWrote s k sl f q).slots ∧ t.mm = (homeWrote s k sl f q).mm := by
  unfold State.performAtHome
  extract_lets old w s1 own s2 s3
  refine ⟨s3, BitVec.ofNat 5 w.2, own, ?_, ?_, ?_⟩
  · rw [if_neg (by simpa using hgo)]
  · unfold s3; split <;> rfl
  · unfold s3; split <;> rfl

theorem performAtHome_mem (hgo : ¬ (q.op = 0xA6 ∧ q.met (s.atomicOld q) = false)) : (s.performAtHome k sl f q).mm.mem =
    (s.atomicWrite (s.atomicWriter k sl f q) q (q.written (s.atomicOld q)).1).mm.mem := by
  obtain ⟨t, fl, own, ht, -, hmm⟩ := performAtHome_eq (k := k) (sl := sl) (f := f) hgo
  rw [ht, ← homeWrote_mem, ← hmm]
  rfl

theorem performAtHome_answered (hsp : s.mm.splices = []) (hreq : requestOf s k = some q)
    (hgo : ¬ (q.op = 0xA6 ∧ q.met (s.atomicOld q) = false)) : answered s (s.performAtHome k sl f q) k q := by
  obtain ⟨t, fl, own, ht, hslots, -⟩ := performAtHome_eq (k := k) (sl := sl) (f := f) hgo
  refine ⟨fl, own, ?_⟩
  have hreq' : requestOf t k = some q := by
    rw [requestOf_congr (congrArg (Tab.find · k) hslots), homeWrote_requestOf, hreq]
  rw [ht, requestOf_setRequest, hreq', Option.map_some, extend_atomicOld hsp]

end

end Sys2Proof.Proofs

/-! SUPPORT. Atomics at their homes: arrivals, tags, the requests of peers, and what is lost (07 R137, R138; 08 R163 to R168; 09 R191). -/

namespace Sys2Proof.Proofs

open Sys2Proof.Machine Sys2Proof.Safety Sys2Proof.Laws

/-! ### What the order log leaves unchanged (09 R187, R191) -/

/-- The slots and the open splices. -/
def slotsAndSplices (s : State) : Tab Slot × List (Nat × Nat) := (s.slots, s.mm.splices)

theorem writeEvent_slotsAndSplices (s : State) (w : Writer) (p : Old → Bool) (ws : List (Nat × Byte)) :
    slotsAndSplices (s.writeEvent w p ws) = slotsAndSplices s := by
  rw [writeEvent_frame]
  rfl

theorem logWrite_slotsAndSplices {s t : State} {ctx va : Nat} {bs : List Byte} (h : s.logWrite ctx va bs = some t) :
    slotsAndSplices t = slotsAndSplices s := by
  unfold State.logWrite at h
  split at h
  · cases h
  · cases h
    exact writeEvent_slotsAndSplices ..

theorem logFailed_slotsAndSplices (s : State) (ctx va : Nat) (l : OrderLog) (dropped : Bool) :
    slotsAndSplices (s.logFailed ctx va l dropped) = slotsAndSplices s := by
  unfold State.logFailed
  extract_lets s1 l1
  unfold s1
  split <;> rfl

theorem logHeader_slotsAndSplices (s : State) (ctx off n v : Nat) : slotsAndSplices (s.logHeader ctx off n v) = slotsAndSplices s := by
  unfold State.logHeader
  split
  · rfl
  · split
    · next h => exact logWrite_slotsAndSplices h
    · exact logFailed_slotsAndSplices ..

theorem logHeaders_slotsAndSplices (s : State) (ctx : Nat) : slotsAndSplices (s.logHeaders ctx) = slotsAndSplices s := by
  unfold State.logHeaders
  split
  · rfl
  · rw [logHeader_slotsAndSplices, logHeader_slotsAndSplices, logHeader_slotsAndSplices]

theorem logRecord_slotsAndSplices (s : State) (ctx kind lnch site : Nat) (subj : Dword) :
    slotsAndSplices (s.logRecord ctx kind lnch site subj) = slotsAndSplices s := by
  unfold State.logRecord
  split
  · rfl
  · extract_lets +onlyGivenNames key seq r l1
    split
    · exact logHeaders_slotsAndSplices ..
    · extract_lets +onlyGivenNames va
      split
      · next s1 h =>
        have hs1 : slotsAndSplices s1 = slotsAndSplices s := logWrite_slotsAndSplices h
        exact (logHeaders_slotsAndSplices ..).trans hs1
      · rw [logHeaders_slotsAndSplices, logFailed_slotsAndSplices]

theorem performed_slotsAndSplices (s : State) (ctx kind lnch site : Nat) :
    slotsAndSplices (s.performed ctx kind lnch site) = slotsAndSplices s := by
  unfold State.performed
  split
  · rfl
  · split <;> rfl

theorem offerHeld_slotsAndSplices (s : State) (ctx : Nat) : slotsAndSplices (s.offerHeld ctx) = slotsAndSplices s := by
  unfold State.offerHeld
  refine foldl_keeps slotsAndSplices (fun _ _ => ?_) _ s
  rfl

/-! ### Arrivals (07 R137; 09 R191; 20 R366) -/

section
variable {s : State} {k : Nat} {sl : Slot} {f : Firing} {q : AtomicReq}

theorem requestOf_of_arrives (h : arrives s k sl f q) : requestOf s k = some q := by
  obtain ⟨hs, hf, hq, -⟩ := h
  exact requestOf_of_slot hs hf hq

theorem inFlight_of_request (hs : s.slot k = some sl) (hf : sl.firing = some f) (hq : f.request = some q) (harr : q.arrived = false) :
    s.inFlight k = some q := by
  simp [State.inFlight, hs, hf, hq, harr]

theorem exec_own_inFlight (h : s.inFlight k = some q) : exec (.atomicAtHome (.own k)) s =
    .next (if s.isRemote q.pa && s.pathDown (paPkg q.pa) then s else s.arrival k) := by
  change execAtomicAtHome (.own k) s = _
  unfold execAtomicAtHome
  simp only [h]

/-- At D0 an arrival is performed and no log records it. -/
theorem arrival_unlogged (h : arrives s k sl f q) (hdet : sl.detl = 0) : s.arrival k = s.performAtHome k sl f q := by
  obtain ⟨hs, hf, hq, harr, htakes, hpoison, hstale, -⟩ := h
  have hfree : ∀ ctx lnch same, s.forced 0 ctx 1 lnch q.site same = .free := fun _ _ _ => rfl
  unfold State.arrival
  simp [hs, hf, hq, harr, htakes, hpoison, hstale, hdet, hfree]

/-- At D2 an arrival whose turn it is in the source log is recorded and performed (09 R191). -/
theorem arrival_turn (h : arrives s k sl f q) (hdet : sl.detl = 2)
    (hturn : s.forced 2 sl.pl.ctx 1 (s.launchOf sl.pl.cfg) q.site (fun x => x == q.subj) = .turn) :
    s.arrival k = ((((s.performed sl.pl.ctx 1 (s.launchOf sl.pl.cfg) q.site).offerHeld sl.pl.ctx).logRecord sl.pl.ctx 1
      (s.launchOf sl.pl.cfg) q.site q.subj).performAtHome k sl f q) := by
  obtain ⟨hs, hf, hq, harr, htakes, hpoison, hstale, -⟩ := h
  unfold State.arrival
  simp [hs, hf, hq, harr, htakes, hpoison, hstale, hdet, hturn]

theorem arrival_dropped (hs : s.slot k = some sl) (hf : sl.firing = some f) (hq : f.request = some q)
    (htakes : s.homeTakes q.pa sl.pl.tag sl.pl.gen = false) : s.arrival k = s := by
  unfold State.arrival
  simp [hs, hf, hq, htakes]

theorem not_awt_of_performable (h : performable q) (p : Prop) : ¬ (q.op = 0xA6 ∧ p) := by
  obtain ⟨-, hhi, -⟩ := h
  omega

/-- An atomic that no log records writes the new value and keeps the old one. -/
theorem exec_own_performs (h : arrives s k sl f q) (hwf : s.mm.mem.wf = true) (hsp : s.mm.splices = []) (hdet : sl.detl = 0)
    (hp : performable q) :
    happens (.atomicAtHome (.own k)) s fun t => wroteAt s t q.pa q.type.bytes (newOf s q) ∧ answered s t k q := by
  refine ⟨s.performAtHome k sl f q, ?_, ?_, performAtHome_answered hsp (requestOf_of_arrives h) (not_awt_of_performable hp _)⟩
  · have harrival := arrival_unlogged h hdet
    obtain ⟨hs, hf, hq, harr, -, -, -, hdown⟩ := h
    rw [exec_own_inFlight (inFlight_of_request hs hf hq harr), hdown, harrival]
    rfl
  · obtain ⟨-, -, -, -, htakes, -⟩ := h
    obtain ⟨-, -, -, haligned⟩ := id hp
    refine wroteAt_of_mem hwf ?_
    rw [performAtHome_mem (not_awt_of_performable hp _), written_atomicOld hsp hp]
    exact atomicWrite_mem hsp htakes haligned _

/-- A held atomic whose turn has come is recorded and answered. -/
theorem exec_heldAtomicRelease_turn {since : Nat} (h : arrives s k sl f q) (hparked : f.parked = some (.atomic since true))
    (hop : q.op ≠ 0xA6) (hsp : s.mm.splices = []) (hdet : sl.detl = 2)
    (hturn : s.forced 2 sl.pl.ctx 1 (s.launchOf sl.pl.cfg) q.site (fun x => x == q.subj) = .turn) :
    happens (.heldAtomicRelease k) s fun t =>
      answered (((s.performed sl.pl.ctx 1 (s.launchOf sl.pl.cfg) q.site).offerHeld sl.pl.ctx).logRecord sl.pl.ctx 1
        (s.launchOf sl.pl.cfg) q.site q.subj) t k q := by
  have hexec : exec (.heldAtomicRelease k) s = .next (s.arrival k) := by
    obtain ⟨hs, hf, -⟩ := id h
    change execHeldAtomicRelease k s = _
    unfold execHeldAtomicRelease
    simp [hs, hf, hparked]
  have hkept : slotsAndSplices (((s.performed sl.pl.ctx 1 (s.launchOf sl.pl.cfg) q.site).offerHeld sl.pl.ctx).logRecord sl.pl.ctx 1
      (s.launchOf sl.pl.cfg) q.site q.subj) = slotsAndSplices s := by
    rw [logRecord_slotsAndSplices, offerHeld_slotsAndSplices, performed_slotsAndSplices]
  obtain ⟨hslots, hsplices⟩ := Prod.ext_iff.1 hkept
  refine ⟨_, hexec.trans (congrArg _ (arrival_turn h hdet hturn)), performAtHome_answered (hsplices.trans hsp) ?_ fun hawt => hop hawt.1⟩
  exact (requestOf_congr (congrArg (Tab.find · k) hslots)).trans (requestOf_of_arrives h)

theorem exec_own_dropped (hs : s.slot k = some sl) (hf : sl.firing = some f) (hq : f.request = some q) (harr : q.arrived = false)
    (htakes : s.homeTakes q.pa sl.pl.tag sl.pl.gen = false) : idles (.atomicAtHome (.own k)) s := by
  unfold idles
  rw [exec_own_inFlight (inFlight_of_request hs hf hq harr), arrival_dropped hs hf hq htakes, ite_self]

/-- A held AWT is answered once its condition holds, and waits until then. -/
theorem exec_awtConditionMet_own (hs : s.slot k = some sl) (hf : sl.firing = some f) (hq : f.request = some q) (hop : q.op = 0xA6)
    (harr : q.arrived = true) (hres : q.result = none) (hpoison : s.atomicPoison q = false) (hk : k < peerWaitBase) :
    exec (.awtConditionMet k) s = .next (if q.met (s.atomicOld q) then s.performAtHome k sl f q else s) := by
  change execAwtConditionMet k s = _
  unfold execAwtConditionMet
  rw [if_neg (Nat.not_le.2 hk)]
  simp [hs, hf, hq, hop, harr, hres, hpoison]
  split <;> rfl

theorem exec_awtConditionMet_met (hs : s.slot k = some sl) (hf : sl.firing = some f) (hq : f.request = some q) (hop : q.op = 0xA6)
    (harr : q.arrived = true) (hres : q.result = none) (hpoison : s.atomicPoison q = false) (hsp : s.mm.splices = [])
    (hk : k < peerWaitBase)
    (hmet : awaits q.type (q.c.toNat % 4) (valueOf q.type (extended q.type (oldOf s q))) (valueOf q.type q.b)) :
    happens (.awtConditionMet k) s fun t => t.mm.mem = s.mm.mem ∧ answered s t k q := by
  have hm : q.met (s.atomicOld q) = true := (met_atomicOld hsp).2 hmet
  have hgo : ¬ (q.op = 0xA6 ∧ q.met (s.atomicOld q) = false) := fun h => Bool.noConfusion (hm.symm.trans h.2)
  refine ⟨s.performAtHome k sl f q, ?_, ?_, performAtHome_answered hsp (requestOf_of_slot hs hf hq) hgo⟩
  · rw [exec_awtConditionMet_own hs hf hq hop harr hres hpoison hk, hm]
    rfl
  · rw [performAtHome_mem hgo, written_awt hop]
    rfl

theorem exec_awtConditionMet_unmet (hs : s.slot k = some sl) (hf : sl.firing = some f) (hq : f.request = some q) (hop : q.op = 0xA6)
    (harr : q.arrived = true) (hres : q.result = none) (hpoison : s.atomicPoison q = false) (hsp : s.mm.splices = [])
    (hk : k < peerWaitBase)
    (hmet : ¬ awaits q.type (q.c.toNat % 4) (valueOf q.type (extended q.type (oldOf s q))) (valueOf q.type q.b)) :
    idles (.awtConditionMet k) s := by
  have hm : ¬ q.met (s.atomicOld q) = true := fun h => hmet ((met_atomicOld hsp).1 h)
  unfold idles
  rw [exec_awtConditionMet_own hs hf hq hop harr hres hpoison hk, if_neg hm]

end

/-! ### Tags (08 R167) -/

/-- A home that has just noted a tag as performed answers DONE with its result. -/
theorem tagAnswer_noted {s t : State} {home key : Nat} {v : Dword} {y : TagSync}
    (htags : t.en.tags = (s.noteTag home key (some v) y).en.tags) (hclock : t.clock = s.clock) : (t.tagAnswer home key).1 = (0, v) := by
  unfold State.tagAnswer State.tagsSince
  rw [htags, hclock]
  simp [State.noteTag]

theorem tagRefused_noted (s : State) (home key : Nat) (y : TagSync) : (s.noteTag home key none y).tagRefused home key = true := by
  simp [State.tagRefused, State.noteTag]

/-! ### Requests of peers (08 R163, R166, R167; 20 R366) -/

section
variable {s : State} {pkg slot age cove gen : Nat} {q : AtomicReq}

/-- The bytes that the home writes for a peer. -/
theorem performPeer_mem (hsp : s.mm.splices = []) :
    (s.performPeer pkg slot q).mm.mem = writeEach s.mm.mem (homeWrites q.pa q.type.bytes (q.written (s.atomicOld q)).1) := by
  unfold State.performPeer
  extract_lets old ws
  have hws : ws = homeWrites q.pa q.type.bytes (q.written (s.atomicOld q)).1 := by
    unfold ws
    rw [spliceHome_nil hsp]
    cases (q.written (s.atomicOld q)).1 <;> rfl
  rw [← hws]
  exact peerStore_mem hsp ..

theorem peerStore_frame (s : State) (pkg : Nat) (atomic taint : Bool) (ws : List (Nat × Byte)) :
    s.peerStore pkg atomic taint ws = { s with mm := (s.peerStore pkg atomic taint ws).mm } := by
  unfold State.peerStore
  extract_lets ok w s1
  have hs1 : s1 = { s with mm := s1.mm } := by
    unfold s1
    rw [writeEvent_frame]
  rw [hs1]

/-- What the home sends a peer, and what it notes of the tag. -/
theorem performPeer_outbox (hsp : s.mm.splices = []) : (s.performPeer pkg slot q).outbox =
    .peer pkg "atomic result" q.tag (extended q.type (oldOf s q)).toNat :: s.outbox := by
  unfold State.performPeer
  extract_lets old ws
  rw [peerStore_frame, extend_atomicOld hsp]
  rfl

theorem performPeer_tagAnswer (hsp : s.mm.splices = []) :
    ((s.performPeer pkg slot q).tagAnswer (atomicHome q.pa) (tagKey pkg slot q.tag)).1 = (0, extended q.type (oldOf s q)) := by
  unfold State.performPeer
  extract_lets old ws
  rw [peerStore_frame, extend_atomicOld hsp]
  exact tagAnswer_noted (s := { s with mm := (s.peerStore pkg true false ws).mm }) rfl rfl

theorem performPeer_peerWaits : (s.performPeer pkg slot q).en.peerWaits = s.en.peerWaits := by
  unfold State.performPeer
  extract_lets old ws
  rw [peerStore_frame]
  rfl

/-- AWT of a peer changes no byte. -/
theorem performPeer_mem_awt (hsp : s.mm.splices = []) (hop : q.op = 0xA6) : (s.performPeer pkg slot q).mm.mem = s.mm.mem := by
  rw [performPeer_mem hsp, written_awt hop]
  rfl

theorem peerAtomic_dropped (h : s.peerTakes pkg q.pa cove gen = false ∨ s.tagRefused (atomicHome q.pa) (tagKey pkg slot q.tag) = true) :
    s.peerAtomic pkg slot age cove gen q = s := by
  unfold State.peerAtomic
  rw [if_pos (by simpa using h)]

variable (htakes : s.peerTakes pkg q.pa cove gen = true) (hnot : s.tagRefused (atomicHome q.pa) (tagKey pkg slot q.tag) = false)
include htakes hnot

theorem peerAtomic_old (hage : 1000000 < age) :
    s.peerAtomic pkg slot age cove gen q = s.noteTag (atomicHome q.pa) (tagKey pkg slot q.tag) none {} := by
  unfold State.peerAtomic
  simp [htakes, hnot, hage]

theorem peerAtomic_held (hage : age ≤ 1000000) (hpoison : s.atomicPoison q = false) (hop : q.op = 0xA6)
    (hmet : q.met (s.atomicOld q) = false) : s.peerAtomic pkg slot age cove gen q =
      { s with nextId := s.nextId + 1,
               en.peerWaits := s.en.peerWaits ++ [({ id := s.nextId, pkg := pkg, slot := slot, cove := cove, gen := gen, q := q } : PeerWait)] }.emit
        (.peer pkg "awt acknowledged" q.tag 0) := by
  unfold State.peerAtomic
  simp [htakes, hnot, Nat.not_lt.2 hage, hpoison, hop, hmet]

theorem peerAtomic_performed (hage : age ≤ 1000000) (hpoison : s.atomicPoison q = false)
    (hgo : ¬ (q.op = 0xA6 ∧ q.met (s.atomicOld q) = false)) : s.peerAtomic pkg slot age cove gen q = s.performPeer pkg slot q := by
  have hgo' : ¬ (q.op = 0xA6 ∧ (!q.met (s.atomicOld q)) = true) := by simpa using hgo
  unfold State.peerAtomic
  simp only [htakes, hnot, Nat.not_lt.2 hage, hpoison, hgo']
  simp

end

/-! ### Held AWTs of peers (08 R166) -/

section
variable {s : State} {id : Nat} {w : PeerWait}

theorem exec_awtConditionMet_peer (s : State) (id : Nat) : exec (.awtConditionMet (peerWaitBase + id)) s = .next (s.peerWaitMet id) := by
  change execAwtConditionMet (peerWaitBase + id) s = _
  unfold execAwtConditionMet
  rw [if_pos (Nat.le_add_right ..), Nat.add_sub_cancel_left]

theorem peerWaitMet_taken (hw : (s.en.peerWaits.find? fun x => x.id == id) = some w) (htakes : s.peerTakes w.pkg w.q.pa w.cove w.gen = true) :
    s.peerWaitMet id = if w.q.met (s.atomicOld w.q) then
      { s with en.peerWaits := s.en.peerWaits.filter fun x => x.id != id }.performPeer w.pkg w.slot w.q else s := by
  unfold State.peerWaitMet
  simp [hw, htakes]

end

end Sys2Proof.Proofs

/-! SUPPORT. Lost atomics, and those that reach their homes after all (07 R138; 08 R163, R167; 09 R191). -/

namespace Sys2Proof.Proofs

open Sys2Proof.Machine Sys2Proof.Safety Sys2Proof.Laws

section
variable {s : State} {k since : Nat} {sl : Slot} {f : Firing} {q : AtomicReq}

/-- An atomic on its way to a peer or to the host is lost when its path is down or 200 µs have passed (R167, R168). -/
theorem exec_remoteAtomicTimeout_waits (hs : s.slot k = some sl) (hf : sl.firing = some f) (hq : f.request = some q)
    (hparked : f.parked = some (.atomic since false)) (hdown : ¬ (s.isRemote q.pa = true ∧ s.pathDown (paPkg q.pa) = true))
    (hclock : s.clock < since + 540000) : idles (.remoteAtomicTimeout k) s := by
  have hlate : ¬ since + cycles200us ≤ s.clock := Nat.not_le.2 hclock
  change execRemoteAtomicTimeout k s = .next s
  unfold execRemoteAtomicTimeout
  simp only [hs, hf, hq, hparked]
  rw [if_neg]
  simpa [hlate] using fun _ => hdown

/-- What is kept of a request that was lost on its way. -/
def lostRequest (s : State) (k since : Nat) (sl : Slot) (f : Firing) (q : AtomicReq) : LateRequest :=
  { slot := k, cove := sl.pl.tag, gen := sl.pl.gen, key := tagKey s.dv.pkg k q.tag, since := since, q := q,
    sync := s.atomicSync k sl f q [] [] }

theorem exec_remoteAtomicTimeout_lost (hs : s.slot k = some sl) (hf : sl.firing = some f) (hq : f.request = some q)
    (hparked : f.parked = some (.atomic since false)) (hfar : s.isRemote q.pa = true ∨ paHost q.pa = true)
    (hlost : (s.isRemote q.pa = true ∧ s.pathDown (paPkg q.pa) = true) ∨ since + 540000 ≤ s.clock) :
    exec (.remoteAtomicTimeout k) s = .next (
      let s1 := s.takeTrap k (lostTrap q)
      if q.arrived then s1.rerelease (s.atomicSync k sl f q q.events q.own) false
      else { s1 with en.late := s1.en.late ++ [lostRequest s k since sl f q] }.later (.atomicAtHome k)) := by
  change execRemoteAtomicTimeout k s = _
  unfold execRemoteAtomicTimeout
  simp only [hs, hf, hq, hparked]
  rw [if_pos]
  · split <;> rfl
  · refine ⟨hfar, ?_⟩
    exact hlost.imp (fun h => Bool.and_eq_true_iff.2 h) (fun h => decide_eq_true h)

/-- A lost atomic hands nothing of its own on (07 R138). -/
theorem rerelease_rel {s : State} {y : TagSync} {e : WriteEvent} (he : e ∈ (s.rerelease y false).mm.order.events) (hown : e.num ∈ y.own) :
    e.rel = (s.handed y.reads).1 := by
  unfold State.rerelease at he
  extract_lets h set at he
  obtain ⟨e0, -, rfl⟩ := List.mem_map.1 he
  have hnum : (set e0).num = e0.num := by
    unfold set
    split <;> rfl
  have hin : y.own.contains e0.num = true := by simpa [hnum] using hown
  simp only [set, if_pos hin]
  rfl

end

/-! ### Late arrivals (07 R138; 09 R191) -/

section
variable {s : State} {k : Nat} {l : LateRequest}

theorem exec_own_late (hflight : s.inFlight k = none)
    (hl : (s.en.late.find? fun l => l.slot == k && !(s.isRemote l.q.pa && s.pathDown (paPkg l.q.pa))) = some l) :
    exec (.atomicAtHome (.own k)) s = .next (s.lateArrival l) := by
  change execAtomicAtHome (.own k) s = _
  unfold execAtomicAtHome
  simp only [hflight, hl]

theorem slot_of_late (hl : (s.en.late.find? fun l => l.slot == k && !(s.isRemote l.q.pa && s.pathDown (paPkg l.q.pa))) = some l) :
    l.slot = k := by
  have := List.find?_some hl
  simp only [Bool.and_eq_true, beq_iff_eq] at this
  exact this.1

/-- The state without a late request. -/
def withoutLate (s : State) (l : LateRequest) : State := { s with en.late := s.en.late.filter fun x => x != l }

section
variable (htakes : s.homeTakes l.q.pa l.cove l.gen = true) (hnot : s.tagRefused (atomicHome l.q.pa) l.key = false)
  (hpoison : s.atomicPoison l.q = false) (hop : l.q.op ≠ 0xA6)
include htakes hnot hpoison hop

/-- A home refuses what was issued more than 1 ms before (R167). -/
theorem lateArrival_refused (hremote : s.isRemote l.q.pa = true) (hclock : l.since + 2700000 < s.clock) :
    s.lateArrival l = (withoutLate s l).noteTag (atomicHome l.q.pa) l.key none {} := by
  have hold : l.since + cycles1ms < s.clock := hclock
  unfold State.lateArrival
  simp [htakes, hnot, hpoison, hop, hremote, hold, withoutLate]

theorem lateArrival_performs (hdet : ∀ sl, s.slot l.slot = some sl → sl.detl = 0) (hclock : s.clock ≤ l.since + 2700000) :
    s.lateArrival l = (withoutLate s l).performLate l := by
  have hnew : ¬ l.since + cycles1ms < s.clock := Nat.not_lt.2 hclock
  unfold State.lateArrival
  cases hs : s.slot l.slot with
  | none => simp [htakes, hnot, hpoison, hop, hnew, withoutLate]
  | some sl =>
    have hfree : ∀ ctx lnch same, s.forced 0 ctx 1 lnch l.q.site same = .free := fun _ _ _ => rfl
    simp [htakes, hnot, hpoison, hop, hnew, hdet sl hs, hfree, withoutLate]

theorem lateArrival_held {sl : Slot} (hs : s.slot l.slot = some sl) (hclock : s.clock ≤ l.since + 2700000)
    (hhold : s.forced sl.detl sl.pl.ctx 1 (s.launchOf sl.pl.cfg) l.q.site (fun x => x == l.q.subj) = .hold) : s.lateArrival l = s := by
  have hnew : ¬ l.since + cycles1ms < s.clock := Nat.not_lt.2 hclock
  unfold State.lateArrival
  simp [htakes, hnot, hpoison, hop, hnew, hs, hhold]

end

theorem performLate_mem (hsp : s.mm.splices = []) (htakes : s.homeTakes l.q.pa l.cove l.gen = true) (hp : performable l.q) :
    (s.performLate l).mm.mem = writeEach s.mm.mem (homeWrites l.q.pa l.q.type.bytes (newOf s l.q)) := by
  obtain ⟨-, -, -, haligned⟩ := id hp
  have hwrite := atomicWrite_mem (w := { tag := l.cove, gen := l.gen, unit := tileOf l.slot }) hsp htakes haligned (newOf s l.q)
  rw [← written_atomicOld hsp hp] at hwrite ⊢
  unfold State.performLate
  extract_lets old reads s1 own
  split <;> exact hwrite

theorem performLate_tagAnswer (hsp : s.mm.splices = []) (hremote : s.isRemote l.q.pa = true) :
    ((s.performLate l).tagAnswer (atomicHome l.q.pa) l.key).1 = (0, extended l.q.type (oldOf s l.q)) := by
  unfold State.performLate
  extract_lets old reads s1 own
  rw [if_pos hremote, ← extend_atomicOld hsp]
  exact tagAnswer_noted (s := s1) rfl rfl

end

/-- A home's answer of a tag is sent; until then nothing has left. -/
theorem emit_tagAnswer (s : State) (home key : Nat) (e : Emission) :
    (s.tagAnswer home key).2.emit e = { (s.tagAnswer home key).2 with outbox := e :: s.outbox } := by
  have hbefore : (s.tagAnswer home key).2.outbox = s.outbox := by
    unfold State.tagAnswer
    split
    · split <;> rfl
    · rfl
  rw [State.emit, hbefore]

/-- Settles O36: each event's outcome is the state that the lemmas above describe. -/
theorem atomicsAtTheirHomes : Obligations.AtomicsAtTheirHomes := by
  unfold Obligations.AtomicsAtTheirHomes
  refine ⟨fun s k sl f q harr hwf hsp hdet hp => exec_own_performs harr hwf hsp hdet hp,
    fun s k sl f q since harr hparked hop hsp hdet hturn => exec_heldAtomicRelease_turn harr hparked hop hsp hdet hturn,
    fun s k sl f q hs hf hq harr htakes => exec_own_dropped hs hf hq harr htakes,
    ?peer, fun s pkg slot tag pa => ⟨_, rfl, emit_tagAnswer ..⟩, ?awt, ?peerAwt, ?timeout, ?late, ?lateHeld⟩
  case peer =>
    intro s pkg slot tag age cove gen op ty pa b c rm sat sr hwf hsp q i key
    have hexec : exec i s = .next (s.peerAtomic pkg slot age cove gen q) := rfl
    have hclean : s.mm.poison.contains (pa / 64) = false → s.atomicPoison q = false :=
      (atomicPoison_nil (q := q) hsp).trans
    refine ⟨fun hdrop => hexec.trans (congrArg _ (peerAtomic_dropped hdrop)), fun htakes hnot => ⟨fun hage => ?_, fun hage hpoison hp => ?_,
      fun hage hpoison hop hint => ⟨fun hmet => ?_, fun hmet => ?_⟩⟩⟩
    · exact ⟨_, hexec.trans (congrArg _ (peerAtomic_old htakes hnot hage)), rfl, tagRefused_noted ..⟩
    · refine ⟨_, hexec.trans (congrArg _ (peerAtomic_performed htakes hnot hage (hclean hpoison) (not_awt_of_performable hp _))), ?_,
        performPeer_tagAnswer hsp, performPeer_outbox hsp⟩
      exact wroteAt_of_mem hwf ((performPeer_mem hsp).trans (by rw [written_atomicOld hsp hp]; rfl))
    · have hm : q.met (s.atomicOld q) = true := (met_atomicOld hsp).2 hmet
      exact ⟨_, hexec.trans (congrArg _ (peerAtomic_performed htakes hnot hage (hclean hpoison) (by simp [hm]))), performPeer_mem_awt hsp hop,
        performPeer_outbox hsp⟩
    · have hm : q.met (s.atomicOld q) = false := Bool.eq_false_iff.2 fun h => hmet ((met_atomicOld hsp).1 h)
      exact ⟨_, hexec.trans (congrArg _ (peerAtomic_held htakes hnot hage (hclean hpoison) hop hm)), rfl, rfl, rfl⟩
  case awt =>
    intro s k sl f q hs hf hq hop harr hres _ hpoison hsp hk v
    exact ⟨exec_awtConditionMet_met hs hf hq hop harr hres hpoison hsp hk, exec_awtConditionMet_unmet hs hf hq hop harr hres hpoison hsp hk⟩
  case peerAwt =>
    intro s id w hw htakes hop _ hsp v
    have hexec := (exec_awtConditionMet_peer s id).trans (congrArg _ (peerWaitMet_taken hw htakes))
    refine ⟨fun hmet => ?_, fun hmet => ?_⟩
    · rw [if_pos ((met_atomicOld hsp).2 hmet)] at hexec
      exact ⟨_, hexec, performPeer_mem_awt (s := { s with en.peerWaits := _ }) hsp hop, performPeer_peerWaits,
        performPeer_outbox (s := { s with en.peerWaits := _ }) hsp⟩
    · rwa [if_neg fun h => hmet ((met_atomicOld hsp).1 h)] at hexec
  case timeout =>
    intro s k sl f q since hs hf hq hparked down t
    refine ⟨fun hfar hlost => ?_, exec_remoteAtomicTimeout_waits hs hf hq hparked⟩
    have hexec := exec_remoteAtomicTimeout_lost hs hf hq hparked hfar hlost
    refine ⟨fun harr => ?_, fun harr => ?_⟩
    · rw [if_pos harr] at hexec
      exact ⟨_, hexec, rfl, rfl, rfl, fun e he hown => rerelease_rel he hown⟩
    · rw [if_neg (Bool.eq_false_iff.1 harr)] at hexec
      exact ⟨_, hexec, rfl, rfl, s.atomicSync k sl f q [] [], rfl, rfl, rfl, rfl, rfl⟩
  case late =>
    intro s k l hflight hl hdet htakes hnot hpoison hwf hsp hp hremote
    have hexec := exec_own_late hflight hl
    have hop : l.q.op ≠ 0xA6 := fun h => not_awt_of_performable hp True ⟨h, trivial⟩
    refine ⟨fun hclock => ?_, fun hclock => ?_⟩
    · rw [lateArrival_performs htakes hnot hpoison hop (slot_of_late hl ▸ hdet) hclock] at hexec
      exact ⟨_, hexec, wroteAt_of_mem hwf (performLate_mem (s := withoutLate s l) hsp htakes hp),
        performLate_tagAnswer (s := withoutLate s l) hsp hremote⟩
    · rw [lateArrival_refused htakes hnot hpoison hop hremote hclock] at hexec
      exact ⟨_, hexec, rfl, tagRefused_noted ..⟩
  case lateHeld =>
    intro s k l sl hflight hl hs htakes hnot hpoison hop hclock hhold
    exact (exec_own_late hflight hl).trans
      (congrArg _ (lateArrival_held htakes hnot hpoison hop ((slot_of_late hl).symm ▸ hs) hclock hhold))

end Sys2Proof.Proofs

/-! SUPPORT. A tainted firing scatters two elements with a combination to one byte range of its own spill carve (02 R29; 03 R58; 08 R159;
23 R398). -/

namespace Sys2Proof.Proofs

open Sys2Proof.Machine Sys2Proof.Safety Sys2Proof.Laws

/-- A firing of the bare actor that is tainted, CHKI.PSN cleared as MTSR can clear it (21 R374): g5 addresses the first byte of its
spill carve, g7 names v63 as the offset vector of zeros, and p1 enables elements 0 and 1. -/
def taintedFiring : Firing :=
  let f := State.reset.newFiring 0 (bareSlot 0) 0 false
  { f with tainted := true, r := { (f.r.setG 5 4096).setG 7 63 with p := f.r.p.set 1 3 } }

/-- The slot of that firing, and the package in which it runs on tile 0. -/
def taintedSlot : Slot := { bareSlot 0 with firing := some taintedFiring }
def taintedRun : State := (State.reset.placeBare 0).putFiring 0 (bareSlot 0) taintedFiring

/-- VSCT of v2 at `[g5 + v[g7]]` under p1, adding wrapped 32-bit integers. -/
def spillScatter : MFields :=
  { guard := .always, ty := .i32, d := .v 2, base := .g 5, index := .g 7, disp := 1, pm := 1, sp := .tile, scl := 0, co := false, ns := false }

theorem taintedRun_runs : Runs taintedRun 0 taintedSlot taintedFiring .always := ⟨by rfl, rfl⟩

theorem taintedRun_laidOut : laidOut taintedSlot 0 taintedFiring :=
  ⟨by decide, by decide, by decide, by decide, fun _ _ _ => rfl⟩

/-- CHKI of the firing that runs in a state, and in the state that an outcome goes on to. -/
def runningChki (t : State) : Option Dword := t.current.map fun c => c.2.2.r.sys.chki
def chkiAfter : Host.Outcome State Fault Refusal → Option Dword
  | .next t => runningChki t
  | _ => none

/-- The first element poisons the line of the spill carve that it writes; the second reads it, and CHKI.PSN is set (23 R398). -/
theorem spillScatter_sets_psn : chkiAfter (exec (.vsct spillScatter) taintedRun) = some 1 := by decide +kernel

/-- Refutes O19: a VSCT with a combination may change a system register other than FCSR. Where a tainted firing adds two elements at one
place of its own spill carve, the line is poisoned by the first of them and read by the second, which sets CHKI.PSN; the statement asks
that no byte there be poisoned beforehand and not that the firing be untainted. -/
theorem not_storesAreBuffered : ¬ Obligations.StoresAreBuffered := by
  intro h
  obtain ⟨-, hvector⟩ := h
  obtain ⟨-, -, -, hcombine, -⟩ := hvector taintedRun 0 taintedSlot taintedFiring spillScatter taintedRun_runs ⟨2, rfl⟩
  have hquiet : quiet taintedFiring.r := ⟨by decide +kernel, by decide +kernel⟩
  have helems : elemsOf spillScatter (min 64 (2048 / spillScatter.ty.bits)) taintedFiring.r = [0, 1] := by decide +kernel
  have hlocs : taintedRun.accessLocs 0 taintedSlot taintedFiring spillScatter.sp 4096 spillScatter.ty.bytes true =
      .ok [.carve 0 4096, .carve 0 4097, .carve 0 4098, .carve 0 4099] := by decide +kernel
  have hbelow : ∀ l ∈ [Loc.carve 0 4096, .carve 0 4097, .carve 0 4098, .carve 0 4099], ∀ j b, l = .carve j b → b < 4194304 := by
    simp only [List.mem_cons, List.not_mem_nil, or_false]
    rintro l (rfl | rfl | rfl | rfl) j b hb <;> cases hb <;> decide
  obtain ⟨t, u, g, hexec, hcurrent, -, hsame, -⟩ := hcombine (by decide) (.inl rfl) (by decide +kernel) hquiet taintedRun_laidOut rfl rfl 4096 _
    (by simp [helems]) (by rw [helems]; decide +kernel) rfl hlocs hbelow (by decide +kernel) (by decide +kernel)
  obtain ⟨-, -, -, -, -, -, z, hsys⟩ := hsame
  have hkept : runningChki t = some 0 := by
    rw [runningChki, hcurrent, Option.map_some, hsys]
    rfl
  have hset : runningChki t = some 1 := by rw [← spillScatter_sets_psn, hexec, chkiAfter]
  exact absurd (hkept.symm.trans hset) (by decide)

end Sys2Proof.Proofs

/-! SUPPORT. The barrier instructions and EVSIG (02 R34, R35; 07 R141; 08 R171 to R173). -/

namespace Sys2Proof.Proofs

open Sys2Proof.Machine Sys2Proof.Safety Sys2Proof.Laws

/-- A meaning goes on with what its first part gives. -/
theorem ok_bind {α β : Type} (a : α) (g : α → Except Stop β) : (Except.ok a >>= g) = g a := rfl

/-! ### The step to irrevocable (02 R34, R35) -/

theorem irrevocable_binds {s : State} {k : Nat} {sl : Slot} {f : Firing} (h : mayBind s k sl f) (i : Instr) (op : Nat) :
    s.irrevocable k sl (f.executed op) i = .ok { f.executed op with irr := true } := by
  unfold State.irrevocable
  by_cases hi : f.irr = true
  · rw [executed_irr, if_pos hi]
    exact congrArg (fun b => Except.ok { f.executed op with irr := b }) hi
  · obtain ⟨hs, hl⟩ := h.resolve_left hi
    rw [executed_irr, if_neg hi, executed_r, if_neg (by simp [hl]), show isSurrogate sl (f.executed op) = false from hs, if_neg (by simp)]
    rfl

theorem irrevocable_surrogate {s : State} {k : Nat} {sl : Slot} {f : Firing} (hi : f.irr = false)
    (hl : s.lowerDone k f.r.stamp.toNat sl.pl.rank = true) (hs : isSurrogate sl f = true) (i : Instr) (op : Nat) :
    s.irrevocable k sl (f.executed op) i = .error (.trap { code := 0x12, info := (encode i).getD 0 }) := by
  unfold State.irrevocable
  rw [executed_irr, if_neg (by simp [hi]), executed_r, if_neg (by simp [hl]), show isSurrogate sl (f.executed op) = true from hs, if_pos rfl]
  rfl

/-- What is no release waits for the commands before the last release fence alone (07 R135). -/
theorem releaseReady_plain {s : State} {g : Firing} (h : s.commandsEnded g.fenced = true) : s.releaseReady g false = true := by
  simp [State.releaseReady, h]

/-! ### Barrier numbers and what a barrier must be (08 R171, R172) -/

theorem barrierNumber_below {v : Dword} (h : v.toNat < 4096) : barrierNumber v = .ok v.toNat := if_pos h

theorem barrierNumber_beyond {v : Dword} (h : 4096 ≤ v.toNat) : barrierNumber v = .error (.trap { code := 0x09, info := v }) := by
  rw [barrierNumber, if_neg (Nat.not_lt.2 h), trapInfo_toNat]

/-- A barrier that is live or not, of a size, is what an operation requires. -/
def meets (z : Bool × Nat) : BarrierNeed → Bool
  | .dead => !z.1
  | .live => z.1
  | .counted => z.1 && z.2 == 0
  | .grouped => z.1 && z.2 != 0

theorem meets_counted {z : Bool × Nat} (h : z = (true, 0)) : meets z .counted = true := by rw [h]; rfl

theorem meets_grouped {z : Bool × Nat} (hl : z.1 = true) (hg : z.2 ≠ 0) : meets z .grouped = true := by simp [meets, hl, hg]

section
variable {s : State} {sl : Slot} {f : Firing} {op : Nat} {a : Reg} {need : BarrierNeed}

theorem needBarrier_met (n : Nat) (h : meets (barrierSeen s sl f n) need = true) : s.needBarrier sl.pl.ctx n (f.executed op) need = .ok () := by
  cases need <;> exact if_pos h

theorem needBarrier_unmet {v : Dword} (h : meets (barrierSeen s sl f v.toNat) need = false) :
    s.needBarrier sl.pl.ctx v.toNat (f.executed op) need = .error (.trap { code := 0x09, info := v }) := by
  rw [← trapInfo_toNat]
  cases need <;> exact if_neg (Bool.eq_false_iff.1 h)

/-! ### Operations that wait for the commit (08 R171, R172) -/

variable {arg : Dword} {o : Nat → DeferredOp}

theorem deferBarrier_beyond (ok : Bool) (h : 4096 ≤ (f.r.readG a).toNat) :
    s.deferBarrier sl (f.executed op) a need ok arg o = .error (.trap { code := 0x09, info := f.r.readG a }) := by
  rw [State.deferBarrier, executed_r, barrierNumber_beyond h]
  rfl

theorem deferBarrier_unmet (ok : Bool) (h : (f.r.readG a).toNat < 4096) (hm : meets (barrierSeen s sl f (f.r.readG a).toNat) need = false) :
    s.deferBarrier sl (f.executed op) a need ok arg o = .error (.trap { code := 0x09, info := f.r.readG a }) := by
  rw [State.deferBarrier, executed_r, barrierNumber_below h, ok_bind, needBarrier_unmet hm]
  rfl

theorem deferBarrier_met {ok : Bool} (h : (f.r.readG a).toNat < 4096) (hm : meets (barrierSeen s sl f (f.r.readG a).toNat) need = true)
    (hok : ok = true) : s.deferBarrier sl (f.executed op) a need ok arg o = .ok (deferring f op (o (f.r.readG a).toNat)) := by
  rw [State.deferBarrier, executed_r, barrierNumber_below h, ok_bind, needBarrier_met _ hm, hok]
  rfl

end

/-- A value in range of the 48-bit count of a barrier is the extension of its low 48 bits. -/
theorem sext48_toNat (v : Dword) : sext 48 v.toNat = (v.setWidth 48).signExtend 64 := by
  rw [sext, BitVec.ofNat_toNat]
  rfl

/-- The 64-bit object: LIVE, ERR, the epoch and the count. -/
theorem object_eq (b : Barrier) : b.object = BitVec.ofNat 64
    ((if b.live then 2 ^ 63 else 0) + (if b.err then 2 ^ 62 else 0) + b.epoch % 16384 * 2 ^ 48 + b.count.toNat) := by
  simp only [Barrier.object, bit, ite_mul, one_mul, zero_mul]

/-! ### Waits at a barrier (08 R171, R172) -/

section
variable {s : State} {sl : Slot} {f : Firing} {op : Nat} {a b : Reg}

theorem waitBarrier_beyond (h : 4096 ≤ (f.r.readG a).toNat) :
    s.waitBarrier sl (f.executed op) a = .error (.trap { code := 0x09, info := f.r.readG a }) := by
  rw [State.waitBarrier, executed_r, barrierNumber_beyond h]
  rfl

theorem waitGroup_beyond (h : 4096 ≤ (f.r.readG a).toNat) :
    s.waitGroup sl (f.executed op) a b = .error (.trap { code := 0x09, info := f.r.readG a }) := by
  rw [State.waitGroup, executed_r, barrierNumber_beyond h]
  rfl

variable (h : (f.r.readG a).toNat < 4096)
include h

/-- At a counting barrier: the wait ends where its count is zero. -/
theorem waitBarrier_counted (hm : meets (barrierSeen s sl f (f.r.readG a).toNat) .counted = true) :
    s.waitBarrier sl (f.executed op) a =
      let x := s.barrier (sl.pl.ctx * 4096 + (f.r.readG a).toNat)
      if x.count ≠ 0 then .error (.wait (.barrier (f.r.readG a).toNat))
      else if x.err then .error (.trap { code := statusTrap x.status, info := BitVec.ofNat 64 (f.r.readG a).toNat,
                                         aux := BitVec.ofNat 64 (x.status * 256 + 65536), eng := true })
      else .ok ((f.executed op).gain x.carry) := by
  rw [State.waitBarrier, executed_r, barrierNumber_below h, ok_bind, needBarrier_met _ hm]
  cases sl.waited <;> rfl

/-- At a group barrier: the wait ends where it has passed the epoch. -/
theorem waitGroup_grouped (hm : meets (barrierSeen s sl f (f.r.readG a).toNat) .grouped = true) (he : (f.r.readG b).toNat < 16384) :
    s.waitGroup sl (f.executed op) a b =
      let x := s.barrier (sl.pl.ctx * 4096 + (f.r.readG a).toNat)
      if !x.passed (f.r.readG b).toNat then .error (.wait (.group (f.r.readG a).toNat (f.r.readG b).toNat))
      else .ok ((f.executed op).gain x.carry) := by
  rw [State.waitGroup, executed_r, barrierNumber_below h, ok_bind, needBarrier_met _ hm]
  simp only [if_neg (Nat.not_le.2 he)]
  cases sl.waited <;> rfl

end

/-! ### The outcomes of the barrier instructions (08 R171, R172) -/

section
variable {s : State} {k : Nat} {sl : Slot} {f : Firing} {x : RFields} (h : Runs s k sl f x.guard)
include h

theorem barinit_outcome : exec (.barinit x) s = firingOutcome s k sl
    (let okV := decide (f.r.readG x.b = sext 48 (f.r.readG x.b).toNat)
     s.deferBarrier sl (f.executed 0xAC) x.a .dead (okV && decide ((f.r.readG x.c).toNat ≤ 65535)) (if okV then f.r.readG x.c else f.r.readG x.b)
       fun n => .barInit n ((f.r.readG x.b).toNat % 2 ^ 48) (f.r.readG x.c).toNat) :=
  exec_runsFiring (show execBarinit x s = _ from rfl) h rfl rfl rfl

theorem baradd_outcome : exec (.baradd x) s = firingOutcome s k sl (s.deferBarrier sl (f.executed 0xAD) x.a .counted
    (decide ((f.r.readG x.b).toNat < 2 ^ 48)) (f.r.readG x.b) fun n => .barAdd n (f.r.readG x.b).toNat) :=
  exec_runsFiring (show execBaradd x s = _ from rfl) h rfl rfl rfl

theorem barsub_outcome : exec (.barsub x) s = firingOutcome s k sl (s.deferBarrier sl (f.executed 0xAE) x.a .counted true 0
    fun n => .barSub n (f.r.readG x.b).toNat) :=
  exec_runsFiring (show execBarsub x s = _ from rfl) h rfl rfl rfl

theorem barwait_outcome : exec (.barwait x) s = firingOutcome s k sl (s.waitBarrier sl (f.executed 0xAF) x.a) :=
  exec_runsFiring (show execBarwait x s = _ from rfl) h rfl rfl rfl

theorem barfree_outcome : exec (.barfree x) s = firingOutcome s k sl (s.deferBarrier sl (f.executed 0xB1) x.a .live true 0 .barFree) :=
  exec_runsFiring (show execBarfree x s = _ from rfl) h rfl rfl rfl

theorem gbara_outcome : exec (.gbara x) s = firingOutcome s k sl (s.deferBarrier sl (f.executed 0xB2) x.a .grouped
    (decide ((f.r.readG x.b).toNat < 16384)) (f.r.readG x.b) fun n => .groupArrive n (f.r.readG x.b).toNat) :=
  exec_runsFiring (show execGbara x s = _ from rfl) h rfl rfl rfl

theorem gbarw_outcome : exec (.gbarw x) s = firingOutcome s k sl (s.waitGroup sl (f.executed 0xB3) x.a x.b) :=
  exec_runsFiring (show execGbarw x s = _ from rfl) h rfl rfl rfl

/-- BARRD reads the object of a live barrier. -/
theorem barrd_outcome : exec (.barrd x) s = firingOutcome s k sl (do
    let n ← barrierNumber (f.r.readG x.a)
    s.needBarrier sl.pl.ctx n (f.executed 0xB0) .live
    .ok { f.executed 0xB0 with r := f.r.writeG x.d (s.barrier (sl.pl.ctx * 4096 + n)).object }) :=
  exec_runsFiring (show execBarrd x s = _ from rfl) h rfl rfl rfl

theorem barrd_beyond (hn : 4096 ≤ (f.r.readG x.a).toNat) : exec (.barrd x) s = traps s k { code := 0x09, info := f.r.readG x.a } := by
  rw [barrd_outcome h, barrierNumber_beyond hn]
  rfl

theorem barrd_dead (hn : (f.r.readG x.a).toNat < 4096) (hm : meets (barrierSeen s sl f (f.r.readG x.a).toNat) .live = false) :
    exec (.barrd x) s = traps s k { code := 0x09, info := f.r.readG x.a } := by
  rw [barrd_outcome h, barrierNumber_below hn, ok_bind, needBarrier_unmet hm]
  rfl

theorem barrd_live (hn : (f.r.readG x.a).toNat < 4096) (hm : meets (barrierSeen s sl f (f.r.readG x.a).toNat) .live = true) :
    exec (.barrd x) s =
      wrote s k sl f 0xB0 (f.r.writeG x.d (s.barrier (sl.pl.ctx * 4096 + (f.r.readG x.a).toNat)).object) := by
  rw [barrd_outcome h, barrierNumber_below hn, ok_bind, needBarrier_met _ hm]
  rfl

/-- A number of 4,096 or more names no barrier. -/
theorem barriers_beyond (hn : 4096 ≤ (f.r.readG x.a).toNat) {i : Instr}
    (hi : i ∈ [Instr.barinit x, .baradd x, .barsub x, .barwait x, .barrd x, .barfree x, .gbara x, .gbarw x]) :
    exec i s = traps s k { code := 0x09, info := f.r.readG x.a } := by
  simp only [List.mem_cons, List.not_mem_nil, or_false] at hi
  obtain rfl | rfl | rfl | rfl | rfl | rfl | rfl | rfl := hi
  · exact (barinit_outcome h).trans (congrArg _ (deferBarrier_beyond _ hn))
  · exact (baradd_outcome h).trans (congrArg _ (deferBarrier_beyond _ hn))
  · exact (barsub_outcome h).trans (congrArg _ (deferBarrier_beyond _ hn))
  · exact (barwait_outcome h).trans (congrArg _ (waitBarrier_beyond hn))
  · exact barrd_beyond h hn
  · exact (barfree_outcome h).trans (congrArg _ (deferBarrier_beyond _ hn))
  · exact (gbara_outcome h).trans (congrArg _ (deferBarrier_beyond _ hn))
  · exact (gbarw_outcome h).trans (congrArg _ (waitGroup_beyond hn))

/-! ### EVSIG (08 R173) -/

theorem evsig_outcome : exec (.evsig x) s = stateOutcome s k (do
    if 255 < (f.r.readG x.a).toNat then throw (trapInfo 0x09 (f.r.readG x.a).toNat)
    let g ← s.irrevocable k sl (f.executed 0xB6) (.evsig x)
    if !s.releaseReady g false then throw (.wait .commands)
    return (s.putFiring k sl g).postEvent sl.pl.ctx (f.r.readG x.a).toNat (f.r.readG x.b)) :=
  exec_runsInst (show execEvsig x s = _ from rfl) h rfl rfl rfl

theorem evsig_beyond (hn : 255 < (f.r.readG x.a).toNat) : exec (.evsig x) s = traps s k { code := 0x09, info := f.r.readG x.a } := by
  rw [evsig_outcome h, if_pos hn, trapInfo_toNat]
  rfl

theorem evsig_posts (hn : (f.r.readG x.a).toNat ≤ 255) (hb : mayBind s k sl f) (hc : s.commandsEnded f.fenced = true) : exec (.evsig x) s =
    leaves ((s.putFiring k sl { f.executed 0xB6 with irr := true }).postEvent sl.pl.ctx (f.r.readG x.a).toNat (f.r.readG x.b)) := by
  have hready : s.releaseReady { f.executed 0xB6 with irr := true } false = true := releaseReady_plain hc
  rw [evsig_outcome h, if_neg (Nat.not_lt.2 hn), irrevocable_binds hb]
  simp only [ok_bind, hready]
  rfl

theorem evsig_surrogate (hn : (f.r.readG x.a).toNat ≤ 255) (hi : f.irr = false) (hl : s.lowerDone k f.r.stamp.toNat sl.pl.rank = true)
    (hs : isSurrogate sl f = true) : exec (.evsig x) s = traps s k { code := 0x12, info := (encode (.evsig x)).getD 0 } := by
  rw [evsig_outcome h, if_neg (Nat.not_lt.2 hn), irrevocable_surrogate hi hl hs]
  rfl

end

theorem postEvent_events (s : State) (ctx num : Nat) (payload : Dword) :
    ((s.postEvent ctx num payload).ctx ctx).events = (s.ctx ctx).events ++ [(num, payload)] :=
  congrArg Ctx.events (setCtx_ctx s ctx _)

/-- Settles O24: where its number and its barrier are what it requires each operation is deferred, waits or goes on, and it traps else;
EVSIG becomes irrevocable and posts. -/
theorem barriersAndEvents : Obligations.BarriersAndEvents := by
  refine ⟨fun s k sl f x h => ⟨fun hn => ?_, fun hn i hi => barriers_beyond h hn hi⟩,
    fun s k sl f x h => ⟨fun hn hb hc => ⟨evsig_posts h hn hb hc, _, evsig_posts h hn hb hc, postEvent_events _ _ _ _⟩, evsig_beyond h,
      evsig_surrogate h⟩⟩
  refine ⟨fun hd hv hsize => ?barinit, fun hl => ?barinitLive, fun hz hv => ?baradd, fun hz => ?barsub, fun hz hc he => ?barwait,
    fun hz hc => ?barwaitWaits, fun hl => ?barrd, fun hl => ?barfree, fun hl hg hv => ?gbara, fun hl hg hv hp => ?gbarw,
    fun hl hg hv hp => ?gbarwWaits, fun hd => ⟨barrd_dead h hn hd, ?barfreeDead⟩⟩
  case barinit =>
    rw [barinit_outcome h, deferBarrier_met hn (by simp [meets, hd]) (by simpa [sext48_toNat, hsize] using hv)]
    rfl
  case barinitLive => rw [barinit_outcome h, deferBarrier_unmet _ hn (by simp [meets, hl])]; rfl
  case baradd => rw [baradd_outcome h, deferBarrier_met hn (meets_counted hz) (decide_eq_true hv)]; rfl
  case barsub => rw [barsub_outcome h, deferBarrier_met hn (meets_counted hz) rfl]; rfl
  case barwait =>
    rw [barwait_outcome h, waitBarrier_counted hn (meets_counted hz)]
    simp only [hc, he]
    rfl
  case barwaitWaits =>
    rw [barwait_outcome h, waitBarrier_counted hn (meets_counted hz)]
    simp only [if_pos hc]
    rfl
  case barrd => rw [barrd_live h hn hl, object_eq]
  case barfree => rw [barfree_outcome h, deferBarrier_met (need := .live) hn hl rfl]; rfl
  case gbara => rw [gbara_outcome h, deferBarrier_met hn (meets_grouped hl hg) (decide_eq_true hv)]; rfl
  case gbarw =>
    rw [gbarw_outcome h, waitGroup_grouped hn (meets_grouped hl hg) hv]
    simp only [hp]
    rfl
  case gbarwWaits =>
    rw [gbarw_outcome h, waitGroup_grouped hn (meets_grouped hl hg) hv]
    simp only [hp]
    rfl
  case barfreeDead => rw [barfree_outcome h, deferBarrier_unmet (need := .live) _ hn hd]; rfl

end Sys2Proof.Proofs

/-! SUPPORT. Engine commands, their queries and their cancels (07 R127; 08 R172, R175, R182, R183). -/

namespace Sys2Proof.Proofs

open Sys2Proof.Machine Sys2Proof.Safety Sys2Proof.Laws

/-! ### Capture (08 R175) -/

/-- The block of a command as the firing sees its tile SRAM, with the count of `len` in place. -/
def blockSeen (s : State) (k : Nat) (f : Firing) (op : Nat) (x : EFields) : List Byte :=
  let raw := (List.range (blockSize op)).map fun j => s.readLoc f.b (.carve k ((f.r.readG x.desc).toNat + j))
  if x.len = .g 0 then raw else withCount op raw (f.r.readG x.len)

/-- The block is aligned and lies below SPLIM. -/
def blockLies (sl : Slot) (f : Firing) (op : Nat) (x : EFields) : Prop :=
  (f.r.readG x.desc).toNat % 64 = 0 ∧ (f.r.readG x.desc).toNat + blockSize op ≤ sl.pl.lim * 64

/-- The barrier that a command names, and that it names none of a group (08 R172). -/
def commandBarrier (x : EFields) : Option Nat := if x.bw then some x.bar.toNat else none
def barrierCounts (s : State) (sl : Slot) (f : Firing) (x : EFields) : Prop := x.bw = false ∨ (barrierSeen s sl f x.bar.toNat).2 = 0

section
variable {s : State} {k : Nat} {sl : Slot} {f : Firing} {op : Nat} {x : EFields}

theorem captureBlock_outside (h : (f.r.readG x.desc).toNat % 64 ≠ 0 ∨ sl.pl.lim * 64 < (f.r.readG x.desc).toNat + blockSize op) :
    s.captureBlock k sl (f.executed op) op x = .error (.trap { code := 0x09, info := f.r.readG x.desc }) := by
  rw [State.captureBlock, executed_r, if_pos h, trapInfo_toNat]
  rfl

theorem captureBlock_lies (h : blockLies sl f op x) : s.captureBlock k sl (f.executed op) op x =
    if validBlock op (blockSeen s k f op x) then .ok (blockSeen s k f op x) else .error (.trap { code := 0x03, info := f.r.readG x.desc }) := by
  obtain ⟨ha, hl⟩ := h
  rw [State.captureBlock, executed_r, if_neg (not_or.2 ⟨not_not.2 ha, Nat.not_lt.2 hl⟩), trapInfo_toNat]
  cases hv : validBlock op (blockSeen s k f op x)
  · exact if_pos (congrArg (!·) hv)
  · exact if_neg (Bool.eq_false_iff.1 (congrArg (!·) hv))

theorem captureBarrier_counts (h : barrierCounts s sl f x) : s.captureBarrier sl (f.executed op) x = .ok (commandBarrier x) := by
  unfold State.captureBarrier commandBarrier
  cases hb : x.bw with
  | false => rfl
  | true => exact if_neg (not_not.2 (h.resolve_left (by simp [hb])))

theorem captureBarrier_group (h : ¬ barrierCounts s sl f x) :
    s.captureBarrier sl (f.executed op) x = .error (.trap { code := 0x09, info := x.bar.setWidth 64 }) := by
  obtain ⟨hb, hz⟩ := not_or.1 h
  rw [State.captureBarrier, if_pos (by simpa using hb), trapInfo, BitVec.ofNat_toNat]
  exact if_pos hz

/-! ### Issue (08 R175) -/

variable {i : Instr}

theorem issueCommand_outside (h : (f.r.readG x.desc).toNat % 64 ≠ 0 ∨ sl.pl.lim * 64 < (f.r.readG x.desc).toNat + blockSize op) :
    s.issueCommand k sl (f.executed op) i op x = .error (.trap { code := 0x09, info := f.r.readG x.desc }) := by
  rw [State.issueCommand, captureBlock_outside h]
  rfl

variable (hlies : blockLies sl f op x)
include hlies

theorem issueCommand_invalid (hv : validBlock op (blockSeen s k f op x) = false) :
    s.issueCommand k sl (f.executed op) i op x = .error (.trap { code := 0x03, info := f.r.readG x.desc }) := by
  rw [State.issueCommand, captureBlock_lies hlies, hv]
  rfl

variable (hv : validBlock op (blockSeen s k f op x) = true)
include hv

theorem issueCommand_group (hb : ¬ barrierCounts s sl f x) :
    s.issueCommand k sl (f.executed op) i op x = .error (.trap { code := 0x09, info := x.bar.setWidth 64 }) := by
  rw [State.issueCommand, captureBlock_lies hlies, if_pos hv, ok_bind, captureBarrier_group hb]
  rfl

variable (hb : barrierCounts s sl f x)
include hb

theorem issueCommand_deferred (hd : x.deferred = true) : s.issueCommand k sl (f.executed op) i op x =
    if f.b.commands = 16 then .error (.trap { code := 0x07, info := f.r.readG x.desc })
    else .ok (s.putFiring k sl (deferring f op (.command (captured k sl f op x (blockSeen s k f op x) (commandBarrier x))))) := by
  rw [State.issueCommand, captureBlock_lies hlies, if_pos hv, ok_bind, captureBarrier_counts hb, ok_bind, if_pos hd, executed_r, trapInfo_toNat]
  rfl

theorem issueCommand_immediate (hd : x.deferred = false) (hbind : mayBind s k sl f) (hc : s.commandsEnded f.fenced = true)
    (hroom : s.outstanding k < 64) : s.issueCommand k sl (f.executed op) i op x =
      .ok ((s.putFiring k sl { f.executed op with irr := true, started := f.started ++ [s.nextId] }).startCommand k
        { captured k sl f op x (blockSeen s k f op x) (commandBarrier x) with
            seen := joinEvents (joinEvents f.view.hb f.view.own) (s.groupWrote k) }) := by
  have hready : s.releaseReady { f.executed op with irr := true } false = true := releaseReady_plain hc
  rw [State.issueCommand, captureBlock_lies hlies, if_pos hv, ok_bind, captureBarrier_counts hb, ok_bind, if_neg (by simp [hd]),
    irrevocable_binds hbind]
  simp only [ok_bind, hready, if_neg (Nat.not_le.2 hroom)]
  rfl

end

/-! ### The outcomes of commands, queries and cancels (08 R175, R182, R183) -/

section
variable {s : State} {k : Nat} {sl : Slot} {f : Firing} {x : EFields} {i : Instr} {op : Nat} (h : Runs s k sl f x.guard)
include h

theorem command_outcome
    (hi : (i, op) ∈ [(.cpy x, 0xB8), (.cpyt x, 0xB9), (.cpyxGather x, 0xBA), (.cpyxScatter x, 0xBA), (.cpys x, 0xBB), (.cpyb x, 0xBE),
      (.strm x, 0xBF), (.coll x, 0xC2), (.fill x, 0xC5), (.csum x, 0xC6), (.xferPin x, 0xC7), (.xferUnpin x, 0xC7), (.xferCopyPin x, 0xC7)]) :
    exec i s = stateOutcome s k (s.issueCommand k sl (f.executed op) i op x) := by
  simp only [List.mem_cons, List.not_mem_nil, or_false, Prod.mk.injEq] at hi
  have hrun : ∀ {i op}, exec i s = runCommand i op x s → i.parts = some (op, .e x) →
      exec i s = stateOutcome s k (s.issueCommand k sl (f.executed op) i op x) := fun he hp => exec_runsInst he h hp rfl rfl
  obtain ⟨rfl, rfl⟩ | ⟨rfl, rfl⟩ | ⟨rfl, rfl⟩ | ⟨rfl, rfl⟩ | ⟨rfl, rfl⟩ | ⟨rfl, rfl⟩ | ⟨rfl, rfl⟩ | ⟨rfl, rfl⟩ | ⟨rfl, rfl⟩ | ⟨rfl, rfl⟩ |
    ⟨rfl, rfl⟩ | ⟨rfl, rfl⟩ | ⟨rfl, rfl⟩ := hi <;> exact hrun rfl rfl

theorem query_outcome {fam : Family} (hi : (i, op, fam) ∈ [(Instr.cpyq x, 0xBC, Family.copy), (.strmq x, 0xC0, .stream), (.collq x, 0xC3, .coll)]) :
    exec i s = wrote s k sl f op (f.r.writeG x.desc (s.queryCommand k x.tl.val (f.r.readG x.len).toNat fam)) := by
  simp only [List.mem_cons, List.not_mem_nil, or_false, Prod.mk.injEq] at hi
  have hrun : ∀ {i op}, exec i s = runQuery i op x s → i.parts = some (op, .e x) →
      exec i s = wrote s k sl f op (f.r.writeG x.desc (s.queryCommand k x.tl.val (f.r.readG x.len).toNat (familyOf op))) :=
    fun he hp => exec_runsFiring he h hp rfl rfl
  obtain ⟨rfl, rfl, rfl⟩ | ⟨rfl, rfl, rfl⟩ | ⟨rfl, rfl, rfl⟩ := hi <;> exact hrun rfl rfl

theorem cancel_outcome (hi : (i, op) ∈ [(Instr.cpyk x, 0xBD), (.strmk x, 0xC1), (.collk x, 0xC4)]) :
    exec i s = stateOutcome s k (if x.deferred then .ok (s.putFiring k sl (deferring f op (.cancel op x.tl (f.r.readG x.len).toNat)))
      else (s.irrevocable k sl (f.executed op) i).map fun g => (s.putFiring k sl g).cancel k op x.tl.val (f.r.readG x.len).toNat) := by
  simp only [List.mem_cons, List.not_mem_nil, or_false, Prod.mk.injEq] at hi
  have hrun : ∀ {i op}, exec i s = runCancel i op x s → i.parts = some (op, .e x) → exec i s = _ := fun he hp => exec_runsInst he h hp rfl rfl
  obtain ⟨rfl, rfl⟩ | ⟨rfl, rfl⟩ | ⟨rfl, rfl⟩ := hi <;> exact hrun rfl rfl

end

/-- Settles O25: a command is issued as its block, its barrier and its kind allow; a query reads what `queryCommand` finds, and a cancel is
deferred or takes place at once. -/
theorem engineCommandsAndQueries : Obligations.EngineCommandsAndQueries := by
  refine ⟨fun x i op hi s k sl f h => ?commands, fun x s k sl f h => ⟨fun i op fam hi => query_outcome h hi, fun i op hi => ?cancels⟩⟩
  case commands =>
    have hout := command_outcome h hi
    refine ⟨fun ha hl hv hb hd hn => ?_, fun ha hl hv hb hd hn => ?_, fun ha hl hv hb hd hbind hc hroom => ?_, fun ha hl hv hb => ?_,
      fun ha => ?_, fun ha hl hv => ?_⟩
    · rw [hout, issueCommand_deferred ⟨ha, hl⟩ hv hb hd, if_neg hn]
      rfl
    · rw [hout, issueCommand_deferred ⟨ha, hl⟩ hv hb hd, if_pos hn]
      rfl
    · rw [hout, issueCommand_immediate ⟨ha, hl⟩ hv hb hd hbind hc hroom]
      rfl
    · rw [hout, issueCommand_group ⟨ha, hl⟩ hv hb]
      rfl
    · rw [hout, issueCommand_outside ha]
      rfl
    · rw [hout, issueCommand_invalid ⟨ha, hl⟩ hv]
      rfl
  case cancels =>
    refine ⟨fun hd => ?_, fun hd hbind => ?_⟩
    · rw [cancel_outcome h hi, if_pos hd]
      rfl
    · rw [cancel_outcome h hi, if_neg (by simp [hd]), irrevocable_binds hbind]
      rfl

end Sys2Proof.Proofs

/-! SUPPORT. The address of an atomic and its issue (08 R163, R167, R168; 20 R352 to R356). -/

namespace Sys2Proof.Proofs

open Sys2Proof.Machine Sys2Proof.Safety Sys2Proof.Laws

/-! ### A translation keeps the offset in a page (20 R352 to R355) -/

/-- A leaf maps whole pages of 64 KiB. -/
theorem leafSize_pages (lvl : Nat) : 65536 ∣ leafSize lvl := by
  unfold leafSize
  split
  · exact ⟨2 ^ 24, rfl⟩
  · split
    · exact ⟨2 ^ 12, rfl⟩
    · exact ⟨1, rfl⟩

theorem useLeaf_offset {tag va lvl : Nat} {w : Bool} {e : Dword} {t : Xl} (h : useLeaf tag w va lvl e = .ok t) : t.pa % 65536 = va % 65536 := by
  unfold useLeaf at h
  split at h
  · cases h
  · split at h
    · cases h
    · cases h
      show (bits e 51 16 * 65536 + va % leafSize lvl) % 65536 = _
      rw [Nat.mul_add_mod_self_right, Nat.mod_mod_of_dvd _ (leafSize_pages lvl)]

theorem walkFrom_offset {s : State} {v : View} {tag va : Nat} {w : Bool} {t : Xl} (fuel lvl root : Nat)
    (h : s.walkFrom v tag w va fuel lvl root = .ok t) : t.pa % 65536 = va % 65536 := by
  induction fuel generalizing lvl root with
  | zero => cases h
  | succ fuel ih =>
    simp only [State.walkFrom] at h
    split at h
    · cases h
    · split at h
      · cases h
      · split at h
        · cases h
        · split at h
          · exact useLeaf_offset h
          · exact ih _ _ h

theorem translateLeaf_offset {s : State} {ctx va : Nat} {w : Bool} {t : Xl} (h : s.translateLeaf ctx va w = .ok t) :
    t.pa % 65536 = va % 65536 := by
  unfold State.translateLeaf at h
  split at h
  · exact useLeaf_offset h
  · exact walkFrom_offset _ _ _ h

theorem hostTranslate_offset {s : State} {x t : Xl} (h : s.hostTranslate x = .ok t) : t.pa % 65536 = x.pa % 65536 := by
  unfold State.hostTranslate at h
  split at h
  · split at h
    · cases h
      rw [Nat.mul_add_mod_self_right, Nat.mod_mod]
    · cases h
  · cases h
    rfl

theorem translate_offset {s : State} {ctx va : Nat} {w : Bool} {t : Xl} (h : s.translate ctx va w = .ok t) : t.pa % 65536 = va % 65536 := by
  unfold State.translate at h
  split at h
  · next hx => exact (hostTranslate_offset h).trans (translateLeaf_offset hx)
  · cases h

/-- A physical address is a multiple of the size of a type where the virtual one is. -/
theorem aligned_of_offset {t : Ty} (ht : t ≠ .e2m1) {pa va : Nat} (h : pa % 65536 = va % 65536) (hva : va % t.bytes = 0) : pa % t.bytes = 0 := by
  have hsize : t.bytes = 1 ∨ t.bytes = 2 ∨ t.bytes = 4 ∨ t.bytes = 8 := by revert ht; cases t <;> decide
  rcases hsize with hs | hs | hs | hs <;> rw [hs] at hva ⊢ <;> omega

/-! ### The checks of an atomic (08 R163) -/

section
variable {s : State} {sl : Slot} {f : Firing} {op : Nat} {x : AtomFields}

/-- An address above 2^60 or at no multiple of the size. -/
theorem atomicAddress_outside (hd : sl.detl ≠ 3) (h : 2 ^ 60 ≤ (f.r.readG x.a).toNat ∨ (f.r.readG x.a).toNat % x.ty.bytes ≠ 0) :
    s.atomicAddress sl f op x = .error (.trap { code := 0x09, info := f.r.readG x.a }) := by
  rw [State.atomicAddress, if_neg (fun hf => hd hf.1), ← trapInfo_toNat]
  by_cases hb : 2 ^ 60 ≤ (f.r.readG x.a).toNat
  · exact if_pos hb
  · have ha : aligned (f.r.readG x.a).toNat x.ty.bytes = .error (trapInfo 0x09 (f.r.readG x.a).toNat) := if_neg (h.resolve_left hb)
    rw [if_neg hb, ha]
    rfl

/-- What passes the checks is a multiple of the size and is translated. -/
theorem atomicAddress_ok {pa : Nat} (h : s.atomicAddress sl f op x = .ok pa) :
    (f.r.readG x.a).toNat % x.ty.bytes = 0 ∧ ∃ t, s.translate sl.pl.ctx (f.r.readG x.a).toNat true = .ok t ∧ t.pa = pa := by
  unfold State.atomicAddress aligned at h
  simp only [bind, Except.bind] at h
  split at h
  · cases h
  split at h
  · cases h
  by_cases ha : (f.r.readG x.a).toNat % x.ty.bytes = 0
  · simp only [if_pos ha] at h
    split at h
    · cases h
    split at h
    · cases h
    split at h
    · cases h
    · next t ht =>
      split at h
      · cases h
      · exact ⟨ha, t, ht, Except.ok.inj h⟩
  · simp only [if_neg ha] at h
    cases h

theorem atomicAddress_aligned {pa : Nat} (ht : x.ty ≠ .e2m1) (h : s.atomicAddress sl f op x = .ok pa) : pa % x.ty.bytes = 0 := by
  obtain ⟨ha, t, hx, rfl⟩ := atomicAddress_ok h
  exact aligned_of_offset ht (translate_offset hx) ha

end

/-! ### Issue (08 R163, R168) -/

section
variable {s : State} {k : Nat} {sl : Slot} {f : Firing} {op : Nat} {x : AtomFields}

/-- A firing that has issued a request stands at the atomic and waits for its result. -/
def issued (f : Firing) (q : AtomicReq) : Firing :=
  { f with pc := f.pc - 1, count := f.count - 1, request := some q, ordinals := f.ordinals.put q.site ((f.ordinals.find q.site).getD 0 + 1) }

/-- The firing that issues: irrevocable, at the next index (02 R34). -/
def issuer (f : Firing) (op : Nat) : Firing := { f.executed op with irr := true }

/-- A request to a home of this package arrives at once. -/
theorem issueAtomic_home {g : Firing} {q : AtomicReq} (hl : s.isRemote q.pa = false) (hh : paHost q.pa = false) :
    s.issueAtomic k sl g q = ((s.putFiring k sl (issued g q)).arrival k).finishAtomic k :=
  if_neg (by simp [hl, hh])

/-- A request to a peer or to the host goes on its way. -/
theorem issueAtomic_away {g : Firing} {q : AtomicReq} (h : s.isRemote q.pa = true ∨ paHost q.pa = true) :
    s.issueAtomic k sl g q = ((s.putFiring k { sl with nextTag := (sl.nextTag + bit (s.isRemote q.pa)) % 2 ^ 32 } (issued g q)).park k
      (.atomic s.clock false)).later (.atomicAtHome k) := if_pos h

/-- The request of an atomic: a tag of its own where its home is in another package (R167). -/
def requestFor (s : State) (k : Nat) (sl : Slot) (f : Firing) (op : Nat) (x : AtomFields) (pa : Nat) : AtomicReq :=
  atomicRequest k sl f op x pa (if s.isRemote pa then sl.nextTag else 0)

theorem requestFor_type (s : State) (k : Nat) (sl : Slot) (f : Firing) (op : Nat) (x : AtomFields) (pa : Nat) :
    (requestFor s k sl f op x pa).type = x.ty := by
  show (Ty.ofCode x.ty.code).getD .n64 = x.ty
  rw [tyOfCode_iff.2 rfl, Option.getD_some]

variable {i : Instr} (he : exec i s = runAtomic i op x s) (hparts : i.parts = some (op, .atom x)) (h : Runs s k sl f x.guard)
  (hreq : f.request = none)
include he hparts h hreq

/-- What stops an atomic before it has a location stops the instruction. -/
theorem atomic_stops {st : Stop} (ha : s.atomicAddress sl f op x = .error st) : exec i s = .next (s.stopWith k st) := by
  rw [he]
  refine (runInst_runs h hparts rfl).trans ?_
  rw [show (f.executed op).request = none from hreq]
  simp only [show s.atomicAddress sl (f.executed op) op x = .error st from ha]
  rfl

/-- An atomic that passes the checks issues its request. -/
theorem atomic_issues {pa : Nat} (ha : s.atomicAddress sl f op x = .ok pa) (hb : mayBind s k sl f)
    (hstarted : s.commandsEnded f.started = true) (hfenced : s.commandsEnded f.fenced = true) :
    exec i s = leaves (s.issueAtomic k sl (issuer f op) (requestFor s k sl f op x pa)) := by
  have hready : ∀ r, s.releaseReady { f.executed op with irr := true } r = true := fun r => by
    simp [State.releaseReady, show (f.executed op).fenced = f.fenced from rfl, show (f.executed op).started = f.started from rfl, hstarted, hfenced]
  rw [he]
  refine (runInst_runs h hparts rfl).trans ?_
  rw [show (f.executed op).request = none from hreq]
  simp only [show s.atomicAddress sl (f.executed op) op x = .ok pa from ha, ok_bind, irrevocable_binds hb, hready]
  rfl

end

end Sys2Proof.Proofs

/-! SUPPORT. The firing of an atomic at its home: what it waits for, and what it goes on with (08 R163, R166). -/

namespace Sys2Proof.Proofs

open Sys2Proof.Machine Sys2Proof.Safety Sys2Proof.Laws

/-! ### The firing of a slot -/

theorem firingOf_congr {s t : State} {k : Nat} (h : t.slot k = s.slot k) : firingOf t k = firingOf s k := by rw [firingOf, h, firingOf]

theorem firingOf_putFiring (s : State) (k : Nat) (sl : Slot) (f : Firing) : firingOf (s.putFiring k sl f) k = some f := by
  rw [firingOf, putFiring_slot]
  rfl

theorem firingOf_setRequest (s : State) (k : Nat) (g : AtomicReq → AtomicReq) :
    firingOf (s.setRequest k g) k = (firingOf s k).map fun f => { f with request := f.request.map g } := by
  unfold firingOf State.setRequest
  rw [updSlot_slot]
  cases s.slot k <;> rfl

theorem firingOf_park {s : State} {k : Nat} {f : Firing} (w : Wait) (h : firingOf s k = some f) :
    firingOf (s.park k w) k = some { f with parked := some w, begun := f.begun || w.inside } := by
  obtain ⟨sl, hs, hf⟩ := Option.bind_eq_some_iff.1 h
  rw [firingOf, park_slot w hs hf]
  rfl

/-- Of its own slot a write of a group changes what the slot has written (07 R142). -/
theorem tellGroup_slot (s : State) (k stamp rank : Nat) (mine : List Nat) :
    (s.tellGroup k stamp rank mine).slot k = (s.slot k).map fun u => { u with wrote := s.live (joinEvents u.wrote mine) } := by
  unfold State.tellGroup
  extract_lets s1
  split
  · exact updSlot_slot s k _
  · extract_lets tell
    have hkey : ∀ ms, (tell ms).1 = ms.1 := fun ms => by
      unfold tell
      split
      · split <;> rfl
      · rfl
    have hself : ∀ u, tell (k, u) = (k, u) := fun u => by
      unfold tell
      split
      · rw [if_neg (by simp)]
      · rfl
    have hslot : Tab.find (s1.slots.map tell) k = s1.slot k := by
      rw [find_map_keyed _ tell hkey]
      simp only [hself]
      exact Option.map_id'
    exact hslot.trans (updSlot_slot s k _)

section
variable {s : State} {k : Nat} {sl : Slot} {f g : Firing} {q : AtomicReq}

theorem homeWrote_firingOf : firingOf (homeWrote s k sl f q) k = firingOf s k := by
  unfold homeWrote
  extract_lets w s1 own
  have hs1 : firingOf s1 k = firingOf s k := firingOf_congr (congrArg (Tab.find · k) (atomicWrite_slots ..))
  split
  · rw [firingOf, tellGroup_slot, voidConflicts_slot, ← hs1, firingOf]
    cases s1.slot k <;> rfl
  · exact hs1

/-- A firing whose request has been performed with a result: a value, flags, and the write events of the atomic. -/
def answeredFiring (s : State) (g : Firing) (q : AtomicReq) (v : Dword) (fl : BitVec 5) (own : List Nat) : Firing :=
  { g with request := some { q with arrived := true, result := some (v, fl), events := s.atomicReads q, own := own } }

theorem performAtHome_firingOf (hsp : s.mm.splices = []) (hg : firingOf s k = some g) (hq : g.request = some q)
    (hgo : ¬ (q.op = 0xA6 ∧ q.met (s.atomicOld q) = false)) :
    ∃ fl own, firingOf (s.performAtHome k sl f q) k = some (answeredFiring s g q (extended q.type (oldOf s q)) fl own) := by
  obtain ⟨t, fl, own, ht, hslots, -⟩ := performAtHome_eq (k := k) (sl := sl) (f := f) hgo
  refine ⟨fl, own, ?_⟩
  have hfiring : firingOf t k = some g := by
    rw [firingOf_congr (congrArg (Tab.find · k) hslots), homeWrote_firingOf, hg]
  rw [ht, firingOf_setRequest, hfiring, Option.map_some, hq, Option.map_some, extend_atomicOld hsp]
  rfl

/-- An AWT whose condition does not hold is held at its home. -/
theorem performAtHome_holds (hgo : q.op = 0xA6 ∧ q.met (s.atomicOld q) = false) :
    s.performAtHome k sl f q = (s.setRequest k fun q => { q with arrived := true }).park k (.awt s.clock true) := by
  unfold State.performAtHome
  exact if_pos (by simpa using hgo)

/-! ### The result reaches the firing (08 R163) -/

/-- The registers after an atomic's result. -/
def resultRegs (r : Regs) (q : AtomicReq) (v : Dword) (fl : BitVec 5) : Regs :=
  let r1 := (flagged r fl).setG (Fin.ofNat 64 q.dst) v
  if q.type.isFloat && (q.op == 0xA2 || q.op == 0xA5) then r1.counted q.rm else r1

/-- Where no flag is enabled to trap a scalar instruction raises its flags. -/
theorem raise1_quiet {r : Regs} (h : enables r = 0) (fl : BitVec 5) : r.raise1 fl.toNat = .ok (flagged r fl) := by
  have hlt := fl.isLt
  have hte : r.trapEnables = 0 := by
    have heq : r.trapEnables = (enables r).toNat := by simp [Regs.trapEnables, bits, enables, Nat.shiftRight_eq_div_pow]
    rw [heq, h]
    rfl
  have hall : orFlags [(0, fl.toNat)] = fl.toNat := Nat.zero_or _
  unfold Regs.raise1 Regs.raise
  simp only [hall, hte, Nat.mod_eq_of_lt (show fl.toNat < 32 by omega)]
  rw [if_neg (by omega), if_neg (by simp), flagged, BitVec.ofNat_toNat, BitVec.ofNat_toNat, BitVec.setWidth_eq]

theorem setG_rest (r : Regs) (n : Fin 64) (v : Dword) : (r.setG n v).v = r.v ∧ (r.setG n v).p = r.p ∧ (r.setG n v).c = r.c := by
  unfold Regs.setG
  split <;> exact ⟨rfl, rfl, rfl⟩

theorem setG_flagged (r : Regs) (fl : BitVec 5) (n : Fin 64) (v : Dword) : ((flagged r fl).setG n v).g = (r.setG n v).g := by
  unfold Regs.setG
  split <;> rfl

theorem counted_rest (r : Regs) (m : Rnd) : (r.counted m).g = r.g ∧ (r.counted m).v = r.v ∧ (r.counted m).p = r.p ∧ (r.counted m).c = r.c := by
  unfold Regs.counted
  split <;> exact ⟨rfl, rfl, rfl, rfl⟩

/-- A result is written to its general register, and vector registers, predicates and condition bits stay. -/
theorem resultRegs_rest (r : Regs) (q : AtomicReq) (v : Dword) (fl : BitVec 5) :
    (resultRegs r q v fl).g = (r.setG (Fin.ofNat 64 q.dst) v).g ∧ (resultRegs r q v fl).v = r.v ∧ (resultRegs r q v fl).p = r.p ∧
      (resultRegs r q v fl).c = r.c := by
  obtain ⟨hv, hp, hc⟩ := setG_rest (flagged r fl) (Fin.ofNat 64 q.dst) v
  unfold resultRegs
  dsimp only
  split
  · obtain ⟨cg, cv, cp, cc⟩ := counted_rest ((flagged r fl).setG (Fin.ofNat 64 q.dst) v) q.rm
    exact ⟨cg.trans (setG_flagged ..), cv.trans hv, cp.trans hp, cc.trans hc⟩
  · exact ⟨setG_flagged .., hv, hp, hc⟩

/-- The firing goes on with the result. -/
def resumed (s : State) (k : Nat) (g : Firing) (q : AtomicReq) (v : Dword) (fl : BitVec 5) : Firing :=
  { ({ g with view := s.afterAtomic k g q } : Firing).executed q.op with request := none, parked := none, r := resultRegs g.r q v fl }

theorem finishAtomic_result {v : Dword} {fl : BitVec 5} (hg : firingOf s k = some g) (hq : g.request = some q) (hr : q.result = some (v, fl))
    (hquiet : enables g.r = 0) :
    firingOf (s.finishAtomic k) k = some (resumed s k g q v fl) ∧ (s.finishAtomic k).mm = s.mm := by
  obtain ⟨u, hs, hf⟩ := Option.bind_eq_some_iff.1 hg
  have heq : s.finishAtomic k = s.putFiring k u (resumed s k g q v fl) := by
    unfold State.finishAtomic
    simp only [hs, hf, hq, hr, raise1_quiet hquiet]
    rfl
  rw [heq]
  exact ⟨firingOf_putFiring .., rfl⟩

theorem finishAtomic_waits (hg : firingOf s k = some g) (hq : g.request = some q) (hr : q.result = none) : s.finishAtomic k = s := by
  obtain ⟨u, hs, hf⟩ := Option.bind_eq_some_iff.1 hg
  unfold State.finishAtomic
  simp only [hs, hf, hq, hr]

end

end Sys2Proof.Proofs

/-! SUPPORT. Atomics of a firing, AWT and ARTY (07 R138; 08 R163 to R168). -/

namespace Sys2Proof.Proofs

open Sys2Proof.Machine Sys2Proof.Safety Sys2Proof.Laws

/-! ### At the home (08 R163 to R166) -/

/-- A home holds no request but an AWT, and that only while its condition does not hold (R166). -/
theorem not_awt_of_le {op : Nat} (h : op ≤ 0xA5) (p : Prop) : ¬ (op = 0xA6 ∧ p) := fun hn => by omega

theorem not_held {q : AtomicReq} {old op : Nat} (h : q.met old = true) : ¬ (op = 0xA6 ∧ q.met old = false) :=
  fun hn => Bool.noConfusion (h.symm.trans hn.2)

/-- The firing that has issued an atomic, and the package in which it waits for the result. -/
def asker (s : State) (k : Nat) (sl : Slot) (f : Firing) (op : Nat) (x : AtomFields) (pa : Nat) : Firing :=
  issued (issuer f op) (requestFor s k sl f op x pa)
def asked (s : State) (k : Nat) (sl : Slot) (f : Firing) (op : Nat) (x : AtomFields) (pa : Nat) : State :=
  s.putFiring k sl (asker s k sl f op x pa)

/-- The package once the home has met the request. -/
def homed (s : State) (k : Nat) (sl : Slot) (f : Firing) (op : Nat) (x : AtomFields) (pa : Nat) : State :=
  (asked s k sl f op x pa).performAtHome k { sl with firing := some (asker s k sl f op x pa) } (asker s k sl f op x pa) (requestFor s k sl f op x pa)

section
variable {s : State} {k : Nat} {sl : Slot} {f : Firing} {op : Nat} {x : AtomFields} {pa : Nat}

/-- The old value of the request is that at the location. -/
theorem asked_old : extended (requestFor s k sl f op x pa).type (oldOf (asked s k sl f op x pa) (requestFor s k sl f op x pa)) =
    extended x.ty (patternAt s pa x.ty) := by
  unfold oldOf
  rw [requestFor_type]
  rfl

theorem asked_new : newOf (asked s k sl f op x pa) (requestFor s k sl f op x pa) = atomicNew op x.ty x.sat (f.r.mode x.rnd) (f.r.sr 0 0)
    (patternAt s pa x.ty) ((f.r.readG x.b).setWidth x.ty.bits) ((f.r.readG x.c).setWidth x.ty.bits) := by
  unfold newOf oldOf
  rw [requestFor_type]
  rfl

/-- The destination of the request is the general register that the instruction names. -/
theorem requestFor_dst (r : Regs) (v : Dword) : r.setG (Fin.ofNat 64 (requestFor s k sl f op x pa).dst) v = r.writeG x.d v := by
  show r.setG (Fin.ofNat 64 (match x.d with | .g n => n.val | _ => 0)) v = _
  unfold Regs.writeG
  cases x.d with
  | g n => rw [show Fin.ofNat 64 n.val = n from Fin.ofNat_val_eq_self n]
  | _ => exact if_pos rfl

variable (hgo : atomicGoes s k sl f op x pa)
include hgo

theorem asked_arrives : arrives (asked s k sl f op x pa) k { sl with firing := some (asker s k sl f op x pa) } (asker s k sl f op x pa)
    (requestFor s k sl f op x pa) := by
  obtain ⟨-, -, -, -, hremote, -, -, -, htakes, hsp, hpoison, -⟩ := hgo
  have hfar : (asked s k sl f op x pa).isRemote (requestFor s k sl f op x pa).pa = false := hremote
  refine ⟨putFiring_slot .., rfl, rfl, rfl, htakes, (atomicPoison_nil hsp).trans hpoison, ?_, ?_⟩
  · unfold State.staleRequest
    split
    · rw [hfar]
      rfl
    · rfl
  · rw [hfar]
    rfl

/-- What the firing of an atomic that reaches its home comes to: the home performs the request, and its answer is taken. -/
theorem atomic_goes {i : Instr} (he : exec i s = runAtomic i op x s) (hparts : i.parts = some (op, .atom x)) (h : Runs s k sl f x.guard) :
    exec i s = leaves ((homed s k sl f op x pa).finishAtomic k) := by
  have harrives := asked_arrives hgo
  obtain ⟨hreq, -, -, haddr, hremote, hhost, hbind, hdet, -, -, -, hstarted, hfenced⟩ := hgo
  rw [atomic_issues he hparts h hreq haddr hbind hstarted hfenced, issueAtomic_home hremote hhost]
  exact congrArg (fun t : State => leaves (t.finishAtomic k)) (arrival_unlogged harrives hdet)

/-- The firing has taken the result of its atomic. -/
def tookOld (s : State) (f g : Firing) (x : AtomFields) (pa : Nat) : Prop :=
  g.pc = f.pc + 1 ∧ g.irr = true ∧ g.request = none ∧ g.parked = none ∧ g.r.g = (f.r.writeG x.d (extended x.ty (patternAt s pa x.ty))).g ∧
    g.r.v = f.r.v ∧ g.r.p = f.r.p ∧ g.r.c = f.r.c ∧ g.b = f.b

/-- A home that does not hold the request answers with the old value. -/
theorem atomic_answers (hquiet : quiet f.r)
    (hmet : ¬ (op = 0xA6 ∧ (requestFor s k sl f op x pa).met ((asked s k sl f op x pa).atomicOld (requestFor s k sl f op x pa)) = false)) :
    ((homed s k sl f op x pa).finishAtomic k).mm = (homed s k sl f op x pa).mm ∧
      ∃ g, firingOf ((homed s k sl f op x pa).finishAtomic k) k = some g ∧ tookOld s f g x pa := by
  obtain ⟨-, -, -, -, -, -, -, -, -, hsp, -⟩ := hgo
  obtain ⟨fl, own, hanswered⟩ := performAtHome_firingOf (sl := { sl with firing := some (asker s k sl f op x pa) }) (f := asker s k sl f op x pa)
    (show (asked s k sl f op x pa).mm.splices = [] from hsp) (firingOf_putFiring s k sl _) rfl hmet
  rw [asked_old] at hanswered
  obtain ⟨hfiring, hmm⟩ := finishAtomic_result hanswered rfl rfl hquiet.1
  obtain ⟨hg, hv, hp, hc⟩ := resultRegs_rest f.r (requestFor s k sl f op x pa) (extended x.ty (patternAt s pa x.ty)) fl
  rw [requestFor_dst] at hg
  exact ⟨hmm, _, hfiring, rfl, rfl, rfl, rfl, hg, hv, hp, hc, rfl⟩

/-- The home of an atomic that reads and writes has the new value at the location, and no other byte changed. -/
theorem homed_wroteAt (hlo : 0x98 ≤ op) (hhi : op ≤ 0xA5) (ht : x.ty ≠ .e2m1) (hwf : s.mm.mem.wf = true) :
    wroteAt s (homed s k sl f op x pa) pa x.ty.bytes (atomicNew op x.ty x.sat (f.r.mode x.rnd) (f.r.sr 0 0) (patternAt s pa x.ty)
      ((f.r.readG x.b).setWidth x.ty.bits) ((f.r.readG x.c).setWidth x.ty.bits)) := by
  obtain ⟨-, -, -, haddr, -, -, -, -, htakes, hsp, -⟩ := hgo
  have hsp' : (asked s k sl f op x pa).mm.splices = [] := hsp
  have hpa : (requestFor s k sl f op x pa).pa % (requestFor s k sl f op x pa).type.bytes = 0 := by
    rw [requestFor_type]
    exact atomicAddress_aligned ht haddr
  have hnew := (congrArg (fun n => ((requestFor s k sl f op x pa).written n).1) (atomicOld_eq hsp')).trans
    ((written_new (requestFor s k sl f op x pa) _ hlo hhi).trans asked_new)
  have htakes' : (asked s k sl f op x pa).homeTakes (requestFor s k sl f op x pa).pa sl.pl.tag sl.pl.gen = true := htakes
  have hwrite := fun v => atomicWrite_mem (w := (asked s k sl f op x pa).atomicWriter k { sl with firing := some (asker s k sl f op x pa) }
    (asker s k sl f op x pa) (requestFor s k sl f op x pa)) (q := requestFor s k sl f op x pa) hsp' htakes' hpa v
  refine wroteAt_of_mem hwf ?_
  rw [homed, performAtHome_mem (not_awt_of_le hhi _), hwrite, hnew, requestFor_type]
  rfl

end

/-! ### The instructions (08 R164, R165) -/

/-- The atomics that read and write: each is run with its opcode. -/
theorem atomic_row {x : AtomFields} {i : Instr} {op : Nat} (hi : (i, op) ∈ [(Instr.aadd x, 0x98), (.amin x, 0x99), (.amax x, 0x9A),
    (.aand x, 0x9B), (.aor x, 0x9C), (.axor x, 0x9D), (.aswp x, 0x9E), (.acas x, 0x9F), (.aincb x, 0xA0), (.adecb x, 0xA1), (.afadd x, 0xA2),
    (.afmin x, 0xA3), (.afmax x, 0xA4), (.ared x, 0xA5)]) :
    (∀ s, exec i s = runAtomic i op x s) ∧ i.parts = some (op, .atom x) ∧ 0x98 ≤ op ∧ op ≤ 0xA5 := by
  simp only [List.mem_cons, List.not_mem_nil, or_false, Prod.mk.injEq] at hi
  obtain ⟨rfl, rfl⟩ | ⟨rfl, rfl⟩ | ⟨rfl, rfl⟩ | ⟨rfl, rfl⟩ | ⟨rfl, rfl⟩ | ⟨rfl, rfl⟩ | ⟨rfl, rfl⟩ | ⟨rfl, rfl⟩ | ⟨rfl, rfl⟩ | ⟨rfl, rfl⟩ |
    ⟨rfl, rfl⟩ | ⟨rfl, rfl⟩ | ⟨rfl, rfl⟩ | ⟨rfl, rfl⟩ := hi <;> exact ⟨fun _ => rfl, rfl, by decide, by decide⟩

/-- No atomic takes E2M1. -/
theorem atomic_type {op : Nat} {t : Ty} {d : Bool} (h : typesAccepted op t .i8 d = true) (hlo : 0x98 ≤ op) (hhi : op ≤ 0xA5) : t ≠ .e2m1 := by
  rintro rfl
  revert h
  interval_cases op <;> cases d <;> decide

/-! ### AWT (08 R166) -/

section
variable {s : State} {k : Nat} {sl : Slot} {f : Firing} {x : AtomFields} {pa : Nat}

theorem asked_met (hgo : atomicGoes s k sl f 0xA6 x pa) (hc : (f.r.readG x.c).toNat < 4) :
    (requestFor s k sl f 0xA6 x pa).met ((asked s k sl f 0xA6 x pa).atomicOld (requestFor s k sl f 0xA6 x pa)) = true ↔
      awaits x.ty (f.r.readG x.c).toNat (valueOf x.ty (extended x.ty (patternAt s pa x.ty))) (valueOf x.ty (f.r.readG x.b)) := by
  obtain ⟨-, -, -, -, -, -, -, -, -, hsp, -⟩ := hgo
  rw [met_atomicOld (show (asked s k sl f 0xA6 x pa).mm.splices = [] from hsp), asked_old, requestFor_type]
  show awaits x.ty ((f.r.readG x.c).toNat % 4) _ _ ↔ _
  rw [Nat.mod_eq_of_lt hc]
  rfl

/-- An AWT whose condition holds reads and does not write. -/
theorem homed_awt_mem (hmet : (requestFor s k sl f 0xA6 x pa).met ((asked s k sl f 0xA6 x pa).atomicOld (requestFor s k sl f 0xA6 x pa)) = true) :
    (homed s k sl f 0xA6 x pa).mm.mem = s.mm.mem := by
  rw [homed, performAtHome_mem (not_held hmet), written_awt rfl]
  rfl

/-- One whose condition does not hold stands at its home. -/
theorem homed_held (hmet : (requestFor s k sl f 0xA6 x pa).met ((asked s k sl f 0xA6 x pa).atomicOld (requestFor s k sl f 0xA6 x pa)) = false) :
    ((homed s k sl f 0xA6 x pa).finishAtomic k).mm = s.mm ∧ ∃ g, firingOf ((homed s k sl f 0xA6 x pa).finishAtomic k) k = some g ∧
      g.pc = f.pc ∧ g.parked = some (.awt s.clock true) ∧ g.r = f.r := by
  have hheld : homed s k sl f 0xA6 x pa = ((asked s k sl f 0xA6 x pa).setRequest k fun q => { q with arrived := true }).park k
      (.awt s.clock true) := performAtHome_holds ⟨rfl, hmet⟩
  have hfiring : firingOf ((asked s k sl f 0xA6 x pa).setRequest k fun q => { q with arrived := true }) k =
      some { asker s k sl f 0xA6 x pa with request := some { requestFor s k sl f 0xA6 x pa with arrived := true } } := by
    rw [firingOf_setRequest, asked, firingOf_putFiring]
    rfl
  have hparked := firingOf_park (.awt s.clock true) hfiring
  rw [← hheld] at hparked
  rw [finishAtomic_waits hparked rfl rfl]
  refine ⟨?_, _, hparked, rfl, rfl, rfl⟩
  rw [hheld, park_frame]
  rfl

end

/-! ### A request on its way (08 R163, R168) -/

theorem aadd_away {s : State} {k : Nat} {sl : Slot} {f : Firing} {x : AtomFields} {pa : Nat} (h : Runs s k sl f x.guard) (hreq : f.request = none)
    (haddr : s.atomicAddress sl f 0x98 x = .ok pa) (hfar : s.isRemote pa = true ∨ paHost pa = true) (hirr : f.irr = true)
    (hstarted : s.commandsEnded f.started = true) (hfenced : s.commandsEnded f.fenced = true) :
    ∃ s' g q, exec (.aadd x) s = .next s' ∧ firingOf s' k = some g ∧ g.pc = f.pc ∧ g.parked = some (.atomic s.clock false) ∧
      g.request = some q ∧ q.op = 0x98 ∧ q.pa = pa ∧ q.arrived = false ∧ q.result = none ∧ s'.mm = s.mm ∧
      s'.agenda = s.agenda ++ [.due (.atomicAtHome k)] := by
  have hexec := atomic_issues (i := .aadd x) rfl rfl h hreq haddr (.inl hirr) hstarted hfenced
  rw [issueAtomic_away (q := requestFor s k sl f 0x98 x pa) hfar] at hexec
  refine ⟨_, _, _, hexec, firingOf_park _ (firingOf_putFiring ..), rfl, rfl, rfl, rfl, rfl, rfl, rfl, ?_, ?_⟩
  · show (State.park _ k _).mm = s.mm
    rw [park_frame]
    rfl
  · show (State.park _ k _).agenda ++ _ = _
    rw [park_frame]
    rfl

/-! ### ARTY and tags (07 R138; 08 R167) -/

section
variable {s : State} {home key : Nat}

theorem tagAnswer_performed {t : TagNote} {v : Dword} (hfind : (s.en.tags.find? fun t => t.home == home && t.key == key) = some t)
    (hr : t.result = some v) :
    s.tagAnswer home key = (if s.clock ≤ t.time + cycles2ms ∧ s.tagsSince home key < 4096 then (0, v) else (2, 0), s) := by
  unfold State.tagAnswer
  simp only [hfind, hr]

/-- A home that has never seen a tag refuses it from then on. -/
theorem tagAnswer_unseen (hfind : (s.en.tags.find? fun t => t.home == home && t.key == key) = none) :
    s.tagAnswer home key = ((1, 0), s.noteTag home key none {}) := by
  unfold State.tagAnswer
  simp only [hfind]

theorem tagAnswer_refused (h : s.tagRefused home key = true) : s.tagAnswer home key = ((1, 0), s) := by
  obtain ⟨t, hfind, hr⟩ := (Option.any_eq_true _ _).1 h
  unfold State.tagAnswer
  simp only [hfind, Option.isNone_iff_eq_none.1 hr]

/-- DONE makes the write of a releasing atomic a release of what came before it. -/
theorem rerelease_whole {y : TagSync} {e : WriteEvent} (he : e ∈ s.mm.order.events) (hown : y.own.contains e.num = true) :
    ∃ e' ∈ (s.rerelease y true).mm.order.events, e'.num = e.num ∧ (y.rel = true → ∀ n, n ∈ y.before ∨ n = e.num → n ∈ e'.rel) := by
  unfold State.rerelease
  extract_lets h set
  have hset : set e = { e with rel := if y.rel then addNum (joinEvents y.before h.1) e.num else h.1,
                               fences := (y.fences.map fun f => (f.1, f.2.1, addNum f.2.2 e.num)) ++ h.2 } := by
    simp only [set, if_pos hown, true_and, if_true]
  refine ⟨set e, List.mem_map_of_mem he, by rw [hset], fun hrel n hn => ?_⟩
  rw [hset]
  show n ∈ if y.rel then addNum (joinEvents y.before h.1) e.num else h.1
  rw [if_pos hrel, mem_addNum, mem_joinEvents]
  exact hn.elim (fun hb => .inr (.inl hb)) .inl

end

section
variable {s : State} {k : Nat} {sl : Slot} {f : Firing} {x : AtomFields}

/-- What a home answers of a tag; a path that is down does not answer. -/
def answerOf (s : State) (t : Xl) (key : Nat) : (Nat × Dword) × State :=
  if s.pathDown (paPkg t.pa) then ((2, 0), s) else s.tagAnswer (atomicHome t.pa) key

theorem arty_outcome (h : Runs s k sl f x.guard) :
    exec (.arty x) s = stateOutcome s k ((s.askTag k sl (f.executed 0xA7) x).map fun z => z.1.putFiring k sl z.2) :=
  exec_runsInst (show execArty x s = _ from rfl) h rfl rfl rfl

/-- The package and the firing after an answer: those of the original's synchronisation where it is DONE. -/
theorem answer_taken (g : Firing) (n : Fin 64) (a : (Nat × Dword) × State) (y : TagSync) :
    ((if decide (a.1.1 = 0) = true then a.2.rerelease y true else a.2,
      { (if decide (a.1.1 = 0) = true ∧ y.acq = true then { g with view := s.acquire (tileOf k) g.view y.reads } else g) with
          r := (g.r.setG n (BitVec.ofNat 64 a.1.1)).setG (n + 1) a.1.2 }) : State × Firing) =
    (if a.1.1 = 0 then a.2.rerelease y true else a.2,
      { g with r := (g.r.setG n (BitVec.ofNat 64 a.1.1)).setG (n + 1) a.1.2,
               view := if a.1.1 = 0 ∧ y.acq = true then s.acquire (tileOf k) g.view y.reads else g.view }) := by
  by_cases hdone : a.1.1 = 0 <;> by_cases hacq : y.acq = true <;> simp [hdone, hacq]

variable {t : Xl} (hva : (f.r.readG x.a).toNat < 2 ^ 60) (ht : s.translate sl.pl.ctx (f.r.readG x.a).toNat true = .ok t)
include hva ht

theorem askTag_local (hl : s.isRemote t.pa = false) :
    s.askTag k sl (f.executed 0xA7) x = .error (.trap { code := 0x09, info := f.r.readG x.a }) := by
  rw [State.askTag, executed_r, if_neg (Nat.not_le.2 hva), ht, trapInfo_toNat]
  simp only [hl]
  rfl

/-- A home in another package answers; DONE establishes the synchronisation of the original (07 R138). -/
theorem askTag_remote {n : Fin 64} (hd : x.d = .g n) (hr : s.isRemote t.pa = true) :
    let key := tagKey s.dv.pkg k ((f.r.readG x.b).toNat % 2 ^ 32)
    let a := answerOf s t key
    let y := s.tagSync (atomicHome t.pa) key
    s.askTag k sl (f.executed 0xA7) x = .ok (if a.1.1 = 0 then a.2.rerelease y true else a.2, { f.executed 0xA7 with
      r := (f.r.setG n (BitVec.ofNat 64 a.1.1)).setG (n + 1) a.1.2,
      view := if a.1.1 = 0 ∧ y.acq = true then s.acquire (tileOf k) f.view y.reads else f.view }) := by
  intro key a y
  rw [State.askTag, executed_r, if_neg (Nat.not_le.2 hva), ht, bits_low, hd]
  exact (if_neg (by rw [hr]; decide)).trans (congrArg Except.ok (answer_taken (f.executed 0xA7) n a y))

end

/-- Settles O22: an atomic that may go is performed at its home in the step that issues it, and its answer is taken; an AWT is answered or
held there; what fails the checks stops before; a request to a peer or the host is on its way; and ARTY takes what the home answers. -/
theorem atomicsOfAFiring : Obligations.AtomicsOfAFiring := by
  refine ⟨fun x i op hi hty s k sl f pa h hquiet hwf hgo => ?atomics, fun x s k sl f pa h hquiet hgo _ hc => ?awt,
    fun x s k sl f h hreq hd => ?outside, fun x s k sl f n t h hd hva ht => ⟨fun hr => ?arty, fun hl => ?artyLocal⟩,
    fun s home key => ⟨fun t v hfind hr => tagAnswer_performed hfind hr, fun hfind => ?unseen, tagAnswer_refused⟩,
    fun s y e he hown => rerelease_whole he hown,
    fun x s k sl f pa h hreq _ _ haddr hfar hirr hstarted hfenced => aadd_away h hreq haddr hfar hirr hstarted hfenced⟩
  case atomics =>
    obtain ⟨hexec, hparts, hlo, hhi⟩ := atomic_row hi
    obtain ⟨hmm, g, hg, hpc, hirr, hreq, -, hrest⟩ := atomic_answers hgo hquiet (not_awt_of_le hhi _)
    obtain ⟨hrg, hrv, hrp, hrc, hb⟩ := hrest
    have hwrote := homed_wroteAt hgo hlo hhi (atomic_type hty hlo hhi) hwf
    refine ⟨_, g, atomic_goes hgo (hexec s) hparts h, hg, hpc, hirr, hreq, hrg, hrv, hrp, hrc, hb, fun a => ?_⟩
    exact (congrArg (fun m : MemState => m.mem.byte a) hmm).trans (hwrote a)
  case awt =>
    have hmetIff := asked_met hgo hc
    have hexec := atomic_goes hgo (i := .awt x) rfl rfl h
    by_cases hmet : awaits x.ty (f.r.readG x.c).toNat (valueOf x.ty (extended x.ty (patternAt s pa x.ty))) (valueOf x.ty (f.r.readG x.b))
    · have hmem := homed_awt_mem (hmetIff.2 hmet)
      obtain ⟨hmm, g, hg, hpc, -, -, hparked, hrg, -⟩ := atomic_answers hgo hquiet (not_held (hmetIff.2 hmet))
      refine ⟨_, g, hexec, hg, fun a => ?_, fun _ => ⟨hpc, hparked, hrg⟩, fun hn => absurd hmet hn⟩
      exact congrArg (fun m : Memory => m.byte a) ((congrArg MemState.mem hmm).trans hmem)
    · obtain ⟨hmm, g, hg, hpc, hparked, hr⟩ := homed_held (Bool.eq_false_iff.2 fun hm => hmet (hmetIff.1 hm))
      exact ⟨_, g, hexec, hg, fun a => congrArg (fun m : MemState => m.mem.byte a) hmm, fun hn => absurd hn hmet,
        fun _ => ⟨hpc, hparked, congrArg Regs.g hr⟩⟩
  case outside =>
    intro va hout
    exact ⟨atomic_stops (i := .aadd x) rfl rfl h hreq (atomicAddress_outside hd hout),
      atomic_stops (i := .acas x) rfl rfl h hreq (atomicAddress_outside hd hout),
      atomic_stops (i := .awt x) rfl rfl h hreq (atomicAddress_outside hd hout)⟩
  case arty =>
    intro key a y
    rw [arty_outcome h, askTag_remote hva ht hd hr]
    rfl
  case artyLocal =>
    rw [arty_outcome h, askTag_local hva ht hl]
    rfl
  case unseen =>
    rw [tagAnswer_unseen hfind]
    exact ⟨rfl, tagRefused_noted .., rfl, rfl⟩

end Sys2Proof.Proofs

/-! SUPPORT. Launches, changes of level, DELTAs and replay lists as packets (02 R23; 09 R188, R197; 18 R335, R340, R341). -/

namespace Sys2Proof.Proofs

open Sys2Proof.Machine Sys2Proof.Safety Sys2Proof.Laws

/-! ### Packets of a queue (18 R334) -/

theorem packet_congr {s t : State} {q : Nat} (h : (t.queue q).packets = (s.queue q).packets) (n : Nat) : t.packet q n = s.packet q n := by
  rw [State.packet, State.packet, h]

/-- A packet is found again after a change that keeps the numbers of packets. -/
theorem setQueue_packet {s : State} {q n : Nat} {x : Queue} {p p' : Packet} {g : Packet → Packet}
    (hx : x.packets = (s.queue q).packets.map g) (hg : ∀ y, (g y).num = y.num) (hp : g p = p') (h : s.packet q n = some p) :
    (s.setQueue q x).packet q n = some p' := by
  have hnum : ((fun y : Packet => y.num == n) ∘ g) = fun y => y.num == n := funext fun y => congrArg (· == n) (hg y)
  rw [State.packet, setQueue_queue, hx, List.find?_map, hnum, ← State.packet, h, Option.map_some, hp]

theorem packet_num {s : State} {q n : Nat} {p : Packet} (h : s.packet q n = some p) : p.num = n :=
  beq_iff_eq.1 (List.find?_some (p := fun y : Packet => y.num == n) h)

theorem dispatched_packet {s : State} {q n : Nat} {p : Packet} (h : s.packet q n = some p) :
    (s.dispatched q n).packet q n = some { p with dispatched := true } :=
  setQueue_packet rfl (fun y => by split <;> rfl) (if_pos (packet_num h)) h

theorem finishPacket_packet {s : State} {q n : Nat} {p : Packet} (st : Nat) (h : s.packet q n = some p) (hf : p.finished = none) :
    (s.finishPacket q n st).packet q n = some { p with finished := some st } :=
  setQueue_packet (s := s) rfl (fun y => by split <;> rfl) (if_pos ⟨packet_num h, by rw [hf]; rfl⟩) h

theorem finishPacket_completes {s : State} {q n : Nat} {p : Packet} (st : Nat) (h : s.packet q n = some p) (hd : p.dispatched = true)
    (hf : p.finished = none) : completes (s.finishPacket q n st) q n st :=
  ⟨_, finishPacket_packet st h hf, hd, rfl⟩

theorem finishNow_completes {s : State} {q n : Nat} {p : Packet} (st : Nat) (h : s.packet q n = some p) (hf : p.finished = none) :
    completes (s.finishNow q n st) q n st :=
  finishPacket_completes st (dispatched_packet h) rfl hf

theorem finishPacket_slots (s : State) (q n st : Nat) : (s.finishPacket q n st).slots = s.slots := rfl
theorem finishNow_mm (s : State) (q n st : Nat) : (s.finishNow q n st).mm = s.mm := rfl

theorem dispatched_dispatchedOnly {s : State} {q n : Nat} {p : Packet} (h : s.packet q n = some p) (hf : p.finished = none) :
    dispatchedOnly (s.dispatched q n) q n :=
  ⟨_, dispatched_packet h, rfl, hf⟩

/-! ### An operand that cannot be read (18 R334, 20 R359, R360) -/

theorem newFault_asksAt (s t : State) (q n va reason : Nat) (w : Bool) :
    asksAt s (t.newFault va reason (.packet q n) (ctxOf s q) w) q n va reason w := by
  unfold State.newFault asksAt
  dsimp only
  split <;> simp

theorem newFault_al (s : State) (va reason : Nat) (who : Requester) (ctx : Nat) (w : Bool) : (s.newFault va reason who ctx w).al = s.al := by
  unfold State.newFault
  dsimp only
  split <;> rfl

theorem newFault_fe (s : State) (va reason : Nat) (who : Requester) (ctx : Nat) (w : Bool) : (s.newFault va reason who ctx w).fe = s.fe := by
  unfold State.newFault
  dsimp only
  split <;> rfl

theorem newFault_packet (s : State) (va reason : Nat) (who : Requester) (ctx : Nat) (w : Bool) (q n : Nat) :
    (s.newFault va reason who ctx w).packet q n = s.packet q n := by
  rw [State.packet, State.queue, newFault_fe, ← State.queue, ← State.packet]

theorem operandFault_completes {s : State} {q : Nat} {p : Packet} {e : Stop} (h : s.packet q p.num = some p) (hf : p.finished = none)
    (he : ∀ va w, e ≠ .page va 0 w) : (s.operandFault q p e).al = s.al ∧ completes (s.operandFault q p e) q p.num 6 := by
  unfold State.operandFault
  split
  · rename_i va reason w
    have hr : reason ≠ 0 := fun hr => he va w (by rw [hr])
    rw [if_neg hr]
    exact ⟨newFault_al .., finishNow_completes 6 ((newFault_packet ..).trans h) hf⟩
  · exact ⟨rfl, finishNow_completes 6 h hf⟩

theorem operandFault_asks (s : State) (q : Nat) (p : Packet) (va : Nat) (w : Bool) :
    (s.operandFault q p (.page va 0 w)).al = s.al ∧ asksAt s (s.operandFault q p (.page va 0 w)) q p.num va 0 w := by
  rw [State.operandFault, if_pos rfl]
  exact ⟨newFault_al .., newFault_asksAt ..⟩

/-! ### LAUNCH and SLAUNCH (18 R335, 17 R327) -/

section
variable {s : State} {q : Nat} {p : Packet}

/-- Where the head of a queue has the type of a row, the row deals with that packet; so for the rows below. -/
theorem exec_launch (h : s.headOf q 0x01 = some p) : exec (.launch q) s = .next (s.launchPacket q p false) := by
  change execLaunch q s = _
  rw [execLaunch, h]

theorem exec_slaunch (h : s.headOf q 0x02 = some p) : exec (.slaunch q) s = .next (s.launchPacket q p true) := by
  change execSlaunch q s = _
  rw [execSlaunch, h]

theorem exec_detset (h : s.headOf q 0x06 = some p) : exec (.detset q) s = .next (s.detsetPacket q p) := by
  change execDetset q s = _
  rw [execDetset, h]

theorem exec_replay (h : s.headOf q 0x07 = some p) : exec (.replay q) s = .next (s.replayPacket q p) := by
  change execReplay q s = _
  rw [execReplay, h]

theorem exec_patch (h : s.headOf q 0x08 = some p) : exec (.patch q) s = .next (s.patchPacket q p) := by
  change execPatch q s = _
  rw [execPatch, h]

/-- The row of a launch, by its kind. -/
theorem exec_launchRow {i : Instr} {ty : Nat} {sl : Bool} (h : s.headOf q ty = some p)
    (hi : (i = .launch q ∧ ty = 0x01 ∧ sl = false) ∨ (i = .slaunch q ∧ ty = 0x02 ∧ sl = true)) :
    exec i s = .next (s.launchPacket q p sl) := by
  rcases hi with ⟨rfl, rfl, rfl⟩ | ⟨rfl, rfl, rfl⟩
  · exact exec_launch h
  · exact exec_slaunch h

theorem exec_anyLaunch {i : Instr} {ty : Nat} (h : s.headOf q ty = some p) (hi : (i = .launch q ∧ ty = 0x01) ∨ (i = .slaunch q ∧ ty = 0x02)) :
    ∃ sl, exec i s = .next (s.launchPacket q p sl) := by
  rcases hi with ⟨rfl, rfl⟩ | ⟨rfl, rfl⟩
  · exact ⟨_, exec_launch h⟩
  · exact ⟨_, exec_slaunch h⟩

theorem launchPacket_image {im : Image} (sl : Bool) (h : s.readImage (ctxOf s q) (p.f 16 8) = .ok (some im)) :
    s.launchPacket q p sl = s.launchImage q p sl im := by
  rw [State.launchPacket, ← ctxOf, h]

theorem launchPacket_noImage (sl : Bool) (h : s.readImage (ctxOf s q) (p.f 16 8) = .ok none) :
    s.launchPacket q p sl = s.finishNow q p.num 1 := by
  rw [State.launchPacket, ← ctxOf, h]

theorem launchPacket_unread {e : Stop} (sl : Bool) (h : s.readImage (ctxOf s q) (p.f 16 8) = .error e) :
    s.launchPacket q p sl = s.operandFault q p e := by
  rw [State.launchPacket, ← ctxOf, h]

/-- Reporting where the check of the rates stopped is seen outside only. -/
theorem reportRates_frame (s : State) (im : Image) : s.reportRates im = { s with outbox := (s.reportRates im).outbox } := by
  unfold State.reportRates
  split <;> rfl

/-- The level and DETL of a launch: its image's own where its packet asks for them (18 R335). -/
def launchLvl (p : Packet) (im : Image) : Nat := if p.f 36 1 / 2 % 2 = 1 then im.prio else p.f 33 1
def launchDetl (p : Packet) (im : Image) : Nat := if p.f 36 1 / 2 % 2 = 1 then im.detl else p.f 35 1

theorem launchImage_refused {im : Image} {sl : Bool} {st : Nat} (hp : s.packet q p.num = some p) (hf : p.finished = none)
    (h : s.refuseLaunch (ctxOf s q) p im (launchLvl p im) (launchDetl p im) sl = some st) :
    (s.launchImage q p sl im).al = s.al ∧ (s.launchImage q p sl im).mm = s.mm ∧ completes (s.launchImage q p sl im) q p.num st := by
  have himage : s.launchImage q p sl im = (s.reportRates im).finishNow q p.num st := by
    unfold State.launchImage
    simp only [decide_eq_true_eq]
    rw [← ctxOf, ← launchLvl, ← launchDetl, h]
  rw [himage, reportRates_frame]
  exact ⟨rfl, rfl, finishNow_completes st hp hf⟩

/-- A launch that is paired with one of the source log changes its context's log only (09 R188). -/
theorem pairLaunch_frame (s : State) (ctx n d : Nat) :
    s.pairLaunch ctx n d = { s with al.ctxs := (s.pairLaunch ctx n d).al.ctxs } := by
  unfold State.pairLaunch
  dsimp only
  split
  · split <;> rfl
  · rfl

theorem pairLaunch_launches (s : State) (ctx n d : Nat) : ((s.pairLaunch ctx n d).ctx ctx).launches = (s.ctx ctx).launches := by
  unfold State.pairLaunch
  dsimp only
  split
  · split
    · rw [setCtx_ctx]
    · rfl
  · rfl

/-- The note of the oldest launch stands in the queue's own block. -/
theorem noteLaunch_frame (s : State) (q : Nat) :
    s.noteLaunch q = { s with fe := (s.noteLaunch q).fe } ∧ ((s.noteLaunch q).queue q).packets = (s.queue q).packets := by
  unfold State.noteLaunch
  dsimp only
  split <;> exact ⟨rfl, by rw [setQueue_queue]⟩

/-- The launch that pends of a packet with an image. -/
def pendingLaunch (s : State) (q : Nat) (p : Packet) (sl : Bool) (im : Image) : Launch :=
  { ordinal := (s.ctx (ctxOf s q)).launches + 1, queue := q, packet := p.num, ctx := ctxOf s q, image := im, lvl := launchLvl p im,
    ecl := if p.f 36 1 / 2 % 2 = 1 then im.ecl else p.f 34 1,
    detl := if launchDetl p im = 2 ∧ (s.ctx (ctxOf s q)).log.any (·.div) then 1 else launchDetl p im,
    deadline := p.f 24 8, hard := decide (p.f 36 1 % 2 = 1), strict := decide (p.f 36 1 / 4 % 2 = 1), surrogate := sl,
    tolr := BitVec.ofNat 64 (if sl then p.f 64 8 else 0), dataBase := p.f 40 8, age := s.ns, bypass := 0, loaded := false,
    loadPos := 0, loadWait := none, swapped := none, late := false }

/-- A launch joins those that pend, and counts in its context; the device keeps it among its runs. -/
def launchAdded (s : State) (l : Launch) : State :=
  let run : RunRecord :=
    { ctx := l.ctx, ordinal := l.ordinal, hash := l.image.hash, bsig := l.image.bsig, lowest := l.detl, changed := false, part := false }
  { s with al.ctxs := s.al.ctxs.put l.ctx { s.ctx l.ctx with launches := l.ordinal }, al.launches := s.al.launches ++ [l],
           al.history := (s.al.history ++ [run]).drop ((s.al.history ++ [run]).length - 256) }

theorem launchImage_accepted {im : Image} {sl : Bool}
    (h : s.refuseLaunch (ctxOf s q) p im (launchLvl p im) (launchDetl p im) sl = none) :
    let l := pendingLaunch s q p sl im
    s.launchImage q p sl im =
      ((((launchAdded s l).pairLaunch l.ctx l.ordinal l.detl).noteLaunch q).dispatched q p.num).later .admission := by
  unfold State.launchImage
  simp only [decide_eq_true_eq]
  rw [← ctxOf, ← launchLvl, ← launchDetl, h]
  rfl

theorem pendingLaunch_detl {im : Image} (sl : Bool) (h : launchDetl p im ≠ 2) : (pendingLaunch s q p sl im).detl = launchDetl p im :=
  if_neg fun hd => h hd.1

/-- Pairing and noting a launch change no memory and no slot, and keep the packets and the launches. -/
theorem noteLaunch_pairLaunch_keeps (s : State) (q ctx n d : Nat) :
    let t := (s.pairLaunch ctx n d).noteLaunch q
    t.mm = s.mm ∧ t.slots = s.slots ∧ t.al.launches = s.al.launches ∧ (t.ctx ctx).launches = (s.ctx ctx).launches ∧
      (t.queue q).packets = (s.queue q).packets := by
  obtain ⟨hnote, hpackets⟩ := noteLaunch_frame (s.pairLaunch ctx n d) q
  have hpair := pairLaunch_frame s ctx n d
  have hal : ((s.pairLaunch ctx n d).noteLaunch q).al = (s.pairLaunch ctx n d).al := by rw [hnote]
  have hctx : ((s.pairLaunch ctx n d).noteLaunch q).ctx ctx = (s.pairLaunch ctx n d).ctx ctx := by rw [State.ctx, hal, ← State.ctx]
  exact ⟨by rw [hnote, hpair], by rw [hnote, hpair], by rw [hnote, hpair], by rw [hctx, pairLaunch_launches],
    hpackets.trans (by rw [hpair]; rfl)⟩

/-- A launch that is not refused pends as the next launch of its context. -/
theorem launchImage_pends {im : Image} {sl : Bool} (hp : s.packet q p.num = some p) (hf : p.finished = none)
    (h : s.refuseLaunch (ctxOf s q) p im (launchLvl p im) (launchDetl p im) sl = none) :
    let t := s.launchImage q p sl im
    t.mm = s.mm ∧ t.slots = s.slots ∧ dispatchedOnly t q p.num ∧ (t.ctx (ctxOf s q)).launches = (s.ctx (ctxOf s q)).launches + 1 ∧
      t.al.launches = s.al.launches ++ [pendingLaunch s q p sl im] := by
  intro t
  let l := pendingLaunch s q p sl im
  obtain ⟨hmm, hslots, hlaunches, hcount, hpackets⟩ := noteLaunch_pairLaunch_keeps (launchAdded s l) q l.ctx l.ordinal l.detl
  have hadded : (launchAdded s l).ctx l.ctx = { s.ctx l.ctx with launches := l.ordinal } := setCtx_ctx ..
  have ht : t = _ := launchImage_accepted h
  rw [ht]
  refine ⟨hmm, hslots, dispatched_dispatchedOnly ((packet_congr ?_ _).trans hp) hf, hcount.trans ?_, hlaunches⟩
  · exact hpackets
  · rw [hadded]
    rfl

end

/-- What refuses a launch (18 R335; 20 R351; 22 R388; 09 R195). -/
theorem refuseLaunch_killed {s : State} {ctx : Nat} (p : Packet) (im : Image) (lvl detl : Nat) (sl : Bool) (h : (s.ctx ctx).kip = true) :
    s.refuseLaunch ctx p im lvl detl sl = some 3 := if_pos h

section
variable {s : State} {ctx : Nat} {p : Packet} {im : Image} {lvl detl : Nat} {sl : Bool} (hk : (s.ctx ctx).kip = false)
include hk

/-- Outside a kill, what refuses a launch does so with status 1. -/
theorem refuseLaunch_one (h : s.refuseLaunch ctx p im lvl detl sl ≠ none) : s.refuseLaunch ctx p im lvl detl sl = some 1 := by
  unfold State.refuseLaunch at h ⊢
  simp only [hk, Bool.false_eq_true, if_false] at h ⊢
  split_ifs at h ⊢ <;> simp_all

/-- A launch that is not refused meets what it must. -/
theorem refuseLaunch_none (h : s.refuseLaunch ctx p im lvl detl sl = none) :
    (s.ctx ctx).rootEn = true ∧ (detl = 3 → im.mergesEqual = true) ∧ s.imageSigned im = true ∧ im.rateStop.isSome = false := by
  unfold State.refuseLaunch at h
  simp only [hk, Bool.false_eq_true, if_false] at h
  split_ifs at h
  simp_all

/-- A launch that does not meet them is refused. -/
theorem refuseLaunch_unmet (h : ¬ ((s.ctx ctx).rootEn = true ∧ (detl = 3 → im.mergesEqual = true) ∧ s.imageSigned im = true ∧
    im.rateStop.isSome = false)) : s.refuseLaunch ctx p im lvl detl sl = some 1 :=
  refuseLaunch_one hk fun hn => h (refuseLaunch_none hk hn)

end

theorem imageSigned_unsigned {s : State} {im : Image} (hr : s.dv.lh.reqsig = true) (h : im.signature ≠ some true) :
    s.imageSigned im = false := by
  unfold State.imageSigned
  split
  · rename_i ok hs
    cases ok with
    | true => exact absurd hs h
    | false => rfl
  · rw [hr]
    rfl

theorem imageSigned_bad {s : State} {im : Image} (h : im.signature = some false) : s.imageSigned im = false := by
  rw [State.imageSigned, h]
  rfl

theorem imageSigned_fused {s : State} {im : Image} (h : im.signature.isSome = true) (hf : s.dv.lh.fuses ≠ 0) : s.imageSigned im = false := by
  obtain ⟨ok, hs⟩ := Option.isSome_iff_exists.1 h
  rw [State.imageSigned, hs]
  simp [hf]

/-! ### A header of the order log written anew (09 R187, R435) -/

/-- What writing the header of a context's order log keeps: the slots and the front end, the level of the context, and of its log the place
and the records. -/
def headerKept (s : State) (ctx : Nat) : Tab Slot × FrontState × Nat × Option (Nat × Nat × Nat × List LogRecord) :=
  (s.slots, s.fe, (s.ctx ctx).level, (s.ctx ctx).log.map fun l => (l.base, l.units, l.wp, l.records))

theorem logWrite_headerKept {s t : State} {ctx va : Nat} {bs : List Byte} (h : s.logWrite ctx va bs = some t) :
    headerKept t ctx = headerKept s ctx := by
  unfold State.logWrite at h
  split at h
  · cases h
  · cases h
    unfold State.deviceEvent
    rw [writeEvent_frame]
    rfl

theorem logFailed_headerKept {s : State} {ctx : Nat} (va : Nat) {l : OrderLog} (dropped : Bool) (h : (s.ctx ctx).log = some l) :
    headerKept (s.logFailed ctx va l dropped) ctx = headerKept s ctx := by
  unfold State.logFailed
  extract_lets s1 l1
  have hs1 : s1.slots = s.slots ∧ s1.fe = s.fe ∧ s1.ctx ctx = s.ctx ctx := by
    unfold s1
    split <;> exact ⟨rfl, rfl, rfl⟩
  obtain ⟨hslots, hfe, hctx⟩ := hs1
  unfold headerKept
  rw [setCtx_ctx]
  show (s1.slots, s1.fe, (s1.ctx ctx).level, some (l.base, l.units, l.wp, l.records)) = _
  rw [hslots, hfe, hctx, h]
  rfl

theorem logHeader_headerKept (s : State) (ctx off n v : Nat) : headerKept (s.logHeader ctx off n v) ctx = headerKept s ctx := by
  unfold State.logHeader
  split
  · rfl
  · next l hl =>
    split
    · next h => exact logWrite_headerKept h
    · exact logFailed_headerKept _ _ hl

theorem logHeaders_headerKept (s : State) (ctx : Nat) : headerKept (s.logHeaders ctx) ctx = headerKept s ctx := by
  unfold State.logHeaders
  split
  · rfl
  · rw [logHeader_headerKept, logHeader_headerKept, logHeader_headerKept]

/-- The level that STAT names is the one given; else nothing that a header keeps changes. -/
theorem holdLevel_headerKept (s : State) (ctx level : Nat) : headerKept (s.holdLevel ctx level) ctx =
    (s.slots, s.fe, level, (s.ctx ctx).log.map fun l => (l.base, l.units, l.wp, l.records)) := by
  unfold State.holdLevel
  split
  · next h => rw [headerKept, h]
  · rw [logHeaders_headerKept, headerKept, setCtx_ctx]
    rfl

/-! ### Slots in no region at a change of level (09 R197) -/

/-- A slot without clones that takes a level: at once, or when its firing has ended. -/
def leveled (level : Nat) (sl : Slot) : Slot :=
  if sl.firing.isSome then { sl with due.level := some level } else { sl with detl := level }

theorem leveled_leveled (level : Nat) (sl : Slot) : leveled level (leveled level sl) = leveled level sl := by
  unfold leveled
  by_cases h : sl.firing.isSome = true <;> simp [h]

theorem leveled_pl (level : Nat) (sl : Slot) : (leveled level sl).pl = sl.pl := by
  unfold leveled
  split <;> rfl

/-- The clone set of a slot is read off its placement and the configurations. -/
theorem cloneSet_congr {s t : State} {k : Nat} (hpl : (t.slot k).map (·.pl) = (s.slot k).map (·.pl)) (hal : t.al = s.al) :
    t.cloneSet k = s.cloneSet k := by
  have hcfg : ∀ u : State, ((u.slot k).bind fun sl => u.cfg sl.pl.cfg) = ((u.slot k).map (·.pl)).bind fun pl => u.al.cfgs.find pl.cfg :=
    fun u => by cases u.slot k <;> rfl
  unfold State.cloneSet
  rw [hcfg, hcfg, hpl, hal]

/-- Below D3 a change of level is an update of the slot. -/
theorem levelLone_eq {s : State} {level : Nat} (h3 : level ≠ 3) (ks : Nat × Slot) : s.levelLone level ks =
    s.updSlot ks.1 (if (s.cloneSet ks.1).isSome then fun sl => { sl with due.level := some level } else leveled level) := by
  unfold State.levelLone
  split
  · next h => rw [if_neg h3, h, Option.isSome_some, if_pos rfl]
  · next h =>
    rw [h]
    rfl

theorem foldl_levelLone_frame {level : Nat} (h3 : level ≠ 3) (l : List (Nat × Slot)) (s : State) :
    l.foldl (fun s ks => s.levelLone level ks) s = { s with slots := (l.foldl (fun s ks => s.levelLone level ks) s).slots } := by
  induction l generalizing s with
  | nil => rfl
  | cons x l ih =>
    rw [List.foldl_cons, ih, levelLone_eq h3]
    rfl

/-- A slot without clones, of those that are given a level, takes it once. -/
theorem foldl_levelLone_slot {level : Nat} (h3 : level ≠ 3) {k : Nat} (l : List (Nat × Slot)) {s : State} {sl : Slot}
    (hs : s.slot k = some sl) (hc : s.cloneSet k = none) :
    (l.foldl (fun s ks => s.levelLone level ks) s).slot k = some (if k ∈ l.map (·.1) then leveled level sl else sl) := by
  induction l generalizing s sl with
  | nil => exact hs
  | cons x l ih =>
    rw [List.foldl_cons, levelLone_eq h3]
    by_cases hx : x.1 = k
    · have hnew : (s.updSlot x.1 (leveled level)).slot k = some (leveled level sl) := by rw [hx, updSlot_slot, hs, Option.map_some]
      have hclones : (s.updSlot x.1 (leveled level)).cloneSet k = none := by
        rw [← hc]
        refine cloneSet_congr ?_ rfl
        rw [hnew, hs, Option.map_some, Option.map_some, leveled_pl]
      have hmem : k ∈ (x :: l).map (·.1) := List.mem_cons.2 (.inl hx.symm)
      have hstep : (s.cloneSet x.1).isSome = false := by rw [hx, hc]; rfl
      rw [hstep, if_neg Bool.false_ne_true, ih hnew hclones, leveled_leveled, ite_self, if_pos hmem]
    · have hnew : ∀ g, (s.updSlot x.1 g).slot k = some sl := fun g => by rw [updSlot_slot_other s g (Ne.symm hx), hs]
      have hclones : ∀ g, (s.updSlot x.1 g).cloneSet k = none := fun g => by
        rw [← hc]
        exact cloneSet_congr (by rw [hnew, hs]) rfl
      rw [ih (hnew _) (hclones _), List.map_cons]
      simp only [List.mem_cons, Ne.symm hx, false_or]

/-- Below D3 the change of what is in no region leaves the contexts and the front end as they are. -/
theorem changeLone_keeps {s : State} {level : Nat} (h3 : level ≠ 3) (ctx : Nat) :
    (s.changeLone ctx level).al.ctxs = s.al.ctxs ∧ (s.changeLone ctx level).fe = s.fe := by
  have hfold := foldl_levelLone_frame h3 (s.slots.filter fun ks => ks.2.pl.ctx == ctx && ks.2.pl.region.isNone) s
  have hctxs := congrArg (fun t : State => t.al.ctxs) hfold
  have hfe := congrArg (fun t : State => t.fe) hfold
  exact ⟨hctxs, hfe⟩

theorem changeLone_slot {s : State} {ctx level k : Nat} {sl : Slot} (h3 : level ≠ 3) (hs : s.slot k = some sl) (hctx : sl.pl.ctx = ctx)
    (hlone : sl.pl.region = none) (hc : s.cloneSet k = none) : (s.changeLone ctx level).slot k = some (leveled level sl) := by
  refine (foldl_levelLone_slot h3 _ hs hc).trans (congrArg some (if_pos ?_))
  refine List.mem_map.2 ⟨(k, sl), List.mem_filter.2 ⟨mem_of_find hs, ?_⟩, rfl⟩
  rw [hctx, hlone]
  simp

/-! ### DETSET (09 R188, R191, R197) -/

section
variable {s : State} {q : Nat} {p : Packet}

/-- With no region of the context to wait for, a change of level is done at once. -/
theorem changeLevel_noRegions {s : State} {ctx : Nat} (level q n : Nat)
    (h : ∀ r ∈ s.en.regions, ∀ c, s.cfg r.2.cfg = some c → c.launch.ctx ≠ ctx) :
    s.changeLevel ctx level q n = (((s.changeLone ctx level).logHeaders ctx).holdLevel ctx level).finishPacket q n 0 := by
  have hnone : (s.en.regions.filter fun r => (s.cfg r.2.cfg).any fun c => c.launch.ctx == ctx && decide (c.state ≠ .ended)) = [] := by
    refine List.filter_eq_nil_iff.2 fun r hr hany => ?_
    obtain ⟨c, hc, hp⟩ := (Option.any_eq_true _ _).1 hany
    exact h r hr c hc (beq_iff_eq.1 (Bool.and_eq_true_iff.1 hp).1)
  unfold State.changeLevel
  dsimp only
  rw [hnone]
  rfl

/-- What a DETSET to D0 or D1 leaves: the new log and level, and what is in no region at the level. -/
theorem detsetPacket_low (hp : s.packet q p.num = some p) (hf : p.finished = none) (hlow : p.f 28 1 ≤ 1)
    (hreg : ∀ r ∈ s.en.regions, ∀ c, s.cfg r.2.cfg = some c → c.launch.ctx ≠ ctxOf s q) :
    let t := s.detsetPacket q p
    (t.ctx (ctxOf s q)).level = p.f 28 1 ∧ completes t q p.num 0 ∧
      (∃ l, (t.ctx (ctxOf s q)).log = some l ∧ l.base = p.f 16 8 ∧ l.units = p.f 24 4 ∧ l.wp = 0 ∧ l.records = []) ∧
      ∀ k old, s.slot k = some old → old.pl.ctx = ctxOf s q → old.pl.region = none → s.cloneSet k = none →
        t.slot k = some (leveled (p.f 28 1) old) := by
  intro t
  have h3 : p.f 28 1 ≠ 3 := by omega
  let s1 := (s.setCtx (ctxOf s q) { s.ctx (ctxOf s q) with log := some (newLog p []) }).dispatched q p.num
  let s2 := s1.changeLone (ctxOf s q) (p.f 28 1)
  let s3 := (s2.logHeaders (ctxOf s q)).holdLevel (ctxOf s q) (p.f 28 1)
  have ht : t = s3.finishPacket q p.num 0 := by
    rw [← changeLevel_noRegions (s := s1) _ _ _ hreg]
    unfold t State.detsetPacket
    dsimp only
    rw [if_pos (by omega), ← ctxOf]
    simp [h3]
    rfl
  have hctx1 : s1.ctx (ctxOf s q) = { s.ctx (ctxOf s q) with log := some (newLog p []) } := setCtx_ctx ..
  obtain ⟨hctxs, hfe⟩ := changeLone_keeps (s := s1) h3 (ctxOf s q)
  have hctx2 : s2.ctx (ctxOf s q) = s1.ctx (ctxOf s q) := congrArg (fun c : Tab Ctx => (c.find (ctxOf s q)).getD Ctx.zero) hctxs
  have hheaders := logHeaders_headerKept s2 (ctxOf s q)
  have hheld := holdLevel_headerKept (s2.logHeaders (ctxOf s q)) (ctxOf s q) (p.f 28 1)
  simp only [headerKept, hctx2, hctx1, Prod.mk.injEq] at hheaders hheld
  obtain ⟨hslots2, hfe2, -, hlog2⟩ := hheaders
  obtain ⟨hslots3, hfe3, hlevel, hlog3⟩ := hheld
  have hpacket : s3.packet q p.num = some { p with dispatched := true } := by
    have hfe3' : s3.fe = s1.fe := by rw [hfe3, hfe2, hfe]
    rw [State.packet, State.queue, hfe3']
    exact dispatched_packet (s := s.setCtx _ _) hp
  rw [ht]
  refine ⟨hlevel, finishPacket_completes 0 hpacket rfl hf, ?_, fun k old hk hctx hlone hc => ?_⟩
  · have hlog : (s3.ctx (ctxOf s q)).log.map (fun l => (l.base, l.units, l.wp, l.records)) = some (p.f 16 8, p.f 24 4, 0, []) :=
      hlog3.trans hlog2
    obtain ⟨l, hl, hfields⟩ := Option.map_eq_some_iff.1 hlog
    simp only [Prod.mk.injEq] at hfields
    exact ⟨l, hl, hfields⟩
  · rw [State.slot, finishPacket_slots, hslots3, hslots2]
    exact changeLone_slot (s := s1) h3 hk hctx hlone hc

/-- A source log whose header says DIV, or that is not complete and in canonical order, is refused. -/
theorem detsetPacket_badSource {h : List Byte} {rs : List LogRecord} (hlevel : p.f 28 1 = 2) (hh : s.ctxRead (ctxOf s q) (p.f 32 8) 64 = .ok h)
    (hrs : s.readRecords (ctxOf s q) (p.f 32 8 + 64) (p.f 40 8) = .ok rs) (hbad : field h 24 1 % 2 = 1 ∨ canonical none rs = false) :
    s.detsetPacket q p = s.finishNow q p.num 1 := by
  have hbad' : field h 24 1 % 2 = 1 ∨ (!canonical none rs) = true := hbad.imp_right fun hc => by rw [hc]; rfl
  unfold State.detsetPacket
  simp only [hlevel, ne_eq, not_true_eq_false, if_false]
  rw [← ctxOf, hh, hrs]
  simp only [bind, Except.bind, pure, Except.pure, if_pos hbad']

end

/-! ### A DELTA is dispatched (18 R340) -/

section
variable {s : State} {q : Nat} {p : Packet}

theorem exec_delta_dispatch (hnone : s.fe.deltas.find? (fun d => d.queue == q) = none) (h : s.headOf q 0x03 = some p) :
    exec (.delta q) s = .next (s.deltaPacket q p) := by
  change execDelta q s = _
  rw [execDelta, hnone, h]

theorem exec_delta_underWay {d : Delta} {c : Configuration} (h : deltaUnderWay s q d c) : exec (.delta q) s = .next (s.stepDelta d) := by
  obtain ⟨hfind, hjetty, hhead, -⟩ := h
  change execDelta q s = _
  rw [execDelta, hfind, hhead, hjetty]
  rfl

/-- A DELTA with an image for a configuration that has not ended is accepted as R340 says, or completes with status 1. -/
theorem deltaPacket_found {new : Image} {cfg : Nat} {c : Configuration} (himage : s.readImage (ctxOf s q) (p.f 16 8) = .ok (some new))
    (hfind : s.al.cfgs.find? (fun c => c.2.launch.ctx == ctxOf s q && c.2.launch.ordinal == p.f 24 8 && decide (c.2.state ≠ .ended)) =
      some (cfg, c)) :
    (deltaTaken s q p cfg c new → s.deltaPacket q p = s.acceptDelta q p cfg new (s.touched cfg c new)) ∧
    (¬ deltaTaken s q p cfg c new → s.deltaPacket q p = s.finishNow q p.num 1) := by
  let refused := !s.imageSigned new ∨ c.launch.image.hash.toNat ≠ ofBytes ((p.bytes.drop 32).take 32).reverse ∨
    !deltaOk c.launch.image new ∨ !new.accepted c.launch.surrogate c.launch.dataBase ∨ new.rateStop.isSome ∨
    !s.deltaDraw cfg (ctxOf s q) (s.touched cfg c new) ∨
    !(s.touched cfg c new).all fun x => (s.deltaRun x.1 x.2.1 x.2.2.code.length).isSome
  have hdelta : s.deltaPacket q p =
      if refused then s.finishNow q p.num 1 else s.acceptDelta q p cfg new (s.touched cfg c new) := by
    unfold State.deltaPacket
    dsimp only
    rw [← ctxOf, himage]
    dsimp only
    rw [hfind]
  have htaken : deltaTaken s q p cfg c new ↔ ¬ refused := by
    unfold deltaTaken refused
    simp only [not_or, Bool.not_eq_true', Bool.not_eq_false, ne_eq, not_not, List.all_eq_true, Bool.not_eq_true, Option.isSome_eq_false_iff,
      Option.isNone_iff_eq_none]
  rw [hdelta]
  exact ⟨fun h => if_neg (htaken.1 h), fun h => if_pos (not_not.1 fun hn => h (htaken.2 hn))⟩

/-- Under D3 the regions that a DELTA touches are to drain; else it joins those under way. -/
theorem acceptDelta_effect {cfg : Nat} {new : Image} {todo : List (Nat × Slot × Actor)} (hp : s.packet q p.num = some p)
    (hf : p.finished = none) :
    let t := s.acceptDelta q p cfg new todo
    dispatchedOnly t q p.num ∧ t.slots = s.slots ∧ t.mm = s.mm ∧ t.al = s.al ∧
      t.fe.deltas = s.fe.deltas ++ [{ queue := q, packet := p.num, cfg := cfg, image := new, stage := 0 }] := by
  unfold State.acceptDelta
  extract_lets saved s1 d
  have hs1 : (s1.slots, s1.mm, s1.al, s1.fe) = (s.slots, s.mm, s.al, s.fe) :=
    foldl_keeps (fun t : State => (t.slots, t.mm, t.al, t.fe)) (fun t r => by split <;> rfl) _ s
  simp only [Prod.mk.injEq] at hs1
  obtain ⟨hslots, hmm, hal, hfe⟩ := hs1
  refine ⟨dispatched_dispatchedOnly (p := p) ?_ hf, hslots, hmm, hal, congrArg (fun fe : FrontState => fe.deltas ++ [d]) hfe⟩
  rw [← hp]
  exact packet_congr (congrArg (fun fe : FrontState => ((fe.queues.find q).getD Queue.zero).packets) hfe) _

end

/-! ### The slots that a DELTA touches (18 R340, 02 R23) -/

theorem mem_keys_iff {α : Type} {t : Tab α} {k : Nat} : k ∈ t.map (·.1) ↔ (t.find k).isSome := by
  induction t with
  | nil => simp [Tab.find]
  | cons x t ih =>
    obtain ⟨n, v⟩ := x
    by_cases hn : n = k
    · simp [Tab.find, hn]
    · simp only [Tab.find, if_neg hn, ← ih, List.map_cons, List.mem_cons, Ne.symm hn, false_or]

/-- The slots of the tiles that a DELTA touches. -/
theorem mem_touchedTiles {s : State} {todo : List (Nat × Slot × Actor)} {k : Nat} :
    k ∈ s.touchedTiles todo ↔ (s.slot k).isSome ∧ ∃ x ∈ todo, tileOf x.1 = tileOf k := by
  have hfilter : k ∈ s.touchedTiles todo ↔ k ∈ s.slots.map (·.1) ∧ ∃ x ∈ todo, tileOf x.1 = tileOf k := by
    simp only [State.touchedTiles, List.mem_map, List.mem_filter, List.any_eq_true, beq_iff_eq]
    constructor
    · rintro ⟨ks, ⟨hks, hx⟩, rfl⟩
      exact ⟨⟨ks, hks, rfl⟩, hx⟩
    · rintro ⟨⟨ks, hks, rfl⟩, hx⟩
      exact ⟨ks, ⟨hks, hx⟩, rfl⟩
  rw [hfilter, mem_keys_iff, State.slot]

theorem strictRegions_nil {cfg : Nat} {todo : List (Nat × Slot × Actor)} (h : ∀ x ∈ todo, x.2.1.detl ≠ 3) : strictRegions cfg todo = [] := by
  have hnone : todo.filter (fun x => x.2.1.detl == 3) = [] :=
    List.filter_eq_nil_iff.2 fun x hx he => h x hx (beq_iff_eq.1 he)
  rw [strictRegions, hnone]
  rfl

theorem countGens_genStep (sl : Slot) (a : Actor) (i : Nat) : (sl.countGens a).rateGen.toList[i]? = genStep sl a i := by
  unfold Slot.countGens genStep
  rw [Vector.toList_map, List.getElem?_map, Vector.toList_zipIdx, List.getElem?_zipIdx, Option.map_map]
  simp [Function.comp_def]

/-! ### The touched tiles stop (18 R340 step 1) -/

/-- A slot that stands still: stopped, without a firing. -/
def halted (v : Slot) : Prop := v.due.stopped = true ∧ v.firing = none

/-- A slot whose firing, where it has one, may be voided. -/
def voidable (u : Slot) : Prop := ∀ f, u.firing = some f → f.irr = false

/-- What a DELTA does to one slot of a tile that it touches. -/
def haltSlot (s : State) (k : Nat) : State :=
  match s.slot k with
  | some sl =>
    if sl.firing.any (·.irr) then s
    else
      let h := sl.due.handler || sl.firing.any (·.handler)
      let t := if sl.firing.isSome then s.dropFiring k else s
      t.updSlot k fun sl => { sl with due.stopped := true, due.handler := h }
  | none => s

theorem haltTouched_eq (s : State) (keys : List Nat) : s.haltTouched keys = keys.foldl haltSlot s := rfl

theorem dropFiring_frame (s : State) (k : Nat) :
    s.dropFiring k = { s with slots := (s.dropFiring k).slots, tiles := (s.dropFiring k).tiles } := by
  unfold State.dropFiring
  extract_lets wait s1 t
  split <;> rfl

theorem haltSlot_frame (s : State) (k : Nat) : haltSlot s k = { s with slots := (haltSlot s k).slots, tiles := (haltSlot s k).tiles } := by
  unfold haltSlot
  split
  · split
    · rfl
    · extract_lets h t
      have ht : t = { s with slots := t.slots, tiles := t.tiles } := by
        unfold t
        split
        · exact dropFiring_frame s k
        · rfl
      rw [ht]
      rfl
  · rfl

theorem haltTouched_frame (s : State) (keys : List Nat) :
    s.haltTouched keys = { s with slots := (s.haltTouched keys).slots, tiles := (s.haltTouched keys).tiles } := by
  rw [haltTouched_eq]
  induction keys generalizing s with
  | nil => rfl
  | cons k keys ih => rw [List.foldl_cons, ih, haltSlot_frame]

theorem dropFiring_placed {s : State} {k : Nat} {sl : Slot} (h : s.slot k = some sl) :
    ∃ u, (s.dropFiring k).slot k = some u ∧ u.firing = none ∧ u.pl = sl.pl ∧ u.rateGen = sl.rateGen := by
  unfold State.dropFiring
  extract_lets wait s1 t
  have hs1 : ∃ u, s1.slot k = some u ∧ u.firing = none ∧ u.pl = sl.pl ∧ u.rateGen = sl.rateGen := by
    unfold s1
    rw [updSlot_slot, h]
    exact ⟨_, rfl, rfl, rfl, rfl⟩
  split <;> exact hs1

/-- A slot whose firing may be voided stands still, where it was placed and with its generations. -/
theorem haltSlot_same {s : State} {k : Nat} {u : Slot} (h : s.slot k = some u) (hv : voidable u) :
    ∃ v, (haltSlot s k).slot k = some v ∧ halted v ∧ v.pl = u.pl ∧ v.rateGen = u.rateGen := by
  have hirr : u.firing.any (·.irr) = false := by
    cases hf : u.firing with
    | none => rfl
    | some f => exact hv f hf
  unfold haltSlot
  rw [h]
  dsimp only
  rw [hirr, if_neg Bool.false_ne_true, updSlot_slot]
  cases hf : u.firing with
  | none =>
    rw [Option.isSome_none, if_neg Bool.false_ne_true, h]
    exact ⟨_, rfl, ⟨rfl, hf⟩, rfl, rfl⟩
  | some f =>
    obtain ⟨w, hw, hnone, hpl, hgen⟩ := dropFiring_placed h
    rw [Option.isSome_some, if_pos rfl, hw]
    exact ⟨_, rfl, ⟨rfl, hnone⟩, hpl, hgen⟩

theorem haltSlot_other {s : State} {j k : Nat} (h : j ≠ k) : (haltSlot s k).slot j = s.slot j := by
  unfold haltSlot
  split
  · split
    · rfl
    · dsimp only
      rw [updSlot_slot_other _ _ h]
      split
      · exact dropFiring_slot_other s h
      · rfl
  · rfl

theorem halted_voidable {v : Slot} (h : halted v) : voidable v := fun f hf => by
  rw [h.2] at hf
  cases hf

/-- Of the slots that are to halt each stands still whose firing may be voided. -/
theorem haltTouched_slot {k : Nat} {u : Slot} (keys : List Nat) {s : State} (h : s.slot k = some u) (hv : voidable u) :
    ∃ v, (s.haltTouched keys).slot k = some v ∧ voidable v ∧ (k ∈ keys ∨ halted u → halted v) ∧ v.pl = u.pl ∧ v.rateGen = u.rateGen := by
  rw [haltTouched_eq]
  induction keys generalizing s u with
  | nil => exact ⟨u, h, hv, fun hk => hk.elim (fun hn => absurd hn List.not_mem_nil) id, rfl, rfl⟩
  | cons j keys ih =>
    by_cases hj : k = j
    · subst hj
      obtain ⟨w, hw, hhalt, hpl, hgen⟩ := haltSlot_same h hv
      obtain ⟨v, hv, hvoid, hhalted, hpl', hgen'⟩ := ih hw (halted_voidable hhalt)
      exact ⟨v, hv, hvoid, fun _ => hhalted (.inr hhalt), hpl'.trans hpl, hgen'.trans hgen⟩
    · obtain ⟨v, hv, hvoid, hhalted, hpl, hgen⟩ := ih ((haltSlot_other hj).trans h) hv
      refine ⟨v, hv, hvoid, fun hk => hhalted (hk.imp_left fun hm => ?_), hpl, hgen⟩
      exact (List.mem_cons.1 hm).resolve_left hj

/-! ### The generations turn odd (18 R340) -/

section
variable {β : Type} {g : Nat × β → Slot → Slot}

theorem foldl_updSlot_slot_other {k : Nat} {l : List (Nat × β)} (h : k ∉ l.map (·.1)) (s : State) :
    (l.foldl (fun (s : State) x => s.updSlot x.1 (g x)) s).slot k = s.slot k := by
  induction l generalizing s with
  | nil => rfl
  | cons y l ih =>
    obtain ⟨hy, hl⟩ := not_or.1 fun hm => h (List.mem_cons.2 hm)
    exact (ih hl _).trans (updSlot_slot_other s _ hy)

/-- Updates of different slots, each as its own makes it. -/
theorem foldl_updSlot_slot {l : List (Nat × β)} (hnd : (l.map (·.1)).Nodup) {x : Nat × β} (hx : x ∈ l) (s : State) :
    (l.foldl (fun (s : State) x => s.updSlot x.1 (g x)) s).slot x.1 = (s.slot x.1).map (g x) := by
  induction l generalizing s with
  | nil => cases hx
  | cons y l ih =>
    obtain ⟨hy, hnd⟩ := List.nodup_cons.1 hnd
    rcases List.mem_cons.1 hx with rfl | hx
    · exact (foldl_updSlot_slot_other hy _).trans (updSlot_slot ..)
    · have hne : x.1 ≠ y.1 := fun h => hy (List.mem_map.2 ⟨x, hx, h⟩)
      exact (ih hnd hx _).trans (congrArg (Option.map (g x)) (updSlot_slot_other s _ hne))

/-- What each update keeps of a slot, all keep. -/
theorem foldl_updSlot_keeps {γ : Type} (f : Slot → γ) (hf : ∀ x u, f (g x u) = f u) (l : List (Nat × β)) (s : State) (k : Nat) :
    ((l.foldl (fun (s : State) x => s.updSlot x.1 (g x)) s).slot k).map f = (s.slot k).map f := by
  refine foldl_keeps (fun t : State => (t.slot k).map f) (fun s x => ?_) l s
  by_cases hk : k = x.1
  · rw [hk, updSlot_slot, Option.map_map]
    exact congrFun (congrArg Option.map (funext fun u => hf x u)) _
  · rw [updSlot_slot_other s _ hk]

theorem foldl_updSlot_frame (l : List (Nat × β)) (s : State) : l.foldl (fun (s : State) x => s.updSlot x.1 (g x)) s =
    { s with slots := (l.foldl (fun (s : State) x => s.updSlot x.1 (g x)) s).slots } := by
  induction l generalizing s with
  | nil => rfl
  | cons x l ih => rw [List.foldl_cons, ih]; rfl

end

/-- The list of DELTAs under way where one of them has come to stage 1. -/
def stageOne (d x : Delta) : Delta := if x.queue == d.queue && x.packet == d.packet then { x with stage := 1 } else x

theorem find_stageOne {l : List Delta} {q : Nat} {d : Delta} (h : l.find? (fun d => d.queue == q) = some d) :
    (l.map (stageOne d)).find? (fun d => d.queue == q) = some { d with stage := 1 } := by
  have hqueue : ((fun d : Delta => d.queue == q) ∘ stageOne d) = fun d => d.queue == q := by
    funext x
    unfold stageOne
    dsimp only [Function.comp]
    split <;> rfl
  rw [List.find?_map, hqueue, h, Option.map_some, stageOne, beq_self_eq_true, beq_self_eq_true]
  rfl

section
variable {s : State} {q : Nat} {d : Delta} {c : Configuration}

theorem stepDelta_placed (hc : s.cfg d.cfg = some c) (hplaced : c.state = .placed) (hk : (s.ctx c.launch.ctx).kip = false) :
    s.stepDelta d =
      let todo := s.touched d.cfg c d.image
      if d.stage = 0 then
        if (strictRegions d.cfg todo).any fun r => (s.region r).any fun x => !s.quiescent x then s
        else
          let tiles := s.touchedTiles todo
          let s1 := s.haltTouched tiles
          if tiles.any fun k => (s1.slot k).any (·.firing.isSome) then s1
          else
            let s2 := todo.foldl (fun (s : State) (x : Nat × Slot × Actor) => s.updSlot x.1 fun sl => sl.countGens x.2.2) s1
            { s2 with fe.deltas := s2.fe.deltas.map (stageOne d) }
      else
        (todo.foldl (fun (s : State) (x : Nat × Slot × Actor) => (s.slot x.1).elim s fun sl => s.applyDelta x.1 sl x.2.2) s).endDelta d
          todo := by
  unfold State.stepDelta
  dsimp only
  rw [hc]
  dsimp only
  rw [hplaced]
  dsimp only
  rw [hk, if_neg Bool.false_ne_true]
  rfl

/-- Outside D3, with no irrevocable firing on the tiles that it touches, a DELTA halts them and turns the generations odd. -/
theorem stepDelta_halts (h : deltaUnderWay s q d c) (hplaced : c.state = .placed) (hk : (s.ctx c.launch.ctx).kip = false) (hstage : d.stage = 0)
    (hlow : ∀ x ∈ s.touched d.cfg c d.image, x.2.1.detl ≠ 3)
    (hvoid : ∀ k u f, s.slot k = some u → onTouchedTile s d c k → u.firing = some f → f.irr = false) :
    let t := s.stepDelta d
    t.mm = s.mm ∧ t.fe.deltas.find? (fun d => d.queue == q) = some { d with stage := 1 } ∧
      (∀ x ∈ s.touched d.cfg c d.image, ∃ sl, t.slot x.1 = some sl ∧ sl.pl = x.2.1.pl ∧ ∀ i, sl.rateGen.toList[i]? = genStep x.2.1 x.2.2 i) ∧
      ∀ k u, s.slot k = some u → onTouchedTile s d c k → ∃ v, t.slot k = some v ∧ v.due.stopped = true ∧ v.firing = none := by
  obtain ⟨hfind, -, -, hc, hslots, hnd⟩ := h
  intro t
  let todo := s.touched d.cfg c d.image
  let s1 := s.haltTouched (s.touchedTiles todo)
  let s2 := todo.foldl (fun (s : State) (x : Nat × Slot × Actor) => s.updSlot x.1 fun sl => sl.countGens x.2.2) s1
  have hhalt : ∀ k u, s.slot k = some u → onTouchedTile s d c k →
      ∃ v, s1.slot k = some v ∧ halted v ∧ v.pl = u.pl ∧ v.rateGen = u.rateGen := fun k u hu hon => by
    obtain ⟨v, hv, -, hh, hkept⟩ := haltTouched_slot (s.touchedTiles todo) hu fun f hf => hvoid k u f hu hon hf
    exact ⟨v, hv, hh (.inl (mem_touchedTiles.2 ⟨by rw [hu]; rfl, hon⟩)), hkept⟩
  have hstill : ((s.touchedTiles todo).any fun k => (s1.slot k).any (·.firing.isSome)) = false := by
    refine List.any_eq_false.2 fun k hkey => ?_
    obtain ⟨hsome, hon⟩ := mem_touchedTiles.1 hkey
    obtain ⟨u, hu⟩ := Option.isSome_iff_exists.1 hsome
    obtain ⟨v, hv, ⟨-, hnone⟩, -⟩ := hhalt k u hu hon
    rw [hv, Option.any_some, hnone]
    exact Bool.false_ne_true
  have ht : t = { s2 with fe.deltas := s2.fe.deltas.map (stageOne d) } := by
    unfold t
    rw [stepDelta_placed hc hplaced hk]
    dsimp only
    rw [if_pos hstage, strictRegions_nil hlow]
    exact (if_neg Bool.false_ne_true).trans (if_neg (by rw [hstill]; exact Bool.false_ne_true))
  have hs2 : s2 = _ := foldl_updSlot_frame todo s1
  have hs1 : s1 = _ := haltTouched_frame s (s.touchedTiles todo)
  have hmm : s2.mm = s.mm := by rw [hs2, hs1]
  have hfe : s2.fe = s.fe := by rw [hs2, hs1]
  rw [ht]
  refine ⟨hmm, ?_, fun x hx => ?_, fun k u hu hon => ?_⟩
  · show (s2.fe.deltas.map (stageOne d)).find? _ = _
    rw [hfe]
    exact find_stageOne hfind
  · obtain ⟨v, hv, -, hpl, hgen⟩ := hhalt x.1 x.2.1 (hslots x hx) ⟨x, hx, rfl⟩
    have hx2 : s2.slot x.1 = some (v.countGens x.2.2) := (foldl_updSlot_slot hnd hx s1).trans (by rw [hv]; rfl)
    refine ⟨_, hx2, hpl, fun i => ?_⟩
    rw [countGens_genStep, genStep, genStep, hgen, hpl]
  · obtain ⟨v, hv, hh, -⟩ := hhalt k u hu hon
    have hkept := foldl_updSlot_keeps (g := fun x : Nat × Slot × Actor => fun sl => sl.countGens x.2.2) (fun v => (v.due.stopped, v.firing))
      (fun _ _ => rfl) todo s1 k
    rw [hv, Option.map_some, hh.1, hh.2] at hkept
    obtain ⟨w, hw, hwkept⟩ := Option.map_eq_some_iff.1 hkept
    exact ⟨w, hw, Prod.mk.inj hwkept⟩

end

/-! ### The changes of a DELTA are made (18 R340, 02 R23) -/

/-- What refilling its layers keeps of a slot: its placement, its generations, and what is due. -/
def unlayered (sl : Slot) : Placement × Vector Nat 8 × Due := (sl.pl, sl.rateGen, sl.due)

/-- What refilling layers keeps of the machine: the configurations, the queues and the slots but for their layers. -/
def fillKept (s : State) (k : Nat) : AllocState × FrontState × Option (Placement × Vector Nat 8 × Due) := (s.al, s.fe, (s.slot k).map unlayered)

theorem layerBits_fillKept (s : State) (ctx layer : Nat) (res flt : Bool) (k : Nat) :
    fillKept (s.layerBits ctx layer res flt) k = fillKept s k := by
  have hslot : ((s.layerBits ctx layer res flt).slot k).map unlayered = (s.slot k).map unlayered := by
    refine (congrArg (Option.map unlayered) (find_map_keyed s.slots _ (fun x => ?_) k)).trans ?_
    · split <;> rfl
    · rw [Option.map_map]
      refine congrFun (congrArg Option.map (funext fun v => ?_)) _
      dsimp only [Function.comp]
      split <;> rfl
  rw [fillKept, hslot]
  rfl

theorem fillLayers_fillKept (s : State) (ctx : Nat) (layers : List Nat) (k : Nat) : fillKept (s.fillLayers ctx layers) k = fillKept s k := by
  unfold State.fillLayers
  refine foldl_keeps (fillKept · k) (fun s y => ?_) layers s
  dsimp only
  split
  · rfl
  · rfl
  · exact layerBits_fillKept ..
  · rfl

theorem writeRun_fillKept (s : State) (tile base : Nat) (code : List Dword) (k : Nat) :
    fillKept (s.writeRun tile base code) k = fillKept s k := by
  unfold State.writeRun
  extract_lets s1
  split <;> rfl

/-- A slot with its new actor: the generations counted, stopped only while it waits for Jetty policy. -/
theorem applyDelta_slot (s : State) (k : Nat) (sl : Slot) (a : Actor) : ∃ v, (s.applyDelta k sl a).slot k = some v ∧ v.pl.actor = a ∧
    v.rateGen = (sl.countGens a).rateGen ∧ v.due = { sl.due with stopped := sl.due.policy.isSome } := by
  have hkept : fillKept (s.applyDelta k sl a) k = _ := (fillLayers_fillKept ..).trans (writeRun_fillKept ..)
  have hslot := congrArg (fun x => x.2.2) hkept
  simp only [fillKept, setSlot_slot, Option.map_some] at hslot
  obtain ⟨v, hv, hun⟩ := Option.map_eq_some_iff.1 hslot
  obtain ⟨hpl, hgen, hdue⟩ : v.pl = _ ∧ v.rateGen = _ ∧ v.due = _ := by simpa only [unlayered, Prod.mk.injEq] using hun
  exact ⟨v, hv, by rw [hpl]; rfl, hgen, hdue⟩

theorem applyDelta_fillKept (s : State) {k j : Nat} (sl : Slot) (a : Actor) (h : j ≠ k) : fillKept (s.applyDelta k sl a) j = fillKept s j := by
  refine ((fillLayers_fillKept ..).trans (writeRun_fillKept ..)).trans ?_
  rw [fillKept, setSlot_slot_other s _ h]
  rfl

/-- The change of one touched slot, where it stands. -/
def applyTo (s : State) (x : Nat × Slot × Actor) : State := (s.slot x.1).elim s fun sl => s.applyDelta x.1 sl x.2.2

/-- A slot that a DELTA has changed. -/
def deltaMade (sl : Slot) (a : Actor) (v : Slot) : Prop :=
  v.pl.actor = a ∧ v.rateGen = (sl.countGens a).rateGen ∧ v.due = { sl.due with stopped := sl.due.policy.isSome }

theorem deltaMade_congr {sl sl' v v' : Slot} {a : Actor} (hsl : unlayered sl' = unlayered sl) (hv : unlayered v' = unlayered v)
    (h : deltaMade sl a v) : deltaMade sl' a v' := by
  simp only [unlayered, Prod.mk.injEq] at hsl hv
  obtain ⟨hpl, hgen, hdue⟩ := hsl
  obtain ⟨hpl', hgen', hdue'⟩ := hv
  obtain ⟨ha, hg, hd⟩ := h
  refine ⟨by rw [hpl', ha], ?_, by rw [hdue', hd, hdue]⟩
  rw [hgen', hg, Slot.countGens, Slot.countGens, hpl, hgen]

theorem applyTo_fillKept (s : State) {x : Nat × Slot × Actor} {k : Nat} (h : k ≠ x.1) : fillKept (applyTo s x) k = fillKept s k := by
  unfold applyTo
  cases s.slot x.1 with
  | none => rfl
  | some sl => exact applyDelta_fillKept s sl x.2.2 h

theorem applyTo_keeps (s : State) (x : Nat × Slot × Actor) : (applyTo s x).al = s.al ∧ (applyTo s x).fe = s.fe := by
  have hother := applyTo_fillKept s (Nat.succ_ne_self x.1)
  exact ⟨congrArg Prod.fst hother, congrArg (fun z => z.2.1) hother⟩

theorem applyTo_policy (s : State) (x : Nat × Slot × Actor) (k : Nat) :
    ((applyTo s x).slot k).map (·.due.policy) = (s.slot k).map (·.due.policy) := by
  by_cases hk : k = x.1
  · subst hk
    unfold applyTo
    cases hs : s.slot x.1 with
    | none => exact congrArg _ hs
    | some sl =>
      obtain ⟨v, hv, -, -, hdue⟩ := applyDelta_slot s x.1 sl x.2.2
      rw [Option.elim_some, hv, Option.map_some, hdue, Option.map_some]
  · have hslot := congrArg (fun z => z.2.2.map fun u : Placement × Vector Nat 8 × Due => u.2.2.policy) (applyTo_fillKept s hk)
    simpa only [fillKept, Option.map_map, Function.comp_def, unlayered] using hslot

theorem foldl_applyTo_other {l : List (Nat × Slot × Actor)} {k : Nat} (h : k ∉ l.map (·.1)) (s : State) :
    fillKept (l.foldl applyTo s) k = fillKept s k := by
  induction l generalizing s with
  | nil => rfl
  | cons y l ih =>
    obtain ⟨hy, hl⟩ := not_or.1 fun hm => h (List.mem_cons.2 hm)
    exact (ih hl _).trans (applyTo_fillKept s hy)

theorem foldl_applyTo_keeps (l : List (Nat × Slot × Actor)) (s : State) : (l.foldl applyTo s).al = s.al ∧ (l.foldl applyTo s).fe = s.fe :=
  ⟨foldl_keeps State.al (fun s x => (applyTo_keeps s x).1) l s, foldl_keeps State.fe (fun s x => (applyTo_keeps s x).2) l s⟩

/-- A slot read off what refilling layers keeps. -/
theorem slot_of_fillKept {s t : State} {k : Nat} {sl : Slot} (h : fillKept t k = fillKept s k) (hs : s.slot k = some sl) :
    ∃ u, t.slot k = some u ∧ unlayered u = unlayered sl := by
  have hslot := congrArg (fun z => z.2.2) h
  rw [fillKept, fillKept, hs] at hslot
  exact Option.map_eq_some_iff.1 hslot

/-- Each slot of those touched is changed once. -/
theorem foldl_applyTo_slot {l : List (Nat × Slot × Actor)} (hnd : (l.map (·.1)).Nodup) {x : Nat × Slot × Actor} (hx : x ∈ l) {s : State}
    {sl : Slot} (hs : s.slot x.1 = some sl) : ∃ v, (l.foldl applyTo s).slot x.1 = some v ∧ deltaMade sl x.2.2 v := by
  induction l generalizing s sl with
  | nil => cases hx
  | cons y l ih =>
    obtain ⟨hy, hnd⟩ := List.nodup_cons.1 hnd
    rcases List.mem_cons.1 hx with rfl | hx
    · obtain ⟨v, hv, hmade⟩ := applyDelta_slot s x.1 sl x.2.2
      have hstep : (applyTo s x).slot x.1 = some v := by rw [applyTo, hs]; exact hv
      obtain ⟨u, hu, hun⟩ := slot_of_fillKept (foldl_applyTo_other hy (applyTo s x)) hstep
      exact ⟨u, hu, deltaMade_congr rfl hun hmade⟩
    · have hne : x.1 ≠ y.1 := fun h => hy (List.mem_map.2 ⟨x, hx, h⟩)
      obtain ⟨u, hu, hun⟩ := slot_of_fillKept (applyTo_fillKept s hne) hs
      obtain ⟨v, hv, hmade⟩ := ih hnd hx hu
      exact ⟨v, hv, deltaMade_congr hun.symm rfl hmade⟩

/-! ### The end of a DELTA (18 R340) -/

section
variable {d : Delta} (s : State) (todo : List (Nat × Slot × Actor))

/-- A slot when the touched tiles go on. -/
def resumedSlot (k : Nat) (u : Slot) : Slot :=
  if (s.touchedTiles todo).contains k then { u with due.stopped := u.due.policy.isSome } else u

theorem endDelta_regions_keep (strict l : List Nat) (t : State) :
    let u := l.foldl (fun (s : State) (r : Nat) =>
      match s.region r with
      | some x =>
        if strict.contains r then (s.setRegion r { x with delta := 2 }).later (.quiescentPoint r)
        else s.setRegion r { x with cfgn := (x.cfgn + 1) % 2 ^ 32 }
      | none => s) t
    (u.slots, u.mm, u.al, u.fe) = (t.slots, t.mm, t.al, t.fe) := by
  refine foldl_keeps (fun t : State => (t.slots, t.mm, t.al, t.fe)) (fun t r => ?_) l t
  split
  · split <;> rfl
  · rfl

theorem updCfg_cfg (n : Nat) (g : Configuration → Configuration) : (s.updCfg n g).cfg n = (s.cfg n).map g := by
  rw [State.cfg, updCfg_al, find_upd, if_pos rfl, ← State.cfg]

theorem endDelta_slot (k : Nat) : (s.endDelta d todo).slot k = (s.slot k).map (resumedSlot s todo k) := by
  unfold State.endDelta
  extract_lets strict s1 r due al s2 s3
  have hs1 : s1.slots = s.slots := congrArg (fun z => z.1) (endDelta_regions_keep strict _ s)
  show Tab.find (s1.slots.map r) k = _
  rw [hs1]
  exact find_map_keyed s.slots r (fun _ => rfl) k

theorem endDelta_mm : (s.endDelta d todo).mm = s.mm := by
  unfold State.endDelta
  extract_lets strict s1 r due al s2 s3
  exact congrArg (fun z => z.2.1) (endDelta_regions_keep strict _ s)

theorem endDelta_image {c : Configuration} (h : s.cfg d.cfg = some c) :
    ((s.endDelta d todo).cfg d.cfg).map (·.launch.image) = some d.image := by
  unfold State.endDelta
  extract_lets strict s1 r due al s2 s3
  have hal : s1.al = s.al := congrArg (fun z => z.2.2.1) (endDelta_regions_keep strict _ s)
  have hs2 : s2.cfg d.cfg = some c := by
    rw [← h]
    show s1.al.cfgs.find d.cfg = _
    rw [hal, ← State.cfg]
  have hs3 : s3.cfg d.cfg = some { c with launch := { c.launch with image := d.image } } := by rw [updCfg_cfg, hs2, Option.map_some]
  exact congrArg (Option.map (·.launch.image)) hs3

theorem endDelta_completes {y : Packet} (hy : s.packet d.queue d.packet = some y) (hd : y.dispatched = true) (hf : y.finished = none) :
    completes (s.endDelta d todo) d.queue d.packet 0 := by
  unfold State.endDelta
  extract_lets strict s1 r due al s2 s3
  have hfe : s1.fe = s.fe := congrArg (fun z => z.2.2.2) (endDelta_regions_keep strict _ s)
  refine finishPacket_completes 0 (p := y) ?_ hd hf
  rw [← hy]
  exact packet_congr (congrArg (fun fe : FrontState => ((fe.queues.find d.queue).getD Queue.zero).packets) hfe) _

end

section
variable {s : State} {q : Nat} {d : Delta} {c : Configuration} {y : Packet}

theorem queue_of_find {l : List Delta} (h : l.find? (fun d => d.queue == q) = some d) : d.queue = q :=
  beq_iff_eq.1 (List.find?_some (p := fun d : Delta => d.queue == q) h)

/-- Once its tiles have halted a DELTA makes its changes, turns the generations even, lets the tiles go on and completes. -/
theorem stepDelta_changes (h : deltaUnderWay s q d c) (hplaced : c.state = .placed) (hk : (s.ctx c.launch.ctx).kip = false)
    (hstage : d.stage ≠ 0) (hy : s.packet q d.packet = some y) (hd : y.dispatched = true) (hf : y.finished = none) :
    let t := s.stepDelta d
    completes t q d.packet 0 ∧ (t.cfg d.cfg).map (·.launch.image) = some d.image ∧
      (∀ x ∈ s.touched d.cfg c d.image, ∃ sl, t.slot x.1 = some sl ∧ sl.pl.actor = x.2.2 ∧
        ∀ i, sl.rateGen.toList[i]? = genStep x.2.1 x.2.2 i) ∧
      ∀ k u, s.slot k = some u → onTouchedTile s d c k → ∃ v, t.slot k = some v ∧ v.due.stopped = u.due.policy.isSome := by
  obtain ⟨hfind, -, -, hc, hslots, hnd⟩ := h
  intro t
  let todo := s.touched d.cfg c d.image
  let s1 := todo.foldl applyTo s
  have ht : t = s1.endDelta d todo := by
    unfold t
    rw [stepDelta_placed hc hplaced hk]
    exact if_neg hstage
  obtain ⟨hal, hfe⟩ : s1.al = s.al ∧ s1.fe = s.fe := foldl_applyTo_keeps todo s
  have hpacket : s1.packet d.queue d.packet = some y := by
    rw [← hy, ← queue_of_find hfind]
    exact packet_congr (congrArg (fun fe : FrontState => ((fe.queues.find d.queue).getD Queue.zero).packets) hfe) _
  have hcfg : s1.cfg d.cfg = some c := by rw [State.cfg, hal, ← State.cfg, hc]
  have hdone := endDelta_completes s1 todo hpacket hd hf
  rw [queue_of_find hfind] at hdone
  rw [ht]
  refine ⟨hdone, endDelta_image s1 todo hcfg, fun x hx => ?_, fun k u hu hon => ?_⟩
  · obtain ⟨v, hv, hactor, hgen, -⟩ := foldl_applyTo_slot hnd hx (hslots x hx)
    refine ⟨resumedSlot s1 todo x.1 v, by rw [endDelta_slot, hv, Option.map_some], ?_, fun i => ?_⟩
    · rw [← hactor, resumedSlot]
      split <;> rfl
    · rw [← countGens_genStep, ← hgen, resumedSlot]
      split <;> rfl
  · have hpolicy : (s1.slot k).map (·.due.policy) = (s.slot k).map (·.due.policy) :=
      foldl_keeps (fun t : State => (t.slot k).map (·.due.policy)) (fun t x => applyTo_policy t x k) todo s
    rw [hu, Option.map_some] at hpolicy
    obtain ⟨v, hv, hvp⟩ := Option.map_eq_some_iff.1 hpolicy
    have hmem : (s1.touchedTiles todo).contains k = true :=
      List.contains_iff_mem.2 (mem_touchedTiles.2 ⟨by rw [hv]; rfl, hon⟩)
    refine ⟨resumedSlot s1 todo k v, by rw [endDelta_slot, hv, Option.map_some], ?_⟩
    rw [resumedSlot, if_pos hmem, ← hvp]

/-! ### A DELTA whose configuration is swapped out, is under a kill or has ended (18 R340) -/

theorem savedTouched_low (h : ∀ v ∈ c.saves, v.part = 2 → v.slot.detl ≠ 3) (new : Image) : ∀ x ∈ c.savedTouched new, x.2.1.detl ≠ 3 := by
  intro x hx
  obtain ⟨v, hv, hsome⟩ := List.mem_filterMap.1 hx
  split at hsome
  · next hpart =>
    obtain ⟨a, -, rfl⟩ := Option.map_eq_some_iff.1 hsome
    exact h v hv hpart
  · cases hsome

/-- In a configuration that is swapped out the saved slots change, outside D3 at once. -/
theorem stepDelta_swapped (hc : s.cfg d.cfg = some c) (hswapped : c.state = .swapped) (hq : d.queue = q) (hy : s.packet q d.packet = some y)
    (hd : y.dispatched = true) (hf : y.finished = none) (hlow : ∀ v ∈ c.saves, v.part = 2 → v.slot.detl ≠ 3) :
    let t := s.stepDelta d
    completes t q d.packet 0 ∧ (t.cfg d.cfg).map (·.launch.image) = some d.image ∧ t.mm = s.mm := by
  intro t
  let s1 := s.updCfg d.cfg fun c => c.deltaSaves d.image
  have ht : t = s1.endDelta d (c.savedTouched d.image) := by
    unfold t State.stepDelta
    dsimp only
    rw [hc]
    dsimp only
    rw [hswapped]
    dsimp only
    rw [strictRegions_nil (savedTouched_low hlow d.image)]
    rfl
  have hcfg : s1.cfg d.cfg = some (c.deltaSaves d.image) := by
    rw [updCfg_cfg, hc, Option.map_some]
  have hdone := endDelta_completes (d := d) s1 (c.savedTouched d.image) (y := y) (by rw [hq]; exact hy) hd hf
  rw [hq] at hdone
  rw [ht]
  exact ⟨hdone, endDelta_image s1 _ hcfg, endDelta_mm s1 _⟩

theorem stepDelta_killed (hc : s.cfg d.cfg = some c) (hplaced : c.state = .placed) (hk : (s.ctx c.launch.ctx).kip = true) : s.stepDelta d = s := by
  unfold State.stepDelta
  dsimp only
  rw [hc]
  dsimp only
  rw [hplaced]
  exact if_pos hk

theorem stepDelta_ended (hc : s.cfg d.cfg = some c) (hended : c.state = .ended) (hq : d.queue = q) (hy : s.packet q d.packet = some y)
    (hd : y.dispatched = true) (hf : y.finished = none) :
    let t := s.stepDelta d
    completes t q d.packet 3 ∧ t.slots = s.slots ∧ t.mm = s.mm := by
  intro t
  let s1 : State := { s with fe.deltas := s.fe.deltas.filter fun x => !(x.queue == d.queue && x.packet == d.packet) }
  have ht : t = s1.finishPacket q d.packet 3 := by
    unfold t State.stepDelta
    dsimp only
    rw [hc]
    dsimp only
    rw [hended, ← hq]
  rw [ht]
  exact ⟨finishPacket_completes 3 (s := s1) hy hd hf, rfl, rfl⟩

end

/-! ### A write of the front end does not depend on the queues (18 R334) -/

/-- The front end with other queues. -/
def withQueues (s : State) (qs : Tab Queue) : State := { s with fe.queues := qs }

section
variable (s : State) (qs : Tab Queue)

theorem withQueues_queue (q : Nat) : (withQueues s qs).queue q = (qs.find q).getD Queue.zero := rfl

theorem postEvent_queue (ctx num : Nat) (v : Dword) (q : Nat) : (s.postEvent ctx num v).queue q = s.queue q := rfl

theorem postEvent_mm (ctx num : Nat) (v : Dword) : (s.postEvent ctx num v).mm = s.mm := rfl

theorem walkFrom_withQueues (v : View) (tag : Nat) (w : Bool) (va : Nat) (fuel lvl t : Nat) :
    (withQueues s qs).walkFrom v tag w va fuel lvl t = s.walkFrom v tag w va fuel lvl t := by
  induction fuel generalizing lvl t with
  | zero => rfl
  | succ fuel ih =>
    unfold State.walkFrom
    dsimp only
    rw [ih]
    rfl

theorem translate_withQueues (ctx va : Nat) (w : Bool) : (withQueues s qs).translate ctx va w = s.translate ctx va w := by
  have hwalk : (withQueues s qs).walk ctx va w = s.walk ctx va w := walkFrom_withQueues ..
  have hleaf : (withQueues s qs).translateLeaf ctx va w = s.translateLeaf ctx va w := by
    unfold State.translateLeaf
    rw [hwalk]
    rfl
  unfold State.translate
  rw [hleaf]
  rfl

theorem globalLocs_withQueues (ctx ea n : Nat) (w : Bool) :
    (withQueues s qs).globalLocs [] ctx ea n w = s.globalLocs [] ctx ea n w := by
  unfold State.globalLocs
  simp only [pageAddr_nil, translate_withQueues]

theorem waitsForPath_withQueues (ctx va : Nat) : (withQueues s qs).waitsForPath ctx va = s.waitsForPath ctx va := by
  unfold State.waitsForPath
  rw [show (withQueues s qs).at deviceUnit = withQueues (s.at deviceUnit) qs from rfl, translate_withQueues]
  rfl

theorem writeEvent_withQueues (w : Writer) (p : Old → Bool) (ws : List (Nat × Byte)) :
    (withQueues s qs).writeEvent w p ws = withQueues (s.writeEvent w p ws) qs := by
  unfold State.writeEvent
  split <;> rfl

theorem writeGlobal_withQueues (w : Writer) (taint : Bool) (ws : List (Nat × Byte)) :
    (withQueues s qs).writeGlobal w taint ws = withQueues (s.writeGlobal w taint ws) qs := by
  unfold State.writeGlobal State.writeBelow
  extract_lets ok top s0 mm dv s1 ok' top' s0' mm' dv' s1'
  have hs1 : s1 = withQueues s1' qs := by
    have hs0 : s0 = withQueues s0' qs := writeEvent_withQueues ..
    unfold s1 dv mm
    rw [hs0]
    rfl
  rw [hs1, apply_ite (withQueues · qs)]
  rfl

theorem ctxWrite_withQueues (ctx va : Nat) (bs : List Byte) :
    (withQueues s qs).ctxWrite ctx va bs = (s.ctxWrite ctx va bs).map (withQueues · qs) := by
  unfold State.ctxWrite
  rw [show (withQueues s qs).at deviceUnit = withQueues (s.at deviceUnit) qs from rfl, globalLocs_withQueues]
  cases (s.at deviceUnit).globalLocs [] ctx va bs.length true with
  | error e => rfl
  | ok ls => exact congrArg Except.ok (writeGlobal_withQueues ..)

end

/-! ### Generations of replay lists (18 R341) -/

section
variable {s : State} {q : Nat} {p : Packet}

/-- The generations of a list as they are kept. -/
theorem gens_of_find {ctx list : Nat} {g : ReplayGen} {rest : List ReplayGen} (h : s.fe.lists.find (listKey ctx list) = some (g :: rest)) :
    s.gens ctx list = g :: rest := by
  rw [State.gens, h]
  rfl

theorem dropGens_newest {ctx list : Nat} {g : ReplayGen} {rest : List ReplayGen}
    (h : s.fe.lists.find (listKey ctx list) = some (g :: rest)) : ∃ rest', (s.dropGens ctx list).gens ctx list = g :: rest' := by
  unfold State.dropGens
  dsimp only
  rw [h]
  exact ⟨_, gens_of_find (find_put ..)⟩

/-- Dropping generations changes the lists only. -/
theorem dropGens_frame (s : State) (ctx list : Nat) : s.dropGens ctx list = { s with fe.lists := (s.dropGens ctx list).fe.lists } := by
  unfold State.dropGens
  dsimp only
  split <;> rfl

/-- The generation that a PATCH makes of a list. -/
def patchedGen (p : Packet) (cur : ReplayGen) : ReplayGen :=
  { gen := cur.gen + 1,
    patched := (((p.bytes.drop 32).take (p.f 28 4)).zipIdx).foldl (fun m b => Tab.put m (p.f 20 4 * 1024 + p.f 24 4 + b.2) b.1) cur.patched }

theorem patchPacket_patches {cur : ReplayGen} (hp : s.packet q p.num = some p) (hf : p.finished = none)
    (hcur : (s.dropGens (ctxOf s q) (p.f 16 4)).gens (ctxOf s q) (p.f 16 4) = [cur]) :
    let t := s.patchPacket q p
    completes t q p.num 0 ∧ ∃ rest, t.gens (ctxOf s q) (p.f 16 4) = patchedGen p cur :: rest := by
  intro t
  let s0 := s.dropGens (ctxOf s q) (p.f 16 4)
  let s1 : State := { s0 with fe.lists := s0.fe.lists.put (listKey (ctxOf s q) (p.f 16 4)) [patchedGen p cur, cur] }
  let s2 := s1.dropGens (ctxOf s q) (p.f 16 4)
  have ht : t = s2.finishNow q p.num 0 := by
    unfold t State.patchPacket
    dsimp only
    rw [← ctxOf, hcur]
    rfl
  have hs2 : s2.fe.queues = s.fe.queues := by
    unfold s2
    rw [dropGens_frame]
    show (s.dropGens (ctxOf s q) (p.f 16 4)).fe.queues = _
    rw [dropGens_frame]
  have hpacket : s2.packet q p.num = some p := by rw [State.packet, State.queue, hs2, ← State.queue, ← State.packet, hp]
  rw [ht]
  exact ⟨finishNow_completes 0 hpacket hf, dropGens_newest (s := s1) (find_put ..)⟩

theorem patchPacket_blocks {cur old : ReplayGen} {rest : List ReplayGen}
    (h : (s.dropGens (ctxOf s q) (p.f 16 4)).gens (ctxOf s q) (p.f 16 4) = cur :: old :: rest) : s.patchPacket q p = s := by
  unfold State.patchPacket
  dsimp only
  rw [← ctxOf, h]
  rfl

/-! ### REPLAY (18 R341) -/

/-- A REPLAY behind another on its queue waits. -/
theorem replayPacket_waits {r : Nat × Nat × Nat} (hr : (s.queue q).replay = some r) (hne : r.1 ≠ p.num) : s.replayPacket q p = s := by
  have hx : s.replayQueue q p = s.queue q := by
    unfold State.replayQueue
    dsimp only
    rw [hr]
  unfold State.replayPacket
  dsimp only
  rw [hx, hr]
  exact if_pos (.inr (by simpa using hne))

/-- The generation that a REPLAY uses for every node of its list: the newest when it begins. -/
def newestGen (s : State) (q : Nat) (p : Packet) : ReplayGen := ((s.gens (ctxOf s q) (p.f 28 4)).head?).getD { gen := 0, patched := [] }

/-- A queue whose replay begins. -/
def replayBegun (s : State) (q : Nat) (p : Packet) : Queue :=
  { s.queue q with replay := some (p.num, p.f 16 8, p.f 24 4), rpos := BitVec.ofNat 64 (p.f 28 4 * 2 ^ 32), rgen := (newestGen s q p).gen }

/-- The packet of a node, by its number and its bytes. -/
def nodePacket (num : Nat) (p : Packet) (bs : List Byte) : Packet :=
  { num := num, unit := p.unit, bytes := bs, dispatched := false, finished := none, since := 0, tried := none }

/-- The generation of its list that a queue's replay uses. -/
def nodeGen (s : State) (x : Queue) : ReplayGen :=
  ((s.gens x.ctx (bits x.rpos 47 32)).find? fun g => g.gen == x.rgen).getD { gen := x.rgen, patched := [] }

/-- A node stands before its REPLAY, which is dispatched with the last one. -/
def nodePlaced (x : Queue) (p n : Packet) : Queue :=
  let mark := fun (y : Packet) => if y.num = p.num ∧ x.rpos.toNat % 2 ^ 32 + 1 = p.f 24 4 then { y with dispatched := true } else y
  { x with packets := (x.packets.takeWhile fun y => y.num != p.num) ++ [n] ++ (x.packets.dropWhile fun y => y.num != p.num).map mark,
           nextNum := x.nextNum + 1, rpos := x.rpos + 1, replayOpen := x.replayOpen ++ [n.num] }

@[simp] theorem nodePlaced_rpos (x : Queue) (p n : Packet) : (nodePlaced x p n).rpos = x.rpos + 1 := rfl
@[simp] theorem nodePlaced_nextNum (x : Queue) (p n : Packet) : (nodePlaced x p n).nextNum = x.nextNum + 1 := rfl
@[simp] theorem nodePlaced_replayOpen (x : Queue) (p n : Packet) : (nodePlaced x p n).replayOpen = x.replayOpen ++ [n.num] := rfl
@[simp] theorem nodePlaced_ctx (x : Queue) (p n : Packet) : (nodePlaced x p n).ctx = x.ctx := rfl

/-- A node that can be read: a malformed one, and one that a list may not hold, ends the REPLAY with status 2; one that need not wait is
dispatched. -/
theorem replayPacket_node {x : Queue} {first bs : List Byte} (hx : s.replayQueue q p = x)
    (hgo : ¬ (p.f 24 4 ≤ x.rpos.toNat % 2 ^ 32 ∨ (x.replay.any (·.1 != p.num)) = true))
    (hfirst : s.nodeBytes x.ctx (p.f 16 8) (x.rpos.toNat % 2 ^ 32) 1 (nodeGen s x) = .ok first)
    (hbs : s.nodeBytes x.ctx (p.f 16 8) (x.rpos.toNat % 2 ^ 32) (field first 1 1 % 16 + 1) (nodeGen s x) = .ok bs) :
    let n := nodePacket x.nextNum p bs
    (n.malformed ∨ n.type = 0x07 ∨ n.type = 0x08 → s.replayPacket q p = s.failReplay q p 2) ∧
    (¬ (n.malformed ∨ n.type = 0x07 ∨ n.type = 0x08) → n.bar = false → jettyType n.type = false →
      s.replayPacket q p = (s.setQueue q (nodePlaced x p n)).dispatchAny q n) := by
  intro n
  have hreplay : s.replayPacket q p =
      if n.malformed ∨ n.type = 0x07 ∨ n.type = 0x08 then s.failReplay q p 2
      else if (n.bar ∧ !(x.packets.takeWhile fun y => y.num != p.num).isEmpty) ∨ (jettyType n.type ∧ s.dv.jetty.restarting.isSome) then s
      else (s.setQueue q (nodePlaced x p n)).dispatchAny q n := by
    unfold State.replayPacket
    dsimp only
    rw [hx, if_neg hgo, ← nodeGen, hfirst]
    simp only [bind, Except.bind, hbs]
    rfl
  rw [hreplay]
  refine ⟨fun h => if_pos h, fun h hbar hjetty => ?_⟩
  rw [if_neg h, hbar, hjetty]
  exact if_neg (by simp)

theorem gens_newest (s : State) (q : Nat) (p : Packet) : ∃ rest, s.gens (ctxOf s q) (p.f 28 4) = newestGen s q p :: rest := by
  unfold newestGen State.gens
  split
  · exact ⟨[], rfl⟩
  · next h =>
    obtain ⟨g, rest, hg⟩ := List.exists_cons_of_ne_nil h
    exact ⟨rest, by rw [hg]; rfl⟩

theorem replayBegun_ctx : (replayBegun s q p).ctx = ctxOf s q := by rw [replayBegun, ctxOf]
theorem replayBegun_rgen : (replayBegun s q p).rgen = (newestGen s q p).gen := by rw [replayBegun]
theorem replayBegun_nextNum : (replayBegun s q p).nextNum = (s.queue q).nextNum := by rw [replayBegun]
theorem replayBegun_packets : (replayBegun s q p).packets = (s.queue q).packets := by rw [replayBegun]
theorem replayBegun_replayOpen : (replayBegun s q p).replayOpen = (s.queue q).replayOpen := by rw [replayBegun]

theorem replayQueue_first (hr : (s.queue q).replay = none) : s.replayQueue q p = replayBegun s q p := by
  have hgen : ((s.gens (ctxOf s q) (p.f 28 4)).head?).elim 0 (·.gen) = (newestGen s q p).gen := by
    obtain ⟨rest, h⟩ := gens_newest s q p
    rw [h]
    rfl
  unfold State.replayQueue
  dsimp only
  rw [hr, ← ctxOf, hgen]
  rfl

section
variable (hlist : p.f 28 4 < 2 ^ 16)
include hlist

/-- A replay that begins stands before node 0 of its list. -/
theorem replayBegun_rpos : (replayBegun s q p).rpos.toNat = p.f 28 4 * 2 ^ 32 := by
  rw [replayBegun, BitVec.toNat_ofNat]
  omega

theorem replayBegun_list : bits (replayBegun s q p).rpos 47 32 = p.f 28 4 := by
  rw [bits, replayBegun_rpos hlist]
  omega

theorem replayBegun_node : (replayBegun s q p).rpos.toNat % 2 ^ 32 = 0 := by
  rw [replayBegun_rpos hlist]
  omega

theorem replayBegun_next : ((replayBegun s q p).rpos + 1).toNat % 2 ^ 32 = 1 := by
  rw [BitVec.toNat_add, replayBegun_rpos hlist, show BitVec.toNat (1 : Dword) = 1 from rfl]
  omega

theorem replayBegun_gen : nodeGen s (replayBegun s q p) = newestGen s q p := by
  obtain ⟨rest, h⟩ := gens_newest s q p
  rw [nodeGen, replayBegun_list hlist, replayBegun_ctx, replayBegun_rgen, h,
    List.find?_cons_of_pos (p := fun g : ReplayGen => g.gen == (newestGen s q p).gen) (beq_self_eq_true _), Option.getD_some]

theorem replayBegun_goes (hn : 1 ≤ p.f 24 4) :
    ¬ (p.f 24 4 ≤ (replayBegun s q p).rpos.toNat % 2 ^ 32 ∨ ((replayBegun s q p).replay.any (·.1 != p.num)) = true) := by
  have hown : (replayBegun s q p).replay.any (·.1 != p.num) = false := bne_self_eq_false _
  rw [replayBegun_node hlist, hown]
  exact fun h => h.elim (fun h0 => by omega) Bool.false_ne_true

end

/-- A packet that completes leaves its queue else as it was. -/
theorem finishNow_queue (s : State) (q n st : Nat) : ∃ ps, (s.finishNow q n st).queue q = { s.queue q with packets := ps } := by
  have hdispatched : ∃ ps, (s.dispatched q n).queue q = { s.queue q with packets := ps } := ⟨_, setQueue_queue ..⟩
  have hfinished : ∃ ps, (s.finishNow q n st).queue q = { (s.dispatched q n).queue q with packets := ps } :=
    ⟨_, setQueue_queue (s.dispatched q n) q _⟩
  obtain ⟨ps, hps⟩ := hdispatched
  obtain ⟨ps', hps'⟩ := hfinished
  exact ⟨ps', by rw [hps', hps]⟩

theorem stopQueue_mm (s : State) (q unit status : Nat) : (s.stopQueue q unit status).mm = s.mm := rfl

/-- A REPLAY that fails at a malformed node completes with status 2 and stops its queue. -/
theorem failReplay_malformed (hp : s.packet q p.num = some p) (hf : p.finished = none) :
    let t := s.failReplay q p 2
    completes t q p.num 2 ∧ (t.queue q).state = 2 ∧ (t.queue q).replay = none ∧ t.mm = s.mm := by
  intro t
  let x : Queue := { s.queue q with replay := none, rpos := 0, rgen := 0, replayOpen := [] }
  let s1 := (s.setQueue q x).dropGens x.ctx (bits (s.queue q).rpos 47 32)
  have hs1 : s1 = _ := dropGens_frame ..
  have hqueue : s1.queue q = x := by
    rw [hs1]
    exact setQueue_queue ..
  have hstopped : (s1.stopQueue q p.unit 2).queue q =
      { x with state := 2, err := BitVec.ofNat 64 (p.unit % 2 ^ 26 * 2 ^ 38 + 2 % 256), faultWait := none } := by
    rw [State.stopQueue, setQueue_queue, hqueue]
  have hpacket : (s1.stopQueue q p.unit 2).packet q p.num = some p := by
    rw [← hp]
    exact packet_congr (by rw [hstopped]) _
  have ht : t = (s1.stopQueue q p.unit 2).finishNow q p.num 2 := rfl
  obtain ⟨ps, hps⟩ : ∃ ps, t.queue q = { (s1.stopQueue q p.unit 2).queue q with packets := ps } := finishNow_queue ..
  rw [hstopped] at hps
  refine ⟨finishNow_completes 2 hpacket hf, by rw [hps], by rw [hps], ?_⟩
  rw [ht, finishNow_mm, stopQueue_mm, hs1, setQueue_mm]

/-- A WRSIG whose write can be performed, whatever else stands in its queue (18 R335). -/
theorem wrsigPacket_writes {s1 : State} {x : Queue} {n : Packet} (hctx : x.ctx = ctxOf s q) (hfind : x.packets.find? (fun y => y.num == n.num) = some n)
    (hf : n.finished = none) (hpath : s.waitsForPath (ctxOf s q) (n.f 16 8) = false)
    (hwrite : s.ctxWrite (ctxOf s q) (n.f 16 8) (toBytes (n.f 32 1) (n.f 24 8)) = .ok s1) :
    let t := (s.setQueue q x).wrsigPacket q n
    t.mm = s1.mm ∧ (t.queue q).rpos = x.rpos ∧ (t.queue q).replayOpen = x.replayOpen ∧ (t.queue q).nextNum = x.nextNum ∧
      completes t q n.num 0 := by
  intro t
  let u := (withQueues s1 (s.fe.queues.put q x)).postEvent (ctxOf s q) (n.f 33 1) (BitVec.ofNat 64 (n.f 40 8))
  have ht : t = u.finishNow q n.num 0 := by
    unfold t State.wrsigPacket
    dsimp only
    rw [setQueue_queue, hctx, show s.setQueue q x = withQueues s (s.fe.queues.put q x) from rfl, waitsForPath_withQueues, hpath,
      ctxWrite_withQueues, hwrite]
    rfl
  have hqueue : u.queue q = x := by
    rw [postEvent_queue, withQueues_queue, find_put, Option.getD_some]
  have hpacket : u.packet q n.num = some n := by rw [State.packet, hqueue, hfind]
  obtain ⟨ps, hps⟩ := finishNow_queue u q n.num 0
  rw [hqueue] at hps
  rw [ht]
  exact ⟨by rw [finishNow_mm, postEvent_mm]; rfl, by rw [hps], by rw [hps], by rw [hps], finishNow_completes 0 hpacket hf⟩

theorem dispatchAny_wrsig {n : Packet} (h : n.type = 0x04) : s.dispatchAny q n = s.wrsigPacket q n := by
  unfold State.dispatchAny
  simp [h, jettyType]

/-- A node whose number is new is found where it stands. -/
theorem nodePlaced_find {x : Queue} {n : Packet} (hnew : ∀ y ∈ x.packets, y.num ≠ n.num) :
    (nodePlaced x p n).packets.find? (fun y => y.num == n.num) = some n := by
  have hbefore : (x.packets.takeWhile fun y => y.num != p.num).find? (fun y => y.num == n.num) = none :=
    List.find?_eq_none.2 fun y hy he => hnew y ((List.takeWhile_prefix _).subset hy) (beq_iff_eq.1 he)
  show ((_ ++ [n]) ++ _ : List Packet).find? _ = _
  rw [List.append_assoc, List.find?_append, hbefore, Option.none_or]
  exact List.find?_cons_of_pos (beq_self_eq_true _)

/-- A REPLAY dispatches the first node of its list: a WRSIG writes and completes, and a node that a list may not hold ends it. -/
theorem replayPacket_first {first bs : List Byte} (hp : s.packet q p.num = some p) (hf : p.finished = none) (hr : (s.queue q).replay = none)
    (hn : 1 ≤ p.f 24 4) (hlist : p.f 28 4 < 2 ^ 16) (hfirst : s.nodeBytes (ctxOf s q) (p.f 16 8) 0 1 (newestGen s q p) = .ok first)
    (hbs : s.nodeBytes (ctxOf s q) (p.f 16 8) 0 (field first 1 1 % 16 + 1) (newestGen s q p) = .ok bs) :
    let n := nodePacket (s.queue q).nextNum p bs
    let t := s.replayPacket q p
    (∀ s1, n.malformed = false → n.type = 0x04 → n.bar = false → (∀ y ∈ (s.queue q).packets, y.num ≠ n.num) →
      s.waitsForPath (ctxOf s q) (n.f 16 8) = false →
      s.ctxWrite (ctxOf s q) (n.f 16 8) (toBytes (n.f 32 1) (n.f 24 8)) = .ok s1 →
      t.mm = s1.mm ∧ (t.queue q).rpos.toNat % 2 ^ 32 = 1 ∧ (t.queue q).replayOpen = (s.queue q).replayOpen ++ [n.num] ∧
        (t.queue q).nextNum = n.num + 1 ∧ completes t q n.num 0) ∧
    (n.malformed = true ∨ n.type = 0x07 ∨ n.type = 0x08 → completes t q p.num 2 ∧ (t.queue q).state = 2 ∧ (t.queue q).replay = none ∧
      t.mm = s.mm) := by
  intro n t
  have hnode := replayPacket_node (replayQueue_first hr) (replayBegun_goes hlist hn)
    (by rw [replayBegun_node hlist, replayBegun_gen hlist, replayBegun_ctx, hfirst])
    (by rw [replayBegun_node hlist, replayBegun_gen hlist, replayBegun_ctx, hbs])
  rw [replayBegun_nextNum] at hnode
  obtain ⟨hfails, hgoes⟩ := hnode
  refine ⟨fun s1 hwell htype hbar hnew hpath hwrite => ?_, fun hbad => ?_⟩
  · have hgood : ¬ (n.malformed = true ∨ n.type = 0x07 ∨ n.type = 0x08) := by
      rw [hwell, htype]
      decide
    have ht : t = (s.setQueue q (nodePlaced (replayBegun s q p) p n)).wrsigPacket q n := by
      rw [← dispatchAny_wrsig htype]
      refine hgoes hgood hbar ?_
      rw [htype]
      rfl
    obtain ⟨hmm, hrpos, hopen, hnext, hdone⟩ := wrsigPacket_writes (x := nodePlaced (replayBegun s q p) p n) (n := n)
      (by rw [nodePlaced_ctx, replayBegun_ctx]) (nodePlaced_find (by rw [replayBegun_packets]; exact hnew)) rfl hpath hwrite
    rw [ht]
    refine ⟨hmm, ?_, ?_, ?_, hdone⟩
    · rw [hrpos, nodePlaced_rpos, replayBegun_next hlist]
    · rw [hopen, nodePlaced_replayOpen, replayBegun_replayOpen]
    · rw [hnext, nodePlaced_nextNum, replayBegun_nextNum]
      rfl
  · have ht : t = s.failReplay q p 2 := hfails hbad
    rw [ht]
    exact failReplay_malformed hp hf

end

/-- Settles O44, clause by clause: each packet's row deals with the head of its queue, and what it leaves is the state that the lemmas above
describe. -/
theorem launchesAndLists : Obligations.LaunchesAndLists := by
  refine ⟨⟨?launch, ?unread, ?refused, ?detset, ?badSource⟩, ?delta, ?halts, ?changes, ?swapped, ?killed, ?ended, ?replay, ?waits, ?patch,
    ?blocks⟩
  case launch =>
    intro s q p im i ty sl ⟨hhead, hp, hf⟩ hi himage own lvl detl
    have hexec := exec_launchRow hhead hi
    rw [launchPacket_image sl himage] at hexec
    refine ⟨fun st hst => ⟨_, hexec, launchImage_refused hp hf hst⟩, fun hnone => ⟨_, hexec, ?_⟩⟩
    obtain ⟨hmm, hslots, hdispatched, hcount, hlaunches⟩ := launchImage_pends hp hf hnone
    exact ⟨hmm, hslots, hdispatched, hcount, _, hlaunches, rfl, rfl, rfl, rfl, rfl, rfl, rfl, rfl, rfl, pendingLaunch_detl sl⟩
  case unread =>
    intro s q p i ty ⟨hhead, hp, hf⟩ hi
    obtain ⟨sl, hexec⟩ := exec_anyLaunch hhead hi
    refine ⟨fun hnone => ?_, fun e he => ?_⟩
    · rw [launchPacket_noImage sl hnone] at hexec
      exact ⟨_, hexec, rfl, finishNow_completes 1 hp hf⟩
    · rw [launchPacket_unread sl he] at hexec
      refine ⟨fun hother => ⟨_, hexec, operandFault_completes hp hf hother⟩, fun va w hpage => ⟨_, hexec, ?_⟩⟩
      rw [hpage]
      exact operandFault_asks s q p va w
  case refused =>
    intro s ctx p im lvl detl sl
    refine ⟨refuseLaunch_killed p im lvl detl sl, fun hk hroot => ?_, fun hk hreq hsig => ?_, fun hk hsig => ?_, fun hk hsig hfuse => ?_,
      fun hk h3 hm => ?_, fun hk hrate => ?_⟩
    all_goals refine refuseLaunch_unmet hk fun ⟨hroot', hmerge, hsigned, hrate'⟩ => ?_
    · exact absurd hroot' (by rw [hroot]; exact Bool.false_ne_true)
    · exact absurd hsigned (by rw [imageSigned_unsigned hreq hsig]; exact Bool.false_ne_true)
    · exact absurd hsigned (by rw [imageSigned_bad hsig]; exact Bool.false_ne_true)
    · exact absurd hsigned (by rw [imageSigned_fused hsig hfuse]; exact Bool.false_ne_true)
    · exact absurd (hmerge h3) (by rw [hm]; exact Bool.false_ne_true)
    · exact absurd hrate (by rw [hrate']; exact Bool.false_ne_true)
  case detset =>
    intro s q p ⟨hhead, hp, hf⟩ hlow hreg
    obtain ⟨hlevel, hdone, hlog, hlone⟩ := detsetPacket_low hp hf hlow hreg
    refine ⟨_, exec_detset hhead, hlevel, hdone, hlog, fun k old hk hctx hnone hc => ⟨_, hlone k old hk hctx hnone hc, ?_⟩⟩
    unfold leveled
    split <;> simp
  case badSource =>
    intro s q p h rs ⟨hhead, hp, hf⟩ hlevel hh hrs hbad
    have hexec := exec_detset hhead
    rw [detsetPacket_badSource hlevel hh hrs hbad] at hexec
    exact ⟨_, hexec, finishNow_completes 1 hp hf, rfl, rfl, rfl⟩
  case delta =>
    intro s q p new cfg c ⟨hhead, hp, hf⟩ hnone himage hfind
    obtain ⟨htaken, hrefused⟩ := deltaPacket_found himage hfind
    have hexec := exec_delta_dispatch hnone hhead
    refine ⟨fun h => ?_, fun h => ?_⟩
    · rw [htaken h] at hexec
      exact ⟨_, hexec, acceptDelta_effect hp hf⟩
    · rw [hrefused h] at hexec
      exact ⟨_, hexec, finishNow_completes 1 hp hf, rfl, rfl, rfl⟩
  case halts =>
    intro s q d c h hplaced hk hstage hlow hvoid
    exact ⟨_, exec_delta_underWay h, stepDelta_halts h hplaced hk hstage hlow hvoid⟩
  case changes =>
    intro s q d c y h hplaced hk hstage hy hd hf
    exact ⟨_, exec_delta_underWay h, stepDelta_changes h hplaced hk hstage hy hd hf⟩
  case swapped =>
    intro s q d c y h hswapped hy hd hf hlow
    obtain ⟨hfind, -, -, hc, -⟩ := id h
    exact ⟨_, exec_delta_underWay h, stepDelta_swapped hc hswapped (queue_of_find hfind) hy hd hf hlow⟩
  case killed =>
    intro s q d c h hplaced hk
    obtain ⟨-, -, -, hc, -⟩ := id h
    exact (exec_delta_underWay h).trans (congrArg Host.Outcome.next (stepDelta_killed hc hplaced hk))
  case ended =>
    intro s q d c y h hended hy hd hf
    obtain ⟨hfind, -, -, hc, -⟩ := id h
    exact ⟨_, exec_delta_underWay h, stepDelta_ended hc hended (queue_of_find hfind) hy hd hf⟩
  case replay =>
    intro s q p first bs s1 ⟨hhead, hp, hf⟩ hr hn _ hlist g hfirst hbs n
    obtain ⟨hgoes, hfails⟩ := replayPacket_first hp hf hr hn hlist hfirst hbs
    refine ⟨fun hwell htype hbar hnew hpath hwrite => ?_, fun hbad => ⟨_, exec_replay hhead, hfails hbad⟩⟩
    obtain ⟨hmm, hrest⟩ := hgoes s1 hwell htype hbar hnew hpath hwrite
    exact ⟨_, exec_replay hhead, congrArg MemState.mem hmm, hrest⟩
  case waits =>
    intro s q p r ⟨hhead, _, _⟩ hr hne
    exact (exec_replay hhead).trans (congrArg Host.Outcome.next (replayPacket_waits hr hne))
  case patch =>
    intro s q p cur ⟨hhead, hp, hf⟩ ctx list hcur
    obtain ⟨hdone, rest, hgens⟩ := patchPacket_patches hp hf hcur
    exact ⟨_, exec_patch hhead, hdone, _, rest, hgens, rfl, rfl⟩
  case blocks =>
    intro s q p cur old rest ⟨hhead, _, _⟩ hgens
    exact (exec_patch hhead).trans (congrArg Host.Outcome.next (patchPacket_blocks hgens))

end Sys2Proof.Proofs

/-! SUPPORT. Flags that the elements of an instruction raise (10 R209 to R212). -/

namespace Sys2Proof.Proofs

open Sys2Proof.Machine Sys2Proof.Safety Sys2Proof.Laws

/-! ### The enables of FCSR (03 R52) -/

theorem toNat_enables (r : Regs) : (enables r).toNat = r.trapEnables := by
  rw [enables, BitVec.extractLsb'_toNat, Nat.shiftRight_eq_div_pow]
  rfl

theorem trapEnables_lt (r : Regs) : r.trapEnables < 2 ^ 5 := by
  rw [← toNat_enables]
  exact (enables r).isLt

theorem enables_signalling (r : Regs) : (enables r).getLsbD 4 = true ↔ r.trapEnables / 16 % 2 = 1 := by
  rw [← toNat_enables, BitVec.getLsbD, Nat.testBit_eq_decide_div_mod_eq, decide_eq_true_iff]

/-- Flags meet the enables alike as numbers and as the five bits of FL. -/
theorem and_enables (r : Regs) (n : Nat) : n &&& r.trapEnables = (BitVec.ofNat 5 n &&& enables r).toNat := by
  rw [BitVec.toNat_and, BitVec.toNat_ofNat, toNat_enables, ← Nat.mod_eq_of_lt (trapEnables_lt r), ← Nat.and_mod_two_pow,
    Nat.mod_eq_of_lt (trapEnables_lt r), Nat.mod_eq_of_lt (Nat.and_lt_two_pow n (trapEnables_lt r))]

theorem enabled_iff (r : Regs) (n : Nat) : n &&& r.trapEnables ≠ 0 ↔ BitVec.ofNat 5 n &&& enables r ≠ 0 := by
  rw [and_enables, ne_eq, ne_eq, BitVec.toNat_eq]
  rfl

/-- The five bits of FL leave out the mark of a signalling operand. -/
theorem ofNat_mod_flags (n : Nat) : BitVec.ofNat 5 (n % 32) = BitVec.ofNat 5 n := BitVec.eq_of_toNat_eq (by simp)

theorem mod_and_enables (r : Regs) (n : Nat) : n % 32 &&& r.trapEnables = n &&& r.trapEnables := by
  rw [and_enables, and_enables, ofNat_mod_flags]

theorem signalling_iff (n : Nat) : 32 ≤ n % 64 ↔ n.testBit 5 = true := by
  rw [Nat.testBit_eq_decide_div_mod_eq, decide_eq_true_iff]
  omega

/-- What makes a signalling operand trap (10 R210). -/
def signalTraps (r : Regs) (n : Nat) : Prop := n.testBit 5 = true ∧ (r.sys.fcsr.getLsbD 13 = true ∨ (enables r).getLsbD 4 = true)

theorem signalTraps_iff (r : Regs) (n : Nat) : signalTraps r n ↔ 32 ≤ n % 64 ∧ (r.snt = true ∨ r.trapEnables / 16 % 2 = 1) := by
  rw [signalTraps, signalling_iff, enables_signalling]
  rfl

/-! ### The three outcomes (10 R210 to R212) -/

section
variable {r : Regs} {l : List (Nat × Nat)}

theorem trapElem_eq (r : Regs) (l : List (Nat × Nat)) : r.trapElem l =
    if BitVec.ofNat 5 (orFlags l) &&& enables r ≠ 0 then lowestWith (enables r).toNat l else lowestWith 32 l := by
  unfold Regs.trapElem
  simp only [enabled_iff, toNat_enables]

theorem raise_signals (h : signalTraps r (orFlags l)) :
    r.raise l = .error (.trap { code := 0x0C, fl := BitVec.ofNat 5 (orFlags l), elem := r.trapElem l }) := by
  refine (if_pos ((signalTraps_iff r _).1 h)).trans ?_
  rw [ofNat_mod_flags]

theorem raise_traps (h : ¬ signalTraps r (orFlags l)) (he : BitVec.ofNat 5 (orFlags l) &&& enables r ≠ 0) :
    r.raise l = .error (.trap { code := 0x0B, fl := BitVec.ofNat 5 (orFlags l), elem := r.trapElem l }) := by
  rw [← enabled_iff, ← mod_and_enables] at he
  refine (if_neg fun hs => h ((signalTraps_iff r _).2 hs)).trans ((if_pos he).trans ?_)
  rw [ofNat_mod_flags]

theorem raise_enters (h : ¬ signalTraps r (orFlags l)) (he : BitVec.ofNat 5 (orFlags l) &&& enables r = 0) :
    r.raise l = .ok (flagged r (BitVec.ofNat 5 (orFlags l))) := by
  have hn : ¬ (orFlags l % 32 &&& r.trapEnables ≠ 0) := by rwa [mod_and_enables, enabled_iff, not_not]
  refine (if_neg fun hs => h ((signalTraps_iff r _).2 hs)).trans ((if_neg hn).trans ?_)
  rw [flagged, ofNat_mod_flags, show BitVec.ofNat 64 (orFlags l % 32) = (BitVec.ofNat 5 (orFlags l)).setWidth 64 from
      BitVec.eq_of_toNat_eq (by rw [BitVec.toNat_ofNat, BitVec.toNat_setWidth, BitVec.toNat_ofNat])]

/-- Flags trap, or they enter the registers. -/
theorem raise_cases (r : Regs) (l : List (Nat × Nat)) :
    (∃ t, r.raise l = .error (.trap t)) ∨ r.raise l = .ok (flagged r (BitVec.ofNat 5 (orFlags l))) := by
  by_cases h : signalTraps r (orFlags l)
  · exact .inl ⟨_, raise_signals h⟩
  · by_cases he : BitVec.ofNat 5 (orFlags l) &&& enables r = 0
    · exact .inr (raise_enters h he)
    · exact .inl ⟨_, raise_traps h he⟩

theorem raise_ok {q : Regs} (h : r.raise l = .ok q) : q = flagged r (BitVec.ofNat 5 (orFlags l)) := by
  obtain ⟨t, ht⟩ | hq := raise_cases r l
  · cases h.symm.trans ht
  · exact Except.ok.inj (h.symm.trans hq)

end

/-- Settles O5: the three outcomes, with what `signalTraps` says written out. -/
theorem flagsAndTraps : Obligations.FlagsAndTraps := by
  intro r l
  have hnot : (orFlags l).testBit 5 = false ∨ (r.sys.fcsr.getLsbD 13 = false ∧ (enables r).getLsbD 4 = false) → ¬ signalTraps r (orFlags l) := by
    rintro h ⟨hbit, htrap⟩
    rcases h with h | ⟨hsnt, hte⟩
    · exact absurd (hbit.symm.trans h) (by decide)
    · rcases htrap with htrap | htrap
      · exact absurd (htrap.symm.trans hsnt) (by decide)
      · exact absurd (htrap.symm.trans hte) (by decide)
  refine ⟨fun hbit htrap => ?_, fun h he => ?_, fun h he => raise_enters (hnot h) he⟩
  · rw [raise_signals ⟨hbit, htrap⟩, trapElem_eq]
  · rw [raise_traps (hnot h) he, trapElem_eq, if_pos he]

end Sys2Proof.Proofs

/-! SUPPORT. Integer results that wrap or clamp, and the division instructions (11 R214, R218, R219). -/

namespace Sys2Proof.Proofs

open Sys2Proof.Machine Sys2Proof.Safety Sys2Proof.Laws

/-! ### Exact integers delivered to a type (11 R214, R218) -/

theorem intMin_eq (t : Ty) : intMin t = least t := by
  unfold intMin least
  push_cast
  rfl

theorem intMax_eq (t : Ty) : intMax t = most t := by
  unfold intMax most
  push_cast
  rfl

theorem int_eq_src (r : Regs) (t : Ty) (x : Reg) : r.int t x = src t x r := (valueOf_eq t _).symm

theorem not_fits_iff {t : Ty} {v : Int} : ¬ fits t v ↔ v < least t ∨ most t < v := by
  unfold fits
  omega

theorem clamped_of_fits {t : Ty} {sat : Bool} {v : Int} (h : fits t v ∨ sat = false) : clamped t sat v = v := by
  unfold clamped
  rcases h with ⟨hlo, hhi⟩ | rfl
  · simp [Int.not_lt.2 hlo, Int.not_lt.2 hhi]
  · rfl

theorem clamped_of_not_fits {t : Ty} {v : Int} (h : ¬ fits t v) : clamped t true v = if v < least t then least t else most t := by
  unfold clamped
  rw [if_pos rfl]
  rcases not_fits_iff.1 h with h | h
  · rw [if_pos h, if_pos h]
  · rw [if_pos h]

/-- OF is raised where a result clamps, and no other flag. -/
theorem intDeliver_flags (t : Ty) (sat : Bool) (v : Int) :
    (intDeliver t sat v).2 = if sat = true ∧ (v < least t ∨ most t < v) then 4 else 0 := by
  unfold intDeliver
  rw [intMin_eq, intMax_eq]
  cases sat with
  | false => rfl
  | true =>
    by_cases hlo : v < least t
    · simp [hlo, flOF]
    · by_cases hhi : most t < v <;> simp [hlo, hhi, flOF]

theorem intDeliver_eq (t : Ty) (sat : Bool) (v : Int) : intDeliver t sat v = intResult t sat v :=
  Prod.ext (intDeliver_pattern t sat v) (intDeliver_flags t sat v)

theorem widen_intPattern (t : Ty) (sat : Bool) (v : Int) : widen t (intPattern t sat v) = wrapped t (clamped t sat v) := by
  rw [intPattern, widen_eq_extended (BitVec.isLt _), BitVec.ofNat_toNat, BitVec.setWidth_eq]
  rfl

theorem putInt_eq (r : Regs) (t : Ty) (d : Reg) (sat : Bool) (v : Int) :
    r.putInt t d sat v = (r.raise [(0, (intResult t sat v).2)]).map fun q => q.writeG d (wrapped t (clamped t sat v)) := by
  rw [← widen_intPattern]
  unfold Regs.putInt
  rw [intDeliver_eq]
  rfl

/-! ### The flags of one element -/

theorem raise_none (r : Regs) {l : List (Nat × Nat)} (h : orFlags l = 0) : r.raise l = .ok r := by
  rw [raise_enters (by rw [h]; exact fun hs => absurd hs.1 (by decide)) (by rw [h]; simp), h]
  simp [flagged]

theorem not_signalTraps_overflow (r : Regs) : ¬ signalTraps r 4 := fun hs => absurd hs.1 (by decide)

theorem raise_overflow {r : Regs} (h : enables r &&& flagOF = 0) : r.raise [(0, 4)] = .ok (flagged r flagOF) :=
  raise_enters (l := [(0, 4)]) (not_signalTraps_overflow r) (by rwa [BitVec.and_comm] at h)

theorem raise_overflow_traps {r : Regs} (h : enables r &&& flagOF ≠ 0) :
    r.raise [(0, 4)] = .error (.trap { code := 0x0B, fl := flagOF }) := by
  have he : BitVec.ofNat 5 (orFlags [(0, 4)]) &&& enables r ≠ 0 := by rwa [BitVec.and_comm] at h
  have helem : r.trapElem [(0, 4)] = 0 := by
    rw [trapElem_eq, if_pos he, toNat_enables]
    unfold lowestWith
    by_cases hm : 4 &&& r.trapEnables != 0 <;> simp [hm]
  rw [raise_traps (l := [(0, 4)]) (not_signalTraps_overflow r) he, helem]
  rfl

/-! ### Instructions that form an exact integer (11 R218) -/

/-- An instruction whose meaning delivers an exact integer: it fits or wraps, or it clamps and raises OF, which may trap. -/
theorem deliversInt_of_putInt {i : Instr} {g : Guard} {op : Nat} {o : Operands} {body : Regs → Except Stop Regs} {ty : Ty} {d : Reg}
    {sat : Bool} {v : Regs → Int} (hexec : ∀ s, exec i s = runRegs i s body) (hp : i.parts = some (op, o)) (hg : operandGuard o = g)
    (hbody : ∀ r, body r = r.putInt ty d sat (v r)) : deliversInt i g op ty d sat v := by
  intro _ s k sl f h
  have hrun : exec i s = regsOutcome s k sl f op
      ((f.r.raise [(0, (intResult ty sat (v f.r)).2)]).map fun q => q.writeG d (wrapped ty (clamped ty sat (v f.r)))) := by
    rw [hexec, runRegs_runs h hp hg, hbody, putInt_eq]
  have hover : ¬ fits ty (v f.r) → sat = true → (intResult ty sat (v f.r)).2 = 4 := fun hn hs => if_pos ⟨hs, not_fits_iff.1 hn⟩
  refine ⟨fun hfit => ?_, fun hn hs he => ?_, fun hn hs he => ?_⟩
  · have hzero : (intResult ty sat (v f.r)).2 = 0 := if_neg fun ⟨hs, hout⟩ => by
      rcases hfit with hfit | hfit
      · exact not_fits_iff.2 hout hfit
      · exact absurd (hs.symm.trans hfit) (by decide)
    rw [hrun, raise_none _ (by rw [hzero]; rfl), clamped_of_fits hfit]
    rfl
  · rw [hrun, hover hn hs, raise_overflow he, hs, clamped_of_not_fits hn]
    rfl
  · rw [hrun, hover hn hs, raise_overflow_traps he]
    rfl

/-! ### DIV and REM (11 R219) -/

theorem divInt_eq (t : Ty) (x y : Int) : divInt t x y = quotient t x y := by
  rw [divInt, intMax_eq]
  rfl

/-- Settles O3: both deliver an exact integer, which for DIV is the quotient and for REM the remainder. -/
theorem divisionAndRemainder : Obligations.DivisionAndRemainder := by
  refine ⟨fun x => deliversInt_of_putInt (fun s => show execDiv x s = _ from rfl) rfl rfl fun r => ?_,
    fun x => deliversInt_of_putInt (fun s => show execRem x s = _ from rfl) rfl rfl fun r => ?_⟩
  · rw [Regs.arith, int_eq_src, int_eq_src, divInt_eq]
  · rw [Regs.arith, int_eq_src, int_eq_src]
    rfl

end Sys2Proof.Proofs

/-! SUPPORT. FCVT with a destination type that no word gives it: the pattern of its NaN (10 R202, R213; 11 R229). -/

namespace Sys2Proof.Proofs

open Sys2Proof.Machine Sys2Proof.Safety Sys2Proof.Laws

/-- A firing of the bare actor with a quiet NaN of F32 in g4, its slot, and the package in which it runs on tile 0. -/
def nanFiring : Firing :=
  let f := State.reset.newFiring 0 (bareSlot 0) 0 false
  { f with r := f.r.setG 4 0x7FC00000 }
def nanSlot : Slot := { bareSlot 0 with firing := some nanFiring }
def nanRun : State := (State.reset.placeBare 0).putFiring 0 (bareSlot 0) nanFiring

theorem nanRun_runs : Runs nanRun 0 nanSlot nanFiring .always := ⟨by rfl, rfl⟩

/-- FCVT from F32 in g4 to E2M1 in g3. -/
def fcvtToE2m1 : CvtFields := { guard := .always, ty := .e2m1, src := .f32, d := .g 3, a := .g 4, b := .g 0, pm := 0, mods := noMods }

/-- The destination of FCVT is one of the types 0 to 13 (R67). -/
theorem fcvtToE2m1_illFormed : (Instr.fcvt fcvtToE2m1).wellFormed = false := by decide

theorem nanFiring_reads : (nanFiring.r.readG (.g 4)).toNat % 2 ^ Ty.f32.bits = 0x7FC00000 := by decide +kernel

/-- E2M1 has no NaN (R202), and the pattern that is delivered for one is wider than the type. -/
theorem convertPat_nan (m : Rnd) (sat : Bool) (sr : Nat) :
    convertPat .e2m1 .f32 ((nanFiring.r.readG (.g 4)).toNat % 2 ^ Ty.f32.bits) m sat sr = (0x7F, 0) := by
  rw [nanFiring_reads]
  show fmtE2M1.deliver (fmt32.value 0x7FC00000) m sat sr = _
  rw [show fmt32.value 0x7FC00000 = .nan false by decide +kernel]
  rfl

theorem fcvtToE2m1_writes : exec (.fcvt fcvtToE2m1) nanRun =
    wrote nanRun 0 nanSlot nanFiring 0x3A ((nanFiring.r.writeG (.g 3) 0x7F).counted .dyn) := by
  have hraise : nanFiring.r.raise1 0 = .ok nanFiring.r := raise_none _ rfl
  show execFcvt fcvtToE2m1 nanRun = _
  rw [execFcvt, runRegs_runs nanRun_runs rfl rfl]
  show regsOutcome nanRun 0 nanSlot nanFiring 0x3A ((nanFiring.r.raise1 (convertPat .e2m1 .f32
    ((nanFiring.r.readG (.g 4)).toNat % 2 ^ Ty.f32.bits) (nanFiring.r.mode .dyn) false (nanFiring.r.sr 0 0)).2).map _) = _
  rw [convertPat_nan, hraise]
  rfl

/-- g3 of the firing that runs in the state which an outcome goes on to. -/
def g3After : Host.Outcome State Fault Refusal → Option Dword
  | .next t => t.current.map fun c => c.2.2.r.gr 3
  | _ => none

theorem g3After_wrote (op : Nat) (r : Regs) : g3After (wrote nanRun 0 nanSlot nanFiring op r) = some (r.gr 3) :=
  congrArg (Option.map fun c : Nat × Slot × Firing => c.2.2.r.gr 3) (putFiring_current nanRun_runs.1 { nanFiring.executed op with r := r })

/-- Refutes O4: FCVT of a NaN to E2M1 writes 0x7F, where the statement asks for the low four bits of that pattern, 0xF. The statement speaks of
FCVT with every destination type; E2M1 is one that no word gives it (`fcvtToE2m1_illFormed`). -/
theorem not_scalarFloatArithmetic : ¬ Obligations.ScalarFloatArithmetic := by
  intro h
  obtain ⟨-, ⟨-, -, -, -, -, -, -, -, -, hfcvt⟩, -⟩ := h
  obtain ⟨-, hwrites⟩ := hfcvt fcvtToE2m1 nanRun 0 nanSlot nanFiring nanRun_runs
  simp only [fcvtToE2m1, convertPat_nan] at hwrites
  have hraise : nanFiring.r.raise [(0, 0)] = .ok (flagged nanFiring.r (BitVec.ofNat 5 0)) := by
    rw [raise_none _ rfl]
    simp [flagged]
  have hsame := hwrites hraise
  have hg3 := congrArg g3After (fcvtToE2m1_writes.symm.trans hsame)
  rw [g3After_wrote, g3After_wrote] at hg3
  exact absurd hg3 (by decide +kernel)

end Sys2Proof.Proofs

/-! SUPPORT. The instructions with opcodes 0x10 to 0x6F write general, vector and predicate registers and raise flags, or trap
(11 R214 to R248). -/

namespace Sys2Proof.Proofs

open Sys2Proof.Machine Sys2Proof.Safety Sys2Proof.Laws

/-! ### What stays of the registers -/

/-- Registers that agree in accumulators, condition bits, stamp and system registers, but for the flags FL of FCSR. -/
def sameOutside (r q : Regs) : Prop :=
  q.acc = r.acc ∧ q.c = r.c ∧ q.stamp = r.stamp ∧ q.sys = { r.sys with fcsr := q.sys.fcsr } ∧
    ∀ j, 5 ≤ j → q.sys.fcsr.getLsbD j = r.sys.fcsr.getLsbD j

theorem sameOutside.of_eq {r q u : Regs} (h : sameOutside r q) (hacc : u.acc = q.acc) (hc : u.c = q.c) (hstamp : u.stamp = q.stamp)
    (hsys : u.sys = q.sys) : sameOutside r u := by
  unfold sameOutside
  rw [hacc, hc, hstamp, hsys]
  exact h

theorem sameOutside.refl (r : Regs) : sameOutside r r := ⟨rfl, rfl, rfl, rfl, fun _ _ => rfl⟩

theorem sameOutside_flagged (r : Regs) (fl : BitVec 5) : sameOutside r (flagged r fl) := by
  refine ⟨rfl, rfl, rfl, rfl, fun j hj => ?_⟩
  show (r.sys.fcsr ||| fl.setWidth 64).getLsbD j = _
  rw [BitVec.getLsbD_or, BitVec.getLsbD_setWidth, BitVec.getLsbD_of_ge fl j hj, Bool.and_false, Bool.or_false]

section
variable {r q : Regs} (h : sameOutside r q)
include h

theorem sameOutside.setG (n : Fin 64) (v : Dword) : sameOutside r (q.setG n v) := by
  unfold Regs.setG
  split
  · exact h
  · exact h.of_eq rfl rfl rfl rfl

theorem sameOutside.writeG (d : Reg) (v : Dword) : sameOutside r (q.writeG d v) := by
  cases d with
  | g n => exact h.setG n v
  | _ => exact h

theorem sameOutside.setP (n : Fin 16) (v : Dword) : sameOutside r (q.setP n v) := by
  unfold Regs.setP
  split
  · exact h
  · exact h.of_eq rfl rfl rfl rfl

theorem sameOutside.writeP (d : Reg) (v : Dword) : sameOutside r (q.writeP d v) := by
  cases d with
  | p n => exact h.setP n v
  | _ => exact h

theorem sameOutside.putElems (d : Fin 64) (w : Nat) (on : Nat → Bool) (f : Nat → Nat) : sameOutside r (q.putElems d w on f) :=
  h.of_eq rfl rfl rfl rfl

theorem sameOutside.putBlocks (d : Fin 64) (on : Nat → Bool) (el sc : Nat → Nat) : sameOutside r (q.putBlocks d on el sc) :=
  h.of_eq rfl rfl rfl rfl

theorem sameOutside.counted (m : Rnd) : sameOutside r (q.counted m) := by
  unfold Regs.counted
  split
  · exact h.of_eq rfl rfl rfl rfl
  · exact h

theorem sameOutside.countedFor (t : Ty) (m : Rnd) : sameOutside r (q.countedFor t m) := by
  unfold Regs.countedFor
  split
  · exact h.counted m
  · exact h

end

/-! ### Meanings that stop by a trap or not at all -/

/-- A meaning gives a value with a property, or it stops by a trap. -/
def givesOrTraps {α : Type} (p : α → Prop) : Except Stop α → Prop
  | .ok a => p a
  | .error st => ∃ t, st = .trap t

theorem givesOrTraps.bind {α β : Type} {p : α → Prop} {p' : β → Prop} {x : Except Stop α} {f : α → Except Stop β} (hx : givesOrTraps p x)
    (hf : ∀ a, p a → givesOrTraps p' (f a)) : givesOrTraps p' (x >>= f) := by
  cases x with
  | ok a => exact hf a hx
  | error st => exact hx

theorem givesOrTraps.map {α β : Type} {p : α → Prop} {p' : β → Prop} {x : Except Stop α} {f : α → β} (hx : givesOrTraps p x)
    (hf : ∀ a, p a → p' (f a)) : givesOrTraps p' (x.map f) := by
  cases x with
  | ok a => exact hf a hx
  | error st => exact hx

theorem givesOrTraps_ite {α : Type} {p : α → Prop} {c : Prop} [Decidable c] {x y : Except Stop α} (hx : givesOrTraps p x)
    (hy : givesOrTraps p y) : givesOrTraps p (if c then x else y) := by
  split
  · exact hx
  · exact hy

/-- A meaning that leaves the registers outside its reach alone, or traps. -/
abbrev reachesRegisters (r : Regs) (x : Except Stop Regs) : Prop := givesOrTraps (sameOutside r) x

section
variable (r : Regs)

theorem vecNum_traps (x : Reg) : givesOrTraps (fun _ => True) (r.vecNum x) := by
  unfold Regs.vecNum
  split
  · trivial
  · exact givesOrTraps_ite trivial ⟨_, rfl⟩
  · trivial

theorem vec_traps (x : Reg) : givesOrTraps (fun _ => True) (r.vec x) := (vecNum_traps r x).map fun _ _ => trivial

theorem code_traps (x : Reg) (hi : Nat) : givesOrTraps (fun _ => True) (r.code x hi) := givesOrTraps_ite trivial ⟨_, rfl⟩

theorem elemIndex_traps (t : Ty) (x : Reg) : givesOrTraps (fun _ => True) (r.elemIndex t x) := givesOrTraps_ite trivial ⟨_, rfl⟩

theorem bitField_traps (x : RFields) : givesOrTraps (fun _ => True) (r.bitField x) := givesOrTraps_ite trivial ⟨_, rfl⟩

theorem raise_reaches (l : List (Nat × Nat)) : reachesRegisters r (r.raise l) := by
  obtain ⟨t, ht⟩ | hq := raise_cases r l
  · rw [ht]
    exact ⟨t, rfl⟩
  · rw [hq]
    exact sameOutside_flagged r _

theorem writeG_reaches (d : Reg) (v : Dword) : reachesRegisters r (.ok (r.writeG d v)) := (sameOutside.refl r).writeG d v

theorem putPat_reaches (t : Ty) (d : Reg) (p : Nat) : reachesRegisters r (.ok (r.putPat t d p)) := writeG_reaches r d _

theorem move_reaches (d : Fin 64) (w : Nat) (pm : Fin 16) (f : Nat → Nat) : reachesRegisters r (.ok (r.move d w pm f)) :=
  (sameOutside.refl r).putElems d w _ f

theorem moveBlocks_reaches (d : Fin 64) (pm : Fin 16) (f : Nat → Fin 64 × Nat) : reachesRegisters r (.ok (r.moveBlocks d pm f)) :=
  (sameOutside.refl r).putBlocks d _ _ _

theorem raise_writeG_reaches (l : List (Nat × Nat)) (d : Reg) (v : Dword) : reachesRegisters r ((r.raise l).map fun q => q.writeG d v) :=
  (raise_reaches r l).map fun _ h => h.writeG d v

/-! ### Scalar shapes (11 R218 to R232) -/

theorem putInt_reaches (t : Ty) (d : Reg) (sat : Bool) (v : Int) : reachesRegisters r (r.putInt t d sat v) := raise_writeG_reaches r _ d _

theorem bitField_reaches (x : RFields) (f : Nat × Nat → Nat) :
    reachesRegisters r ((r.bitField x).map fun z => r.putPat x.ty x.d (f z)) :=
  (bitField_traps r x).map fun _ _ => putPat_reaches r x.ty x.d _

theorem putFloat_reaches (d : Reg) (m : Rnd) (p : Nat × Nat) : reachesRegisters r (r.putFloat d m p) :=
  (raise_reaches r _).map fun _ h => (h.writeG d _).counted m

theorem fcvt_reaches (x : CvtFields) (p : Nat × Nat) :
    reachesRegisters r ((r.raise1 p.2).map fun q => (q.writeG x.d (widen x.ty p.1)).counted x.mods.rnd) :=
  (raise_reaches r _).map fun _ h => (h.writeG x.d _).counted _

theorem raiseFrom_reaches (x : RFields) : reachesRegisters r (r.raiseFrom x) :=
  givesOrTraps_ite ⟨_, rfl⟩ (raise_writeG_reaches r _ x.d _)

/-! ### Vector shapes (11 R233 to R238) -/

theorem putVec_reaches (d : Fin 64) (w m : Nat) (on : Nat → Bool) (f : Nat → Nat × Nat) : reachesRegisters r (r.putVec d w m on f) :=
  (raise_reaches r _).map fun _ h => h.putElems d w _ _

theorem putGroups_reaches (d : Fin 64) (b0 n : Nat) (on : Nat → Bool) (f : Nat → Exact) (m : Rnd) (sat : Bool) :
    reachesRegisters r (r.putGroups d b0 n on f m sat) :=
  (raise_reaches r _).map fun _ h => h.putBlocks d _ _ _

theorem vecArith_reaches (x : RFields) (fi : Int → Int → Int) (ff : FVal → FVal → Rnd → Exact) : reachesRegisters r (r.vecArith x fi ff) :=
  (vecNum_traps r x.d).bind fun d _ => (vec_traps r x.a).bind fun _ _ => (vec_traps r x.b).bind fun _ _ =>
    (putVec_reaches r d _ _ _ _).bind fun _ h => h.countedFor x.ty x.mods.rnd

theorem vecScalar_reaches (x : RFields) (fi : Int → Int → Int) (ff : FVal → FVal → Rnd → Exact) : reachesRegisters r (r.vecScalar x fi ff) :=
  (vecNum_traps r x.d).bind fun d _ => (vec_traps r x.a).bind fun _ _ =>
    (putVec_reaches r d _ _ _ _).bind fun _ h => h.countedFor x.ty x.mods.rnd

theorem vecFun_reaches (x : RFields) (f : FVal → Exact) : reachesRegisters r (r.vecFun x f) :=
  (vecNum_traps r x.d).bind fun d _ => (vec_traps r x.a).bind fun _ _ => (putVec_reaches r d _ _ _ _).bind fun _ h => h.counted x.mods.rnd

theorem vecPat1_reaches (x : RFields) (f : Nat → Nat × Nat) : reachesRegisters r (r.vecPat1 x f) :=
  (vecNum_traps r x.d).bind fun d _ => (vec_traps r x.a).bind fun _ _ => putVec_reaches r d _ _ _ _

theorem vecPat2_reaches (x : RFields) (f : Nat → Nat → Nat × Nat) : reachesRegisters r (r.vecPat2 x f) :=
  (vecNum_traps r x.d).bind fun d _ => (vec_traps r x.a).bind fun _ _ => (vec_traps r x.b).bind fun _ _ => putVec_reaches r d _ _ _ _

theorem blockImm_reaches (x : IFields) (ff : FVal → FVal → Rnd → Exact) : reachesRegisters r (r.blockImm x ff) := by
  refine (vecNum_traps r x.d).bind fun d _ => (vecNum_traps r x.a).bind fun _ _ => ?_
  extract_lets a sc y m blocks on el fl
  clear_value fl
  exact (raise_reaches r fl).bind fun _ h => (h.putBlocks d _ _ _).counted x.mods.rnd

theorem vecImm_reaches (x : IFields) (fi : Int → Int → Int) (ff : FVal → FVal → Rnd → Exact) : reachesRegisters r (r.vecImm x fi ff) :=
  givesOrTraps_ite (blockImm_reaches r x ff) <| (vecNum_traps r x.d).bind fun d _ => (vec_traps r x.a).bind fun _ _ =>
    givesOrTraps_ite (putVec_reaches r d _ _ _ _) ((raise_reaches r _).bind fun _ h => (h.putElems d _ _ _).counted x.mods.rnd)

theorem convertVec_reaches (x : CvtFields) : reachesRegisters r (r.convertVec x) :=
  (vecNum_traps r x.d).bind fun d _ => (vecNum_traps r x.a).bind fun _ _ =>
    givesOrTraps_ite ((putGroups_reaches r d _ _ _ _ _ _).bind fun _ h => h.counted x.mods.rnd)
      ((raise_reaches r _).bind fun _ h => (h.putElems d _ _ _).counted x.mods.rnd)

theorem quantise_reaches (x : RFields) : reachesRegisters r (r.quantise x) :=
  (vecNum_traps r x.d).bind fun d _ => (vec_traps r x.a).bind fun _ _ =>
    givesOrTraps_ite ((putGroups_reaches r d _ _ _ _ _ _).bind fun _ h => h.counted x.mods.rnd)
      ((raise_reaches r _).bind fun _ h => (h.putElems d _ _ _).counted x.mods.rnd)

theorem dequantise_reaches (x : RFields) : reachesRegisters r (r.dequantise x) :=
  (vecNum_traps r x.d).bind fun d _ => (vecNum_traps r x.a).bind fun _ _ =>
    (putVec_reaches r d _ _ _ _).bind fun _ h => h.counted x.mods.rnd

theorem compareVec_reaches (x : RFields) : reachesRegisters r (r.compareVec x) :=
  (code_traps r x.c 15).bind fun _ _ => (vec_traps r x.a).bind fun _ _ => (vec_traps r x.b).bind fun _ _ =>
    (raise_reaches r _).bind fun _ h => h.writeP x.d _

end

/-! ### The instructions -/

/-- An outcome is that of an instruction run with a meaning that reaches registers and flags only. -/
def runsOnRegisters (i : Instr) (s : State) (z : Host.Outcome State Fault Refusal) : Prop :=
  ∃ body, z = runRegs i s body ∧ ∀ r, reachesRegisters r (body r)

theorem runsOnRegisters_runRegs {i : Instr} {s : State} {body : Regs → Except Stop Regs} (h : ∀ r, reachesRegisters r (body r)) :
    runsOnRegisters i s (runRegs i s body) := ⟨body, rfl, h⟩

theorem exec_runsOnRegisters {i : Instr} {op : Nat} {o : Operands} (hp : i.parts = some (op, o)) (hlo : 0x10 ≤ op) (hhi : op ≤ 0x6F)
    (s : State) : runsOnRegisters i s (exec i s) := by
  unfold exec
  cases i with
  | add _ | sub _ | mul _ | mulh _ | div _ | rem _ | shl _ | min _ | max _ | adds _ | addi _ | shli _ =>
    exact runsOnRegisters_runRegs fun r => putInt_reaches r _ _ _ _
  | and _ | or _ | xor _ | andn _ | shr _ | sar _ | rot _ | sel _ | clz _ | popc _ | andi _ | ori _ | xori _ | shri _ | sari _ =>
    exact runsOnRegisters_runRegs fun r => putPat_reaches r _ _ _
  | cmp _ | cmpi _ | lil _ | fclass _ | fsgn _ | vpcnt _ => exact runsOnRegisters_runRegs fun r => writeG_reaches r _ _
  | bext x | bins x => exact runsOnRegisters_runRegs fun r => bitField_reaches r x _
  | fadd _ | fsub _ | fmul _ | fdiv _ | fsqrt _ | ffma _ | fmvi _ | frnd _ | fscl _ =>
    exact runsOnRegisters_runRegs fun r => putFloat_reaches r _ _ _
  | fmin _ | fmax _ | fcmp _ => exact runsOnRegisters_runRegs fun r => raise_writeG_reaches r _ _ _
  | fcvt x => exact runsOnRegisters_runRegs fun r => fcvt_reaches r x _
  | fflg x => exact runsOnRegisters_runRegs fun r => raiseFrom_reaches r x
  | vadd x | vsub x | vmul x | vdiv x => exact runsOnRegisters_runRegs fun r => vecArith_reaches r x _ _
  | vadds x | vsubs x => exact runsOnRegisters_runRegs fun r => vecScalar_reaches r x _ _
  | vsqrt x | vrcp x | vrsq x | vexp2 x | vlog2 x => exact runsOnRegisters_runRegs fun r => vecFun_reaches r x _
  | vabs x | vneg x | vclass x => exact runsOnRegisters_runRegs fun r => vecPat1_reaches r x _
  | vmin x | vmax x | vand x | vor x | vxor x | vshl x | vshr x | vsar x | vmulh x =>
    exact runsOnRegisters_runRegs fun r => vecPat2_reaches r x _
  | vaddi x | vmuli x => exact runsOnRegisters_runRegs fun r => vecImm_reaches r x _ _
  | vcvt x => exact runsOnRegisters_runRegs fun r => convertVec_reaches r x
  | vqnt x => exact runsOnRegisters_runRegs fun r => quantise_reaches r x
  | vdqt x => exact runsOnRegisters_runRegs fun r => dequantise_reaches r x
  | vcmp x => exact runsOnRegisters_runRegs fun r => compareVec_reaches r x
  | vfma x => exact runsOnRegisters_runRegs fun r => (vecNum_traps r x.d).bind fun d _ => (vec_traps r x.a).bind fun _ _ =>
      (vec_traps r x.b).bind fun _ _ => (vec_traps r x.c).bind fun _ _ => (putVec_reaches r d _ _ _ _).bind fun _ h => h.countedFor _ _
  | vscl x => exact runsOnRegisters_runRegs fun r => (vecNum_traps r x.d).bind fun d _ => (vec_traps r x.a).bind fun _ _ =>
      (vec_traps r x.b).bind fun _ _ => (putVec_reaches r d _ _ _ _).bind fun _ h => h.counted _
  | vdot x => exact runsOnRegisters_runRegs fun r => (vecNum_traps r x.d).bind fun d _ => (vec_traps r x.a).bind fun _ _ =>
      (vec_traps r x.b).bind fun _ _ => (vec_traps r x.c).bind fun _ _ => (putVec_reaches r d _ _ _ _).bind fun _ h => h.countedFor _ _
  | vsel x => exact runsOnRegisters_runRegs fun r => (vecNum_traps r x.d).bind fun d _ => (vec_traps r x.a).bind fun _ _ =>
      (vec_traps r x.b).bind fun _ _ => move_reaches r d _ _ _
  | vbcst x => exact runsOnRegisters_runRegs fun r => (vecNum_traps r x.d).bind fun d _ =>
      givesOrTraps_ite ((sameOutside.refl r).putBlocks d _ _ _) (move_reaches r d _ _ _)
  | vext x => exact runsOnRegisters_runRegs fun r => (vec_traps r x.a).bind fun _ _ => (elemIndex_traps r x.ty x.b).bind fun _ _ =>
      writeG_reaches r x.d _
  | vins x => exact runsOnRegisters_runRegs fun r => (vecNum_traps r x.d).bind fun d _ => (elemIndex_traps r x.ty x.b).bind fun _ _ =>
      (sameOutside.refl r).putElems d _ _ _
  | vidx x => exact runsOnRegisters_runRegs fun r => (vecNum_traps r x.d).bind fun d _ => move_reaches r d _ _ _
  | vperm x => exact runsOnRegisters_runRegs fun r => (vecNum_traps r x.d).bind fun d _ => (vecNum_traps r x.a).bind fun _ _ =>
      (vec_traps r x.b).bind fun _ _ => givesOrTraps_ite (moveBlocks_reaches r d _ _) (move_reaches r d _ _ _)
  | vshuf x => exact runsOnRegisters_runRegs fun r => (code_traps r x.c 3).bind fun _ _ => (vecNum_traps r x.d).bind fun d _ =>
      (vecNum_traps r x.a).bind fun _ _ => (vecNum_traps r x.b).bind fun _ _ =>
        givesOrTraps_ite (moveBlocks_reaches r d _ _) (move_reaches r d _ _ _)
  | vcmpr x | vexpn x | vsort x =>
    exact runsOnRegisters_runRegs fun r => (vecNum_traps r x.d).bind fun d _ => (vec_traps r x.a).bind fun _ _ => move_reaches r d _ _ _
  | vmov x => exact runsOnRegisters_runRegs fun r => (vecNum_traps r x.d).bind fun d _ => (vecNum_traps r x.a).bind fun _ _ =>
      givesOrTraps_ite (moveBlocks_reaches r d _ _) (move_reaches r d _ _ _)
  | plog x => exact runsOnRegisters_runRegs fun r => (code_traps r x.c 15).bind fun _ _ => (sameOutside.refl r).writeP x.d _
  | vred x => exact runsOnRegisters_runRegs fun r => (code_traps r x.c _).bind fun _ _ => (vec_traps r x.a).bind fun _ _ =>
      (raise_reaches r _).bind fun _ h => h.writeG x.d _
  | vscan x | vseg x =>
    exact runsOnRegisters_runRegs fun r => (code_traps r x.c _).bind fun _ _ => (vecNum_traps r x.d).bind fun d _ =>
      (vec_traps r x.a).bind fun _ _ => (raise_reaches r _).bind fun _ h => h.putElems d _ _ _
  | _ => cases hp <;> omega

/-- Settles O57: each of these instructions is run with a meaning that reaches registers and flags only. -/
theorem registerInstructionsChangeRegistersOnly : Obligations.RegisterInstructionsChangeRegistersOnly := by
  intro s k sl f i op o hp hlo hhi h
  obtain ⟨body, hexec, hbody⟩ := exec_runsOnRegisters hp hlo hhi s
  have hrun : exec i s = regsOutcome s k sl f op (body f.r) := by rw [hexec, runRegs_runs h hp rfl]
  have hreach := hbody f.r
  rw [hrun]
  cases hb : body f.r with
  | ok q =>
    rw [hb] at hreach
    exact .inl ⟨q, rfl, hreach⟩
  | error st =>
    rw [hb] at hreach
    obtain ⟨t, rfl⟩ := hreach
    exact .inr ⟨t, rfl⟩

end Sys2Proof.Proofs

/-! SUPPORT. E2M1 blocks with immediates and in shuffles, conversions of vectors, and quantisation (10 R203, R204, R206; 11 R235, R237, R238,
R240). -/

namespace Sys2Proof.Proofs

open Sys2Proof.Machine Sys2Proof.Safety Sys2Proof.Laws

/-! ### Flags listed with their elements -/

theorem filterMap_ite {α β : Type} (l : List α) (p : α → Bool) (g : α → β) :
    (l.filterMap fun a => if p a then some (g a) else none) = (l.filter p).map g := by
  induction l with
  | nil => rfl
  | cons a l ih => cases hp : p a <;> simp [hp, ih]

theorem flagList_congr {n : Nat} {on on' : Nat → Bool} {fl fl' : Nat → Nat} (hon : ∀ e, e < n → on e = on' e)
    (hfl : ∀ e, e < n → on' e = true → fl e = fl' e) : flagList n on fl = flagList n on' fl' := by
  unfold flagList
  rw [List.filter_congr fun e he => hon e (List.mem_range.1 he)]
  refine List.map_congr_left fun e he => ?_
  obtain ⟨hlt, he⟩ := List.mem_filter.1 he
  rw [hfl e (List.mem_range.1 hlt) he]

/-- The elements from `off` on, `m` of them, are those of `0` to `m - 1` moved up. -/
theorem flagList_window {off m n : Nat} (h : off + m ≤ n) (on : Nat → Bool) (fl : Nat → Nat) :
    flagList n (fun e => decide (off ≤ e ∧ e < off + m) && on (e - off)) (fun e => fl (e - off)) =
      ((List.range m).filter on).map fun e => (off + e, fl e) := by
  obtain ⟨k, rfl⟩ := Nat.exists_eq_add_of_le h
  have hbelow : (List.range off).filter (fun e => decide (off ≤ e ∧ e < off + m) && on (e - off)) = [] :=
    List.filter_eq_nil_iff.2 fun e he => by simp [List.mem_range.1 he]
  have habove : (List.range k).filter ((fun e => decide (off ≤ e ∧ e < off + m) && on (e - off)) ∘ fun e => off + m + e) = [] :=
    List.filter_eq_nil_iff.2 fun e _ => by simp [Nat.not_lt.2 (Nat.le_add_right (off + m) e)]
  have hinside : (List.range m).filter ((fun e => decide (off ≤ e ∧ e < off + m) && on (e - off)) ∘ fun e => off + e) =
      (List.range m).filter on :=
    List.filter_congr fun e he => by simp [List.mem_range.1 he]
  unfold flagList
  rw [List.range_add, List.range_add, List.filter_append, List.filter_append, hbelow, List.filter_map, List.filter_map, hinside, habove]
  simp

theorem elemResults_flags (off m : Nat) (on : Nat → Bool) (f : Nat → Nat × Nat) :
    ((elemResults m on f).map fun z => (z.1 + off, z.2.2)) = ((List.range m).filter on).map fun e => (off + e, (f e).2) := by
  unfold elemResults
  rw [filterMap_ite, List.map_map]
  exact List.map_congr_left fun e _ => by rw [Function.comp, Nat.add_comm]

/-! ### What a raise leaves for the rest of an instruction -/

theorem bits_flagged (r : Regs) (fl : BitVec 5) : bits (flagged r fl).sys.fcsr 12 10 = bits r.sys.fcsr 12 10 := by
  show (r.sys.fcsr ||| fl.setWidth 64).toNat / 2 ^ 10 % 2 ^ 3 = r.sys.fcsr.toNat / 2 ^ 10 % 2 ^ 3
  rw [BitVec.toNat_or, ← Nat.shiftRight_eq_div_pow, Nat.shiftRight_or_distrib, Nat.shiftRight_eq_div_pow, Nat.shiftRight_eq_div_pow,
    Nat.div_eq_of_lt (a := (fl.setWidth 64).toNat), Nat.or_zero]
  rw [BitVec.toNat_setWidth_of_le (by decide)]
  exact fl.isLt.trans (by decide)

theorem mode_flagged (r : Regs) (fl : BitVec 5) (m : Rnd) : (flagged r fl).mode m = r.mode m := by
  unfold Regs.mode Regs.dynamicMode
  rw [bits_flagged]

/-- Registers that hold raised flags count as the registers before do. -/
theorem counted_of_raise {r q u : Regs} {l : List (Nat × Nat)} (h : r.raise l = .ok q) (hsys : u.sys = q.sys) (hcount : u.srCount = q.srCount)
    (m : Rnd) : u.counted m = { u with srCount := if stochastic m r then r.srCount + 1 else r.srCount } := by
  obtain rfl := raise_ok h
  have hmode : u.mode m = r.mode m := by
    rw [← mode_flagged r (BitVec.ofNat 5 (orFlags l)) m]
    unfold Regs.mode Regs.dynamicMode
    rw [hsys]
  have hc : u.srCount = r.srCount := hcount
  unfold Regs.counted stochastic
  rw [hmode, ← hc]
  by_cases hm : r.mode m = .sr <;> simp [hm]

theorem map_bind {α β γ : Type} (x : Except Stop α) (f : α → β) (g : β → Except Stop γ) : (x.map f >>= g) = x >>= fun a => g (f a) := by
  cases x <;> rfl

section
variable {i : Instr} {s : State} {k : Nat} {sl : Slot} {f : Firing} {g : Guard} {op : Nat} {o : Operands} {body : Regs → Except Stop Regs}
  (hexec : ∀ s, exec i s = runRegs i s body) (hp : i.parts = some (op, o)) (hg : operandGuard o = g)
include hexec hp hg

/-- An instruction whose meaning raises flags and then writes registers. -/
theorem raises_of_bind {l : List (Nat × Nat)} {u : Regs → Regs} {goes : Regs → Prop} (h : Runs s k sl f g)
    (hb : body f.r = f.r.raise l >>= fun q => .ok (u q))
    (hgo : ∀ q, f.r.raise l = .ok q → exec i s = wrote s k sl f op (u q) → goes q) : raises i s k f.r l goes := by
  have hrun : exec i s = regsOutcome s k sl f op (f.r.raise l >>= fun q => .ok (u q)) := by rw [hexec, runRegs_runs h hp hg, hb]
  refine ⟨fun t ht => ?_, fun q hq => hgo q hq ?_⟩
  · rw [hrun, ht]
    rfl
  · rw [hrun, hq]
    rfl

end

/-! ### Elements written with their flags -/

/-- A meaning raises the flags of enabled elements and writes their patterns to the register `d`: `res` gives both. -/
def meansElems (r : Regs) (x : Except Stop Regs) (d : Fin 64) (w : Nat) (m : Rnd) (on : Nat → Bool) (res : Nat → Nat × Nat) : Prop :=
  ∃ (on' : Nat → Bool) (z : Nat → Nat × Nat),
    x = (r.raise (flagList (2048 / w) on' fun e => (z e).2) >>= fun q => .ok ((q.putElems d w on' fun e => (z e).1).counted m)) ∧
    ∀ e, e < 2048 / w → on' e = on e ∧ (on e = true → z e = res e)

/-- Elements from `off` on, `n` of them, as the conversions write them. -/
theorem meansElems_window {r : Regs} {d : Fin 64} {w off n : Nat} {m : Rnd} {on : Nat → Bool} {z : Nat → Nat × Nat} {on' : Nat → Bool}
    {res : Nat → Nat × Nat} (hn : off + n ≤ 2048 / w) (hon : ∀ e, (decide (off ≤ e ∧ e < off + n) && on (e - off)) = on' e)
    (hres : ∀ e, off ≤ e → z (e - off) = res e) :
    meansElems r (r.raise ((elemResults n on z).map fun y => (y.1 + off, y.2.2)) >>= fun q => .ok ((q.putElems d w
      (fun e => decide (off ≤ e ∧ e < off + n) && on (e - off)) fun e => (z (e - off)).1).counted m)) d w m on' res := by
  refine ⟨_, fun e => z (e - off), ?_, fun e _ => ⟨hon e, fun he => hres e ?_⟩⟩
  · rw [elemResults_flags, flagList_window hn on fun e => (z e).2]
  · rw [← hon e] at he
    simp only [Bool.and_eq_true, decide_eq_true_eq] at he
    exact he.1.1

section
variable {i : Instr} {g : Guard} {op : Nat} {o : Operands} {body : Regs → Except Stop Regs} {d : Reg} {pre : Regs → Prop} {m : Rnd}
  {on : Regs → Nat → Bool} (hexec : ∀ s, exec i s = runRegs i s body) (hp : i.parts = some (op, o)) (hg : operandGuard o = g)
include hexec hp hg

theorem writesFlagged_of_meansElems {w : Nat} {res : Regs → Nat → Nat × Nat}
    (hbody : ∀ r, named d r → pre r → meansElems r (body r) (vnum r d) w m (on r) (res r)) :
    writesFlagged i g op d pre w on (fun _ => []) (stochastic m) res := by
  intro s k sl f h hd hpre
  obtain ⟨on', z, hb, heq⟩ := hbody f.r hd hpre
  have hlist : flagList (2048 / w) on' (fun e => (z e).2) = [] ++ flagList (2048 / w) (on f.r) fun e => (res f.r e).2 :=
    flagList_congr (fun e he => (heq e he).1) fun e he hon => by rw [(heq e he).2 hon]
  rw [hlist] at hb
  refine raises_of_bind hexec hp hg h hb fun q hq hrun => ?_
  rw [counted_of_raise (u := q.putElems (vnum f.r d) w on' fun e => (z e).1) hq rfl rfl] at hrun
  obtain rfl := raise_ok hq
  refine ⟨_, hrun, rfl, fun n hn => ?_, fun e he => ?_⟩
  · exact (get_setV _ _ _ _).trans (if_neg hn)
  · refine (velem_putElems _ _ _ _ he).trans ?_
    obtain ⟨hon, hz⟩ := heq e he
    rw [hon]
    by_cases ho : on f.r e = true
    · rw [if_pos ho, if_pos ho, hz ho]
    · rw [if_neg ho, if_neg ho]
      rfl

end

/-! ### Blocks written with their flags (10 R203) -/

theorem velem_putBlocks_beyond (r : Regs) (d : Fin 64) (on : Nat → Bool) (el sc : Nat → Nat) {b : Nat} (hlo : 16 ≤ b) (hhi : b < 256) :
    velem ((r.putBlocks d on el sc).v.get (d + 1)) 8 b = velem (r.v.get (d + 1)) 8 b := by
  show velem ((r.putBlocks d on el sc).v.get (partner d)) 8 b = velem (r.v.get (partner d)) 8 b
  rw [Regs.putBlocks, get_setV, if_pos rfl, velem_vbuild _ (by omega)]
  simp only [Nat.not_lt.2 hlo, false_and, if_false]
  exact velem_mod _ 8 _

/-- Where `on` says so the blocks of registers `d` and `d + 1` are those of `blk`, and the other blocks and registers are those of `r`. -/
def blocksWritten (r q : Regs) (d : Fin 64) (on : Nat → Bool) (blk : Nat → Nat × (Nat → Nat × Nat)) : Prop :=
  (∀ n, n ≠ d → n ≠ d + 1 → q.v.get n = r.v.get n) ∧
  (∀ b e, b < 16 → e < 32 → velem (q.v.get d) 4 (32 * b + e) = if on b then ((blk b).2 e).1 % 16 else velem (r.v.get d) 4 (32 * b + e)) ∧
  (∀ b, b < 16 → velem (q.v.get (d + 1)) 8 b = if on b then (blk b).1 % 256 else velem (r.v.get (d + 1)) 8 b) ∧
  ∀ b, 16 ≤ b → b < 256 → velem (q.v.get (d + 1)) 8 b = velem (r.v.get (d + 1)) 8 b

theorem blocksWritten_putBlocks (r : Regs) (d : Fin 64) {on' on : Nat → Bool} {el sc : Nat → Nat} {blk : Nat → Nat × (Nat → Nat × Nat)}
    (hon : ∀ b, b < 16 → on' b = on b) (hel : ∀ b e, b < 16 → e < 32 → on b = true → el (32 * b + e) % 16 = ((blk b).2 e).1 % 16)
    (hsc : ∀ b, b < 16 → on b = true → sc b = (blk b).1) : blocksWritten r (r.putBlocks d on' el sc) d on blk := by
  refine ⟨fun n hd hp => ?_, fun b e hb he => ?_, fun b hb => ?_, fun b => velem_putBlocks_beyond r d on' el sc⟩
  · exact (sameBut_putBlocks r d on' el sc).1 n (not_or.2 ⟨hd, hp⟩)
  · rw [velem_putBlocks r d on' el sc hb he, hon b hb]
    by_cases ho : on b = true
    · rw [if_pos ho, if_pos ho, hel b e hb he ho]
    · rw [if_neg ho, if_neg ho]
  · refine (velem_putBlocks_scale r d on' el sc hb).trans ?_
    rw [hon b hb]
    by_cases ho : on b = true
    · rw [if_pos ho, if_pos ho, hsc b hb ho]
    · rw [if_neg ho, if_neg ho]
      rfl

/-- A meaning raises the flags of the elements of enabled blocks and writes the blocks: `blk` gives their scales, patterns and flags. -/
def meansBlocks (r : Regs) (x : Except Stop Regs) (d : Fin 64) (m : Rnd) (on : Nat → Bool) (blk : Nat → Nat × (Nat → Nat × Nat)) : Prop :=
  ∃ (on' : Nat → Bool) (z : Nat → Nat × Nat) (sc : Nat → Nat), x = (r.raise (flagList 512 (fun i => on' (i / 32)) fun i => (z i).2) >>= fun q =>
      .ok ((q.putBlocks d on' (fun i => (z i).1) sc).counted m)) ∧
    ∀ b, b < 16 → on' b = on b ∧ (on b = true → (∀ e, e < 32 → z (32 * b + e) = (blk b).2 e) ∧ sc b = (blk b).1)

section
variable {i : Instr} {g : Guard} {op : Nat} {o : Operands} {body : Regs → Except Stop Regs} {d : Reg} {pre : Regs → Prop} {m : Rnd}
  {on : Regs → Nat → Bool} (hexec : ∀ s, exec i s = runRegs i s body) (hp : i.parts = some (op, o)) (hg : operandGuard o = g)
include hexec hp hg

theorem writesBlocks_of_meansBlocks {blk : Regs → Nat → Nat × (Nat → Nat × Nat)}
    (hbody : ∀ r, named d r → pre r → meansBlocks r (body r) (vnum r d) m (on r) (blk r)) :
    writesBlocks i g op d pre on (stochastic m) blk := by
  intro s k sl f h hd hpre
  obtain ⟨on', z, sc, hb, heq⟩ := hbody f.r hd hpre
  have hlist : flagList 512 (fun i => on' (i / 32)) (fun i => (z i).2) =
      flagList 512 (fun i => on f.r (i / 32)) fun i => ((blk f.r (i / 32)).2 (i % 32)).2 := by
    refine flagList_congr (fun i hi => (heq (i / 32) (by omega)).1) fun i hi hon => ?_
    rw [← ((heq (i / 32) (by omega)).2 hon).1 (i % 32) (Nat.mod_lt i (by decide)), Nat.div_add_mod]
  rw [hlist] at hb
  refine raises_of_bind hexec hp hg h hb fun q hq hrun => ?_
  rw [counted_of_raise (u := q.putBlocks (vnum f.r d) on' (fun i => (z i).1) sc) hq rfl rfl] at hrun
  obtain rfl := raise_ok hq
  exact ⟨_, hrun, rfl, blocksWritten_putBlocks _ _ (fun b hb => (heq b hb).1)
    (fun b e hb he ho => by rw [((heq b hb).2 ho).1 e he]) fun b hb ho => ((heq b hb).2 ho).2⟩

/-- Blocks that are moved raise nothing. -/
theorem writesBlocks_of_moveBlocks {pm : Fin 16} {pick : Regs → Nat → Reg × Nat}
    (hbody : ∀ r, named d r → pre r → ∃ src, body r = .ok (r.moveBlocks (vnum r d) pm src) ∧
      ∀ b, b < 16 → src b = (vnum r (pick r b).1, (pick r b).2)) :
    writesBlocks i g op d pre (blockEnabled pm) (fun _ => false) fun r b =>
      (velem (r.v.get (vnum r (pick r b).1 + 1)) 8 (pick r b).2, fun e => (elemBits r (pick r b).1 4 (32 * (pick r b).2 + e), 0)) := by
  intro s k sl f h hd hpre
  obtain ⟨src, hb, hsrc⟩ := hbody f.r hd hpre
  have hzero : ∀ l : List Nat, orFlags (l.map fun e => (e, 0)) = 0 := by
    intro l
    induction l with
    | nil => rfl
    | cons e l ih => simpa [orFlags] using ih
  have hraise := raise_none f.r (hzero ((List.range 512).filter fun e => blockEnabled pm f.r (e / 32)))
  refine raises_of_bind hexec hp hg h (u := fun q => q.moveBlocks (vnum f.r d) pm src) ?_ fun q hq hrun => ?_
  · rw [hb]
    exact (congrArg (· >>= fun q => Except.ok (q.moveBlocks (vnum f.r d) pm src)) hraise).symm
  · obtain rfl : f.r = q := Except.ok.inj (hraise.symm.trans hq)
    refine ⟨_, hrun, rfl, blocksWritten_putBlocks _ _ (fun b _ => blockOn_eq _ _ _) (fun b e hb he _ => ?_) fun b hb _ => ?_⟩
    · rw [show (32 * b + e) / 32 = b by omega, show (32 * b + e) % 32 = e by omega, hsrc b hb]
      rfl
    · rw [hsrc b hb]
      rfl

end

/-! ### Encoded blocks (10 R204) -/

theorem encodeBlock_length {x : List FVal} (h : x.length = 32) (rm : Rnd) (sat : Bool) (sr : Nat → Nat) :
    (encodeBlock x rm sat sr).2.length = 32 := by
  unfold encodeBlock
  extract_lets zeros anyInf frac rounds floorLogs top s0 s1 s s2 whole one
  have hzeros : ∀ fl, (zeros fl).length = 32 := fun fl => rfl
  split
  · exact hzeros 0
  split
  · exact hzeros flOF
  split
  · exact hzeros (flOF ||| flIX)
  · simp [h]

/-- 32 exact results encoded, each with the flags of its encoding and its own, are what the statements call encoded. -/
theorem encoded_eq (x : Mods) (r : Regs) (b : Nat) (f : Nat → Exact) {e : Nat} (he : e < 32) :
    let es := (List.range 32).map f
    let k := encodeBlock (es.map Exact.v) (r.mode x.rnd) x.sat fun i => r.sr 0 (32 * b + i)
    (((k.2.zip es).map fun z => (z.1.1, z.1.2 ||| z.2.fl))[e]?).getD (0, 0) = (encoded x r b (fun e => (f e).v) fun e => (f e).fl).2 e := by
  intro es k
  have hk : e < k.2.length := by rwa [encodeBlock_length (by simp [es])]
  have hlist : (List.range 32).map (fun e => (f e).v) = es.map Exact.v := by rw [List.map_map]; rfl
  unfold encoded
  rw [hlist]
  show _ = ((k.2[e]?.getD (0, 0)).1, (k.2[e]?.getD (0, 0)).2 ||| (f e).fl)
  simp [es, hk, he]

theorem meansBlocks.congr {r : Regs} {x : Except Stop Regs} {d : Fin 64} {m : Rnd} {on on' : Nat → Bool}
    {blk blk' : Nat → Nat × (Nat → Nat × Nat)} (h : meansBlocks r x d m on blk) (hon : ∀ b, b < 16 → on b = on' b)
    (hblk : ∀ b, b < 16 → on' b = true → blk b = blk' b) : meansBlocks r x d m on' blk' := by
  obtain ⟨on₀, z, sc, hx, heq⟩ := h
  refine ⟨on₀, z, sc, hx, fun b hb => ⟨(heq b hb).1.trans (hon b hb), fun ho => ?_⟩⟩
  rw [← hblk b hb ho]
  exact (heq b hb).2 ((hon b hb).trans ho)

/-- Block `b` is one of `n` from `b0` on, and its 32 elements are enabled. -/
def groupOn (b0 n : Nat) (on : Nat → Bool) (b : Nat) : Bool :=
  decide (b0 ≤ b ∧ b < b0 + n) && (List.range 32).all fun e => on (32 * (b - b0) + e)

/-- Groups of 32 exact results encoded as blocks from `b0` on (11 R237, R238). -/
theorem putGroups_meansBlocks (r : Regs) (d : Fin 64) {b0 n : Nat} (h : b0 + n ≤ 16) (on : Nat → Bool) (f : Nat → Exact) (x : Mods) :
    meansBlocks r (r.putGroups d b0 n on f (r.mode x.rnd) x.sat >>= fun q => .ok (q.counted x.rnd)) d x.rnd (groupOn b0 n on) fun b =>
      encoded x r b (fun e => (f (32 * (b - b0) + e)).v) fun e => (f (32 * (b - b0) + e)).fl := by
  unfold Regs.putGroups
  extract_lets on' groups el onB fl
  have hfl : fl = flagList 512 (fun i => onB (i / 32)) fun i => (el i).2 := by
    refine (filterMap_ite _ _ _).trans ((flagList_window (n := 512) (off := 32 * b0) (m := 32 * n) (by omega) (fun i => on' (i / 32))
      fun i => (el (32 * b0 + i)).2).symm.trans (flagList_congr (fun i _ => ?_) fun i _ hon => ?_))
    · show _ = (decide (b0 ≤ i / 32 ∧ i / 32 < b0 + n) && on' (i / 32 - b0))
      rw [show (i - 32 * b0) / 32 = i / 32 - b0 by omega,
        show decide (32 * b0 ≤ i ∧ i < 32 * b0 + 32 * n) = decide (b0 ≤ i / 32 ∧ i / 32 < b0 + n) from decide_eq_decide.2 (by omega)]
    · have hlo : b0 ≤ i / 32 := by
        simp only [onB, Bool.and_eq_true, decide_eq_true_eq] at hon
        exact hon.1.1
      rw [show 32 * b0 + (i - 32 * b0) = i by omega]
  rw [map_bind, hfl]
  refine ⟨onB, el, _, rfl, fun b hb => ⟨rfl, fun ho => ?_⟩⟩
  have hin : b0 ≤ b ∧ b < b0 + n := by
    simp only [groupOn, Bool.and_eq_true, decide_eq_true_eq] at ho
    exact ho.1
  have hgroup : groups[b - b0]? = _ := (List.getElem?_map ..).trans (congrArg _ (List.getElem?_range (by omega)))
  rw [Option.map_some, Nat.add_sub_cancel' hin.1] at hgroup
  refine ⟨fun e he => ?_, ?_⟩
  · rw [← encoded_eq x r b _ he]
    simp only [el]
    rw [show (32 * b + e) / 32 = b by omega, show (32 * b + e) % 32 = e by omega, hgroup]
  · rw [hgroup]
    unfold encoded
    simp [List.map_map, Function.comp_def]

/-! ### Immediates and shuffles (11 R235, R240) -/

theorem blockImm_meansBlocks {r : Regs} {x : IFields} (ff : FVal → FVal → Rnd → Exact) (hd : named x.d r) (ha : named x.a r) :
    meansBlocks r (r.blockImm x ff) (vnum r x.d) x.mods.rnd (blockEnabled x.pm r) fun b => encoded x.mods r b
      (fun e => (ff (blockElem r x.a (32 * b + e)) (fmtB16.value x.imm.toNat) (r.mode x.mods.rnd)).v) fun _ => 0 := by
  unfold Regs.blockImm
  rw [vecNum_of_named hd, vecNum_of_named ha]
  rw [ok_bind, ok_bind]
  extract_lets a sc y m blocks on el fl
  have hfl : fl = flagList 512 (fun i => on (i / 32)) fun i => (el i).2 := filterMap_ite _ _ _
  rw [hfl]
  refine ⟨on, el, _, rfl, fun b hb => ⟨blockOn_eq r x.pm b, fun _ => ?_⟩⟩
  have hlist : ((List.range 32).map fun i => ff (blockVal (scaleOf sc b) (velem a 4 (32 * b + i))) y m).map Exact.v =
      (List.range 32).map fun e => (ff (blockElem r x.a (32 * b + e)) y m).v := by
    rw [List.map_map]
    refine List.map_congr_left fun e he => ?_
    have hlt := List.mem_range.1 he
    rw [blockElem, show (32 * b + e) / 32 = b by omega]
    rfl
  have hblock : blocks[b]? = some (encodeBlock ((List.range 32).map fun e => (ff (blockElem r x.a (32 * b + e)) y m).v) m x.mods.sat
      fun i => r.sr 0 (32 * b + i)) := by
    rw [← hlist]
    exact (List.getElem?_map ..).trans (congrArg _ (List.getElem?_range hb))
  refine ⟨fun e he => ?_, ?_⟩
  · simp only [el]
    rw [show (32 * b + e) / 32 = b by omega, show (32 * b + e) % 32 = e by omega, hblock]
    exact Prod.ext rfl (Nat.or_zero _).symm
  · rw [hblock]
    rfl

theorem immediate_writesBlocks {i : Instr} {op : Nat} {x : IFields} {ff : FVal → FVal → Rnd → Exact} {fi : Int → Int → Int}
    (hexec : ∀ s, exec i s = runRegs i s fun r => r.vecImm x fi ff) (hp : i.parts = some (op, .i x)) (hty : x.ty = .e2m1) :
    writesBlocks i x.guard op x.d (named x.a) (blockEnabled x.pm) (stochastic x.mods.rnd) fun r b => encoded x.mods r b
      (fun e => (ff (blockElem r x.a (32 * b + e)) (fmtB16.value x.imm.toNat) (r.mode x.mods.rnd)).v) fun _ => 0 :=
  writesBlocks_of_meansBlocks hexec hp rfl fun r hd ha => by
    rw [Regs.vecImm, if_pos hty]
    exact blockImm_meansBlocks ff hd ha

/-- The register and the block in it from which VSHUF takes block `b` (R240). -/
def shufBlock (x : RFields) (r : Regs) (b : Nat) : Reg × Nat :=
  match (r.readG x.c).toNat with
  | 0 => (if b % 2 = 0 then x.a else x.b, b / 2)
  | 1 => (if b % 2 = 0 then x.a else x.b, 8 + b / 2)
  | 2 => (if b < 8 then x.a else x.b, 2 * (b % 8))
  | _ => (if b < 8 then x.a else x.b, 2 * (b % 8) + 1)

theorem shufSrc_blocks {x : RFields} {r : Regs} {b : Nat} (hc : (r.readG x.c).toNat < 4) (hb : b < 16) :
    (if (shufSrc (r.readG x.c).toNat 16 b).1 then vnum r x.b else vnum r x.a, (shufSrc (r.readG x.c).toNat 16 b).2) =
      (vnum r (shufBlock x r b).1, (shufBlock x r b).2) := by
  unfold shufBlock
  generalize (r.readG x.c).toNat = c at hc
  interval_cases c <;> interval_cases b <;> rfl

theorem vshuf_writesBlocks {x : RFields} (hty : x.ty = .e2m1) : writesBlocks (.vshuf x) x.guard 0x66 x.d
    (fun r => two x.a x.b r ∧ (r.readG x.c).toNat < 4) (blockEnabled x.pm) (fun _ => false) fun r b =>
      (velem (r.v.get (vnum r (shufBlock x r b).1 + 1)) 8 (shufBlock x r b).2,
        fun e => (elemBits r (shufBlock x r b).1 4 (32 * (shufBlock x r b).2 + e), 0)) := by
  refine writesBlocks_of_moveBlocks (i := .vshuf x) (pick := shufBlock x) (fun s => show execVshuf x s = _ from rfl) rfl rfl
    fun r hd ⟨⟨ha, hb⟩, hc⟩ => ?_
  rw [code_within (Nat.le_of_lt_succ hc), vecNum_of_named hd, vecNum_of_named ha, vecNum_of_named hb]
  exact ⟨_, if_pos hty, fun b hlt => shufSrc_blocks hc hlt⟩

/-! ### Widths of a conversion (11 R237) -/

theorem bits_mem (t : Ty) : t.bits ∈ [4, 8, 16, 32, 64] := by cases t <;> decide

/-- A register holds at least twice as many elements of a narrower type. -/
theorem elems_narrower {t u : Ty} (h : t.bits < u.bits) : 2048 / u.bits + 2048 / u.bits ≤ 2048 / t.bits := by
  have hall : ∀ a ∈ [4, 8, 16, 32, 64], ∀ b ∈ [4, 8, 16, 32, 64], a < b → 2048 / b + 2048 / b ≤ 2048 / a := by decide
  exact hall _ (bits_mem t) _ (bits_mem u) h

/-- The positions that a conversion writes lie in the register. -/
theorem writesFrom_count_le (x : CvtFields) : writesFrom x + cvtCount x ≤ 2048 / x.ty.bits := by
  unfold writesFrom cvtCount cvtWidth
  by_cases h : x.ty.bits < x.src.bits
  · rw [max_eq_right h.le]
    split
    · exact elems_narrower h
    · exact (Nat.add_le_add_right (Nat.zero_le _) _).trans (elems_narrower h)
  · rw [max_eq_left (Nat.not_lt.1 h), if_neg fun hw => h hw.2, Nat.zero_add]

theorem e2m1_bits_le (t : Ty) : Ty.e2m1.bits ≤ t.bits := by
  have hall : ∀ a ∈ [4, 8, 16, 32, 64], Ty.e2m1.bits ≤ a := by decide
  exact hall _ (bits_mem t)

/-- A conversion to E2M1 writes whole blocks, and reads from the first position on. -/
theorem writesFrom_blocks {x : CvtFields} (hty : x.ty = .e2m1) :
    writesFrom x = 32 * (writesFrom x / 32) ∧ cvtCount x = 32 * (cvtCount x / 32) ∧ writesFrom x / 32 + cvtCount x / 32 ≤ 16 := by
  have hcount : cvtCount x = 2048 / x.src.bits := by rw [cvtCount, cvtWidth, hty, max_eq_right (e2m1_bits_le _)]
  have hall : ∀ a ∈ [4, 8, 16, 32, 64], 2048 / a = 32 * (2048 / a / 32) ∧ 2048 / a / 32 ≤ 16 ∧
      (4 < a → 2048 / a / 32 + 2048 / a / 32 ≤ 16) := by decide
  obtain ⟨hwhole, hle, htwice⟩ := hall _ (bits_mem x.src)
  unfold writesFrom
  rw [hcount]
  split
  · rename_i hw
    rw [hty] at hw
    exact ⟨hwhole, hwhole, htwice hw.2⟩
  · exact ⟨rfl, hwhole, by rwa [Nat.zero_div, Nat.zero_add]⟩

theorem readsFrom_blocks {x : CvtFields} (hty : x.ty = .e2m1) : readsFrom x = 0 :=
  if_neg fun ⟨_, hlt⟩ => Nat.not_lt.2 (e2m1_bits_le x.src) (hty ▸ hlt)

theorem writesFrom_sameBlocks {x : CvtFields} (hty : x.ty = .e2m1) (hsrc : x.src = .e2m1) : writesFrom x = 0 :=
  if_neg fun ⟨_, hlt⟩ => by rw [hty, hsrc] at hlt; exact Nat.lt_irrefl _ hlt

/-! ### Conversions (11 R237) -/

/-- The predicate bit of a converted element. -/
def cvtOn (x : CvtFields) (r : Regs) (e : Nat) : Bool := (r.pmask x.pm).getLsbD (e * cvtWidth x / 32)

/-- What VCVT does, in the terms of the statements. -/
theorem convertVec_eq {r : Regs} {x : CvtFields} (hd : named x.d r) (ha : named x.a r) :
    r.convertVec x =
      if x.ty = .e2m1 then
        r.putGroups (vnum r x.d) (writesFrom x / 32) (cvtCount x / 32) (cvtOn x r)
          (fun e => operandExact (srcVal x.src (r.v.get (vnum r x.a)) (r.v.get (vnum r x.a + 1)) (e + readsFrom x))) (r.mode x.mods.rnd)
          x.mods.sat >>= fun q => .ok (q.counted x.mods.rnd)
      else
        r.raise ((elemResults (cvtCount x) (cvtOn x r) fun e => convertElem x.ty x.src (r.v.get (vnum r x.a)) (r.v.get (vnum r x.a + 1))
          (e + readsFrom x) (r.mode x.mods.rnd) x.mods.sat (r.sr 0 (e + writesFrom x))).map fun y => (y.1 + writesFrom x, y.2.2))
          >>= fun q => .ok ((q.putElems (vnum r x.d) x.ty.bits
            (fun i => decide (writesFrom x ≤ i ∧ i < writesFrom x + cvtCount x) && cvtOn x r (i - writesFrom x)) fun i =>
              (convertElem x.ty x.src (r.v.get (vnum r x.a)) (r.v.get (vnum r x.a + 1)) (i - writesFrom x + readsFrom x) (r.mode x.mods.rnd)
                x.mods.sat (r.sr 0 (i - writesFrom x + writesFrom x))).1).counted x.mods.rnd) := by
  have hreads : readsFrom x = if (x.mods.w && decide (x.src.bits < x.ty.bits)) = true then cvtCount x else 0 := by simp [readsFrom]
  have hwrites : writesFrom x = if (x.mods.w && decide (x.ty.bits < x.src.bits)) = true then cvtCount x else 0 := by simp [writesFrom]
  rw [Regs.convertVec, vecNum_of_named hd, vecNum_of_named ha, hreads, hwrites]
  rfl

theorem converts_eq (x : CvtFields) (r : Regs) (i : Nat) :
    (decide (writesFrom x ≤ i ∧ i < writesFrom x + cvtCount x) && cvtOn x r (i - writesFrom x)) = converts x r i := rfl

theorem convertElem_plain {dst src : Ty} (h : src ≠ .e2m1) (a sc : VReg) (i : Nat) (m : Rnd) (sat : Bool) (sr : Nat) :
    convertElem dst src a sc i m sat sr = convertPat dst src (velem a src.bits i) m sat sr := if_neg h

theorem convertElem_blocks (dst : Ty) (r : Regs) (x : Reg) (i : Nat) (m : Rnd) (sat : Bool) (sr : Nat) :
    convertElem dst .e2m1 (r.v.get (vnum r x)) (r.v.get (vnum r x + 1)) i m sat sr = deliverTo dst (blockElem r x i) m sat sr := rfl

theorem operandExact_eq (v : FVal) : operandExact v = { v := if v.isNan then .nan false else v, fl := signalling v } := by
  cases v with
  | nan sig => cases sig <;> rfl
  | inf neg => rfl
  | num neg n d => rfl

/-- VCVT to a type other than E2M1 writes each converted element. -/
theorem vcvt_convertsTo {x : CvtFields} (hty : x.ty ≠ .e2m1) {res : Regs → Nat → Nat × Nat}
    (hres : ∀ r i, writesFrom x ≤ i → convertElem x.ty x.src (r.v.get (vnum r x.a)) (r.v.get (vnum r x.a + 1)) (i - writesFrom x + readsFrom x)
      (r.mode x.mods.rnd) x.mods.sat (r.sr 0 i) = res r i) : convertsTo x res := by
  unfold convertsTo
  refine writesFlagged_of_meansElems (i := .vcvt x) (fun s => show execVcvt x s = _ from rfl) rfl rfl fun r hd ha => ?_
  rw [convertVec_eq hd ha, if_neg hty]
  refine meansElems_window (writesFrom_count_le x) (converts_eq x r) fun e he => ?_
  rw [Nat.sub_add_cancel he]
  exact hres r e he

theorem groupOn_eq {b0 n off m : Nat} (hoff : off = 32 * b0) (hm : m = 32 * n) (on : Nat → Bool) (b : Nat) :
    groupOn b0 n on b = (List.range 32).all fun e => decide (off ≤ 32 * b + e ∧ 32 * b + e < off + m) && on (32 * b + e - off) := by
  subst hoff hm
  have hshift : b0 ≤ b → ∀ e, 32 * b + e - 32 * b0 = 32 * (b - b0) + e := fun h e => by omega
  unfold groupOn
  rw [Bool.eq_iff_iff]
  simp only [Bool.and_eq_true, decide_eq_true_eq, List.all_eq_true, List.mem_range]
  constructor
  · rintro ⟨hb, hall⟩ e he
    exact ⟨by omega, by rw [hshift hb.1]; exact hall e he⟩
  · intro hall
    have hb : b0 ≤ b ∧ b < b0 + n := by
      have h0 := (hall 0 (by decide)).1
      omega
    exact ⟨hb, fun e he => by rw [← hshift hb.1]; exact (hall e he).2⟩

theorem groupOn_inside {b0 n : Nat} {on : Nat → Bool} {b : Nat} (h : groupOn b0 n on b = true) : b0 ≤ b ∧ b < b0 + n := by
  simp only [groupOn, Bool.and_eq_true, decide_eq_true_eq] at h
  exact h.1

/-- A block of a conversion to E2M1 is enabled when its 32 elements are converted. -/
theorem groupOn_converts {x : CvtFields} (hty : x.ty = .e2m1) (r : Regs) (b : Nat) :
    groupOn (writesFrom x / 32) (cvtCount x / 32) (cvtOn x r) b = (List.range 32).all fun e => converts x r (32 * b + e) := by
  obtain ⟨hfrom, hcount, -⟩ := writesFrom_blocks hty
  exact groupOn_eq hfrom hcount (cvtOn x r) b

/-- The value that VCVT converts to element `e` of block `b`. -/
def cvtSource (x : CvtFields) (r : Regs) (b e : Nat) : FVal :=
  if x.src = .e2m1 then blockElem r x.a (32 * b + e) else patVal x.src (elemBits r x.a x.src.bits (32 * b + e - writesFrom x))

theorem srcVal_eq {x : CvtFields} (hty : x.ty = .e2m1) (r : Regs) {b : Nat} (hb : writesFrom x / 32 ≤ b) (e : Nat) :
    srcVal x.src (r.v.get (vnum r x.a)) (r.v.get (vnum r x.a + 1)) (32 * (b - writesFrom x / 32) + e + readsFrom x) = cvtSource x r b e := by
  obtain ⟨hfrom, -, -⟩ := writesFrom_blocks hty
  rw [readsFrom_blocks hty, Nat.add_zero, show 32 * (b - writesFrom x / 32) + e = 32 * b + e - writesFrom x by omega]
  unfold srcVal cvtSource
  by_cases hsrc : x.src = .e2m1
  · rw [if_pos hsrc, if_pos hsrc, writesFrom_sameBlocks hty hsrc]
    rfl
  · rw [if_neg hsrc, if_neg hsrc]
    rfl

/-- VCVT to E2M1 encodes groups of 32 values. -/
theorem vcvt_writesBlocks {x : CvtFields} (hty : x.ty = .e2m1) : writesBlocks (.vcvt x) x.guard 0x54 x.d (named x.a)
    (fun r b => (List.range 32).all fun e => converts x r (32 * b + e)) (stochastic x.mods.rnd) fun r b =>
      encoded x.mods r b (fun e => if (cvtSource x r b e).isNan then .nan false else cvtSource x r b e)
        fun e => signalling (cvtSource x r b e) := by
  obtain ⟨-, -, hle⟩ := writesFrom_blocks hty
  refine writesBlocks_of_meansBlocks (i := .vcvt x) (fun s => show execVcvt x s = _ from rfl) rfl rfl fun r hd ha => ?_
  rw [convertVec_eq hd ha, if_pos hty]
  refine (putGroups_meansBlocks r _ hle (cvtOn x r) _ x.mods).congr (fun b _ => groupOn_converts hty r b) fun b _ ho => ?_
  rw [← groupOn_converts hty] at ho
  simp only [srcVal_eq hty r (groupOn_inside ho).1, operandExact_eq]

/-! ### Quantisation (11 R238) -/

/-- What VQNT delivers for lane `e` at position `i`. -/
def narrowed (x : RFields) (r : Regs) (e i : Nat) : Nat × Nat :=
  let q := deliverTo x.ty (scaledLane x r e).v (r.mode x.mods.rnd) x.mods.sat (r.sr 0 i)
  (q.1, q.2 ||| (scaledLane x r e).fl)

/-- What VQNT does, in the terms of the statements. -/
theorem quantise_eq {r : Regs} {x : RFields} (hd : named x.d r) (ha : named x.a r) :
    r.quantise x =
      if x.ty = .e2m1 then
        r.putGroups (vnum r x.d) (narrowFrom x / 32) 2 (enabledBy x.pm 32 r) (scaledLane x r) (r.mode x.mods.rnd) x.mods.sat
          >>= fun q => .ok (q.counted x.mods.rnd)
      else
        r.raise ((elemResults 64 (enabledBy x.pm 32 r) fun e => narrowed x r e (e + narrowFrom x)).map fun y => (y.1 + narrowFrom x, y.2.2))
          >>= fun q => .ok ((q.putElems (vnum r x.d) x.ty.bits
            (fun i => decide (narrowFrom x ≤ i ∧ i < narrowFrom x + 64) && enabledBy x.pm 32 r (i - narrowFrom x)) fun i =>
              (narrowed x r (i - narrowFrom x) (i - narrowFrom x + narrowFrom x)).1).counted x.mods.rnd) := by
  rw [Regs.quantise, vecNum_of_named hd, vec_of_named ha]
  rfl

theorem narrowFrom_eq (x : RFields) : narrowFrom x = 32 * (narrowFrom x / 32) ∧ narrowFrom x ≤ 64 := by
  unfold narrowFrom
  split <;> decide

theorem vqnt_writesFlagged {x : RFields} (hty : x.ty ≠ .e2m1) (hbits : 128 * x.ty.bits ≤ 2048) :
    writesFlagged (.vqnt x) x.guard 0x6B x.d (named x.a) x.ty.bits
      (fun r i => decide (narrowFrom x ≤ i ∧ i < narrowFrom x + 64) && enabledBy x.pm 32 r (i - narrowFrom x)) (fun _ => [])
      (stochastic x.mods.rnd) fun r i => narrowed x r (i - narrowFrom x) i := by
  have hroom : narrowFrom x + 64 ≤ 2048 / x.ty.bits := by
    have hle := (narrowFrom_eq x).2
    have hpos : 0 < x.ty.bits := by cases x.ty <;> decide
    exact (Nat.add_le_add_right hle 64).trans ((Nat.le_div_iff_mul_le hpos).2 hbits)
  refine writesFlagged_of_meansElems (i := .vqnt x) (fun s => show execVqnt x s = _ from rfl) rfl rfl fun r hd ha => ?_
  rw [quantise_eq hd ha, if_neg hty]
  exact meansElems_window hroom (fun _ => rfl) fun e he => by rw [Nat.sub_add_cancel he]

theorem vqnt_writesBlocks {x : RFields} (hty : x.ty = .e2m1) : writesBlocks (.vqnt x) x.guard 0x6B x.d (named x.a)
    (fun r b => decide (narrowFrom x / 32 ≤ b ∧ b < narrowFrom x / 32 + 2) &&
      (List.range 32).all fun e => enabledBy x.pm 32 r (32 * b + e - narrowFrom x)) (stochastic x.mods.rnd) fun r b =>
    encoded x.mods r b (fun e => (scaledLane x r (32 * b + e - narrowFrom x)).v) fun e => (scaledLane x r (32 * b + e - narrowFrom x)).fl := by
  obtain ⟨hfrom, hle⟩ := narrowFrom_eq x
  have hshift : ∀ b, narrowFrom x / 32 ≤ b → ∀ e, 32 * (b - narrowFrom x / 32) + e = 32 * b + e - narrowFrom x := fun b hb e => by omega
  refine writesBlocks_of_meansBlocks (i := .vqnt x) (fun s => show execVqnt x s = _ from rfl) rfl rfl fun r hd ha => ?_
  rw [quantise_eq hd ha, if_pos hty]
  refine (putGroups_meansBlocks r _ (by omega) (enabledBy x.pm 32 r) _ x.mods).congr (fun b _ => ?_) fun b _ ho => ?_
  · unfold groupOn
    by_cases hb : narrowFrom x / 32 ≤ b
    · simp only [hshift b hb]
    · simp [hb]
  · simp only [Bool.and_eq_true, decide_eq_true_eq] at ho
    simp only [hshift b ho.1.1]

/-- All the elements of a register, as VDQT writes them. -/
theorem putVec_meansElems (r : Regs) (d : Fin 64) (w : Nat) (m : Rnd) (on : Nat → Bool) (f : Nat → Nat × Nat) :
    meansElems r (r.putVec d w (2048 / w) on f >>= fun q => .ok (q.counted m)) d w m on f := by
  have hlist : (elemResults (2048 / w) on f).map (fun z => (z.1, z.2.2)) =
      flagList (2048 / w) (fun i => decide (i < 2048 / w) && on i) fun e => (f e).2 := by
    unfold elemResults
    rw [filterMap_ite, List.map_map]
    exact flagList_congr (on := on) (fl := fun e => (f e).2) (fun e he => by simp [he]) fun _ _ _ => rfl
  rw [Regs.putVec, map_bind, hlist]
  exact ⟨_, f, rfl, fun e he => ⟨by simp [he], fun _ => rfl⟩⟩

theorem vdqt_writesFlagged (x : RFields) :
    writesFlagged (.vdqt x) x.guard 0x6C x.d (named x.a) 32 (enabledBy x.pm 32) (fun _ => []) (stochastic x.mods.rnd) fun r e =>
      fmt32.result (exactMul (srcVal x.ty (r.v.get (vnum r x.a)) (r.v.get (vnum r x.a + 1)) (e + narrowFrom x)) (r.fval .f32 x.b false))
        (r.mode x.mods.rnd) x.mods.sat (r.sr 0 e) := by
  refine writesFlagged_of_meansElems (i := .vdqt x) (fun s => show execVdqt x s = _ from rfl) rfl rfl fun r hd ha => ?_
  rw [Regs.dequantise, vecNum_of_named hd, vecNum_of_named ha]
  exact putVec_meansElems r _ 32 x.mods.rnd _ _

/-- Settles O10, clause by clause: an instruction on blocks encodes them or moves them, and one on elements writes each with its flags. -/
theorem blocksAndConversions : Obligations.BlocksAndConversions := by
  refine ⟨⟨fun x hty => immediate_writesBlocks (i := .vaddi x) (ff := exactAdd) (fun s => show execVaddi x s = _ from rfl) rfl hty,
      fun x hty => immediate_writesBlocks (i := .vmuli x) (ff := fun a b _ => exactMul a b) (fun s => show execVmuli x s = _ from rfl) rfl hty,
      fun x hty => vshuf_writesBlocks hty⟩,
    fun x hty hsrc => vcvt_convertsTo hty fun r i _ => ?_, fun x hty hsrc => vcvt_convertsTo hty fun r i _ => ?_,
    fun x hty => vcvt_writesBlocks hty, fun x hty hbits => vqnt_writesFlagged hty hbits, fun x hty => vqnt_writesBlocks hty,
    fun x => vdqt_writesFlagged x⟩
  · exact convertElem_plain hsrc ..
  · rw [hsrc]
    exact convertElem_blocks ..

end Sys2Proof.Proofs

/-! SUPPORT. The scalar integer instructions: patterns, shifts, counts and bit fields (11 R214, R218, R220 to R224). -/

namespace Sys2Proof.Proofs

open Sys2Proof.Machine Sys2Proof.Safety Sys2Proof.Laws

/-! ### Patterns written to a general register (11 R214, R218) -/

theorem bits_pos (t : Ty) : 0 < t.bits := by cases t <;> decide

theorem pat_eq_pattern (r : Regs) (t : Ty) (x : Reg) : r.pat t x = (pattern t x r).toNat := (BitVec.toNat_setWidth ..).symm

theorem ofNat_toNat_same {n : Nat} (p : BitVec n) : BitVec.ofNat n p.toNat = p := by rw [BitVec.ofNat_toNat, BitVec.setWidth_eq]

theorem putPat_eq (r : Regs) (t : Ty) (d : Reg) (n : Nat) : r.putPat t d n = r.writeG d (extended t (BitVec.ofNat t.bits n)) := by
  rw [Regs.putPat, widen_eq_extended (Nat.mod_lt _ (Nat.two_pow_pos _))]
  congr 2
  exact BitVec.eq_of_toNat_eq (by simp)

/-- A number within the width stands for itself, signed or not. -/
theorem extended_small {t : Ty} {n : Nat} (h : n ≤ t.bits) : extended t (BitVec.ofNat t.bits n) = BitVec.ofNat 64 n := by
  have hlt : n < 2 ^ t.bits := h.trans_lt Nat.lt_two_pow_self
  have hsigned : t.signed = true → 2 * t.bits < 2 ^ t.bits := by cases t <;> decide
  unfold extended
  split
  · rename_i hs
    have hn : 2 * (BitVec.ofNat t.bits n).toNat < 2 ^ t.bits := by
      rw [BitVec.toNat_ofNat, Nat.mod_eq_of_lt hlt]
      have := hsigned hs
      omega
    rw [BitVec.signExtend, BitVec.toInt_eq_toNat_of_lt hn, BitVec.toNat_ofNat, Nat.mod_eq_of_lt hlt, BitVec.ofInt_natCast]
  · rw [BitVec.setWidth_ofNat_of_le_of_lt (bits_le t) hlt]

section
variable {i : Instr} {g : Guard} {op : Nat} {o : Operands} {body : Regs → Except Stop Regs} {d : Reg} {t : Ty}
  (hexec : ∀ s, exec i s = runRegs i s body) (hp : i.parts = some (op, o)) (hg : operandGuard o = g)
include hexec hp hg

/-- An instruction whose meaning writes a general register and cannot stop. -/
theorem writesG_of_writeG {v : Regs → Dword} (hbody : ∀ r, body r = .ok (r.writeG d (v r))) : writesG i g op d v :=
  fun s _ _ f h => exec_runsRegs (hexec s) h hp hg (hbody f.r)

/-- An instruction whose meaning writes a pattern of its type. -/
theorem writesG_of_putPat {n : Regs → Nat} {p : Regs → BitVec t.bits} (hbody : ∀ r, body r = .ok (r.putPat t d (n r)))
    (hpat : ∀ r, BitVec.ofNat t.bits (n r) = p r) : writesG i g op d fun r => extended t (p r) :=
  writesG_of_writeG hexec hp hg fun r => by rw [hbody, putPat_eq, hpat]

end

/-! ### Shifts (11 R220) -/

theorem div_pow_min {p : Nat} (h : p < 2 ^ 64) (s : Nat) : p / 2 ^ min s 64 = p / 2 ^ s := by
  rcases Nat.le_total s 64 with hs | hs
  · rw [Nat.min_eq_left hs]
  · rw [Nat.min_eq_right hs, Nat.div_eq_of_lt h, Nat.div_eq_of_lt (h.trans_le (Nat.pow_le_pow_right (by decide) hs))]

/-- From a count of 64 on, a signed shift leaves the sign. -/
theorem int_div_pow_min {v : Int} (hlo : -2 ^ 64 ≤ v) (hhi : v < 2 ^ 64) (s : Nat) : v / (2 ^ min s 64 : Nat) = v / (2 ^ s : Nat) := by
  rcases Nat.le_total s 64 with hs | hs
  · rw [Nat.min_eq_left hs]
  · have hpow : (2 ^ 64 : Int) ≤ (2 ^ s : Nat) := by exact_mod_cast Nat.pow_le_pow_right (n := 2) (by decide) hs
    rw [Nat.min_eq_right hs]
    rcases lt_or_ge v 0 with hneg | hnn
    · rw [Int.ediv_eq_neg_one_of_neg_of_le hneg (by push_cast; omega), Int.ediv_eq_neg_one_of_neg_of_le hneg (by omega)]
    · rw [Int.ediv_eq_zero_of_lt hnn (by push_cast; omega), Int.ediv_eq_zero_of_lt hnn (by omega)]

section
variable {n : Nat} (p : BitVec n)

theorem shrPat_eq (hn : n ≤ 64) (s : Nat) : shrPat p.toNat s = (p >>> s).toNat := by
  rw [shrPat, div_pow_min (p.isLt.trans_le (Nat.pow_le_pow_right (by decide) hn)), BitVec.toNat_ushiftRight, Nat.shiftRight_eq_div_pow]

theorem signedPat_eq (hn : 0 < n) : signedPat n p.toNat = p.toInt := by
  have hpow : 2 ^ n = 2 * 2 ^ (n - 1) := by rw [← pow_succ', Nat.sub_add_cancel hn]
  rw [signedPat, BitVec.toInt_eq_toNat_cond]
  split
  · rw [if_neg (by omega)]
  · rw [if_pos (by omega)]

theorem emod_toNat_eq (v : Int) : (v % (2 ^ n : Nat)).toNat = (BitVec.ofInt n v).toNat := (BitVec.toNat_ofInt v).symm

theorem sarPat_eq (hpos : 0 < n) (hn : n ≤ 64) (s : Nat) : sarPat n p.toNat s = (p.sshiftRight s).toNat := by
  have hle : (2 ^ n : Int) ≤ 2 ^ 64 := by exact_mod_cast Nat.pow_le_pow_right (n := 2) (by decide) hn
  have hlo := BitVec.le_two_mul_toInt (x := p)
  have hhi := BitVec.two_mul_toInt_lt (x := p)
  rw [sarPat, signedPat_eq p hpos, int_div_pow_min (by omega) (by omega), emod_toNat_eq, ← Int.shiftRight_eq_div_pow,
    ← BitVec.toInt_sshiftRight, BitVec.ofInt_toInt]

theorem rotPat_eq (hn : 0 < n) (s : Nat) : rotPat n p.toNat s = (p.rotateLeft (s % n)).toNat := by
  have hs := Nat.mod_lt s hn
  have hlow : p.toNat / 2 ^ (n - s % n) < 2 ^ (s % n) := by
    rw [Nat.div_lt_iff_lt_mul (Nat.two_pow_pos _), ← pow_add, Nat.add_sub_cancel' hs.le]
    exact p.isLt
  rw [rotPat, BitVec.toNat_rotateLeft, Nat.mod_mod, Nat.shiftRight_eq_div_pow, ← Nat.shiftLeft_eq, Nat.shiftLeft_add_eq_or_of_lt hlow,
    Nat.or_mod_two_pow, Nat.mod_eq_of_lt (hlow.trans (Nat.pow_lt_pow_right (by decide) hs))]

theorem andnPat_eq (q : BitVec n) : andnPat n p.toNat q.toNat = (p &&& ~~~q).toNat := by
  rw [andnPat, BitVec.toNat_and, BitVec.toNat_not]

end

/-- Integers on one side of the range, with one pattern, are delivered alike. -/
theorem intResult_congr {t : Ty} {sat : Bool} {v w : Int} (hlo : v < least t ↔ w < least t) (hhi : most t < v ↔ most t < w)
    (hmod : BitVec.ofInt t.bits v = BitVec.ofInt t.bits w) : intResult t sat v = intResult t sat w := by
  unfold intResult intPattern clamped
  simp only [hlo, hhi]
  cases sat with
  | false => simp [hmod]
  | true =>
    simp only [if_true]
    split
    · rfl
    · split
      · rfl
      · rw [hmod]

theorem range_lt (t : Ty) : -2 ^ 64 < least t ∧ least t ≤ 0 ∧ 0 < most t ∧ most t < 2 ^ 64 := by cases t <;> decide

theorem ofInt_mul_two_pow {t : Ty} {s : Nat} (x : Int) (h : 64 ≤ s) : BitVec.ofInt t.bits (x * 2 ^ s) = 0 := by
  refine BitVec.eq_of_toNat_eq ?_
  rw [BitVec.toNat_ofInt]
  have hdvd : ((2 ^ t.bits : Nat) : Int) ∣ x * 2 ^ s := by
    push_cast
    exact (pow_dvd_pow 2 ((bits_le t).trans h)).mul_left x
  rw [Int.emod_eq_zero_of_dvd hdvd]
  rfl

/-- A shift by 64 or more leaves every range unless it shifts zero, so the model may stop there (R220). -/
theorem intResult_shlInt (t : Ty) (sat : Bool) (x : Int) (s : Nat) : intResult t sat (shlInt x s) = intResult t sat (x * 2 ^ s) := by
  unfold shlInt
  push_cast
  rcases Nat.le_total s 64 with hs | hs
  · rw [Nat.min_eq_left hs]
  rw [Nat.min_eq_right hs]
  obtain ⟨hlo, hzero, hpos, hhi⟩ := range_lt t
  have hpow : (2 ^ 64 : Int) ≤ 2 ^ s := pow_le_pow_right₀ (by decide) hs
  refine intResult_congr ?_ ?_ ((ofInt_mul_two_pow x le_rfl).trans (ofInt_mul_two_pow x hs).symm)
  all_goals rcases lt_trichotomy x 0 with hx | rfl | hx
  · exact iff_of_true (by nlinarith) (by nlinarith)
  · simp
  · exact iff_of_false (by nlinarith) (by nlinarith)
  · exact iff_of_false (by nlinarith) (by nlinarith)
  · simp
  · exact iff_of_true (by nlinarith) (by nlinarith)

/-! ### Immediates, relations and counts (11 R218, R222, R223) -/

theorem intPat_immInt (t : Ty) (imm : Half) : intPat t (immInt t imm) = ((immDword t imm).setWidth t.bits).toNat := by
  rw [intPat, emod_toNat_eq]
  congr 1
  unfold immInt immDword
  cases t.signed with
  | false =>
    rw [if_neg Bool.false_ne_true, if_neg Bool.false_ne_true, BitVec.setWidth_setWidth_of_le imm (bits_le t)]
    exact (BitVec.ofInt_natCast ..).trans (BitVec.ofNat_toNat ..)
  | true =>
    refine BitVec.eq_of_getLsbD_eq fun j hj => ?_
    show (imm.signExtend t.bits).getLsbD j = ((imm.signExtend 64).setWidth t.bits).getLsbD j
    rw [BitVec.getLsbD_setWidth, BitVec.getLsbD_signExtend, BitVec.getLsbD_signExtend]
    simp only [hj, hj.trans_le (bits_le t), decide_true, Bool.true_and]

theorem ofNat_relInt (x y : Int) : BitVec.ofNat 64 (relInt x y) = relation x y := by
  unfold relInt relation
  split
  · rfl
  · split <;> rfl

theorem int_eq_zero_iff (r : Regs) (t : Ty) (x : Reg) : r.int t x = 0 ↔ pattern t x r = 0 := by
  rw [Regs.int, ← intVal_mod, ← BitVec.toNat_setWidth, intVal_toNat]
  change (if t.signed then (pattern t x r).toInt else ((pattern t x r).toNat : Int)) = 0 ↔ pattern t x r = 0
  split
  · rw [← BitVec.toInt_inj]; simp
  · rw [← BitVec.toNat_inj]; simp

theorem popcPat_eq (n p : Nat) : popcPat n p = (List.range n).countP fun j => p.testBit j := by
  induction n with
  | zero => rfl
  | succ n ih =>
    rw [popcPat, List.range_succ, List.foldl_append, List.countP_append, ← ih, popcPat, List.foldl_cons, List.foldl_nil,
      List.countP_singleton, Nat.testBit_eq_decide_div_mod_eq]
    rcases Nat.mod_two_eq_zero_or_one (p / 2 ^ n) with h | h <;> simp [h]

/-- The leading zeros of a pattern: so many, and then a one or the end. -/
theorem clzPat_spec {n : Nat} (p : BitVec n) : clzPat n p.toNat ≤ n ∧ (∀ j, j < clzPat n p.toNat → p.getMsbD j = false) ∧
    (clzPat n p.toNat < n → p.getMsbD (clzPat n p.toNat) = true) := by
  unfold clzPat
  split
  · rename_i h
    have hp : p = 0 := BitVec.eq_of_toNat_eq h
    exact ⟨le_rfl, fun j _ => by simp [hp], fun hn => absurd hn (lt_irrefl _)⟩
  · rename_i h
    have hlog : p.toNat.log2 < n := (Nat.log2_lt h).2 p.isLt
    refine ⟨by omega, fun j hj => ?_, fun _ => ?_⟩
    · rw [BitVec.getMsbD_eq_getLsbD, BitVec.getLsbD,
        Nat.testBit_eq_false_of_lt ((Nat.log2_lt h).1 (show p.toNat.log2 < n - 1 - j by omega)), Bool.and_false]
    · rw [BitVec.getMsbD_eq_getLsbD, BitVec.getLsbD, show n - 1 - (n - 1 - p.toNat.log2) = p.toNat.log2 by omega, Nat.testBit_log2 h]
      simp
      omega

/-! ### Bit fields (11 R221) -/

theorem bitField_within {r : Regs} {x : RFields} (h : 1 ≤ (r.readG x.c).toNat ∧ (r.readG x.b).toNat + (r.readG x.c).toNat ≤ x.ty.bits) :
    r.bitField x = .ok ((r.readG x.b).toNat, (r.readG x.c).toNat) := if_pos h

theorem bitField_beyond {r : Regs} {x : RFields}
    (h : ¬ (1 ≤ (r.readG x.c).toNat ∧ (r.readG x.b).toNat + (r.readG x.c).toNat ≤ x.ty.bits)) :
    r.bitField x = .error (.trap { code := 0x09, info := r.readG x.b, aux := r.readG x.c }) := by
  refine (if_neg h).trans ?_
  rw [trapAux, ofNat_toNat_same, ofNat_toNat_same]

/-- A field of the low bits is that of the whole. -/
theorem field_toNat (y : Dword) {n pos len : Nat} (h : pos + len ≤ n) :
    y.toNat % 2 ^ n / 2 ^ pos % 2 ^ len = ((y >>> pos).setWidth len).toNat := by
  obtain ⟨k, rfl⟩ := Nat.exists_eq_add_of_le h
  rw [BitVec.toNat_setWidth, BitVec.toNat_ushiftRight, Nat.shiftRight_eq_div_pow, Nat.add_assoc, pow_add, Nat.mod_mul_right_div_self,
    Nat.mod_mod_of_dvd _ (pow_dvd_pow 2 (Nat.le_add_right len k))]

theorem extended_bextPat (t : Ty) (y : Dword) {pos len : Nat} (hlen : 1 ≤ len) (h : pos + len ≤ t.bits) :
    extended t (BitVec.ofNat t.bits (bextPat t (y.toNat % 2 ^ t.bits) pos len)) =
      if t.signed then ((y >>> pos).setWidth len).signExtend 64 else ((y >>> pos).setWidth len).setWidth 64 := by
  have hle : len ≤ t.bits := (Nat.le_add_left len pos).trans h
  unfold extended bextPat
  simp only [field_toNat y h]
  generalize (y >>> pos).setWidth len = q
  cases t.signed with
  | false =>
    simp only [Bool.false_eq_true, if_false]
    refine BitVec.eq_of_toNat_eq ?_
    rw [BitVec.toNat_setWidth, BitVec.toNat_ofNat, Nat.mod_eq_of_lt (q.isLt.trans_le (Nat.pow_le_pow_right (by decide) hle)),
      BitVec.toNat_setWidth]
  | true =>
    simp only [if_true]
    rw [signedPat_eq q hlen, emod_toNat_eq, ofNat_toNat_same]
    exact congrArg (BitVec.ofInt 64) (BitVec.toInt_signExtend_of_le hle)

/-- A bit of a pattern whose field of `len` bits from `pos` on is replaced. -/
theorem testBit_binsPat (p x pos len j : Nat) :
    (binsPat p x pos len).testBit j = if pos ≤ j ∧ j < pos + len then x.testBit (j - pos) else p.testBit j := by
  have hdecomp : p = 2 ^ pos * (2 ^ len * (p / 2 ^ pos / 2 ^ len) + p / 2 ^ pos % 2 ^ len) + p % 2 ^ pos := by
    rw [Nat.div_add_mod, Nat.div_add_mod]
  have hbins : binsPat p x pos len = 2 ^ pos * (2 ^ len * (p / 2 ^ pos / 2 ^ len) + x % 2 ^ len) + p % 2 ^ pos := by
    have hmid : p - p / 2 ^ pos % 2 ^ len * 2 ^ pos = 2 ^ pos * (2 ^ len * (p / 2 ^ pos / 2 ^ len)) + p % 2 ^ pos :=
      Nat.sub_eq_of_eq_add (by linarith)
    rw [binsPat, hmid]
    ring
  rw [hbins, Nat.testBit_two_pow_mul_add _ (Nat.mod_lt _ (Nat.two_pow_pos _)),
    Nat.testBit_two_pow_mul_add _ (Nat.mod_lt _ (Nat.two_pow_pos _))]
  by_cases hlo : j < pos
  · simp [hlo, Nat.not_le.2 hlo]
  · by_cases hhi : j - pos < len
    · simp [hlo, hhi, show pos ≤ j ∧ j < pos + len by omega]
    · rw [if_neg hlo, if_neg hhi, if_neg (by omega), Nat.testBit_div_two_pow, Nat.testBit_div_two_pow]
      congr 1
      omega

/-! ### Instructions on two registers, by a shift, and with an immediate (11 R218, R220, R223) -/

section
variable {i : Instr} {op : Nat} {o : Operands}

theorem deliversInt_of_arith {x : RFields} {f : Int → Int → Int} {v : Regs → Int} (hexec : ∀ s, exec i s = runRegs i s fun r => r.arith x f)
    (hp : i.parts = some (op, o)) (hg : operandGuard o = x.guard) (hv : ∀ r, f (src x.ty x.a r) (src x.ty x.b r) = v r) :
    deliversInt i x.guard op x.ty x.d x.mods.sat v :=
  deliversInt_of_putInt hexec hp hg fun r => by rw [Regs.arith, int_eq_src, int_eq_src, hv]

theorem writesG_of_onPats {x : RFields} {f : Nat → Nat → Nat} {F : BitVec x.ty.bits → BitVec x.ty.bits → BitVec x.ty.bits}
    (hexec : ∀ s, exec i s = runRegs i s fun r => r.onPats x f) (hp : i.parts = some (op, o)) (hg : operandGuard o = x.guard)
    (hF : ∀ p q, f p.toNat q.toNat = (F p q).toNat) :
    writesG i x.guard op x.d fun r => extended x.ty (F (pattern x.ty x.a r) (pattern x.ty x.b r)) :=
  writesG_of_putPat hexec hp hg (fun _ => rfl) fun r => by rw [pat_eq_pattern, pat_eq_pattern, hF, ofNat_toNat_same]

theorem writesG_of_shiftPat {x : RFields} {f : Nat → Nat → Nat} {F : BitVec x.ty.bits → Nat → BitVec x.ty.bits}
    (hexec : ∀ s, exec i s = runRegs i s fun r => r.shiftPat x f) (hp : i.parts = some (op, o)) (hg : operandGuard o = x.guard)
    (hF : ∀ p n, f p.toNat n = (F p n).toNat) :
    writesG i x.guard op x.d fun r => extended x.ty (F (pattern x.ty x.a r) (r.readG x.b).toNat) :=
  writesG_of_putPat hexec hp hg (fun _ => rfl) fun r => by rw [pat_eq_pattern, hF, ofNat_toNat_same]

theorem writesG_of_patImm {x : IFields} {f : Nat → Nat → Nat} {F : BitVec x.ty.bits → BitVec x.ty.bits → BitVec x.ty.bits}
    (hexec : ∀ s, exec i s = runRegs i s fun r => r.patImm x f) (hp : i.parts = some (op, o)) (hg : operandGuard o = x.guard)
    (hF : ∀ p q, f p.toNat q.toNat = (F p q).toNat) :
    writesG i x.guard op x.d fun r => extended x.ty (F (pattern x.ty x.a r) ((immDword x.ty x.imm).setWidth x.ty.bits)) :=
  writesG_of_putPat hexec hp hg (fun _ => rfl) fun r => by rw [pat_eq_pattern, intPat_immInt, hF, ofNat_toNat_same]

end

theorem putInt_shlInt (r : Regs) (t : Ty) (d : Reg) (sat : Bool) (v : Int) (n : Nat) :
    r.putInt t d sat (shlInt v n) = r.putInt t d sat (v * 2 ^ n) := by
  rw [Regs.putInt, Regs.putInt, intDeliver_eq, intDeliver_eq, intResult_shlInt]

theorem mulHigh_eq (t : Ty) (x y : Int) : mulHigh t x y = (x * y).fdiv (2 ^ t.bits) := by
  rw [Int.fdiv_eq_ediv_of_nonneg _ (by positivity), mulHigh]
  push_cast
  rfl

/-! ### The clauses of R218 to R224 -/

theorem clz_counts {x : RFields} {s : State} {k : Nat} {sl : Slot} {f : Firing} (h : Runs s k sl f x.guard) :
    exec (.clz x) s = wrote s k sl f 0x22 (f.r.writeG x.d (BitVec.ofNat 64 (clzPat x.ty.bits (pattern x.ty x.a f.r).toNat))) := by
  refine exec_runsRegs (show execClz x s = _ from rfl) h rfl rfl ?_
  rw [putPat_eq, pat_eq_pattern, extended_small (clzPat_spec _).1]

theorem popc_writesG (x : RFields) : writesG (.popc x) x.guard 0x23 x.d
    fun r => BitVec.ofNat 64 ((List.range x.ty.bits).countP fun j => (r.readG x.a).getLsbD j) := by
  refine writesG_of_writeG (i := .popc x) (fun s => show execPopc x s = _ from rfl) rfl rfl fun r => ?_
  have hcount : popcPat x.ty.bits (r.pat x.ty x.a) = (List.range x.ty.bits).countP fun j => (r.readG x.a).getLsbD j := by
    rw [popcPat_eq]
    refine List.countP_congr fun j hj => ?_
    rw [Regs.pat, Nat.testBit_mod_two_pow, decide_eq_true (List.mem_range.1 hj), Bool.true_and, BitVec.getLsbD]
  have hle : popcPat x.ty.bits (r.pat x.ty x.a) ≤ x.ty.bits := by
    rw [popcPat_eq]
    exact List.countP_le_length.trans_eq List.length_range
  rw [putPat_eq, extended_small hle, hcount]

section
variable {x : RFields} {s : State} {k : Nat} {sl : Slot} {f : Firing} (h : Runs s k sl f x.guard)
include h

theorem bext_reads (hf : 1 ≤ (f.r.readG x.c).toNat ∧ (f.r.readG x.b).toNat + (f.r.readG x.c).toNat ≤ x.ty.bits) :
    exec (.bext x) s = wrote s k sl f 0x24 (f.r.writeG x.d
      (if x.ty.signed then ((f.r.readG x.a >>> (f.r.readG x.b).toNat).setWidth (f.r.readG x.c).toNat).signExtend 64
        else ((f.r.readG x.a >>> (f.r.readG x.b).toNat).setWidth (f.r.readG x.c).toNat).setWidth 64)) := by
  refine exec_runsRegs (show execBext x s = _ from rfl) h rfl rfl ?_
  rw [bitField_within hf, ← extended_bextPat x.ty _ hf.1 hf.2, ← putPat_eq]
  rfl

theorem bins_writes (hf : 1 ≤ (f.r.readG x.c).toNat ∧ (f.r.readG x.b).toNat + (f.r.readG x.c).toNat ≤ x.ty.bits) :
    ∃ p : BitVec x.ty.bits, exec (.bins x) s = wrote s k sl f 0x25 (f.r.writeG x.d (extended x.ty p)) ∧
      ∀ j, j < x.ty.bits → p.getLsbD j =
        if (f.r.readG x.b).toNat ≤ j ∧ j < (f.r.readG x.b).toNat + (f.r.readG x.c).toNat
        then (f.r.readG x.a).getLsbD (j - (f.r.readG x.b).toNat) else (pattern x.ty x.d f.r).getLsbD j := by
  refine ⟨BitVec.ofNat _ (binsPat (f.r.pat x.ty x.d) (f.r.pat x.ty x.a) (f.r.readG x.b).toNat (f.r.readG x.c).toNat),
    exec_runsRegs (show execBins x s = _ from rfl) h rfl rfl ?_, fun j hj => ?_⟩
  · rw [bitField_within hf, ← putPat_eq]
    rfl
  · rw [BitVec.getLsbD_ofNat, decide_eq_true hj, Bool.true_and, testBit_binsPat, pat_eq_pattern f.r x.ty x.d, Regs.pat,
      Nat.testBit_mod_two_pow, decide_eq_true (show j - (f.r.readG x.b).toNat < x.ty.bits by omega), Bool.true_and]
    rfl

theorem bitField_traps_beyond (hf : ¬ (1 ≤ (f.r.readG x.c).toNat ∧ (f.r.readG x.b).toNat + (f.r.readG x.c).toNat ≤ x.ty.bits)) :
    exec (.bext x) s = traps s k { code := 0x09, info := f.r.readG x.b, aux := f.r.readG x.c } ∧
    exec (.bins x) s = traps s k { code := 0x09, info := f.r.readG x.b, aux := f.r.readG x.c } := by
  constructor
  · show execBext x s = _
    rw [execBext, runRegs_runs h rfl rfl, bitField_beyond hf]
    rfl
  · show execBins x s = _
    rw [execBins, runRegs_runs h rfl rfl, bitField_beyond hf]
    rfl

end

theorem sel_writesG (x : RFields) : writesG (.sel x) x.guard 0x21 x.d
    fun r => extended x.ty (if pattern x.ty x.c r = 0 then pattern x.ty x.b r else pattern x.ty x.a r) := by
  refine writesG_of_putPat (i := .sel x) (fun s => show execSel x s = _ from rfl) rfl rfl (fun r => rfl) fun r => ?_
  rw [pat_eq_pattern, pat_eq_pattern]
  simp only [ne_eq, int_eq_zero_iff, ite_not]
  split <;> exact ofNat_toNat_same _

/-- Settles O2, clause by clause: an exact integer is delivered, a pattern is written with its extension, a count is small, and the bits
of a field are those of its source. -/
theorem integerArithmetic : Obligations.IntegerArithmetic := by
  refine ⟨⟨
      fun x => deliversInt_of_arith (fun s => show execAdd x s = _ from rfl) rfl rfl fun _ => rfl,
      fun x => deliversInt_of_arith (fun s => show execSub x s = _ from rfl) rfl rfl fun _ => rfl,
      fun x => deliversInt_of_arith (fun s => show execMul x s = _ from rfl) rfl rfl fun _ => rfl,
      fun x => deliversInt_of_arith (fun s => show execMulh x s = _ from rfl) rfl rfl fun _ => mulHigh_eq ..,
      fun x => deliversInt_of_putInt (fun s => show execShl x s = _ from rfl) rfl rfl fun r => by rw [putInt_shlInt, int_eq_src],
      fun x => deliversInt_of_arith (fun s => show execMin x s = _ from rfl) rfl rfl fun _ => (min_def ..).symm,
      fun x => deliversInt_of_arith (fun s => show execMax x s = _ from rfl) rfl rfl fun _ => (max_def ..).symm,
      fun x => deliversInt_of_putInt (fun s => show execAdds x s = _ from rfl) rfl rfl fun r => by
        rw [Regs.arith, int_eq_src, int_eq_src, int_eq_src],
      fun x => deliversInt_of_putInt (fun s => show execAddi x s = _ from rfl) rfl rfl fun r => by rw [Regs.arithImm, int_eq_src, immInt],
      fun x => deliversInt_of_putInt (fun s => show execShli x s = _ from rfl) rfl rfl fun r => by rw [putInt_shlInt, int_eq_src]⟩,
    ⟨fun x => writesG_of_onPats (fun s => show execAnd x s = _ from rfl) rfl rfl fun p q => (BitVec.toNat_and p q).symm,
      fun x => writesG_of_onPats (fun s => show execOr x s = _ from rfl) rfl rfl fun p q => (BitVec.toNat_or p q).symm,
      fun x => writesG_of_onPats (fun s => show execXor x s = _ from rfl) rfl rfl fun p q => (BitVec.toNat_xor p q).symm,
      fun x => writesG_of_onPats (F := fun p q => p &&& ~~~q) (fun s => show execAndn x s = _ from rfl) rfl rfl andnPat_eq,
      fun x => writesG_of_shiftPat (fun s => show execShr x s = _ from rfl) rfl rfl fun p n => shrPat_eq p (bits_le _) n,
      fun x => writesG_of_shiftPat (fun s => show execSar x s = _ from rfl) rfl rfl fun p n => sarPat_eq p (bits_pos _) (bits_le _) n,
      fun x => writesG_of_shiftPat (F := fun p n => p.rotateLeft (n % x.ty.bits)) (fun s => show execRot x s = _ from rfl) rfl rfl
        fun p n => rotPat_eq p (bits_pos _) n,
      fun x => writesG_of_writeG (i := .cmp x)
        (fun s => show execCmp x s = _ from rfl) rfl rfl fun r => by rw [int_eq_src, int_eq_src, ofNat_relInt],
      sel_writesG,
      fun x => writesG_of_patImm (fun s => show execAndi x s = _ from rfl) rfl rfl fun p q => (BitVec.toNat_and p q).symm,
      fun x => writesG_of_patImm (fun s => show execOri x s = _ from rfl) rfl rfl fun p q => (BitVec.toNat_or p q).symm,
      fun x => writesG_of_patImm (fun s => show execXori x s = _ from rfl) rfl rfl fun p q => (BitVec.toNat_xor p q).symm,
      fun x => writesG_of_putPat (i := .shri x) (fun s => show execShri x s = _ from rfl) rfl rfl (fun _ => rfl) fun r => by
        rw [pat_eq_pattern, shrPat_eq _ (bits_le _), ofNat_toNat_same],
      fun x => writesG_of_putPat (i := .sari x) (fun s => show execSari x s = _ from rfl) rfl rfl (fun _ => rfl) fun r => by
        rw [pat_eq_pattern, sarPat_eq _ (bits_pos _) (bits_le _), ofNat_toNat_same],
      fun x => writesG_of_writeG (i := .cmpi x)
        (fun s => show execCmpi x s = _ from rfl) rfl rfl fun r => by rw [int_eq_src, ofNat_relInt, immInt],
      fun x => writesG_of_writeG (i := .lil x) (fun s => show execLil x s = _ from rfl) rfl rfl fun _ => rfl⟩,
    fun x s k sl f h => ⟨_, clz_counts h, clzPat_spec _⟩, popc_writesG, fun x s k sl f h =>
      ⟨fun hlen hle => ⟨bext_reads h ⟨hlen, hle⟩, bins_writes h ⟨hlen, hle⟩⟩, bitField_traps_beyond h⟩⟩

end Sys2Proof.Proofs

/-! SUPPORT. Vector arithmetic and functions: a result and flags for every enabled element (10 R209 to R212; 11 R215, R233 to R236). -/

namespace Sys2Proof.Proofs

open Sys2Proof.Machine Sys2Proof.Safety Sys2Proof.Laws

/-! ### Elements as operands (11 R215) -/

theorem elemBits_lt (r : Regs) (x : Reg) (w e : Nat) : elemBits r x w e < 2 ^ w := Nat.mod_lt _ (Nat.two_pow_pos w)

theorem elemAs_eq (t : Ty) (x : Reg) (r : Regs) (e : Nat) : elemAs t x r e = intVal t (elemBits r x t.bits e) := by
  rw [elemAs, valueOf_eq, BitVec.toNat_ofNat,
    Nat.mod_eq_of_lt ((elemBits_lt r x _ e).trans_le (Nat.pow_le_pow_right (by decide) (bits_le t)))]

theorem elemInt_eq (t : Ty) (x : Reg) (r : Regs) (e : Nat) : elemInt t (r.v.get (vnum r x)) e = elemAs t x r e := (elemAs_eq t x r e).symm

theorem velem_eq (x : Reg) (r : Regs) (w e : Nat) : velem (r.v.get (vnum r x)) w e = elemBits r x w e := rfl

/-! ### Elements written with their flags -/

theorem packed_congr {w n : Nat} {f g : Nat → Nat} (h : ∀ e, e < n → f e = g e) : packed w f n = packed w g n :=
  Finset.sum_congr rfl fun e he => by rw [h e (Finset.mem_range.1 he)]

theorem vbuild_congr {w : Nat} {f g : Nat → Nat} (h : ∀ e, e < 2048 / w → f e = g e) : vbuild w f = vbuild w g := by
  rw [vbuild_eq, vbuild_eq, packed_congr h]

theorem putElems_congr (r : Regs) (d : Fin 64) {w : Nat} {on on' : Nat → Bool} (f : Nat → Nat) (h : ∀ e, e < 2048 / w → on e = on' e) :
    r.putElems d w on f = r.putElems d w on' f :=
  congrArg (r.setV d) (vbuild_congr fun e he => by rw [h e he])

theorem elemResults_flagList (n : Nat) (on : Nat → Bool) (f : Nat → Nat × Nat) :
    (elemResults n on f).map (fun z => (z.1, z.2.2)) = flagList n on fun e => (f e).2 := by
  unfold elemResults
  rw [filterMap_ite, List.map_map]
  rfl

theorem putVec_eq (r : Regs) (d : Fin 64) (w : Nat) (on : Nat → Bool) (f : Nat → Nat × Nat) : r.putVec d w (2048 / w) on f =
    (r.raise (flagList (2048 / w) on fun e => (f e).2) >>= fun q => .ok (q.putElems d w on fun e => (f e).1)) := by
  have hput : ∀ q : Regs, q.putElems d w (fun e => decide (e < 2048 / w) && on e) (fun e => (f e).1) = q.putElems d w on fun e => (f e).1 :=
    fun q => putElems_congr q d _ fun e he => by rw [decide_eq_true he, Bool.true_and]
  rw [Regs.putVec, elemResults_flagList]
  simp only [hput]
  cases r.raise _ <;> rfl

theorem laneOn_eq_enabledBy (r : Regs) (pm : Fin 16) (w : Nat) : laneOn (r.pmask pm) w = enabledBy pm w r :=
  funext fun e => laneOn_pmask r pm w e

theorem each_eq (r : Regs) (t : Ty) (d : Fin 64) (pm : Fin 16) (f : Nat → Nat × Nat) : r.each t d pm f =
    (r.raise (flagList (2048 / t.bits) (enabledBy pm t.bits r) fun e => (f e).2) >>= fun q =>
      .ok (q.putElems d t.bits (enabledBy pm t.bits r) fun e => (f e).1)) := by
  rw [Regs.each, laneOn_eq_enabledBy]
  exact putVec_eq ..

/-- Registers after an instruction that rounds only where `c` says so (10 R206). -/
def countedIf (c : Bool) (m : Rnd) (r : Regs) : Regs := if c then r.counted m else r

theorem countedIf_of_raise {r q u : Regs} {l : List (Nat × Nat)} (h : r.raise l = .ok q) (hsys : u.sys = q.sys)
    (hcount : u.srCount = q.srCount) (c : Bool) (m : Rnd) :
    countedIf c m u = { u with srCount := if c && stochastic m r then r.srCount + 1 else r.srCount } := by
  cases c with
  | true => exact counted_of_raise h hsys hcount m
  | false =>
    obtain rfl := raise_ok h
    have hu : u.srCount = r.srCount := hcount
    rw [← hu]
    rfl

section
variable {i : Instr} {g : Guard} {op : Nat} {o : Operands} {body : Regs → Except Stop Regs} {d : Reg} {pre : Regs → Prop} {m : Rnd}
  {c : Bool} (hexec : ∀ s, exec i s = runRegs i s body) (hp : i.parts = some (op, o)) (hg : operandGuard o = g)
include hexec hp hg

/-- An instruction whose meaning raises the flags in `more` and those of the enabled elements, and then writes these. -/
theorem writesFlagged_of_putElems {w : Nat} {on : Regs → Nat → Bool} {more : Regs → List (Nat × Nat)} {res : Regs → Nat → Nat × Nat}
    (hbody : ∀ r, named d r → pre r → body r = (r.raise (more r ++ flagList (2048 / w) (on r) fun e => (res r e).2) >>= fun q =>
      .ok (countedIf c m (q.putElems (vnum r d) w (on r) fun e => (res r e).1)))) :
    writesFlagged i g op d pre w on more (fun r => c && stochastic m r) res := by
  intro s k sl f h hd hpre
  refine raises_of_bind hexec hp hg h (hbody f.r hd hpre) fun q hq hrun => ?_
  rw [countedIf_of_raise (u := q.putElems (vnum f.r d) w (on f.r) fun e => (res f.r e).1) hq rfl rfl] at hrun
  obtain rfl := raise_ok hq
  exact ⟨_, hrun, rfl, fun n hn => (get_setV _ _ _ _).trans (if_neg hn), fun e he => velem_putElems _ _ _ _ he⟩

/-- An instruction whose meaning gives every enabled element of its type a result. -/
theorem writesFlagged_of_each {t : Ty} {pm : Fin 16} {res : Regs → Nat → Nat × Nat}
    (hbody : ∀ r, named d r → pre r → body r = (r.each t (vnum r d) pm (res r) >>= fun q => .ok (countedIf c m q))) :
    writesFlagged i g op d pre t.bits (enabledBy pm t.bits) (fun _ => []) (fun r => c && stochastic m r) res := by
  refine writesFlagged_of_putElems hexec hp hg fun r hd hpre => ?_
  rw [hbody r hd hpre, each_eq, List.nil_append, bind_assoc]
  rfl

end

/-! ### Arithmetic on elements (11 R233, R235) -/

theorem arithElem_eq (t : Ty) (m : Mods) (fi : Regs → Nat → Int) (ff : Regs → Nat → Exact) (r : Regs) (e : Nat) :
    arithElem t m fi ff r e = if t.isInt then intDeliver t m.sat (fi r e) else r.rounded t m e (ff r e) := by
  rw [arithElem, intDeliver_eq]
  rfl

section
variable {i : Instr} {op : Nat} {o : Operands} {body : Regs → Except Stop Regs} {x : RFields} {pre : Regs → Prop}
  (hexec : ∀ s, exec i s = runRegs i s body) (hp : i.parts = some (op, o)) (hg : operandGuard o = x.guard)
include hexec hp hg

theorem vectorOp_of_each {fi : Regs → Nat → Int} {ff : Regs → Nat → Exact} (hbody : ∀ r, named x.d r → pre r → body r =
      (r.each x.ty (vnum r x.d) x.pm (arithElem x.ty x.mods fi ff r) >>= fun q => .ok (q.countedFor x.ty x.mods.rnd))) :
    vectorOp i x op pre fi ff := writesFlagged_of_each hexec hp hg hbody

theorem vectorFun_of_each {ff : Regs → Nat → Exact} (hbody : ∀ r, named x.d r → pre r → body r =
      (r.each x.ty (vnum r x.d) x.pm (fun e => floatResult x.ty x.mods r e (ff r e)) >>= fun q => .ok (q.counted x.mods.rnd))) :
    vectorFun i x op pre ff := writesFlagged_of_each (c := true) hexec hp hg hbody

theorem plainOp_of_each {res : Regs → Nat → Nat × Nat}
    (hbody : ∀ r, named x.d r → pre r → body r = r.each x.ty (vnum r x.d) x.pm (res r)) : plainOp i x op pre res :=
  writesFlagged_of_each (c := false) (m := .dyn) hexec hp hg fun r hd hpre => (hbody r hd hpre).trans (bind_pure _).symm

end

section
variable {i : Instr} {op : Nat} {o : Operands} {x : RFields} (hp : i.parts = some (op, o)) (hg : operandGuard o = x.guard)
include hp hg

theorem vectorOp_of_vecArith {fi : Int → Int → Int} {ff : FVal → FVal → Rnd → Exact}
    (hexec : ∀ s, exec i s = runRegs i s fun r => r.vecArith x fi ff) :
    vectorOp i x op (two x.a x.b) (fun r e => fi (elemAs x.ty x.a r e) (elemAs x.ty x.b r e)) fun r e =>
      ff (elemFl x.ty x.mods.na x.a r e) (elemFl x.ty x.mods.nb x.b r e) (r.mode x.mods.rnd) := by
  refine vectorOp_of_each hexec hp hg fun r hd ⟨ha, hb⟩ => ?_
  rw [Regs.vecArith, vecNum_of_named hd, vec_of_named ha, vec_of_named hb, funext (arithElem_eq _ _ _ _ r)]
  simp only [← elemInt_eq]
  rfl

theorem vectorOp_of_vecScalar {fi : Int → Int → Int} {ff : FVal → FVal → Rnd → Exact}
    (hexec : ∀ s, exec i s = runRegs i s fun r => r.vecScalar x fi ff) :
    vectorOp i x op (named x.a) (fun r e => fi (elemAs x.ty x.a r e) (src x.ty x.b r)) fun r e =>
      ff (elemFl x.ty x.mods.na x.a r e) (r.fval x.ty x.b x.mods.nb) (r.mode x.mods.rnd) := by
  refine vectorOp_of_each hexec hp hg fun r hd ha => ?_
  rw [Regs.vecScalar, vecNum_of_named hd, vec_of_named ha, funext (arithElem_eq _ _ _ _ r)]
  simp only [← elemInt_eq, ← int_eq_src]
  rfl

theorem vectorFun_of_vecFun {ff : FVal → Exact} (hexec : ∀ s, exec i s = runRegs i s fun r => r.vecFun x ff) :
    vectorFun i x op (named x.a) fun r e => ff (elemFl x.ty x.mods.na x.a r e) := by
  refine vectorFun_of_each hexec hp hg fun r hd ha => ?_
  rw [Regs.vecFun, vecNum_of_named hd, vec_of_named ha]
  rfl

theorem plainOp_of_vecPat1 {f : Nat → Nat × Nat} {res : Regs → Nat → Nat × Nat} (hexec : ∀ s, exec i s = runRegs i s fun r => r.vecPat1 x f)
    (hres : ∀ r e, f (elemBits r x.a x.ty.bits e) = res r e) : plainOp i x op (named x.a) res := by
  refine plainOp_of_each hexec hp hg fun r hd ha => ?_
  rw [Regs.vecPat1, vecNum_of_named hd, vec_of_named ha, ← funext (hres r)]
  rfl

theorem plainOp_of_vecPat2 {f : Nat → Nat → Nat × Nat} {res : Regs → Nat → Nat × Nat}
    (hexec : ∀ s, exec i s = runRegs i s fun r => r.vecPat2 x f)
    (hres : ∀ r e, f (elemPat x.ty x.mods.na (r.v.get (vnum r x.a)) e) (elemPat x.ty x.mods.nb (r.v.get (vnum r x.b)) e) = res r e) :
    plainOp i x op (two x.a x.b) res := by
  refine plainOp_of_each hexec hp hg fun r hd ⟨ha, hb⟩ => ?_
  rw [Regs.vecPat2, vecNum_of_named hd, vec_of_named ha, vec_of_named hb, ← funext (hres r)]
  rfl

end

/-- A fused product and sum of elements. -/
theorem vfma_vectorOp (x : RFields) : vectorOp (.vfma x) x 0x43 (three x.a x.b x.c)
    (fun r e => elemAs x.ty x.a r e * elemAs x.ty x.b r e + elemAs x.ty x.c r e) fun r e =>
      exactFma (elemFl x.ty x.mods.na x.a r e) (elemFl x.ty x.mods.nb x.b r e) (elemFl x.ty x.mods.nc x.c r e) (r.mode x.mods.rnd) := by
  refine vectorOp_of_each (i := .vfma x) (fun s => show execVfma x s = _ from rfl) rfl rfl fun r hd ⟨ha, hb, hc⟩ => ?_
  rw [vecNum_of_named hd, vec_of_named ha, vec_of_named hb, vec_of_named hc, funext (arithElem_eq _ _ _ _ r)]
  simp only [← elemInt_eq]
  rfl

/-- An immediate is converted once, and its flags come before those of the elements. -/
theorem immediateOp_of_vecImm {i : Instr} {op : Nat} {o : Operands} {x : IFields} {fi : Int → Int → Int} {ff : FVal → FVal → Rnd → Exact}
    (hexec : ∀ s, exec i s = runRegs i s fun r => r.vecImm x fi ff) (hp : i.parts = some (op, o)) (hg : operandGuard o = x.guard) :
    immediateOp i x op (fun r e => fi (elemAs x.ty x.a r e) (if x.ty.signed then x.imm.toInt else x.imm.toNat)) fun r e =>
      ff (elemFl x.ty x.mods.na x.a r e) ((tyFmt x.ty).value (r.immFloat x.ty x.mods x.imm).1) (r.mode x.mods.rnd) := by
  refine writesFlagged_of_putElems hexec hp hg fun r hd ⟨hty, ha⟩ => ?_
  rw [Regs.vecImm, if_neg hty, vecNum_of_named hd, vec_of_named ha, funext (arithElem_eq _ _ _ _ r)]
  simp only [← elemInt_eq]
  cases hint : x.ty.isInt with
  | true =>
    refine (each_eq ..).trans ?_
    rfl
  | false =>
    show (r.raise (_ :: (elemResults _ _ _).map fun z => (z.1, z.2.2)) >>= _) = _
    rw [elemResults_flagList, laneOn_eq_enabledBy]
    rfl

/-! ### VDOT (11 R236) -/

theorem foldl_add_eq_sum {α : Type} (g : α → Int) (l : List α) (c : Int) : l.foldl (fun s a => s + g a) c = (l.map g).sum + c := by
  induction l generalizing c with
  | nil => simp
  | cons a l ih =>
    rw [List.foldl_cons, ih, List.map_cons, List.sum_cons]
    ring

theorem dotLane_integer {t : Ty} (h : t.isInt = true) : Machine.dotLane t = if t.signed then .i32 else .n32 := by
  rw [Machine.dotLane, Ty.isFloat, h]
  rfl

/-- The lane of vC as the first addend. -/
theorem addend_eq (v : FVal) : addend v = match v with
    | .nan sig => { v := .nan false, fl := if sig then flNV ||| flSN else 0 }
    | v => { v := v, fl := 0 } := by
  cases v <;> rfl

theorem dotLane_eq (x : RFields) (r : Regs) (e : Nat) :
    r.dotLane x (r.v.get (vnum r x.a)) (r.v.get (vnum r x.b)) (r.v.get (vnum r x.c)) e = dotResult x r e := by
  unfold Regs.dotLane dotResult
  cases hint : x.ty.isInt with
  | true => simp only [if_true, dotLane_integer hint, foldl_add_eq_sum, intDeliver_eq, elemInt_eq]
  | false =>
    rw [if_neg Bool.false_ne_true, if_neg Bool.false_ne_true, addend_eq]
    rfl

theorem vdot_writesFlagged (x : RFields) : writesFlagged (.vdot x) x.guard 0x5C x.d (three x.a x.b x.c) 32 (enabledBy x.pm 32) (fun _ => [])
    (fun r => x.ty.isFloat && stochastic x.mods.rnd r) (dotResult x) := by
  refine writesFlagged_of_putElems (i := .vdot x) (fun s => show execVdot x s = _ from rfl) rfl rfl fun r hd ⟨ha, hb, hc⟩ => ?_
  rw [vecNum_of_named hd, vec_of_named ha, vec_of_named hb, vec_of_named hc, ← funext (dotLane_eq x r)]
  show (r.putVec (vnum r x.d) 32 (2048 / 32) (laneOn (r.pmask x.pm) 32) _ >>= fun q => .ok (q.countedFor x.ty x.mods.rnd)) = _
  rw [laneOn_eq_enabledBy, putVec_eq, bind_assoc]
  rfl

/-! ### Functions of the patterns of elements (11 R233, R234) -/

theorem elemPat_integer {t : Ty} (h : t.isInt = true) (neg : Bool) (v : VReg) (e : Nat) : elemPat t neg v e = velem v t.bits e := by
  rw [elemPat, Ty.isFloat, h]
  rfl

theorem elemPat_float {t : Ty} (h : t.isFloat = true) (neg : Bool) (v : VReg) (e : Nat) :
    elemPat t neg v e = (tyFmt t).negate neg (velem v t.bits e) := if_pos h

theorem elemPat_plain (t : Ty) (v : VReg) (e : Nat) : elemPat t false v e = velem v t.bits e := ite_self _

theorem intPat_eq (t : Ty) (v : Int) : intPat t v = intPattern t false v := emod_toNat_eq v

/-- The pattern of the integer that a pattern stands for. -/
theorem intPattern_intVal {t : Ty} {n : Nat} (h : n < 2 ^ t.bits) : intPattern t false (intVal t n) = n := by
  show (BitVec.ofInt t.bits (intVal t n)).toNat = n
  have hn : (BitVec.ofNat t.bits n).toNat = n := by rw [BitVec.toNat_ofNat, Nat.mod_eq_of_lt h]
  rw [← hn, intVal_toNat]
  congr 1
  split
  · exact BitVec.ofInt_toInt
  · rw [BitVec.ofInt_natCast, ofNat_toNat_same]

theorem minMaxPat_integer {t : Ty} (h : t.isInt = true) (a b : Reg) (r : Regs) (e : Nat) :
    minMaxPat t false (elemBits r a t.bits e) (elemBits r b t.bits e) = (intPattern t false (min (elemAs t a r e) (elemAs t b r e)), 0) ∧
    minMaxPat t true (elemBits r a t.bits e) (elemBits r b t.bits e) = (intPattern t false (max (elemAs t a r e) (elemAs t b r e)), 0) := by
  rw [minMaxPat, minMaxPat, if_pos h, if_pos h, elemAs_eq, elemAs_eq]
  rcases le_total (intVal t (elemBits r a t.bits e)) (intVal t (elemBits r b t.bits e)) with hle | hle
  · rw [min_eq_left hle, max_eq_right hle, intPattern_intVal (elemBits_lt ..), intPattern_intVal (elemBits_lt ..)]
    simp [hle]
  · rw [min_eq_right hle, max_eq_left hle, intPattern_intVal (elemBits_lt ..), intPattern_intVal (elemBits_lt ..)]
    rcases hle.lt_or_eq with hlt | heq
    · simp [hlt]
    · have hsame : elemBits r b t.bits e = elemBits r a t.bits e := by
        rw [← intPattern_intVal (elemBits_lt r a t.bits e), ← heq, intPattern_intVal (elemBits_lt ..)]
      simp [hsame]

theorem minMaxPat_float {t : Ty} (h : t.isFloat = true) (wantMax : Bool) (a b : Nat) :
    minMaxPat t wantMax a b = (tyFmt t).minMax wantMax a b := if_neg fun hi => by
  rw [Ty.isFloat, hi] at h
  exact Bool.false_ne_true h

/-- The types whose formats fill the bits of their elements: the sign is the highest. -/
theorem signBit_eq {t : Ty} (h : t = .f16 ∨ t = .bf16 ∨ t = .f32 ∨ t = .f64) :
    t.isInt = false ∧ (tyFmt t).signBit = 2 ^ (t.bits - 1) ∧ 2 * (tyFmt t).signBit = 2 ^ t.bits := by
  rcases h with rfl | rfl | rfl | rfl <;> decide

theorem absPat_float {t : Ty} (h : t = .f16 ∨ t = .bf16 ∨ t = .f32 ∨ t = .f64) (sat : Bool) (a : Nat) :
    absPat t sat a = (a % 2 ^ (t.bits - 1), 0) := by
  obtain ⟨hint, hsign, -⟩ := signBit_eq h
  rw [absPat, hint, FloatFmt.withSign, hsign]
  simp [bit]

/-- The highest bit of a number flipped. -/
theorem xor_two_pow {n a : Nat} (h : a < 2 * 2 ^ n) : a ^^^ 2 ^ n = a % 2 ^ n + bit (!decide (2 ^ n ≤ a)) * 2 ^ n := by
  have hlow : a % 2 ^ n < 2 ^ n := Nat.mod_lt _ (Nat.two_pow_pos n)
  have hhigh : a = 2 ^ n * bit (decide (2 ^ n ≤ a)) + a % 2 ^ n := by
    by_cases hle : 2 ^ n ≤ a
    · rw [decide_eq_true hle, Nat.mod_eq_sub_mod hle, Nat.mod_eq_of_lt (by omega), bit, if_pos rfl]
      omega
    · rw [decide_eq_false hle, Nat.mod_eq_of_lt (Nat.lt_of_not_le hle)]
      simp [bit]
  generalize decide (2 ^ n ≤ a) = b at hhigh
  generalize a % 2 ^ n = low at hlow hhigh
  subst hhigh
  rw [Nat.add_comm low, Nat.mul_comm (bit !b)]
  refine Nat.eq_of_testBit_eq fun j => ?_
  rw [Nat.testBit_xor, Nat.testBit_two_pow_mul_add _ hlow, Nat.testBit_two_pow_mul_add _ hlow, Nat.testBit_two_pow]
  rcases Nat.lt_trichotomy j n with hj | rfl | hj
  · simp [hj, hj.ne']
  · cases b <;> simp [bit]
  · obtain ⟨i, rfl⟩ := Nat.exists_eq_add_of_lt hj
    cases b <;> simp [bit, Nat.add_assoc, Nat.testBit_succ]

theorem negPat_float {t : Ty} (h : t = .f16 ∨ t = .bf16 ∨ t = .f32 ∨ t = .f64) (sat : Bool) {a : Nat} (ha : a < 2 ^ t.bits) :
    negPat t sat a = (a ^^^ 2 ^ (t.bits - 1), 0) := by
  obtain ⟨hint, hsign, hdouble⟩ := signBit_eq h
  rw [negPat, hint, FloatFmt.withSign, FloatFmt.signOf, hdouble, Nat.mod_eq_of_lt ha, hsign,
    xor_two_pow (by rwa [← hsign, hdouble])]
  rfl

theorem classMask_eq (F : FloatFmt) (x : Nat) : F.classMask x = 2 ^ classBit F x := by
  have hsub : x % F.signBit < 2 ^ F.frac ↔ x / 2 ^ F.frac % 2 ^ F.ebits = 0 := by
    rw [FloatFmt.signBit, pow_add, ← Nat.mod_mul_right_div_self, Nat.div_eq_zero_iff]
    simp
  unfold FloatFmt.classMask classBit
  cases F.value x with
  | nan sig => cases sig <;> rfl
  | inf neg => cases neg <;> rfl
  | num neg n d =>
    simp only [hsub]
    split_ifs <;> rfl

theorem vscl_vectorFun (x : RFields) : vectorFun (.vscl x) x 0x57 (two x.a x.b) fun r e =>
    exactScale (elemFl x.ty x.mods.na x.a r e) (BitVec.ofNat x.ty.bits (elemBits r x.b x.ty.bits e)).toInt := by
  have hsigned : ∀ r e, (BitVec.ofNat x.ty.bits (elemBits r x.b x.ty.bits e)).toInt = signedPat x.ty.bits (elemBits r x.b x.ty.bits e) :=
    fun r e => by rw [← signedPat_eq _ (bits_pos x.ty), BitVec.toNat_ofNat, Nat.mod_eq_of_lt (elemBits_lt ..)]
  simp only [hsigned]
  refine vectorFun_of_each (i := .vscl x) (fun s => show execVscl x s = _ from rfl) rfl rfl fun r hd ⟨ha, hb⟩ => ?_
  rw [vecNum_of_named hd, vec_of_named ha, vec_of_named hb]
  rfl

theorem vdiv_vectorOp (x : RFields) : vectorOp (.vdiv x) x 0x44 (two x.a x.b)
    (fun r e => quotient x.ty (elemAs x.ty x.a r e) (elemAs x.ty x.b r e))
    fun r e => exactDiv (elemFl x.ty x.mods.na x.a r e) (elemFl x.ty x.mods.nb x.b r e) := by
  simp only [← divInt_eq]
  exact vectorOp_of_vecArith (i := .vdiv x) (fi := divInt x.ty) (ff := fun a b _ => exactDiv a b)
    rfl rfl fun s => show execVdiv x s = _ from rfl

/-- Settles O6, clause by clause: each meaning gives every enabled element the result and the flags that its clause says. -/
theorem vectorElementArithmetic : Obligations.VectorElementArithmetic := by
  refine ⟨⟨
      fun x => vectorOp_of_vecArith (i := .vadd x) (fi := fun a b => a + b) (ff := exactAdd)
        rfl rfl fun s => show execVadd x s = _ from rfl,
      fun x => vectorOp_of_vecArith (i := .vsub x) (fi := fun a b => a - b) (ff := fun a b m => exactAdd a b.neg m)
        rfl rfl fun s => show execVsub x s = _ from rfl,
      fun x => vectorOp_of_vecArith (i := .vmul x) (fi := fun a b => a * b) (ff := fun a b _ => exactMul a b)
        rfl rfl fun s => show execVmul x s = _ from rfl,
      vfma_vectorOp,
      vdiv_vectorOp,
      fun x => vectorOp_of_vecScalar (i := .vadds x) (fi := fun a b => a + b) (ff := exactAdd)
        rfl rfl fun s => show execVadds x s = _ from rfl,
      fun x => vectorOp_of_vecScalar (i := .vsubs x) (fi := fun a b => a - b) (ff := fun a b m => exactAdd a b.neg m)
        rfl rfl fun s => show execVsubs x s = _ from rfl,
      fun x => immediateOp_of_vecImm (fi := fun a b => a + b) (ff := exactAdd) (fun s => show execVaddi x s = _ from rfl) rfl rfl,
      fun x => immediateOp_of_vecImm (fi := fun a b => a * b) (ff := fun a b _ => exactMul a b)
        (fun s => show execVmuli x s = _ from rfl) rfl rfl,
      vdot_writesFlagged⟩,
      fun x => vectorFun_of_vecFun (i := .vsqrt x) (ff := exactSqrt) rfl rfl fun s => show execVsqrt x s = _ from rfl,
      fun x => vectorFun_of_vecFun (i := .vrcp x) (ff := exactRcp) rfl rfl fun s => show execVrcp x s = _ from rfl,
      fun x => vectorFun_of_vecFun (i := .vrsq x) (ff := exactRsqrt) rfl rfl fun s => show execVrsq x s = _ from rfl,
      fun x => vectorFun_of_vecFun (i := .vexp2 x) (ff := exactExp2) rfl rfl fun s => show execVexp2 x s = _ from rfl,
      fun x => vectorFun_of_vecFun (i := .vlog2 x) (ff := exactLog2) rfl rfl fun s => show execVlog2 x s = _ from rfl,
      vscl_vectorFun,
      fun x hi => plainOp_of_vecPat2 (i := .vmin x) rfl rfl (fun s => show execVmin x s = _ from rfl) fun r e => ?_,
      fun x hi => plainOp_of_vecPat2 (i := .vmax x) rfl rfl (fun s => show execVmax x s = _ from rfl) fun r e => ?_,
      fun x hf => plainOp_of_vecPat2 (i := .vmin x) rfl rfl (fun s => show execVmin x s = _ from rfl) fun r e => ?_,
      fun x hf => plainOp_of_vecPat2 (i := .vmax x) rfl rfl (fun s => show execVmax x s = _ from rfl) fun r e => ?_,
      fun x hi => plainOp_of_vecPat1 (i := .vabs x) rfl rfl (fun s => show execVabs x s = _ from rfl) fun r e => ?_,
      fun x hi => plainOp_of_vecPat1 (i := .vneg x) rfl rfl (fun s => show execVneg x s = _ from rfl) fun r e => ?_,
      fun x ht => plainOp_of_vecPat1 (i := .vabs x) rfl rfl (fun s => show execVabs x s = _ from rfl) fun r e => ?_,
      fun x ht => plainOp_of_vecPat1 (i := .vneg x) rfl rfl (fun s => show execVneg x s = _ from rfl) fun r e => ?_,
      fun x hna hnb => plainOp_of_vecPat2 (i := .vand x) rfl rfl (fun s => show execVand x s = _ from rfl) fun r e => ?_,
      fun x hna hnb => plainOp_of_vecPat2 (i := .vor x) rfl rfl (fun s => show execVor x s = _ from rfl) fun r e => ?_,
      fun x hna hnb => plainOp_of_vecPat2 (i := .vxor x) rfl rfl (fun s => show execVxor x s = _ from rfl) fun r e => ?_,
      fun x hi => plainOp_of_vecPat2 (i := .vshl x) rfl rfl (fun s => show execVshl x s = _ from rfl) fun r e => ?_,
      fun x hi => plainOp_of_vecPat2 (i := .vshr x) rfl rfl (fun s => show execVshr x s = _ from rfl) fun r e => ?_,
      fun x hi => plainOp_of_vecPat2 (i := .vsar x) rfl rfl (fun s => show execVsar x s = _ from rfl) fun r e => ?_,
      fun x hi => plainOp_of_vecPat2 (i := .vmulh x) rfl rfl (fun s => show execVmulh x s = _ from rfl) fun r e => ?_,
      fun x ht => plainOp_of_vecPat1 (i := .vclass x) rfl rfl (fun s => show execVclass x s = _ from rfl) fun r e => ?_⟩
  · rw [elemPat_integer hi, elemPat_integer hi]
    exact (minMaxPat_integer hi ..).1
  · rw [elemPat_integer hi, elemPat_integer hi]
    exact (minMaxPat_integer hi ..).2
  · rw [minMaxPat_float hf, elemPat_float hf, elemPat_float hf]
    rfl
  · rw [minMaxPat_float hf, elemPat_float hf, elemPat_float hf]
    rfl
  · rw [absPat, if_pos hi, intDeliver_eq, elemAs_eq]
  · rw [negPat, if_pos hi, intDeliver_eq, elemAs_eq]
  · exact absPat_float ht ..
  · exact negPat_float ht _ (elemBits_lt ..)
  · rw [hna, hnb, elemPat_plain, elemPat_plain]
    rfl
  · rw [hna, hnb, elemPat_plain, elemPat_plain]
    rfl
  · rw [hna, hnb, elemPat_plain, elemPat_plain]
    rfl
  · rw [elemPat_integer hi, elemPat_integer hi, intDeliver_eq, intResult_shlInt, velem_eq, ← elemAs_eq]
    rfl
  · rw [elemPat_integer hi, elemPat_integer hi, shrPat, Nat.shiftRight_eq_div_pow]
    rw [velem_eq, div_pow_min ((elemBits_lt ..).trans_le (Nat.pow_le_pow_right (by decide) (bits_le _)))]
    rfl
  · rw [elemPat_integer hi, elemPat_integer hi, ← sarPat_eq _ (bits_pos _) (bits_le _), BitVec.toNat_ofNat,
      Nat.mod_eq_of_lt (elemBits_lt ..)]
    rfl
  · rw [elemPat_integer hi, elemPat_integer hi, mulHigh_eq, intPat_eq, elemAs_eq, elemAs_eq]
    rfl
  · rw [classMask_eq]

end Sys2Proof.Proofs

/-! SUPPORT. Comparisons and truth tables of vectors, counts and reductions (11 R216, R242 to R245). -/

namespace Sys2Proof.Proofs

open Sys2Proof.Machine Sys2Proof.Safety Sys2Proof.Laws

/-! ### Bits of a predicate (11 R242, R243) -/

theorem packedBits_eq (b : Nat → Bool) (n : Nat) :
    (List.range n).foldl (fun a i => a + bit (b i) * 2 ^ i) 0 = packed 1 (fun i => bit (b i)) n := by
  induction n with
  | zero => rfl
  | succ n ih =>
    rw [List.range_succ, List.foldl_append, ih, packed_succ, List.foldl_cons, List.foldl_nil, Nat.mul_one]
    cases b n <;> rfl

theorem getLsbD_mergeBits (old : Dword) (on val : Nat → Bool) {j : Nat} (h : j < 64) :
    (mergeBits old on val).getLsbD j = if on j then val j else old.getLsbD j := by
  rw [mergeBits, packedBits_eq, BitVec.getLsbD, toNat_ofNat_packed 1 _ (by decide), Nat.testBit_eq_decide_div_mod_eq]
  have helem := packed_elem 1 (fun i => bit (if on i then val i else old.getLsbD i)) h
  rw [Nat.mul_one, pow_one] at helem
  rw [helem]
  cases if on j then val j else old.getLsbD j <;> rfl

/-- The bits of a predicate that govern the elements of a width (R242): two bits an element, or the elements of a lane. -/
theorem elemsOfBit_wide (j : Nat) : elemsOfBit 64 j = [j / 2] := rfl

theorem elemsOfBit_narrow {w : Nat} (h : w ≠ 64) (j : Nat) : elemsOfBit w j = (List.range (32 / w)).map fun e => j * (32 / w) + e :=
  if_neg h

/-- The elements of a lane are enabled by its bit. -/
theorem enabledBy_lane {w : Nat} (hw : w = 8 ∨ w = 16 ∨ w = 32) (pm : Fin 16) (r : Regs) {j e : Nat} (he : e < 32 / w) :
    enabledBy pm w r (j * (32 / w) + e) = (r.pr pm).getLsbD j := by
  have hlane : (j * (32 / w) + e) * w / 32 = j := by
    rcases hw with rfl | rfl | rfl <;> omega
  rw [enabledBy, hlane]

theorem any_elemsOfBit_narrow {w : Nat} (hw : w = 8 ∨ w = 16 ∨ w = 32) (pm : Fin 16) (r : Regs) (j : Nat) :
    (elemsOfBit w j).any (enabledBy pm w r) = (r.pr pm).getLsbD j := by
  have hpos : 0 < 32 / w := by rcases hw with rfl | rfl | rfl <;> decide
  rw [elemsOfBit_narrow (by omega), List.any_map, Bool.eq_iff_iff, List.any_eq_true]
  constructor
  · rintro ⟨e, he, hon⟩
    rwa [Function.comp, enabledBy_lane hw pm r (List.mem_range.1 he)] at hon
  · intro hon
    exact ⟨0, List.mem_range.2 hpos, by rwa [Function.comp, enabledBy_lane hw pm r hpos]⟩

theorem width_cases {t : Ty} (h : t ≠ .e2m1) (hw : t.bits ≠ 64) : t.bits = 8 ∨ t.bits = 16 ∨ t.bits = 32 := by
  revert h hw
  cases t <;> decide

/-- A bit of the predicate that a comparison writes. -/
theorem getLsbD_compared {t : Ty} (hty : t ≠ .e2m1) (pm : Fin 16) (r : Regs) (old : Dword) (holds : Nat → Bool) {j : Nat} (hj : j < 64) :
    (mergeBits old (fun j => (elemsOfBit t.bits j).any (enabledBy pm t.bits r)) fun j => (elemsOfBit t.bits j).all holds).getLsbD j =
      if t.bits = 64 then (if enabledBy pm t.bits r (j / 2) then holds (j / 2) else old.getLsbD j)
      else if (r.pr pm).getLsbD j then (List.range (32 / t.bits)).all fun e => holds (j * (32 / t.bits) + e)
      else old.getLsbD j := by
  rw [getLsbD_mergeBits _ _ _ hj]
  by_cases hw : t.bits = 64
  · rw [if_pos hw, hw, elemsOfBit_wide, List.any_cons, List.any_nil, Bool.or_false, List.all_cons, List.all_nil, Bool.and_true]
  · rw [if_neg hw, any_elemsOfBit_narrow (width_cases hty hw), elemsOfBit_narrow hw, List.all_map]
    rfl

/-! ### VCMP (11 R242) -/

/-- The relation of two elements and its flags. -/
theorem cmpElem_eq (x : RFields) (r : Regs) (e : Nat) : cmpElem x (r.v.get (vnum r x.a)) (r.v.get (vnum r x.b)) e =
    if x.ty.isInt then (relInt (elemAs x.ty x.a r e) (elemAs x.ty x.b r e), 0)
    else relFloat (elemFl x.ty x.mods.na x.a r e) (elemFl x.ty x.mods.nb x.b r e) x.mods.w := by
  rw [cmpElem, elemInt_eq, elemInt_eq]
  rfl

theorem compareVec_eq {r : Regs} {x : RFields} (ha : named x.a r) (hb : named x.b r) (hc : (r.readG x.c).toNat < 16) :
    let rel := cmpElem x (r.v.get (vnum r x.a)) (r.v.get (vnum r x.b))
    r.compareVec x = (r.raise (flagList (2048 / x.ty.bits) (enabledBy x.pm x.ty.bits r) fun e => (rel e).2) >>= fun q =>
      .ok (q.writeP x.d (mergeBits (q.readP x.d) (fun j => (elemsOfBit x.ty.bits j).any (enabledBy x.pm x.ty.bits r))
        fun j => (elemsOfBit x.ty.bits j).all fun e => (rel e).1 &&& (r.readG x.c).toNat != 0))) := by
  rw [Regs.compareVec, code_within (Nat.le_of_lt_succ hc), vec_of_named ha, vec_of_named hb]
  dsimp only [bind, Except.bind]
  rw [laneOn_eq_enabledBy, elemResults_flagList]
  rfl

section
variable {x : RFields} {s : State} {k : Nat} {sl : Slot} {f : Firing} (h : Runs s k sl f x.guard)
include h

theorem vcmp_compares (hty : x.ty ≠ .e2m1) (ha : named x.a f.r) (hb : named x.b f.r) (hc : (f.r.readG x.c).toNat < 16) :
    let w := x.ty.bits
    let rel := fun e => if x.ty.isInt then (relInt (elemAs x.ty x.a f.r e) (elemAs x.ty x.b f.r e), 0) else
      relFloat (elemFl x.ty x.mods.na x.a f.r e) (elemFl x.ty x.mods.nb x.b f.r e) x.mods.w
    raises (.vcmp x) s k f.r (flagList (2048 / w) (enabledBy x.pm w f.r) fun e => (rel e).2) fun q =>
      ∃ p, exec (.vcmp x) s = wrote s k sl f 0x52 (q.writeP x.d p) ∧
      ∀ j, j < 64 →
        let holds := fun e => (rel e).1 &&& (f.r.readG x.c).toNat != 0
        p.getLsbD j =
          if w = 64 then (if enabledBy x.pm w f.r (j / 2) then holds (j / 2) else (f.r.readP x.d).getLsbD j)
          else if (f.r.pr x.pm).getLsbD j then (List.range (32 / w)).all fun e => holds (j * (32 / w) + e)
          else (f.r.readP x.d).getLsbD j := by
  intro w rel
  have hrel : cmpElem x (f.r.v.get (vnum f.r x.a)) (f.r.v.get (vnum f.r x.b)) = rel := funext (cmpElem_eq x f.r)
  have hbody := compareVec_eq ha hb hc
  rw [hrel] at hbody
  refine raises_of_bind (i := .vcmp x) (fun s => show execVcmp x s = _ from rfl) rfl rfl h hbody fun q hq hrun =>
    ⟨_, hrun, fun j hj => ?_⟩
  obtain rfl := raise_ok hq
  exact getLsbD_compared hty x.pm f.r _ _ hj

/-! ### PLOG, VPCNT and VRED (11 R243 to R245) -/

theorem plog_looksUp (hc : (f.r.readG x.c).toNat < 16) :
    ∃ p, exec (.plog x) s = wrote s k sl f 0x6A (f.r.writeP x.d p) ∧ ∀ j, j < 64 →
      p.getLsbD j = if (f.r.pr x.pm).getLsbD j then
        (f.r.readG x.c).getLsbD (2 * ((f.r.readP x.a).getLsbD j).toNat + ((f.r.readP x.b).getLsbD j).toNat)
      else (f.r.readP x.d).getLsbD j := by
  have hbit : ∀ b : Bool, bit b = b.toNat := by decide
  refine ⟨mergeBits (f.r.readP x.d) (fun j => (f.r.pr x.pm).getLsbD j) fun j => (f.r.readG x.c).toNat.testBit
      (2 * bit ((f.r.readP x.a).getLsbD j) + bit ((f.r.readP x.b).getLsbD j)),
    exec_runsRegs (show execPlog x s = _ from rfl) h rfl rfl ?_, fun j hj => ?_⟩
  · rw [code_within (Nat.le_of_lt_succ hc)]
    rfl
  · rw [getLsbD_mergeBits _ _ _ hj, hbit, hbit]
    rfl

end

theorem vpcnt_writesG (x : RFields) : writesG (.vpcnt x) x.guard 0x69 x.d fun r =>
    BitVec.ofNat 64 ((List.range (2048 / x.ty.bits)).countP fun e => (r.readP x.a).getLsbD (e * x.ty.bits / 32)) := by
  refine writesG_of_writeG (i := .vpcnt x) (fun s => show execVpcnt x s = _ from rfl) rfl rfl fun r => ?_
  rw [picked_eq, List.countP_eq_length_filter]

/-- The flag with which an element enters a reduction (R244). -/
theorem enter_flag (t : Ty) (x : Reg) (r : Regs) (e : Nat) :
    (enter t (elemBits r x t.bits e)).2 = if t.isFloat && (elemFl t false x r e).isSig then 16 + 32 else 0 := by
  have hval : elemFl t false x r e = (tyFmt t).value (elemBits r x t.bits e) := congrArg _ (ite_self _)
  rw [enter, hval]
  cases t.isFloat with
  | false => rfl
  | true => cases (tyFmt t).value (elemBits r x t.bits e) <;> rfl

theorem enterFlags_eq (t : Ty) (x : Reg) (on : Nat → Bool) (r : Regs) : enterFlags t (r.v.get (vnum r x)) on = entering t x on r :=
  List.map_congr_left fun e _ => by rw [velem_eq, enter_flag]

section
variable {x : RFields} {s : State} {k : Nat} {sl : Slot} {f : Firing} (h : Runs s k sl f x.guard)
include h

theorem vred_reduces (ha : named x.a f.r) (hc : (f.r.readG x.c).toNat ≤ (if x.ty.isInt then 5 else 2)) :
    let c := (f.r.readG x.c).toNat
    let z := treeOf x.ty x.mods.sat c (f.r.v.get (vnum f.r x.a)) (enabledBy x.pm x.ty.bits f.r)
    raises (.vred x) s k f.r (entering x.ty x.a (enabledBy x.pm x.ty.bits f.r) f.r ++ z.2) fun q =>
      exec (.vred x) s = wrote s k sl f 0x63 (q.writeG x.d (widen x.ty (z.1.getD (identity x.ty c)))) := by
  intro c z
  refine raises_of_bind (i := .vred x) (fun s => show execVred x s = _ from rfl) rfl rfl h ?_ fun q _ hrun => hrun
  rw [code_within (hi := reduceLimit x.ty) hc, vec_of_named ha, ← enterFlags_eq]
  dsimp only [bind, Except.bind]
  rw [laneOn_eq_enabledBy]
  rfl

/-! ### Function codes beyond their range (11 R216) -/

theorem comparison_code_beyond (hc : 16 ≤ (f.r.readG x.c).toNat) :
    exec (.vcmp x) s = traps s k { code := 0x09, info := f.r.readG x.c } ∧
    exec (.plog x) s = traps s k { code := 0x09, info := f.r.readG x.c } := by
  constructor
  · show execVcmp x s = _
    rw [execVcmp, runRegs_runs h rfl rfl, Regs.compareVec, code_beyond hc]
    rfl
  · show execPlog x s = _
    rw [execPlog, runRegs_runs h rfl rfl, code_beyond hc]
    rfl

theorem reduction_code_beyond (hc : (if x.ty.isInt then 5 else 2) < (f.r.readG x.c).toNat) :
    exec (.vred x) s = traps s k { code := 0x09, info := f.r.readG x.c } ∧
    exec (.vscan x) s = traps s k { code := 0x09, info := f.r.readG x.c } ∧
    exec (.vseg x) s = traps s k { code := 0x09, info := f.r.readG x.c } := by
  have hcode : f.r.code x.c (reduceLimit x.ty) = .error (.trap { code := 0x09, info := f.r.readG x.c }) := code_beyond hc
  refine ⟨?_, ?_, ?_⟩
  · show execVred x s = _
    rw [execVred, runRegs_runs h rfl rfl, hcode]
    rfl
  · show execVscan x s = _
    rw [execVscan, runRegs_runs h rfl rfl, hcode]
    rfl
  · show execVseg x s = _
    rw [execVseg, runRegs_runs h rfl rfl, hcode]
    rfl

end

/-- Settles O8, clause by clause: a predicate is merged bit by bit, a count and a reduction go to a general register, and a function code
beyond its range traps before anything else. -/
theorem vectorPredicates : Obligations.VectorPredicates :=
  ⟨fun _ hty _ _ _ _ h ha hb hc => vcmp_compares h hty ha hb hc, fun _ _ _ _ _ h hc => plog_looksUp h hc, vpcnt_writesG,
    fun _ _ _ _ _ h ha hc => vred_reduces h ha hc, fun _ _ _ _ _ h hc => comparison_code_beyond h hc,
    fun _ _ _ _ _ h hc => reduction_code_beyond h hc⟩

end Sys2Proof.Proofs

/-! SUPPORT. Scans, segments and sorting of the elements of a vector (11 R246 to R248). -/

namespace Sys2Proof.Proofs

open Sys2Proof.Machine Sys2Proof.Safety Sys2Proof.Laws

/-! ### Values written to listed elements -/

/-- A table made from a list of keys holds the value of each key. -/
theorem find?_keyed {α : Type} (l : List Nat) (val : Nat → α) {i : Nat} (h : i ∈ l) :
    (l.map fun e => (e, val e)).find? (fun z => z.1 == i) = some (i, val i) := by
  induction l with
  | nil => cases h
  | cons e l ih =>
    rw [List.map_cons]
    by_cases he : e = i
    · rw [he, List.find?_cons_of_pos (by simp)]
    · rw [List.find?_cons_of_neg (by simpa using he), ih ((List.mem_cons.1 h).resolve_left (Ne.symm he))]

/-- A list that gives every enabled element a value writes these elements. -/
theorem putList_eq (r : Regs) (d : Fin 64) (w : Nat) (on : Nat → Bool) (val : Nat → Nat) :
    r.putList d w (((List.range (2048 / w)).filter on).map fun e => (e, val e)) = r.putElems d w on val := by
  refine congrArg (r.setV d) (vbuild_congr fun i hi => ?_)
  have hany : ((((List.range (2048 / w)).filter on).map fun e => (e, val e)).any fun z => z.1 == i) = on i := by
    rw [List.any_map, Bool.eq_iff_iff, List.any_eq_true]
    simp [hi]
  by_cases hon : on i = true
  · rw [if_pos (hany.trans hon), if_pos hon]
    dsimp only
    rw [find?_keyed _ _ (List.mem_filter.2 ⟨List.mem_range.2 hi, hon⟩)]
    rfl
  · rw [if_neg (hany.trans_ne hon), if_neg hon]

/-- Elements written after flags are raised: the rest of the registers is that of the raise. -/
theorem putElems_of_raise {r q : Regs} {l : List (Nat × Nat)} (h : r.raise l = .ok q) (d : Fin 64) (w : Nat) (on : Nat → Bool)
    (val : Nat → Nat) :
    let u := q.putElems d w on val
    u = { q with v := u.v } ∧ (∀ n, n ≠ d → u.v.get n = r.v.get n) ∧
      ∀ e, e < 2048 / w → velem (u.v.get d) w e = if on e then val e % 2 ^ w else velem (r.v.get d) w e := by
  obtain rfl := raise_ok h
  exact ⟨rfl, fun n hn => (get_setV _ _ _ _).trans (if_neg hn), fun e he => velem_putElems _ _ _ _ he⟩

/-! ### VSCAN (11 R246) -/

/-- The combination of the running value with an element. -/
def scanStep (t : Ty) (sat : Bool) (c : Nat) (x : Reg) (on : Nat → Bool) (r : Regs) (e : Nat) : Nat × Nat :=
  combine t sat c (running t sat c x on r e) (enter t (elemBits r x t.bits e)).1

section
variable (t : Ty) (sat : Bool) (c : Nat) (x : Reg) (on : Nat → Bool) (r : Regs)

theorem running_succ (e : Nat) :
    running t sat c x on r (e + 1) = if on e then (scanStep t sat c x on r e).1 else running t sat c x on r e := by
  rw [running, List.range_succ, List.filter_append, List.foldl_append]
  cases hon : on e with
  | true =>
    rw [List.filter_cons_of_pos hon]
    rfl
  | false =>
    rw [List.filter_cons_of_neg (by simp [hon])]
    rfl

/-- The elements from `n` on, `m` of them, with the running value before each. -/
theorem scanFrom_running (excl : Bool) (n m : Nat) :
    scanFrom t sat excl c (r.v.get (vnum r x)) ((List.range' n m).filter on) (running t sat c x on r n) =
      (((List.range' n m).filter on).map fun e => (e, if excl then running t sat c x on r e else (scanStep t sat c x on r e).1),
        ((List.range' n m).filter on).map fun e => (e, (scanStep t sat c x on r e).2)) := by
  induction m generalizing n with
  | zero => rfl
  | succ m ih =>
    have ih := ih (n + 1)
    rw [running_succ] at ih
    rw [List.range'_succ]
    cases hon : on n with
    | true =>
      rw [hon, if_pos rfl] at ih
      rw [List.filter_cons_of_pos hon, scanFrom, velem_eq]
      show ((_, _) :: (scanFrom t sat excl c _ _ (scanStep t sat c x on r n).1).1,
        (_, _) :: (scanFrom t sat excl c _ _ (scanStep t sat c x on r n).1).2) = _
      rw [ih]
      rfl
    | false =>
      rw [hon] at ih
      rw [List.filter_cons_of_neg (by simp [hon])]
      exact ih

theorem scanFrom_all (excl : Bool) (n : Nat) :
    scanFrom t sat excl c (r.v.get (vnum r x)) ((List.range n).filter on) (identity t c) =
      (((List.range n).filter on).map fun e => (e, if excl then running t sat c x on r e else (scanStep t sat c x on r e).1),
        ((List.range n).filter on).map fun e => (e, (scanStep t sat c x on r e).2)) := by
  rw [List.range_eq_range']
  exact scanFrom_running t sat c x on r excl 0 n

end

section
variable {x : RFields} {s : State} {k : Nat} {sl : Slot} {f : Firing} (h : Runs s k sl f x.guard)
include h

theorem vscan_raises (hd : named x.d f.r) (ha : named x.a f.r) (hc : (f.r.readG x.c).toNat ≤ (if x.ty.isInt then 5 else 2)) :
    raises (.vscan x) s k f.r (entering x.ty x.a (enabledBy x.pm x.ty.bits f.r) f.r ++
        flagList (2048 / x.ty.bits) (enabledBy x.pm x.ty.bits f.r) fun e =>
          (scanStep x.ty x.mods.sat (f.r.readG x.c).toNat x.a (enabledBy x.pm x.ty.bits f.r) f.r e).2) fun q =>
      exec (.vscan x) s = wrote s k sl f 0x64 (q.putElems (vnum f.r x.d) x.ty.bits (enabledBy x.pm x.ty.bits f.r) fun e =>
        if x.mods.w then running x.ty x.mods.sat (f.r.readG x.c).toNat x.a (enabledBy x.pm x.ty.bits f.r) f.r e
        else (scanStep x.ty x.mods.sat (f.r.readG x.c).toNat x.a (enabledBy x.pm x.ty.bits f.r) f.r e).1) := by
  refine raises_of_bind (i := .vscan x) (fun s => show execVscan x s = _ from rfl) rfl rfl h ?_ fun q _ hrun => hrun
  rw [code_within (hi := reduceLimit x.ty) hc, vecNum_of_named hd, vec_of_named ha, ← enterFlags_eq]
  dsimp only [bind, Except.bind]
  rw [laneOn_eq_enabledBy, elems, scanFrom_all]
  simp only [putList_eq]
  rfl

theorem vscan_scans (hd : named x.d f.r) (ha : named x.a f.r) (hc : (f.r.readG x.c).toNat ≤ (if x.ty.isInt then 5 else 2)) :
    let c := (f.r.readG x.c).toNat
    let on := enabledBy x.pm x.ty.bits f.r
    let w := x.ty.bits
    let next := scanStep x.ty x.mods.sat c x.a on f.r
    raises (.vscan x) s k f.r (entering x.ty x.a on f.r ++ flagList (2048 / w) on fun e => (next e).2) fun q =>
      ∃ r, exec (.vscan x) s = wrote s k sl f 0x64 r ∧ r = { q with v := r.v } ∧
        (∀ n, n ≠ vnum f.r x.d → r.v.get n = f.r.v.get n) ∧ ∀ e, e < 2048 / w → velem (r.v.get (vnum f.r x.d)) w e =
          if on e then (if x.mods.w then running x.ty x.mods.sat c x.a on f.r e else (next e).1) % 2 ^ w else elemBits f.r x.d w e := by
  obtain ⟨htrap, hgo⟩ := vscan_raises h hd ha hc
  exact ⟨htrap, fun q hq => ⟨_, hgo q hq, putElems_of_raise hq _ _ _ _⟩⟩

end

/-! ### VSEG (11 R247) -/

theorem segStart_le (start : Nat → Bool) (i : Nat) : segStart start i ≤ i := by
  induction i with
  | zero => exact le_rfl
  | succ i ih =>
    rw [segStart]
    split
    · exact le_rfl
    · exact ih.trans (Nat.le_succ i)

/-- No segment starts behind the start of an element's segment, up to the element. -/
theorem segStart_last (start : Nat → Bool) {i m : Nat} (h : segStart start i < m) (hm : m ≤ i) : start m = false := by
  induction i with
  | zero => exact absurd (h.trans_le hm) (Nat.not_lt_zero _)
  | succ i ih =>
    rw [segStart] at h
    split at h
    · exact absurd h (Nat.not_lt.2 hm)
    · rename_i hs
      rcases Nat.le_or_eq_of_le_succ hm with hm | rfl
      · exact ih h hm
      · exact Bool.eq_false_iff.2 hs

/-- Two elements lie in one segment when none starts behind the first up to the second. -/
theorem segStart_eq_iff (start : Nat → Bool) {e j : Nat} (h : e ≤ j) :
    segStart start e = segStart start j ↔ ∀ m, e < m → m ≤ j → start m = false := by
  constructor
  · intro heq m hlo hhi
    exact segStart_last start ((heq ▸ segStart_le start e).trans_lt hlo) hhi
  · intro hnone
    induction j, h using Nat.le_induction with
    | base => rfl
    | succ j hj ih =>
      rw [segStart, if_neg (by rw [hnone (j + 1) (Nat.lt_succ_of_le hj) le_rfl]; exact Bool.false_ne_true)]
      exact ih fun m hlo hhi => hnone m hlo (hhi.trans (Nat.le_succ j))

/-- The statement's words for one segment: no start between the elements. -/
theorem sameSegment_eq (start : Nat → Bool) {n e j : Nat} (he : e < n) (hj : j < n) : (segStart start j == segStart start e) =
    (List.range n).all fun m => !(decide (min e j < m ∧ m ≤ max e j) && (m == 0 || start m)) := by
  have hall : ((List.range n).all fun m => !(decide (min e j < m ∧ m ≤ max e j) && (m == 0 || start m))) = true ↔
      ∀ m, min e j < m → m ≤ max e j → start m = false := by
    rw [List.all_eq_true]
    constructor
    · intro hnone m hlo hhi
      have hm := hnone m (List.mem_range.2 (hhi.trans_lt (max_lt he hj)))
      rw [decide_eq_true ⟨hlo, hhi⟩, beq_eq_false_iff_ne.2 (Nat.ne_of_gt (Nat.zero_lt_of_lt hlo))] at hm
      simpa using hm
    · intro hnone m _
      by_cases hin : min e j < m ∧ m ≤ max e j
      · simp [hnone m hin.1 hin.2, Nat.ne_of_gt (Nat.zero_lt_of_lt hin.1)]
      · rw [decide_eq_false hin]
        rfl
  rw [Bool.eq_iff_iff, hall, beq_iff_eq]
  rcases Nat.le_total e j with hle | hle
  · rw [min_eq_left hle, max_eq_right hle, eq_comm]
    exact segStart_eq_iff start hle
  · rw [min_eq_right hle, max_eq_left hle]
    exact segStart_eq_iff start hle

theorem treeOf_congr (t : Ty) (sat : Bool) (c : Nat) (a : VReg) {live live' : Nat → Bool} (h : ∀ e, e < 2048 / t.bits → live e = live' e) :
    treeOf t sat c a live = treeOf t sat c a live' := by
  unfold treeOf
  rw [List.map_congr_left fun e he => by rw [h e (List.mem_range.1 he)]]

/-- The enabled elements, the starts of the segments that hold them, and the tree of the segment that starts at `n`. -/
def enabledElems (x : RFields) (r : Regs) : List Nat := (List.range (2048 / x.ty.bits)).filter (enabledBy x.pm x.ty.bits r)
def segHeads (x : RFields) (r : Regs) : List Nat :=
  (enabledElems x r).foldl (fun l e => addNum l (segStart (r.selected x.b x.ty.bits) e)) []
def segTree (x : RFields) (r : Regs) (n : Nat) : Option Nat × List (Nat × Nat) :=
  treeOf x.ty x.mods.sat (r.readG x.c).toNat (r.v.get (vnum r x.a)) fun e =>
    enabledBy x.pm x.ty.bits r e && segStart (r.selected x.b x.ty.bits) e == n

theorem mem_enabledElems {x : RFields} {r : Regs} {e : Nat} :
    e ∈ enabledElems x r ↔ e < 2048 / x.ty.bits ∧ enabledBy x.pm x.ty.bits r e = true := by
  rw [enabledElems, List.mem_filter, List.mem_range]

theorem mem_segHeads {x : RFields} {r : Regs} {n : Nat} :
    n ∈ segHeads x r ↔ ∃ e, e ∈ enabledElems x r ∧ segStart (r.selected x.b x.ty.bits) e = n := by
  rw [segHeads, ← List.foldl_map]
  refine mem_joinEvents.trans ?_
  simp

/-- The tree of an element's segment, in the statement's words. -/
theorem segTree_eq (x : RFields) (r : Regs) {e : Nat} (he : e < 2048 / x.ty.bits) :
    let starts := fun j => j == 0 || (r.readP x.b).getLsbD (j * x.ty.bits / 32)
    let same := fun e j => (List.range (2048 / x.ty.bits)).all fun m => !(decide (min e j < m ∧ m ≤ max e j) && starts m)
    segTree x r (segStart (r.selected x.b x.ty.bits) e) =
      treeOf x.ty x.mods.sat (r.readG x.c).toNat (r.v.get (vnum r x.a)) fun j => enabledBy x.pm x.ty.bits r j && same e j :=
  treeOf_congr _ _ _ _ fun j hj => by
    rw [sameSegment_eq _ he hj]
    simp only [selected_eq]

/-- Each enabled element finds the tree of its segment among those of the heads. -/
theorem putList_segTrees (q : Regs) (d : Fin 64) (x : RFields) (r : Regs) :
    q.putList d x.ty.bits ((enabledElems x r).map fun e => (e, ((((segHeads x r).map fun n => (n, segTree x r n)).find? fun z =>
        z.1 == segStart (r.selected x.b x.ty.bits) e).bind (·.2.1)).getD 0)) =
      q.putElems d x.ty.bits (enabledBy x.pm x.ty.bits r) fun e => (segTree x r (segStart (r.selected x.b x.ty.bits) e)).1.getD 0 := by
  refine (congrArg _ (List.map_congr_left fun e he => ?_)).trans (putList_eq q d x.ty.bits _ _)
  rw [find?_keyed _ _ (mem_segHeads.2 ⟨e, he, rfl⟩)]
  rfl

section
variable {x : RFields} {s : State} {k : Nat} {sl : Slot} {f : Firing} (h : Runs s k sl f x.guard)
include h

theorem vseg_raises (hd : named x.d f.r) (ha : named x.a f.r) (hc : (f.r.readG x.c).toNat ≤ (if x.ty.isInt then 5 else 2)) :
    raises (.vseg x) s k f.r (entering x.ty x.a (enabledBy x.pm x.ty.bits f.r) f.r ++ (segHeads x f.r).flatMap fun n => (segTree x f.r n).2)
      fun q => exec (.vseg x) s = wrote s k sl f 0x6E (q.putElems (vnum f.r x.d) x.ty.bits (enabledBy x.pm x.ty.bits f.r) fun e =>
        (segTree x f.r (segStart (f.r.selected x.b x.ty.bits) e)).1.getD 0) := by
  refine raises_of_bind (i := .vseg x) (fun s => show execVseg x s = _ from rfl) rfl rfl h ?_ fun q _ hrun => hrun
  rw [code_within (hi := reduceLimit x.ty) hc, vecNum_of_named hd, vec_of_named ha, ← enterFlags_eq]
  dsimp only [bind, Except.bind]
  rw [laneOn_eq_enabledBy, ← List.flatMap_map (fun n => (n, segTree x f.r n)) fun z => z.2.2]
  simp only [← putList_segTrees]
  rfl

theorem vseg_reduces (hd : named x.d f.r) (ha : named x.a f.r) (hc : (f.r.readG x.c).toNat ≤ (if x.ty.isInt then 5 else 2)) :
    let on := enabledBy x.pm x.ty.bits f.r
    let w := x.ty.bits
    let starts := fun j => j == 0 || (f.r.readP x.b).getLsbD (j * w / 32)
    let same := fun e j => (List.range (2048 / w)).all fun m => !(decide (min e j < m ∧ m ≤ max e j) && starts m)
    let tree := fun e => treeOf x.ty x.mods.sat (f.r.readG x.c).toNat (f.r.v.get (vnum f.r x.a)) fun j => on j && same e j
    ∃ l, (∀ p, p ∈ l ↔ p ∈ entering x.ty x.a on f.r ∨ ∃ e, e < 2048 / w ∧ on e = true ∧ p ∈ (tree e).2) ∧
      raises (.vseg x) s k f.r l fun q => ∃ r, exec (.vseg x) s = wrote s k sl f 0x6E r ∧ r = { q with v := r.v } ∧
        (∀ n, n ≠ vnum f.r x.d → r.v.get n = f.r.v.get n) ∧ ∀ e, e < 2048 / w → velem (r.v.get (vnum f.r x.d)) w e =
          if on e then ((tree e).1).getD 0 % 2 ^ w else elemBits f.r x.d w e := by
  intro on w starts same tree
  have htree : ∀ e, e < 2048 / w → segTree x f.r (segStart (f.r.selected x.b w) e) = tree e := fun e he => segTree_eq x f.r he
  obtain ⟨htrap, hgo⟩ := vseg_raises h hd ha hc
  refine ⟨_, fun p => ?_, htrap, fun q hq => ?_⟩
  · rw [List.mem_append, List.mem_flatMap]
    refine or_congr_right ⟨?_, ?_⟩
    · rintro ⟨n, hn, hp⟩
      obtain ⟨e, hmem, rfl⟩ := mem_segHeads.1 hn
      obtain ⟨he, hon⟩ := mem_enabledElems.1 hmem
      exact ⟨e, he, hon, htree e he ▸ hp⟩
    · rintro ⟨e, he, hon, hp⟩
      exact ⟨_, mem_segHeads.2 ⟨e, mem_enabledElems.2 ⟨he, hon⟩, rfl⟩, (htree e he).symm ▸ hp⟩
  · obtain ⟨hrest, hother, helem⟩ := putElems_of_raise hq (vnum f.r x.d) w on fun e =>
      (segTree x f.r (segStart (f.r.selected x.b w) e)).1.getD 0
    refine ⟨_, hgo q hq, hrest, hother, fun e he => ?_⟩
    rw [helem e he, htree e he]
    rfl

end

/-! ### The order of VSORT (11 R248) -/

/-- A strict order in which elements may stand on a level: no two come before each other, and of two in order one stands in order with
any third. -/
def ordersWeakly (before : Nat → Nat → Bool) : Prop :=
  (∀ a b, before a b = true → before b a = false) ∧ ∀ a b c, before a c = true → before a b = true ∨ before b c = true

theorem ordersWeakly.comp {before : Nat → Nat → Bool} (h : ordersWeakly before) (g : Nat → Nat) :
    ordersWeakly fun i j => before (g i) (g j) := ⟨fun _ _ => h.1 _ _, fun _ _ _ => h.2 _ _ _⟩

theorem ordersWeakly_of_key {β : Type} [LinearOrder β] (key : Nat → β) {before : Nat → Nat → Bool}
    (h : ∀ a b, before a b = true ↔ key a < key b) : ordersWeakly before := by
  refine ⟨fun a b hab => Bool.eq_false_iff.2 fun hba => ?_, fun a b c hac => ?_⟩
  · exact lt_asymm ((h a b).1 hab) ((h b a).1 hba)
  · rw [h] at hac ⊢
    rw [h]
    exact (lt_or_ge (key a) (key b)).imp_right fun hle => hle.trans_lt hac

/-- A value that is no fraction over zero. -/
def proper : FVal → Prop
  | .num _ _ d => 0 < d
  | _ => True

theorem scale2_pos (n : Nat) (e : Int) : 0 < (scale2 n e).2 := by
  unfold scale2
  split
  · exact Nat.one_pos
  · exact Nat.two_pow_pos _

theorem proper_value (F : FloatFmt) (x : Nat) : proper (F.value x) := by
  unfold FloatFmt.value
  dsimp only
  split
  · split <;> trivial
  · split
    · trivial
    · split <;> exact scale2_pos ..

/-- The place of a value on the line with its two ends; zeros share one. -/
def place : FVal → ℤ ×ₗ ℚ
  | .nan _ => toLex (0, 0)
  | .inf neg => toLex (if neg then -1 else 1, 0)
  | .num neg n d => toLex (0, if neg then -(n / d) else n / d)

theorem frac_lt_iff {a b c d : Nat} (hb : 0 < b) (hd : 0 < d) : (a / b : ℚ) < c / d ↔ a * d < c * b := by
  rw [div_lt_div_iff₀ (by exact_mod_cast hb) (by exact_mod_cast hd)]
  exact_mod_cast Iff.rfl

theorem lt_iff_place {x y : FVal} (hx : proper x) (hy : proper y) (hnx : x.isNan = false) (hny : y.isNan = false) :
    x.lt y = true ↔ place x < place y := by
  cases x with
  | nan _ => cases hnx
  | inf a =>
    cases y with
    | nan _ => cases hny
    | inf b => cases a <;> cases b <;> simp [FVal.lt, place, Prod.Lex.toLex_lt_toLex]
    | num => cases a <;> simp [FVal.lt, place, Prod.Lex.toLex_lt_toLex]
  | num n1 a b =>
    cases y with
    | nan _ => cases hny
    | inf b => cases b <;> simp [FVal.lt, place, Prod.Lex.toLex_lt_toLex]
    | num n2 c d =>
      have hb : (0 : ℚ) < b := by exact_mod_cast hx
      have hd : (0 : ℚ) < d := by exact_mod_cast hy
      have ha : (0 : ℚ) ≤ a / b := by positivity
      have hc : (0 : ℚ) ≤ c / d := by positivity
      rw [place, place, Prod.Lex.toLex_lt_toLex]
      cases n1 with
      | true =>
        cases n2 with
        | true => simp [FVal.lt, frac_lt_iff hy hx]
        | false =>
          have hzero : (-(a / b : ℚ) < c / d) ↔ a ≠ 0 ∨ c ≠ 0 := by
            constructor
            · intro hlt
              by_contra hnone
              obtain ⟨rfl, rfl⟩ : a = 0 ∧ c = 0 := by omega
              simp at hlt
            · rintro (hne | hne)
              · have hpos : (0 : ℚ) < a / b := div_pos (by exact_mod_cast Nat.pos_of_ne_zero hne) hb
                linarith
              · have hpos : (0 : ℚ) < c / d := div_pos (by exact_mod_cast Nat.pos_of_ne_zero hne) hd
                linarith
          simp [FVal.lt, hzero]
      | false =>
        cases n2 with
        | true =>
          simp [FVal.lt]
          linarith
        | false => simp [FVal.lt, frac_lt_iff hx hy]

/-- The place with the sign, which orders the two zeros. -/
def signedPlace (x : FVal) : (ℤ ×ₗ ℚ) ×ₗ ℕ := toLex (place x, bit (!x.isNeg))

theorem less_iff_signedPlace {x y : FVal} (hx : proper x) (hy : proper y) (hnx : x.isNan = false) (hny : y.isNan = false) :
    (x.lt y || (!y.lt x && x.isNeg && !y.isNeg)) = true ↔ signedPlace x < signedPlace y := by
  have hsign : bit (!x.isNeg) < bit (!y.isNeg) ↔ x.isNeg = true ∧ y.isNeg = false := by
    cases x.isNeg <;> cases y.isNeg <;> decide
  rw [signedPlace, signedPlace, Prod.Lex.toLex_lt_toLex, hsign, Bool.or_eq_true, Bool.and_eq_true, Bool.and_eq_true, Bool.not_eq_true',
    Bool.not_eq_true', Bool.eq_false_iff (b := y.lt x), ne_eq, lt_iff_place hx hy hnx hny, lt_iff_place hy hx hny hnx, and_assoc]
  rcases lt_trichotomy (place x) (place y) with hlt | heq | hgt
  · simp [hlt]
  · simp [heq]
  · simp [hgt, hgt.ne', lt_asymm hgt]

/-- An order with NaNs behind the other values. -/
theorem nansLast_iff {β : Type} [LinearOrder β] {key : FVal → β} {less : Bool} {x y : FVal}
    (hless : x.isNan = false → y.isNan = false → (less = true ↔ key x < key y)) (hnan : x.isNan = true → y.isNan = true → key x = key y) :
    (if x.isNan then false else if y.isNan then true else less) = true ↔ toLex (bit x.isNan, key x) < toLex (bit y.isNan, key y) := by
  rw [Prod.Lex.toLex_lt_toLex]
  cases hx : x.isNan <;> cases hy : y.isNan
  · simpa [bit] using hless hx hy
  · simp [bit]
  · simp [bit]
  · simp [bit, hnan hx hy]

/-- The place of a pattern in a rising and in a falling order. -/
def risingKey (F : FloatFmt) (a : Nat) : ℕ ×ₗ ((ℤ ×ₗ ℚ) ×ₗ ℕ) := toLex (bit (F.value a).isNan, signedPlace (F.value a))
def fallingKey (F : FloatFmt) (a : Nat) : ℕ ×ₗ ((ℤ ×ₗ ℚ) ×ₗ ℕ)ᵒᵈ :=
  toLex (bit (F.value a).isNan, OrderDual.toDual (signedPlace (F.value a)))

theorem signedPlace_nan {x y : FVal} (hx : x.isNan = true) (hy : y.isNan = true) : signedPlace x = signedPlace y := by
  cases x with
  | inf _ => cases hx
  | num _ _ _ => cases hx
  | nan _ =>
    cases y with
    | nan _ => rfl
    | inf _ => cases hy
    | num _ _ _ => cases hy

theorem sortsBefore_rising {t : Ty} (h : t.isInt = false) (a b : Nat) :
    sortsBefore t false a b = true ↔ risingKey (tyFmt t) a < risingKey (tyFmt t) b := by
  rw [sortsBefore, h]
  exact nansLast_iff (less_iff_signedPlace (proper_value _ a) (proper_value _ b)) signedPlace_nan

theorem sortsBefore_falling {t : Ty} (h : t.isInt = false) (a b : Nat) :
    sortsBefore t true a b = true ↔ fallingKey (tyFmt t) a < fallingKey (tyFmt t) b := by
  rw [sortsBefore, h]
  exact nansLast_iff (key := fun v => OrderDual.toDual (signedPlace v))
    (fun hx hy => less_iff_signedPlace (proper_value _ b) (proper_value _ a) hy hx) signedPlace_nan

theorem sortsBefore_ordersWeakly (t : Ty) (desc : Bool) : ordersWeakly (sortsBefore t desc) := by
  cases hint : t.isInt with
  | true =>
    cases desc with
    | true => exact ordersWeakly_of_key (fun a => OrderDual.toDual (intVal t a)) fun a b => by simp [sortsBefore, hint]
    | false => exact ordersWeakly_of_key (intVal t) fun a b => by simp [sortsBefore, hint]
  | false =>
    cases desc with
    | true => exact ordersWeakly_of_key (fallingKey (tyFmt t)) (sortsBefore_falling hint)
    | false => exact ordersWeakly_of_key (risingKey (tyFmt t)) (sortsBefore_rising hint)

/-! ### VSORT (11 R248) -/

section
variable {before : Nat → Nat → Bool}

theorem insertSorted_perm (before : Nat → Nat → Bool) (e : Nat) (l : List Nat) : (insertSorted before e l).Perm (e :: l) := by
  induction l with
  | nil => exact .rfl
  | cons j l ih =>
    rw [insertSorted]
    split
    · exact .rfl
    · exact (ih.cons j).trans (.swap e j l)

/-- Element `i` may stand before element `j`: `j` does not come before it, and where neither does `i` is the lower. -/
def standsBefore (before : Nat → Nat → Bool) (i j : Nat) : Prop := before j i = false ∧ (before i j = true ∨ i < j)

theorem insertSorted_standsBefore (hw : ordersWeakly before) {e : Nat} {l : List Nat} (hl : l.Pairwise (standsBefore before))
    (he : ∀ i, i ∈ l → i < e) : (insertSorted before e l).Pairwise (standsBefore before) := by
  obtain ⟨hasymm, hweak⟩ := hw
  induction l with
  | nil => exact List.pairwise_singleton _ _
  | cons j l ih =>
    obtain ⟨hj, htail⟩ := List.pairwise_cons.1 hl
    rw [insertSorted]
    split
    · rename_i hej
      refine List.pairwise_cons.2 ⟨fun i hi => ?_, hl⟩
      have hei : before e i = true := by
        rcases List.mem_cons.1 hi with rfl | hi
        · exact hej
        · exact (hweak e i j hej).resolve_right (by rw [(hj i hi).1]; exact Bool.false_ne_true)
      exact ⟨hasymm e i hei, .inl hei⟩
    · rename_i hej
      refine List.pairwise_cons.2 ⟨fun i hi => ?_, ih htail fun i hi => he i (List.mem_cons_of_mem j hi)⟩
      rcases List.mem_cons.1 ((insertSorted_perm before e l).mem_iff.1 hi) with rfl | hi
      · exact ⟨Bool.eq_false_iff.2 hej, .inr (he j List.mem_cons_self)⟩
      · exact hj i hi

/-- The elements of a list inserted in turn. -/
def sortedFrom (before : Nat → Nat → Bool) (l acc : List Nat) : List Nat := l.foldl (fun l e => insertSorted before e l) acc

theorem sortedFrom_perm (before : Nat → Nat → Bool) (l acc : List Nat) : (sortedFrom before l acc).Perm (acc ++ l) := by
  induction l generalizing acc with
  | nil => rw [List.append_nil]; exact .rfl
  | cons e l ih => exact (ih _).trans (((insertSorted_perm before e acc).append_right l).trans List.perm_middle.symm)

theorem sortedFrom_standsBefore (hw : ordersWeakly before) {l acc : List Nat} (hl : l.Pairwise (· < ·))
    (hacc : acc.Pairwise (standsBefore before)) (hlt : ∀ i, i ∈ acc → ∀ e, e ∈ l → i < e) :
    (sortedFrom before l acc).Pairwise (standsBefore before) := by
  induction l generalizing acc with
  | nil => exact hacc
  | cons e l ih =>
    obtain ⟨he, hl⟩ := List.pairwise_cons.1 hl
    refine ih hl (insertSorted_standsBefore hw hacc fun i hi => hlt i hi e List.mem_cons_self) fun i hi j hj => ?_
    rcases List.mem_cons.1 ((insertSorted_perm before e acc).mem_iff.1 hi) with rfl | hi
    · exact he j hj
    · exact hlt i hi j (List.mem_cons_of_mem e hj)

end

/-- The elements that VSORT selects, in its order. -/
def sortOrder (x : RFields) (r : Regs) : List Nat :=
  sortedFrom (fun i j => sortsBefore x.ty x.mods.w (elemBits r x.a x.ty.bits i) (elemBits r x.a x.ty.bits j)) (r.picked x.b x.ty.bits) []

theorem sortOrder_perm (x : RFields) (r : Regs) :
    (sortOrder x r).Perm ((List.range (2048 / x.ty.bits)).filter fun j => (r.readP x.b).getLsbD (j * x.ty.bits / 32)) := by
  rw [← picked_eq]
  exact sortedFrom_perm _ _ []

theorem sortOrder_standsBefore (x : RFields) (r : Regs) : (sortOrder x r).Pairwise
    (standsBefore fun i j => sortsBefore x.ty x.mods.w (elemBits r x.a x.ty.bits i) (elemBits r x.a x.ty.bits j)) :=
  sortedFrom_standsBefore ((sortsBefore_ordersWeakly x.ty x.mods.w).comp _) (List.pairwise_lt_range.filter _) List.Pairwise.nil
    fun _ hi => (List.not_mem_nil hi).elim

theorem vsort_writesElems (x : RFields) : writesElems (.vsort x) x.guard 0x6D x.d (named x.a) x.ty.bits (enabledBy x.pm x.ty.bits)
    fun r e => (sortOrder x r).getD e (2 ^ x.ty.bits - 1) := by
  refine writesElems_of_move (i := .vsort x) (fun s => show execVsort x s = _ from rfl) rfl rfl fun r hd ha => ?_
  rw [vecNum_of_named hd, vec_of_named ha]
  exact ⟨_, rfl, fun e _ => (List.getD_eq_getElem?_getD ..).symm⟩

/-- Settles O9: VSCAN and VSEG write lists of values under the flags that they raise, and VSORT inserts one element after another into an
order that leaves no element before an earlier one. -/
theorem scansAndSorting : Obligations.ScansAndSorting :=
  ⟨fun _ _ _ _ _ h hd ha hc => vscan_scans h hd ha hc, fun _ _ _ _ _ h hd ha hc => vseg_reduces h hd ha hc, fun x =>
    ⟨sortOrder x, sortOrder_perm x, sortOrder_standsBefore x, vsort_writesElems x⟩⟩

end Sys2Proof.Proofs
